-- ==== Sys2Proof/Word.lean ====
section
/-!
DEFINITION. The word types of the CX810-A and their plainest arithmetic.
-/
namespace Sys2Proof

/-- An 8-bit byte (R3). -/
abbrev Byte := BitVec 8

/-- A 32-bit general register or instruction word (R31, R43). -/
abbrev Word := BitVec 32

/-- A 64-bit register pair (R3). -/
abbrev DWord := BitVec 64

end Sys2Proof
end

