-- ==== Sys2Proof/Config.lean ====
section
/-!
DEFINITION. What the implementation fixes and the spec leaves open: free values.

A free value is an opaque constant applied to a counter or to the operands it depends on. No proof can see a value of
it, so a claim that mentions one holds for every value.
-/
namespace Sys2Proof

/-- A 32-bit free value for each draw of the model's counter. -/
opaque Config.freeWord : Nat → BitVec 32

/-- A free truth value for each draw of the model's counter. -/
opaque Config.freeBit : Nat → Bool

/-- A free number for each draw of the model's counter. -/
opaque Config.freeNat : Nat → Nat

/-- The package a fibre pair is joined to (R448, R475). -/
opaque Config.partner : Nat → Nat

/-- The bytes of the device identity public key (R454). -/
opaque Config.identityKey : Nat → BitVec 8

/-- What the spec states of a coded frame's header: sequence header or frame header, key frame, bits of a sample, quantiser
index, width, height, lines of a tile row, and whether LAST_FRAME is used (R389). -/
structure Config.Coding where
  sequence : Bool
  key : Bool
  sampleBits : Nat
  qbase : Nat
  width : Nat
  height : Nat
  rowLines : Nat
  lastFrame : Bool
  deriving DecidableEq, Repr

/-- The bytes an encoder gives a coded header, for each draw, from what the spec states of the coding (R389). -/
opaque Config.av1Header : Nat → Config.Coding → List (BitVec 8)

/-- The bytes of a coded tile: draw, key frame, quantiser index, bits of a sample, the samples coded, and those of the
reference frame (R389). -/
opaque Config.av1Tile : Nat → Bool → Nat → Nat → List Nat → List Nat → List (BitVec 8)

/-- A sample of a tile as its decoder reconstructs it: the same operands, and the sample's index (R389). -/
opaque Config.av1Sample : Nat → Bool → Nat → Nat → List Nat → List Nat → Nat → Nat

end Sys2Proof
end

