-- ==== Sys2Proof/Syntax.lean ====
section
/-!
DEFINITION. The instruction set: one constructor for each row of spec/opcode_table.json.

A row with an encoding takes its fields as that row names them (`sw` is the switch marker S, bit 31).
A row without an encoding is a step of a device unit, of the links or of the host. Its arguments say which unit,
command or thread acts, and carry what comes from outside the die (a host's register value, another package's reply).
-/
namespace Sys2Proof

/-- A request of another package as it arrives over Tsuxus (R449, R451). -/
structure RemoteRequest where
  /-- The requesting package. -/
  src : Nat
  /-- The slice the request is for. -/
  slice : Nat
  /-- The request's sequence number. -/
  seq : Nat
  /-- The seal the request carries. -/
  sealId : Nat
  /-- Request kind: 0 load, 1 store, 2 atomic, 3 copy burst read, 4 exact add, 5 exact read, 6 exact clear. -/
  kind : Nat
  /-- Virtual address in this package's global window. -/
  va : Nat
  /-- Byte count of a load. -/
  len : Nat
  /-- Operation control (an atomic's operation code). -/
  op : Nat
  /-- The requester's logical time. -/
  pts : Nat
  /-- Bytes of a store or operands of an atomic, low byte first. -/
  data : List Byte
  deriving DecidableEq, Repr

/-- How a step performs an outstanding access: whole, or with a freedom R201 gives weak accesses. -/
inductive Way where
  /-- As one access. -/
  | whole
  /-- Its `n` bytes from the place `off` among them only (split). -/
  | part (off n : Nat)
  /-- From the thread's own latest access, or not at all under a later store (elide). -/
  | elide
  /-- Once more (repeat). -/
  | again
  /-- Together with the thread's operations of those numbers, as one access (merge). -/
  | merged (seqs : List Nat)
  deriving DecidableEq, Repr

/-- A burst of a copy command: the command's number, and the burst's place in its window (R266). -/
structure BurstAt where
  cmd : Nat
  place : Nat
  deriving DecidableEq, Repr

/-- The entry an error check reports on (R420): structure code and where it stands. -/
structure ErrUnit where
  /-- Structure code of R420. -/
  struct : Nat
  /-- Core, station or slice number. -/
  place : Nat
  /-- Entry within it: a byte offset, a line address, a register, slot or command number. -/
  entry : Nat
  /-- Both checked copies of a seal-0 structure are damaged (R421). -/
  both : Bool
  /-- The seal the entry carries, where no other state tells it: an LPDDR line's page, a flit's sender. -/
  tag : Nat
  deriving DecidableEq, Repr

inductive Instr where
  /-- NOP (R38). -/
  | nop (sw : Bool)
  /-- EXT_CONTROL_FORM (R39). -/
  | extControlForm (p : BitVec 3) (n e : Bool) (r : BitVec 3) (t : Bool) (c : BitVec 6) (l : Bool)
  /-- EXT_IMMEDIATE_FORM (R39). -/
  | extImmediateForm (i : BitVec 20)
  /-- MOV (R112). -/
  | mov (sw : Bool) (d a : BitVec 6) (x : Bool)
  /-- MOVI (R112). -/
  | movi (sw : Bool) (d : BitVec 6) (i : BitVec 15)
  /-- MOVH (R112). -/
  | movh (sw : Bool) (d : BitVec 6) (i : BitVec 15)
  /-- MOVS (R113). -/
  | movs (sw : Bool) (d : BitVec 6) (i : BitVec 15)
  /-- IADD (R114). -/
  | iadd (sw : Bool) (d a b : BitVec 6) (x y m : Bool)
  /-- ISUB (R114). -/
  | isub (sw : Bool) (d a b : BitVec 6) (x y m : Bool)
  /-- IADDC (R115). -/
  | iaddc (sw : Bool) (d a b : BitVec 6) (x y m : Bool)
  /-- IMUL (R116). -/
  | imul (sw : Bool) (d a b : BitVec 6) (x y : Bool)
  /-- IMULH (R116). -/
  | imulh (sw : Bool) (d a b : BitVec 6) (x y m : Bool)
  /-- IMAD (R116). -/
  | imad (sw : Bool) (d a b : BitVec 6) (x y m : Bool)
  /-- IDIV (R117). -/
  | idiv (sw : Bool) (d a b : BitVec 6) (x y m : Bool)
  /-- IREM (R117). -/
  | irem (sw : Bool) (d a b : BitVec 6) (x y m : Bool)
  /-- INEG (R118). -/
  | ineg (sw : Bool) (d a : BitVec 6) (x : Bool)
  /-- IABS (R118). -/
  | iabs (sw : Bool) (d a : BitVec 6) (x : Bool)
  /-- IMIN (R118). -/
  | imin (sw : Bool) (d a b : BitVec 6) (x y m : Bool)
  /-- IMAX (R118). -/
  | imax (sw : Bool) (d a b : BitVec 6) (x y m : Bool)
  /-- AND (R119). -/
  | and (sw : Bool) (d a b : BitVec 6) (x y : Bool)
  /-- OR (R119). -/
  | or (sw : Bool) (d a b : BitVec 6) (x y : Bool)
  /-- XOR (R119). -/
  | xor (sw : Bool) (d a b : BitVec 6) (x y : Bool)
  /-- NOT (R119). -/
  | not (sw : Bool) (d a : BitVec 6) (x : Bool)
  /-- ANDN (R119). -/
  | andn (sw : Bool) (d a b : BitVec 6) (x y : Bool)
  /-- SHL (R120). -/
  | shl (sw : Bool) (d a b : BitVec 6) (x y : Bool)
  /-- SHR (R120). -/
  | shr (sw : Bool) (d a b : BitVec 6) (x y : Bool)
  /-- SAR (R120). -/
  | sar (sw : Bool) (d a b : BitVec 6) (x y : Bool)
  /-- ROT (R120). -/
  | rot (sw : Bool) (d a b : BitVec 6) (x y m : Bool)
  /-- BFX (R121). -/
  | bfx (sw : Bool) (d a b : BitVec 6) (x y m : Bool)
  /-- BFI (R121). -/
  | bfi (sw : Bool) (d a b : BitVec 6) (x y : Bool)
  /-- POPC (R122). -/
  | popc (sw : Bool) (d a : BitVec 6) (x : Bool)
  /-- CLZ (R122). -/
  | clz (sw : Bool) (d a : BitVec 6) (x : Bool)
  /-- BREV (R122). -/
  | brev (sw : Bool) (d a : BitVec 6) (x : Bool)
  /-- ISETP (R123). -/
  | isetp (sw : Bool) (c p : BitVec 3) (a b : BitVec 6) (x y m : Bool)
  /-- SEL (R124). -/
  | sel (sw : Bool) (d a b : BitVec 6) (x y m : Bool)
  /-- PLOP (R125). -/
  | plop (sw : Bool) (o p q r : BitVec 3) (m : Bool)
  /-- LEA (R126). -/
  | lea (sw : Bool) (d a b : BitVec 6) (x y m : Bool)
  /-- ADD64 (R127). -/
  | add64 (sw : Bool) (d a b : BitVec 6) (x y m : Bool)
  /-- IDP4 (R128). -/
  | idp4 (sw : Bool) (d a b : BitVec 6) (x y m : Bool)
  /-- MIX32 (R129). -/
  | mix32 (sw : Bool) (d a b : BitVec 6) (x y : Bool)
  /-- IADDI (R114). -/
  | iaddi (sw : Bool) (d a : BitVec 6) (i : BitVec 7) (x m : Bool)
  /-- ANDI (R119). -/
  | andi (sw : Bool) (d a : BitVec 6) (i : BitVec 7) (x : Bool)
  /-- ORI (R119). -/
  | ori (sw : Bool) (d a : BitVec 6) (i : BitVec 7) (x : Bool)
  /-- XORI (R119). -/
  | xori (sw : Bool) (d a : BitVec 6) (i : BitVec 7) (x : Bool)
  /-- SHLI (R120). -/
  | shli (sw : Bool) (d a : BitVec 6) (i : BitVec 7) (x : Bool)
  /-- SHRI (R120). -/
  | shri (sw : Bool) (d a : BitVec 6) (i : BitVec 7) (x : Bool)
  /-- SARI (R120). -/
  | sari (sw : Bool) (d a : BitVec 6) (i : BitVec 7) (x : Bool)
  /-- ISETPI (R123). -/
  | isetpi (sw : Bool) (c p : BitVec 3) (a : BitVec 6) (i : BitVec 7) (x m : Bool)
  /-- FADD (R162). -/
  | fadd (sw : Bool) (d a b : BitVec 6) (x y : Bool)
  /-- FSUB (R162). -/
  | fsub (sw : Bool) (d a b : BitVec 6) (x y : Bool)
  /-- FMUL (R162). -/
  | fmul (sw : Bool) (d a b : BitVec 6) (x y : Bool)
  /-- FMAD (R162). -/
  | fmad (sw : Bool) (d a b : BitVec 6) (x y m : Bool)
  /-- FMIN (R164). -/
  | fmin (sw : Bool) (d a b : BitVec 6) (x y : Bool)
  /-- FMAX (R164). -/
  | fmax (sw : Bool) (d a b : BitVec 6) (x y : Bool)
  /-- FNEG (R163). -/
  | fneg (sw : Bool) (d a : BitVec 6) (x : Bool)
  /-- FABS (R163). -/
  | fabs (sw : Bool) (d a : BitVec 6) (x : Bool)
  /-- FSETP (R165). -/
  | fsetp (sw : Bool) (c p : BitVec 3) (a b : BitVec 6) (x y m : Bool)
  /-- FDIV (R166). -/
  | fdiv (sw : Bool) (d a b : BitVec 6) (x y : Bool)
  /-- FRCP (R166). -/
  | frcp (sw : Bool) (d a : BitVec 6) (x : Bool)
  /-- FSQRT (R166). -/
  | fsqrt (sw : Bool) (d a : BitVec 6) (x : Bool)
  /-- FRSQ (R166). -/
  | frsq (sw : Bool) (d a : BitVec 6) (x : Bool)
  /-- FEXP2 (R166). -/
  | fexp2 (sw : Bool) (d a : BitVec 6) (x : Bool)
  /-- FLOG2 (R166). -/
  | flog2 (sw : Bool) (d a : BitVec 6) (x : Bool)
  /-- FSINPI (R166). -/
  | fsinpi (sw : Bool) (d a : BitVec 6) (x : Bool)
  /-- FCOSPI (R166). -/
  | fcospi (sw : Bool) (d a : BitVec 6) (x : Bool)
  /-- FRND (R167). -/
  | frnd (sw : Bool) (d a : BitVec 6) (x m : Bool)
  /-- FCLASS (R168). -/
  | fclass (sw : Bool) (d a : BitVec 6) (x : Bool)
  /-- FSCALE (R169). -/
  | fscale (sw : Bool) (d a b : BitVec 6) (x y : Bool)
  /-- FEXPO (R170). -/
  | fexpo (sw : Bool) (d a : BitVec 6) (x : Bool)
  /-- TWOSUM (R171). -/
  | twosum (sw : Bool) (d a b : BitVec 6) (x y : Bool)
  /-- PADD (R172). -/
  | padd (sw : Bool) (d a b : BitVec 6) (x y : Bool)
  /-- PRD (R173). -/
  | prd (sw : Bool) (d a : BitVec 6) (x : Bool)
  /-- HADD2 (R174). -/
  | hadd2 (sw : Bool) (d a b : BitVec 6) (x y m : Bool)
  /-- HMUL2 (R174). -/
  | hmul2 (sw : Bool) (d a b : BitVec 6) (x y m : Bool)
  /-- HFMA2 (R174). -/
  | hfma2 (sw : Bool) (d a b : BitVec 6) (x y m : Bool)
  /-- CVTFI (R148). -/
  | cvtfi (sw : Bool) (d a b : BitVec 6) (x y m : Bool)
  /-- CVTIF (R149). -/
  | cvtif (sw : Bool) (d a b : BitVec 6) (x y m : Bool)
  /-- CVTFF (R151). -/
  | cvtff (sw : Bool) (d a b : BitVec 6) (x y : Bool)
  /-- NXEL (R152). -/
  | nxel (sw : Bool) (d a b : BitVec 6) (x y : Bool)
  /-- MXEL (R153). -/
  | mxel (sw : Bool) (d a b : BitVec 6) (x y : Bool)
  /-- FMTCHK (R154). -/
  | fmtchk (sw : Bool) (d a : BitVec 6) (x : Bool)
  /-- BRA (R91). -/
  | bra (sw : Bool) (o : BitVec 21)
  /-- BRP (R92). -/
  | brp (sw : Bool) (p : BitVec 3) (n : Bool) (o : BitVec 17)
  /-- BRX (R93). -/
  | brx (sw : Bool) (a : BitVec 6) (x : Bool)
  /-- CALL (R94). -/
  | call (sw : Bool) (o : BitVec 21)
  /-- CALLX (R94). -/
  | callx (sw : Bool) (a : BitVec 6) (x : Bool)
  /-- RET (R96). -/
  | ret (sw : Bool)
  /-- LGJOIN (R97). -/
  | lgjoin (sw : Bool) (a : BitVec 6) (i : BitVec 7) (x : Bool)
  /-- LGWAIT (R98). -/
  | lgwait (sw : Bool) (a : BitVec 6) (x : Bool)
  /-- LGDROP (R99). -/
  | lgdrop (sw : Bool) (a : BitVec 6) (x : Bool)
  /-- LGREAD (R100). -/
  | lgread (sw : Bool) (d a : BitVec 6) (i : BitVec 7) (x : Bool)
  /-- MEETSET (R101). -/
  | meetset (sw : Bool) (o : BitVec 21)
  /-- REGROUP (R102). -/
  | regroup (sw : Bool) (a b : BitVec 6) (x y : Bool)
  /-- REGROUP_COMPLETION (R102). -/
  | regroupCompletion (team : Nat)
  /-- YIELD (R103). -/
  | yield (sw : Bool)
  /-- PAUSE (R104). -/
  | pause (sw : Bool) (i : BitVec 7)
  /-- PAUSE_EXPIRY (R104). -/
  | pauseExpiry (th : Nat)
  /-- EXIT (R105). -/
  | exit (sw : Bool)
  /-- LAUNCH (R106). -/
  | launch (sw : Bool) (d a : BitVec 6) (x : Bool)
  /-- RXCH (R107). -/
  | rxch (sw : Bool) (d a b : BitVec 6) (x y m : Bool)
  /-- RBCAST (R107). -/
  | rbcast (sw : Bool) (d a b : BitVec 6) (x y m : Bool)
  /-- RRED (R108). -/
  | rred (sw : Bool) (d a b : BitVec 6) (x y m : Bool)
  /-- RVOTE (R107). -/
  | rvote (sw : Bool) (d a b : BitVec 6) (x y m : Bool)
  /-- CLAUSE_ISSUE (R25). -/
  | clauseIssue (th : Nat)
  /-- PARK_END (R32). -/
  | parkEnd (th : Nat)
  /-- RESULT_WRITTEN (R32). -/
  | resultWritten (th seq : Nat) (peer : Option Nat) (way : Way)
  /-- ASYNCHRONOUS_TRAP_DELIVERY (R406). -/
  | asynchronousTrapDelivery (th : Nat)
  /-- LDG (R210). -/
  | ldg (sw : Bool) (t a : BitVec 6) (z : BitVec 3) (g e x : Bool)
  /-- STG (R211). -/
  | stg (sw : Bool) (t a : BitVec 6) (z : BitVec 3) (g x : Bool)
  /-- LDS (R210). -/
  | lds (sw : Bool) (t a : BitVec 6) (z : BitVec 3) (g e x : Bool)
  /-- STS (R211). -/
  | sts (sw : Bool) (t a : BitVec 6) (z : BitVec 3) (g x : Bool)
  /-- LDP (R210). -/
  | ldp (sw : Bool) (t a : BitVec 6) (z : BitVec 3) (g e x : Bool)
  /-- STP (R211). -/
  | stp (sw : Bool) (t a : BitVec 6) (z : BitVec 3) (g x : Bool)
  /-- LDC (R210). -/
  | ldc (sw : Bool) (t a : BitVec 6) (z : BitVec 3) (g e x : Bool)
  /-- STC (R211). -/
  | stc (sw : Bool) (t a : BitVec 6) (z : BitVec 3) (g x : Bool)
  /-- LDW (R210). -/
  | ldw (sw : Bool) (t a : BitVec 6) (z : BitVec 3) (e x : Bool)
  /-- PREF (R213). -/
  | pref (sw : Bool) (a : BitVec 6) (z : BitVec 3) (x : Bool)
  /-- PIN (R214). -/
  | pin (sw : Bool) (t a : BitVec 6) (z : BitVec 3) (x : Bool)
  /-- UNPIN (R215). -/
  | unpin (sw : Bool) (t a : BitVec 6) (z : BitVec 3) (x : Bool)
  /-- STORE_PERFORMED (R211). -/
  | storePerformed (th seq : Nat) (way : Way)
  /-- PTS_SELF_ADVANCE (R195). -/
  | ptsSelfAdvance (th : Nat)
  /-- LEASE_EXPIRY (R194). -/
  | leaseExpiry (place line : Nat)
  /-- PAGE_WALK_COMPLETE (R181). -/
  | pageWalkComplete (station walk : Nat)
  /-- ATOM (R222). -/
  | atom (sw : Bool) (d a b : BitVec 6) (x y m : Bool)
  /-- ATOMC (R223). -/
  | atomc (sw : Bool) (d a b : BitVec 6) (x y m : Bool)
  /-- ATOMF (R224). -/
  | atomf (sw : Bool) (d a b : BitVec 6) (x y m : Bool)
  /-- XACC (R227). -/
  | xacc (sw : Bool) (a b : BitVec 6) (x y : Bool)
  /-- XACCP (R228). -/
  | xaccp (sw : Bool) (a b : BitVec 6) (x y : Bool)
  /-- XRD (R229). -/
  | xrd (sw : Bool) (d a : BitVec 6) (x m : Bool)
  /-- XCLR (R230). -/
  | xclr (sw : Bool) (a : BitVec 6) (x : Bool)
  /-- ATOMIC_PERFORMED (R217). -/
  | atomicPerformed (th seq : Nat)
  /-- FENCE (R232). -/
  | fence (sw : Bool)
  /-- FENCEW (R231). -/
  | fencew (sw : Bool)
  /-- BAR (R237). -/
  | bar (sw : Bool) (i : BitVec 4) (r : BitVec 3)
  /-- BARA (R237). -/
  | bara (sw : Bool) (d : BitVec 6) (i : BitVec 4) (r : BitVec 3)
  /-- BARW (R237). -/
  | barw (sw : Bool) (a : BitVec 6) (i : BitVec 4) (x : Bool)
  /-- ARM (R243). -/
  | arm (sw : Bool) (d a b : BitVec 6) (x y m : Bool)
  /-- ARRV (R244). -/
  | arrv (sw : Bool) (a b : BitVec 6) (x y : Bool)
  /-- ARWAIT (R245). -/
  | arwait (sw : Bool) (d a b : BitVec 6) (x y : Bool)
  /-- ARREAD (R246). -/
  | arread (sw : Bool) (d a : BitVec 6) (x : Bool)
  /-- QPUSH (R250). -/
  | qpush (sw : Bool) (d a b : BitVec 6) (x y : Bool)
  /-- QPOP (R250). -/
  | qpop (sw : Bool) (d a : BitVec 6) (x : Bool)
  /-- QTRY (R250). -/
  | qtry (sw : Bool) (d a : BitVec 6) (x : Bool)
  /-- QLEN (R250). -/
  | qlen (sw : Bool) (d a : BitVec 6) (x : Bool)
  /-- DIST (R253). -/
  | dist (sw : Bool) (d a : BitVec 6) (x m : Bool)
  /-- DISTRIBUTOR_ANSWER_STORE (R253). -/
  | distributorAnswerStore (th seq : Nat)
  /-- SBSET (R254). -/
  | sbset (sw : Bool) (d a : BitVec 6) (i : BitVec 7) (x : Bool)
  /-- SBQRY (R255). -/
  | sbqry (sw : Bool) (d a : BitVec 6) (x : Bool)
  /-- CPY (R265). -/
  | cpy (sw : Bool) (a : BitVec 6) (x : Bool)
  /-- CPY2D (R265). -/
  | cpy2d (sw : Bool) (a : BitVec 6) (x : Bool)
  /-- CPYM (R269). -/
  | cpym (sw : Bool) (a : BitVec 6) (x : Bool)
  /-- CPYR (R270). -/
  | cpyr (sw : Bool) (a : BitVec 6) (x : Bool)
  /-- CPYQ (R279). -/
  | cpyq (sw : Bool) (d a : BitVec 6) (x : Bool)
  /-- CPYX (R280). -/
  | cpyx (sw : Bool) (d a : BitVec 6) (x : Bool)
  /-- CPYF (R271). -/
  | cpyf (sw : Bool) (a : BitVec 6) (x : Bool)
  /-- RLQRY (R281). -/
  | rlqry (sw : Bool) (d a : BitVec 6) (x : Bool)
  /-- COPY_REGISTRATION (R232). -/
  | copyRegistration (cmd : Nat)
  /-- RANGE_LOCK_ENTRY_TAKEN (R275). -/
  | rangeLockEntryTaken (cmd core : Nat)
  /-- COPY_COMMAND_START (R260). -/
  | copyCommandStart (cmd : Nat)
  /-- COPY_BURST (R266). -/
  | copyBurst (burst : BurstAt)
  /-- COPY_COMMAND_END (R272). -/
  | copyCommandEnd (cmd : Nat)
  /-- FDSTART (R289). -/
  | fdstart (sw : Bool) (d a : BitVec 6) (x : Bool)
  /-- FDSTOP (R290). -/
  | fdstop (sw : Bool) (d : BitVec 6) (c : BitVec 3)
  /-- FDSTAT (R291). -/
  | fdstat (sw : Bool) (d a : BitVec 6) (x : Bool)
  /-- FLOOP (R285). -/
  | floop (s p : BitVec 2) (c : BitVec 20)
  /-- FEND (R285). -/
  | fend
  /-- FADDR (R285). -/
  | faddr (s l k : BitVec 2) (w : BitVec 16)
  /-- FPUSH (R285). -/
  | fpush (s : BitVec 2) (q z : BitVec 3) (e : Bool) (n : BitVec 5)
  /-- FPUSHK (R285). -/
  | fpushk (s : BitVec 2) (k : BitVec 3) (r : BitVec 4)
  /-- FPERMIT_QUEUE (R286). -/
  | fpermitQueue (q : BitVec 3) (n : BitVec 5)
  /-- FPERMIT_BUFFER (R287). -/
  | fpermitBuffer (b : BitVec 5)
  /-- FSYNC (R287). -/
  | fsync (r : Bool) (b : BitVec 5)
  /-- FSTOP (R285). -/
  | fstop
  /-- KLD (R308). -/
  | kld (sw : Bool) (t a : BitVec 6) (x : Bool)
  /-- KST (R308). -/
  | kst (sw : Bool) (t a : BitVec 6) (x : Bool)
  /-- KZERO (R309). -/
  | kzero (sw : Bool) (d : BitVec 6) (n : BitVec 2) (m : Bool)
  /-- KCVT (R311). -/
  | kcvt (sw : Bool) (d a b : BitVec 6) (y m : Bool)
  /-- KBMP (R312). -/
  | kbmp (sw : Bool) (d a b : BitVec 6) (y m : Bool)
  /-- KBLD (R308). -/
  | kbld (sw : Bool) (t a : BitVec 6) (x : Bool)
  /-- KBST (R308). -/
  | kbst (sw : Bool) (t a : BitVec 6) (x : Bool)
  /-- MMAE (R313). -/
  | mmae (sw : Bool) (a : BitVec 6) (x m : Bool)
  /-- MMAC (R314). -/
  | mmac (sw : Bool) (d a b : BitVec 6) (x y m : Bool)
  /-- MATRIX_OP_COMPLETION (R305). -/
  | matrixOpCompletion (core op : Nat)
  /-- MTX_OPERATION_COMPLETE (R296). -/
  | mtxOperationComplete (core op : Nat)
  /-- BANK_SPILL (R303). -/
  | bankSpill (core set : Nat)
  /-- ACCZ (R315). -/
  | accz (sw k : Bool)
  /-- ACCRD (R316). -/
  | accrd (sw : Bool) (d a b : BitVec 6) (x y m : Bool)
  /-- ACCSPL (R317). -/
  | accspl (sw : Bool) (a : BitVec 6) (k x : Bool)
  /-- ACCFIL (R317). -/
  | accfil (sw : Bool) (a : BitVec 6) (k x : Bool)
  /-- MQRY (R318). -/
  | mqry (sw : Bool) (d a : BitVec 6) (x : Bool)
  /-- PBIN (R337). -/
  | pbin (sw : Bool) (d a b : BitVec 6) (x y : Bool)
  /-- PBEND (R338). -/
  | pbend (sw : Bool)
  /-- PRIMITIVE_BINNING (R324). -/
  | primitiveBinning (pass : Nat)
  /-- HSR_TILE_RESOLUTION (R327). -/
  | hsrTileResolution (pass strip tile : Nat)
  /-- HSRNEXT (R339). -/
  | hsrnext (sw : Bool) (d a b : BitVec 6) (x y : Bool)
  /-- IPA (R340). -/
  | ipa (sw : Bool) (d a b : BitVec 6) (x y m : Bool)
  /-- FRAGW (R341). -/
  | fragw (sw : Bool) (a b : BitVec 6) (x y : Bool)
  /-- SPLAT (R337). -/
  | splat (sw : Bool) (d a b : BitVec 6) (x y : Bool)
  /-- SPLATEND (R338). -/
  | splatend (sw : Bool)
  /-- STIPRUN (R342). -/
  | stiprun (sw : Bool) (d a b : BitVec 6) (x y : Bool)
  /-- STIPRD (R343). -/
  | stiprd (sw : Bool) (d a : BitVec 6) (x : Bool)
  /-- RAYNEW (R361). -/
  | raynew (sw : Bool) (d a : BitVec 6) (x : Bool)
  /-- RAYSET (R362). -/
  | rayset (sw : Bool) (d a b : BitVec 6) (x y : Bool)
  /-- RAYGO (R363). -/
  | raygo (sw : Bool) (a : BitVec 6) (x : Bool)
  /-- RAY_TRAVERSAL_STEP (R352). -/
  | rayTraversalStep (ray : Nat)
  /-- CALLBACK_START (R354). -/
  | callbackStart (ray : Nat)
  /-- RAYWAIT (R364). -/
  | raywait (sw : Bool) (d a : BitVec 6) (x : Bool)
  /-- RAYGET (R365). -/
  | rayget (sw : Bool) (d a b : BitVec 6) (x y : Bool)
  /-- RAYFREE (R366). -/
  | rayfree (sw : Bool) (a : BitVec 6) (x : Bool)
  /-- VERDICT (R367). -/
  | verdict (sw : Bool) (a b : BitVec 6) (x y : Bool)
  /-- RAYCB (R367). -/
  | raycb (sw : Bool) (d a : BitVec 6) (x : Bool)
  /-- TNOW (R393). -/
  | tnow (sw : Bool) (d : BitVec 6)
  /-- TWAIT (R394). -/
  | twait (sw : Bool) (a : BitVec 6) (x : Bool)
  /-- TIME_WAIT_EXPIRY (R394). -/
  | timeWaitExpiry (th : Nat)
  /-- TDEAD (R395). -/
  | tdead (sw : Bool) (d b : BitVec 6) (y : Bool)
  /-- TBUDG (R396). -/
  | tbudg (sw : Bool) (d : BitVec 6)
  /-- SCOMMIT (R397). -/
  | scommit (sw : Bool) (d a b : BitVec 6) (x y m : Bool)
  /-- SHALO (R398). -/
  | shalo (sw : Bool) (d a b : BitVec 6) (x y : Bool)
  /-- JOBEND (R399). -/
  | jobend (sw : Bool)
  /-- SRATE (R400). -/
  | srate (sw : Bool) (d a : BitVec 6) (n : Bool) (o : BitVec 2) (x : Bool)
  /-- TRAP (R430). -/
  | trap (sw : Bool) (d : BitVec 6) (i : BitVec 15)
  /-- RTE (R431). -/
  | rte (sw : Bool)
  /-- SRD (R432). -/
  | srd (sw : Bool) (d : BitVec 6) (i : BitVec 15)
  /-- SWR (R432). -/
  | swr (sw : Bool) (d : BitVec 6) (i : BitVec 15)
  /-- DTLOAD (R433). -/
  | dtload (sw : Bool) (d a : BitVec 6) (x m : Bool)
  /-- SEALQ (R434). -/
  | sealq (sw : Bool) (d a : BitVec 6) (x : Bool)
  /-- HALT (R435). -/
  | halt (sw : Bool)
  /-- ERRINJ (R437). -/
  | errinj (sw : Bool) (a b : BitVec 6) (x y : Bool)
  /-- TLBINV (R438). -/
  | tlbinv (sw : Bool) (d a b : BitVec 6) (x y : Bool)
  /-- XBPARK (R472). -/
  | xbpark (sw : Bool) (d a b : BitVec 6) (x y : Bool)
  /-- XBWAKE (R473). -/
  | xbwake (sw : Bool) (d a : BitVec 6) (x : Bool)
  /-- XBSTAT (R474). -/
  | xbstat (sw : Bool) (d a : BitVec 6) (x : Bool)
  /-- LKSTAT (R475). -/
  | lkstat (sw : Bool) (d a : BitVec 6) (x : Bool)
  /-- TEAM_PLACEMENT (R65). -/
  | teamPlacement (cluster : Nat)
  /-- TEAM_RETIREMENT (R67). -/
  | teamRetirement (team : Nat)
  /-- EVICTION_REQUEST (R78). -/
  | evictionRequest (cluster : Nat) (teams : List Nat)
  /-- EVICTION (R76). -/
  | eviction (th : Nat)
  /-- RESTORE (R76). -/
  | restore (th core : Nat)
  /-- MEMORY_TOKEN_GRANT (R82). -/
  | memoryTokenGrant (core group : Nat)
  /-- MEMORY_TOKEN_PASS (R82). -/
  | memoryTokenPass (core group : Nat)
  /-- LOCALITY_WINDOW_END (R82). -/
  | localityWindowEnd (core : Nat)
  /-- STRIP_ADMISSION (R382). -/
  | stripAdmission (out : Nat)
  /-- CHAIN_FORCED_END (R386). -/
  | chainForcedEnd (chain : Nat)
  /-- BUDGET_EXPIRY (R385). -/
  | budgetExpiry (slice : Nat)
  /-- DEADLINE_MISS (R386). -/
  | deadlineMiss (slice : Nat)
  /-- STRIP_SCAN (R379). -/
  | stripScan (out : Nat)
  /-- SLOT_RELEASE (R379). -/
  | slotRelease (ring slot : Nat)
  /-- DUCTUS_IDLE_EXIT (R18). -/
  | ductusIdleExit
  /-- DUCTUS_WAKE (R382). -/
  | ductusWake (out : Nat)
  /-- ENCODE_TILE_ROW (R389). -/
  | encodeTileRow (pipe : Nat)
  /-- TEMPORAL_UNIT_WRITE (R390). -/
  | temporalUnitWrite (pipe : Nat)
  /-- HEAD_LINK_LOSS (R376). -/
  | headLinkLoss (head : Nat)
  /-- LINK_RETRAIN (R376). -/
  | linkRetrain (head : Nat)
  /-- OUTPUT_ARM (R375). -/
  | outputArm (out : Nat) (rateOk linkOk : Bool)
  /-- OUTPUT_DISARM (R375). -/
  | outputDisarm (out : Nat)
  /-- RING_ENABLE (R377). -/
  | ringEnable (ring : Nat) (w : Word)
  /-- RING_DISABLE (R377). -/
  | ringDisable (ring : Nat) (w : Word)
  /-- PPS_EDGE (R369). -/
  | ppsEdge (offset : Int)
  /-- PTPIN (R465). -/
  | ptpin (t1 t2 t3 t4 : Nat)
  /-- TLOCK_HOLDOVER (R370). -/
  | tlockHoldover
  /-- QOS_FRAME_BOUNDARY (R443). -/
  | qosFrameBoundary
  /-- REFRESH_WINDOW_START (R191). -/
  | refreshWindowStart (bank : Nat)
  /-- REFRESH_WINDOW_END (R191). -/
  | refreshWindowEnd (bank : Nat)
  /-- OPTICAL_TOKEN (R442). -/
  | opticalToken (ch : Nat)
  /-- AUTOMATIC_WAKE (R447). -/
  | automaticWake (ch : Nat)
  /-- RETUNE_END (R447). -/
  | retuneEnd (ch : Nat)
  /-- REMOTE_REQUEST_ARRIVAL (R220). -/
  | remoteRequestArrival (req : RemoteRequest)
  /-- ACKNOWLEDGEMENT (R449). -/
  | acknowledgement (package slice seq : Nat)
  /-- RETRANSMISSION_TIMEOUT (R449). -/
  | retransmissionTimeout (package slice seq : Nat)
  /-- BUSY_RESEND (R449). -/
  | busyResend (package slice seq : Nat)
  /-- WAVELENGTH_RETRAIN (R452). -/
  | wavelengthRetrain (fibre : Nat) (mask : DWord)
  /-- WATCHDOG_W1 (R426). -/
  | watchdogW1 (grid : Nat)
  /-- WATCHDOG_W2 (R426). -/
  | watchdogW2 (grid : Nat)
  /-- WATCHDOG_W3 (R426). -/
  | watchdogW3 (core : Nat)
  /-- CORE_RETURN (R427). -/
  | coreReturn (core : Nat)
  /-- UNCORRECTABLE_ERROR (R420). -/
  | uncorrectableError (unit : ErrUnit)
  /-- CORRECTABLE_ERROR (R420). -/
  | correctableError (unit : ErrUnit)
  /-- SEAL_FREE (R418). -/
  | sealFree (sealId : Nat)
  /-- COMMAND_WRITE (R456). -/
  | commandWrite (bytes : List Byte)
  /-- UPLOAD (R458). -/
  | upload
  /-- TRIGGER (R462). -/
  | trigger
  /-- RESYNC (R463). -/
  | resync
  /-- SEALNEW (R459). -/
  | sealnew
  /-- SEALEND (R458). -/
  | sealend
  /-- ABORT (R458). -/
  | abort
  /-- TIMESET_STEP (R464). -/
  | timesetStep
  /-- TIMESET_CONFIG (R464). -/
  | timesetConfig
  /-- FWLOAD (R470). -/
  | fwload (ok : Bool)
  /-- ATTEST (R466). -/
  | attest
  /-- RESET (R17). -/
  | reset
  /-- FIRMWARE_VERIFICATION (R469) with the decode tables of an image that verifies; none where it fails. -/
  | firmwareVerification (found : Option (List (List Nat)))
  /-- UCIE_TRAINING (R469). -/
  | ucieTraining (ok : Bool)
  /-- LPDDR_TRAINING (R469). -/
  | lpddrTraining (failed : Option Nat)
  /-- DAMLAN_RING_TUNING (R469). -/
  | damlanRingTuning (ok : Bool)
  /-- TSUXUS_TRAINING (R469). -/
  | tsuxusTraining (masks : List DWord)
  /-- PTP_LOCK (R469). -/
  | ptpLock
  /-- POWER_WINDOW (R20). -/
  | powerWindow (avg : Nat)
  /-- STANDBY_REQUEST (R19). -/
  | standbyRequest (w : Word)
  /-- STANDBY_ENTRY (R18). -/
  | standbyEntry
  /-- STANDBY_CLEAR (R19). -/
  | standbyClear (w : Word)
  /-- POWER_LIMIT_WRITE (R19). -/
  | powerLimitWrite (w : Word)
  /-- TPC_WRITE (R413). -/
  | tpcWrite (hi : Bool) (w : Word)
  /-- MEET_WRITE (R413). -/
  | meetWrite (hi : Bool) (w : Word)
  /-- TSTAT_WRITE (R414). -/
  | tstatWrite (w : Word)
  /-- FMT_WRITE (R157). -/
  | fmtWrite (w : Word)
  /-- MEMGROUPS_WRITE (R81). -/
  | memgroupsWrite (core : Nat) (w : Word)
  /-- LEASECFG_WRITE (R197). -/
  | leasecfgWrite (core : Nat) (w : Word)
  /-- QCFG_WRITE (R247). -/
  | qcfgWrite (cluster queue : Nat) (w : Word)
  /-- WDOG_WRITE (R425). -/
  | wdogWrite (queue : Nat) (w : Word)
  /-- DBGCTL (R436). -/
  | dbgctl (w : Word)
  /-- TLBCTL (R439). -/
  | tlbctl (number : Nat) (w : Word)
  /-- TLB_INVALIDATION_COMPLETE (R439). -/
  | tlbInvalidationComplete
  /-- FAULTACK (R467). -/
  | faultack (w : Word)
  /-- DOMCFG_WRITE (R455). -/
  | domcfgWrite (w : Word)
  /-- BAR2_STAGING_WRITE (R470). -/
  | bar2StagingWrite (off : Nat) (bytes : List Byte)
  /-- REGISTER_WRITE (R6). -/
  | registerWrite (number : Nat) (w : Word)
  /-- HOST_CXL_MEM_ACCESS (R195). -/
  | hostCxlMemAccess (pa len : Nat) (data : Option (List Byte))
  /-- TIME_SLICE_EXPIRY (R71). -/
  | timeSliceExpiry (core th : Nat)
  /-- PPS_LOSS (R370). -/
  | ppsLoss
  /-- TSUXUS_FORWARDING (R448). -/
  | tsuxusForwarding (dest hops : Nat)
  /-- REMOTE_REPLY_ARRIVAL (R451). -/
  | remoteReplyArrival (package slice seq : Nat) (data : List Byte)
  /-- HEAD_REGISTER_READ (R468). -/
  | headRegisterRead (which : Nat)
  deriving DecidableEq, Repr

end Sys2Proof
end

