-- ==== Sys2Proof/WellFormed.lean ====
section
/-!
DEFINITION. Static legality of an instruction's operands (R34, R35, R37 and each entry's encoding table).
-/
namespace Sys2Proof

/-- The field names a pair: an even register (R35). -/
def even {n : Nat} (r : BitVec n) : Bool := r.toNat % 2 == 0

/-- The field names a quad: a multiple of four (R35). -/
def quad {n : Nat} (r : BitVec n) : Bool := r.toNat % 4 == 0

/-- The field names an octet: a multiple of eight (R35). -/
def octet {n : Nat} (r : BitVec n) : Bool := r.toNat % 8 == 0

/-- The field lies below a limit (an index field of R35, a selector). -/
def below {n : Nat} (k : Nat) (r : BitVec n) : Bool := decide (r.toNat < k)

/-- The field names a pair where the modifier asks for one. -/
def pairIf {n : Nat} (m : Bool) (r : BitVec n) : Bool := !m || even r

/-- Format M: t is even for b64 and a multiple of four for b128 (R35). -/
def sizedReg {n : Nat} (z : BitVec 3) (t : BitVec n) : Bool :=
  (z != 3 || even t) && (z != 4 || quad t)

/-- Some field the entry leaves unused is not zero (R34, R50: reason 2). -/
def reservedOperand : Instr → Bool
  | .nop _ => false
  | .extControlForm _ _ _ _ _ _ _ => false
  | .extImmediateForm _ => false
  | .mov _ _ _ _ => false
  | .movi _ _ _ => false
  | .movh _ _ _ => false
  | .movs _ _ _ => false
  | .iadd _ _ _ _ _ _ _ => false
  | .isub _ _ _ _ _ _ _ => false
  | .iaddc _ _ _ _ _ _ _ => false
  | .imul _ _ _ _ _ _ => false
  | .imulh _ _ _ _ _ _ _ => false
  | .imad _ _ _ _ _ _ _ => false
  | .idiv _ _ _ _ _ _ _ => false
  | .irem _ _ _ _ _ _ _ => false
  | .ineg _ _ _ _ => false
  | .iabs _ _ _ _ => false
  | .imin _ _ _ _ _ _ _ => false
  | .imax _ _ _ _ _ _ _ => false
  | .and _ _ _ _ _ _ => false
  | .or _ _ _ _ _ _ => false
  | .xor _ _ _ _ _ _ => false
  | .not _ _ _ _ => false
  | .andn _ _ _ _ _ _ => false
  | .shl _ _ _ _ _ _ => false
  | .shr _ _ _ _ _ _ => false
  | .sar _ _ _ _ _ _ => false
  | .rot _ _ _ _ _ _ _ => false
  | .bfx _ _ _ _ _ _ _ => false
  | .bfi _ _ _ _ _ _ => false
  | .popc _ _ _ _ => false
  | .clz _ _ _ _ => false
  | .brev _ _ _ _ => false
  | .isetp _ _ _ _ _ _ _ _ => false
  | .sel _ _ _ _ _ _ _ => false
  | .plop _ o _ q r m => (below 7 o && m) || ((o == 5 || o == 6) && r != 0) || (o == 7 && (q != 0 || r != 0))
  | .lea _ _ _ _ _ _ _ => false
  | .add64 _ _ _ _ _ _ _ => false
  | .idp4 _ _ _ _ _ _ _ => false
  | .mix32 _ _ _ _ _ _ => false
  | .iaddi _ _ _ _ _ _ => false
  | .andi _ _ _ _ _ => false
  | .ori _ _ _ _ _ => false
  | .xori _ _ _ _ _ => false
  | .shli _ _ _ _ _ => false
  | .shri _ _ _ _ _ => false
  | .sari _ _ _ _ _ => false
  | .isetpi _ _ _ _ _ _ _ => false
  | .fadd _ _ _ _ _ _ => false
  | .fsub _ _ _ _ _ _ => false
  | .fmul _ _ _ _ _ _ => false
  | .fmad _ _ _ _ _ _ _ => false
  | .fmin _ _ _ _ _ _ => false
  | .fmax _ _ _ _ _ _ => false
  | .fneg _ _ _ _ => false
  | .fabs _ _ _ _ => false
  | .fsetp _ _ _ _ _ _ _ _ => false
  | .fdiv _ _ _ _ _ _ => false
  | .frcp _ _ _ _ => false
  | .fsqrt _ _ _ _ => false
  | .frsq _ _ _ _ => false
  | .fexp2 _ _ _ _ => false
  | .flog2 _ _ _ _ => false
  | .fsinpi _ _ _ _ => false
  | .fcospi _ _ _ _ => false
  | .frnd _ _ _ _ _ => false
  | .fclass _ _ _ _ => false
  | .fscale _ _ _ _ _ _ => false
  | .fexpo _ _ _ _ => false
  | .twosum _ _ _ _ _ _ => false
  | .padd _ _ _ _ _ _ => false
  | .prd _ _ _ _ => false
  | .hadd2 _ _ _ _ _ _ _ => false
  | .hmul2 _ _ _ _ _ _ _ => false
  | .hfma2 _ _ _ _ _ _ _ => false
  | .cvtfi _ _ _ _ _ _ _ => false
  | .cvtif _ _ _ _ _ _ _ => false
  | .cvtff _ _ _ _ _ _ => false
  | .nxel _ _ _ _ _ _ => false
  | .mxel _ _ _ _ _ _ => false
  | .fmtchk _ _ _ _ => false
  | .bra _ _ => false
  | .brp _ _ _ _ => false
  | .brx _ _ _ => false
  | .call _ _ => false
  | .callx _ _ _ => false
  | .ret _ => false
  | .lgjoin _ _ _ x => x
  | .lgwait _ _ x => x
  | .lgdrop _ _ x => x
  | .lgread _ _ _ _ x => x
  | .meetset _ _ => false
  | .regroup _ _ _ _ _ => false
  | .regroupCompletion _ => false
  | .yield _ => false
  | .pause _ _ => false
  | .pauseExpiry _ => false
  | .exit _ => false
  | .launch _ _ _ _ => false
  | .rxch _ _ _ _ _ y _ => y
  | .rbcast _ _ _ _ _ y _ => y
  | .rred _ _ _ _ _ y _ => y
  | .rvote _ _ _ _ _ y _ => y
  | .clauseIssue _ => false
  | .parkEnd _ => false
  | .resultWritten _ _ _ _ => false
  | .asynchronousTrapDelivery _ => false
  | .ldg _ _ _ z _ _ _ => !below 5 z
  | .stg _ _ _ z _ _ => !below 5 z
  | .lds _ _ _ z _ _ _ => !below 5 z
  | .sts _ _ _ z _ _ => !below 5 z
  | .ldp _ _ _ z _ _ _ => !below 5 z
  | .stp _ _ _ z _ _ => !below 5 z
  | .ldc _ _ _ z _ _ _ => !below 5 z
  | .stc _ _ _ z _ _ => !below 5 z
  | .ldw _ _ _ z _ _ => !below 5 z
  | .pref _ _ z _ => !below 5 z
  | .pin _ _ _ _ _ => false
  | .unpin _ _ _ _ _ => false
  | .storePerformed _ _ _ => false
  | .ptsSelfAdvance _ => false
  | .leaseExpiry _ _ => false
  | .pageWalkComplete _ _ => false
  | .atom _ _ _ _ _ _ _ => false
  | .atomc _ _ _ _ _ _ _ => false
  | .atomf _ _ _ _ _ _ _ => false
  | .xacc _ _ _ _ _ => false
  | .xaccp _ _ _ _ _ => false
  | .xrd _ _ _ _ _ => false
  | .xclr _ _ _ => false
  | .atomicPerformed _ _ => false
  | .fence _ => false
  | .fencew _ => false
  | .bar _ _ _ => false
  | .bara _ _ _ _ => false
  | .barw _ _ _ _ => false
  | .arm _ _ _ b _ y m => (m && (b != 0 || y))
  | .arrv _ _ _ _ _ => false
  | .arwait _ _ _ _ _ _ => false
  | .arread _ _ _ _ => false
  | .qpush _ _ _ _ _ _ => false
  | .qpop _ _ _ _ => false
  | .qtry _ _ _ _ => false
  | .qlen _ _ _ _ => false
  | .dist _ d a x m => (!m && (a != 0 || x)) || (m && d != 0)
  | .distributorAnswerStore _ _ => false
  | .sbset _ _ _ _ _ => false
  | .sbqry _ _ _ _ => false
  | .cpy _ _ _ => false
  | .cpy2d _ _ _ => false
  | .cpym _ _ _ => false
  | .cpyr _ _ _ => false
  | .cpyq _ _ _ _ => false
  | .cpyx _ _ _ _ => false
  | .cpyf _ _ _ => false
  | .rlqry _ _ _ _ => false
  | .copyRegistration _ => false
  | .rangeLockEntryTaken _ _ => false
  | .copyCommandStart _ => false
  | .copyBurst _ => false
  | .copyCommandEnd _ => false
  | .fdstart _ _ _ _ => false
  | .fdstop _ _ _ => false
  | .fdstat _ _ _ _ => false
  | .floop _ _ _ => false
  | .fend => false
  | .faddr _ _ _ _ => false
  | .fpush _ _ _ _ _ => false
  | .fpushk _ _ _ => false
  | .fpermitQueue _ _ => false
  | .fpermitBuffer _ => false
  | .fsync _ _ => false
  | .fstop => false
  | .kld _ _ _ _ => false
  | .kst _ _ _ _ => false
  | .kzero _ _ _ _ => false
  | .kcvt _ _ _ _ _ _ => false
  | .kbmp _ _ _ _ _ _ => false
  | .kbld _ _ _ _ => false
  | .kbst _ _ _ _ => false
  | .mmae _ _ _ _ => false
  | .mmac _ _ _ _ _ _ _ => false
  | .matrixOpCompletion _ _ => false
  | .mtxOperationComplete _ _ => false
  | .bankSpill _ _ => false
  | .accz _ _ => false
  | .accrd _ _ _ _ _ _ _ => false
  | .accspl _ _ _ _ => false
  | .accfil _ _ _ _ => false
  | .mqry _ _ _ _ => false
  | .pbin _ _ _ _ _ _ => false
  | .pbend _ => false
  | .primitiveBinning _ => false
  | .hsrTileResolution _ _ _ => false
  | .hsrnext _ _ _ _ _ _ => false
  | .ipa _ _ _ _ _ _ _ => false
  | .fragw _ _ _ _ _ => false
  | .splat _ _ _ _ _ _ => false
  | .splatend _ => false
  | .stiprun _ _ _ _ _ _ => false
  | .stiprd _ _ _ _ => false
  | .raynew _ _ _ _ => false
  | .rayset _ _ _ _ _ _ => false
  | .raygo _ _ _ => false
  | .rayTraversalStep _ => false
  | .callbackStart _ => false
  | .raywait _ _ _ _ => false
  | .rayget _ _ _ _ _ _ => false
  | .rayfree _ _ _ => false
  | .verdict _ _ _ _ _ => false
  | .raycb _ _ _ _ => false
  | .tnow _ _ => false
  | .twait _ _ _ => false
  | .timeWaitExpiry _ => false
  | .tdead _ _ _ _ => false
  | .tbudg _ _ => false
  | .scommit _ _ _ b _ y m => (!m && (b != 0 || y))
  | .shalo _ _ _ _ _ _ => false
  | .jobend _ => false
  | .srate _ _ a n o x => (o == 0 && (a != 0 || x)) || (o == 2 && n)
  | .trap _ _ _ => false
  | .rte _ => false
  | .srd _ _ _ => false
  | .swr _ _ _ => false
  | .dtload _ _ _ _ _ => false
  | .sealq _ _ _ _ => false
  | .halt _ => false
  | .errinj _ _ _ _ _ => false
  | .tlbinv _ _ _ _ _ _ => false
  | .xbpark _ _ _ _ _ _ => false
  | .xbwake _ _ _ _ => false
  | .xbstat _ _ _ _ => false
  | .lkstat _ _ _ _ => false
  | .teamPlacement _ => false
  | .teamRetirement _ => false
  | .evictionRequest _ _ => false
  | .eviction _ => false
  | .restore _ _ => false
  | .memoryTokenGrant _ _ => false
  | .memoryTokenPass _ _ => false
  | .localityWindowEnd _ => false
  | .stripAdmission _ => false
  | .chainForcedEnd _ => false
  | .budgetExpiry _ => false
  | .deadlineMiss _ => false
  | .stripScan _ => false
  | .slotRelease _ _ => false
  | .ductusIdleExit => false
  | .ductusWake _ => false
  | .encodeTileRow _ => false
  | .temporalUnitWrite _ => false
  | .headLinkLoss _ => false
  | .linkRetrain _ => false
  | .outputArm _ _ _ => false
  | .outputDisarm _ => false
  | .ringEnable _ _ => false
  | .ringDisable _ _ => false
  | .ppsEdge _ => false
  | .ptpin _ _ _ _ => false
  | .tlockHoldover => false
  | .qosFrameBoundary => false
  | .refreshWindowStart _ => false
  | .refreshWindowEnd _ => false
  | .opticalToken _ => false
  | .automaticWake _ => false
  | .retuneEnd _ => false
  | .remoteRequestArrival _ => false
  | .acknowledgement _ _ _ => false
  | .retransmissionTimeout _ _ _ => false
  | .busyResend _ _ _ => false
  | .wavelengthRetrain _ _ => false
  | .watchdogW1 _ => false
  | .watchdogW2 _ => false
  | .watchdogW3 _ => false
  | .coreReturn _ => false
  | .uncorrectableError _ => false
  | .correctableError _ => false
  | .sealFree _ => false
  | .commandWrite _ => false
  | .upload => false
  | .trigger => false
  | .resync => false
  | .sealnew => false
  | .sealend => false
  | .abort => false
  | .timesetStep => false
  | .timesetConfig => false
  | .fwload _ => false
  | .attest => false
  | .reset => false
  | .firmwareVerification _ => false
  | .ucieTraining _ => false
  | .lpddrTraining _ => false
  | .damlanRingTuning _ => false
  | .tsuxusTraining _ => false
  | .ptpLock => false
  | .powerWindow _ => false
  | .standbyRequest _ => false
  | .standbyEntry => false
  | .standbyClear _ => false
  | .powerLimitWrite _ => false
  | .tpcWrite _ _ => false
  | .meetWrite _ _ => false
  | .tstatWrite _ => false
  | .fmtWrite _ => false
  | .memgroupsWrite _ _ => false
  | .leasecfgWrite _ _ => false
  | .qcfgWrite _ _ _ => false
  | .wdogWrite _ _ => false
  | .dbgctl _ => false
  | .tlbctl _ _ => false
  | .tlbInvalidationComplete => false
  | .faultack _ => false
  | .domcfgWrite _ => false
  | .bar2StagingWrite _ _ => false
  | .registerWrite _ _ => false
  | .hostCxlMemAccess _ _ _ => false
  | .timeSliceExpiry _ _ => false
  | .ppsLoss => false
  | .tsuxusForwarding _ _ => false
  | .remoteReplyArrival _ _ _ _ => false
  | .headRegisterRead _ => false

/-- Every operand keeps the register rules of R35 and the static limits of its entry (reason 3). DESIGN CHOICE (log 170): a
PREF level of 4 breaks a limit of its entry, as level 3 does. -/
def operandsOk : Instr → Bool
  | .nop _ => true
  | .extControlForm _ _ _ _ _ _ _ => true
  | .extImmediateForm _ => true
  | .mov _ _ _ _ => true
  | .movi _ _ _ => true
  | .movh _ d _ => even d
  | .movs _ _ _ => true
  | .iadd _ _ _ _ _ _ _ => true
  | .isub _ _ _ _ _ _ _ => true
  | .iaddc _ d _ _ _ _ _ => even d
  | .imul _ _ _ _ _ _ => true
  | .imulh _ _ _ _ _ _ _ => true
  | .imad _ _ _ _ _ _ _ => true
  | .idiv _ _ _ _ _ _ _ => true
  | .irem _ _ _ _ _ _ _ => true
  | .ineg _ _ _ _ => true
  | .iabs _ _ _ _ => true
  | .imin _ _ _ _ _ _ _ => true
  | .imax _ _ _ _ _ _ _ => true
  | .and _ _ _ _ _ _ => true
  | .or _ _ _ _ _ _ => true
  | .xor _ _ _ _ _ _ => true
  | .not _ _ _ _ => true
  | .andn _ _ _ _ _ _ => true
  | .shl _ _ _ _ _ _ => true
  | .shr _ _ _ _ _ _ => true
  | .sar _ _ _ _ _ _ => true
  | .rot _ _ _ _ _ _ _ => true
  | .bfx _ _ _ _ _ _ _ => true
  | .bfi _ _ _ _ _ _ => true
  | .popc _ _ _ _ => true
  | .clz _ _ _ _ => true
  | .brev _ _ _ _ => true
  | .isetp _ c _ _ _ _ _ _ => below 6 c
  | .sel _ _ _ _ _ _ _ => true
  | .plop _ _ _ _ _ _ => true
  | .lea _ d a _ _ _ _ => even d && even a
  | .add64 _ d a b _ _ _ => even d && even a && even b
  | .idp4 _ _ _ _ _ _ _ => true
  | .mix32 _ _ _ _ _ _ => true
  | .iaddi _ _ _ _ _ _ => true
  | .andi _ _ _ _ _ => true
  | .ori _ _ _ _ _ => true
  | .xori _ _ _ _ _ => true
  | .shli _ _ _ i _ => below 32 i
  | .shri _ _ _ i _ => below 32 i
  | .sari _ _ _ i _ => below 32 i
  | .isetpi _ c _ _ _ _ _ => below 6 c
  | .fadd _ _ _ _ _ _ => true
  | .fsub _ _ _ _ _ _ => true
  | .fmul _ _ _ _ _ _ => true
  | .fmad _ _ _ _ _ _ _ => true
  | .fmin _ _ _ _ _ _ => true
  | .fmax _ _ _ _ _ _ => true
  | .fneg _ _ _ _ => true
  | .fabs _ _ _ _ => true
  | .fsetp _ _ _ _ _ _ _ _ => true
  | .fdiv _ _ _ _ _ _ => true
  | .frcp _ _ _ _ => true
  | .fsqrt _ _ _ _ => true
  | .frsq _ _ _ _ => true
  | .fexp2 _ _ _ _ => true
  | .flog2 _ _ _ _ => true
  | .fsinpi _ _ _ _ => true
  | .fcospi _ _ _ _ => true
  | .frnd _ _ _ _ _ => true
  | .fclass _ _ _ _ => true
  | .fscale _ _ _ _ _ _ => true
  | .fexpo _ _ _ _ => true
  | .twosum _ _ _ _ _ _ => true
  | .padd _ d a b _ _ => even d && even a && even b
  | .prd _ _ a _ => even a
  | .hadd2 _ _ _ _ _ _ _ => true
  | .hmul2 _ _ _ _ _ _ _ => true
  | .hfma2 _ _ _ _ _ _ _ => true
  | .cvtfi _ _ _ _ _ _ _ => true
  | .cvtif _ _ _ _ _ _ _ => true
  | .cvtff _ _ _ _ _ _ => true
  | .nxel _ _ _ _ _ _ => true
  | .mxel _ _ _ _ _ _ => true
  | .fmtchk _ _ _ _ => true
  | .bra _ _ => true
  | .brp _ _ _ _ => true
  | .brx _ a _ => even a
  | .call _ _ => true
  | .callx _ a _ => even a
  | .ret _ => true
  | .lgjoin _ a _ _ => below 16 a
  | .lgwait _ a _ => below 16 a
  | .lgdrop _ a _ => below 16 a
  | .lgread _ d a i _ => even d && below 16 a && below 2 i
  | .meetset _ _ => true
  | .regroup _ _ b _ _ => even b
  | .regroupCompletion _ => true
  | .yield _ => true
  | .pause _ _ => true
  | .pauseExpiry _ => true
  | .exit _ => true
  | .launch _ _ a _ => even a
  | .rxch _ _ _ b _ _ _ => below 16 b
  | .rbcast _ _ _ b _ _ _ => below 16 b
  | .rred _ _ _ b _ _ _ => below 16 b
  | .rvote _ d _ b _ _ m => below 16 b && (m || even d)
  | .clauseIssue _ => true
  | .parkEnd _ => true
  | .resultWritten _ _ _ _ => true
  | .asynchronousTrapDelivery _ => true
  | .ldg _ t a z _ e _ => even a && sizedReg z t && (!e || below 2 z)
  | .stg _ t a z _ _ => even a && sizedReg z t
  | .lds _ t a z _ e _ => even a && sizedReg z t && (!e || below 2 z)
  | .sts _ t a z _ _ => even a && sizedReg z t
  | .ldp _ t a z _ e _ => even a && sizedReg z t && (!e || below 2 z)
  | .stp _ t a z _ _ => even a && sizedReg z t
  | .ldc _ t a z _ e _ => even a && sizedReg z t && (!e || below 2 z)
  | .stc _ t a z _ _ => even a && sizedReg z t
  | .ldw _ t a z e _ => even a && sizedReg z t && (!e || below 2 z)
  | .pref _ a z _ => even a && below 3 z
  | .pin _ _ a z _ => even a && below 2 z
  | .unpin _ _ a z _ => even a && below 2 z
  | .storePerformed _ _ _ => true
  | .ptsSelfAdvance _ => true
  | .leaseExpiry _ _ => true
  | .pageWalkComplete _ _ => true
  | .atom _ d a b _ _ m => even a && pairIf m d && pairIf m b
  | .atomc _ d a b _ _ m => even a && pairIf m d && pairIf m b
  | .atomf _ _ a _ _ _ _ => even a
  | .xacc _ a _ _ _ => even a
  | .xaccp _ a b _ _ => even a && even b
  | .xrd _ d a _ m => even a && pairIf m d
  | .xclr _ a _ => even a
  | .atomicPerformed _ _ => true
  | .fence _ => true
  | .fencew _ => true
  | .bar _ _ _ => true
  | .bara _ _ _ _ => true
  | .barw _ _ _ _ => true
  | .arm _ _ a _ _ _ _ => even a
  | .arrv _ a _ _ _ => even a
  | .arwait _ _ a _ _ _ => even a
  | .arread _ d a _ => quad d && even a
  | .qpush _ _ _ b _ _ => even b
  | .qpop _ d _ _ => even d
  | .qtry _ d _ _ => quad d
  | .qlen _ _ _ _ => true
  | .dist _ d a _ m => (m || even d) && (!m || even a)
  | .distributorAnswerStore _ _ => true
  | .sbset _ _ a i _ => even a && (i == 0 || i == 2)
  | .sbqry _ _ a _ => even a
  | .cpy _ a _ => even a
  | .cpy2d _ a _ => even a
  | .cpym _ a _ => even a
  | .cpyr _ a _ => even a
  | .cpyq _ d a _ => even d && even a
  | .cpyx _ _ a _ => even a
  | .cpyf _ a _ => even a
  | .rlqry _ _ a _ => even a
  | .copyRegistration _ => true
  | .rangeLockEntryTaken _ _ => true
  | .copyCommandStart _ => true
  | .copyBurst _ => true
  | .copyCommandEnd _ => true
  | .fdstart _ _ a _ => even a
  | .fdstop _ _ _ => true
  | .fdstat _ d _ _ => even d
  | .floop s _ c => below 2 s && (s == 0 || c == 0)
  | .fend => true
  | .faddr _ _ _ _ => true
  | .fpush _ _ z e _ => below 3 z && (!e || below 2 z)
  | .fpushk _ _ _ => true
  | .fpermitQueue _ n => (n != 0) && below 17 n
  | .fpermitBuffer _ => true
  | .fsync r b => (r || b == 0)
  | .fstop => true
  | .kld _ t a _ => below 8 t && even a
  | .kst _ t a _ => below 8 t && even a
  | .kzero _ d n m => below 8 d && (!m || n == 0)
  | .kcvt _ d a b _ _ => below 8 d && below 8 a && even b
  | .kbmp _ d a _ _ _ => below 8 d && below 8 a
  | .kbld _ t a _ => below 8 t && even a
  | .kbst _ t a _ => below 8 t && even a
  | .mmae _ a _ m => (if m then even a else octet a)
  | .mmac _ d _ b _ _ m => below 16 d && (if m then even b else octet b)
  | .matrixOpCompletion _ _ => true
  | .mtxOperationComplete _ _ => true
  | .bankSpill _ _ => true
  | .accz _ _ => true
  | .accrd _ d _ _ _ _ m => (m || below 8 d)
  | .accspl _ a _ _ => even a
  | .accfil _ a _ _ => even a
  | .mqry _ _ _ _ => true
  | .pbin _ _ a b _ _ => even a && even b
  | .pbend _ => true
  | .primitiveBinning _ => true
  | .hsrTileResolution _ _ _ => true
  | .hsrnext _ d a _ _ _ => quad d && even a
  | .ipa _ d _ _ _ _ m => (!m || quad d)
  | .fragw _ _ _ _ _ => true
  | .splat _ _ a b _ _ => even a && even b
  | .splatend _ => true
  | .stiprun _ _ a _ _ _ => even a
  | .stiprd _ d _ _ => quad d
  | .raynew _ _ a _ => even a
  | .rayset _ d _ _ _ _ => below 16 d
  | .raygo _ _ _ => true
  | .rayTraversalStep _ => true
  | .callbackStart _ => true
  | .raywait _ _ _ _ => true
  | .rayget _ _ _ _ _ _ => true
  | .rayfree _ _ _ => true
  | .verdict _ _ _ _ _ => true
  | .raycb _ _ _ _ => true
  | .tnow _ d => even d
  | .twait _ a _ => even a
  | .timeWaitExpiry _ => true
  | .tdead _ d _ _ => even d
  | .tbudg _ _ => true
  | .scommit _ _ _ b _ _ m => (!m || even b)
  | .shalo _ d a _ _ _ => quad d && even a
  | .jobend _ => true
  | .srate _ _ _ _ o _ => below 3 o
  | .trap _ d _ => below 2 d
  | .rte _ => true
  | .srd _ _ _ => true
  | .swr _ _ _ => true
  | .dtload _ _ a _ _ => even a
  | .sealq _ _ _ _ => true
  | .halt _ => true
  | .errinj _ a _ _ _ => even a
  | .tlbinv _ _ a _ _ _ => even a
  | .xbpark _ _ _ _ _ _ => true
  | .xbwake _ _ _ _ => true
  | .xbstat _ _ _ _ => true
  | .lkstat _ d _ _ => even d
  | .teamPlacement _ => true
  | .teamRetirement _ => true
  | .evictionRequest _ _ => true
  | .eviction _ => true
  | .restore _ _ => true
  | .memoryTokenGrant _ _ => true
  | .memoryTokenPass _ _ => true
  | .localityWindowEnd _ => true
  | .stripAdmission _ => true
  | .chainForcedEnd _ => true
  | .budgetExpiry _ => true
  | .deadlineMiss _ => true
  | .stripScan _ => true
  | .slotRelease _ _ => true
  | .ductusIdleExit => true
  | .ductusWake _ => true
  | .encodeTileRow _ => true
  | .temporalUnitWrite _ => true
  | .headLinkLoss _ => true
  | .linkRetrain _ => true
  | .outputArm _ _ _ => true
  | .outputDisarm _ => true
  | .ringEnable _ _ => true
  | .ringDisable _ _ => true
  | .ppsEdge _ => true
  | .ptpin _ _ _ _ => true
  | .tlockHoldover => true
  | .qosFrameBoundary => true
  | .refreshWindowStart _ => true
  | .refreshWindowEnd _ => true
  | .opticalToken _ => true
  | .automaticWake _ => true
  | .retuneEnd _ => true
  | .remoteRequestArrival _ => true
  | .acknowledgement _ _ _ => true
  | .retransmissionTimeout _ _ _ => true
  | .busyResend _ _ _ => true
  | .wavelengthRetrain _ _ => true
  | .watchdogW1 _ => true
  | .watchdogW2 _ => true
  | .watchdogW3 _ => true
  | .coreReturn _ => true
  | .uncorrectableError _ => true
  | .correctableError _ => true
  | .sealFree _ => true
  | .commandWrite _ => true
  | .upload => true
  | .trigger => true
  | .resync => true
  | .sealnew => true
  | .sealend => true
  | .abort => true
  | .timesetStep => true
  | .timesetConfig => true
  | .fwload _ => true
  | .attest => true
  | .reset => true
  | .firmwareVerification _ => true
  | .ucieTraining _ => true
  | .lpddrTraining _ => true
  | .damlanRingTuning _ => true
  | .tsuxusTraining _ => true
  | .ptpLock => true
  | .powerWindow _ => true
  | .standbyRequest _ => true
  | .standbyEntry => true
  | .standbyClear _ => true
  | .powerLimitWrite _ => true
  | .tpcWrite _ _ => true
  | .meetWrite _ _ => true
  | .tstatWrite _ => true
  | .fmtWrite _ => true
  | .memgroupsWrite _ _ => true
  | .leasecfgWrite _ _ => true
  | .qcfgWrite _ _ _ => true
  | .wdogWrite _ _ => true
  | .dbgctl _ => true
  | .tlbctl _ _ => true
  | .tlbInvalidationComplete => true
  | .faultack _ => true
  | .domcfgWrite _ => true
  | .bar2StagingWrite _ _ => true
  | .registerWrite _ _ => true
  | .hostCxlMemAccess _ _ _ => true
  | .timeSliceExpiry _ _ => true
  | .ppsLoss => true
  | .tsuxusForwarding _ _ => true
  | .remoteReplyArrival _ _ _ _ => true
  | .headRegisterRead _ => true

/-- A well-formed instruction: one whose word passes step 10 of R48 as far as its own fields say. -/
def WellFormed (i : Instr) : Bool := !reservedOperand i && operandsOk i

end Sys2Proof
end

