-- ==== Sys2Proof/Decode.lean ====
section
/-!
DEFINITION. The decoder of thread words and access-slice words, total on any bits, and the encoder beside it.

The decoder reads the word's fields once (R31, R34, R52) and rejects by name what R50 calls no valid instruction.
-/
namespace Sys2Proof

/-- Field of `n` bits of `w` from bit `lo` up (R2). -/
def fld (w lo n : Nat) : Nat := w / 2 ^ lo % 2 ^ n

/-- Bit `lo` of `w` (R2). -/
def flag (w lo : Nat) : Bool := w / 2 ^ lo % 2 == 1

/-- Why a word is no valid instruction (R50), in the words of R49's reasons. -/
inductive DecodeError where
  /-- Reason 1: the opcode is unassigned under map 3. -/
  | unassigned
  /-- Reason 2: a reserved or unused field is not zero. -/
  | reserved
  /-- Reason 3: an operand breaks R35 or R37. -/
  | range
  /-- Reason 4: an EXT word's own form is broken (R39). -/
  | extForm
  deriving DecidableEq, Repr

/-- R49's reason code of a rejected word. -/
def DecodeError.reason : DecodeError → Nat
  | .unassigned => 1
  | .reserved => 2
  | .range => 3
  | .extForm => 4

/-- One row of the opcode map: opcode, fields that must be zero (reason 2), fields whose use is an operand fault
(reason 3), and the instruction its fields give. -/
structure WordRow where
  opc : Nat
  zeros : List (Nat × Nat)
  misuse : List (Nat × Nat)
  make : Nat → Instr

/-- One row of R52: operation value, fields with a fixed value, and the word its fields give. -/
structure AccessRow where
  op : Nat
  fixed : List (Nat × Nat × Nat)
  make : Nat → Instr

/-- Rows of opcodes 0x000 to 0x07F (R51). -/
def rowsAlu : List WordRow :=
  [ ⟨0x000, [(0, 21)], [], fun w => .nop (flag w 31)⟩
  , ⟨0x001, [(0, 2), (3, 6)], [], fun w => .mov (flag w 31) (BitVec.ofNat 6 (fld w 15 6)) (BitVec.ofNat 6 (fld w 9 6)) (flag w 2)⟩
  , ⟨0x002, [], [], fun w => .movi (flag w 31) (BitVec.ofNat 6 (fld w 15 6)) (BitVec.ofNat 15 (fld w 0 15))⟩
  , ⟨0x003, [], [], fun w => .movh (flag w 31) (BitVec.ofNat 6 (fld w 15 6)) (BitVec.ofNat 15 (fld w 0 15))⟩
  , ⟨0x004, [], [], fun w => .movs (flag w 31) (BitVec.ofNat 6 (fld w 15 6)) (BitVec.ofNat 15 (fld w 0 15))⟩
  , ⟨0x005, [], [], fun w => .iadd (flag w 31) (BitVec.ofNat 6 (fld w 15 6)) (BitVec.ofNat 6 (fld w 9 6)) (BitVec.ofNat 6 (fld w 3 6)) (flag w 2) (flag w 1) (flag w 0)⟩
  , ⟨0x006, [], [], fun w => .isub (flag w 31) (BitVec.ofNat 6 (fld w 15 6)) (BitVec.ofNat 6 (fld w 9 6)) (BitVec.ofNat 6 (fld w 3 6)) (flag w 2) (flag w 1) (flag w 0)⟩
  , ⟨0x007, [], [], fun w => .iaddc (flag w 31) (BitVec.ofNat 6 (fld w 15 6)) (BitVec.ofNat 6 (fld w 9 6)) (BitVec.ofNat 6 (fld w 3 6)) (flag w 2) (flag w 1) (flag w 0)⟩
  , ⟨0x008, [(0, 1)], [], fun w => .imul (flag w 31) (BitVec.ofNat 6 (fld w 15 6)) (BitVec.ofNat 6 (fld w 9 6)) (BitVec.ofNat 6 (fld w 3 6)) (flag w 2) (flag w 1)⟩
  , ⟨0x009, [], [], fun w => .imulh (flag w 31) (BitVec.ofNat 6 (fld w 15 6)) (BitVec.ofNat 6 (fld w 9 6)) (BitVec.ofNat 6 (fld w 3 6)) (flag w 2) (flag w 1) (flag w 0)⟩
  , ⟨0x00A, [], [], fun w => .imad (flag w 31) (BitVec.ofNat 6 (fld w 15 6)) (BitVec.ofNat 6 (fld w 9 6)) (BitVec.ofNat 6 (fld w 3 6)) (flag w 2) (flag w 1) (flag w 0)⟩
  , ⟨0x00B, [], [], fun w => .idiv (flag w 31) (BitVec.ofNat 6 (fld w 15 6)) (BitVec.ofNat 6 (fld w 9 6)) (BitVec.ofNat 6 (fld w 3 6)) (flag w 2) (flag w 1) (flag w 0)⟩
  , ⟨0x00C, [], [], fun w => .irem (flag w 31) (BitVec.ofNat 6 (fld w 15 6)) (BitVec.ofNat 6 (fld w 9 6)) (BitVec.ofNat 6 (fld w 3 6)) (flag w 2) (flag w 1) (flag w 0)⟩
  , ⟨0x00D, [(0, 2), (3, 6)], [], fun w => .ineg (flag w 31) (BitVec.ofNat 6 (fld w 15 6)) (BitVec.ofNat 6 (fld w 9 6)) (flag w 2)⟩
  , ⟨0x00E, [(0, 2), (3, 6)], [], fun w => .iabs (flag w 31) (BitVec.ofNat 6 (fld w 15 6)) (BitVec.ofNat 6 (fld w 9 6)) (flag w 2)⟩
  , ⟨0x00F, [], [], fun w => .imin (flag w 31) (BitVec.ofNat 6 (fld w 15 6)) (BitVec.ofNat 6 (fld w 9 6)) (BitVec.ofNat 6 (fld w 3 6)) (flag w 2) (flag w 1) (flag w 0)⟩
  , ⟨0x010, [], [], fun w => .imax (flag w 31) (BitVec.ofNat 6 (fld w 15 6)) (BitVec.ofNat 6 (fld w 9 6)) (BitVec.ofNat 6 (fld w 3 6)) (flag w 2) (flag w 1) (flag w 0)⟩
  , ⟨0x011, [(0, 1)], [], fun w => .and (flag w 31) (BitVec.ofNat 6 (fld w 15 6)) (BitVec.ofNat 6 (fld w 9 6)) (BitVec.ofNat 6 (fld w 3 6)) (flag w 2) (flag w 1)⟩
  , ⟨0x012, [(0, 1)], [], fun w => .or (flag w 31) (BitVec.ofNat 6 (fld w 15 6)) (BitVec.ofNat 6 (fld w 9 6)) (BitVec.ofNat 6 (fld w 3 6)) (flag w 2) (flag w 1)⟩
  , ⟨0x013, [(0, 1)], [], fun w => .xor (flag w 31) (BitVec.ofNat 6 (fld w 15 6)) (BitVec.ofNat 6 (fld w 9 6)) (BitVec.ofNat 6 (fld w 3 6)) (flag w 2) (flag w 1)⟩
  , ⟨0x014, [(0, 2), (3, 6)], [], fun w => .not (flag w 31) (BitVec.ofNat 6 (fld w 15 6)) (BitVec.ofNat 6 (fld w 9 6)) (flag w 2)⟩
  , ⟨0x015, [(0, 1)], [], fun w => .andn (flag w 31) (BitVec.ofNat 6 (fld w 15 6)) (BitVec.ofNat 6 (fld w 9 6)) (BitVec.ofNat 6 (fld w 3 6)) (flag w 2) (flag w 1)⟩
  , ⟨0x016, [(0, 1)], [], fun w => .shl (flag w 31) (BitVec.ofNat 6 (fld w 15 6)) (BitVec.ofNat 6 (fld w 9 6)) (BitVec.ofNat 6 (fld w 3 6)) (flag w 2) (flag w 1)⟩
  , ⟨0x017, [(0, 1)], [], fun w => .shr (flag w 31) (BitVec.ofNat 6 (fld w 15 6)) (BitVec.ofNat 6 (fld w 9 6)) (BitVec.ofNat 6 (fld w 3 6)) (flag w 2) (flag w 1)⟩
  , ⟨0x018, [(0, 1)], [], fun w => .sar (flag w 31) (BitVec.ofNat 6 (fld w 15 6)) (BitVec.ofNat 6 (fld w 9 6)) (BitVec.ofNat 6 (fld w 3 6)) (flag w 2) (flag w 1)⟩
  , ⟨0x019, [], [], fun w => .rot (flag w 31) (BitVec.ofNat 6 (fld w 15 6)) (BitVec.ofNat 6 (fld w 9 6)) (BitVec.ofNat 6 (fld w 3 6)) (flag w 2) (flag w 1) (flag w 0)⟩
  , ⟨0x01A, [], [], fun w => .bfx (flag w 31) (BitVec.ofNat 6 (fld w 15 6)) (BitVec.ofNat 6 (fld w 9 6)) (BitVec.ofNat 6 (fld w 3 6)) (flag w 2) (flag w 1) (flag w 0)⟩
  , ⟨0x01B, [(0, 1)], [], fun w => .bfi (flag w 31) (BitVec.ofNat 6 (fld w 15 6)) (BitVec.ofNat 6 (fld w 9 6)) (BitVec.ofNat 6 (fld w 3 6)) (flag w 2) (flag w 1)⟩
  , ⟨0x01C, [(0, 2), (3, 6)], [], fun w => .popc (flag w 31) (BitVec.ofNat 6 (fld w 15 6)) (BitVec.ofNat 6 (fld w 9 6)) (flag w 2)⟩
  , ⟨0x01D, [(0, 2), (3, 6)], [], fun w => .clz (flag w 31) (BitVec.ofNat 6 (fld w 15 6)) (BitVec.ofNat 6 (fld w 9 6)) (flag w 2)⟩
  , ⟨0x01E, [(0, 2), (3, 6)], [], fun w => .brev (flag w 31) (BitVec.ofNat 6 (fld w 15 6)) (BitVec.ofNat 6 (fld w 9 6)) (flag w 2)⟩
  , ⟨0x01F, [], [], fun w => .isetp (flag w 31) (BitVec.ofNat 3 (fld w 18 3)) (BitVec.ofNat 3 (fld w 15 3)) (BitVec.ofNat 6 (fld w 9 6)) (BitVec.ofNat 6 (fld w 3 6)) (flag w 2) (flag w 1) (flag w 0)⟩
  , ⟨0x020, [], [], fun w => .sel (flag w 31) (BitVec.ofNat 6 (fld w 15 6)) (BitVec.ofNat 6 (fld w 9 6)) (BitVec.ofNat 6 (fld w 3 6)) (flag w 2) (flag w 1) (flag w 0)⟩
  , ⟨0x021, [(1, 2), (6, 3), (12, 3)], [], fun w => .plop (flag w 31) (BitVec.ofNat 3 (fld w 18 3)) (BitVec.ofNat 3 (fld w 15 3)) (BitVec.ofNat 3 (fld w 9 3)) (BitVec.ofNat 3 (fld w 3 3)) (flag w 0)⟩
  , ⟨0x022, [], [], fun w => .lea (flag w 31) (BitVec.ofNat 6 (fld w 15 6)) (BitVec.ofNat 6 (fld w 9 6)) (BitVec.ofNat 6 (fld w 3 6)) (flag w 2) (flag w 1) (flag w 0)⟩
  , ⟨0x023, [], [], fun w => .add64 (flag w 31) (BitVec.ofNat 6 (fld w 15 6)) (BitVec.ofNat 6 (fld w 9 6)) (BitVec.ofNat 6 (fld w 3 6)) (flag w 2) (flag w 1) (flag w 0)⟩
  , ⟨0x024, [], [], fun w => .idp4 (flag w 31) (BitVec.ofNat 6 (fld w 15 6)) (BitVec.ofNat 6 (fld w 9 6)) (BitVec.ofNat 6 (fld w 3 6)) (flag w 2) (flag w 1) (flag w 0)⟩
  , ⟨0x025, [(0, 1)], [], fun w => .mix32 (flag w 31) (BitVec.ofNat 6 (fld w 15 6)) (BitVec.ofNat 6 (fld w 9 6)) (BitVec.ofNat 6 (fld w 3 6)) (flag w 2) (flag w 1)⟩
  , ⟨0x026, [], [], fun w => .iaddi (flag w 31) (BitVec.ofNat 6 (fld w 15 6)) (BitVec.ofNat 6 (fld w 9 6)) (BitVec.ofNat 7 (fld w 2 7)) (flag w 1) (flag w 0)⟩
  , ⟨0x027, [(0, 1)], [], fun w => .andi (flag w 31) (BitVec.ofNat 6 (fld w 15 6)) (BitVec.ofNat 6 (fld w 9 6)) (BitVec.ofNat 7 (fld w 2 7)) (flag w 1)⟩
  , ⟨0x028, [(0, 1)], [], fun w => .ori (flag w 31) (BitVec.ofNat 6 (fld w 15 6)) (BitVec.ofNat 6 (fld w 9 6)) (BitVec.ofNat 7 (fld w 2 7)) (flag w 1)⟩
  , ⟨0x029, [(0, 1)], [], fun w => .xori (flag w 31) (BitVec.ofNat 6 (fld w 15 6)) (BitVec.ofNat 6 (fld w 9 6)) (BitVec.ofNat 7 (fld w 2 7)) (flag w 1)⟩
  , ⟨0x02A, [(0, 1)], [], fun w => .shli (flag w 31) (BitVec.ofNat 6 (fld w 15 6)) (BitVec.ofNat 6 (fld w 9 6)) (BitVec.ofNat 7 (fld w 2 7)) (flag w 1)⟩
  , ⟨0x02B, [(0, 1)], [], fun w => .shri (flag w 31) (BitVec.ofNat 6 (fld w 15 6)) (BitVec.ofNat 6 (fld w 9 6)) (BitVec.ofNat 7 (fld w 2 7)) (flag w 1)⟩
  , ⟨0x02C, [(0, 1)], [], fun w => .sari (flag w 31) (BitVec.ofNat 6 (fld w 15 6)) (BitVec.ofNat 6 (fld w 9 6)) (BitVec.ofNat 7 (fld w 2 7)) (flag w 1)⟩
  , ⟨0x02D, [], [], fun w => .isetpi (flag w 31) (BitVec.ofNat 3 (fld w 18 3)) (BitVec.ofNat 3 (fld w 15 3)) (BitVec.ofNat 6 (fld w 9 6)) (BitVec.ofNat 7 (fld w 2 7)) (flag w 1) (flag w 0)⟩ ]

/-- Rows of opcodes 0x080 to 0x0FF (R51). -/
def rowsFloat : List WordRow :=
  [ ⟨0x080, [(0, 1)], [], fun w => .fadd (flag w 31) (BitVec.ofNat 6 (fld w 15 6)) (BitVec.ofNat 6 (fld w 9 6)) (BitVec.ofNat 6 (fld w 3 6)) (flag w 2) (flag w 1)⟩
  , ⟨0x081, [(0, 1)], [], fun w => .fsub (flag w 31) (BitVec.ofNat 6 (fld w 15 6)) (BitVec.ofNat 6 (fld w 9 6)) (BitVec.ofNat 6 (fld w 3 6)) (flag w 2) (flag w 1)⟩
  , ⟨0x082, [(0, 1)], [], fun w => .fmul (flag w 31) (BitVec.ofNat 6 (fld w 15 6)) (BitVec.ofNat 6 (fld w 9 6)) (BitVec.ofNat 6 (fld w 3 6)) (flag w 2) (flag w 1)⟩
  , ⟨0x083, [], [], fun w => .fmad (flag w 31) (BitVec.ofNat 6 (fld w 15 6)) (BitVec.ofNat 6 (fld w 9 6)) (BitVec.ofNat 6 (fld w 3 6)) (flag w 2) (flag w 1) (flag w 0)⟩
  , ⟨0x084, [(0, 1)], [], fun w => .fmin (flag w 31) (BitVec.ofNat 6 (fld w 15 6)) (BitVec.ofNat 6 (fld w 9 6)) (BitVec.ofNat 6 (fld w 3 6)) (flag w 2) (flag w 1)⟩
  , ⟨0x085, [(0, 1)], [], fun w => .fmax (flag w 31) (BitVec.ofNat 6 (fld w 15 6)) (BitVec.ofNat 6 (fld w 9 6)) (BitVec.ofNat 6 (fld w 3 6)) (flag w 2) (flag w 1)⟩
  , ⟨0x086, [(0, 2), (3, 6)], [], fun w => .fneg (flag w 31) (BitVec.ofNat 6 (fld w 15 6)) (BitVec.ofNat 6 (fld w 9 6)) (flag w 2)⟩
  , ⟨0x087, [(0, 2), (3, 6)], [], fun w => .fabs (flag w 31) (BitVec.ofNat 6 (fld w 15 6)) (BitVec.ofNat 6 (fld w 9 6)) (flag w 2)⟩
  , ⟨0x088, [], [], fun w => .fsetp (flag w 31) (BitVec.ofNat 3 (fld w 18 3)) (BitVec.ofNat 3 (fld w 15 3)) (BitVec.ofNat 6 (fld w 9 6)) (BitVec.ofNat 6 (fld w 3 6)) (flag w 2) (flag w 1) (flag w 0)⟩
  , ⟨0x089, [(0, 1)], [], fun w => .fdiv (flag w 31) (BitVec.ofNat 6 (fld w 15 6)) (BitVec.ofNat 6 (fld w 9 6)) (BitVec.ofNat 6 (fld w 3 6)) (flag w 2) (flag w 1)⟩
  , ⟨0x08A, [(0, 2), (3, 6)], [], fun w => .frcp (flag w 31) (BitVec.ofNat 6 (fld w 15 6)) (BitVec.ofNat 6 (fld w 9 6)) (flag w 2)⟩
  , ⟨0x08B, [(0, 2), (3, 6)], [], fun w => .fsqrt (flag w 31) (BitVec.ofNat 6 (fld w 15 6)) (BitVec.ofNat 6 (fld w 9 6)) (flag w 2)⟩
  , ⟨0x08C, [(0, 2), (3, 6)], [], fun w => .frsq (flag w 31) (BitVec.ofNat 6 (fld w 15 6)) (BitVec.ofNat 6 (fld w 9 6)) (flag w 2)⟩
  , ⟨0x08D, [(0, 2), (3, 6)], [], fun w => .fexp2 (flag w 31) (BitVec.ofNat 6 (fld w 15 6)) (BitVec.ofNat 6 (fld w 9 6)) (flag w 2)⟩
  , ⟨0x08E, [(0, 2), (3, 6)], [], fun w => .flog2 (flag w 31) (BitVec.ofNat 6 (fld w 15 6)) (BitVec.ofNat 6 (fld w 9 6)) (flag w 2)⟩
  , ⟨0x08F, [(0, 2), (3, 6)], [], fun w => .fsinpi (flag w 31) (BitVec.ofNat 6 (fld w 15 6)) (BitVec.ofNat 6 (fld w 9 6)) (flag w 2)⟩
  , ⟨0x090, [(0, 2), (3, 6)], [], fun w => .fcospi (flag w 31) (BitVec.ofNat 6 (fld w 15 6)) (BitVec.ofNat 6 (fld w 9 6)) (flag w 2)⟩
  , ⟨0x091, [(1, 1), (3, 6)], [], fun w => .frnd (flag w 31) (BitVec.ofNat 6 (fld w 15 6)) (BitVec.ofNat 6 (fld w 9 6)) (flag w 2) (flag w 0)⟩
  , ⟨0x092, [(0, 2), (3, 6)], [], fun w => .fclass (flag w 31) (BitVec.ofNat 6 (fld w 15 6)) (BitVec.ofNat 6 (fld w 9 6)) (flag w 2)⟩
  , ⟨0x093, [(0, 1)], [], fun w => .fscale (flag w 31) (BitVec.ofNat 6 (fld w 15 6)) (BitVec.ofNat 6 (fld w 9 6)) (BitVec.ofNat 6 (fld w 3 6)) (flag w 2) (flag w 1)⟩
  , ⟨0x094, [(0, 2), (3, 6)], [], fun w => .fexpo (flag w 31) (BitVec.ofNat 6 (fld w 15 6)) (BitVec.ofNat 6 (fld w 9 6)) (flag w 2)⟩
  , ⟨0x095, [(0, 1)], [], fun w => .twosum (flag w 31) (BitVec.ofNat 6 (fld w 15 6)) (BitVec.ofNat 6 (fld w 9 6)) (BitVec.ofNat 6 (fld w 3 6)) (flag w 2) (flag w 1)⟩
  , ⟨0x096, [(0, 1)], [], fun w => .padd (flag w 31) (BitVec.ofNat 6 (fld w 15 6)) (BitVec.ofNat 6 (fld w 9 6)) (BitVec.ofNat 6 (fld w 3 6)) (flag w 2) (flag w 1)⟩
  , ⟨0x097, [(0, 2), (3, 6)], [], fun w => .prd (flag w 31) (BitVec.ofNat 6 (fld w 15 6)) (BitVec.ofNat 6 (fld w 9 6)) (flag w 2)⟩
  , ⟨0x098, [], [], fun w => .hadd2 (flag w 31) (BitVec.ofNat 6 (fld w 15 6)) (BitVec.ofNat 6 (fld w 9 6)) (BitVec.ofNat 6 (fld w 3 6)) (flag w 2) (flag w 1) (flag w 0)⟩
  , ⟨0x099, [], [], fun w => .hmul2 (flag w 31) (BitVec.ofNat 6 (fld w 15 6)) (BitVec.ofNat 6 (fld w 9 6)) (BitVec.ofNat 6 (fld w 3 6)) (flag w 2) (flag w 1) (flag w 0)⟩
  , ⟨0x09A, [], [], fun w => .hfma2 (flag w 31) (BitVec.ofNat 6 (fld w 15 6)) (BitVec.ofNat 6 (fld w 9 6)) (BitVec.ofNat 6 (fld w 3 6)) (flag w 2) (flag w 1) (flag w 0)⟩
  , ⟨0x09B, [], [], fun w => .cvtfi (flag w 31) (BitVec.ofNat 6 (fld w 15 6)) (BitVec.ofNat 6 (fld w 9 6)) (BitVec.ofNat 6 (fld w 3 6)) (flag w 2) (flag w 1) (flag w 0)⟩
  , ⟨0x09C, [], [], fun w => .cvtif (flag w 31) (BitVec.ofNat 6 (fld w 15 6)) (BitVec.ofNat 6 (fld w 9 6)) (BitVec.ofNat 6 (fld w 3 6)) (flag w 2) (flag w 1) (flag w 0)⟩
  , ⟨0x09D, [(0, 1)], [], fun w => .cvtff (flag w 31) (BitVec.ofNat 6 (fld w 15 6)) (BitVec.ofNat 6 (fld w 9 6)) (BitVec.ofNat 6 (fld w 3 6)) (flag w 2) (flag w 1)⟩
  , ⟨0x09E, [(0, 1)], [], fun w => .nxel (flag w 31) (BitVec.ofNat 6 (fld w 15 6)) (BitVec.ofNat 6 (fld w 9 6)) (BitVec.ofNat 6 (fld w 3 6)) (flag w 2) (flag w 1)⟩
  , ⟨0x09F, [(0, 1)], [], fun w => .mxel (flag w 31) (BitVec.ofNat 6 (fld w 15 6)) (BitVec.ofNat 6 (fld w 9 6)) (BitVec.ofNat 6 (fld w 3 6)) (flag w 2) (flag w 1)⟩
  , ⟨0x0A0, [(0, 2), (3, 6)], [], fun w => .fmtchk (flag w 31) (BitVec.ofNat 6 (fld w 15 6)) (BitVec.ofNat 6 (fld w 9 6)) (flag w 2)⟩ ]

/-- Rows of opcodes 0x100 to 0x17F (R51). -/
def rowsCtrl : List WordRow :=
  [ ⟨0x100, [], [], fun w => .bra (flag w 31) (BitVec.ofNat 21 (fld w 0 21))⟩
  , ⟨0x101, [], [], fun w => .brp (flag w 31) (BitVec.ofNat 3 (fld w 18 3)) (flag w 17) (BitVec.ofNat 17 (fld w 0 17))⟩
  , ⟨0x102, [(0, 2), (3, 6), (15, 6)], [], fun w => .brx (flag w 31) (BitVec.ofNat 6 (fld w 9 6)) (flag w 2)⟩
  , ⟨0x103, [], [], fun w => .call (flag w 31) (BitVec.ofNat 21 (fld w 0 21))⟩
  , ⟨0x104, [(0, 2), (3, 6), (15, 6)], [], fun w => .callx (flag w 31) (BitVec.ofNat 6 (fld w 9 6)) (flag w 2)⟩
  , ⟨0x105, [(0, 21)], [], fun w => .ret (flag w 31)⟩
  , ⟨0x106, [(0, 1), (15, 6)], [], fun w => .lgjoin (flag w 31) (BitVec.ofNat 6 (fld w 9 6)) (BitVec.ofNat 7 (fld w 2 7)) (flag w 1)⟩
  , ⟨0x107, [(0, 1), (2, 7), (15, 6)], [], fun w => .lgwait (flag w 31) (BitVec.ofNat 6 (fld w 9 6)) (flag w 1)⟩
  , ⟨0x108, [(0, 1), (2, 7), (15, 6)], [], fun w => .lgdrop (flag w 31) (BitVec.ofNat 6 (fld w 9 6)) (flag w 1)⟩
  , ⟨0x109, [(0, 1)], [], fun w => .lgread (flag w 31) (BitVec.ofNat 6 (fld w 15 6)) (BitVec.ofNat 6 (fld w 9 6)) (BitVec.ofNat 7 (fld w 2 7)) (flag w 1)⟩
  , ⟨0x10A, [], [], fun w => .meetset (flag w 31) (BitVec.ofNat 21 (fld w 0 21))⟩
  , ⟨0x10B, [(0, 1), (15, 6)], [], fun w => .regroup (flag w 31) (BitVec.ofNat 6 (fld w 9 6)) (BitVec.ofNat 6 (fld w 3 6)) (flag w 2) (flag w 1)⟩
  , ⟨0x10C, [(0, 21)], [], fun w => .yield (flag w 31)⟩
  , ⟨0x10D, [(0, 2), (9, 12)], [], fun w => .pause (flag w 31) (BitVec.ofNat 7 (fld w 2 7))⟩
  , ⟨0x10E, [(0, 21)], [], fun w => .exit (flag w 31)⟩
  , ⟨0x10F, [(0, 2), (3, 6)], [], fun w => .launch (flag w 31) (BitVec.ofNat 6 (fld w 15 6)) (BitVec.ofNat 6 (fld w 9 6)) (flag w 2)⟩
  , ⟨0x110, [], [], fun w => .rxch (flag w 31) (BitVec.ofNat 6 (fld w 15 6)) (BitVec.ofNat 6 (fld w 9 6)) (BitVec.ofNat 6 (fld w 3 6)) (flag w 2) (flag w 1) (flag w 0)⟩
  , ⟨0x111, [], [], fun w => .rbcast (flag w 31) (BitVec.ofNat 6 (fld w 15 6)) (BitVec.ofNat 6 (fld w 9 6)) (BitVec.ofNat 6 (fld w 3 6)) (flag w 2) (flag w 1) (flag w 0)⟩
  , ⟨0x112, [], [], fun w => .rred (flag w 31) (BitVec.ofNat 6 (fld w 15 6)) (BitVec.ofNat 6 (fld w 9 6)) (BitVec.ofNat 6 (fld w 3 6)) (flag w 2) (flag w 1) (flag w 0)⟩
  , ⟨0x113, [], [], fun w => .rvote (flag w 31) (BitVec.ofNat 6 (fld w 15 6)) (BitVec.ofNat 6 (fld w 9 6)) (BitVec.ofNat 6 (fld w 3 6)) (flag w 2) (flag w 1) (flag w 0)⟩ ]

/-- Rows of opcodes 0x180 to 0x1FF (R51). -/
def rowsMem : List WordRow :=
  [ ⟨0x180, [(0, 3)], [], fun w => .ldg (flag w 31) (BitVec.ofNat 6 (fld w 15 6)) (BitVec.ofNat 6 (fld w 9 6)) (BitVec.ofNat 3 (fld w 6 3)) (flag w 5) (flag w 4) (flag w 3)⟩
  , ⟨0x181, [(0, 3)], [(4, 1)], fun w => .stg (flag w 31) (BitVec.ofNat 6 (fld w 15 6)) (BitVec.ofNat 6 (fld w 9 6)) (BitVec.ofNat 3 (fld w 6 3)) (flag w 5) (flag w 3)⟩
  , ⟨0x182, [(0, 3)], [], fun w => .lds (flag w 31) (BitVec.ofNat 6 (fld w 15 6)) (BitVec.ofNat 6 (fld w 9 6)) (BitVec.ofNat 3 (fld w 6 3)) (flag w 5) (flag w 4) (flag w 3)⟩
  , ⟨0x183, [(0, 3)], [(4, 1)], fun w => .sts (flag w 31) (BitVec.ofNat 6 (fld w 15 6)) (BitVec.ofNat 6 (fld w 9 6)) (BitVec.ofNat 3 (fld w 6 3)) (flag w 5) (flag w 3)⟩
  , ⟨0x184, [(0, 3)], [], fun w => .ldp (flag w 31) (BitVec.ofNat 6 (fld w 15 6)) (BitVec.ofNat 6 (fld w 9 6)) (BitVec.ofNat 3 (fld w 6 3)) (flag w 5) (flag w 4) (flag w 3)⟩
  , ⟨0x185, [(0, 3)], [(4, 1)], fun w => .stp (flag w 31) (BitVec.ofNat 6 (fld w 15 6)) (BitVec.ofNat 6 (fld w 9 6)) (BitVec.ofNat 3 (fld w 6 3)) (flag w 5) (flag w 3)⟩
  , ⟨0x186, [(0, 3)], [], fun w => .ldc (flag w 31) (BitVec.ofNat 6 (fld w 15 6)) (BitVec.ofNat 6 (fld w 9 6)) (BitVec.ofNat 3 (fld w 6 3)) (flag w 5) (flag w 4) (flag w 3)⟩
  , ⟨0x187, [(0, 3)], [(4, 1)], fun w => .stc (flag w 31) (BitVec.ofNat 6 (fld w 15 6)) (BitVec.ofNat 6 (fld w 9 6)) (BitVec.ofNat 3 (fld w 6 3)) (flag w 5) (flag w 3)⟩
  , ⟨0x188, [(0, 3)], [(5, 1)], fun w => .ldw (flag w 31) (BitVec.ofNat 6 (fld w 15 6)) (BitVec.ofNat 6 (fld w 9 6)) (BitVec.ofNat 3 (fld w 6 3)) (flag w 4) (flag w 3)⟩
  , ⟨0x189, [(0, 3), (15, 6)], [(4, 1), (5, 1)], fun w => .pref (flag w 31) (BitVec.ofNat 6 (fld w 9 6)) (BitVec.ofNat 3 (fld w 6 3)) (flag w 3)⟩
  , ⟨0x18A, [(0, 3)], [(4, 1), (5, 1)], fun w => .pin (flag w 31) (BitVec.ofNat 6 (fld w 15 6)) (BitVec.ofNat 6 (fld w 9 6)) (BitVec.ofNat 3 (fld w 6 3)) (flag w 3)⟩
  , ⟨0x18B, [(0, 3)], [(4, 1), (5, 1)], fun w => .unpin (flag w 31) (BitVec.ofNat 6 (fld w 15 6)) (BitVec.ofNat 6 (fld w 9 6)) (BitVec.ofNat 3 (fld w 6 3)) (flag w 3)⟩
  , ⟨0x18C, [], [], fun w => .atom (flag w 31) (BitVec.ofNat 6 (fld w 15 6)) (BitVec.ofNat 6 (fld w 9 6)) (BitVec.ofNat 6 (fld w 3 6)) (flag w 2) (flag w 1) (flag w 0)⟩
  , ⟨0x18D, [], [], fun w => .atomc (flag w 31) (BitVec.ofNat 6 (fld w 15 6)) (BitVec.ofNat 6 (fld w 9 6)) (BitVec.ofNat 6 (fld w 3 6)) (flag w 2) (flag w 1) (flag w 0)⟩
  , ⟨0x18E, [], [], fun w => .atomf (flag w 31) (BitVec.ofNat 6 (fld w 15 6)) (BitVec.ofNat 6 (fld w 9 6)) (BitVec.ofNat 6 (fld w 3 6)) (flag w 2) (flag w 1) (flag w 0)⟩
  , ⟨0x18F, [(0, 1), (15, 6)], [], fun w => .xacc (flag w 31) (BitVec.ofNat 6 (fld w 9 6)) (BitVec.ofNat 6 (fld w 3 6)) (flag w 2) (flag w 1)⟩
  , ⟨0x190, [(0, 1), (15, 6)], [], fun w => .xaccp (flag w 31) (BitVec.ofNat 6 (fld w 9 6)) (BitVec.ofNat 6 (fld w 3 6)) (flag w 2) (flag w 1)⟩
  , ⟨0x191, [(1, 1), (3, 6)], [], fun w => .xrd (flag w 31) (BitVec.ofNat 6 (fld w 15 6)) (BitVec.ofNat 6 (fld w 9 6)) (flag w 2) (flag w 0)⟩
  , ⟨0x192, [(0, 2), (3, 6), (15, 6)], [], fun w => .xclr (flag w 31) (BitVec.ofNat 6 (fld w 9 6)) (flag w 2)⟩
  , ⟨0x193, [(0, 21)], [], fun w => .fence (flag w 31)⟩
  , ⟨0x194, [(0, 21)], [], fun w => .fencew (flag w 31)⟩ ]

/-- Rows of opcodes 0x200 to 0x27F (R51). -/
def rowsSync : List WordRow :=
  [ ⟨0x200, [(0, 2), (9, 12)], [], fun w => .bar (flag w 31) (BitVec.ofNat 4 (fld w 5 4)) (BitVec.ofNat 3 (fld w 2 3))⟩
  , ⟨0x201, [(0, 2), (9, 6)], [], fun w => .bara (flag w 31) (BitVec.ofNat 6 (fld w 15 6)) (BitVec.ofNat 4 (fld w 5 4)) (BitVec.ofNat 3 (fld w 2 3))⟩
  , ⟨0x202, [(0, 1), (2, 3), (15, 6)], [], fun w => .barw (flag w 31) (BitVec.ofNat 6 (fld w 9 6)) (BitVec.ofNat 4 (fld w 5 4)) (flag w 1)⟩
  , ⟨0x203, [], [], fun w => .arm (flag w 31) (BitVec.ofNat 6 (fld w 15 6)) (BitVec.ofNat 6 (fld w 9 6)) (BitVec.ofNat 6 (fld w 3 6)) (flag w 2) (flag w 1) (flag w 0)⟩
  , ⟨0x204, [(0, 1), (15, 6)], [], fun w => .arrv (flag w 31) (BitVec.ofNat 6 (fld w 9 6)) (BitVec.ofNat 6 (fld w 3 6)) (flag w 2) (flag w 1)⟩
  , ⟨0x205, [(0, 1)], [], fun w => .arwait (flag w 31) (BitVec.ofNat 6 (fld w 15 6)) (BitVec.ofNat 6 (fld w 9 6)) (BitVec.ofNat 6 (fld w 3 6)) (flag w 2) (flag w 1)⟩
  , ⟨0x206, [(0, 2), (3, 6)], [], fun w => .arread (flag w 31) (BitVec.ofNat 6 (fld w 15 6)) (BitVec.ofNat 6 (fld w 9 6)) (flag w 2)⟩
  , ⟨0x207, [(0, 1)], [], fun w => .qpush (flag w 31) (BitVec.ofNat 6 (fld w 15 6)) (BitVec.ofNat 6 (fld w 9 6)) (BitVec.ofNat 6 (fld w 3 6)) (flag w 2) (flag w 1)⟩
  , ⟨0x208, [(0, 2), (3, 6)], [], fun w => .qpop (flag w 31) (BitVec.ofNat 6 (fld w 15 6)) (BitVec.ofNat 6 (fld w 9 6)) (flag w 2)⟩
  , ⟨0x209, [(0, 2), (3, 6)], [], fun w => .qtry (flag w 31) (BitVec.ofNat 6 (fld w 15 6)) (BitVec.ofNat 6 (fld w 9 6)) (flag w 2)⟩
  , ⟨0x20A, [(0, 2), (3, 6)], [], fun w => .qlen (flag w 31) (BitVec.ofNat 6 (fld w 15 6)) (BitVec.ofNat 6 (fld w 9 6)) (flag w 2)⟩
  , ⟨0x20B, [(1, 1), (3, 6)], [], fun w => .dist (flag w 31) (BitVec.ofNat 6 (fld w 15 6)) (BitVec.ofNat 6 (fld w 9 6)) (flag w 2) (flag w 0)⟩
  , ⟨0x20C, [(0, 1)], [], fun w => .sbset (flag w 31) (BitVec.ofNat 6 (fld w 15 6)) (BitVec.ofNat 6 (fld w 9 6)) (BitVec.ofNat 7 (fld w 2 7)) (flag w 1)⟩
  , ⟨0x20D, [(0, 2), (3, 6)], [], fun w => .sbqry (flag w 31) (BitVec.ofNat 6 (fld w 15 6)) (BitVec.ofNat 6 (fld w 9 6)) (flag w 2)⟩ ]

/-- Rows of opcodes 0x280 to 0x2FF (R51). -/
def rowsEng : List WordRow :=
  [ ⟨0x280, [(0, 2), (3, 6), (15, 6)], [], fun w => .cpy (flag w 31) (BitVec.ofNat 6 (fld w 9 6)) (flag w 2)⟩
  , ⟨0x281, [(0, 2), (3, 6), (15, 6)], [], fun w => .cpy2d (flag w 31) (BitVec.ofNat 6 (fld w 9 6)) (flag w 2)⟩
  , ⟨0x282, [(0, 2), (3, 6), (15, 6)], [], fun w => .cpym (flag w 31) (BitVec.ofNat 6 (fld w 9 6)) (flag w 2)⟩
  , ⟨0x283, [(0, 2), (3, 6), (15, 6)], [], fun w => .cpyr (flag w 31) (BitVec.ofNat 6 (fld w 9 6)) (flag w 2)⟩
  , ⟨0x284, [(0, 2), (3, 6)], [], fun w => .cpyq (flag w 31) (BitVec.ofNat 6 (fld w 15 6)) (BitVec.ofNat 6 (fld w 9 6)) (flag w 2)⟩
  , ⟨0x285, [(0, 2), (3, 6)], [], fun w => .cpyx (flag w 31) (BitVec.ofNat 6 (fld w 15 6)) (BitVec.ofNat 6 (fld w 9 6)) (flag w 2)⟩
  , ⟨0x286, [(0, 2), (3, 6), (15, 6)], [], fun w => .cpyf (flag w 31) (BitVec.ofNat 6 (fld w 9 6)) (flag w 2)⟩
  , ⟨0x287, [(0, 2), (3, 6)], [], fun w => .rlqry (flag w 31) (BitVec.ofNat 6 (fld w 15 6)) (BitVec.ofNat 6 (fld w 9 6)) (flag w 2)⟩
  , ⟨0x288, [(0, 2), (3, 6)], [], fun w => .fdstart (flag w 31) (BitVec.ofNat 6 (fld w 15 6)) (BitVec.ofNat 6 (fld w 9 6)) (flag w 2)⟩
  , ⟨0x289, [(0, 2), (5, 10)], [], fun w => .fdstop (flag w 31) (BitVec.ofNat 6 (fld w 15 6)) (BitVec.ofNat 3 (fld w 2 3))⟩
  , ⟨0x28A, [(0, 2), (3, 6)], [], fun w => .fdstat (flag w 31) (BitVec.ofNat 6 (fld w 15 6)) (BitVec.ofNat 6 (fld w 9 6)) (flag w 2)⟩ ]

/-- Rows of opcodes 0x300 to 0x37F (R51). -/
def rowsMtx : List WordRow :=
  [ ⟨0x300, [(0, 3)], [(4, 1), (5, 1), (6, 3)], fun w => .kld (flag w 31) (BitVec.ofNat 6 (fld w 15 6)) (BitVec.ofNat 6 (fld w 9 6)) (flag w 3)⟩
  , ⟨0x301, [(0, 3)], [(4, 1), (5, 1), (6, 3)], fun w => .kst (flag w 31) (BitVec.ofNat 6 (fld w 15 6)) (BitVec.ofNat 6 (fld w 9 6)) (flag w 3)⟩
  , ⟨0x302, [(1, 1), (4, 11)], [], fun w => .kzero (flag w 31) (BitVec.ofNat 6 (fld w 15 6)) (BitVec.ofNat 2 (fld w 2 2)) (flag w 0)⟩
  , ⟨0x303, [(2, 1)], [], fun w => .kcvt (flag w 31) (BitVec.ofNat 6 (fld w 15 6)) (BitVec.ofNat 6 (fld w 9 6)) (BitVec.ofNat 6 (fld w 3 6)) (flag w 1) (flag w 0)⟩
  , ⟨0x304, [(2, 1)], [], fun w => .kbmp (flag w 31) (BitVec.ofNat 6 (fld w 15 6)) (BitVec.ofNat 6 (fld w 9 6)) (BitVec.ofNat 6 (fld w 3 6)) (flag w 1) (flag w 0)⟩
  , ⟨0x305, [(0, 3)], [(4, 1), (5, 1), (6, 3)], fun w => .kbld (flag w 31) (BitVec.ofNat 6 (fld w 15 6)) (BitVec.ofNat 6 (fld w 9 6)) (flag w 3)⟩
  , ⟨0x306, [(0, 3)], [(4, 1), (5, 1), (6, 3)], fun w => .kbst (flag w 31) (BitVec.ofNat 6 (fld w 15 6)) (BitVec.ofNat 6 (fld w 9 6)) (flag w 3)⟩
  , ⟨0x307, [(1, 1), (3, 6), (15, 6)], [], fun w => .mmae (flag w 31) (BitVec.ofNat 6 (fld w 9 6)) (flag w 2) (flag w 0)⟩
  , ⟨0x308, [], [], fun w => .mmac (flag w 31) (BitVec.ofNat 6 (fld w 15 6)) (BitVec.ofNat 6 (fld w 9 6)) (BitVec.ofNat 6 (fld w 3 6)) (flag w 2) (flag w 1) (flag w 0)⟩
  , ⟨0x309, [(0, 2), (3, 18)], [], fun w => .accz (flag w 31) (flag w 2)⟩
  , ⟨0x30A, [], [], fun w => .accrd (flag w 31) (BitVec.ofNat 6 (fld w 15 6)) (BitVec.ofNat 6 (fld w 9 6)) (BitVec.ofNat 6 (fld w 3 6)) (flag w 2) (flag w 1) (flag w 0)⟩
  , ⟨0x30B, [(0, 1), (3, 6), (15, 6)], [], fun w => .accspl (flag w 31) (BitVec.ofNat 6 (fld w 9 6)) (flag w 2) (flag w 1)⟩
  , ⟨0x30C, [(0, 1), (3, 6), (15, 6)], [], fun w => .accfil (flag w 31) (BitVec.ofNat 6 (fld w 9 6)) (flag w 2) (flag w 1)⟩
  , ⟨0x30D, [(0, 2), (3, 6)], [], fun w => .mqry (flag w 31) (BitVec.ofNat 6 (fld w 15 6)) (BitVec.ofNat 6 (fld w 9 6)) (flag w 2)⟩ ]

/-- Rows of opcodes 0x380 to 0x3DF (R51). -/
def rowsGfx : List WordRow :=
  [ ⟨0x380, [(0, 1)], [], fun w => .pbin (flag w 31) (BitVec.ofNat 6 (fld w 15 6)) (BitVec.ofNat 6 (fld w 9 6)) (BitVec.ofNat 6 (fld w 3 6)) (flag w 2) (flag w 1)⟩
  , ⟨0x381, [(0, 21)], [], fun w => .pbend (flag w 31)⟩
  , ⟨0x382, [(0, 1)], [], fun w => .hsrnext (flag w 31) (BitVec.ofNat 6 (fld w 15 6)) (BitVec.ofNat 6 (fld w 9 6)) (BitVec.ofNat 6 (fld w 3 6)) (flag w 2) (flag w 1)⟩
  , ⟨0x383, [], [], fun w => .ipa (flag w 31) (BitVec.ofNat 6 (fld w 15 6)) (BitVec.ofNat 6 (fld w 9 6)) (BitVec.ofNat 6 (fld w 3 6)) (flag w 2) (flag w 1) (flag w 0)⟩
  , ⟨0x384, [(0, 1), (15, 6)], [], fun w => .fragw (flag w 31) (BitVec.ofNat 6 (fld w 9 6)) (BitVec.ofNat 6 (fld w 3 6)) (flag w 2) (flag w 1)⟩
  , ⟨0x385, [(0, 1)], [], fun w => .splat (flag w 31) (BitVec.ofNat 6 (fld w 15 6)) (BitVec.ofNat 6 (fld w 9 6)) (BitVec.ofNat 6 (fld w 3 6)) (flag w 2) (flag w 1)⟩
  , ⟨0x386, [(0, 21)], [], fun w => .splatend (flag w 31)⟩
  , ⟨0x387, [(0, 1)], [], fun w => .stiprun (flag w 31) (BitVec.ofNat 6 (fld w 15 6)) (BitVec.ofNat 6 (fld w 9 6)) (BitVec.ofNat 6 (fld w 3 6)) (flag w 2) (flag w 1)⟩
  , ⟨0x388, [(0, 2), (3, 6)], [], fun w => .stiprd (flag w 31) (BitVec.ofNat 6 (fld w 15 6)) (BitVec.ofNat 6 (fld w 9 6)) (flag w 2)⟩
  , ⟨0x389, [(0, 2), (3, 6)], [], fun w => .raynew (flag w 31) (BitVec.ofNat 6 (fld w 15 6)) (BitVec.ofNat 6 (fld w 9 6)) (flag w 2)⟩
  , ⟨0x38A, [(0, 1)], [], fun w => .rayset (flag w 31) (BitVec.ofNat 6 (fld w 15 6)) (BitVec.ofNat 6 (fld w 9 6)) (BitVec.ofNat 6 (fld w 3 6)) (flag w 2) (flag w 1)⟩
  , ⟨0x38B, [(0, 2), (3, 6), (15, 6)], [], fun w => .raygo (flag w 31) (BitVec.ofNat 6 (fld w 9 6)) (flag w 2)⟩
  , ⟨0x38C, [(0, 2), (3, 6)], [], fun w => .raywait (flag w 31) (BitVec.ofNat 6 (fld w 15 6)) (BitVec.ofNat 6 (fld w 9 6)) (flag w 2)⟩
  , ⟨0x38D, [(0, 1)], [], fun w => .rayget (flag w 31) (BitVec.ofNat 6 (fld w 15 6)) (BitVec.ofNat 6 (fld w 9 6)) (BitVec.ofNat 6 (fld w 3 6)) (flag w 2) (flag w 1)⟩
  , ⟨0x38E, [(0, 2), (3, 6), (15, 6)], [], fun w => .rayfree (flag w 31) (BitVec.ofNat 6 (fld w 9 6)) (flag w 2)⟩
  , ⟨0x38F, [(0, 1), (15, 6)], [], fun w => .verdict (flag w 31) (BitVec.ofNat 6 (fld w 9 6)) (BitVec.ofNat 6 (fld w 3 6)) (flag w 2) (flag w 1)⟩
  , ⟨0x390, [(0, 2), (3, 6)], [], fun w => .raycb (flag w 31) (BitVec.ofNat 6 (fld w 15 6)) (BitVec.ofNat 6 (fld w 9 6)) (flag w 2)⟩
  , ⟨0x3C0, [(0, 15)], [], fun w => .tnow (flag w 31) (BitVec.ofNat 6 (fld w 15 6))⟩
  , ⟨0x3C1, [(0, 2), (3, 6), (15, 6)], [], fun w => .twait (flag w 31) (BitVec.ofNat 6 (fld w 9 6)) (flag w 2)⟩
  , ⟨0x3C2, [(0, 1), (2, 1), (9, 6)], [], fun w => .tdead (flag w 31) (BitVec.ofNat 6 (fld w 15 6)) (BitVec.ofNat 6 (fld w 3 6)) (flag w 1)⟩
  , ⟨0x3C3, [(0, 15)], [], fun w => .tbudg (flag w 31) (BitVec.ofNat 6 (fld w 15 6))⟩
  , ⟨0x3C4, [], [], fun w => .scommit (flag w 31) (BitVec.ofNat 6 (fld w 15 6)) (BitVec.ofNat 6 (fld w 9 6)) (BitVec.ofNat 6 (fld w 3 6)) (flag w 2) (flag w 1) (flag w 0)⟩
  , ⟨0x3C5, [(0, 1)], [], fun w => .shalo (flag w 31) (BitVec.ofNat 6 (fld w 15 6)) (BitVec.ofNat 6 (fld w 9 6)) (BitVec.ofNat 6 (fld w 3 6)) (flag w 2) (flag w 1)⟩
  , ⟨0x3C6, [(0, 21)], [], fun w => .jobend (flag w 31)⟩
  , ⟨0x3C7, [(0, 1), (5, 4)], [], fun w => .srate (flag w 31) (BitVec.ofNat 6 (fld w 15 6)) (BitVec.ofNat 6 (fld w 9 6)) (flag w 4) (BitVec.ofNat 2 (fld w 2 2)) (flag w 1)⟩ ]

/-- Rows of opcodes 0x3E0 to 0x3FE (R51). -/
def rowsSys : List WordRow :=
  [ ⟨0x3E0, [], [], fun w => .trap (flag w 31) (BitVec.ofNat 6 (fld w 15 6)) (BitVec.ofNat 15 (fld w 0 15))⟩
  , ⟨0x3E1, [(0, 21)], [], fun w => .rte (flag w 31)⟩
  , ⟨0x3E2, [], [], fun w => .srd (flag w 31) (BitVec.ofNat 6 (fld w 15 6)) (BitVec.ofNat 15 (fld w 0 15))⟩
  , ⟨0x3E3, [], [], fun w => .swr (flag w 31) (BitVec.ofNat 6 (fld w 15 6)) (BitVec.ofNat 15 (fld w 0 15))⟩
  , ⟨0x3E4, [(1, 1), (3, 6)], [], fun w => .dtload (flag w 31) (BitVec.ofNat 6 (fld w 15 6)) (BitVec.ofNat 6 (fld w 9 6)) (flag w 2) (flag w 0)⟩
  , ⟨0x3E5, [(0, 2), (3, 6)], [], fun w => .sealq (flag w 31) (BitVec.ofNat 6 (fld w 15 6)) (BitVec.ofNat 6 (fld w 9 6)) (flag w 2)⟩
  , ⟨0x3E6, [(0, 21)], [], fun w => .halt (flag w 31)⟩
  , ⟨0x3E7, [(0, 1), (15, 6)], [], fun w => .errinj (flag w 31) (BitVec.ofNat 6 (fld w 9 6)) (BitVec.ofNat 6 (fld w 3 6)) (flag w 2) (flag w 1)⟩
  , ⟨0x3E8, [(0, 1)], [], fun w => .tlbinv (flag w 31) (BitVec.ofNat 6 (fld w 15 6)) (BitVec.ofNat 6 (fld w 9 6)) (BitVec.ofNat 6 (fld w 3 6)) (flag w 2) (flag w 1)⟩
  , ⟨0x3E9, [(0, 1)], [], fun w => .xbpark (flag w 31) (BitVec.ofNat 6 (fld w 15 6)) (BitVec.ofNat 6 (fld w 9 6)) (BitVec.ofNat 6 (fld w 3 6)) (flag w 2) (flag w 1)⟩
  , ⟨0x3EA, [(0, 2), (3, 6)], [], fun w => .xbwake (flag w 31) (BitVec.ofNat 6 (fld w 15 6)) (BitVec.ofNat 6 (fld w 9 6)) (flag w 2)⟩
  , ⟨0x3EB, [(0, 2), (3, 6)], [], fun w => .xbstat (flag w 31) (BitVec.ofNat 6 (fld w 15 6)) (BitVec.ofNat 6 (fld w 9 6)) (flag w 2)⟩
  , ⟨0x3EC, [(0, 2), (3, 6)], [], fun w => .lkstat (flag w 31) (BitVec.ofNat 6 (fld w 15 6)) (BitVec.ofNat 6 (fld w 9 6)) (flag w 2)⟩ ]

/-- The access-slice words (R52, R284). -/
def rowsAccess : List AccessRow :=
  [ ⟨0x01, [], fun w => .floop (BitVec.ofNat 2 (fld w 22 2)) (BitVec.ofNat 2 (fld w 20 2)) (BitVec.ofNat 20 (fld w 0 20))⟩
  , ⟨0x02, [(0, 24, 0)], fun _ => .fend⟩
  , ⟨0x03, [(16, 2, 0)], fun w => .faddr (BitVec.ofNat 2 (fld w 22 2)) (BitVec.ofNat 2 (fld w 20 2)) (BitVec.ofNat 2 (fld w 18 2)) (BitVec.ofNat 16 (fld w 0 16))⟩
  , ⟨0x04, [(0, 10, 0)], fun w => .fpush (BitVec.ofNat 2 (fld w 22 2)) (BitVec.ofNat 3 (fld w 19 3)) (BitVec.ofNat 3 (fld w 16 3)) (flag w 15) (BitVec.ofNat 5 (fld w 10 5))⟩
  , ⟨0x05, [(0, 15, 0)], fun w => .fpushk (BitVec.ofNat 2 (fld w 22 2)) (BitVec.ofNat 3 (fld w 19 3)) (BitVec.ofNat 4 (fld w 15 4))⟩
  , ⟨0x06, [(0, 15, 0), (23, 1, 0)], fun w => .fpermitQueue (BitVec.ofNat 3 (fld w 20 3)) (BitVec.ofNat 5 (fld w 15 5))⟩
  , ⟨0x06, [(0, 18, 0), (23, 1, 1)], fun w => .fpermitBuffer (BitVec.ofNat 5 (fld w 18 5))⟩
  , ⟨0x07, [(0, 18, 0)], fun w => .fsync (flag w 23) (BitVec.ofNat 5 (fld w 18 5))⟩
  , ⟨0x08, [(0, 24, 0)], fun _ => .fstop⟩ ]


/-- The opcode map under map 3 (R51), NOP included and EXT apart. -/
def wordRows : List WordRow :=
  rowsAlu ++ rowsFloat ++ rowsCtrl ++ rowsMem ++ rowsSync ++ rowsEng ++ rowsMtx ++ rowsGfx ++ rowsSys

/-- The map row of an opcode. -/
def rowOf (opc : Nat) : Option WordRow := wordRows.find? (fun r => r.opc == opc)

/-- The opcode field of a word (R31). -/
def opcOf (w : Nat) : Nat := fld w 21 10

/-- Static operand legality of an instruction as a decoding error (R35, R37). -/
def operandError (i : Instr) : Option DecodeError :=
  if reservedOperand i then some .reserved else if operandsOk i then none else some .range

/-- The EXT words (R39): opcode 0x3FF, control form for bit 20 clear, immediate form for bit 20 set. -/
def decodeExt (w : Nat) : Except DecodeError Instr :=
  if flag w 31 then .error .extForm
  else if flag w 20 then .ok (.extImmediateForm (BitVec.ofNat 20 (fld w 0 20)))
  else if fld w 0 4 != 0 then .error .extForm
  else .ok (.extControlForm (BitVec.ofNat 3 (fld w 17 3)) (flag w 16) (flag w 15) (BitVec.ofNat 3 (fld w 12 3))
    (flag w 11) (BitVec.ofNat 6 (fld w 5 6)) (flag w 4))

/-- The instruction a thread word stands for under map 3, or why it is none (R50, R51). -/
def decodeWord (w : Nat) : Except DecodeError Instr :=
  if opcOf w == 0x3FF then decodeExt w
  else match rowOf (opcOf w) with
    | none => .error .unassigned
    | some r =>
      if r.zeros.any (fun z => fld w z.1 z.2 != 0) || (r.misuse.any (fun z => z.2 == 3) && decide (5 ≤ fld w 6 3)) then .error .reserved
      else if r.misuse.any (fun z => fld w z.1 z.2 != 0) then .error .range
      else match operandError (r.make w) with
        | some e => .error e
        | none => .ok (r.make w)

/-- The access-slice word a fetched word stands for (R52, R284); none is a BADWORD (R50, R285). -/
def decodeAccess (w : Nat) : Option Instr :=
  match rowsAccess.find? (fun r => r.op == fld w 24 8 && r.fixed.all (fun z => fld w z.1 z.2.1 == z.2.2)) with
  | none => none
  | some r => if operandsOk (r.make w) then some (r.make w) else none

/-- Fields set into a word: each value at its lowest bit. -/
def pack (base : Nat) (fs : List (Nat × Nat)) : Nat := fs.foldl (fun acc f => acc + f.1 * 2 ^ f.2) base

/-- The bits of an instruction, from the same encoding tables (R31, R34, R51, R52). A row without an encoding has none. -/
def encode : Instr → List Nat
  | .nop sw => [pack 0x00000000 [(sw.toNat, 31)]]
  | .extControlForm p n e r t c l => [pack 0x7FE00000 [(p.toNat, 17), (n.toNat, 16), (e.toNat, 15), (r.toNat, 12), (t.toNat, 11), (c.toNat, 5), (l.toNat, 4)]]
  | .extImmediateForm i => [pack 0x7FF00000 [(i.toNat, 0)]]
  | .mov sw d a x => [pack 0x00200000 [(sw.toNat, 31), (d.toNat, 15), (a.toNat, 9), (x.toNat, 2)]]
  | .movi sw d i => [pack 0x00400000 [(sw.toNat, 31), (d.toNat, 15), (i.toNat, 0)]]
  | .movh sw d i => [pack 0x00600000 [(sw.toNat, 31), (d.toNat, 15), (i.toNat, 0)]]
  | .movs sw d i => [pack 0x00800000 [(sw.toNat, 31), (d.toNat, 15), (i.toNat, 0)]]
  | .iadd sw d a b x y m => [pack 0x00A00000 [(sw.toNat, 31), (d.toNat, 15), (a.toNat, 9), (b.toNat, 3), (x.toNat, 2), (y.toNat, 1), (m.toNat, 0)]]
  | .isub sw d a b x y m => [pack 0x00C00000 [(sw.toNat, 31), (d.toNat, 15), (a.toNat, 9), (b.toNat, 3), (x.toNat, 2), (y.toNat, 1), (m.toNat, 0)]]
  | .iaddc sw d a b x y m => [pack 0x00E00000 [(sw.toNat, 31), (d.toNat, 15), (a.toNat, 9), (b.toNat, 3), (x.toNat, 2), (y.toNat, 1), (m.toNat, 0)]]
  | .imul sw d a b x y => [pack 0x01000000 [(sw.toNat, 31), (d.toNat, 15), (a.toNat, 9), (b.toNat, 3), (x.toNat, 2), (y.toNat, 1)]]
  | .imulh sw d a b x y m => [pack 0x01200000 [(sw.toNat, 31), (d.toNat, 15), (a.toNat, 9), (b.toNat, 3), (x.toNat, 2), (y.toNat, 1), (m.toNat, 0)]]
  | .imad sw d a b x y m => [pack 0x01400000 [(sw.toNat, 31), (d.toNat, 15), (a.toNat, 9), (b.toNat, 3), (x.toNat, 2), (y.toNat, 1), (m.toNat, 0)]]
  | .idiv sw d a b x y m => [pack 0x01600000 [(sw.toNat, 31), (d.toNat, 15), (a.toNat, 9), (b.toNat, 3), (x.toNat, 2), (y.toNat, 1), (m.toNat, 0)]]
  | .irem sw d a b x y m => [pack 0x01800000 [(sw.toNat, 31), (d.toNat, 15), (a.toNat, 9), (b.toNat, 3), (x.toNat, 2), (y.toNat, 1), (m.toNat, 0)]]
  | .ineg sw d a x => [pack 0x01A00000 [(sw.toNat, 31), (d.toNat, 15), (a.toNat, 9), (x.toNat, 2)]]
  | .iabs sw d a x => [pack 0x01C00000 [(sw.toNat, 31), (d.toNat, 15), (a.toNat, 9), (x.toNat, 2)]]
  | .imin sw d a b x y m => [pack 0x01E00000 [(sw.toNat, 31), (d.toNat, 15), (a.toNat, 9), (b.toNat, 3), (x.toNat, 2), (y.toNat, 1), (m.toNat, 0)]]
  | .imax sw d a b x y m => [pack 0x02000000 [(sw.toNat, 31), (d.toNat, 15), (a.toNat, 9), (b.toNat, 3), (x.toNat, 2), (y.toNat, 1), (m.toNat, 0)]]
  | .and sw d a b x y => [pack 0x02200000 [(sw.toNat, 31), (d.toNat, 15), (a.toNat, 9), (b.toNat, 3), (x.toNat, 2), (y.toNat, 1)]]
  | .or sw d a b x y => [pack 0x02400000 [(sw.toNat, 31), (d.toNat, 15), (a.toNat, 9), (b.toNat, 3), (x.toNat, 2), (y.toNat, 1)]]
  | .xor sw d a b x y => [pack 0x02600000 [(sw.toNat, 31), (d.toNat, 15), (a.toNat, 9), (b.toNat, 3), (x.toNat, 2), (y.toNat, 1)]]
  | .not sw d a x => [pack 0x02800000 [(sw.toNat, 31), (d.toNat, 15), (a.toNat, 9), (x.toNat, 2)]]
  | .andn sw d a b x y => [pack 0x02A00000 [(sw.toNat, 31), (d.toNat, 15), (a.toNat, 9), (b.toNat, 3), (x.toNat, 2), (y.toNat, 1)]]
  | .shl sw d a b x y => [pack 0x02C00000 [(sw.toNat, 31), (d.toNat, 15), (a.toNat, 9), (b.toNat, 3), (x.toNat, 2), (y.toNat, 1)]]
  | .shr sw d a b x y => [pack 0x02E00000 [(sw.toNat, 31), (d.toNat, 15), (a.toNat, 9), (b.toNat, 3), (x.toNat, 2), (y.toNat, 1)]]
  | .sar sw d a b x y => [pack 0x03000000 [(sw.toNat, 31), (d.toNat, 15), (a.toNat, 9), (b.toNat, 3), (x.toNat, 2), (y.toNat, 1)]]
  | .rot sw d a b x y m => [pack 0x03200000 [(sw.toNat, 31), (d.toNat, 15), (a.toNat, 9), (b.toNat, 3), (x.toNat, 2), (y.toNat, 1), (m.toNat, 0)]]
  | .bfx sw d a b x y m => [pack 0x03400000 [(sw.toNat, 31), (d.toNat, 15), (a.toNat, 9), (b.toNat, 3), (x.toNat, 2), (y.toNat, 1), (m.toNat, 0)]]
  | .bfi sw d a b x y => [pack 0x03600000 [(sw.toNat, 31), (d.toNat, 15), (a.toNat, 9), (b.toNat, 3), (x.toNat, 2), (y.toNat, 1)]]
  | .popc sw d a x => [pack 0x03800000 [(sw.toNat, 31), (d.toNat, 15), (a.toNat, 9), (x.toNat, 2)]]
  | .clz sw d a x => [pack 0x03A00000 [(sw.toNat, 31), (d.toNat, 15), (a.toNat, 9), (x.toNat, 2)]]
  | .brev sw d a x => [pack 0x03C00000 [(sw.toNat, 31), (d.toNat, 15), (a.toNat, 9), (x.toNat, 2)]]
  | .isetp sw c p a b x y m => [pack 0x03E00000 [(sw.toNat, 31), (c.toNat, 18), (p.toNat, 15), (a.toNat, 9), (b.toNat, 3), (x.toNat, 2), (y.toNat, 1), (m.toNat, 0)]]
  | .sel sw d a b x y m => [pack 0x04000000 [(sw.toNat, 31), (d.toNat, 15), (a.toNat, 9), (b.toNat, 3), (x.toNat, 2), (y.toNat, 1), (m.toNat, 0)]]
  | .plop sw o p q r m => [pack 0x04200000 [(sw.toNat, 31), (o.toNat, 18), (p.toNat, 15), (q.toNat, 9), (r.toNat, 3), (m.toNat, 0)]]
  | .lea sw d a b x y m => [pack 0x04400000 [(sw.toNat, 31), (d.toNat, 15), (a.toNat, 9), (b.toNat, 3), (x.toNat, 2), (y.toNat, 1), (m.toNat, 0)]]
  | .add64 sw d a b x y m => [pack 0x04600000 [(sw.toNat, 31), (d.toNat, 15), (a.toNat, 9), (b.toNat, 3), (x.toNat, 2), (y.toNat, 1), (m.toNat, 0)]]
  | .idp4 sw d a b x y m => [pack 0x04800000 [(sw.toNat, 31), (d.toNat, 15), (a.toNat, 9), (b.toNat, 3), (x.toNat, 2), (y.toNat, 1), (m.toNat, 0)]]
  | .mix32 sw d a b x y => [pack 0x04A00000 [(sw.toNat, 31), (d.toNat, 15), (a.toNat, 9), (b.toNat, 3), (x.toNat, 2), (y.toNat, 1)]]
  | .iaddi sw d a i x m => [pack 0x04C00000 [(sw.toNat, 31), (d.toNat, 15), (a.toNat, 9), (i.toNat, 2), (x.toNat, 1), (m.toNat, 0)]]
  | .andi sw d a i x => [pack 0x04E00000 [(sw.toNat, 31), (d.toNat, 15), (a.toNat, 9), (i.toNat, 2), (x.toNat, 1)]]
  | .ori sw d a i x => [pack 0x05000000 [(sw.toNat, 31), (d.toNat, 15), (a.toNat, 9), (i.toNat, 2), (x.toNat, 1)]]
  | .xori sw d a i x => [pack 0x05200000 [(sw.toNat, 31), (d.toNat, 15), (a.toNat, 9), (i.toNat, 2), (x.toNat, 1)]]
  | .shli sw d a i x => [pack 0x05400000 [(sw.toNat, 31), (d.toNat, 15), (a.toNat, 9), (i.toNat, 2), (x.toNat, 1)]]
  | .shri sw d a i x => [pack 0x05600000 [(sw.toNat, 31), (d.toNat, 15), (a.toNat, 9), (i.toNat, 2), (x.toNat, 1)]]
  | .sari sw d a i x => [pack 0x05800000 [(sw.toNat, 31), (d.toNat, 15), (a.toNat, 9), (i.toNat, 2), (x.toNat, 1)]]
  | .isetpi sw c p a i x m => [pack 0x05A00000 [(sw.toNat, 31), (c.toNat, 18), (p.toNat, 15), (a.toNat, 9), (i.toNat, 2), (x.toNat, 1), (m.toNat, 0)]]
  | .fadd sw d a b x y => [pack 0x10000000 [(sw.toNat, 31), (d.toNat, 15), (a.toNat, 9), (b.toNat, 3), (x.toNat, 2), (y.toNat, 1)]]
  | .fsub sw d a b x y => [pack 0x10200000 [(sw.toNat, 31), (d.toNat, 15), (a.toNat, 9), (b.toNat, 3), (x.toNat, 2), (y.toNat, 1)]]
  | .fmul sw d a b x y => [pack 0x10400000 [(sw.toNat, 31), (d.toNat, 15), (a.toNat, 9), (b.toNat, 3), (x.toNat, 2), (y.toNat, 1)]]
  | .fmad sw d a b x y m => [pack 0x10600000 [(sw.toNat, 31), (d.toNat, 15), (a.toNat, 9), (b.toNat, 3), (x.toNat, 2), (y.toNat, 1), (m.toNat, 0)]]
  | .fmin sw d a b x y => [pack 0x10800000 [(sw.toNat, 31), (d.toNat, 15), (a.toNat, 9), (b.toNat, 3), (x.toNat, 2), (y.toNat, 1)]]
  | .fmax sw d a b x y => [pack 0x10A00000 [(sw.toNat, 31), (d.toNat, 15), (a.toNat, 9), (b.toNat, 3), (x.toNat, 2), (y.toNat, 1)]]
  | .fneg sw d a x => [pack 0x10C00000 [(sw.toNat, 31), (d.toNat, 15), (a.toNat, 9), (x.toNat, 2)]]
  | .fabs sw d a x => [pack 0x10E00000 [(sw.toNat, 31), (d.toNat, 15), (a.toNat, 9), (x.toNat, 2)]]
  | .fsetp sw c p a b x y m => [pack 0x11000000 [(sw.toNat, 31), (c.toNat, 18), (p.toNat, 15), (a.toNat, 9), (b.toNat, 3), (x.toNat, 2), (y.toNat, 1), (m.toNat, 0)]]
  | .fdiv sw d a b x y => [pack 0x11200000 [(sw.toNat, 31), (d.toNat, 15), (a.toNat, 9), (b.toNat, 3), (x.toNat, 2), (y.toNat, 1)]]
  | .frcp sw d a x => [pack 0x11400000 [(sw.toNat, 31), (d.toNat, 15), (a.toNat, 9), (x.toNat, 2)]]
  | .fsqrt sw d a x => [pack 0x11600000 [(sw.toNat, 31), (d.toNat, 15), (a.toNat, 9), (x.toNat, 2)]]
  | .frsq sw d a x => [pack 0x11800000 [(sw.toNat, 31), (d.toNat, 15), (a.toNat, 9), (x.toNat, 2)]]
  | .fexp2 sw d a x => [pack 0x11A00000 [(sw.toNat, 31), (d.toNat, 15), (a.toNat, 9), (x.toNat, 2)]]
  | .flog2 sw d a x => [pack 0x11C00000 [(sw.toNat, 31), (d.toNat, 15), (a.toNat, 9), (x.toNat, 2)]]
  | .fsinpi sw d a x => [pack 0x11E00000 [(sw.toNat, 31), (d.toNat, 15), (a.toNat, 9), (x.toNat, 2)]]
  | .fcospi sw d a x => [pack 0x12000000 [(sw.toNat, 31), (d.toNat, 15), (a.toNat, 9), (x.toNat, 2)]]
  | .frnd sw d a x m => [pack 0x12200000 [(sw.toNat, 31), (d.toNat, 15), (a.toNat, 9), (x.toNat, 2), (m.toNat, 0)]]
  | .fclass sw d a x => [pack 0x12400000 [(sw.toNat, 31), (d.toNat, 15), (a.toNat, 9), (x.toNat, 2)]]
  | .fscale sw d a b x y => [pack 0x12600000 [(sw.toNat, 31), (d.toNat, 15), (a.toNat, 9), (b.toNat, 3), (x.toNat, 2), (y.toNat, 1)]]
  | .fexpo sw d a x => [pack 0x12800000 [(sw.toNat, 31), (d.toNat, 15), (a.toNat, 9), (x.toNat, 2)]]
  | .twosum sw d a b x y => [pack 0x12A00000 [(sw.toNat, 31), (d.toNat, 15), (a.toNat, 9), (b.toNat, 3), (x.toNat, 2), (y.toNat, 1)]]
  | .padd sw d a b x y => [pack 0x12C00000 [(sw.toNat, 31), (d.toNat, 15), (a.toNat, 9), (b.toNat, 3), (x.toNat, 2), (y.toNat, 1)]]
  | .prd sw d a x => [pack 0x12E00000 [(sw.toNat, 31), (d.toNat, 15), (a.toNat, 9), (x.toNat, 2)]]
  | .hadd2 sw d a b x y m => [pack 0x13000000 [(sw.toNat, 31), (d.toNat, 15), (a.toNat, 9), (b.toNat, 3), (x.toNat, 2), (y.toNat, 1), (m.toNat, 0)]]
  | .hmul2 sw d a b x y m => [pack 0x13200000 [(sw.toNat, 31), (d.toNat, 15), (a.toNat, 9), (b.toNat, 3), (x.toNat, 2), (y.toNat, 1), (m.toNat, 0)]]
  | .hfma2 sw d a b x y m => [pack 0x13400000 [(sw.toNat, 31), (d.toNat, 15), (a.toNat, 9), (b.toNat, 3), (x.toNat, 2), (y.toNat, 1), (m.toNat, 0)]]
  | .cvtfi sw d a b x y m => [pack 0x13600000 [(sw.toNat, 31), (d.toNat, 15), (a.toNat, 9), (b.toNat, 3), (x.toNat, 2), (y.toNat, 1), (m.toNat, 0)]]
  | .cvtif sw d a b x y m => [pack 0x13800000 [(sw.toNat, 31), (d.toNat, 15), (a.toNat, 9), (b.toNat, 3), (x.toNat, 2), (y.toNat, 1), (m.toNat, 0)]]
  | .cvtff sw d a b x y => [pack 0x13A00000 [(sw.toNat, 31), (d.toNat, 15), (a.toNat, 9), (b.toNat, 3), (x.toNat, 2), (y.toNat, 1)]]
  | .nxel sw d a b x y => [pack 0x13C00000 [(sw.toNat, 31), (d.toNat, 15), (a.toNat, 9), (b.toNat, 3), (x.toNat, 2), (y.toNat, 1)]]
  | .mxel sw d a b x y => [pack 0x13E00000 [(sw.toNat, 31), (d.toNat, 15), (a.toNat, 9), (b.toNat, 3), (x.toNat, 2), (y.toNat, 1)]]
  | .fmtchk sw d a x => [pack 0x14000000 [(sw.toNat, 31), (d.toNat, 15), (a.toNat, 9), (x.toNat, 2)]]
  | .bra sw o => [pack 0x20000000 [(sw.toNat, 31), (o.toNat, 0)]]
  | .brp sw p n o => [pack 0x20200000 [(sw.toNat, 31), (p.toNat, 18), (n.toNat, 17), (o.toNat, 0)]]
  | .brx sw a x => [pack 0x20400000 [(sw.toNat, 31), (a.toNat, 9), (x.toNat, 2)]]
  | .call sw o => [pack 0x20600000 [(sw.toNat, 31), (o.toNat, 0)]]
  | .callx sw a x => [pack 0x20800000 [(sw.toNat, 31), (a.toNat, 9), (x.toNat, 2)]]
  | .ret sw => [pack 0x20A00000 [(sw.toNat, 31)]]
  | .lgjoin sw a i x => [pack 0x20C00000 [(sw.toNat, 31), (a.toNat, 9), (i.toNat, 2), (x.toNat, 1)]]
  | .lgwait sw a x => [pack 0x20E00000 [(sw.toNat, 31), (a.toNat, 9), (x.toNat, 1)]]
  | .lgdrop sw a x => [pack 0x21000000 [(sw.toNat, 31), (a.toNat, 9), (x.toNat, 1)]]
  | .lgread sw d a i x => [pack 0x21200000 [(sw.toNat, 31), (d.toNat, 15), (a.toNat, 9), (i.toNat, 2), (x.toNat, 1)]]
  | .meetset sw o => [pack 0x21400000 [(sw.toNat, 31), (o.toNat, 0)]]
  | .regroup sw a b x y => [pack 0x21600000 [(sw.toNat, 31), (a.toNat, 9), (b.toNat, 3), (x.toNat, 2), (y.toNat, 1)]]
  | .regroupCompletion _ => []
  | .yield sw => [pack 0x21800000 [(sw.toNat, 31)]]
  | .pause sw i => [pack 0x21A00000 [(sw.toNat, 31), (i.toNat, 2)]]
  | .pauseExpiry _ => []
  | .exit sw => [pack 0x21C00000 [(sw.toNat, 31)]]
  | .launch sw d a x => [pack 0x21E00000 [(sw.toNat, 31), (d.toNat, 15), (a.toNat, 9), (x.toNat, 2)]]
  | .rxch sw d a b x y m => [pack 0x22000000 [(sw.toNat, 31), (d.toNat, 15), (a.toNat, 9), (b.toNat, 3), (x.toNat, 2), (y.toNat, 1), (m.toNat, 0)]]
  | .rbcast sw d a b x y m => [pack 0x22200000 [(sw.toNat, 31), (d.toNat, 15), (a.toNat, 9), (b.toNat, 3), (x.toNat, 2), (y.toNat, 1), (m.toNat, 0)]]
  | .rred sw d a b x y m => [pack 0x22400000 [(sw.toNat, 31), (d.toNat, 15), (a.toNat, 9), (b.toNat, 3), (x.toNat, 2), (y.toNat, 1), (m.toNat, 0)]]
  | .rvote sw d a b x y m => [pack 0x22600000 [(sw.toNat, 31), (d.toNat, 15), (a.toNat, 9), (b.toNat, 3), (x.toNat, 2), (y.toNat, 1), (m.toNat, 0)]]
  | .clauseIssue _ => []
  | .parkEnd _ => []
  | .resultWritten _ _ _ _ => []
  | .asynchronousTrapDelivery _ => []
  | .ldg sw t a z g e x => [pack 0x30000000 [(sw.toNat, 31), (t.toNat, 15), (a.toNat, 9), (z.toNat, 6), (g.toNat, 5), (e.toNat, 4), (x.toNat, 3)]]
  | .stg sw t a z g x => [pack 0x30200000 [(sw.toNat, 31), (t.toNat, 15), (a.toNat, 9), (z.toNat, 6), (g.toNat, 5), (x.toNat, 3)]]
  | .lds sw t a z g e x => [pack 0x30400000 [(sw.toNat, 31), (t.toNat, 15), (a.toNat, 9), (z.toNat, 6), (g.toNat, 5), (e.toNat, 4), (x.toNat, 3)]]
  | .sts sw t a z g x => [pack 0x30600000 [(sw.toNat, 31), (t.toNat, 15), (a.toNat, 9), (z.toNat, 6), (g.toNat, 5), (x.toNat, 3)]]
  | .ldp sw t a z g e x => [pack 0x30800000 [(sw.toNat, 31), (t.toNat, 15), (a.toNat, 9), (z.toNat, 6), (g.toNat, 5), (e.toNat, 4), (x.toNat, 3)]]
  | .stp sw t a z g x => [pack 0x30A00000 [(sw.toNat, 31), (t.toNat, 15), (a.toNat, 9), (z.toNat, 6), (g.toNat, 5), (x.toNat, 3)]]
  | .ldc sw t a z g e x => [pack 0x30C00000 [(sw.toNat, 31), (t.toNat, 15), (a.toNat, 9), (z.toNat, 6), (g.toNat, 5), (e.toNat, 4), (x.toNat, 3)]]
  | .stc sw t a z g x => [pack 0x30E00000 [(sw.toNat, 31), (t.toNat, 15), (a.toNat, 9), (z.toNat, 6), (g.toNat, 5), (x.toNat, 3)]]
  | .ldw sw t a z e x => [pack 0x31000000 [(sw.toNat, 31), (t.toNat, 15), (a.toNat, 9), (z.toNat, 6), (e.toNat, 4), (x.toNat, 3)]]
  | .pref sw a z x => [pack 0x31200000 [(sw.toNat, 31), (a.toNat, 9), (z.toNat, 6), (x.toNat, 3)]]
  | .pin sw t a z x => [pack 0x31400000 [(sw.toNat, 31), (t.toNat, 15), (a.toNat, 9), (z.toNat, 6), (x.toNat, 3)]]
  | .unpin sw t a z x => [pack 0x31600000 [(sw.toNat, 31), (t.toNat, 15), (a.toNat, 9), (z.toNat, 6), (x.toNat, 3)]]
  | .storePerformed _ _ _ => []
  | .ptsSelfAdvance _ => []
  | .leaseExpiry _ _ => []
  | .pageWalkComplete _ _ => []
  | .atom sw d a b x y m => [pack 0x31800000 [(sw.toNat, 31), (d.toNat, 15), (a.toNat, 9), (b.toNat, 3), (x.toNat, 2), (y.toNat, 1), (m.toNat, 0)]]
  | .atomc sw d a b x y m => [pack 0x31A00000 [(sw.toNat, 31), (d.toNat, 15), (a.toNat, 9), (b.toNat, 3), (x.toNat, 2), (y.toNat, 1), (m.toNat, 0)]]
  | .atomf sw d a b x y m => [pack 0x31C00000 [(sw.toNat, 31), (d.toNat, 15), (a.toNat, 9), (b.toNat, 3), (x.toNat, 2), (y.toNat, 1), (m.toNat, 0)]]
  | .xacc sw a b x y => [pack 0x31E00000 [(sw.toNat, 31), (a.toNat, 9), (b.toNat, 3), (x.toNat, 2), (y.toNat, 1)]]
  | .xaccp sw a b x y => [pack 0x32000000 [(sw.toNat, 31), (a.toNat, 9), (b.toNat, 3), (x.toNat, 2), (y.toNat, 1)]]
  | .xrd sw d a x m => [pack 0x32200000 [(sw.toNat, 31), (d.toNat, 15), (a.toNat, 9), (x.toNat, 2), (m.toNat, 0)]]
  | .xclr sw a x => [pack 0x32400000 [(sw.toNat, 31), (a.toNat, 9), (x.toNat, 2)]]
  | .atomicPerformed _ _ => []
  | .fence sw => [pack 0x32600000 [(sw.toNat, 31)]]
  | .fencew sw => [pack 0x32800000 [(sw.toNat, 31)]]
  | .bar sw i r => [pack 0x40000000 [(sw.toNat, 31), (i.toNat, 5), (r.toNat, 2)]]
  | .bara sw d i r => [pack 0x40200000 [(sw.toNat, 31), (d.toNat, 15), (i.toNat, 5), (r.toNat, 2)]]
  | .barw sw a i x => [pack 0x40400000 [(sw.toNat, 31), (a.toNat, 9), (i.toNat, 5), (x.toNat, 1)]]
  | .arm sw d a b x y m => [pack 0x40600000 [(sw.toNat, 31), (d.toNat, 15), (a.toNat, 9), (b.toNat, 3), (x.toNat, 2), (y.toNat, 1), (m.toNat, 0)]]
  | .arrv sw a b x y => [pack 0x40800000 [(sw.toNat, 31), (a.toNat, 9), (b.toNat, 3), (x.toNat, 2), (y.toNat, 1)]]
  | .arwait sw d a b x y => [pack 0x40A00000 [(sw.toNat, 31), (d.toNat, 15), (a.toNat, 9), (b.toNat, 3), (x.toNat, 2), (y.toNat, 1)]]
  | .arread sw d a x => [pack 0x40C00000 [(sw.toNat, 31), (d.toNat, 15), (a.toNat, 9), (x.toNat, 2)]]
  | .qpush sw d a b x y => [pack 0x40E00000 [(sw.toNat, 31), (d.toNat, 15), (a.toNat, 9), (b.toNat, 3), (x.toNat, 2), (y.toNat, 1)]]
  | .qpop sw d a x => [pack 0x41000000 [(sw.toNat, 31), (d.toNat, 15), (a.toNat, 9), (x.toNat, 2)]]
  | .qtry sw d a x => [pack 0x41200000 [(sw.toNat, 31), (d.toNat, 15), (a.toNat, 9), (x.toNat, 2)]]
  | .qlen sw d a x => [pack 0x41400000 [(sw.toNat, 31), (d.toNat, 15), (a.toNat, 9), (x.toNat, 2)]]
  | .dist sw d a x m => [pack 0x41600000 [(sw.toNat, 31), (d.toNat, 15), (a.toNat, 9), (x.toNat, 2), (m.toNat, 0)]]
  | .distributorAnswerStore _ _ => []
  | .sbset sw d a i x => [pack 0x41800000 [(sw.toNat, 31), (d.toNat, 15), (a.toNat, 9), (i.toNat, 2), (x.toNat, 1)]]
  | .sbqry sw d a x => [pack 0x41A00000 [(sw.toNat, 31), (d.toNat, 15), (a.toNat, 9), (x.toNat, 2)]]
  | .cpy sw a x => [pack 0x50000000 [(sw.toNat, 31), (a.toNat, 9), (x.toNat, 2)]]
  | .cpy2d sw a x => [pack 0x50200000 [(sw.toNat, 31), (a.toNat, 9), (x.toNat, 2)]]
  | .cpym sw a x => [pack 0x50400000 [(sw.toNat, 31), (a.toNat, 9), (x.toNat, 2)]]
  | .cpyr sw a x => [pack 0x50600000 [(sw.toNat, 31), (a.toNat, 9), (x.toNat, 2)]]
  | .cpyq sw d a x => [pack 0x50800000 [(sw.toNat, 31), (d.toNat, 15), (a.toNat, 9), (x.toNat, 2)]]
  | .cpyx sw d a x => [pack 0x50A00000 [(sw.toNat, 31), (d.toNat, 15), (a.toNat, 9), (x.toNat, 2)]]
  | .cpyf sw a x => [pack 0x50C00000 [(sw.toNat, 31), (a.toNat, 9), (x.toNat, 2)]]
  | .rlqry sw d a x => [pack 0x50E00000 [(sw.toNat, 31), (d.toNat, 15), (a.toNat, 9), (x.toNat, 2)]]
  | .copyRegistration _ => []
  | .rangeLockEntryTaken _ _ => []
  | .copyCommandStart _ => []
  | .copyBurst _ => []
  | .copyCommandEnd _ => []
  | .fdstart sw d a x => [pack 0x51000000 [(sw.toNat, 31), (d.toNat, 15), (a.toNat, 9), (x.toNat, 2)]]
  | .fdstop sw d c => [pack 0x51200000 [(sw.toNat, 31), (d.toNat, 15), (c.toNat, 2)]]
  | .fdstat sw d a x => [pack 0x51400000 [(sw.toNat, 31), (d.toNat, 15), (a.toNat, 9), (x.toNat, 2)]]
  | .floop s p c => [pack 0x01000000 [(s.toNat, 22), (p.toNat, 20), (c.toNat, 0)]]
  | .fend => [0x02000000]
  | .faddr s l k w => [pack 0x03000000 [(s.toNat, 22), (l.toNat, 20), (k.toNat, 18), (w.toNat, 0)]]
  | .fpush s q z e n => [pack 0x04000000 [(s.toNat, 22), (q.toNat, 19), (z.toNat, 16), (e.toNat, 15), (n.toNat, 10)]]
  | .fpushk s k r => [pack 0x05000000 [(s.toNat, 22), (k.toNat, 19), (r.toNat, 15)]]
  | .fpermitQueue q n => [pack 0x06000000 [(q.toNat, 20), (n.toNat, 15)]]
  | .fpermitBuffer b => [pack 0x06800000 [(b.toNat, 18)]]
  | .fsync r b => [pack 0x07000000 [(r.toNat, 23), (b.toNat, 18)]]
  | .fstop => [0x08000000]
  | .kld sw t a x => [pack 0x60000000 [(sw.toNat, 31), (t.toNat, 15), (a.toNat, 9), (x.toNat, 3)]]
  | .kst sw t a x => [pack 0x60200000 [(sw.toNat, 31), (t.toNat, 15), (a.toNat, 9), (x.toNat, 3)]]
  | .kzero sw d n m => [pack 0x60400000 [(sw.toNat, 31), (d.toNat, 15), (n.toNat, 2), (m.toNat, 0)]]
  | .kcvt sw d a b y m => [pack 0x60600000 [(sw.toNat, 31), (d.toNat, 15), (a.toNat, 9), (b.toNat, 3), (y.toNat, 1), (m.toNat, 0)]]
  | .kbmp sw d a b y m => [pack 0x60800000 [(sw.toNat, 31), (d.toNat, 15), (a.toNat, 9), (b.toNat, 3), (y.toNat, 1), (m.toNat, 0)]]
  | .kbld sw t a x => [pack 0x60A00000 [(sw.toNat, 31), (t.toNat, 15), (a.toNat, 9), (x.toNat, 3)]]
  | .kbst sw t a x => [pack 0x60C00000 [(sw.toNat, 31), (t.toNat, 15), (a.toNat, 9), (x.toNat, 3)]]
  | .mmae sw a x m => [pack 0x60E00000 [(sw.toNat, 31), (a.toNat, 9), (x.toNat, 2), (m.toNat, 0)]]
  | .mmac sw d a b x y m => [pack 0x61000000 [(sw.toNat, 31), (d.toNat, 15), (a.toNat, 9), (b.toNat, 3), (x.toNat, 2), (y.toNat, 1), (m.toNat, 0)]]
  | .matrixOpCompletion _ _ => []
  | .mtxOperationComplete _ _ => []
  | .bankSpill _ _ => []
  | .accz sw k => [pack 0x61200000 [(sw.toNat, 31), (k.toNat, 2)]]
  | .accrd sw d a b x y m => [pack 0x61400000 [(sw.toNat, 31), (d.toNat, 15), (a.toNat, 9), (b.toNat, 3), (x.toNat, 2), (y.toNat, 1), (m.toNat, 0)]]
  | .accspl sw a k x => [pack 0x61600000 [(sw.toNat, 31), (a.toNat, 9), (k.toNat, 2), (x.toNat, 1)]]
  | .accfil sw a k x => [pack 0x61800000 [(sw.toNat, 31), (a.toNat, 9), (k.toNat, 2), (x.toNat, 1)]]
  | .mqry sw d a x => [pack 0x61A00000 [(sw.toNat, 31), (d.toNat, 15), (a.toNat, 9), (x.toNat, 2)]]
  | .pbin sw d a b x y => [pack 0x70000000 [(sw.toNat, 31), (d.toNat, 15), (a.toNat, 9), (b.toNat, 3), (x.toNat, 2), (y.toNat, 1)]]
  | .pbend sw => [pack 0x70200000 [(sw.toNat, 31)]]
  | .primitiveBinning _ => []
  | .hsrTileResolution _ _ _ => []
  | .hsrnext sw d a b x y => [pack 0x70400000 [(sw.toNat, 31), (d.toNat, 15), (a.toNat, 9), (b.toNat, 3), (x.toNat, 2), (y.toNat, 1)]]
  | .ipa sw d a b x y m => [pack 0x70600000 [(sw.toNat, 31), (d.toNat, 15), (a.toNat, 9), (b.toNat, 3), (x.toNat, 2), (y.toNat, 1), (m.toNat, 0)]]
  | .fragw sw a b x y => [pack 0x70800000 [(sw.toNat, 31), (a.toNat, 9), (b.toNat, 3), (x.toNat, 2), (y.toNat, 1)]]
  | .splat sw d a b x y => [pack 0x70A00000 [(sw.toNat, 31), (d.toNat, 15), (a.toNat, 9), (b.toNat, 3), (x.toNat, 2), (y.toNat, 1)]]
  | .splatend sw => [pack 0x70C00000 [(sw.toNat, 31)]]
  | .stiprun sw d a b x y => [pack 0x70E00000 [(sw.toNat, 31), (d.toNat, 15), (a.toNat, 9), (b.toNat, 3), (x.toNat, 2), (y.toNat, 1)]]
  | .stiprd sw d a x => [pack 0x71000000 [(sw.toNat, 31), (d.toNat, 15), (a.toNat, 9), (x.toNat, 2)]]
  | .raynew sw d a x => [pack 0x71200000 [(sw.toNat, 31), (d.toNat, 15), (a.toNat, 9), (x.toNat, 2)]]
  | .rayset sw d a b x y => [pack 0x71400000 [(sw.toNat, 31), (d.toNat, 15), (a.toNat, 9), (b.toNat, 3), (x.toNat, 2), (y.toNat, 1)]]
  | .raygo sw a x => [pack 0x71600000 [(sw.toNat, 31), (a.toNat, 9), (x.toNat, 2)]]
  | .rayTraversalStep _ => []
  | .callbackStart _ => []
  | .raywait sw d a x => [pack 0x71800000 [(sw.toNat, 31), (d.toNat, 15), (a.toNat, 9), (x.toNat, 2)]]
  | .rayget sw d a b x y => [pack 0x71A00000 [(sw.toNat, 31), (d.toNat, 15), (a.toNat, 9), (b.toNat, 3), (x.toNat, 2), (y.toNat, 1)]]
  | .rayfree sw a x => [pack 0x71C00000 [(sw.toNat, 31), (a.toNat, 9), (x.toNat, 2)]]
  | .verdict sw a b x y => [pack 0x71E00000 [(sw.toNat, 31), (a.toNat, 9), (b.toNat, 3), (x.toNat, 2), (y.toNat, 1)]]
  | .raycb sw d a x => [pack 0x72000000 [(sw.toNat, 31), (d.toNat, 15), (a.toNat, 9), (x.toNat, 2)]]
  | .tnow sw d => [pack 0x78000000 [(sw.toNat, 31), (d.toNat, 15)]]
  | .twait sw a x => [pack 0x78200000 [(sw.toNat, 31), (a.toNat, 9), (x.toNat, 2)]]
  | .timeWaitExpiry _ => []
  | .tdead sw d b y => [pack 0x78400000 [(sw.toNat, 31), (d.toNat, 15), (b.toNat, 3), (y.toNat, 1)]]
  | .tbudg sw d => [pack 0x78600000 [(sw.toNat, 31), (d.toNat, 15)]]
  | .scommit sw d a b x y m => [pack 0x78800000 [(sw.toNat, 31), (d.toNat, 15), (a.toNat, 9), (b.toNat, 3), (x.toNat, 2), (y.toNat, 1), (m.toNat, 0)]]
  | .shalo sw d a b x y => [pack 0x78A00000 [(sw.toNat, 31), (d.toNat, 15), (a.toNat, 9), (b.toNat, 3), (x.toNat, 2), (y.toNat, 1)]]
  | .jobend sw => [pack 0x78C00000 [(sw.toNat, 31)]]
  | .srate sw d a n o x => [pack 0x78E00000 [(sw.toNat, 31), (d.toNat, 15), (a.toNat, 9), (n.toNat, 4), (o.toNat, 2), (x.toNat, 1)]]
  | .trap sw d i => [pack 0x7C000000 [(sw.toNat, 31), (d.toNat, 15), (i.toNat, 0)]]
  | .rte sw => [pack 0x7C200000 [(sw.toNat, 31)]]
  | .srd sw d i => [pack 0x7C400000 [(sw.toNat, 31), (d.toNat, 15), (i.toNat, 0)]]
  | .swr sw d i => [pack 0x7C600000 [(sw.toNat, 31), (d.toNat, 15), (i.toNat, 0)]]
  | .dtload sw d a x m => [pack 0x7C800000 [(sw.toNat, 31), (d.toNat, 15), (a.toNat, 9), (x.toNat, 2), (m.toNat, 0)]]
  | .sealq sw d a x => [pack 0x7CA00000 [(sw.toNat, 31), (d.toNat, 15), (a.toNat, 9), (x.toNat, 2)]]
  | .halt sw => [pack 0x7CC00000 [(sw.toNat, 31)]]
  | .errinj sw a b x y => [pack 0x7CE00000 [(sw.toNat, 31), (a.toNat, 9), (b.toNat, 3), (x.toNat, 2), (y.toNat, 1)]]
  | .tlbinv sw d a b x y => [pack 0x7D000000 [(sw.toNat, 31), (d.toNat, 15), (a.toNat, 9), (b.toNat, 3), (x.toNat, 2), (y.toNat, 1)]]
  | .xbpark sw d a b x y => [pack 0x7D200000 [(sw.toNat, 31), (d.toNat, 15), (a.toNat, 9), (b.toNat, 3), (x.toNat, 2), (y.toNat, 1)]]
  | .xbwake sw d a x => [pack 0x7D400000 [(sw.toNat, 31), (d.toNat, 15), (a.toNat, 9), (x.toNat, 2)]]
  | .xbstat sw d a x => [pack 0x7D600000 [(sw.toNat, 31), (d.toNat, 15), (a.toNat, 9), (x.toNat, 2)]]
  | .lkstat sw d a x => [pack 0x7D800000 [(sw.toNat, 31), (d.toNat, 15), (a.toNat, 9), (x.toNat, 2)]]
  | .teamPlacement _ => []
  | .teamRetirement _ => []
  | .evictionRequest _ _ => []
  | .eviction _ => []
  | .restore _ _ => []
  | .memoryTokenGrant _ _ => []
  | .memoryTokenPass _ _ => []
  | .localityWindowEnd _ => []
  | .stripAdmission _ => []
  | .chainForcedEnd _ => []
  | .budgetExpiry _ => []
  | .deadlineMiss _ => []
  | .stripScan _ => []
  | .slotRelease _ _ => []
  | .ductusIdleExit => []
  | .ductusWake _ => []
  | .encodeTileRow _ => []
  | .temporalUnitWrite _ => []
  | .headLinkLoss _ => []
  | .linkRetrain _ => []
  | .outputArm _ _ _ => []
  | .outputDisarm _ => []
  | .ringEnable _ _ => []
  | .ringDisable _ _ => []
  | .ppsEdge _ => []
  | .ptpin _ _ _ _ => []
  | .tlockHoldover => []
  | .qosFrameBoundary => []
  | .refreshWindowStart _ => []
  | .refreshWindowEnd _ => []
  | .opticalToken _ => []
  | .automaticWake _ => []
  | .retuneEnd _ => []
  | .remoteRequestArrival _ => []
  | .acknowledgement _ _ _ => []
  | .retransmissionTimeout _ _ _ => []
  | .busyResend _ _ _ => []
  | .wavelengthRetrain _ _ => []
  | .watchdogW1 _ => []
  | .watchdogW2 _ => []
  | .watchdogW3 _ => []
  | .coreReturn _ => []
  | .uncorrectableError _ => []
  | .correctableError _ => []
  | .sealFree _ => []
  | .commandWrite _ => []
  | .upload => []
  | .trigger => []
  | .resync => []
  | .sealnew => []
  | .sealend => []
  | .abort => []
  | .timesetStep => []
  | .timesetConfig => []
  | .fwload _ => []
  | .attest => []
  | .reset => []
  | .firmwareVerification _ => []
  | .ucieTraining _ => []
  | .lpddrTraining _ => []
  | .damlanRingTuning _ => []
  | .tsuxusTraining _ => []
  | .ptpLock => []
  | .powerWindow _ => []
  | .standbyRequest _ => []
  | .standbyEntry => []
  | .standbyClear _ => []
  | .powerLimitWrite _ => []
  | .tpcWrite _ _ => []
  | .meetWrite _ _ => []
  | .tstatWrite _ => []
  | .fmtWrite _ => []
  | .memgroupsWrite _ _ => []
  | .leasecfgWrite _ _ => []
  | .qcfgWrite _ _ _ => []
  | .wdogWrite _ _ => []
  | .dbgctl _ => []
  | .tlbctl _ _ => []
  | .tlbInvalidationComplete => []
  | .faultack _ => []
  | .domcfgWrite _ => []
  | .bar2StagingWrite _ _ => []
  | .registerWrite _ _ => []
  | .hostCxlMemAccess _ _ _ => []
  | .timeSliceExpiry _ _ => []
  | .ppsLoss => []
  | .tsuxusForwarding _ _ => []
  | .remoteReplyArrival _ _ _ _ => []
  | .headRegisterRead _ => []

/-- The opcode of a thread word under map 3 (R51); access-slice words and device steps have none. -/
def opcode? : Instr → Option Nat
  | .nop _ => some 0x000
  | .extControlForm _ _ _ _ _ _ _ => some 0x3FF
  | .extImmediateForm _ => some 0x3FF
  | .mov _ _ _ _ => some 0x001
  | .movi _ _ _ => some 0x002
  | .movh _ _ _ => some 0x003
  | .movs _ _ _ => some 0x004
  | .iadd _ _ _ _ _ _ _ => some 0x005
  | .isub _ _ _ _ _ _ _ => some 0x006
  | .iaddc _ _ _ _ _ _ _ => some 0x007
  | .imul _ _ _ _ _ _ => some 0x008
  | .imulh _ _ _ _ _ _ _ => some 0x009
  | .imad _ _ _ _ _ _ _ => some 0x00A
  | .idiv _ _ _ _ _ _ _ => some 0x00B
  | .irem _ _ _ _ _ _ _ => some 0x00C
  | .ineg _ _ _ _ => some 0x00D
  | .iabs _ _ _ _ => some 0x00E
  | .imin _ _ _ _ _ _ _ => some 0x00F
  | .imax _ _ _ _ _ _ _ => some 0x010
  | .and _ _ _ _ _ _ => some 0x011
  | .or _ _ _ _ _ _ => some 0x012
  | .xor _ _ _ _ _ _ => some 0x013
  | .not _ _ _ _ => some 0x014
  | .andn _ _ _ _ _ _ => some 0x015
  | .shl _ _ _ _ _ _ => some 0x016
  | .shr _ _ _ _ _ _ => some 0x017
  | .sar _ _ _ _ _ _ => some 0x018
  | .rot _ _ _ _ _ _ _ => some 0x019
  | .bfx _ _ _ _ _ _ _ => some 0x01A
  | .bfi _ _ _ _ _ _ => some 0x01B
  | .popc _ _ _ _ => some 0x01C
  | .clz _ _ _ _ => some 0x01D
  | .brev _ _ _ _ => some 0x01E
  | .isetp _ _ _ _ _ _ _ _ => some 0x01F
  | .sel _ _ _ _ _ _ _ => some 0x020
  | .plop _ _ _ _ _ _ => some 0x021
  | .lea _ _ _ _ _ _ _ => some 0x022
  | .add64 _ _ _ _ _ _ _ => some 0x023
  | .idp4 _ _ _ _ _ _ _ => some 0x024
  | .mix32 _ _ _ _ _ _ => some 0x025
  | .iaddi _ _ _ _ _ _ => some 0x026
  | .andi _ _ _ _ _ => some 0x027
  | .ori _ _ _ _ _ => some 0x028
  | .xori _ _ _ _ _ => some 0x029
  | .shli _ _ _ _ _ => some 0x02A
  | .shri _ _ _ _ _ => some 0x02B
  | .sari _ _ _ _ _ => some 0x02C
  | .isetpi _ _ _ _ _ _ _ => some 0x02D
  | .fadd _ _ _ _ _ _ => some 0x080
  | .fsub _ _ _ _ _ _ => some 0x081
  | .fmul _ _ _ _ _ _ => some 0x082
  | .fmad _ _ _ _ _ _ _ => some 0x083
  | .fmin _ _ _ _ _ _ => some 0x084
  | .fmax _ _ _ _ _ _ => some 0x085
  | .fneg _ _ _ _ => some 0x086
  | .fabs _ _ _ _ => some 0x087
  | .fsetp _ _ _ _ _ _ _ _ => some 0x088
  | .fdiv _ _ _ _ _ _ => some 0x089
  | .frcp _ _ _ _ => some 0x08A
  | .fsqrt _ _ _ _ => some 0x08B
  | .frsq _ _ _ _ => some 0x08C
  | .fexp2 _ _ _ _ => some 0x08D
  | .flog2 _ _ _ _ => some 0x08E
  | .fsinpi _ _ _ _ => some 0x08F
  | .fcospi _ _ _ _ => some 0x090
  | .frnd _ _ _ _ _ => some 0x091
  | .fclass _ _ _ _ => some 0x092
  | .fscale _ _ _ _ _ _ => some 0x093
  | .fexpo _ _ _ _ => some 0x094
  | .twosum _ _ _ _ _ _ => some 0x095
  | .padd _ _ _ _ _ _ => some 0x096
  | .prd _ _ _ _ => some 0x097
  | .hadd2 _ _ _ _ _ _ _ => some 0x098
  | .hmul2 _ _ _ _ _ _ _ => some 0x099
  | .hfma2 _ _ _ _ _ _ _ => some 0x09A
  | .cvtfi _ _ _ _ _ _ _ => some 0x09B
  | .cvtif _ _ _ _ _ _ _ => some 0x09C
  | .cvtff _ _ _ _ _ _ => some 0x09D
  | .nxel _ _ _ _ _ _ => some 0x09E
  | .mxel _ _ _ _ _ _ => some 0x09F
  | .fmtchk _ _ _ _ => some 0x0A0
  | .bra _ _ => some 0x100
  | .brp _ _ _ _ => some 0x101
  | .brx _ _ _ => some 0x102
  | .call _ _ => some 0x103
  | .callx _ _ _ => some 0x104
  | .ret _ => some 0x105
  | .lgjoin _ _ _ _ => some 0x106
  | .lgwait _ _ _ => some 0x107
  | .lgdrop _ _ _ => some 0x108
  | .lgread _ _ _ _ _ => some 0x109
  | .meetset _ _ => some 0x10A
  | .regroup _ _ _ _ _ => some 0x10B
  | .regroupCompletion _ => none
  | .yield _ => some 0x10C
  | .pause _ _ => some 0x10D
  | .pauseExpiry _ => none
  | .exit _ => some 0x10E
  | .launch _ _ _ _ => some 0x10F
  | .rxch _ _ _ _ _ _ _ => some 0x110
  | .rbcast _ _ _ _ _ _ _ => some 0x111
  | .rred _ _ _ _ _ _ _ => some 0x112
  | .rvote _ _ _ _ _ _ _ => some 0x113
  | .clauseIssue _ => none
  | .parkEnd _ => none
  | .resultWritten _ _ _ _ => none
  | .asynchronousTrapDelivery _ => none
  | .ldg _ _ _ _ _ _ _ => some 0x180
  | .stg _ _ _ _ _ _ => some 0x181
  | .lds _ _ _ _ _ _ _ => some 0x182
  | .sts _ _ _ _ _ _ => some 0x183
  | .ldp _ _ _ _ _ _ _ => some 0x184
  | .stp _ _ _ _ _ _ => some 0x185
  | .ldc _ _ _ _ _ _ _ => some 0x186
  | .stc _ _ _ _ _ _ => some 0x187
  | .ldw _ _ _ _ _ _ => some 0x188
  | .pref _ _ _ _ => some 0x189
  | .pin _ _ _ _ _ => some 0x18A
  | .unpin _ _ _ _ _ => some 0x18B
  | .storePerformed _ _ _ => none
  | .ptsSelfAdvance _ => none
  | .leaseExpiry _ _ => none
  | .pageWalkComplete _ _ => none
  | .atom _ _ _ _ _ _ _ => some 0x18C
  | .atomc _ _ _ _ _ _ _ => some 0x18D
  | .atomf _ _ _ _ _ _ _ => some 0x18E
  | .xacc _ _ _ _ _ => some 0x18F
  | .xaccp _ _ _ _ _ => some 0x190
  | .xrd _ _ _ _ _ => some 0x191
  | .xclr _ _ _ => some 0x192
  | .atomicPerformed _ _ => none
  | .fence _ => some 0x193
  | .fencew _ => some 0x194
  | .bar _ _ _ => some 0x200
  | .bara _ _ _ _ => some 0x201
  | .barw _ _ _ _ => some 0x202
  | .arm _ _ _ _ _ _ _ => some 0x203
  | .arrv _ _ _ _ _ => some 0x204
  | .arwait _ _ _ _ _ _ => some 0x205
  | .arread _ _ _ _ => some 0x206
  | .qpush _ _ _ _ _ _ => some 0x207
  | .qpop _ _ _ _ => some 0x208
  | .qtry _ _ _ _ => some 0x209
  | .qlen _ _ _ _ => some 0x20A
  | .dist _ _ _ _ _ => some 0x20B
  | .distributorAnswerStore _ _ => none
  | .sbset _ _ _ _ _ => some 0x20C
  | .sbqry _ _ _ _ => some 0x20D
  | .cpy _ _ _ => some 0x280
  | .cpy2d _ _ _ => some 0x281
  | .cpym _ _ _ => some 0x282
  | .cpyr _ _ _ => some 0x283
  | .cpyq _ _ _ _ => some 0x284
  | .cpyx _ _ _ _ => some 0x285
  | .cpyf _ _ _ => some 0x286
  | .rlqry _ _ _ _ => some 0x287
  | .copyRegistration _ => none
  | .rangeLockEntryTaken _ _ => none
  | .copyCommandStart _ => none
  | .copyBurst _ => none
  | .copyCommandEnd _ => none
  | .fdstart _ _ _ _ => some 0x288
  | .fdstop _ _ _ => some 0x289
  | .fdstat _ _ _ _ => some 0x28A
  | .floop _ _ _ => none
  | .fend => none
  | .faddr _ _ _ _ => none
  | .fpush _ _ _ _ _ => none
  | .fpushk _ _ _ => none
  | .fpermitQueue _ _ => none
  | .fpermitBuffer _ => none
  | .fsync _ _ => none
  | .fstop => none
  | .kld _ _ _ _ => some 0x300
  | .kst _ _ _ _ => some 0x301
  | .kzero _ _ _ _ => some 0x302
  | .kcvt _ _ _ _ _ _ => some 0x303
  | .kbmp _ _ _ _ _ _ => some 0x304
  | .kbld _ _ _ _ => some 0x305
  | .kbst _ _ _ _ => some 0x306
  | .mmae _ _ _ _ => some 0x307
  | .mmac _ _ _ _ _ _ _ => some 0x308
  | .matrixOpCompletion _ _ => none
  | .mtxOperationComplete _ _ => none
  | .bankSpill _ _ => none
  | .accz _ _ => some 0x309
  | .accrd _ _ _ _ _ _ _ => some 0x30A
  | .accspl _ _ _ _ => some 0x30B
  | .accfil _ _ _ _ => some 0x30C
  | .mqry _ _ _ _ => some 0x30D
  | .pbin _ _ _ _ _ _ => some 0x380
  | .pbend _ => some 0x381
  | .primitiveBinning _ => none
  | .hsrTileResolution _ _ _ => none
  | .hsrnext _ _ _ _ _ _ => some 0x382
  | .ipa _ _ _ _ _ _ _ => some 0x383
  | .fragw _ _ _ _ _ => some 0x384
  | .splat _ _ _ _ _ _ => some 0x385
  | .splatend _ => some 0x386
  | .stiprun _ _ _ _ _ _ => some 0x387
  | .stiprd _ _ _ _ => some 0x388
  | .raynew _ _ _ _ => some 0x389
  | .rayset _ _ _ _ _ _ => some 0x38A
  | .raygo _ _ _ => some 0x38B
  | .rayTraversalStep _ => none
  | .callbackStart _ => none
  | .raywait _ _ _ _ => some 0x38C
  | .rayget _ _ _ _ _ _ => some 0x38D
  | .rayfree _ _ _ => some 0x38E
  | .verdict _ _ _ _ _ => some 0x38F
  | .raycb _ _ _ _ => some 0x390
  | .tnow _ _ => some 0x3C0
  | .twait _ _ _ => some 0x3C1
  | .timeWaitExpiry _ => none
  | .tdead _ _ _ _ => some 0x3C2
  | .tbudg _ _ => some 0x3C3
  | .scommit _ _ _ _ _ _ _ => some 0x3C4
  | .shalo _ _ _ _ _ _ => some 0x3C5
  | .jobend _ => some 0x3C6
  | .srate _ _ _ _ _ _ => some 0x3C7
  | .trap _ _ _ => some 0x3E0
  | .rte _ => some 0x3E1
  | .srd _ _ _ => some 0x3E2
  | .swr _ _ _ => some 0x3E3
  | .dtload _ _ _ _ _ => some 0x3E4
  | .sealq _ _ _ _ => some 0x3E5
  | .halt _ => some 0x3E6
  | .errinj _ _ _ _ _ => some 0x3E7
  | .tlbinv _ _ _ _ _ _ => some 0x3E8
  | .xbpark _ _ _ _ _ _ => some 0x3E9
  | .xbwake _ _ _ _ => some 0x3EA
  | .xbstat _ _ _ _ => some 0x3EB
  | .lkstat _ _ _ _ => some 0x3EC
  | .teamPlacement _ => none
  | .teamRetirement _ => none
  | .evictionRequest _ _ => none
  | .eviction _ => none
  | .restore _ _ => none
  | .memoryTokenGrant _ _ => none
  | .memoryTokenPass _ _ => none
  | .localityWindowEnd _ => none
  | .stripAdmission _ => none
  | .chainForcedEnd _ => none
  | .budgetExpiry _ => none
  | .deadlineMiss _ => none
  | .stripScan _ => none
  | .slotRelease _ _ => none
  | .ductusIdleExit => none
  | .ductusWake _ => none
  | .encodeTileRow _ => none
  | .temporalUnitWrite _ => none
  | .headLinkLoss _ => none
  | .linkRetrain _ => none
  | .outputArm _ _ _ => none
  | .outputDisarm _ => none
  | .ringEnable _ _ => none
  | .ringDisable _ _ => none
  | .ppsEdge _ => none
  | .ptpin _ _ _ _ => none
  | .tlockHoldover => none
  | .qosFrameBoundary => none
  | .refreshWindowStart _ => none
  | .refreshWindowEnd _ => none
  | .opticalToken _ => none
  | .automaticWake _ => none
  | .retuneEnd _ => none
  | .remoteRequestArrival _ => none
  | .acknowledgement _ _ _ => none
  | .retransmissionTimeout _ _ _ => none
  | .busyResend _ _ _ => none
  | .wavelengthRetrain _ _ => none
  | .watchdogW1 _ => none
  | .watchdogW2 _ => none
  | .watchdogW3 _ => none
  | .coreReturn _ => none
  | .uncorrectableError _ => none
  | .correctableError _ => none
  | .sealFree _ => none
  | .commandWrite _ => none
  | .upload => none
  | .trigger => none
  | .resync => none
  | .sealnew => none
  | .sealend => none
  | .abort => none
  | .timesetStep => none
  | .timesetConfig => none
  | .fwload _ => none
  | .attest => none
  | .reset => none
  | .firmwareVerification _ => none
  | .ucieTraining _ => none
  | .lpddrTraining _ => none
  | .damlanRingTuning _ => none
  | .tsuxusTraining _ => none
  | .ptpLock => none
  | .powerWindow _ => none
  | .standbyRequest _ => none
  | .standbyEntry => none
  | .standbyClear _ => none
  | .powerLimitWrite _ => none
  | .tpcWrite _ _ => none
  | .meetWrite _ _ => none
  | .tstatWrite _ => none
  | .fmtWrite _ => none
  | .memgroupsWrite _ _ => none
  | .leasecfgWrite _ _ => none
  | .qcfgWrite _ _ _ => none
  | .wdogWrite _ _ => none
  | .dbgctl _ => none
  | .tlbctl _ _ => none
  | .tlbInvalidationComplete => none
  | .faultack _ => none
  | .domcfgWrite _ => none
  | .bar2StagingWrite _ _ => none
  | .registerWrite _ _ => none
  | .hostCxlMemAccess _ _ _ => none
  | .timeSliceExpiry _ _ => none
  | .ppsLoss => none
  | .tsuxusForwarding _ _ => none
  | .remoteReplyArrival _ _ _ _ => none
  | .headRegisterRead _ => none

/-- The switch marker S of a thread word (R31). -/
def switchMarker : Instr → Bool
  | .nop sw => sw
  | .extControlForm _ _ _ _ _ _ _ => false
  | .extImmediateForm _ => false
  | .mov sw _ _ _ => sw
  | .movi sw _ _ => sw
  | .movh sw _ _ => sw
  | .movs sw _ _ => sw
  | .iadd sw _ _ _ _ _ _ => sw
  | .isub sw _ _ _ _ _ _ => sw
  | .iaddc sw _ _ _ _ _ _ => sw
  | .imul sw _ _ _ _ _ => sw
  | .imulh sw _ _ _ _ _ _ => sw
  | .imad sw _ _ _ _ _ _ => sw
  | .idiv sw _ _ _ _ _ _ => sw
  | .irem sw _ _ _ _ _ _ => sw
  | .ineg sw _ _ _ => sw
  | .iabs sw _ _ _ => sw
  | .imin sw _ _ _ _ _ _ => sw
  | .imax sw _ _ _ _ _ _ => sw
  | .and sw _ _ _ _ _ => sw
  | .or sw _ _ _ _ _ => sw
  | .xor sw _ _ _ _ _ => sw
  | .not sw _ _ _ => sw
  | .andn sw _ _ _ _ _ => sw
  | .shl sw _ _ _ _ _ => sw
  | .shr sw _ _ _ _ _ => sw
  | .sar sw _ _ _ _ _ => sw
  | .rot sw _ _ _ _ _ _ => sw
  | .bfx sw _ _ _ _ _ _ => sw
  | .bfi sw _ _ _ _ _ => sw
  | .popc sw _ _ _ => sw
  | .clz sw _ _ _ => sw
  | .brev sw _ _ _ => sw
  | .isetp sw _ _ _ _ _ _ _ => sw
  | .sel sw _ _ _ _ _ _ => sw
  | .plop sw _ _ _ _ _ => sw
  | .lea sw _ _ _ _ _ _ => sw
  | .add64 sw _ _ _ _ _ _ => sw
  | .idp4 sw _ _ _ _ _ _ => sw
  | .mix32 sw _ _ _ _ _ => sw
  | .iaddi sw _ _ _ _ _ => sw
  | .andi sw _ _ _ _ => sw
  | .ori sw _ _ _ _ => sw
  | .xori sw _ _ _ _ => sw
  | .shli sw _ _ _ _ => sw
  | .shri sw _ _ _ _ => sw
  | .sari sw _ _ _ _ => sw
  | .isetpi sw _ _ _ _ _ _ => sw
  | .fadd sw _ _ _ _ _ => sw
  | .fsub sw _ _ _ _ _ => sw
  | .fmul sw _ _ _ _ _ => sw
  | .fmad sw _ _ _ _ _ _ => sw
  | .fmin sw _ _ _ _ _ => sw
  | .fmax sw _ _ _ _ _ => sw
  | .fneg sw _ _ _ => sw
  | .fabs sw _ _ _ => sw
  | .fsetp sw _ _ _ _ _ _ _ => sw
  | .fdiv sw _ _ _ _ _ => sw
  | .frcp sw _ _ _ => sw
  | .fsqrt sw _ _ _ => sw
  | .frsq sw _ _ _ => sw
  | .fexp2 sw _ _ _ => sw
  | .flog2 sw _ _ _ => sw
  | .fsinpi sw _ _ _ => sw
  | .fcospi sw _ _ _ => sw
  | .frnd sw _ _ _ _ => sw
  | .fclass sw _ _ _ => sw
  | .fscale sw _ _ _ _ _ => sw
  | .fexpo sw _ _ _ => sw
  | .twosum sw _ _ _ _ _ => sw
  | .padd sw _ _ _ _ _ => sw
  | .prd sw _ _ _ => sw
  | .hadd2 sw _ _ _ _ _ _ => sw
  | .hmul2 sw _ _ _ _ _ _ => sw
  | .hfma2 sw _ _ _ _ _ _ => sw
  | .cvtfi sw _ _ _ _ _ _ => sw
  | .cvtif sw _ _ _ _ _ _ => sw
  | .cvtff sw _ _ _ _ _ => sw
  | .nxel sw _ _ _ _ _ => sw
  | .mxel sw _ _ _ _ _ => sw
  | .fmtchk sw _ _ _ => sw
  | .bra sw _ => sw
  | .brp sw _ _ _ => sw
  | .brx sw _ _ => sw
  | .call sw _ => sw
  | .callx sw _ _ => sw
  | .ret sw => sw
  | .lgjoin sw _ _ _ => sw
  | .lgwait sw _ _ => sw
  | .lgdrop sw _ _ => sw
  | .lgread sw _ _ _ _ => sw
  | .meetset sw _ => sw
  | .regroup sw _ _ _ _ => sw
  | .regroupCompletion _ => false
  | .yield sw => sw
  | .pause sw _ => sw
  | .pauseExpiry _ => false
  | .exit sw => sw
  | .launch sw _ _ _ => sw
  | .rxch sw _ _ _ _ _ _ => sw
  | .rbcast sw _ _ _ _ _ _ => sw
  | .rred sw _ _ _ _ _ _ => sw
  | .rvote sw _ _ _ _ _ _ => sw
  | .clauseIssue _ => false
  | .parkEnd _ => false
  | .resultWritten _ _ _ _ => false
  | .asynchronousTrapDelivery _ => false
  | .ldg sw _ _ _ _ _ _ => sw
  | .stg sw _ _ _ _ _ => sw
  | .lds sw _ _ _ _ _ _ => sw
  | .sts sw _ _ _ _ _ => sw
  | .ldp sw _ _ _ _ _ _ => sw
  | .stp sw _ _ _ _ _ => sw
  | .ldc sw _ _ _ _ _ _ => sw
  | .stc sw _ _ _ _ _ => sw
  | .ldw sw _ _ _ _ _ => sw
  | .pref sw _ _ _ => sw
  | .pin sw _ _ _ _ => sw
  | .unpin sw _ _ _ _ => sw
  | .storePerformed _ _ _ => false
  | .ptsSelfAdvance _ => false
  | .leaseExpiry _ _ => false
  | .pageWalkComplete _ _ => false
  | .atom sw _ _ _ _ _ _ => sw
  | .atomc sw _ _ _ _ _ _ => sw
  | .atomf sw _ _ _ _ _ _ => sw
  | .xacc sw _ _ _ _ => sw
  | .xaccp sw _ _ _ _ => sw
  | .xrd sw _ _ _ _ => sw
  | .xclr sw _ _ => sw
  | .atomicPerformed _ _ => false
  | .fence sw => sw
  | .fencew sw => sw
  | .bar sw _ _ => sw
  | .bara sw _ _ _ => sw
  | .barw sw _ _ _ => sw
  | .arm sw _ _ _ _ _ _ => sw
  | .arrv sw _ _ _ _ => sw
  | .arwait sw _ _ _ _ _ => sw
  | .arread sw _ _ _ => sw
  | .qpush sw _ _ _ _ _ => sw
  | .qpop sw _ _ _ => sw
  | .qtry sw _ _ _ => sw
  | .qlen sw _ _ _ => sw
  | .dist sw _ _ _ _ => sw
  | .distributorAnswerStore _ _ => false
  | .sbset sw _ _ _ _ => sw
  | .sbqry sw _ _ _ => sw
  | .cpy sw _ _ => sw
  | .cpy2d sw _ _ => sw
  | .cpym sw _ _ => sw
  | .cpyr sw _ _ => sw
  | .cpyq sw _ _ _ => sw
  | .cpyx sw _ _ _ => sw
  | .cpyf sw _ _ => sw
  | .rlqry sw _ _ _ => sw
  | .copyRegistration _ => false
  | .rangeLockEntryTaken _ _ => false
  | .copyCommandStart _ => false
  | .copyBurst _ => false
  | .copyCommandEnd _ => false
  | .fdstart sw _ _ _ => sw
  | .fdstop sw _ _ => sw
  | .fdstat sw _ _ _ => sw
  | .floop _ _ _ => false
  | .fend => false
  | .faddr _ _ _ _ => false
  | .fpush _ _ _ _ _ => false
  | .fpushk _ _ _ => false
  | .fpermitQueue _ _ => false
  | .fpermitBuffer _ => false
  | .fsync _ _ => false
  | .fstop => false
  | .kld sw _ _ _ => sw
  | .kst sw _ _ _ => sw
  | .kzero sw _ _ _ => sw
  | .kcvt sw _ _ _ _ _ => sw
  | .kbmp sw _ _ _ _ _ => sw
  | .kbld sw _ _ _ => sw
  | .kbst sw _ _ _ => sw
  | .mmae sw _ _ _ => sw
  | .mmac sw _ _ _ _ _ _ => sw
  | .matrixOpCompletion _ _ => false
  | .mtxOperationComplete _ _ => false
  | .bankSpill _ _ => false
  | .accz sw _ => sw
  | .accrd sw _ _ _ _ _ _ => sw
  | .accspl sw _ _ _ => sw
  | .accfil sw _ _ _ => sw
  | .mqry sw _ _ _ => sw
  | .pbin sw _ _ _ _ _ => sw
  | .pbend sw => sw
  | .primitiveBinning _ => false
  | .hsrTileResolution _ _ _ => false
  | .hsrnext sw _ _ _ _ _ => sw
  | .ipa sw _ _ _ _ _ _ => sw
  | .fragw sw _ _ _ _ => sw
  | .splat sw _ _ _ _ _ => sw
  | .splatend sw => sw
  | .stiprun sw _ _ _ _ _ => sw
  | .stiprd sw _ _ _ => sw
  | .raynew sw _ _ _ => sw
  | .rayset sw _ _ _ _ _ => sw
  | .raygo sw _ _ => sw
  | .rayTraversalStep _ => false
  | .callbackStart _ => false
  | .raywait sw _ _ _ => sw
  | .rayget sw _ _ _ _ _ => sw
  | .rayfree sw _ _ => sw
  | .verdict sw _ _ _ _ => sw
  | .raycb sw _ _ _ => sw
  | .tnow sw _ => sw
  | .twait sw _ _ => sw
  | .timeWaitExpiry _ => false
  | .tdead sw _ _ _ => sw
  | .tbudg sw _ => sw
  | .scommit sw _ _ _ _ _ _ => sw
  | .shalo sw _ _ _ _ _ => sw
  | .jobend sw => sw
  | .srate sw _ _ _ _ _ => sw
  | .trap sw _ _ => sw
  | .rte sw => sw
  | .srd sw _ _ => sw
  | .swr sw _ _ => sw
  | .dtload sw _ _ _ _ => sw
  | .sealq sw _ _ _ => sw
  | .halt sw => sw
  | .errinj sw _ _ _ _ => sw
  | .tlbinv sw _ _ _ _ _ => sw
  | .xbpark sw _ _ _ _ _ => sw
  | .xbwake sw _ _ _ => sw
  | .xbstat sw _ _ _ => sw
  | .lkstat sw _ _ _ => sw
  | .teamPlacement _ => false
  | .teamRetirement _ => false
  | .evictionRequest _ _ => false
  | .eviction _ => false
  | .restore _ _ => false
  | .memoryTokenGrant _ _ => false
  | .memoryTokenPass _ _ => false
  | .localityWindowEnd _ => false
  | .stripAdmission _ => false
  | .chainForcedEnd _ => false
  | .budgetExpiry _ => false
  | .deadlineMiss _ => false
  | .stripScan _ => false
  | .slotRelease _ _ => false
  | .ductusIdleExit => false
  | .ductusWake _ => false
  | .encodeTileRow _ => false
  | .temporalUnitWrite _ => false
  | .headLinkLoss _ => false
  | .linkRetrain _ => false
  | .outputArm _ _ _ => false
  | .outputDisarm _ => false
  | .ringEnable _ _ => false
  | .ringDisable _ _ => false
  | .ppsEdge _ => false
  | .ptpin _ _ _ _ => false
  | .tlockHoldover => false
  | .qosFrameBoundary => false
  | .refreshWindowStart _ => false
  | .refreshWindowEnd _ => false
  | .opticalToken _ => false
  | .automaticWake _ => false
  | .retuneEnd _ => false
  | .remoteRequestArrival _ => false
  | .acknowledgement _ _ _ => false
  | .retransmissionTimeout _ _ _ => false
  | .busyResend _ _ _ => false
  | .wavelengthRetrain _ _ => false
  | .watchdogW1 _ => false
  | .watchdogW2 _ => false
  | .watchdogW3 _ => false
  | .coreReturn _ => false
  | .uncorrectableError _ => false
  | .correctableError _ => false
  | .sealFree _ => false
  | .commandWrite _ => false
  | .upload => false
  | .trigger => false
  | .resync => false
  | .sealnew => false
  | .sealend => false
  | .abort => false
  | .timesetStep => false
  | .timesetConfig => false
  | .fwload _ => false
  | .attest => false
  | .reset => false
  | .firmwareVerification _ => false
  | .ucieTraining _ => false
  | .lpddrTraining _ => false
  | .damlanRingTuning _ => false
  | .tsuxusTraining _ => false
  | .ptpLock => false
  | .powerWindow _ => false
  | .standbyRequest _ => false
  | .standbyEntry => false
  | .standbyClear _ => false
  | .powerLimitWrite _ => false
  | .tpcWrite _ _ => false
  | .meetWrite _ _ => false
  | .tstatWrite _ => false
  | .fmtWrite _ => false
  | .memgroupsWrite _ _ => false
  | .leasecfgWrite _ _ => false
  | .qcfgWrite _ _ _ => false
  | .wdogWrite _ _ => false
  | .dbgctl _ => false
  | .tlbctl _ _ => false
  | .tlbInvalidationComplete => false
  | .faultack _ => false
  | .domcfgWrite _ => false
  | .bar2StagingWrite _ _ => false
  | .registerWrite _ _ => false
  | .hostCxlMemAccess _ _ _ => false
  | .timeSliceExpiry _ _ => false
  | .ppsLoss => false
  | .tsuxusForwarding _ _ => false
  | .remoteReplyArrival _ _ _ _ => false
  | .headRegisterRead _ => false

/-- The instruction the decoder reads from a table word (bit 0 of the first word least significant). A thread word is
tried first; a word whose opcode map 3 leaves unassigned is read as an access-slice word. -/
def decodeTableWord (nbits w : Nat) : Option Instr :=
  if nbits > 32 then none
  else match decodeWord w with
    | .ok i => some i
    | .error .unassigned => decodeAccess w
    | .error _ => none

end Sys2Proof
end

