-- ==== Sys2Proof/Machine/Base.lean ====
section
/-!
DEFINITION. Plain helpers over words, bytes and keyed lists.

A keyed list is a list of (key, value) pairs with keys strictly rising. It is how every sparse store of the machine is
held: memories, register files, tables of threads. A key that is not listed has the store's default value.
-/
namespace Sys2Proof

/-- A keyed list. -/
abbrev KMap (α : Type) := List (Nat × α)

/-- The value listed under a key. -/
def kget? {α : Type} : KMap α → Nat → Option α
  | [], _ => none
  | (k, v) :: m, i => if i == k then some v else kget? m i

/-- The value under a key, or the store's default. -/
def kgetD {α : Type} (m : KMap α) (i : Nat) (d : α) : α := (kget? m i).getD d

/-- Put a value under a key, keeping the keys rising. -/
def kset {α : Type} : KMap α → Nat → α → KMap α
  | [], i, v => [(i, v)]
  | (k, w) :: m, i, v =>
    if i < k then (i, v) :: (k, w) :: m
    else if i == k then (i, v) :: m
    else (k, w) :: kset m i v

/-- Take a key out. -/
def kdel {α : Type} : KMap α → Nat → KMap α
  | [], _ => []
  | (k, w) :: m, i => if i == k then m else (k, w) :: kdel m i

/-- Apply a function to the value under a key, where there is one. -/
def kmod {α : Type} (m : KMap α) (i : Nat) (f : α → α) : KMap α :=
  match kget? m i with
  | none => m
  | some v => kset m i (f v)

/-- The key after every listed one: a name no entry has. -/
def kfresh {α : Type} : KMap α → Nat
  | [] => 1
  | (k, _) :: m => Nat.max (k + 1) (kfresh m)

/-- Keys strictly rising, all above a bound. -/
def risingFrom {α : Type} : Nat → KMap α → Bool
  | _, [] => true
  | b, (k, _) :: m => decide (b ≤ k) && risingFrom (k + 1) m

/-! ### Byte stores -/

/-- A byte store; an unlisted address reads 0 and no zero byte is listed. -/
abbrev Memory := List Host.Cell

/-- The canonical form: addresses strictly rising, no entry equal to what an unlisted address reads as. -/
def Memory.wf (m : Memory) : Bool := risingFrom 0 m && m.all (fun c => c.2 != 0)

/-- Read one byte. -/
def Memory.read (m : Memory) (a : Nat) : Byte := kgetD m a 0

/-- Write one byte, keeping the canonical form. -/
def Memory.write (m : Memory) (a : Nat) (b : Byte) : Memory := if b = 0 then kdel m a else kset m a b

/-- Read `n` bytes, low address first (R3). -/
def Memory.readBytes (m : Memory) (a : Nat) : Nat → List Byte
  | 0 => []
  | n + 1 => Memory.read m a :: Memory.readBytes m (a + 1) n

/-- Write bytes from an address up (R3). -/
def Memory.writeBytes (m : Memory) (a : Nat) : List Byte → Memory
  | [] => m
  | b :: bs => Memory.writeBytes (Memory.write m a b) (a + 1) bs

/-! ### Numbers and bytes -/

/-- The little-endian number of a byte list (R3). -/
def leNat : List Byte → Nat
  | [] => 0
  | b :: bs => b.toNat + 256 * leNat bs

/-- The `n` low bytes of a number, low byte first (R3). -/
def leBytes : Nat → Nat → List Byte
  | 0, _ => []
  | n + 1, v => BitVec.ofNat 8 v :: leBytes n (v / 256)

/-- A list's element, or a default. -/
def nthD {α : Type} (l : List α) (i : Nat) (d : α) : α := (l[i]?).getD d

/-- The first `n` numbers from `a`. -/
def range (a n : Nat) : List Nat := List.range' a n

/-- The signed value of the low `n` bits of `v` (R8, SignExtend). -/
def sx (v n : Nat) : Int :=
  let u : Nat := v % 2 ^ n
  if n = 0 then 0 else if u < 2 ^ (n - 1) then (u : Int) else (u : Int) - (2 ^ n : Nat)

/-- An integer kept to `n` bits (R7). -/
def wrap (v : Int) (n : Nat) : Nat := (v % ((2 ^ n : Nat) : Int)).toNat

/-- A 32-bit word of an integer (R7). -/
def word (v : Int) : Word := BitVec.ofNat 32 (wrap v 32)

/-- A 32-bit word of a natural number (R7). -/
def wordN (v : Nat) : Word := BitVec.ofNat 32 v

/-- A truth value as a number. -/
def b2n (b : Bool) : Nat := if b then 1 else 0

/-- The quotient rounded up. -/
def ceilDiv (a b : Nat) : Nat := (a + b - 1) / b

/-- A word's signed value (s32 of the manual). -/
def s32 (w : Word) : Int := w.toInt

/-- A word's unsigned value (n32 of the manual). -/
def n32 (w : Word) : Nat := w.toNat

/-- Minimum with saturation of a counter. -/
def sat (v top : Nat) : Nat := Nat.min v top

/-- Insert a number into a list without repeats. -/
def insertNew (l : List Nat) (x : Nat) : List Nat := if l.contains x then l else l ++ [x]

end Sys2Proof
end

