-- ==== Sys2Proof/Machine/Real.lean ====
section
/-!
DEFINITION. Exact reals as the manual's pseudocode uses them (R7): dyadic numbers, and rounded reads of quotients,
roots and the transcendental functions by integer arithmetic.
-/
namespace Sys2Proof.Machine

/-- The dyadic number m · 2^e. -/
structure Dy where
  m : Int
  e : Int
  deriving DecidableEq, Repr

/-- Zero. -/
def dyZero : Dy := ⟨0, 0⟩

/-- 2 to a natural power. -/
def pow2 (n : Nat) : Nat := 2 ^ n

/-- The mantissa of a dyadic number taken at a lower exponent. -/
def dyAt (a : Dy) (e : Int) : Int := a.m * (pow2 (a.e - e).toNat : Int)

/-- Exact sum. -/
def dyAdd (a b : Dy) : Dy :=
  if a.m = 0 then b else if b.m = 0 then a
  else let e := min a.e b.e; ⟨dyAt a e + dyAt b e, e⟩

/-- Exact negation. -/
def dyNeg (a : Dy) : Dy := ⟨-a.m, a.e⟩

/-- Exact difference. -/
def dySub (a b : Dy) : Dy := dyAdd a (dyNeg b)

/-- Exact product. -/
def dyMul (a b : Dy) : Dy := ⟨a.m * b.m, a.e + b.e⟩

/-- Exact product with a power of two. -/
def dyScale (a : Dy) (k : Int) : Dy := ⟨a.m, a.e + k⟩

/-- An integer as a dyadic number. -/
def dyInt (i : Int) : Dy := ⟨i, 0⟩

/-- Sign of a comparison: −1, 0 or 1. -/
def dyCmp (a b : Dy) : Int := (dySub a b).m.sign

/-- Comparisons of exact values. -/
def dyLt (a b : Dy) : Bool := dyCmp a b == -1
/-- At most. -/
def dyLe (a b : Dy) : Bool := dyCmp a b != 1
/-- Equal as numbers. -/
def dyEq (a b : Dy) : Bool := dyCmp a b == 0
/-- Sign. -/
def dySign (a : Dy) : Int := a.m.sign
/-- Minimum. -/
def dyMin (a b : Dy) : Dy := if dyLe a b then a else b
/-- Maximum. -/
def dyMax (a b : Dy) : Dy := if dyLe a b then b else a
/-- Magnitude. -/
def dyAbs (a : Dy) : Dy := ⟨a.m.natAbs, a.e⟩

/-- Floor as an integer. -/
def dyFloor (a : Dy) : Int :=
  if 0 ≤ a.e then a.m * (pow2 a.e.toNat : Int) else Int.fdiv a.m (pow2 (-a.e).toNat : Int)

/-- Floor(Log2) of a non-zero magnitude. -/
def dyLog2 (a : Dy) : Int := (Nat.log2 a.m.natAbs : Int) + a.e

/-- A power of two clamped to where every format of the device is already out of range. -/
def clampExp (k : Int) : Int := max (-4096) (min 4096 k)

/-- Integer square root by bits, from bit `n` down: the largest r with r² ≤ v. -/
def isqrtGo (v : Nat) : Nat → Nat → Nat
  | 0, r => r
  | n + 1, r =>
    let r' := r + 2 ^ n
    isqrtGo v n (if r' * r' ≤ v then r' else r)

/-- The largest r with r² ≤ v. -/
def isqrt (v : Nat) : Nat := isqrtGo v (Nat.log2 v / 2 + 1) 0

/-- A positive value known up to its place between grid points: twice its floor on a fine grid, plus one when it is not
on that grid. Rounding it to any grid at least twice as coarse equals rounding the value itself. -/
def sticky (k : Nat) (exact : Bool) (e : Int) : Dy := ⟨(2 * k + b2n (!exact) : Nat), e - 1⟩

/-- The quotient of two non-zero magnitudes, kept to 64 bits and sticky. -/
def quotSticky (a b : Dy) : Dy :=
  let x := a.m.natAbs; let y := b.m.natAbs
  let sh := 64 + Nat.log2 y
  let n := x * 2 ^ sh
  sticky (n / y) (n % y == 0) (a.e - b.e - (sh : Int))

/-- The square root of a positive value, kept to 64 bits and sticky. -/
def sqrtSticky (a : Dy) : Dy :=
  let odd : Bool := a.e % 2 != 0
  let x := (if odd then 2 * a.m.natAbs else a.m.natAbs) * 2 ^ 128
  let e : Int := (if odd then a.e - 1 else a.e) - 128
  let r := isqrt x
  sticky r (r * r == x) (e / 2)

/-- The reciprocal square root of a positive value, kept to 64 bits and sticky. -/
def rsqrtSticky (a : Dy) : Dy :=
  let odd : Bool := a.e % 2 != 0
  let x := if odd then 2 * a.m.natAbs else a.m.natAbs
  let e : Int := if odd then a.e - 1 else a.e
  let sh := 2 * (96 + Nat.log2 x)
  let r := isqrt (2 ^ sh / x)
  sticky r (r * r * x == 2 ^ sh) (-(e / 2) - ((sh / 2 : Nat) : Int))

/-! ### Series in fixed point: numbers scaled by 2^n, each with a bound on its error in units -/

/-- Terms of exp(x/2^n): running term, next index, terms left, sum. -/
def expGo (n x : Nat) : Nat → Nat → Nat → Nat → Nat
  | 0, _, _, acc => acc
  | k + 1, i, t, acc =>
    let t' := t * x / 2 ^ n / i
    expGo n x k (i + 1) t' (acc + t')

/-- exp of a fixed-point x below 1. -/
def expFix (n x : Nat) : Nat := expGo n x (n / 2 + 8) 1 (2 ^ n) (2 ^ n)

/-- The sum of 2^n / (k · 2^k). -/
def ln2Go (n : Nat) : Nat → Nat → Nat → Nat
  | 0, _, acc => acc
  | f + 1, k, acc => ln2Go n f (k + 1) (acc + 2 ^ n / (k * 2 ^ k))

/-- ln 2 in fixed point. -/
def ln2Fix (n : Nat) : Nat := ln2Go n (n + 2) 1 0

/-- The alternating series of atan(1/q), scaled: running power, index, terms left. -/
def atanGo (q2 : Nat) : Nat → Nat → Nat → Int → Int → Int
  | 0, _, _, _, acc => acc
  | f + 1, k, p, sgn, acc => atanGo q2 f (k + 2) (p / q2) (-sgn) (acc + sgn * ((p / k : Nat) : Int))

/-- π in fixed point (Machin). -/
def piFix (n : Nat) : Nat :=
  (16 * atanGo 25 (n / 4 + 4) 1 (2 ^ n / 5) 1 0 - 4 * atanGo (239 * 239) (n / 14 + 4) 1 (2 ^ n / 239) 1 0).toNat

/-- Alternating terms of sine or cosine: square of x, running term, next index. -/
def trigGo (n x2 : Nat) : Nat → Nat → Nat → Int → Int → Int
  | 0, _, _, _, acc => acc
  | f + 1, i, t, sgn, acc =>
    let t' := t * x2 / 2 ^ n / (i * (i + 1))
    trigGo n x2 f (i + 2) t' (-sgn) (acc + (-sgn) * (t' : Int))

/-- sin of a fixed-point x below 1. -/
def sinFix (n x : Nat) : Int := trigGo n (x * x / 2 ^ n) (n / 4 + 8) 2 x 1 x
/-- cos of a fixed-point x below 1. -/
def cosFix (n x : Nat) : Int := trigGo n (x * x / 2 ^ n) (n / 4 + 8) 1 (2 ^ n) 1 (2 ^ n : Nat)

/-- Odd terms of 2·atanh(z). -/
def atanhGo (n z2 : Nat) : Nat → Nat → Nat → Nat → Nat
  | 0, _, _, acc => acc
  | f + 1, k, p, acc => atanhGo n z2 f (k + 2) (p * z2 / 2 ^ n) (acc + p / k)

/-- ln(m) of a fixed-point m in [1, 2). -/
def lnFix (n m : Nat) : Nat :=
  let z := (m - 2 ^ n) * 2 ^ n / (m + 2 ^ n)
  2 * atanhGo n (z * z / 2 ^ n) (n / 3 + 8) 1 z 0

/-- A value never on a coarse grid, from approximations: `f n` is within 2^24 units of the value times 2^n. The
precision grows until 30 dropped bits leave the floor certain. -/
def irrational (f : Nat → Int) : Nat → Nat → Dy
  | 0, n => let v := (f n).natAbs; sticky (v / 2 ^ 30) false (30 - (n : Int))
  | fuel + 1, n =>
    let v := (f n).natAbs
    if (v - 2 ^ 24) / 2 ^ 30 == (v + 2 ^ 24) / 2 ^ 30 && decide (2 ^ 80 ≤ v) then
      sticky (v / 2 ^ 30) false (30 - (n : Int))
    else irrational f fuel (n + 96)

/-- A dyadic number in [0, 1) as fixed point. -/
def fixOf (a : Dy) (n : Nat) : Nat := (dyFloor (dyScale a n)).toNat

/-- 2^a for a non-integer a of moderate size: exact exponent and a fraction from the series. -/
def exp2Sticky (a : Dy) : Dy :=
  let k := dyFloor a
  let f := dySub a (dyInt k)
  dyScale (irrational (fun n => (expFix n (fixOf f n * ln2Fix n / 2 ^ n) : Nat)) 16 128) k

/-- exp(a) for a non-zero a of moderate size. -/
def expSticky (a : Dy) : Dy :=
  let q := fun (n : Nat) => Int.fdiv (dyFloor (dyScale a (n + n))) (ln2Fix n : Int)
  let k := Int.fdiv (q 128) (2 ^ 128 : Nat)
  dyScale (irrational (fun n =>
    let r := dyFloor (dyScale a n) - k * (ln2Fix n : Int)
    (expFix n r.toNat : Nat)) 16 192) k

/-- log2 of a positive value that is no power of two: its magnitude and sign. -/
def log2Sticky (a : Dy) : Bool × Dy :=
  let e := dyLog2 a
  let m := dyScale a (-e)
  let f := fun (n : Nat) => e * (2 ^ n : Nat) + ((lnFix n (fixOf m n) * 2 ^ n / ln2Fix n : Nat) : Int)
  (decide (f 128 < 0), irrational f 16 128)

/-- sin(π·r) for r in (0, 1/2), r no multiple of 1/2. -/
def sinPiSticky (r : Dy) : Dy :=
  let extra := (-(dyLog2 r)).toNat
  if dyLe r ⟨1, -2⟩ then
    irrational (fun n => sinFix n (fixOf r n * piFix n / 2 ^ n)) 16 (128 + extra)
  else
    let q := dySub ⟨1, -1⟩ r
    irrational (fun n => cosFix n (fixOf q n * piFix n / 2 ^ n)) 16 128

end Sys2Proof.Machine
end

