-- ==== Sys2Proof/Machine/Flags.lean ====
section
/-!
DEFINITION. The sticky conditions of %fmt (R157, R158), integer saturation, comparison tests, and the hash of SRH.
-/
namespace Sys2Proof.Machine

/-- Conditions an operation raises: invalid, division by zero, overflow, underflow, inexact. -/
structure Cond where
  nv : Bool := false
  dz : Bool := false
  of_ : Bool := false
  uf : Bool := false
  nx : Bool := false
  deriving DecidableEq, Repr

/-- No condition. -/
def Cond.none : Cond := {}

/-- Conditions of either. -/
def Cond.or (a b : Cond) : Cond :=
  { nv := a.nv || b.nv, dz := a.dz || b.dz, of_ := a.of_ || b.of_, uf := a.uf || b.uf, nx := a.nx || b.nx }

/-- The flag bits of %fmt (R157): NV, DZ, OF, UF, NX from bit 0. -/
def Cond.bits (c : Cond) : Nat :=
  b2n c.nv + 2 * b2n c.dz + 4 * b2n c.of_ + 8 * b2n c.uf + 16 * b2n c.nx

/-- Gather conditions into %fmt; none is ever cleared here (R158). -/
def gather (fmt : Word) (c : Cond) : Word := fmt ||| wordN c.bits

/-- %fmt.NANTRAP (R157). -/
def fmtNanTrap (fmt : Word) : Bool := fmt.toNat.testBit 12

/-- %fmt.RMODE (R157). -/
def fmtRmode (fmt : Word) : Nat := fmt.toNat / 256 % 8

/-- Clamp an integer. -/
def clamp (v lo hi : Int) : Int := max lo (min hi v)

/-- T(x) of R110: unsigned for m = 1, signed for m = 0. -/
def typed (m : Bool) (w : Word) : Int := if m then (w.toNat : Int) else w.toInt

/-- Saturation of R114 to the .s32 or .n32 range. -/
def saturate (sat m : Bool) (v : Int) : Int :=
  if sat then (if m then clamp v 0 (2 ^ 32 - 1) else clamp v (-2 ^ 31) (2 ^ 31 - 1)) else v

/-- The tests of R123. -/
def cmpTest (c : Nat) (x y : Int) : Bool :=
  match c with
  | 0 => x == y
  | 1 => x != y
  | 2 => decide (x < y)
  | 3 => decide (x ≤ y)
  | 4 => decide (y < x)
  | _ => decide (y ≤ x)

/-- Mix32 (R129). -/
def mix32 (x y : Word) : Word :=
  let h := x + y * 0x2C1B3C6D#32
  let h := h ^^^ (h >>> 16)
  let h := h * 0x297A2D39#32
  let h := h ^^^ (h >>> 15)
  let h := h * 0x5A3D1F4B#32
  h ^^^ (h >>> 16)

end Sys2Proof.Machine
end

