-- ==== Sys2Proof/Machine/Formats.lean ====
section
/-!
DEFINITION. Number formats: reading, RoundToFormat, block formats, format words, accumulator pairs (R130 to R145).
-/
namespace Sys2Proof.Machine

/-- What a floating-point pattern stands for. The magnitude of a finite value is m · 2^e; a zero keeps its sign. -/
inductive FVal where
  | nan (signalling : Bool)
  | inf (neg : Bool)
  | fin (neg : Bool) (m : Nat) (e : Int)
  deriving DecidableEq, Repr

/-- A scalar format (R130, R131): exponent bits, fraction bits, bias, and how the all-ones exponent reads. -/
structure Fmt where
  eb : Nat
  mb : Nat
  bias : Nat
  /-- 0 infinities and NaNs; 1 one NaN pattern, no infinity (E4M3); 2 neither (E2M1). -/
  kind : Nat
  deriving DecidableEq, Repr

def fp32 : Fmt := ⟨8, 23, 127, 0⟩
def fp16 : Fmt := ⟨5, 10, 15, 0⟩
def bf16 : Fmt := ⟨8, 7, 127, 0⟩
def e4m3 : Fmt := ⟨4, 3, 7, 1⟩
def e5m2 : Fmt := ⟨5, 2, 15, 0⟩
def e2m1 : Fmt := ⟨2, 1, 1, 2⟩

/-- Bits of a format. -/
def Fmt.width (f : Fmt) : Nat := 1 + f.eb + f.mb

/-- The canonical NaN (R131). -/
def Fmt.nan (f : Fmt) : Nat :=
  if f.kind == 1 then 0x7F else (2 ^ f.eb - 1) * 2 ^ f.mb + 2 ^ (f.mb - 1)

/-- Infinity of a sign. -/
def Fmt.inf (f : Fmt) (neg : Bool) : Nat := b2n neg * 2 ^ (f.eb + f.mb) + (2 ^ f.eb - 1) * 2 ^ f.mb

/-- Largest finite significand and its exponent (R130). -/
def Fmt.maxSig (f : Fmt) : Nat × Int :=
  match f.kind with
  | 0 => (2 ^ (f.mb + 1) - 1, (f.bias : Int) - f.mb)
  | 1 => (2 ^ (f.mb + 1) - 2, 8 - (f.mb : Int))
  | _ => (2 ^ (f.mb + 1) - 1, 2 - (f.mb : Int))

/-- Read a pattern (R130, R131). -/
def Fmt.read (f : Fmt) (bits : Nat) : FVal :=
  let neg := bits.testBit (f.eb + f.mb)
  let e := fld bits f.mb f.eb
  let m := fld bits 0 f.mb
  if e == 2 ^ f.eb - 1 && f.kind == 0 then
    if m == 0 then .inf neg else .nan (!m.testBit (f.mb - 1))
  else if e == 2 ^ f.eb - 1 && f.kind == 1 && m == 2 ^ f.mb - 1 then .nan false
  else if e == 0 then .fin neg m (1 - (f.bias : Int) - f.mb)
  else .fin neg (2 ^ f.mb + m) ((e : Int) - f.bias - f.mb)

/-- The exact value of a finite reading. -/
def FVal.dy : FVal → Dy
  | .fin neg m e => ⟨if neg then -(m : Int) else m, e⟩
  | _ => dyZero

/-- The reading is a NaN. -/
def FVal.isNan : FVal → Bool
  | .nan _ => true
  | _ => false

/-- The reading is a signalling NaN. -/
def FVal.isSnan : FVal → Bool
  | .nan q => q
  | _ => false

/-- The reading is infinite. -/
def FVal.isInf : FVal → Bool
  | .inf _ => true
  | _ => false

/-- The reading is a zero. -/
def FVal.isZero : FVal → Bool
  | .fin _ m _ => m == 0
  | _ => false

/-- Sign of the reading. -/
def FVal.neg : FVal → Bool
  | .inf n => n
  | .fin n _ _ => n
  | .nan _ => false

/-- Rounding modes of R141 by RMODE. -/
def modeRNE : Nat := 0
def modeRZ : Nat := 1
def modeRD : Nat := 2
def modeRU : Nat := 3
def modeRNA : Nat := 4
def modeSRH : Nat := 5

/-- The draw of SRH (R143): 32 hashed bits of the seed and the element index. -/
structure Draw where
  seed : Word := 0
  idx : Nat := 0
  deriving DecidableEq, Repr

/-- The number a draw gives. -/
def Draw.bits (d : Draw) : Nat := (mix32 d.seed (wordN d.idx)).toNat

/-- The mode chooses the larger magnitude, for lo < |v| < lo + 1 with |v| − lo = rem / den (R141, R143). -/
def roundsUp (mode : Nat) (neg : Bool) (lo rem den : Nat) (d : Draw) : Bool :=
  match mode with
  | 0 => decide (den < 2 * rem) || (2 * rem == den && lo % 2 == 1)
  | 1 => false
  | 2 => neg
  | 3 => !neg
  | 4 => decide (den ≤ 2 * rem)
  | _ => decide (d.bits * den < rem * 2 ^ 32)

/-- A magnitude on the grid of 2^q: the chosen multiple, and whether v lies on the grid. -/
def roundAt (mode : Nat) (neg : Bool) (m : Nat) (e q : Int) (d : Draw) : Nat × Bool :=
  if q ≤ e then (m * 2 ^ (e - q).toNat, true)
  else
    let sh := (q - e).toNat
    let lo := m / 2 ^ sh
    let rem := m % 2 ^ sh
    if rem == 0 then (lo, true) else (lo + b2n (roundsUp mode neg lo rem (2 ^ sh) d), false)

/-- The overflow table of R142: true for infinity, false for the largest finite value. -/
def overflowInf (mode : Nat) (neg : Bool) : Bool :=
  match mode with
  | 1 => false
  | 2 => neg
  | 3 => !neg
  | _ => true

/-- The pattern of a magnitude r · 2^q on the format's grid. -/
def Fmt.pattern (f : Fmt) (neg : Bool) (r : Nat) (q : Int) : Nat :=
  let s := b2n neg * 2 ^ (f.eb + f.mb)
  if r < 2 ^ f.mb then s + r
  else
    let (r, q) := if r == 2 ^ (f.mb + 1) then (2 ^ f.mb, q + 1) else (r, q)
    s + (q + f.mb + f.bias).toNat * 2 ^ f.mb + (r - 2 ^ f.mb)

/-- The largest finite value of a sign. -/
def Fmt.top (f : Fmt) (neg : Bool) : Nat := f.pattern neg f.maxSig.1 f.maxSig.2

/-- What an overflow or an unsaturated infinity gives (R142). -/
def Fmt.over (f : Fmt) (sat neg toInf : Bool) : Nat :=
  if sat || f.kind == 2 || !toInf then f.top neg
  else if f.kind == 1 then f.nan
  else f.inf neg

/-- RoundToFormat of a finite value (R142). -/
def Fmt.roundFin (f : Fmt) (mode : Nat) (sat neg : Bool) (m : Nat) (e : Int) (d : Draw) : Nat × Cond :=
  if m == 0 then (b2n neg * 2 ^ (f.eb + f.mb), {})
  else
    let qmin : Int := 1 - (f.bias : Int) - f.mb
    let q := max (((Nat.log2 m : Nat) : Int) + e - f.mb) qmin
    let (r, exact) := roundAt mode neg m e q d
    let (tm, te) := f.maxSig
    let ovf := if te ≤ q then decide (tm < r * 2 ^ (q - te).toNat) else decide (tm * 2 ^ (te - q).toNat < r)
    if ovf then (f.over sat neg (overflowInf mode neg), { of_ := true, nx := true })
    else
      let tiny := decide (r < 2 ^ f.mb) && q == qmin
      (f.pattern neg r q, { uf := tiny && !exact, nx := !exact })

/-- RoundToFormat of an exact value that is not zero, or of a zero of a sign (R142). -/
def Fmt.round (f : Fmt) (mode : Nat) (sat : Bool) (zeroNeg : Bool) (v : Dy) (d : Draw) : Nat × Cond :=
  if v.m = 0 then f.roundFin mode sat zeroNeg 0 0 d
  else f.roundFin mode sat (decide (v.m < 0)) v.m.natAbs v.e d

/-- RoundToFormat of a reading, NaN and infinity included (R142, R151). -/
def Fmt.roundVal (f : Fmt) (mode : Nat) (sat : Bool) (scale : Int) (v : FVal) (d : Draw) : Nat × Cond :=
  match v with
  | .nan s => (f.nan, { nv := s })
  | .inf neg =>
    if f.kind == 0 then ((if sat then f.top neg else f.inf neg), {})
    else (f.over sat neg true, { nv := true })
  | .fin neg m e => f.roundFin mode sat neg m (e + scale) d

/-- RN(v): FP32 bits (R8). -/
def rn (zeroNeg : Bool) (v : Dy) : Nat := (fp32.round modeRNE false zeroNeg v {}).1

/-- An exact value on the integer grid: the chosen integer and whether v is an integer. -/
def roundInt (mode : Nat) (v : Dy) (d : Draw) : Int × Bool :=
  let neg := decide (v.m < 0)
  let (r, exact) := roundAt mode neg v.m.natAbs v.e 0 d
  (if neg then -(r : Int) else r, exact)

/-- RoundToFormat into INT8 (R135, R142): always saturates. -/
def roundInt8 (mode : Nat) (scale : Int) (v : FVal) (d : Draw) : Nat × Cond :=
  match v with
  | .nan _ => (0, { nv := true })
  | .inf neg => (if neg then 0x80 else 0x7F, { nv := true })
  | .fin neg m e =>
    let (i, exact) := roundInt mode ⟨if neg then -(m : Int) else m, e + scale⟩ d
    if i < -128 || 127 < i then (wrap (clamp i (-128) 127) 8, { of_ := true, nx := true })
    else (wrap i 8, { nx := !exact })

/-! ### Format codes (R138) -/

/-- The scalar format of a code; none for block formats and INT8. -/
def fmtOfCode : Nat → Option Fmt
  | 0x0 => some bf16
  | 0x1 => some fp16
  | 0x2 => some e4m3
  | 0x3 => some e5m2
  | 0x9 => some fp32
  | _ => none

/-- K per matrix op of a code (R138); 0 for none. -/
def kOf : Nat → Nat
  | 0 | 1 => 64
  | 2 | 3 | 4 | 8 => 128
  | 5 => 256
  | 6 | 7 => 512
  | _ => 0

/-- Element width of the scalar codes CVTFF takes (R150). -/
def widthOfCode : Nat → Nat
  | 0 | 1 => 16
  | 2 | 3 | 8 => 8
  | _ => 32

/-- Fields of a format word (R139). -/
def fwA (w : Nat) : Nat := fld w 0 4
def fwB (w : Nat) : Nat := fld w 4 4
def fwR (w : Nat) : Nat := fld w 8 4
def fwMode (w : Nat) : Nat := fld w 12 4
def fwBmpA (w : Nat) : Bool := flag w 16
def fwBmpB (w : Nat) : Bool := flag w 17
def fwNanTrap (w : Nat) : Bool := flag w 18
def fwBias (w : Nat) : Int := sx (fld w 24 8) 8

/-- Result formats a format word may name (R140). -/
def rfmtOk (r : Nat) : Bool := [0, 1, 2, 3, 8, 9].contains r

/-- The first check of R140 a format word fails; 0 when valid. -/
def fmtCheck (w : Nat) : Nat :=
  if fld w 19 5 != 0 then 6
  else if 8 < fwA w then 1
  else if 8 < fwB w then 2
  else if kOf (fwA w) != kOf (fwB w) || ((fwA w == 8) != (fwB w == 8)) then 3
  else if !rfmtOk (fwR w) then 4
  else if 5 < fwMode w then 5
  else 0

/-- Read an element of a scalar code, INT8 as its integer. -/
def readCode (code bits : Nat) : FVal :=
  match fmtOfCode code with
  | some f => f.read bits
  | none => let v := sx bits 8; .fin (decide (v < 0)) v.natAbs 0

/-- Round a reading into a scalar code under a scale (R151). -/
def roundCode (code mode : Nat) (sat : Bool) (scale : Int) (v : FVal) (d : Draw) : Nat × Cond :=
  match fmtOfCode code with
  | some f => f.roundVal mode sat scale v d
  | none => roundInt8 mode scale v d

/-! ### Block formats (R132 to R137) -/

/-- Magnitude width of an NX code. -/
def nxM : Nat → Nat
  | 4 => 7
  | 5 => 4
  | _ => 2

/-- An NX element (R134). -/
def nxElement (mw e u j : Nat) (s : Bool) (mag : Nat) : FVal :=
  if e == 255 then .nan false
  else if e == 0 || mag == 0 then .fin s 0 0
  else .fin s mag ((e : Int) - 127 - (fld u (2 * (j / 4)) 2 : Nat) - (mw - 1 : Nat))

/-- An MXFP4 element (R132). -/
def mxElement (x nib : Nat) : FVal :=
  if x == 0xFF then .nan false
  else match e2m1.read nib with
    | .fin n m e => .fin n m (e + ((x : Int) - 127))
    | v => v

/-- The magnitude of a reading. -/
def FVal.mag (v : FVal) : Dy := dyAbs v.dy

/-- The largest magnitude of a list. -/
def maxMag (vs : List FVal) : Dy := vs.foldl (fun a v => dyMax a v.mag) dyZero

/-- An exact magnitude on the grid of non-negative integers under RNE. -/
def rneInt (v : Dy) : Int := (roundInt modeRNE v {}).1

/-- The offset of a quad whose largest magnitude is p (R136). -/
def nxOffset (p : Dy) (e mw : Nat) : Nat :=
  let fits (u : Nat) : Bool :=
    decide (rneInt (dyScale p (-((e : Int) - 127 - u - (mw - 1 : Nat)))) ≤ (2 ^ mw - 1 : Nat))
  if fits 3 then 3 else if fits 2 then 2 else if fits 1 then 1 else 0

/-- The exponent byte of an NX block with largest magnitude a (R136). -/
def nxExp (a : Dy) (mw : Nat) : Nat :=
  let e := dyLog2 a
  let e := if rneInt (dyScale a (-(e - mw + 1))) == (2 ^ mw : Nat) then e + 1 else e
  (clamp (e + 127) 1 254).toNat

/-- NxEncode (R136): E, U, the elements as (sign, magnitude), and conditions. -/
def nxEncode (vs : List FVal) (mw mode : Nat) (seed : Word) (base : Nat) :
    Nat × Nat × List (Bool × Nat) × Cond :=
  if vs.any (fun v => v.isNan || v.isInf) then
    (255, 0, vs.map (fun _ => (false, 0)), { nv := vs.any FVal.isSnan })
  else
    let a := maxMag vs
    if a.m = 0 then (0, 0, vs.map (fun v => (v.neg, 0)), {})
    else
      let e := nxExp a mw
      let mus := (List.range 4).map (fun i => nxOffset (maxMag ((vs.drop (4 * i)).take 4)) e mw)
      let u := (mus.zipIdx).foldl (fun acc p => acc + p.1 * 4 ^ p.2) 0
      let els := (vs.zipIdx).map (fun p =>
        let q := -((e : Int) - 127 - (nthD mus (p.2 / 4) 0 : Nat) - (mw - 1 : Nat))
        let (r, exact) := roundAt mode false p.1.mag.m.natAbs (p.1.mag.e + q) 0 ⟨seed, base + p.2⟩
        let ovf := decide (2 ^ mw - 1 < r)
        ((p.1.neg, Nat.min r (2 ^ mw - 1)), ({ of_ := ovf, nx := ovf || !exact } : Cond)))
      let c := els.foldl (fun c p => c.or p.2) {}
      let els := els.map (·.1)
      if els.all (fun p => p.2 == 0) then (0, 0, els, c) else (e, u, els, c)

/-- MxEncode (R137): X, the nibbles, and conditions. -/
def mxEncode (vs : List FVal) (mode : Nat) (seed : Word) (base : Nat) : Nat × List Nat × Cond :=
  if vs.any (fun v => v.isNan || v.isInf) then
    (0xFF, vs.map (fun _ => 0), { nv := vs.any FVal.isSnan })
  else
    let a := maxMag vs
    let x := if a.m = 0 then 0 else (clamp (dyLog2 a - 2 + 127) 0 254).toNat
    let els := (vs.zipIdx).map (fun p => e2m1.roundVal mode true (-((x : Int) - 127)) p.1 ⟨seed, base + p.2⟩)
    (x, els.map (·.1), els.foldl (fun c p => c.or p.2) {})

/-! ### Sums, products and accumulator pairs (R161, R144) -/

/-- The sign of an exact zero sum (R161, 3): of two zeros of one sign that sign, otherwise + or − under RD. -/
def zeroSumNeg (mode : Nat) (an bn bothZero : Bool) : Bool :=
  if bothZero && an == bn then an else mode == modeRD

/-- An arithmetic result: bits and conditions. -/
abbrev FRes := Nat × Cond

/-- The sum of two readings rounded once (R161). -/
def fAdd (f : Fmt) (mode : Nat) (a b : FVal) : FRes :=
  if a.isNan || b.isNan then (f.nan, { nv := a.isSnan || b.isSnan })
  else match a, b with
    | .inf x, .inf y => if x == y then (f.inf x, {}) else (f.nan, { nv := true })
    | .inf x, _ => (f.inf x, {})
    | _, .inf y => (f.inf y, {})
    | _, _ => f.round mode false (zeroSumNeg mode a.neg b.neg (a.isZero && b.isZero)) (dyAdd a.dy b.dy) {}

/-- The reading with the other sign. -/
def FVal.negate : FVal → FVal
  | .nan s => .nan s
  | .inf n => .inf (!n)
  | .fin n m e => .fin (!n) m e

/-- The exact product; none for NaN operands and 0 × ∞. -/
def fProd (a b : FVal) : Option FVal :=
  match a, b with
  | .nan _, _ => none
  | _, .nan _ => none
  | .inf x, .inf y => some (.inf (x != y))
  | .inf x, .fin y m _ => if m == 0 then none else some (.inf (x != y))
  | .fin x m _, .inf y => if m == 0 then none else some (.inf (x != y))
  | .fin x m e, .fin y n k => some (.fin (x != y) (m * n) (e + k))

/-- The product rounded once (R161). -/
def fMul (f : Fmt) (mode : Nat) (a b : FVal) : FRes :=
  match fProd a b with
  | none => (f.nan, { nv := a.isSnan || b.isSnan || !(a.isNan || b.isNan) })
  | some (.fin n m e) => f.roundFin mode false n m e {}
  | some p => (f.inf p.neg, {})

/-- p + c with the exact product p = ±(a × b), rounded once (R161, R162). -/
def fMad (f : Fmt) (mode : Nat) (negate : Bool) (a b c : FVal) : FRes :=
  match fProd a b with
  | none => (f.nan, { nv := a.isSnan || b.isSnan || c.isSnan || !(a.isNan || b.isNan) })
  | some p => fAdd f mode (if negate then p.negate else p) c

/-- FP32 reading of bits. -/
def rd32 (bits : Nat) : FVal := fp32.read bits

/-- RN(a + b) on FP32 bits. -/
def add32 (a b : Nat) : Nat := (fAdd fp32 modeRNE (rd32 a) (rd32 b)).1

/-- −x on FP32 bits. -/
def neg32 (a : Nat) : Nat := a ^^^ 0x80000000

/-- TwoSum on FP32 bits (R144). -/
def twoSum (a b : Nat) : Nat × Nat :=
  let s := add32 a b
  let a' := add32 s (neg32 b)
  let b' := add32 s (neg32 a')
  (s, add32 (add32 a (neg32 a')) (add32 b (neg32 b')))

/-- FP32 bits are infinite or NaN. -/
def special32 (a : Nat) : Bool := (rd32 a).isNan || (rd32 a).isInf

/-- Fold an exact product into a pair (R144); a product of exact bits is first RN-rounded by each step of TwoSum. -/
def foldPair (s c : Nat) (p : FVal) : Nat × Nat :=
  let sV := rd32 s
  let sum := (fAdd fp32 modeRNE sV p).1
  let n := rd32 sum
  let a' := fAdd fp32 modeRNE n p.negate
  let b' := fAdd fp32 modeRNE n (rd32 (neg32 a'.1))
  let e := add32 (add32 s (neg32 a'.1)) (fAdd fp32 modeRNE p (rd32 (neg32 b'.1))).1
  let e := if special32 sum then 0 else e
  (sum, add32 c e)

/-- Read a pair into a scalar code (R144). -/
def readPair (s c code mode : Nat) (sat : Bool) (bias : Int) (d : Draw) : FRes :=
  let sv := rd32 s; let cv := rd32 c
  if sv.isNan || cv.isNan then roundCode code mode sat 0 (.nan (sv.isSnan || cv.isSnan)) d
  else if sv.isInf then roundCode code mode sat 0 sv d
  else if cv.isInf then roundCode code mode sat 0 cv d
  else
    let v := dyAdd sv.dy cv.dy
    if v.m = 0 then roundCode code mode sat 0 (.fin (if cv.isZero then sv.neg else mode == modeRD) 0 0) d
    else roundCode code mode sat bias (.fin (decide (v.m < 0)) v.m.natAbs v.e) d

/-- The smaller of two FP32 readings is the first: −0 is below +0 (R164). -/
def fltLess (a b : FVal) : Bool :=
  match a, b with
  | .inf x, .inf y => x && !y
  | .inf x, _ => x
  | _, .inf y => !y
  | a, b => if a.isZero && b.isZero then a.neg && !b.neg else dyLt a.dy b.dy

/-- FMIN and FMAX on FP32 bits (R164). -/
def fMinMax (maxi : Bool) (a b : Nat) : FRes :=
  let x := rd32 a; let y := rd32 b
  let c : Cond := { nv := x.isSnan || y.isSnan }
  if x.isNan && y.isNan then (fp32.nan, c)
  else if x.isNan then (b, c)
  else if y.isNan then (a, c)
  else ((if maxi then (if fltLess x y then b else a) else (if fltLess y x then b else a)), c)

end Sys2Proof.Machine
end

