-- ==== Sys2Proof/Machine/Exact.lean ====
section
/-!
DEFINITION. Exact geometry: quadratic surds over the integers, their order and their rounding to FP32, and 3-vectors of
integers. FP32 coordinates are taken as integers scaled by 2^149.
-/
namespace Sys2Proof.Machine

/-! ### Surds (p + q√r) / d -/

/-- The number (p + q√r) / d, d not 0. -/
structure Surd where
  p : Int
  q : Int
  r : Nat
  d : Int
  deriving DecidableEq, Repr

/-- Sign of p + q√r. -/
def surdSign (p q : Int) (r : Nat) : Int :=
  let a := p.sign
  let b := if r = 0 then 0 else q.sign
  if a = 0 then b else if b = 0 || a == b then a
  else a * (p * p - q * q * (r : Int)).sign

/-- Sign of a + b√r + c√s. -/
def surdSign3 (a b : Int) (r : Nat) (c : Int) (s : Nat) : Int :=
  let x := surdSign a b r
  let y := if s = 0 then 0 else c.sign
  if x = 0 then y else if y = 0 || x == y then x
  else x * surdSign (a * a + b * b * (r : Int) - c * c * (s : Int)) (2 * a * b) r

/-- A quotient of integers. -/
def Surd.ratio (n d : Int) : Surd := ⟨n, 0, 0, d⟩

/-- Denominator made positive, and a square radicand taken out. -/
def Surd.norm (x : Surd) : Surd :=
  let x := if x.d < 0 then ⟨-x.p, -x.q, x.r, -x.d⟩ else x
  let k := isqrt x.r
  if x.q = 0 then ⟨x.p, 0, 0, x.d⟩ else if k * k == x.r then ⟨x.p + x.q * (k : Int), 0, 0, x.d⟩ else x

/-- Sign of a number with a positive denominator. -/
def Surd.sign (x : Surd) : Int := surdSign x.p x.q x.r * x.d.sign

/-- The order of two numbers: −1, 0 or 1. -/
def Surd.cmp (x y : Surd) : Int :=
  surdSign3 (x.p * y.d - y.p * x.d) (x.q * y.d) x.r (-(y.q * x.d)) y.r * x.d.sign * y.d.sign

/-- At most. -/
def Surd.le (x y : Surd) : Bool := x.cmp y != 1
/-- Below. -/
def Surd.lt (x y : Surd) : Bool := x.cmp y == -1

/-- The radicand of a pair of numbers of one field. -/
def Surd.rad (x y : Surd) : Nat := if x.q = 0 then y.r else x.r

/-- Sum of two numbers of one field. -/
def Surd.add (x y : Surd) : Surd := ⟨x.p * y.d + y.p * x.d, x.q * y.d + y.q * x.d, x.rad y, x.d * y.d⟩
/-- Difference of two numbers of one field. -/
def Surd.sub (x y : Surd) : Surd := ⟨x.p * y.d - y.p * x.d, x.q * y.d - y.q * x.d, x.rad y, x.d * y.d⟩
/-- Product of two numbers of one field. -/
def Surd.mul (x y : Surd) : Surd :=
  let r : Int := x.rad y
  ⟨x.p * y.p + x.q * y.q * r, x.p * y.q + x.q * y.p, x.rad y, x.d * y.d⟩
/-- Product with an integer. -/
def Surd.scale (x : Surd) (k : Int) : Surd := ⟨x.p * k, x.q * k, x.r, x.d⟩
/-- Sum with an integer. -/
def Surd.addInt (x : Surd) (k : Int) : Surd := ⟨x.p + k * x.d, x.q, x.r, x.d⟩
/-- Quotient of two numbers of one field; the divisor is not 0. -/
def Surd.div (x y : Surd) : Surd :=
  let r : Int := x.rad y
  (Surd.mk ((x.p * y.p - x.q * y.q * r) * y.d) ((x.q * y.p - x.p * y.q) * y.d) (x.rad y)
    ((y.p * y.p - y.q * y.q * r) * x.d)).norm

/-- Floor of |x|·2^n with d positive and x not negative, and whether it is exact. -/
def Surd.fixed (x : Surd) (n : Nat) : Nat × Bool :=
  let b := x.q.natAbs * x.q.natAbs * x.r * 2 ^ (2 * n)
  let s := isqrt b
  let whole := s * s == b
  let up : Int := if whole then s else s + 1
  let num := x.p * ((2 ^ n : Nat) : Int) + (if 0 ≤ x.q then (s : Int) else -up)
  ((Int.fdiv num x.d).toNat, whole && num % x.d == 0)

/-- A number for rounding to FP32: its floor on the grid of 2^−256, sticky. -/
def Surd.dy (x : Surd) : Dy :=
  let x := x.norm
  let neg := decide (x.sign < 0)
  let (k, exact) := (if neg then ⟨-x.p, -x.q, x.r, x.d⟩ else x : Surd).fixed 256
  let v := sticky k exact (-256)
  if neg then dyNeg v else v

/-- RN to FP32 (R351). -/
def Surd.rn (x : Surd) : Nat := Sys2Proof.Machine.rn false x.dy

/-- Roots of a·t² + b·t + c, lesser first; none where it is constant. -/
def quadRoots (a b c : Int) : List Surd :=
  if a = 0 then (if b = 0 then [] else [Surd.norm ⟨-c, 0, 0, b⟩])
  else
    let disc := b * b - 4 * a * c
    if disc < 0 then []
    else
      let s : Int := if 0 < a then 1 else -1
      if disc = 0 then [Surd.norm ⟨-b, 0, 0, 2 * a⟩]
      else [Surd.norm ⟨-b, -s, disc.toNat, 2 * a⟩, Surd.norm ⟨-b, s, disc.toNat, 2 * a⟩]

/-! ### FP32 values -/

/-- A finite FP32 value times 2^149. -/
def scaled32 (bits : Nat) : Int :=
  match rd32 bits with
  | .fin neg m e => let v : Int := (m : Int) * ((2 ^ (e + 149).toNat : Nat) : Int); if neg then -v else v
  | _ => 0

/-- NaN or infinite. -/
def notFinite (bits : Nat) : Bool := (rd32 bits).isNan || (rd32 bits).isInf

/-- The bound `bits` (FP32, no NaN) is at most x. -/
def boundLe (bits : Nat) (x : Surd) : Bool :=
  match rd32 bits with
  | .inf neg => neg
  | .nan _ => false
  | _ => Surd.le (Surd.ratio (scaled32 bits) ((2 ^ 149 : Nat) : Int)) x

/-- x is at most the bound. -/
def leBound (x : Surd) (bits : Nat) : Bool :=
  match rd32 bits with
  | .inf neg => !neg
  | .nan _ => false
  | _ => Surd.le x (Surd.ratio (scaled32 bits) ((2 ^ 149 : Nat) : Int))

/-- A finite bound as a number. -/
def boundOf (bits : Nat) : Surd := Surd.ratio (scaled32 bits) ((2 ^ 149 : Nat) : Int)

/-- Order of FP32 values, none NaN; the zeros are equal. -/
def less32 (a b : Nat) : Bool :=
  match rd32 a, rd32 b with
  | .nan _, _ => false
  | _, .nan _ => false
  | .inf n, y => n && !(y.isInf && y.neg)
  | _, .inf n => !n
  | _, _ => decide (scaled32 a < scaled32 b)

/-! ### Vectors -/

/-- A 3-vector of integers. -/
structure V3 where
  x : Int
  y : Int
  z : Int
  deriving DecidableEq, Repr

/-- Sum. -/
def V3.add (a b : V3) : V3 := ⟨a.x + b.x, a.y + b.y, a.z + b.z⟩
/-- Difference. -/
def V3.sub (a b : V3) : V3 := ⟨a.x - b.x, a.y - b.y, a.z - b.z⟩
/-- Multiple. -/
def V3.smul (a : V3) (k : Int) : V3 := ⟨a.x * k, a.y * k, a.z * k⟩
/-- Scalar product. -/
def V3.dot (a b : V3) : Int := a.x * b.x + a.y * b.y + a.z * b.z
/-- Vector product. -/
def V3.cross (a b : V3) : V3 := ⟨a.y * b.z - a.z * b.y, a.z * b.x - a.x * b.z, a.x * b.y - a.y * b.x⟩

/-- Three FP32 words as a vector scaled by 2^149. -/
def v3Of (a b c : Nat) : V3 := ⟨scaled32 a, scaled32 b, scaled32 c⟩

/-- Component by axis. -/
def V3.at (v : V3) (k : Nat) : Int := if k == 0 then v.x else if k == 1 then v.y else v.z

end Sys2Proof.Machine
end

