-- ==== Sys2Proof/Machine/Types.lean ====
section
/-!
DEFINITION. The state of threads, teams, grids, cores, stations and memory: the records State is made of.

Everything is plain data. A register or entry that a record does not list has the value its accessor names.
-/
namespace Sys2Proof.Machine

/-- Where the bytes of an access live (R175, R178, R183, R189, R190). -/
inductive Loc where
  /-- LPDDR, by physical address. -/
  | glob (pa : Nat)
  /-- A team's scratchpad allocation, by offset. -/
  | spad (team off : Nat)
  /-- A thread's own window 0xF2, by offset. -/
  | own (th off : Nat)
  /-- The weight store, by offset. -/
  | weight (off : Nat)
  /-- Another package's domain memory, by package and offset. -/
  | remote (pkg off : Nat)
  deriving DecidableEq, Repr

/-- One access after its checks: where, how long, strong or weak, and the page facts caching needs. -/
structure Access where
  loc : Loc
  len : Nat
  strong : Bool
  /-- CATTR of the page (R193); 0 elsewhere. -/
  cattr : Nat
  /-- The page's W bit (R196). -/
  pageW : Bool
  /-- The page's SEAL (R422). -/
  pageSeal : Nat
  deriving DecidableEq, Repr

/-- What an atomic or exact-cell access does at its home (R222 to R230). -/
inductive AtomOp where
  /-- ATOM: operation code, width in bits, operand. -/
  | int (op width v : Nat)
  /-- ATOMC: width, compare value, new value. -/
  | cas (width cmp new : Nat)
  /-- ATOMF: FP32 when false, two BF16 when true. -/
  | fadd (bf : Bool) (v : Nat)
  /-- XACC and XACCP: the FP32 values added, one or two. -/
  | xacc (vs : List Nat)
  /-- XRD: rounding mode, pair form. -/
  | xrd (mode : Nat) (pair : Bool)
  /-- XCLR. -/
  | xclr
  /-- A burst of a reduce-copy: FP32 when true, BF16 when false, and the bytes added (R270). -/
  | reduce (fp : Bool) (bs : List Byte)
  deriving DecidableEq, Repr

/-- What an issued operation still has to do. -/
inductive FlightOp where
  /-- A load: the access and its sign extension (R210). -/
  | load (acc : Access) (signed : Bool)
  /-- A store (R211). -/
  | store (acc : Access) (data : List Byte)
  /-- An atomic or exact-cell access (R217). -/
  | atom (acc : Access) (op : AtomOp)
  /-- A request to another package for an access there, by its number in the request table, with its instruction word
  (R176, R199, R449). -/
  | remote (req : Nat) (signed : Bool) (acc : Access) (iw : Word)
  /-- A result already computed at issue; only its write is outstanding (R32). -/
  | result (vals : List Word)
  /-- The distributor's answer to be stored in a slot (R253). -/
  | answer (team off : Nat) (data : List Byte)
  /-- An operation a unit completes: copy, matrix, tile (R26); the unit lowers the counter. -/
  | unit (id : Nat)
  /-- The loads or stores of a tile operation of that number (R308, R317). -/
  | mload (as_ : List Access) (id : Nat)
  | mstore (as_ : List Access) (id : Nat)
  /-- A prefetch (R213). -/
  | prefetch (acc : Access) (level : Nat)
  deriving DecidableEq, Repr

/-- One outstanding operation of a thread (R26, R32). -/
structure Flight where
  seq : Nat
  /-- The event counter it is assigned to; 6 for none. -/
  ec : Nat
  dests : List Nat
  op : FlightOp
  /-- Bytes or register values once performed; none while it is not performed. -/
  got : Option (List Word)
  /-- The clause it was issued in, by the thread's count of clauses (R201). -/
  clauseNo : Nat := 0
  /-- Its counter's value with its own contribution, at issue (R205). -/
  level : Nat := 0
  /-- Logical time its completion brings to a thread that observes it; none for an access (R205). -/
  brings : Option Nat := none
  /-- Runs of its bytes that a split has performed already, each by its place among them (R201, R308). -/
  parts : List (Nat × List Byte) := []
  /-- Slices its request packets have been sent to, and the packets of its reply that wait: slice and flits (R441, R442). -/
  sent : List Nat := []
  reply : List (Nat × Nat) := []
  deriving DecidableEq, Repr

/-- A weak access that is performed, kept until the thread's next ordering point: what the freedoms of R201 may perform
again or take a value from. -/
structure DoneAccess where
  seq : Nat
  clauseNo : Nat
  store : Bool
  acc : Access
  data : List Byte
  deriving DecidableEq, Repr

/-- A finished command whose completion its thread has not observed: its counter, the counter's value with the command's
own contribution, and the command's logical time (R195, R205). -/
structure Acq where
  ec : Nat
  level : Nat
  pts : Nat
  deriving DecidableEq, Repr

/-- The thread's decode table (R44, R45): a map number or a loaded image. -/
inductive DecodeTable where
  | map (n : Nat)
  | image (entries : List Nat)
  deriving DecidableEq, Repr

/-- A fetched clause (R23, R29, R30). Word k of the clause is element k − 1 of `words`. -/
structure Clause where
  header : Nat
  cls : Nat
  n : Nat
  words : List Nat
  /-- Resumed in mid-clause: the header was not fetched again (R30, R49). -/
  resumed : Bool
  deriving DecidableEq, Repr

/-- EXT words waiting for the instruction they modify (R39, R40). -/
structure ExtLatch where
  ctl : Option Nat := none
  imm : Option Nat := none
  /-- Index of the first of them. -/
  first : Nat := 0
  deriving DecidableEq, Repr

/-- An asynchronous trap held for delivery (R406). -/
structure HeldTrap where
  cause : Nat
  infos : List Word
  /-- Words of the trapping instruction where SKIP may pass it, for a trap raised while its thread waits (R414). -/
  words : Option Nat := none
  deriving DecidableEq, Repr

/-- The trap registers of a thread (R414). -/
structure TrapRegs where
  cause : Nat := 0
  tpc : Nat := 0
  info0 : Word := 0
  info1 : Word := 0
  info2 : Word := 0
  info3 : Word := 0
  save0 : Word := 0
  save1 : Word := 0
  save2 : Word := 0
  save3 : Word := 0
  alost : Bool := false
  tn : Nat := 0
  tcls : Nat := 0
  tword : Nat := 0
  tactive : Bool := false
  pmode : Bool := false
  tsmap : Nat := 0
  tpred : Nat := 0
  /-- Words the trapping instruction occupies, and whether SKIP is still legal (R414). -/
  words : Nat := 0
  skippable : Bool := false
  deriving DecidableEq, Repr

/-- What holds a thread (R75, R79). -/
inductive Wait where
  /-- Nothing: the thread is ready. -/
  | ready
  /-- Held at issue for a resource; the word issues again (R79). -/
  | hold
  /-- Parked until no register is pending (R32). -/
  | park
  /-- Held at its meet (R85). -/
  | meet
  /-- Held at LGWAIT on a ligature (R98). -/
  | ligature (l : Nat)
  /-- At a rendezvous word: ligature, opcode, destination, own d and a values, modifier, further words, and registers
  its last-read bits free (R87). -/
  | rendezvous (l opc d : Nat) (dv av : Word) (m : Bool) (more : List Word) (frees : List Nat)
  /-- At BAR or BARW: barrier and the generation awaited (R237). -/
  | barrier (id gen : Nat)
  /-- At the kern unit: sort key, live mask, and registers its last-read bits free (R102). -/
  | regroup (key live : Nat) (frees : List Nat)
  /-- At QPOP: queue handle and destination pair (R250). -/
  | queue (handle d : Nat)
  /-- At an empty feed port: port and destination (R113). -/
  | port (q d : Nat)
  /-- Attached to a page walk of its station (R181); not a blocking point. -/
  | walk
  /-- At the blocking point page fault, with the faulting address (R182). -/
  | fault (addr : Nat)
  /-- Waiting for a team that is evicted whole (R188). -/
  | away (team : Nat)
  /-- At TWAIT (R394). -/
  | time (t : Nat)
  /-- At ARWAIT: word's team and offset, generation, destination, generic address (R245). -/
  | arrival (team off gen d addr : Nat)
  /-- At RAYWAIT: handle and destination (R364). -/
  | ray (handle d : Nat)
  /-- At HALT (R435). -/
  | halt
  /-- PAUSE, with the ACLK cycle at which it ends (R104). -/
  | pause (until_ : Nat)
  /-- FENCE: until the listed commands and feed starts are registered (R232). -/
  | fence (cmds : List Nat)
  deriving DecidableEq, Repr

/-- A thread (R59, R61, R66). -/
structure Thread where
  team : Nat
  tid : Nat
  gid : Nat
  mid : Nat
  role : Nat
  sealId : Nat
  budget : Nat
  /-- Address of the current clause's header, or of the next header to fetch. -/
  pc : Nat
  /-- Next word of the current clause; 0 when the header is next. -/
  word : Nat := 0
  clause : Option Clause := none
  ext : ExtLatch := {}
  regs : KMap Word := []
  pend : List Nat := []
  preds : Nat := 0
  /-- Event counters ec0 to ec5 (R26). -/
  ec : KMap Nat := []
  meet : DWord := 0
  /-- Return stack, newest first, and entries spilled (R95). -/
  stack : List Nat := []
  spilled : Nat := 0
  pts : Nat := 0
  fmt : Word := 0
  table : DecodeTable := .map 3
  /-- The table that governs from the next clause header (R47). -/
  nextTable : Option DecodeTable := none
  trap : TrapRegs := {}
  held : List HeldTrap := []
  wait : Wait := .ready
  /-- System mode restored by RTE from a written PMODE (R404, R414). -/
  sysMode : Bool := false
  /-- The word that blocks carried S = 1: the thread parks when it goes on (R32). -/
  parkAfter : Bool := false
  /-- A synchronous trap raised for it by another thread's arrival or by a walk's end, delivered at its next step. -/
  due : Option HeldTrap := none
  suspended : Bool := false
  evicted : Bool := false
  /-- In the quadrant's active set (R71). -/
  active : Bool := true
  /-- ACLK cycle at which it last entered the slow file (R103). -/
  slowSince : Nat := 0
  /-- YIELD: threads that must issue first (R103). -/
  yields : List Nat := []
  /-- ACLK cycles it has been ready without issuing a word (R80). -/
  waited : Nat := 0
  flights : List Flight := []
  seq : Nat := 0
  /-- Latched high words of %pts and %tpc (R113). -/
  ptsHi : Option Nat := none
  tpcHi : Option Nat := none
  /-- Window 0xF2 contents (R189). -/
  own : Memory := []
  /-- Address of the window's backing area in LPDDR (R189). -/
  backing : Option Nat := none
  /-- Thread generation (R105, R416), and the addresses of its context record and of its saved table image. -/
  gen : Nat := 0
  record : Nat := 0
  image : Option Nat := none
  /-- Raster and stipple bindings: pass numbers (R323). -/
  rasterPass : Option Nat := none
  stipplePass : Option Nat := none
  /-- Generation of each of its ray slots (R345). -/
  rayGens : KMap Nat := []
  /-- Callback: the ray it serves, the values RAYCB reads, and whether a verdict was given (R354, R367). -/
  callback : Option Nat := none
  callVals : List Word := []
  verdict : Bool := false
  /-- FENCEW: operations below this number must be performed before a MEM word issues (R231). -/
  fencew : Nat := 0
  /-- Commands and feed starts of this thread not yet registered (R232). -/
  unreg : List Nat := []
  /-- Finished commands it has not observed yet (R205). -/
  acq : List Acq := []
  /-- Number of the latest memory operation it has issued (the model's own). -/
  lastMem : Nat := 0
  /-- Clauses it has started, and weak accesses performed since its last ordering point (R201; the model's own). -/
  clauseNo : Nat := 0
  recent : List DoneAccess := []
  /-- ACLK cycle from which its next self-advance counts (R195). -/
  selfAt : Nat := 0
  deriving DecidableEq, Repr

/-- A declared buffer with its state (R184, R185). -/
structure Buffer where
  idx : Nat
  base : Nat
  extent : Nat
  /-- 0 EMPTY, 1 FILLING, 2 FULL, 3 DRAINING. -/
  state : Nat
  /-- Commands and feed contexts counted as reading it (R186, R287). -/
  readers : List Nat
  /-- Logical time of the threads that set it EMPTY: an engine write it lets in comes after their accesses (R254). -/
  pts : Nat := 0
  deriving DecidableEq, Repr

/-- A declared arrival word (R63, R239); its bytes stand in the scratchpad. -/
structure Arrival where
  idx : Nat
  off : Nat
  buf : Nat
  deriving DecidableEq, Repr

/-- A team barrier (R235). -/
structure Barrier where
  gen : Nat := 0
  arrived : List Nat := []
  mask : Option Nat := none
  /-- Largest logical time brought to the current generation, and to the last completed one (R195). -/
  pts : Nat := 0
  donePts : Nat := 0
  deriving DecidableEq, Repr

/-- A ligature: member and arrived masks indexed by %mid (R83). -/
structure Ligature where
  members : DWord := 0
  arrived : DWord := 0
  deriving DecidableEq, Repr

/-- A waiter of a cluster queue or feed port (R249, R113). -/
structure Waiter where
  th : Nat
  deriving DecidableEq, Repr

/-- A tile fill by a feed context: the context, the group and tile, and its place in the tile order (R296). -/
structure Fill where
  feed : Nat
  gid : Nat
  k : Nat
  order : Nat
  deriving DecidableEq, Repr

/-- An accumulator bank: its pairs in the image of R304, its read seed, and the mark of R303. -/
structure Bank where
  img : Memory := []
  seed : Word := 0
  spilled : Bool := false
  deriving DecidableEq, Repr

/-- A team (R59, R66). Groups' ligatures and ports are keyed 16·gid + index, tiles and bitmaps 8·gid + index. -/
structure Team where
  grid : Nat
  index : Nat
  x : Nat
  y : Nat
  z : Nat
  core : Nat
  cluster : Nat
  sealId : Nat
  groups : Nat
  nthreads : Nat
  spord : Nat
  /-- Block's byte offset in the core's scratchpad (R65). -/
  base : Nat
  tiles : Nat
  quad : Bool
  privKb : Nat
  handle : Option Nat
  roles : List Nat
  buffers : List Buffer
  arrivals : List Arrival
  spad : Memory := []
  /-- 16-byte granules of the free area that are readable (R183). -/
  granules : List Nat := []
  /-- Largest logical time published with each arrival word's completions (R195). -/
  arrPts : KMap Nat := []
  barriers : KMap Barrier := []
  ligatures : KMap Ligature := []
  /-- Feed queues q0–q7 of each group and the threads waiting at them in order (R113). -/
  ports : KMap (List Word) := []
  portWait : KMap (List Nat) := []
  portReserved : KMap Nat := []
  /-- Tile registers (2,048 bytes) and bitmap registers (1,024 bytes) of each group (R293). -/
  tileMem : KMap Memory := []
  bitmaps : KMap Memory := []
  /-- Accumulator banks by 2 · quad + bank (R303, R304). -/
  banks : KMap Bank := []
  /-- Tile fills by feed contexts not yet ended (R287). -/
  openFills : List Fill := []
  /-- Copy records whose command has ended, with its last agent pts (R279, R280). -/
  records : KMap Nat := []
  /-- Striped distributor requests made (R252). -/
  distCount : Nat := 0
  /-- Evicted whole (R76). -/
  evicted : Bool := false
  /-- Pre-emption requested (R78). -/
  evictReq : Bool := false
  /-- Job slice the team is, and its chain (R381). -/
  slice : Option Nat := none
  chain : Option Nat := none
  /-- Ray callback teams: the station whose unit started it (R354). -/
  callbackOf : Option Nat := none
  /-- Logical time of the strong stores to each granule of the allocation (R202). -/
  sync : KMap Nat := []
  /-- Matrix save area of each quadrant's banks: its address (R304). -/
  saveAreas : KMap Nat := []
  deriving DecidableEq, Repr

/-- A launch record (R62). -/
structure LaunchRecord where
  kaddr : Nat
  args : Nat
  done : Nat
  decl : Nat
  gx : Nat
  gy : Nat
  gz : Nat
  teamn : Nat
  groups : Nat
  flags : Nat
  spord : Nat
  tiles : Nat
  privKb : Nat
  map : Nat
  nbuf : Nat
  narr : Nat
  /-- (KIND, BUDGET, COUNT) of each role below NROLE. -/
  roles : List (Nat × Nat × Nat)
  mapimg : Nat
  dbegin : Nat
  dend : Nat
  dchunk : Nat
  dorder : Nat
  sealId : Nat
  queue : Nat
  prio : Nat
  deadline : Nat
  budget : Nat
  deriving DecidableEq, Repr

/-- A grid in a launch queue (R65, R67) with its distributor (R251). -/
structure Grid where
  lr : LaunchRecord
  buffers : List Buffer
  /-- Arrival declarations with their targets (R63). -/
  arrivals : List (Arrival × Nat)
  image : Option (List Nat)
  /-- Teams placed and retired so far. -/
  placed : Nat := 0
  retired : Nat := 0
  /-- Cluster of the first placed team. -/
  home : Option Nat := none
  /-- Initial logical time of its threads (R195) and the largest at a thread's end (R67). -/
  pts : Nat
  endPts : Nat := 0
  /-- Next chunk of orders 0 and 1 (R252). -/
  chunk : Nat := 0
  /-- Graph task it is, as (run, task) (R461). -/
  task : Option (Nat × Nat) := none
  /-- Seal ended under it: completion status to write (R67, R419). -/
  status : Nat := 0
  /-- Watchdog: counted cycles, step reached, cycles since the step (R426). -/
  wdCount : Nat := 0
  wdStep : Nat := 0
  wdSince : Nat := 0
  /-- Weight-store regions it has read (R190). -/
  regions : List Nat := []
  /-- Stands in no launch queue: a job slice's or a callback's own record. -/
  hidden : Bool := false
  /-- Complete, but its completion word waits for the host to resolve a page (R67). -/
  waiting : Bool := false
  deriving DecidableEq, Repr

/-- A range-lock entry of a core's table (R275). -/
structure RangeLock where
  cmd : Nat
  /-- Destination range when true, source range when false. -/
  dest : Bool
  /-- Team of a scratchpad range; none for a global range. -/
  team : Option Nat
  sealId : Nat
  base : Nat
  len : Nat
  deriving DecidableEq, Repr

/-- A matrix parameter block (R298). -/
structure MmaBlock where
  fmt : Nat
  nc : Nat
  bank : Nat
  zero : Bool
  klen : Nat
  /-- First A tile, B tile, A bitmap and B bitmap of each quadrant. -/
  atile : List Nat
  btile : List Nat
  abmp : List Nat
  bbmp : List Nat
  ec : Nat
  aen : Bool
  aidx : Nat
  tag : Nat
  seed : Word
  deriving DecidableEq, Repr

/-- What a tile or matrix operation does (R308 to R317). -/
inductive MtxKind where
  | load (bmp : Bool) (gid k : Nat)
  | store (bmp : Bool) (gid k : Nat)
  | zero (bmp : Bool) (gid k span : Nat)
  | cvt (gid dst src : Nat) (b : Bool) (fmt : Nat) (seed : Word) (mode : Nat)
  | bmp (gid dst src : Nat) (b : Bool) (code : Nat)
  | mma (b : MmaBlock)
  | accz (bank : Nat)
  | accrd (k fmt n : Nat) (sat : Bool) (bank mode : Nat)
  | accrdReg (row col fmt : Nat) (sat : Bool) (bank mode : Nat)
  | spill (bank : Nat)
  | fill (bank : Nat)
  deriving DecidableEq, Repr

/-- A register or bank an operation reads or writes: a tile or bitmap register of a group, or a bank of a quad. -/
inductive Res where
  | tile (gid k : Nat)
  | bmp (gid k : Nat)
  | bank (quad l : Nat)
  deriving DecidableEq, Repr

/-- A tile or matrix operation that is not complete (R296). -/
structure MtxOp where
  team : Nat
  quad : Nat
  kind : MtxKind
  /-- Threads whose counter it holds, the issuer or the participants in %mid order. -/
  parts : List Nat
  reads : List Res
  writes : List Res
  sealId : Nat
  /-- Logical time of its issuer. -/
  pts : Nat
  /-- Memory it loads or stores, and the bytes loaded. -/
  accs : List Access := []
  data : Option (List Byte) := none
  /-- Its store is at another package. -/
  sent : Bool := false
  /-- Runs of its bytes that a split had performed when its issuer ended (R308). -/
  taken : List (Nat × List Byte) := []
  /-- The bank set it waits for, set 1 where true (R303). -/
  onSet : Option Bool := none
  /-- Its instruction word (R176). -/
  iw : Word := 0
  /-- Its issuer has ended: the thread with the operation's place in its program order, and the thread's other tile
  operations that come before it (R105, R305). -/
  orphan : Option (Nat × Nat) := none
  preds : List Nat := []
  deriving DecidableEq, Repr

/-- An access of an ended thread that must still be performed after tile operations or requests to other packages of that
thread (R105, R305). -/
structure Heir where
  thread : Nat
  seq : Nat
  op : FlightOp
  /-- Runs of its bytes that are performed already (R201). -/
  parts : List (Nat × List Byte) := []
  /-- Tile operations, and requests, that come before it. -/
  ops : List Nat
  reqs : List Nat
  pts : Nat
  sealId : Nat
  team : Nat
  deriving DecidableEq, Repr

/-- A physical accumulator bank set: the team and bank it holds, and the last operation that entered its order (R303). -/
structure BankSet where
  holder : Option (Nat × Nat) := none
  last : Nat := 0
  deriving DecidableEq, Repr

/-- An endpoint of a copy command (R265). -/
inductive End where
  /-- A window-0x00 or window-0xE0 address. -/
  | glob (addr : Nat)
  | spad (team off : Nat)
  | weight (off : Nat)
  deriving DecidableEq, Repr

/-- A burst the engine has started and not counted into CURSOR yet (R266, R269). -/
structure Burst where
  /-- Its place in the command's byte order, and its bytes. -/
  at_ : Nat
  len : Nat
  src : End
  srcAcc : List Access
  /-- Destinations still to be written. -/
  dsts : List (End × List Access)
  got : Option (List Byte) := none
  /-- Some destination has been written. -/
  begun : Bool := false
  /-- The request to another package it waits for. -/
  remote : Option Nat := none
  deriving DecidableEq, Repr

/-- A copy command (R260 to R278). -/
structure CopyCmd where
  th : Nat
  team : Nat
  core : Nat
  /-- Tile-walk engine: 2 · station + core mod 2. -/
  engine : Nat
  sealId : Nat
  opc : Nat
  /-- Offset of its record in the team's allocation, and the record's CTRL below STATUS. -/
  rec_ : Nat
  ctrl : Nat
  src : End
  dst : End
  /-- Receivers of a multicast (R269). -/
  recvs : List Nat
  rowLen : Nat
  rows : Nat
  spitch : Nat
  dpitch : Nat
  /-- Arrival words its bytes count in: team and offset (R268). -/
  arrs : List (Nat × Nat)
  /-- Declared buffers of its endpoints: team and index. -/
  srcBuf : Option (Nat × Nat)
  dstBufs : List (Nat × Nat)
  /-- Range-lock entries it needs (R275). -/
  entries : List RangeLock
  pts : Nat
  cursor : Nat := 0
  registered : Bool := false
  started : Bool := false
  /-- Stopped at a context switch (R277). -/
  stopped : Bool := false
  /-- Some burst has read `srcBuf`. -/
  reading : Bool := false
  /-- A CPYF has marked its regions (R271). -/
  marked : Bool := false
  /-- STATUS it will end with. -/
  ending : Option Nat := none
  /-- The CPYX that waits for it: its thread with that thread's clause and word. No further burst starts meanwhile. -/
  cancel : Option (Nat × Nat × Nat) := none
  /-- Place in the order in which its engine accepted it. -/
  accepted : Nat := 0
  /-- Bursts started and not counted, in the byte order from CURSOR. -/
  flying : List Burst := []
  deriving DecidableEq, Repr

/-- An open loop level of a feed context (R285). -/
structure FeedLoop where
  start : Nat
  i : Nat
  n : Nat
  deriving DecidableEq, Repr

/-- A feed context (R282 to R291). -/
structure Feed where
  id : Nat
  team : Nat
  gid : Nat
  sealId : Nat
  prog : Nat
  bases : List Nat
  prms : List Nat
  /-- The state codes of R291: 1 running, 2 held, 3 held by a page fault, 4 DONE, 5 STOPPED, 6 BADWORD, 7 FAULT. -/
  state : Nat := 1
  /-- Index from PROG of the current or failing word. -/
  at_ : Nat := 0
  /-- Open levels, innermost first. -/
  loops : List FeedLoop := []
  /-- Strides by 4 · stream + level. -/
  strides : KMap Int := []
  /-- Levels of FLOOP being skipped (R285). -/
  skip : Nat := 0
  /-- Elements of the current FPUSH already pushed. -/
  elem : Nat := 0
  /-- Entries reserved in each queue by FPERMIT. -/
  reserved : KMap Nat := []
  /-- Declared buffers it counts as reading: team and index. -/
  reads : List (Nat × Nat) := []
  pts : Nat
  remote : Option Nat := none
  got : Option (List Byte) := none
  deriving DecidableEq, Repr

/-- A core (R13, R81, R82, R197). -/
structure Core where
  auto : Bool := true
  limit : Nat := 128
  score : Nat := 0
  /-- Groups holding a memory token with the ACLK cycle of the grant, groups waiting, and the round-robin place. -/
  tokens : KMap Nat := []
  waiting : List Nat := []
  tokenNext : Nat := 0
  victims : List Nat := []
  missHits : Nat := 0
  /-- ACLK cycle at which the present locality window began. -/
  windowAt : Nat := 0
  lease : Nat := 64
  /-- Range-lock table by entry number 0 to 31 (R275). -/
  locks : KMap RangeLock := []
  set0 : BankSet := {}
  set1 : BankSet := {}
  /-- Chains that claim each quadrant (R73, R382). -/
  claims : KMap (List Nat) := []
  fenced : Bool := false
  /-- Lines of private windows in each lane's private slice, by 32 · quadrant + lane: thread and line, most recently used
  first (R14, R189). -/
  lanes : KMap (List (Nat × Nat)) := []
  deriving DecidableEq, Repr

/-- A TLB entry: seal, leaf level, page number of that level, and the leaf entry (R181). -/
structure TlbEntry where
  sealId : Nat
  level : Nat
  page : Nat
  entry : Nat
  deriving DecidableEq, Repr

/-- A page walk in progress (R181). -/
structure Walk where
  id : Nat
  sealId : Nat
  va : Nat
  /-- Threads attached, each with its address and kind: 0 load, 1 store or atomic, 2 fetch. -/
  threads : List (Nat × Nat × Nat)
  /-- A TLB invalidation named it while it ran: its result is not kept (R438). -/
  stale : Bool
  /-- Kind of its first access: 0 load, 1 store or atomic, 2 fetch, 3 engine (R467). -/
  kind : Nat := 0
  deriving DecidableEq, Repr

/-- A fault-table entry (R182, R467). -/
structure FaultEntry where
  idx : Nat
  sealId : Nat
  va : Nat
  /-- Kind of the first access (R467). -/
  kind : Nat
  /-- Place of its record in the fault ring. -/
  ringIdx : Nat
  threads : List (Nat × Nat × Nat)
  deriving DecidableEq, Repr

/-- A station (R13). -/
structure Station where
  tlb : List TlbEntry := []
  walks : List Walk := []
  faults : List FaultEntry := []
  bypass : Nat := 0
  deriving DecidableEq, Repr

/-- A private copy of a line (R194): place is a core number, or 320 + station. A line of another package's replicable page is
numbered 2^48 · (1 + package + 4,096 · seal) upwards (R199). -/
structure Copy where
  place : Nat
  line : Nat
  data : List Byte
  wts : Nat
  rts : Nat
  expiry : Nat
  deriving DecidableEq, Repr

/-- A pinned line: level 0 station (with its number) or 1 slice (R214). -/
structure Pin where
  level : Nat
  station : Nat
  line : Nat
  sealId : Nat
  deriving DecidableEq, Repr

/-- Logical time and caches of LPDDR lines (R193, R194, R198, R216, R422). -/
structure Lines where
  wts : KMap Nat := []
  rts : KMap Nat := []
  copies : List Copy := []
  pins : List Pin := []
  /-- Lines dirty at their slice with the writer's seal (R420). -/
  dirty : KMap Nat := []
  /-- Poisoned lines, each with its page's seal (R422). -/
  poison : KMap Nat := []
  slBypass : Nat := 0
  rebases : Nat := 0
  /-- The largest timestamp the latest rebase left (R198; the model's own). -/
  rebaseTop : Nat := 0
  /-- Lines held in each slice's sets, most recently used first (R14, R16). -/
  slices : KMap (List Nat) := []
  /-- Logical time of the strong stores to lines of uncached pages (R202). -/
  sync : KMap Nat := []
  deriving DecidableEq, Repr

/-- A cluster queue (R247). -/
structure Queue where
  en : Bool := false
  sealId : Nat := 0
  entries : List DWord := []
  waiters : List Nat := []
  /-- Logical time each entry's push brought (R195). -/
  pts : List Nat := []
  deriving DecidableEq, Repr

/-- A seal (R418, R459). -/
structure SealEntry where
  /-- 0 FREE, 1 LIVE, 2 ENDING. -/
  state : Nat := 0
  cause : Nat := 0
  ptroot : Nat := 0
  vbase : Nat := 0
  pool : Nat := 0
  poolsz : Nat := 0
  /-- Completion status its grids get: 1, or 2 after ABORT. -/
  status : Nat := 0
  events : Nat := 0
  latest : Option (List Word) := none
  /-- ACLK cycle of watchdog step W2, and the queue whose WDOG governs W3 (R426). -/
  wdAt : Option Nat := none
  wdQueue : Nat := 0
  /-- Areas of its context pool in use: offset and bytes (R189, R304, R357, R416). -/
  areas : KMap Nat := []
  /-- Addresses that have been ray save areas since the seal was made (R357). -/
  rayAreas : List Nat := []
  deriving DecidableEq, Repr

/-- Rings and message marks towards the host (R423, R457, R467, R468). -/
structure Rings where
  /-- Event log by SEQ modulo 256, and the next SEQ. -/
  log : KMap (List Byte) := []
  logSeq : Nat := 0
  /-- Status ring, and STHEAD. -/
  status : KMap (List Byte) := []
  stHead : Nat := 0
  /-- Fault ring, and FLTHEAD. -/
  faults : KMap (List Byte) := []
  fltHead : Nat := 0
  /-- MSI-X vectors with a message not yet covered by a head read, and messages sent per vector. -/
  msiOpen : List Nat := []
  msiSent : KMap Nat := []
  deriving DecidableEq, Repr

/-- A weight-store region (R190). -/
structure Region where
  sealId : Nat := 0
  /-- Grids that have read it and are not complete. -/
  grids : List Nat := []
  /-- The command writing it (R271). -/
  writer : Option Nat := none
  deriving DecidableEq, Repr

/-- Who waits for the reply of a remote request. -/
inductive Requester where
  | thread (th gen seq : Nat)
  /-- A prefetch of a line into a level (R213). -/
  | prefetch (th gen seq level : Nat)
  | command (cmd : Nat)
  | feed (core ctx : Nat)
  | matrix (op : Nat)
  deriving DecidableEq, Repr

/-- A request to another package (R199, R449). -/
structure RemoteReq where
  by_ : Requester
  sealId : Nat
  dest : Nat
  slice : Nat
  /-- Sequence number; none for a weak load or PREF (R451). -/
  num : Option Nat
  off : Nat
  len : Nat
  pts : Nat
  store : List Byte
  atom : Option AtomOp
  sends : Nat
  deriving DecidableEq, Repr

/-- An entry of a slice's duplicate-suppression table (R220). -/
structure Dedup where
  src : Nat
  num : Nat
  /-- Its reply; none while it is still being performed. -/
  reply : Option (List Byte)
  /-- The request, while it waits for a page. -/
  waiting : Option RemoteRequest := none
  /-- The source has acknowledged the reply; the entry stands until the low mark passes it. -/
  acked : Bool := false
  deriving DecidableEq, Repr

/-- The package's place in the load-store domain and its Tsuxus requests (R448 to R452). -/
structure Domain where
  en : Bool := false
  pkg : Nat := 0
  /-- DOMTAB; an unlisted entry reads 0xFF. -/
  table : KMap Nat := []
  /-- Next sequence number by 16 · destination + slice. -/
  seqs : KMap Nat := []
  reqs : KMap RemoteReq := []
  /-- Replies taken and not yet acknowledged: destination, slice, number. -/
  toAck : List (Nat × Nat × Nat) := []
  /-- Duplicate suppression per slice, and low marks by 16 · source + slice. -/
  dedup : KMap (List Dedup) := []
  lowMark : KMap Nat := []
  unreachable : List Nat := []
  /-- Wavelengths up of each fibre, and retransmissions of each fibre pair (R475). -/
  waves : KMap DWord := []
  /-- Check failures of each fibre since bring-up that a run or a read has counted (R452, R475). -/
  checks : KMap Nat := []
  resends : KMap Nat := []
  dropped : Nat := 0
  forwarded : Nat := 0
  deriving DecidableEq, Repr

/-- ERRSTAT counts, quarantined units and injected errors not yet detected (R420, R424, R437). -/
structure ErrorState where
  corr : Nat := 0
  uncorr : Nat := 0
  /-- (structure code, place, first unit entry) withheld from use. -/
  quarantined : List (Nat × Nat × Nat) := []
  /-- Injected errors waiting for the next read of their entry: the entry and whether uncorrectable. -/
  deferred : List (ErrUnit × Bool) := []
  /-- Errors a check has met that their step has not handled yet: entry, uncorrectable, injected. -/
  due : List (ErrUnit × Bool × Bool) := []
  /-- Seals due to end for a read of poison, with cause (R422). -/
  poisonEnds : List Nat := []
  /-- A device-fatal error has been taken (R421). -/
  fatal : Bool := false
  deriving DecidableEq, Repr

/-- A reservation of an armed output: one of two instances of one slice (R383). -/
structure Reserve where
  out : Nat
  /-- The arming it was made at. -/
  arm : Nat
  slice : Nat
  inst : Nat
  core : Nat
  base : Nat
  /-- Bytes of the block. -/
  size : Nat
  threads : Nat
  groups : Nat
  tiles : Nat
  spord : Nat
  /-- Slow-file entries, TEAMN × REGB. -/
  entries : Nat
  /-- The slice's team standing on it. -/
  team : Option Nat
  /-- False while it could not be remade (R383, R427). -/
  present : Bool
  deriving DecidableEq, Repr

/-- Its resources are not free for others by themselves: its team stands on them, or it has none. -/
def Reserve.inPlace (r : Reserve) : Bool := r.team.isSome || !r.present

end Sys2Proof.Machine
end

