-- ==== Sys2Proof/Machine/Units.lean ====
section
/-!
DEFINITION. The records of the raster and stipple units, the ray units, the outputs, the reservoir, Ductus and the
encode pipes.
-/
namespace Sys2Proof.Machine

/-! ### Rays (R345 to R357) -/

/-- A candidate or committed hit: FP32 words t, u, v, and what it hit. -/
structure RayHit where
  t : Nat
  u : Nat
  v : Nat
  prim : Nat
  geom : Nat
  kind : Nat
  instId : Nat
  /-- Address of the item. -/
  addr : Nat
  deriving DecidableEq, Repr

/-- The object space a traversal is in: instance identity, its SBTOFF, and the transformed ray (R351). -/
structure RaySpace where
  instId : Nat
  sbtOff : Nat
  o : List Nat
  d : List Nat
  deriving DecidableEq, Repr

/-- A pending child, or the rest of a leaf: its KIND, address, items left, entry distance to test, and node depth. -/
structure RayEntry where
  kind : Nat
  addr : Nat
  count : Nat
  te : Option Nat
  depth : Nat
  space : Option RaySpace
  deriving DecidableEq, Repr

/-- A callback a parked ray waits for (R354). -/
structure RayCall where
  /-- An intersection callback; else any-hit. -/
  isect : Bool
  hit : RayHit
  code : Nat
  budget : Nat
  privKb : Nat
  map : Nat
  arg : Nat
  /-- Origin and direction in the space of the candidate's tree. -/
  o : List Nat
  d : List Nat
  /-- The callback thread, once started. -/
  th : Option Nat := none
  deriving DecidableEq, Repr

/-- A ray (R345, R346). -/
structure Ray where
  owner : Nat
  slot : Nat
  gen : Nat
  words : List Word
  /-- 0 IDLE, 1 RUNNING, 2 PARKED, 3 DONE. -/
  state : Nat := 0
  /-- Status of R353: 14 while never launched. -/
  status : Nat := 14
  hit : Option RayHit := none
  calls : Nat := 0
  tb : Nat := 0
  stack : List RayEntry := []
  call : Option RayCall := none
  pts : Nat := 0
  /-- Base of the free values its open result fields read (the model's own). -/
  draw : Nat := 0
  /-- Its save area while its owner is evicted (R357). -/
  save : Option Nat := none
  deriving DecidableEq, Repr

/-! ### Raster and stipple passes (R321 to R344) -/

/-- The fields of a pass record (R321). -/
structure PassRecord where
  bins : Nat
  pool : Nat
  chunks : Nat
  npool : Nat
  nchunk : Nat
  ring : Nat
  cmt : Bool
  kind : Nat
  width : Nat
  frame : Nat
  strip0 : Nat
  nstrip : Nat
  sh : Nat
  nsub : Nat
  clear : Nat
  opthr : Nat
  deriving DecidableEq, Repr

/-- A fragment (R328): its cell's origin, primitive index, coverage, rung, and tile. -/
structure Frag where
  tile : Nat
  x : Nat
  y : Nat
  prim : Nat
  mask : Nat
  rung : Nat
  deriving DecidableEq, Repr

/-- A tile of a closed raster pass. -/
structure RasterTile where
  /-- Owner of each pixel: 1 + the primitive index, 0 for none. -/
  own : List Nat
  /-- Fragments formed at the first handout, and how many have been handed out. -/
  frags : Option (List Frag) := none
  handed : Nat := 0
  done : Bool := false
  /-- Colours written so far, by pixel. -/
  px : KMap Nat := []
  deriving DecidableEq, Repr

/-- A request for a fragment that waits: the thread and its operation's number (R339). -/
structure FragWait where
  th : Nat
  seq : Nat
  deriving DecidableEq, Repr

/-- A raster or stipple pass (R322). -/
structure Pass where
  /-- Address of its record: generic and physical. -/
  va : Nat
  pa : Nat
  sealId : Nat
  station : Nat
  slot : Nat
  r : PassRecord
  pts : Nat
  /-- The 64-byte records in the pool, in index order. -/
  prims : List (List Byte) := []
  /-- Entries of each bin, and the chunks it has, by strip · TPS + tile. -/
  bins : KMap (List Nat) := []
  chains : KMap (List Nat) := []
  chused : Nat := 0
  ovf : Bool := false
  fault : Bool := false
  closing : Bool := false
  /-- The bin words of its empty bins are among its writes (R324). -/
  zeroed : Bool := false
  closed : Bool := false
  finished : Bool := false
  nend : Nat := 0
  ended : List Nat := []
  /-- Writes of the unit not performed yet (R324). -/
  writes : List (Nat × List Byte) := []
  tiles : KMap RasterTile := []
  /-- Next tile and next fragment number of each strip. -/
  next : KMap (Nat × Nat) := []
  /-- Waiting requests of each strip, oldest first. -/
  waits : KMap (List FragWait) := []
  /-- Outstanding handles: strip · 2^19 + fragment number, with the fragment and its thread. -/
  out : KMap (Frag × Nat) := []
  /-- Stipple tiles that overflowed, and tiles run, by strip · TPS + tile. -/
  over_ : List Nat := []
  run : List Nat := []
  /-- STIPRUNs waiting for the pass to close: thread, operation number, strip · TPS + tile. -/
  runs : List (Nat × Nat × Nat) := []
  deriving DecidableEq, Repr

/-- A thread's stipple result: station of its unit, and (R, G, B, T) of each pixel (R335). -/
structure StipResult where
  station : Nat
  px : List (Nat × Nat × Nat × Nat)
  deriving DecidableEq, Repr

/-! ### Outputs, reservoir and Ductus (R371 to R390) -/

/-- Locked parameters of an armed output (R371 to R373). -/
structure Video where
  forigin : Nat
  lper : Nat
  tlines : Nat
  vstart : Nat
  vact : Nat
  hact : Nat
  guard : Nat
  window : Nat
  ring : Nat
  sh : Nat
  chain : Nat
  factor : Nat
  halo : Nat
  loring : Nat
  keyint : Nat
  qbase : Nat
  tenb : Bool
  /-- Strips of the low-resolution frame, as found at arming (R388). -/
  loStrips : Nat := 0
  deriving DecidableEq, Repr

/-- A slice entry of a chain template (R381). -/
structure SliceEntry where
  kaddr : Nat
  args : Nat
  teamn : Nat
  groups : Nat
  sflags : Nat
  spord : Nat
  tiles : Nat
  regb : Nat
  afterSl : Nat
  budget : Nat
  dloff : Nat
  deriving DecidableEq, Repr

/-- A chain template (R380). -/
structure Template where
  sealId : Nat
  map : Nat
  /-- Core and quadrant mask of each claim. -/
  claims : List (Nat × Nat)
  slices : List SliceEntry
  bsbase : Nat
  bssize : Nat
  deriving DecidableEq, Repr

/-- FILL, FILLM, FLOOR and BASE of a frame (R372). -/
structure FrameSet where
  arm : Nat
  frame : Nat
  fill : Nat
  fillm : Bool
  floor : Nat
  base : Nat
  deriving DecidableEq, Repr

/-- The strips an output takes: those of an arming, from `next` on; of a disarmed one up to the frame `stop` (R375). -/
structure Scan where
  arm : Nat
  video : Video
  sealId : Nat
  next : Nat × Nat
  stop : Option Nat
  deriving DecidableEq, Repr

/-- An output (R371 to R376). -/
structure Output where
  /-- Stored words by offset, CTL without ARM, LINK and ERR. -/
  regs : KMap Nat := []
  armed : Bool := false
  link : Bool := false
  err : Nat := 0
  drops : Nat := 0
  misses : Nat := 0
  frame : Nat := 0
  lastCmt : Nat := 0
  /-- Armings so far; each has its own reservations and chains. -/
  arming : Nat := 0
  video : Option Video := none
  tpl : Option Template := none
  /-- Next chain to admit: frame and 1 + k. -/
  nextChain : Nat × Nat := (0, 0)
  /-- The strips it takes, those of an earlier arming first. -/
  scans : List Scan := []
  /-- Register values held for the frames in progress. -/
  sets : List FrameSet := []
  /-- The pixels it sent for its latest strip, and the last line it sent. -/
  sent : List Word := []
  lastLine : List Word := []
  /-- After a retraining video resumes at line 0 of that frame (R376). -/
  resumeAt : Option Nat := none
  /-- The latest chain Ductus has woken channels for: frame and 1 + k (R382). -/
  woken : Option (Nat × Nat) := none
  deriving DecidableEq, Repr

/-- A slot of a ring (R378): state 0 FREE, 1 RENDER, 2 COMMITTED, 3 SCANNING. -/
structure Slot where
  state : Nat := 0
  frame : Nat := 0
  strip : Nat := 0
  fill : Nat := 0
  /-- Pixels that differ from `fill`, by index. -/
  px : KMap Nat := []
  /-- While SCANNING: the time at which it is released. -/
  until_ : Nat := 0
  /-- Seal whose chain renders it. -/
  sealId : Nat := 0
  /-- Logical time of the commit (R397). -/
  pts : Nat := 0
  deriving DecidableEq, Repr

/-- A reservoir ring (R377). -/
structure Ring where
  en : Bool := false
  w0 : Nat := 0
  w4 : Nat := 0
  bswr : Nat := 0
  bsrd : Nat := 0
  /-- Logical time of the stores the last advance of BSWR publishes (R390). -/
  bsPts : Nat := 0
  slots : KMap Slot := []
  deriving DecidableEq, Repr

/-- A slice of a chain: its team while placed, and whether it has ended (R382). -/
structure ChainSlice where
  team : Option Nat := none
  job : Option Nat := none
  ended : Bool := false
  deriving DecidableEq, Repr

/-- An admitted chain (R382). -/
structure Chain where
  out : Nat
  /-- The arming it belongs to, and that arming's parameters. -/
  arm : Nat
  video : Video
  frame : Nat
  /-- Strip, −1 for the chain before strip 0. -/
  k : Int
  /-- Place in the output's sequence of chains. -/
  seqNo : Nat
  t : Nat
  f : Nat
  s : Nat
  sealId : Nat
  tpl : Template
  /-- Low-resolution strip it renders. -/
  lo : Option Nat
  slices : List ChainSlice
  pts : Nat
  deriving DecidableEq, Repr

/-- A job slice (R384 to R386). -/
structure Job where
  team : Nat
  chain : Option Nat
  idx : Nat
  out : Nat
  frame : Nat
  strip : Int
  deadline : Option Nat
  budget : Nat
  count : Nat := 0
  budgetTold : Bool := false
  deadlineTold : Bool := false
  deriving DecidableEq, Repr

/-- Ladder state of a strip of a ring rendered by an admitted chain (R387). -/
structure Ladder where
  ring : Nat
  frame : Nat
  strip : Nat
  rung : Nat
  base : Nat
  floor : Nat
  finish : Nat
  total : Nat
  done : Nat := 0
  t0 : Option Nat := none
  deriving DecidableEq, Repr

/-- An AV1 encode pipe from an arming until its last temporal unit is closed (R375, R389, R390). -/
structure Pipe where
  /-- 64 KiB units of the reference store and reservoir pages it holds (R389). -/
  units : Nat := 0
  pages : List Nat := []
  video : Video
  tpl : Template
  /-- Its output is disarmed. -/
  closing : Bool := false
  /-- Row buffer: the pixels copied and not coded yet, in scan order. -/
  buf : List Word := []
  /-- The headers and tiles coded of the frame in progress. -/
  seqHead : List Byte := []
  head : List Byte := []
  tiles : List (List Byte) := []
  /-- Reconstructed samples of the frame in progress, and of the last frame coded: LAST_FRAME. -/
  recon : List Nat := []
  ref : List Nat := []
  /-- Frames finished since the arming; the frame in progress is a key frame out of turn, and so is the next one. -/
  frames : Nat := 0
  forceKey : Bool := false
  keyNext : Bool := false
  deriving DecidableEq, Repr

/-- A chain's strip on a ring: its slot, strip number, and T of its output strip. -/
structure StripOn where
  ring : Nat
  slot : Nat
  strip : Nat
  t : Nat
  output : Bool
  deriving DecidableEq, Repr

/-- A commit that waits for its buffer: thread, team, output, frame, strip, the buffer's index, and its logical time (R397). -/
structure Commit where
  th : Nat
  team : Nat
  out : Nat
  frame : Nat
  strip : StripOn
  buf : Nat
  pts : Nat
  deriving DecidableEq, Repr

/-! ### The device around the cores (R17 to R20, R368 to R370, R446, R453 to R470) -/

/-- The discipline of the time counter (R369, R370). -/
structure Tlock where
  offs : Int := 0
  domain : Nat := 0
  pps : Bool := false
  prof : Bool := false
  /-- 0 FREERUN, 1 ACQUIRE, 2 LOCKED, 3 HOLDOVER. -/
  state : Nat := 0
  /-- Elapsed units at the last PPS edge and at the last timestamp record. -/
  lastPps : Nat := 0
  lastStamp : Nat := 0
  /-- PPS edges in a row with |OFFS| ≤ 20. -/
  good : Nat := 0
  /-- t1 to t4 of the latest record of PTPIN (R465). -/
  stamps : List Nat := []
  deriving DecidableEq, Repr

/-- Power state and capping (R17 to R20). -/
structure Power where
  /-- 4 BRINGUP, 3 RECOVERY, 2 STANDBY; 0 while running, ACTIVE or IDLE as threads and chains stand. -/
  state : Nat := 4
  /-- Ductus has left IDLE ahead of a strip (R18). -/
  early : Bool := false
  stby : Bool := false
  limit : Nat := 2900
  /-- Steps of R20 in force: 1 matrix delay, 2 to 10 ACLK steps, 11 issue duty-cycled, 12 chains too. -/
  level : Nat := 0
  pkgw : Nat := 0
  deriving DecidableEq, Repr

/-- A Damlan home channel (R446). -/
structure Channel where
  /-- 0 AWAKE, 1 PARKED, 2 WAKING, 3 PARKING. -/
  state : Nat := 0
  thr : Nat := 0
  /-- Elapsed units when the wake began, and whether the retune has ended. -/
  since : Nat := 0
  tuned : Bool := false
  /-- Times the optical token has passed on: its holder is the sender at that place of the ring (R442). -/
  token : Nat := 0
  /-- Chains Ductus has begun a wake for: output, frame, 1 + k. -/
  wakes : List (Nat × Nat × Nat × Nat) := []
  deriving DecidableEq, Repr

/-- A grid of a graph run that is complete (R461). -/
structure TaskDone where
  run : Nat
  task : Nat
  status : Nat
  pts : Nat
  deriving DecidableEq, Repr

/-- A run of a graph (R461, R462). -/
structure GraphRun where
  /-- The run's own number. -/
  id : Nat
  tag : Nat
  notify : Bool
  launched : List Nat := []
  ended : List Nat := []
  /-- Ended early: no further task is launched. -/
  failed : Bool := false
  /-- Largest logical time its completed grids brought. -/
  pts : Nat := 0
  deriving DecidableEq, Repr

/-- A graph defined by an UPLOAD (R458, R460): its image stands in scheduler memory. -/
structure Graph where
  sealId : Nat
  off : Nat
  len : Nat
  run : Option GraphRun := none
  deriving DecidableEq, Repr

/-- An invalidation of translations the host has started (R439). -/
structure TlbRun where
  scope : Nat
  sealId : Nat
  va : Nat
  deriving DecidableEq, Repr

/-- What a disabled ring's slot, or a page lent to an encoder reference, leaves in its reservoir pages (R377, R389, R470):
pixels, or, of a reference, whose form no rule states, bytes that are free values from a draw on. -/
structure Remnant where
  page : Nat
  pixels : Nat
  fill : Nat := 0
  px : KMap Nat := []
  reference : Option Nat := none
  deriving DecidableEq, Repr

/-- Device-level state. -/
structure Device where
  power : Power := {}
  tlock : Tlock := {}
  /-- Units of the time counter that have passed since reset, steps by TIMESET apart. -/
  mono : Nat := 0
  /-- Bring-up stage, its failure code, and the elapsed units when it began (R455, R469). -/
  stage : Nat := 1
  fail : Nat := 0
  stageAt : Nat := 0
  fwver : Nat := 0
  /-- Decode tables the firmware image has installed under numbers 0 to 2 (R45, R428). -/
  maps : KMap (List Nat) := []
  /-- The firmware slot; what the host has written to the staging window, which is the first 32 MiB of the reservoir; and what
stands over it from rings and references since, latest first (R470). -/
  firmware : List Byte := []
  staging : Memory := []
  remnants : List Remnant := []
  /-- Commands accepted and not carried out, oldest first; the first is begun; commands carried out (R456). -/
  commands : List (List Byte) := []
  begun : Bool := false
  carried : Nat := 0
  /-- The RESYNC summary and the attestation report as last written. -/
  summary : List Byte := []
  report : List Byte := []
  reports : Nat := 0
  graphs : KMap Graph := []
  channels : KMap Channel := []
  /-- Quality-of-service frames begun, and which the latest of them is on the time counter (R443). -/
  qframe : Nat := 0
  frameAt : Nat × Nat := (0, 0)
  /-- What the host's last read of a head register gave. -/
  answer : Nat := 0
  /-- Weight-store banks in their refresh window (R191). -/
  refresh : List Nat := []
  /-- WDOG words that differ from their reset value (R425). -/
  wdog : KMap Nat := []
  valo : Nat := 0
  vahi : Nat := 0
  tlbRun : Option TlbRun := none
  deriving DecidableEq, Repr

end Sys2Proof.Machine
end

