-- ==== Sys2Proof/Machine/State.lean ====
section
/-!
DEFINITION. The machine state, the state after reset, and the named stops.
-/
namespace Sys2Proof.Machine

/-- Who takes the next step. -/
inductive Pick where
  /-- A thread issues its next word, or passes its next clause header. -/
  | thread (th : Nat)
  /-- A feed context runs its next access-slice word: core and context. -/
  | feed (core ctx : Nat)
  /-- A unit, link or host step of the opcode table. -/
  | event (i : Instr)
  /-- Time passes: units of the time counter, and ACLK cycles. -/
  | tick (units aclk : Nat)
  deriving DecidableEq, Repr

/-- Why the machine stops. -/
inductive Fault where
  /-- Raised by `exec` on a thread word when no thread is the current one. Safe: the spec gives a word no meaning
  outside a thread, and `step` never dispatches one so. -/
  | noThread
  /-- Raised by `exec` on an access-slice word when no feed context is the current one. Safe, as above. -/
  | noFeed
  deriving DecidableEq, Repr

/-- Why the model refuses. -/
inductive Refusal where
  /-- Raised by `exec` on an instruction that has no meaning yet. Safe: nothing is claimed of it. -/
  | notModelled (mnemonic : String)
  deriving DecidableEq, Repr

/-- The machine. -/
structure State where
  /-- Steps chosen from outside, first one first; when empty the model's own rule chooses. -/
  agenda : List Pick := []
  /-- Thread or feed context whose word is being issued. -/
  cur : Option Nat := none
  curFeed : Option (Nat × Nat) := none
  /-- Time counter units and ACLK cycles since bring-up. -/
  tnow : Nat := 0
  aclk : Nat := 0
  /-- Next number for a thread, team, grid, command, pass, ray or chain: no number is used twice. -/
  nextId : Nat := 1
  mem : Memory := []
  weight : Memory := []
  lines : Lines := {}
  threads : KMap Thread := []
  teams : KMap Team := []
  grids : KMap Grid := []
  cores : KMap Core := []
  stations : KMap Station := []
  /-- Last queue each cluster's dispatcher took a grid from (R65). -/
  dispatch : KMap Nat := []
  queues : KMap Queue := []
  /-- Live copy commands, in the order they were accepted (R260). -/
  copies : KMap CopyCmd := []
  /-- Tile and matrix operations not complete, in the order they entered (R296). -/
  mtx : KMap MtxOp := []
  /-- Accesses of ended threads still to be performed, oldest first (R105). -/
  heirs : List Heir := []
  /-- Feed contexts by 8 · core + number (R282). -/
  feeds : KMap Feed := []
  /-- Distinct decode tables that contexts ran under, in order (R428). -/
  measured : List DecodeTable := []
  /-- Reservations of armed outputs (R383). -/
  reserves : List Reserve := []
  /-- Graph tasks whose grids are complete and that the graph has not taken up yet (R461). -/
  tasksDone : List TaskDone := []
  rays : KMap Ray := []
  /-- Raster and stipple passes: live ones, and the last finished one of a record (R322). -/
  passes : KMap Pass := []
  /-- Stipple results by thread (R335). -/
  stips : KMap StipResult := []
  outputs : KMap Output := []
  /-- Reservoir rings (R377). -/
  reservoir : KMap Ring := []
  /-- Chains admitted and not ended (R382), and job slices (R384). -/
  chains : KMap Chain := []
  jobs : KMap Job := []
  ladders : List Ladder := []
  /-- Commits of strips from buffers that are not ready, by operation (R397). -/
  commits : KMap Commit := []
  pipes : KMap Pipe := []
  /-- Scheduler memory and the seal each 64-byte entry is tagged with (R380, R458). -/
  sched : Memory := []
  schedTags : KMap Nat := []
  /-- The model's own: draws of free values made so far. -/
  draws : Nat := 0
  seals : KMap SealEntry := []
  rings : Rings := {}
  domain : Domain := {}
  regions : KMap Region := []
  errors : ErrorState := {}
  dev : Device := {}
  deriving DecidableEq, Repr

/-- The state after reset. -/
def State.reset : State := {}

end Sys2Proof.Machine
end

