-- ==== Sys2Proof/Machine/Regs.lean ====
section
/-!
DEFINITION. Named reads and updates of threads, teams, cores and stations, and of a thread's registers.
-/
namespace Sys2Proof.Machine

/-! ### Threads and units -/

/-- The thread of that number. -/
def thread? (s : State) (t : Nat) : Option Thread := kget? s.threads t

/-- Put a thread's record back. -/
def setThread (s : State) (t : Nat) (th : Thread) : State := { s with threads := kset s.threads t th }

/-- Change a thread's record, where the thread lives. -/
def modThread (s : State) (t : Nat) (f : Thread → Thread) : State := { s with threads := kmod s.threads t f }

/-- Quarantined entries of a structure at a place (R420). -/
def lostEntries (s : State) (code place : Nat) : Nat :=
  (s.errors.quarantined.filter (fun e => e.1 == code && e.2.1 == place)).length

/-- Key of a group's port, tile or bitmap register. -/
def gkey (gid i : Nat) : Nat := 8 * gid + i

/-- A thread's logical time. -/
def ptsOf (s : State) (t : Nat) : Nat := ((thread? s t).map (·.pts)).getD 0

/-- The team of that number. -/
def team? (s : State) (i : Nat) : Option Team := kget? s.teams i

/-- Change a team's record, where the team lives. -/
def modTeam (s : State) (i : Nat) (f : Team → Team) : State := { s with teams := kmod s.teams i f }

/-- The grid of that number. -/
def grid? (s : State) (i : Nat) : Option Grid := kget? s.grids i

/-- Change a grid's record. -/
def modGrid (s : State) (i : Nat) (f : Grid → Grid) : State := { s with grids := kmod s.grids i f }

/-- A core; one that is not listed stands as after reset. -/
def core (s : State) (c : Nat) : Core := kgetD s.cores c {}

/-- Change a core. -/
def modCore (s : State) (c : Nat) (f : Core → Core) : State := { s with cores := kset s.cores c (f (core s c)) }

/-- A station; one that is not listed stands as after reset. -/
def station (s : State) (i : Nat) : Station := kgetD s.stations i {}

/-- Change a station. -/
def modStation (s : State) (i : Nat) (f : Station → Station) : State :=
  { s with stations := kset s.stations i (f (station s i)) }

/-- The seal-table entry of a seal. -/
def sealOf (s : State) (i : Nat) : SealEntry := kgetD s.seals i {}

/-- Change a seal-table entry. -/
def modSeal (s : State) (i : Nat) (f : SealEntry → SealEntry) : State :=
  { s with seals := kset s.seals i (f (sealOf s i)) }

/-- A seal is LIVE (R418); seal 0 always is. -/
def sealLive (s : State) (i : Nat) : Bool := i == 0 || (sealOf s i).state == 1

/-- The core a thread's team stands on. -/
def coreOf (s : State) (th : Thread) : Nat := ((team? s th.team).map (·.core)).getD 0

/-- Station of a core (R13). -/
def stationOf (c : Nat) : Nat := c / 16

/-- Threads of a team that have not ended. -/
def teamThreads (s : State) (tm : Nat) : KMap Thread := s.threads.filter (fun p => p.2.team == tm)

/-- The live thread of a team with that %tid. -/
def threadOfTid (s : State) (tm tid : Nat) : Option Nat :=
  (s.threads.find? (fun p => p.2.team == tm && p.2.tid == tid)).map (·.1)

/-- The live thread of a group with that %mid. -/
def threadOfMid (s : State) (tm gid mid : Nat) : Option Nat :=
  (s.threads.find? (fun p => p.2.team == tm && p.2.gid == gid && p.2.mid == mid)).map (·.1)

/-- Change a tile or matrix operation. -/
def modMtx (s : State) (i : Nat) (f : MtxOp → MtxOp) : State := { s with mtx := kmod s.mtx i f }

/-- Change a ray. -/
def modRay (s : State) (i : Nat) (f : Ray → Ray) : State := { s with rays := kmod s.rays i f }

/-- Change a pass. -/
def modPass (s : State) (i : Nat) (f : Pass → Pass) : State := { s with passes := kmod s.passes i f }

/-- An output; one that is not listed stands as after reset. -/
def output (s : State) (o : Nat) : Output := kgetD s.outputs o {}

/-- Change an output. -/
def modOutput (s : State) (o : Nat) (f : Output → Output) : State :=
  { s with outputs := kset s.outputs o (f (output s o)) }

/-- A reservoir ring; one that is not listed stands as after reset. -/
def ringOf (s : State) (r : Nat) : Ring := kgetD s.reservoir r {}

/-- Change a reservoir ring. -/
def modRing (s : State) (r : Nat) (f : Ring → Ring) : State := { s with reservoir := kset s.reservoir r (f (ringOf s r)) }

/-- Change a job slice. -/
def modJob (s : State) (i : Nat) (f : Job → Job) : State := { s with jobs := kmod s.jobs i f }

/-- Take free draws: the first of `n`. -/
def draw (s : State) (n : Nat) : Nat × State := (s.draws, { s with draws := s.draws + n })

/-- Take a fresh number. -/
def fresh (s : State) : Nat × State := (s.nextId, { s with nextId := s.nextId + 1 })

/-! ### General registers (R43, R72) -/

/-- The value of a register; an unmapped one reads 0. -/
def Thread.reg (th : Thread) (r : Nat) : Word := kgetD th.regs r 0

/-- A register is mapped. -/
def Thread.mapped (th : Thread) (r : Nat) : Bool := (kget? th.regs r).isSome

/-- A 64-bit pair, by its low register (R3). -/
def Thread.reg64 (th : Thread) (r : Nat) : Nat := (th.reg r).toNat + 2 ^ 32 * (th.reg (r + 1)).toNat

/-- Write a register, mapping its name. -/
def Thread.setReg (th : Thread) (r : Nat) (v : Word) : Thread := { th with regs := kset th.regs r v }

/-- Write several registers in order. -/
def Thread.setRegs (th : Thread) (ws : List (Nat × Word)) : Thread :=
  ws.foldl (fun t w => t.setReg w.1 w.2) th

/-- Unmap registers. -/
def Thread.unmap (th : Thread) (rs : List Nat) : Thread :=
  { th with regs := th.regs.filter (fun p => !rs.contains p.1) }

/-- Map registers: those that were unmapped hold 0 (R72). -/
def Thread.mapNames (th : Thread) (rs : List Nat) : Thread :=
  { th with regs := rs.foldl (fun m r => if (kget? m r).isSome then m else kset m r 0) th.regs }

/-- Map long-latency destinations: they hold 0 until written when they were unmapped, and are pending (R32, R72). -/
def Thread.mapPending (th : Thread) (rs : List Nat) : Thread :=
  { th.mapNames rs with pend := rs.foldl insertNew th.pend }

/-- The footprint (R72). -/
def Thread.footprint (th : Thread) : Nat := th.regs.length

/-- A predicate (R42). -/
def Thread.pred (th : Thread) (i : Nat) : Bool := th.preds.testBit i

/-- Write a predicate. -/
def Thread.setPred (th : Thread) (i : Nat) (v : Bool) : Thread :=
  { th with preds := if v then th.preds ||| 2 ^ i else if th.preds.testBit i then th.preds ^^^ 2 ^ i else th.preds }

/-- System mode (R404): while a handler runs, or for a thread of seal 0, or restored by RTE from PMODE. -/
def Thread.system (th : Thread) : Bool := th.sysMode || th.trap.tactive || th.sealId == 0

/-- An event counter's value (R26). -/
def Thread.counter (th : Thread) (i : Nat) : Nat := kgetD th.ec i 0

/-- Raise an event counter; 6 and above stand for none. -/
def Thread.raise (th : Thread) (i : Nat) : Thread :=
  if i < 6 then { th with ec := kset th.ec i (th.counter i + 1) } else th

/-- Lower an event counter. -/
def Thread.lower (th : Thread) (i : Nat) : Thread :=
  if i < 6 then { th with ec := kset th.ec i (th.counter i - 1) } else th

/-- Home lane and quadrant (R61). -/
def Thread.lane (th : Thread) : Nat := th.mid % 32

/-- The quadrant of the core (R61). -/
def Thread.quadrant (th : Thread) : Nat := th.gid % 4

/-- Take a logical time brought by an event (R195). -/
def Thread.takePts (th : Thread) (p : Nat) : Thread := { th with pts := Nat.max th.pts p }

/-- The instruction word standing at the thread's next index, 0 outside a clause. -/
def Thread.rawWord (th : Thread) : Word :=
  match th.clause with
  | none => 0
  | some c => if th.word = 0 then 0 else wordN (nthD c.words (th.word - 1) 0)

/-! ### Ligatures (R83) -/

/-- A ligature of a group. -/
def Team.lig (tm : Team) (gid l : Nat) : Ligature := kgetD tm.ligatures (16 * gid + l) {}

/-- Put a ligature back. -/
def Team.setLig (tm : Team) (gid l : Nat) (g : Ligature) : Team :=
  { tm with ligatures := kset tm.ligatures (16 * gid + l) g }

/-- Set one bit of a 64-bit mask. -/
def setBit (m : DWord) (i : Nat) : DWord := m ||| BitVec.ofNat 64 (2 ^ i)

/-- Clear one bit of a 64-bit mask. -/
def clearBit (m : DWord) (i : Nat) : DWord := m &&& ~~~ (BitVec.ofNat 64 (2 ^ i))

/-- A barrier of a team. -/
def Team.barrier (tm : Team) (i : Nat) : Barrier := kgetD tm.barriers i {}

/-- The declared buffer of that index. -/
def Team.buffer? (tm : Team) (i : Nat) : Option Buffer := tm.buffers.find? (fun b => b.idx == i)

/-- Change the declared buffer of that index. -/
def Team.modBuffer (tm : Team) (i : Nat) (f : Buffer → Buffer) : Team :=
  { tm with buffers := tm.buffers.map (fun b => if b.idx == i then f b else b) }

/-- The declared buffer holding an offset. -/
def Team.bufferAt (tm : Team) (off : Nat) : Option Buffer :=
  tm.buffers.find? (fun b => decide (b.base ≤ off) && decide (off < b.base + b.extent))

/-- The declared arrival word holding an offset. -/
def Team.arrivalAt (tm : Team) (off : Nat) : Option Arrival :=
  tm.arrivals.find? (fun a => decide (a.off ≤ off) && decide (off < a.off + 16))

/-- Bytes of the team's allocation (R183); a callback's team has none (R354). -/
def Team.spadSize (tm : Team) : Nat := if tm.callbackOf.isSome then 0 else 1024 * 2 ^ tm.spord

end Sys2Proof.Machine
end

