-- ==== Sys2Proof/Machine/Log.lean ====
section
/-!
DEFINITION. Records written towards the host: the event log, the fault ring and their messages (R423, R467, R468).
-/
namespace Sys2Proof.Machine

/-- A record was written on a vector: one message covers all until the head is read (R468). -/
def signal (s : State) (vec : Nat) : State :=
  if s.rings.msiOpen.contains vec then s
  else { s with rings := { s.rings with
    msiOpen := vec :: s.rings.msiOpen, msiSent := kset s.rings.msiSent vec (kgetD s.rings.msiSent vec 0 + 1) } }

/-- The fields of an event record (R423) besides TIME and SEQ. -/
structure EventRec where
  kind : Nat
  struct : Nat := 0
  sealId : Nat := 0
  index : Nat := 0
  syndrome : Nat := 0
  extra : Nat := 0
  deriving DecidableEq, Repr

/-- The 32 bytes of an event record (R423). -/
def EventRec.bytes (r : EventRec) (time seq : Nat) : List Byte :=
  leBytes 1 r.kind ++ leBytes 1 r.struct ++ leBytes 2 (r.sealId % 1024) ++ leBytes 4 r.index ++ leBytes 8 time
    ++ leBytes 8 r.syndrome ++ leBytes 4 r.extra ++ leBytes 4 seq

/-- The eight words of a record of bytes. -/
def wordsOf : Nat → List Byte → List Word
  | 0, _ => []
  | n + 1, l => wordN (leNat (l.take 4)) :: wordsOf n (l.drop 4)

/-- Write an event record, count it for its seal, and notify the host (R423, R434). -/
def logEvent (s : State) (r : EventRec) : State :=
  let seq := s.rings.logSeq
  let bs := r.bytes s.tnow seq
  let s := { s with rings := { s.rings with
    log := kset s.rings.log (seq % 256) bs, logSeq := (seq + 1) % 2 ^ 32 } }
  let s := modSeal s r.sealId (fun e =>
    { e with events := sat (e.events + 1) (2 ^ 32 - 1), latest := some (wordsOf 8 bs) })
  signal s 1

/-- The 16 bytes of a fault record (R467). -/
def faultBytes (addr sealId st idx kind : Nat) : List Byte :=
  leBytes 8 addr ++ leBytes 2 sealId ++ leBytes 1 st ++ leBytes 1 idx ++ leBytes 1 kind ++ leBytes 3 0

/-- Write a fault record at FLTHEAD; answers its place in the ring (R467). -/
def logFault (s : State) (addr sealId st idx kind : Nat) : Nat × State :=
  let h := s.rings.fltHead
  let s := { s with rings := { s.rings with
    faults := kset s.rings.faults h (faultBytes addr sealId st idx kind), fltHead := (h + 1) % 1280 } }
  (h, signal s 2)

end Sys2Proof.Machine
end

