-- ==== Sys2Proof/Machine/Memory.lean ====
section
/-!
DEFINITION. Memory: windows, translation, the checks of R209, and accesses performed at their homes (R175 to R206).
-/
namespace Sys2Proof.Machine

/-- A step that does not complete an instruction: a trap to deliver, or a state in which the thread is held. -/
inductive Stop where
  | trap (cause : Nat) (i0 i1 i2 i3 : Word)
  | held (s : State)
  deriving Repr

/-- What an access does (R180, R182, R185, R276). -/
inductive AccKind where
  | load
  | store
  /-- An atomic or exact-cell update: a store that also reads. -/
  | update
  /-- An atomic that traps WEIGHT_WRITE in window 0xF3 (R190, R217). -/
  | atomic
  /-- A store whose entry does not accept window 0xF3: XCLR and ACCSPL (R190, R217, R230, R317). -/
  | put
  | fetch
  deriving DecidableEq, Repr

/-- The access needs W (R180). -/
def AccKind.writes : AccKind → Bool
  | .store | .update | .atomic | .put => true
  | .load | .fetch => false

/-- The access reads granules (R183). -/
def AccKind.reads : AccKind → Bool
  | .load | .update | .atomic | .fetch => true
  | .store | .put => false

/-- Kind code of R182. -/
def AccKind.code : AccKind → Nat
  | .load => 0
  | .store | .update | .atomic | .put => 1
  | .fetch => 2

/-! ### Trap informations -/

def causeIllegalOp : Nat := 0x01
def causeClauseForm : Nat := 0x02
def causePriv : Nat := 0x03
def causeRegBudget : Nat := 0x04
def causeRetEmpty : Nat := 0x05
def causeLigature : Nat := 0x06
def causePendingRead : Nat := 0x07
def causePageFault : Nat := 0x10
def causeAccess : Nat := 0x11
def causeMisaligned : Nat := 0x12
def causeSpadExtent : Nat := 0x13
def causeSpadState : Nat := 0x14
def causeRangeLock : Nat := 0x15
def causeWeightWrite : Nat := 0x16
def causeOvershoot : Nat := 0x17
def causeFpNan : Nat := 0x18
def causeFormatDiverge : Nat := 0x20
def causeMatrixNan : Nat := 0x21
def causeTileFormat : Nat := 0x22
def causeBudget : Nat := 0x30
def causeDeadline : Nat := 0x31
def causeWatchdog : Nat := 0x32
def causeBadRay : Nat := 0x40
def causeSealedErr : Nat := 0x50
def causeTrapInsn : Nat := 0x60
def causeBreak : Nat := 0x61

/-- Low and high words of an address. -/
def loW (a : Nat) : Word := wordN (a % 2 ^ 32)
/-- High word of an address. -/
def hiW (a : Nat) : Word := wordN (a / 2 ^ 32 % 2 ^ 32)

/-- ACCESS_VIOLATION (R176). -/
def accessViolation (reason addr : Nat) (iw : Word) : Stop :=
  .trap causeAccess (wordN (reason * 256 + addr / 2 ^ 56 % 256)) (loW addr) (hiW addr) iw

/-- MISALIGNED (R177). -/
def misaligned (addr size : Nat) (iw : Word) : Stop :=
  .trap causeMisaligned (loW addr) (hiW addr) (wordN size) iw

/-- SPAD_EXTENT (R187). -/
def spadExtent (tm : Team) (off len : Nat) (iw : Word) : Stop :=
  .trap causeSpadExtent (wordN (Nat.max off tm.spadSize % 2 ^ 18)) (wordN tm.spadSize) (wordN len) iw

/-- PAGE_FAULT (R182). -/
def pageFault (addr kind level : Nat) (iw : Word) : Stop :=
  .trap causePageFault (loW addr) (hiW addr) (wordN (kind + 4 * level)) iw

/-! ### Page tables (R178 to R181) -/

/-- Address bits indexed at a level, lowest first, and their number (R178). -/
def levelLo : Nat → Nat
  | 0 => 41
  | 1 => 30
  | 2 => 21
  | _ => 16

/-- Entries of a table of a level, as a power of two (R178). -/
def levelBits : Nat → Nat
  | 0 => 11
  | 1 => 11
  | 2 => 9
  | _ => 5

/-- Fields of a page-table entry (R179). -/
def pteSeal (e : Nat) : Nat := fld e 54 10
def pteRepl (e : Nat) : Bool := flag e 53
def ptePinOk (e : Nat) : Bool := flag e 52
def pteCattr (e : Nat) : Nat := fld e 50 2
def pteLeaf (e : Nat) : Bool := flag e 49
def pteAddr (e : Nat) : Nat := fld e 8 39 * 256
def pteX (e : Nat) : Bool := flag e 3
def pteW (e : Nat) : Bool := flag e 2
def pteR (e : Nat) : Bool := flag e 1
def pteP (e : Nat) : Bool := flag e 0
def pteHf (e : Nat) : Bool := flag e 4

/-- A present entry of a level is malformed (R179). -/
def pteMalformed (e level : Nat) : Bool :=
  let size := if pteLeaf e then 2 ^ levelLo level else 2 ^ (levelBits (level + 1) + 3)
  fld e 47 2 != 0 || fld e 6 2 != 0 || pteCattr e == 3 || (pteRepl e && pteW e)
    || (pteLeaf e && level == 0) || (!pteLeaf e && level == 3)
    || pteAddr e % size != 0 || decide (2 ^ 39 < pteAddr e + size)

/-- Outcome of a walk. -/
inductive WalkResult where
  | leaf (level entry entryPa : Nat)
  | malformed
  /-- An interior entry of another seal (R180). -/
  | wrongSeal
  | absent (level : Nat) (hf : Bool)
  /-- A unit finds the page being walked at its station, or every walk busy (R181). -/
  | busy
  deriving DecidableEq, Repr

/-- Walk the tables from a level down (R178 to R180); `fuel` levels remain. DESIGN CHOICE (log 155): an interior entry of
another seal gives reason 5, which R176 names for the leaf alone. -/
def walkFrom (m : Memory) (sealId va : Nat) : Nat → Nat → Nat → WalkResult
  | 0, _, _ => .malformed
  | fuel + 1, table, level =>
    let pa := table + 8 * fld va (levelLo level) (levelBits level)
    let e := leNat (Memory.readBytes m pa 8)
    if !pteP e then .absent level (pteHf e)
    else if pteMalformed e level then .malformed
    else if pteLeaf e then .leaf level e pa
    else if pteSeal e != 0 && pteSeal e != sealId then .wrongSeal
    else walkFrom m sealId va fuel (pteAddr e) (level + 1)

/-- The walk of a seal's tables for an address. -/
def walkTables (s : State) (sealId va : Nat) : WalkResult :=
  walkFrom s.mem sealId va 4 (sealOf s sealId).ptroot 0

/-- The addresses of the table entries a walk reads, from a level down. -/
def walkReads (m : Memory) (sealId va : Nat) : Nat → Nat → Nat → List Nat
  | 0, _, _ => []
  | fuel + 1, table, level =>
    let pa := table + 8 * fld va (levelLo level) (levelBits level)
    let e := leNat (Memory.readBytes m pa 8)
    if !pteP e || pteMalformed e level || pteLeaf e || (pteSeal e != 0 && pteSeal e != sealId) then [pa]
    else pa :: walkReads m sealId va fuel (pteAddr e) (level + 1)

/-- The bits of an address below its page, by the leaf its tables hold now; an address without a leaf counts by pages of
64 KiB (R178). -/
def pageShift (s : State) (sealId va : Nat) : Nat :=
  match walkTables s sealId va with
  | .leaf level _ _ => levelLo level
  | _ => 16

/-- The walk in progress at a station for the page of an address (R181). -/
def walkOf? (s : State) (st sealId va : Nat) : Option Walk :=
  let n := pageShift s sealId va
  (station s st).walks.find? (fun w => w.sealId == sealId && w.va / 2 ^ n == va / 2 ^ n)

/-- The TLB entry that maps an address for a seal (R181). -/
def tlbFind (st : Station) (sealId va : Nat) : Option TlbEntry :=
  st.tlb.find? (fun t => t.sealId == sealId && t.page == va / 2 ^ levelLo t.level)

/-- Enter a leaf at a station; the oldest entry makes room (R181, R420). -/
def tlbInsert (s : State) (sid : Nat) (e : TlbEntry) : State :=
  modStation s sid (fun st => { st with tlb := (e :: st.tlb).take (4096 - lostEntries s 0x12 sid) })

/-- What the permission rules of R180 say of a leaf: none when allowed, else the reason of R176. -/
def leafDenies (e sealId : Nat) (k : AccKind) : Option Nat :=
  if pteSeal e != sealId && pteSeal e != 0 then some 5
  else if pteSeal e == 0 && sealId != 0 && k.writes then some 5
  else if k.writes then (if pteW e then none else some 4)
  else if k == .fetch then (if pteX e then none else some 4)
  else if pteR e then none else some 4

/-- The physical address a leaf gives for an address (R178). -/
def leafPa (e level va : Nat) : Nat := pteAddr e + va % 2 ^ levelLo level

/-- The access to LPDDR a permitted leaf gives. -/
def leafAccess (e level va len : Nat) (strong : Bool) : Access :=
  { loc := .glob (leafPa e level va), len := len, strong := strong, cattr := pteCattr e, pageW := pteW e,
    pageSeal := pteSeal e }

/-! ### A thread's translation -/

/-- Attach a thread to the walk of a page at its station, or hold it while all walks are busy (R181). `addr` is the
access's own address, `va` the one translated. -/
def attachWalk (s : State) (t : Nat) (th : Thread) (addr va : Nat) (k : AccKind) : State :=
  let sid := stationOf (coreOf s th)
  let st := station s sid
  match walkOf? s sid th.sealId va with
  | some w =>
    let s := modStation s sid (fun st => { st with walks := st.walks.map (fun v =>
      if v.id == w.id then { v with threads := v.threads ++ [(t, addr, k.code)] } else v) })
    modThread s t (fun th => { th with wait := .walk })
  | none =>
    if 64 ≤ st.walks.length then modThread s t (fun th => { th with wait := .hold })
    else
      let id := st.walks.foldl (fun m w => Nat.max m (w.id + 1)) 0
      let s := modStation s sid (fun st => { st with walks := st.walks ++
        [{ id := id, sealId := th.sealId, va := va, threads := [(t, addr, k.code)], stale := false, kind := k.code }] })
      modThread s t (fun th => { th with wait := .walk })

/-- The entry of the station's TLB for an address, or the walk a thread must wait for (R181). -/
def entryFor (s : State) (t : Nat) (th : Thread) (addr va : Nat) (k : AccKind) : Except Stop TlbEntry :=
  match tlbFind (station s (stationOf (coreOf s th))) th.sealId va with
  | none => .error (.held (attachWalk s t th addr va k))
  | some e => .ok e

/-- Step 5 of R209 in window 0x00: the access of address `addr` to the translated address `va`, which differs from it in
window 0xE0 (R175). -/
def translate (s : State) (t : Nat) (th : Thread) (iw : Word) (addr va len : Nat) (k : AccKind) (strong : Bool) :
    Except Stop (Access × Nat) :=
  match entryFor s t th addr va k with
  | .error e => .error e
  | .ok e =>
    match leafDenies e.entry th.sealId k with
    | some r => .error (accessViolation r addr iw)
    | none => .ok (leafAccess e.entry e.level va len strong, e.entry)

/-! ### Windows (R175) -/

/-- The selector of a generic address. -/
def selector (a : Nat) : Nat := a / 2 ^ 56 % 256

/-- R209 step 1: reasons 1 and 2. -/
def windowFault (a : Nat) : Option Nat :=
  match selector a with
  | 0x00 => if fld a 52 4 != 0 then some 2 else none
  | 0xE0 => none
  | 0xF0 => if fld a 18 38 != 0 then some 2 else none
  | 0xF1 => if fld a 32 24 != 0 then some 2 else none
  | 0xF2 => if fld a 20 36 != 0 then some 2 else none
  | 0xF3 => if fld a 30 26 != 0 then some 2 else none
  | _ => some 1

/-- Window 0xE0 fields (R175). -/
def domPkg (a : Nat) : Nat := fld a 44 12
/-- Offset of a window-0xE0 address. -/
def domOff (a : Nat) : Nat := fld a 0 44

/-- The team a window-0xF1 handle names, as seen from a team (R188). -/
def teamOfHandle (s : State) (from_ : Team) (h : Nat) : Option (Nat × Team) :=
  s.teams.find? (fun p => p.2.grid == from_.grid && p.2.cluster == from_.cluster && p.2.handle == some h)

/-! ### Scratchpad checks (R183 to R187) -/

/-- Granules covered by a thread's own stores that are not performed yet (R183). -/
def ownGranules (th : Thread) (tmid : Nat) : List Nat :=
  let of (a : Access) : List Nat := match a.loc with
    | .spad tm off => if tm == tmid then range (off / 16) ((off + a.len - 1) / 16 + 1 - off / 16) else []
    | _ => []
  th.flights.flatMap (fun f => match f.op, f.got with
    | .store a _, none => of a
    | .atom a .xclr, none => of a
    | .mstore as_ _, none => as_.flatMap of
    | _, _ => [])

/-- State code of R187 that makes one byte trap, with %tinfo1; none where the byte is allowed (R183, R185, R239). -/
def byteDenied (tm : Team) (mine : List Nat) (off : Nat) (k : AccKind) : Option (Nat × Nat) :=
  match tm.bufferAt off with
  | some b =>
    let bad := if k.writes then b.state == 1 || b.state == 3 else b.state == 0 || b.state == 1
    if bad then some (b.state, b.idx) else none
  | none =>
    match tm.arrivalAt off with
    | some _ => if k.writes then some (5, 31 + 256) else none
    | none =>
      if k.reads && !(tm.granules.contains (off / 16) || mine.contains (off / 16)) then some (4, 31 + 256) else none

/-- The lowest byte of a range that traps (R185). Areas change only at multiples of 16 bytes. -/
def spadDenied (tm : Team) (mine : List Nat) (off len : Nat) (k : AccKind) : Option (Nat × Nat × Nat) :=
  ((off :: (range (off / 16 + 1) ((off + len - 1) / 16 - off / 16)).map (· * 16))).findSome? (fun o =>
    (byteDenied tm mine o k).map (fun d => (o, d.1, d.2)))

/-- SPAD_STATE (R187). -/
def spadState (d : Nat × Nat × Nat) (iw : Word) : Stop :=
  .trap causeSpadState (wordN (d.1 % 2 ^ 18)) (wordN d.2.2) (wordN d.2.1) iw

/-! ### Range locks (R276) -/

/-- Ranges share a byte. -/
def overlaps (a n b m : Nat) : Bool := decide (a < b + m) && decide (b < a + n) && n != 0 && m != 0

/-- The lowest entry of the core's table that an access breaks. -/
def lockHit (c : Core) (team : Option Nat) (sealId base len : Nat) (k : AccKind) : Option (Nat × Bool) :=
  c.locks.findSome? (fun p =>
    let l := p.2
    if l.team == team && (team.isSome || l.sealId == sealId) && overlaps l.base l.len base len
        && (l.dest || k.writes) then some (p.1, l.dest) else none)

/-- RANGE_LOCK (R276). -/
def rangeLock (addr : Nat) (h : Nat × Bool) (iw : Word) : Stop :=
  .trap causeRangeLock (loW addr) (hiW addr) (wordN (h.1 + 256 * b2n h.2)) iw

/-! ### The checks of R209 -/

/-- Windows a word accepts (R208). -/
def allWindows : List Nat := [0x00, 0xE0, 0xF0, 0xF1, 0xF2, 0xF3]

/-- DOMTAB entry of a package (R448). -/
def domtab (s : State) (p : Nat) : Nat := kgetD s.domain.table p 0xFF

/-- An access may name the package: its own number, or a member while domain traffic is enabled (R175, R448). -/
def memberPackage (s : State) (p : Nat) : Bool := p == s.domain.pkg || (s.domain.en && domtab s p != 0xFF)

/-- Steps 6 and 7 of R209 for a scratchpad range of a team. -/
def spadAccess (s : State) (th : Thread) (iw : Word) (addr : Nat) (tmid : Nat) (tm : Team) (off len : Nat)
    (k : AccKind) (strong : Bool) (locks : Bool) : Except Stop Access :=
  match spadDenied tm (ownGranules th tmid) off len k with
  | some d => .error (spadState d iw)
  | none =>
    match (if locks then lockHit (core s (coreOf s th)) (some tmid) th.sealId off len k else none) with
    | some h => .error (rangeLock addr h iw)
    | none => .ok { loc := .spad tmid off, len := len, strong := strong, cattr := 0, pageW := true, pageSeal := tm.sealId }

/-- Regions of the weight store a range touches (R190). -/
def regionsOf (off n : Nat) : List Nat := range (off / 2 ^ 21) ((off + n - 1) / 2 ^ 21 + 1 - off / 2 ^ 21)

/-- Some region a range touches is quarantined. -/
def regionLost (s : State) (off n : Nat) : Bool := (regionsOf off n).any (fun r => s.errors.quarantined.contains (0x11, 0, r))

/-- Some region a range touches is being written: a read waits (R271). -/
def regionMarked (s : State) (off n : Nat) : Bool := (regionsOf off n).any (fun r => (kgetD s.regions r {}).writer.isSome)

/-- Some region a range touches carries another seal (R190). -/
def regionSealed (s : State) (sealId off n : Nat) : Bool :=
  (regionsOf off n).any (fun r => let g := kgetD s.regions r {}; g.sealId != 0 && g.sealId != sealId)

/-- Steps 5 and 7 of R209 for a read of the weight store. A region being written is judged after its write has ended
(R190, R271). -/
def weightAccess (s : State) (t : Nat) (th : Thread) (iw : Word) (addr len : Nat) (k : AccKind) (strong locks : Bool) :
    Except Stop Access :=
  let off := fld addr 0 30
  if regionLost s off len then .error (accessViolation 10 addr iw)
  else if regionMarked s off len then .error (.held (modThread s t (fun th => { th with wait := .hold })))
  else if regionSealed s th.sealId off len then .error (accessViolation 5 addr iw)
  else match (if locks then lockHit (core s (coreOf s th)) none th.sealId addr len k else none) with
  | some h => .error (rangeLock addr h iw)
  | none => .ok { loc := .weight off, len := len, strong := strong, cattr := 0, pageW := false, pageSeal := th.sealId }

/-- The checks of R209, steps 1 to 7, of a thread's access of `len` bytes aligned to `align` (0 for none) in the
windows `wins`. `locks` is false for the entries that make steps 1 to 6 only. A range that crosses a page is checked
page by page by its caller. -/
def checkAccess (s : State) (t : Nat) (th : Thread) (iw : Word) (addr len align : Nat) (k : AccKind)
    (strong : Bool) (wins : List Nat) (locks : Bool) : Except Stop Access :=
  match windowFault addr with
  | some r => .error (accessViolation r addr iw)
  | none =>
    let sel := selector addr
    if sel == 0xF3 && (k == .store || k == .atomic) then
      .error (.trap causeWeightWrite (loW addr) (hiW addr) 0 iw)
    else if !wins.contains sel then .error (accessViolation 3 addr iw)
    else if align != 0 && addr % align != 0 then .error (misaligned addr align iw)
    else match team? s th.team with
    | none => .error (accessViolation 7 addr iw)
    | some tm =>
      let glob (va : Nat) : Except Stop Access :=
        match translate s t th iw addr va len k strong with
        | .error e => .error e
        | .ok (a, _) =>
          match (if locks then lockHit (core s tm.core) none th.sealId addr len k else none) with
          | some h => .error (rangeLock addr h iw)
          | none => .ok a
      if sel == 0x00 then glob addr
      else if sel == 0xE0 then
        let p := domPkg addr
        if !memberPackage s p then .error (accessViolation 9 addr iw)
        else if p == s.domain.pkg then glob (domOff addr)
        else match (if locks then lockHit (core s tm.core) none th.sealId addr len k else none) with
          | some h => .error (rangeLock addr h iw)
          | none => .ok { loc := .remote p (domOff addr), len := len, strong := strong, cattr := 1, pageW := true,
                          pageSeal := th.sealId }
      else if sel == 0xF0 then
        let off := fld addr 0 18
        if tm.spadSize < off + len then .error (spadExtent tm off len iw)
        else spadAccess s th iw addr th.team tm off len k strong locks
      else if sel == 0xF1 then
        match teamOfHandle s tm (fld addr 18 14) with
        | none => .error (accessViolation 7 addr iw)
        | some (oid, o) =>
          let off := fld addr 0 18
          if o.spadSize < off + len then .error (spadExtent o off len iw)
          else if o.evicted then .error (.held (modThread s t (fun th => { th with wait := .away oid })))
          else spadAccess s th iw addr oid o off len k strong locks
      else if sel == 0xF2 then
        let off := fld addr 0 20
        if 1024 * tm.privKb < off + len then .error (accessViolation 6 addr iw)
        else .ok { loc := .own t off, len := len, strong := strong, cattr := 0, pageW := true, pageSeal := th.sealId }
      else
        weightAccess s t th iw addr len k strong locks

end Sys2Proof.Machine
end

