-- ==== Sys2Proof/Machine/Perform.lean ====
section
/-!
DEFINITION. Accesses performed at their homes: logical time and leases, stores, atomics and exact cells, and the
delivery of results (R193 to R202, R210, R211, R217 to R230).
-/
namespace Sys2Proof.Machine

/-! ### The refresh schedule (R191) -/

/-- Nanoseconds into the refresh period (R191). -/
def refreshPhase (now : Nat) : Nat := now % 2 ^ 30 * 10 ^ 9 / 2 ^ 30 % 32000

/-- A bank stands in its refresh window (R191). -/
def inWindow (now b : Nat) : Bool := decide (1000 * b ≤ refreshPhase now) && decide (refreshPhase now < 1000 * b + 512)

/-- A range of the weight store touches a bank in its refresh window (R190, R191). -/
def refreshing (s : State) (off n : Nat) : Bool :=
  (range (off / 128) ((off + n - 1) / 128 + 1 - off / 128)).any (fun l => inWindow s.tnow (l % 32) || s.dev.refresh.contains (l % 32))

/-! ### Lines (R193) -/

/-- The 128-byte line of a physical address. -/
def lineOf (pa : Nat) : Nat := pa / 128

/-- The home slice of a physical address (R193). -/
def homeSlice (pa : Nat) : Nat := (List.range 10).foldl (fun a i => a ^^^ fld pa (7 + 4 * i) 4) 0

/-- Line timestamps; a line no access has moved stands at 0. -/
def wtsOf (s : State) (l : Nat) : Nat := kgetD s.lines.wts l 0
/-- Read timestamp. -/
def rtsOf (s : State) (l : Nat) : Nat := kgetD s.lines.rts l 0

/-- Change the line state. -/
def modLines (s : State) (f : Lines → Lines) : State := { s with lines := f s.lines }

/-- Set of a line in a cache with that many sets. -/
def setOf (l sets : Nat) : Nat := l % sets

/-- Every way of a station's set is pinned, and not by this line (R216). -/
def stationFull (s : State) (st l : Nat) : Bool :=
  let ps := s.lines.pins.filter (fun p => p.level == 0 && p.station == st && setOf p.line 2048 == setOf l 2048)
  decide (16 ≤ ps.length) && !ps.any (fun p => p.line == l)

/-- The slice and set a line belongs to, as one number. -/
def sliceSet (l : Nat) : Nat := 8192 * homeSlice (128 * l) + setOf (l / 16) 8192

/-- A line is pinned at its home slice. -/
def slicePinned (s : State) (l : Nat) : Bool := s.lines.pins.any (fun p => p.level == 1 && p.line == l)

/-- Every way of a slice's set is pinned, and not by this line (R216). -/
def sliceFull (s : State) (l : Nat) : Bool :=
  let ps := s.lines.pins.filter (fun p => p.level == 1 && sliceSet p.line == sliceSet l)
  decide (16 ≤ ps.length) && !ps.any (fun p => p.line == l)

/-- Keep the first lines of a set, and every pinned one, within its ways. -/
def keepWays (pinned : Nat → Bool) : Nat → List Nat → List Nat
  | _, [] => []
  | n, l :: ls =>
    if pinned l then l :: keepWays pinned n ls else match n with
      | 0 => keepWays pinned 0 ls
      | n + 1 => l :: keepWays pinned n ls

/-- An access at its home slice: the line is held there, most recently used of its 16-way set, and a line that makes room
is written back; a set whose ways are all pinned is bypassed, and the access counted (R14, R16, R193, R216; DESIGN CHOICE, log 185:
a fetch for PREF or PIN too). -/
def sliceVisit (s : State) (l : Nat) : State :=
  if sliceFull s l then modLines s (fun x => { x with slBypass := sat (x.slBypass + 1) 65535 })
  else
    let k := sliceSet l
    let ls := l :: (kgetD s.lines.slices k []).filter (· != l)
    let lost := (s.errors.quarantined.filter (fun q => q.1 == 0x08 && sliceSet q.2.2 == k)).length
    let kept := keepWays (fun x => x == l || slicePinned s x) (15 - lost - (ls.filter (fun x => x != l && slicePinned s x)).length) ls
    modLines s (fun x => { x with
      slices := kset x.slices k kept, dirty := x.dirty.filter (fun d => kept.contains d.1 || !ls.contains d.1) })

/-- A usable private copy of a line at a place (R194). -/
def usableCopy (s : State) (place l pts : Nat) : Option Copy :=
  s.lines.copies.find? (fun c => c.place == place && c.line == l && decide (pts ≤ c.rts) && decide (s.aclk < c.expiry))

/-- Sets and ways of the cache at a place: a core's L0 of 64 KiB in 4 ways, or a station's cache of 4 MiB in 16 (R13). -/
def setsAt (place : Nat) : Nat := if place < 320 then 128 else 2048

/-- Lines of a place's set whose entry is withheld from use (R420). -/
def lostWays (s : State) (place l : Nat) : Nat :=
  (s.errors.quarantined.filter (fun q => q.1 == 0x07 && q.2.1 == place && setOf q.2.2 (setsAt place) == setOf l (setsAt place))).length

/-- Ways of a place's set that hold unpinned lines: a station's pinned lines take theirs (R214, R216). -/
def waysAt (s : State) (place l : Nat) : Nat :=
  if place < 320 then 4 - lostWays s place l
  else 16 - lostWays s place l - (s.lines.pins.filter (fun p => p.level == 0 && 320 + p.station == place && setOf p.line 2048 == setOf l 2048)).length

/-- The station of a place has the line pinned. -/
def pinnedAt (s : State) (place l : Nat) : Bool := s.lines.pins.any (fun p => p.level == 0 && 320 + p.station == place && p.line == l)

/-- The copy counts against the ways of a line's set at a place. -/
def sharesWay (s : State) (place l : Nat) (c : Copy) : Bool :=
  c.place == place && setOf c.line (setsAt place) == setOf l (setsAt place) && c.line != l && !pinnedAt s place c.line

/-- A line's tag enters a core's victim tags, newest first (R82). -/
def tagVictims (s : State) (place : Nat) (ls : List Nat) : State :=
  if place < 320 && !ls.isEmpty then
    modCore s place (fun c => { c with victims := (ls ++ c.victims.filter (fun v => !ls.contains v)).take 1024 })
  else s

/-- Put a copy in a place, in place of an older one of the line; in a full set the copy taken longest ago makes room, and
one that leaves an L0 before its expiry leaves its tag (R13, R82, R194). -/
def putCopy (s : State) (c : Copy) : State :=
  let room := if pinnedAt s c.place c.line then waysAt s c.place c.line else waysAt s c.place c.line - 1
  let out := (s.lines.copies.filter (sharesWay s c.place c.line)).drop room
  let s := tagVictims s c.place ((out.filter (fun o => decide (s.aclk < o.expiry))).map (·.line))
  modLines s (fun x => { x with copies := c :: x.copies.filter (fun o => !(o.place == c.place && o.line == c.line) && !out.contains o) })

/-- An L0 miss of the core: a hit in the victim tags counts for the locality score (R82). -/
def countMiss (s : State) (c l : Nat) : State :=
  if (core s c).victims.contains l then modCore s c (fun k => { k with missHits := k.missHits + 1 }) else s

/-- A load at the home slice: rts moves, and the reader gets wts (R194). -/
def homeLoad (s : State) (l pts lease : Nat) : State :=
  modLines s (fun x => { x with rts := kset x.rts l (Nat.max (rtsOf s l) (Nat.max pts (wtsOf s l) + lease)) })

/-- A store's move of logical time at the home slice (R194): the new pts and the line moved to it. -/
def storeTime (s : State) (l pts : Nat) : Nat × State :=
  let p := Nat.max pts (rtsOf s l + 1)
  (p, modLines s (fun x => { x with wts := kset x.wts l p, rts := kset x.rts l p }))

/-! ### Errors met by reads (R422, R437) -/

/-- The entries the bytes of an access stand in, as an error check names them: lines, granules of 16 bytes, private lines
and regions. -/
def unitsOf (s : State) (l : Loc) (n : Nat) : List ErrUnit :=
  let each (size a : Nat) : List Nat := range (a / size) ((a + n - 1) / size + 1 - a / size)
  match l with
  | .glob pa => (each 128 pa).map (fun x => ⟨0x08, homeSlice (128 * x), x, false, 0⟩)
  | .spad tm off => match team? s tm with
    | some t => (each 16 (t.base + off)).map (fun x => ⟨0x05, t.core, 16 * x, false, 0⟩)
    | none => []
  | .own th off => (each 128 off).map (fun x => ⟨0x06, th, x, false, 0⟩)
  | .weight off => (each (2 ^ 21) off).map (fun x => ⟨0x11, 0, x, false, 0⟩)
  | .remote .. => []

/-- Deferred injected errors of these entries are met (R437). -/
def meetErrors (s : State) (us : List ErrUnit) : State :=
  if s.errors.deferred.any (fun d => us.contains d.1) then
    { s with errors := { s.errors with
        deferred := s.errors.deferred.filter (fun d => !us.contains d.1)
        due := s.errors.due ++ (s.errors.deferred.filter (fun d => us.contains d.1)).map (fun d => (d.1, d.2, true)) } }
  else s

/-- A read of bytes meets the deferred injected errors of every entry it touches (R437). -/
def met (s : State) (l : Loc) (n : Nat) : State := if s.errors.deferred.isEmpty then s else meetErrors s (unitsOf s l n)

/-- A read meets deferred injected errors, and poison in a page of SEAL 0. -/
def noteRead (s : State) (a : Access) (reader : Nat) : State :=
  let s := met s a.loc a.len
  match a.loc with
  | .glob pa =>
    if (kget? s.lines.poison (lineOf pa)).isSome && a.pageSeal == 0 && reader != 0 then
      { s with errors := { s.errors with poisonEnds := s.errors.poisonEnds ++ [reader] } }
    else s
  | _ => s

/-! ### Plain reads and writes of a place -/

/-- The bytes at a place; another package's bytes are not here. -/
def peek (s : State) (l : Loc) (n : Nat) : List Byte :=
  match l with
  | .glob pa => Memory.readBytes s.mem pa n
  | .spad tm off => ((team? s tm).map (fun t => Memory.readBytes t.spad off n)).getD (List.replicate n 0)
  | .own th off => ((thread? s th).map (fun t => Memory.readBytes t.own off n)).getD (List.replicate n 0)
  | .weight off => Memory.readBytes s.weight off n
  | .remote .. => List.replicate n 0

/-- Granules a range covers. -/
def granulesOf (off len : Nat) : List Nat := if len == 0 then [] else range (off / 16) ((off + len - 1) / 16 + 1 - off / 16)

/-- Put bytes at a place. Free-area granules become readable (R183). -/
def poke (s : State) (l : Loc) (bs : List Byte) : State :=
  match l with
  | .glob pa => { s with mem := Memory.writeBytes s.mem pa bs }
  | .spad tm off => modTeam s tm (fun t =>
      { t with spad := Memory.writeBytes t.spad off bs, granules := (granulesOf off bs.length).foldl insertNew t.granules })
  | .own th off => modThread s th (fun t => { t with own := Memory.writeBytes t.own off bs })
  | .weight off => { s with weight := Memory.writeBytes s.weight off bs }
  | .remote .. => s

/-! ### Private slices (R14, R189) -/

/-- A line of a private window is written back to its place in the thread's backing area, where it has one. -/
def writeBack (s : State) (t line : Nat) : State :=
  match thread? s t with
  | some th => (match th.backing with
    | some b => { s with mem := Memory.writeBytes s.mem (b + 128 * line) (Memory.readBytes th.own (128 * line) 128) }
    | none => s)
  | none => s

/-- Key of a thread's home lane on its core (R68). -/
def Thread.laneKey (th : Thread) : Nat := 32 * th.quadrant + th.lane

/-- A thread touches a line of its window: a line of offsets 0 to 1,023 is placed in the private slice of its home lane,
and of nine lines the least recently used is written back to its own thread's backing (R189). -/
def touchLine (s : State) (t line : Nat) : State :=
  match thread? s t with
  | none => s
  | some th =>
    if 8 ≤ line then s
    else
      let c := coreOf s th
      let ls := (t, line) :: (kgetD (core s c).lanes th.laneKey []).filter (· != (t, line))
      let n := 8 - (s.errors.quarantined.filter (fun q => q.1 == 0x06 && q.2.1 == c && q.2.2 / 8 == th.laneKey)).length
      let s := (ls.drop n).foldl (fun s p => writeBack s p.1 p.2) s
      modCore s c (fun k => { k with lanes := kset k.lanes th.laneKey (ls.take n) })

/-- The lines of a window access are touched. -/
def touchOwn (s : State) (l : Loc) (n : Nat) : State :=
  match l with
  | .own t off => (range (off / 128) ((off + n - 1) / 128 + 1 - off / 128)).foldl (fun s x => touchLine s t x) s
  | _ => s

/-- A thread's lines leave the private slices. -/
def dropLines (s : State) (t : Nat) : State :=
  { s with cores := s.cores.map (fun p => (p.1, { p.2 with
      lanes := (p.2.lanes.map (fun q => (q.1, q.2.filter (fun x => x.1 != t)))).filter (fun q => !q.2.isEmpty) })) }

/-- A thread leaves its home lane, at REGROUP or eviction: its window's written lines go to its backing (R189). -/
def leaveLane (s : State) (t : Nat) : State :=
  match thread? s t with
  | none => s
  | some th => dropLines (((th.own.map (fun c => c.1 / 128)).foldl insertNew []).foldl (fun s x => writeBack s t x) s) t

/-! ### Performed loads (R194, R196, R202, R216) -/

/-- The bytes of an access in a line's copy. -/
def sliceOf (c : Copy) (pa n : Nat) : List Byte := (c.data.drop (pa % 128)).take n

/-- A strong access meets the strong stores to the same scratchpad granules, or to a line of an uncached page: it takes
the logical time they brought (R202). DESIGN CHOICE (log 156). -/
def syncTime (s : State) (a : Access) : Nat :=
  if !a.strong then 0
  else match a.loc with
  | .glob pa => if a.cattr == 1 then kgetD s.lines.sync (lineOf pa) 0 else 0
  | .spad tm off => ((team? s tm).map (fun t => (granulesOf off a.len).foldl (fun m g => Nat.max m (kgetD t.sync g 0)) 0)).getD 0
  | _ => 0

/-- A strong store leaves its agent's logical time where no line timestamp carries it (R202). -/
def noteSync (s : State) (a : Access) (pts : Nat) : State :=
  if !a.strong then s
  else match a.loc with
  | .glob pa => if a.cattr == 1 then modLines s (fun x =>
      { x with sync := kset x.sync (lineOf pa) (Nat.max pts (kgetD x.sync (lineOf pa) 0)) }) else s
  | .spad tm off => modTeam s tm (fun t =>
      { t with sync := (granulesOf off a.len).foldl (fun m g => kset m g (Nat.max pts (kgetD m g 0))) t.sync })
  | _ => s

/-- A load of a window-0x00 access performed for an agent on a core at logical time `pts`. `peer` names the peer
station probed, if one is. Answers the bytes, the agent's new pts and the state. -/
def loadGlob (s : State) (c pa : Nat) (a : Access) (pts : Nat) (peer : Option Nat) : List Byte × Nat × State :=
  let l := lineOf pa
  let lease := (core s c).lease
  let st := 320 + stationOf c
  let home (s : State) (keep : Bool) : List Byte × Nat × State :=
    let s := homeLoad (sliceVisit s l) l pts lease
    let cp : Copy := { place := c, line := l, data := Memory.readBytes s.mem (128 * l) 128, wts := wtsOf s l,
                       rts := rtsOf s l, expiry := s.aclk + 64 * lease }
    let s := if keep then putCopy (putCopy s cp) { cp with place := st } else s
    (Memory.readBytes s.mem pa a.len, Nat.max pts (wtsOf s l), s)
  if a.cattr == 1 then (Memory.readBytes s.mem pa a.len, Nat.max pts (syncTime s a), s)
  else if a.strong || a.cattr == 2 then home s false
  else match usableCopy s c l pts with
    | some cp => (sliceOf cp pa a.len, Nat.max pts cp.wts, s)
    | none =>
      let s := countMiss s c l
      match (if stationFull s (stationOf c) l then none else usableCopy s st l pts) with
      | some cp => (sliceOf cp pa a.len, Nat.max pts cp.wts, putCopy s { cp with place := c })
      | none =>
        if stationFull s (stationOf c) l then
          home (modStation s (stationOf c) (fun x => { x with bypass := sat (x.bypass + 1) 65535 })) false
        else match (if a.pageW then none else peer.bind (fun p => usableCopy s (320 + p) l pts)) with
          | some cp =>
            (sliceOf cp pa a.len, Nat.max pts cp.wts, putCopy (putCopy s { cp with place := c }) { cp with place := st })
          | none => home s true

/-- A load performed for an agent: bytes, new pts, state. -/
def loadAt (s : State) (c : Nat) (a : Access) (pts reader : Nat) (peer : Option Nat) : List Byte × Nat × State :=
  let s := noteRead s a reader
  match a.loc with
  | .glob pa => loadGlob s c pa a pts peer
  | l => (peek s l a.len, Nat.max pts (syncTime s a), touchOwn s l a.len)

/-! ### Performed stores (R194, R211) -/

/-- A store performed for an agent: new pts and state. -/
def storeAt (s : State) (a : Access) (bs : List Byte) (pts sealId : Nat) : Nat × State :=
  match a.loc with
  | .glob pa =>
    let l := lineOf pa
    let s := poke s a.loc bs
    let s := if bs.length == 128 then modLines s (fun x => { x with poison := kdel x.poison l }) else s
    if a.cattr == 1 then (pts, noteSync s a pts)
    else
      let (p, s) := storeTime (sliceVisit s l) l pts
      (p, if sliceFull s l then s else modLines s (fun x => { x with dirty := kset x.dirty l sealId }))
  | l => (pts, noteSync (poke (touchOwn s l bs.length) l bs) a pts)

/-! ### Walks of the page tables by units (R181, R182) -/

/-- Set a leaf's A bit once, by a strong update of seal 0 (R181). -/
def setAccessed (s : State) (e pa : Nat) : State :=
  if flag e 5 then s
  else (storeAt s ⟨.glob pa, 8, true, 0, true, 0⟩ (leBytes 8 (e + 2 ^ 5)) 0 0).2

/-- A walk reads table entries as weak loads of seal 0, from the home slices (R181). DESIGN CHOICE (log 157): it takes no
lease and brings no logical time. -/
def noteWalk (s : State) (sealId va : Nat) : State :=
  (walkReads s.mem sealId va 4 (sealOf s sealId).ptroot 0).foldl (fun s pa =>
    sliceVisit (noteRead s ⟨.glob pa, 8, false, 0, false, 0⟩ 0) (lineOf pa)) s

/-- What the tables say to a unit: by its station's TLB where the page stands there; else it waits while the page is being
walked or every walk is busy, and otherwise walks, entering a leaf (R181). A unit of the device without a station walks
the tables. -/
def unitWalk (s : State) (st : Option Nat) (sealId va : Nat) : WalkResult × State :=
  let go (s : State) : WalkResult × State :=
    let w := walkTables s sealId va
    let s := noteWalk s sealId va
    (w, match w with | .leaf _ e pa => setAccessed s e pa | _ => s)
  match st with
  | none => go s
  | some st =>
    match tlbFind (station s st) sealId va with
    | some t => (.leaf t.level t.entry 0, s)
    | none =>
      if (walkOf? s st sealId va).isSome || decide (64 ≤ (station s st).walks.length) then (.busy, s)
      else match go s with
        | (.leaf level e pa, s) => (.leaf level e pa, tlbInsert s st ⟨sealId, level, va / 2 ^ levelLo level, e⟩)
        | r => r

/-- Translation for a unit of a station, or of the device (R180 to R182): the access, or the reason of a refusal, or the
walk's outcome. -/
def translateNow (s : State) (st : Option Nat) (sealId va len : Nat) (k : AccKind) :
    Except (Option WalkResult × Nat) (Access × State) :=
  match unitWalk s st sealId va with
  | (.leaf level e _, s) =>
    match leafDenies e sealId k with
    | some r => .error (none, r)
    | none => .ok (leafAccess e level va len false, s)
  | (.wrongSeal, _) => .error (none, 5)
  | (.malformed, _) => .error (none, 8)
  | (w, _) => .error (some w, 0)

/-! ### Atomics and exact cells (R222 to R230) -/

/-- The new value of ATOM (R222). -/
def atomNew (op w old v : Nat) : Nat :=
  match op with
  | 0 => (old + v) % 2 ^ w
  | 1 => if sx old w ≤ sx v w then old else v
  | 2 => if sx v w ≤ sx old w then old else v
  | 3 => if old ≤ v then old else v
  | 4 => if v ≤ old then old else v
  | 5 => old &&& v
  | 6 => old ||| v
  | 7 => old ^^^ v
  | 8 => v
  | 9 => if v ≤ old then 0 else old + 1
  | _ => if old = 0 || decide (v < old) then v else old - 1

/-- A cell's X and FLAGS (R145). -/
structure Cell64 where
  x : Int
  flags : Nat
  deriving DecidableEq, Repr

/-- Read a cell's bytes. -/
def cellOf (bs : List Byte) : Cell64 := ⟨sx (leNat (bs.take 40)) 320, leNat ((bs.drop 40).take 8) % 16⟩

/-- A cell's bytes as an update leaves them (R225). -/
def cellBytes (c : Cell64) : List Byte := leBytes 40 (wrap c.x 320) ++ leBytes 8 (c.flags % 16) ++ leBytes 16 0

/-- CellAdd (R225). -/
def cellAdd (c : Cell64) (bits : Nat) : Cell64 :=
  match rd32 bits with
  | .nan _ => { c with flags := c.flags ||| 1 }
  | .inf false => { c with flags := c.flags ||| 2 }
  | .inf true => { c with flags := c.flags ||| 4 }
  | v =>
    let y := c.x + dyFloor (dyScale v.dy 149)
    { x := sx (wrap y 320) 320
      flags := if y < -(2 ^ 319) || 2 ^ 319 ≤ y then c.flags ||| 8 else c.flags }

/-- The value a cell stands for (R145); none for the infinities is told by `inf`. -/
def cellValue (c : Cell64) : FVal :=
  if c.flags.testBit 0 || (c.flags.testBit 1 && c.flags.testBit 2) || c.flags.testBit 3 then .nan false
  else if c.flags.testBit 1 then .inf false
  else if c.flags.testBit 2 then .inf true
  else .fin (decide (c.x < 0)) c.x.natAbs (-149)

/-- The result of XRD (R229). DESIGN CHOICE (log 59): an exact C of zero is −0 where the mode is RD. -/
def xrdResult (mode : Nat) (pair : Bool) (v : FVal) : List Word :=
  match v with
  | .nan _ => if pair then [wordN fp32.nan, 0] else [wordN fp32.nan]
  | .inf n => if pair then [wordN (fp32.inf n), 0] else [wordN (fp32.inf n)]
  | v =>
    if pair then
      let sb := rn v.neg v.dy
      let c := if (rd32 sb).isInf then 0
        else (fp32.round mode false (mode == modeRD) (dySub v.dy (rd32 sb).dy) {}).1
      [wordN sb, wordN c]
    else [wordN (fp32.round mode false false v.dy {}).1]

/-- ATOMF's sum (R224). -/
def fAtom (bf : Bool) (old v : Nat) : Nat :=
  if bf then
    let h (i : Nat) := (fAdd bf16 modeRNE (bf16.read (fld old (16 * i) 16)) (bf16.read (fld v (16 * i) 16))).1
    h 0 + 2 ^ 16 * h 1
  else add32 old v

/-- The 32-bit words of a number, low word first. -/
def natWords : Nat → Nat → List Word
  | 0, _ => []
  | n + 1, v => wordN (v % 2 ^ 32) :: natWords n (v / 2 ^ 32)

/-- RoundToFormat(dst + src) of each element of a reduce-copy burst (R270). -/
def reduceBytes (fp : Bool) : Nat → List Byte → List Byte → List Byte
  | 0, _, _ => []
  | n + 1, old, new =>
    let w := if fp then 4 else 2
    let a := leNat (old.take w); let b := leNat (new.take w)
    leBytes w (if fp then add32 a b else (fAdd bf16 modeRNE (bf16.read a) (bf16.read b)).1)
      ++ reduceBytes fp n (old.drop w) (new.drop w)

/-- What an atomic makes of the bytes at its home: the new bytes and the register result. -/
def atomStep (op : AtomOp) (old : List Byte) : List Byte × List Word :=
  match op with
  | .int op w v => (leBytes (w / 8) (atomNew op w (leNat old) v), natWords (w / 32) (leNat old))
  | .cas w cmp new =>
    (leBytes (w / 8) (if leNat old == cmp then new else leNat old), natWords (w / 32) (leNat old))
  | .fadd bf v => (leBytes 4 (fAtom bf (leNat old) v), natWords 1 (leNat old))
  | .xacc vs => (cellBytes (vs.foldl cellAdd (cellOf old)), [])
  | .xrd mode pair => (old, xrdResult mode pair (cellValue (cellOf old)))
  | .xclr => (List.replicate 64 0, [])
  | .reduce fp bs => (reduceBytes fp (bs.length / (if fp then 4 else 2)) old bs, [])

/-- The operation stores nothing: XRD is one strong load (R229). -/
def AtomOp.loads : AtomOp → Bool
  | .xrd .. => true
  | _ => false

/-- An atomic or exact-cell access performed at its home, for an agent on a core (R217, R218): register result, new pts,
state. -/
def atomAt (s : State) (c : Nat) (a : Access) (op : AtomOp) (pts sealId : Nat) : List Word × Nat × State :=
  if op.loads then
    let (bs, p, s) := loadAt s c { a with strong := true } pts sealId none
    ((atomStep op bs).2, p, s)
  else
    let s := noteRead s a sealId
    let (bs, res) := atomStep op (peek s a.loc a.len)
    let (p, s) := storeAt s a bs (Nat.max pts (syncTime s a)) sealId
    (res, p, s)

/-! ### Ranges longer than one access: records, blocks and images -/

/-- Pieces of a range, cut at every multiple of `unit`; `fuel` bounds their number. -/
def piecesOf (unit : Nat) : Nat → Nat → Nat → List (Nat × Nat)
  | 0, _, _ => []
  | fuel + 1, a, n =>
    let k := Nat.min n (unit - a % unit)
    if n == 0 then [] else (a, k) :: piecesOf unit fuel (a + k) (n - k)

/-- Checks of a range, page by page where the window is translated (R209). DESIGN CHOICE (log 190): a MISALIGNED trap reports the
alignment the range needs, not its length. -/
def checkRange (s : State) (t : Nat) (th : Thread) (iw : Word) (addr len align : Nat) (k : AccKind) (strong : Bool)
    (wins : List Nat) (locks : Bool) : Except Stop (List Access) :=
  if selector addr == 0x00 || selector addr == 0xE0 then
    (piecesOf (2 ^ 16) (len / 2 ^ 16 + 2) addr len).foldlM (fun acc p =>
      (checkAccess s t th iw p.1 p.2 (if p.1 == addr then align else 0) k strong wins locks).map (fun a => acc ++ [a])) []
  else (checkAccess s t th iw addr len align k strong wins locks).map (fun a => [a])

/-- An access cut at the lines of LPDDR. -/
def Access.lines (a : Access) : List Access :=
  match a.loc with
  | .glob pa => (piecesOf 128 (a.len / 128 + 2) pa a.len).map (fun p => { a with loc := .glob p.1, len := p.2 })
  | _ => [a]

/-- Read a checked range in ascending order: bytes, pts, state. -/
def loadRange (s : State) (c pts reader : Nat) (as_ : List Access) : List Byte × Nat × State :=
  (as_.flatMap Access.lines).foldl (fun r a =>
    let x := loadAt r.2.2 c a r.2.1 reader none
    (r.1 ++ x.1, x.2.1, x.2.2)) ([], pts, s)

/-- Write a checked range in ascending order: pts and state. -/
def storeRange (s : State) (pts sealId : Nat) (as_ : List Access) (bs : List Byte) : Nat × State :=
  let r := (as_.flatMap Access.lines).foldl (fun r a =>
    let x := storeAt r.2.2 a (r.1.take a.len) r.2.1 sealId
    (r.1.drop a.len, x.1, x.2)) (bs, pts, s)
  r.2

/-! ### Outstanding operations (R26, R32, R200) -/

/-- The register words a load's bytes give (R210). -/
def loadWords (len : Nat) (signed : Bool) (bs : List Byte) : List Word :=
  if len < 4 then [if signed then word (sx (leNat bs) (8 * len)) else wordN (leNat bs)]
  else natWords (len / 4) (leNat bs)

/-- The place `n` bytes further. -/
def Loc.shift (l : Loc) (n : Nat) : Loc :=
  match l with
  | .glob pa => .glob (pa + n)
  | .spad tm o => .spad tm (o + n)
  | .own x o => .own x (o + n)
  | .weight o => .weight (o + n)
  | .remote p o => .remote p (o + n)

/-- The first `n` bytes of a list of accesses, and the rest. -/
def cutAccesses : Nat → List Access → List Access × List Access
  | _, [] => ([], [])
  | n, a :: as_ =>
    if n == 0 then ([], a :: as_)
    else if n < a.len then ([{ a with len := n }], { a with loc := a.loc.shift n, len := a.len - n } :: as_)
    else
      let r := cutAccesses (n - a.len) as_
      (a :: r.1, r.2)

/-- The `n` bytes from a place of a list of accesses. -/
def pieceOf (as_ : List Access) (off n : Nat) : List Access := (cutAccesses n (cutAccesses off as_).2).1

/-- Bytes of a list of accesses. -/
def totalLen (as_ : List Access) : Nat := as_.foldl (fun n a => n + a.len) 0

/-- What is left of a run, by place and length, without another. -/
def cutRun (x r : Nat × Nat) : List (Nat × Nat) :=
  if x.1 + x.2 ≤ r.1 || r.1 + r.2 ≤ x.1 then [r]
  else (if r.1 < x.1 then [(r.1, x.1 - r.1)] else [])
    ++ (if x.1 + x.2 < r.1 + r.2 then [(x.1 + x.2, r.1 + r.2 - (x.1 + x.2))] else [])

/-- The runs of `n` bytes that parts have not taken, in ascending order. -/
def runsLeft (n : Nat) (parts : List (Nat × List Byte)) : List (Nat × Nat) :=
  parts.foldl (fun rs p => rs.flatMap (cutRun (p.1, p.2.length))) [(0, n)]

/-- Bytes with parts put in their places. -/
def splice (bs : List Byte) (parts : List (Nat × List Byte)) : List Byte :=
  parts.foldl (fun bs p => bs.take p.1 ++ p.2 ++ bs.drop (p.1 + p.2.length)) bs

/-- Read what parts have left of a list of accesses: all the bytes, the agent's pts, and the state. -/
def readLeft (s : State) (c pts reader : Nat) (as_ : List Access) (parts : List (Nat × List Byte)) : List Byte × Nat × State :=
  let n := totalLen as_
  let r := (runsLeft n parts).foldl (fun (r : List (Nat × List Byte) × Nat × State) x =>
    let y := loadRange r.2.2 c r.2.1 reader (pieceOf as_ x.1 x.2)
    (r.1 ++ [(x.1, y.1)], y.2.1, y.2.2)) (parts, pts, s)
  (splice (List.replicate n 0) r.1, r.2.1, r.2.2)

/-- Write what parts have left of a list of accesses. -/
def writeLeft (s : State) (pts sealId : Nat) (as_ : List Access) (bs : List Byte) (parts : List (Nat × List Byte)) : Nat × State :=
  (runsLeft (totalLen as_) parts).foldl (fun r x =>
    storeRange r.2 r.1 sealId (pieceOf as_ x.1 x.2) ((bs.drop x.1).take x.2)) (pts, s)

/-- The accesses an operation makes. -/
def FlightOp.accesses : FlightOp → List Access
  | .load a _ => [a]
  | .store a _ => [a]
  | .atom a _ => [a]
  | .mload as_ _ => as_
  | .mstore as_ _ => as_
  | .remote _ _ a _ => [a]
  | _ => []

/-- Places share a byte. -/
def locOverlap (l : Loc) (n : Nat) (k : Loc) (m : Nat) : Bool :=
  match l, k with
  | .glob a, .glob b => overlaps a n b m
  | .spad t a, .spad u b => t == u && overlaps a n b m
  | .own t a, .own u b => t == u && overlaps a n b m
  | .weight a, .weight b => overlaps a n b m
  | .remote p a, .remote q b => p == q && overlaps a n b m
  | _, _ => false

/-- The accesses an outstanding operation still makes. -/
def Flight.accesses (f : Flight) : List Access :=
  if f.parts.isEmpty then f.op.accesses
  else (runsLeft (totalLen f.op.accesses) f.parts).flatMap (fun x => pieceOf f.op.accesses x.1 x.2)

/-- The operation is memory work that is not performed yet. -/
def Flight.open_ (f : Flight) : Bool := f.got.isNone && !f.op.accesses.isEmpty

/-- The operation's accesses are performed by this core's step, not by a unit or another package. -/
def FlightOp.here : FlightOp → Bool
  | .load .. | .store .. | .atom .. => true
  | .mload as_ _ => as_.all (fun a => match a.loc with | .remote .. => false | _ => true)
  | _ => false

/-- Two accesses may be performed in either order: both weak, and no common byte (R200). -/
def unordered (a b : Access) : Bool := !a.strong && !b.strong && !locOverlap a.loc a.len b.loc b.len

/-- An open operation need not come before these accesses (R200). -/
def Flight.passes (g : Flight) (as_ : List Access) : Bool := as_.all (fun a => g.accesses.all (fun b => unordered a b))

/-- An operation may be performed before those issued ahead of it: all are weak, touch no common byte, and no fence
stands between (R200, R231). -/
def mayPerform (th : Thread) (f : Flight) : Bool :=
  th.flights.all (fun g => !(decide (g.seq < f.seq) && g.open_) ||
    (g.passes f.accesses && !(decide (g.seq < th.fencew) && decide (th.fencew ≤ f.seq))))

/-- The open operations, oldest first, that accesses made now must follow: each is ordered before them, stands before a
fence, or comes before another such operation (R200, R231). -/
def mustPrecede (fs : List Flight) (fence : Nat) (as_ : List Access) : List Flight :=
  (fs.foldr (fun g (r : List Flight × List Access) =>
    if g.open_ && (decide (g.seq < fence) || !g.passes r.2) then (g :: r.1, g.accesses ++ r.2) else r) ([], as_)).1

/-- Change one outstanding operation. -/
def Thread.modFlight (th : Thread) (seq : Nat) (g : Flight → Flight) : Thread :=
  { th with flights := th.flights.map (fun f => if f.seq == seq then g f else f) }

/-- Take an operation off the list and lower its counter (R26). -/
def Thread.retire (th : Thread) (f : Flight) : Thread :=
  { th.lower f.ec with flights := (th.flights.filter (fun g => g.seq != f.seq)) }

/-! ### Weak accesses performed since the last ordering point (R201) -/

/-- Note a performed access: a weak one joins the list, and one after a FENCEW ends the stretch of those before it. -/
def Thread.noteDone (th : Thread) (f : Flight) (store : Bool) (a : Access) (bs : List Byte) : Thread :=
  let old := if a.strong then [] else th.recent.filter (fun d => decide (th.fencew ≤ d.seq) || decide (f.seq < th.fencew))
  { th with recent := if a.strong then old else old ++ [{ seq := f.seq, clauseNo := f.clauseNo, store := store, acc := a, data := bs }] }

/-- The accesses before an ordering point are performed no more (R201). -/
def Thread.orderingPoint (th : Thread) : Thread := { th with recent := [] }

/-! ### Packets of Damlan (R441) -/

/-- Flits of a packet that carries `n` bytes (R441). -/
def flits (n : Nat) : Nat := 1 + ceilDiv n 64

/-- The lines an access touches, each with its bytes there; none of a window that is no slice's. -/
def Access.lineParts (a : Access) : List (Nat × Nat) :=
  match a.loc with
  | .glob pa => (range (lineOf pa) (lineOf (pa + a.len - 1) + 1 - lineOf pa)).map (fun l =>
      (l, Nat.min (pa + a.len) (128 * (l + 1)) - Nat.max pa (128 * l)))
  | _ => []

/-- A line a load of a core at a logical time must ask its slice for: no copy at the core or its station serves it. -/
def asksSlice (s : State) (c pts : Nat) (a : Access) (l : Nat) : Bool :=
  a.strong || a.cattr != 0 || ((usableCopy s c l pts).isNone && (usableCopy s (320 + stationOf c) l pts).isNone)

/-- Request packets of a load: slice and flits. -/
def loadPackets (s : State) (c pts : Nat) (a : Access) : List (Nat × Nat) :=
  (a.lineParts.filter (fun p => asksSlice s c pts a p.1)).map (fun p => (homeSlice (128 * p.1), flits 0))

/-- Reply packets of a load: a line that caches may hold comes whole. -/
def loadReplies (s : State) (c pts : Nat) (a : Access) : List (Nat × Nat) :=
  (a.lineParts.filter (fun p => asksSlice s c pts a p.1)).map (fun p =>
    (homeSlice (128 * p.1), flits (if a.strong || a.cattr != 0 then p.2 else 128)))

/-- Packets that carry the bytes of an access. -/
def dataPackets (a : Access) : List (Nat × Nat) := a.lineParts.map (fun p => (homeSlice (128 * p.1), flits p.2))

/-- Request packets of an operation that is not performed. -/
def requestPackets (s : State) (th : Thread) (op : FlightOp) : List (Nat × Nat) :=
  let c := coreOf s th
  match op with
  | .load a _ | .prefetch a _ => loadPackets s c th.pts a
  | .store a _ => dataPackets a
  | .atom a (.xrd ..) | .atom a .xclr => a.lineParts.map (fun p => (homeSlice (128 * p.1), flits 0))
  | .atom a _ => dataPackets a
  | .mload as_ _ => as_.flatMap (loadPackets s c th.pts)
  | .mstore as_ _ => as_.flatMap dataPackets
  | _ => []

/-- Reply packets that carry what an operation reads, as it is performed. -/
def replyPackets (s : State) (th : Thread) (op : FlightOp) : List (Nat × Nat) :=
  let c := coreOf s th
  match op with
  | .load a _ => loadReplies s c th.pts a
  | .atom a _ => dataPackets a
  | .mload as_ _ => as_.flatMap (loadReplies s c th.pts)
  | _ => []

/-- Perform an outstanding memory operation now. A store or an atomic without a result then leaves the list; a load or
an atomic with a result keeps its value until it is written. -/
def performFlight (s : State) (t : Nat) (f : Flight) (peer : Option Nat) : State :=
  match thread? s t with
  | none => s
  | some th =>
    let rs := replyPackets s th f.op
    match f.op with
    | .load a sg =>
      let (bs, p, s) := if f.parts.isEmpty then loadAt s (coreOf s th) a th.pts th.sealId peer
        else readLeft s (coreOf s th) th.pts th.sealId [a] f.parts
      modThread s t (fun th => ((th.takePts p).modFlight f.seq (fun f =>
        { f with got := some (loadWords a.len sg bs), reply := rs })).noteDone f false a bs)
    | .store a bs =>
      let (p, s) := if f.parts.isEmpty then storeAt s a bs th.pts th.sealId
        else writeLeft s th.pts th.sealId [a] bs f.parts
      modThread s t (fun th => ((th.takePts p).retire f).noteDone f true a bs)
    | .atom a op =>
      let (res, p, s) := atomAt s (coreOf s th) a op th.pts th.sealId
      modThread s t (fun th =>
        let th := (th.takePts p).orderingPoint
        if f.dests.isEmpty then th.retire f else th.modFlight f.seq (fun f => { f with got := some res, reply := rs }))
    | .mload as_ id =>
      let (bs, p, s) := if f.parts.isEmpty then loadRange s (coreOf s th) th.pts th.sealId as_
        else readLeft s (coreOf s th) th.pts th.sealId as_ f.parts
      modThread (modMtx s id (fun m => { m with data := some bs })) t (fun th =>
        (th.takePts p).modFlight f.seq (fun f => { f with got := some [], reply := rs }))
    | _ => s

/-- Perform the `n` bytes from a place of an operation only (R201, split; R308): for a weak load or store, or the load of a
tile operation. -/
def splitFlight (s : State) (t : Nat) (f : Flight) (off n : Nat) (peer : Option Nat) : State :=
  match thread? s t with
  | none => s
  | some th =>
    let took (s : State) (bs : List Byte) (p : Nat) : State :=
      modThread s t (fun th => (th.takePts p).modFlight f.seq (fun f => { f with parts := f.parts ++ [(off, bs)] }))
    match f.op with
    | .mload as_ _ =>
      let (bs, p, s) := loadRange s (coreOf s th) th.pts th.sealId (pieceOf as_ off n)
      took s bs p
    | .load a _ =>
      let a := { a with loc := a.loc.shift off, len := n }
      let (bs, p, s) := loadAt s (coreOf s th) a th.pts th.sealId peer
      modThread (took s bs p) t (fun th => th.noteDone f false a bs)
    | .store a bs =>
      let a := { a with loc := a.loc.shift off, len := n }
      let bs := (bs.drop off).take n
      let (p, s) := storeAt s a bs th.pts th.sealId
      modThread (took s bs p) t (fun th => th.noteDone f true a bs)
    | _ => s

/-- How far one place lies into another's space; none in different spaces or before it. -/
def locDelta (l k : Loc) : Option Nat :=
  let d (a b : Nat) : Option Nat := if a ≤ b then some (b - a) else none
  match l, k with
  | .glob a, .glob b => d a b
  | .spad t a, .spad u b => if t == u then d a b else none
  | .own t a, .own u b => if t == u then d a b else none
  | .weight a, .weight b => d a b
  | _, _ => none

/-- The bytes of an access within those of another that covers it. -/
def coveredBytes (outer : Access) (data : List Byte) (a : Access) : Option (List Byte) :=
  match locDelta outer.loc a.loc with
  | some d => if d + a.len ≤ outer.len then some ((data.drop d).take a.len) else none
  | none => none

/-- The accesses share a byte. -/
def Access.meets (a b : Access) : Bool := locOverlap a.loc a.len b.loc b.len

/-- Some open operation between two numbers, the second excluded, is strong or touches an access's bytes. -/
def barred (th : Thread) (lo hi : Nat) (a : Access) : Bool :=
  th.flights.any (fun g => decide (lo < g.seq) && decide (g.seq < hi) && g.open_
    && (g.accesses.isEmpty || g.accesses.any (fun b => b.strong || b.meets a)))
    || (decide (lo < th.fencew) && decide (th.fencew ≤ hi))

/-- The value of a thread's latest access to the bytes of a weak load, in the load's clause: of an earlier access that is
performed, or of a weak store that is not yet (R201, elide). -/
def elidedValue (th : Thread) (f : Flight) (a : Access) : Option (List Byte) :=
  let done := (th.recent.filter (fun d => decide (d.seq < f.seq) && d.acc.meets a)).map (fun d => (d.seq, d.clauseNo, d.acc, some d.data))
  let open_ := (th.flights.filter (fun g => decide (g.seq < f.seq) && g.open_ && g.accesses.any (fun b => b.meets a))).map (fun g =>
    match g.op with
    | .store b bs => (g.seq, g.clauseNo, b, some bs)
    | _ => (g.seq, g.clauseNo, a, none))
  let last := (done ++ open_).foldl (fun (m : Option (Nat × Nat × Access × Option (List Byte))) x =>
    match m with
    | some y => if y.1 ≤ x.1 then some x else some y
    | none => some x) none
  match last with
  | some (seq, cl, b, some bs) =>
    if cl == f.clauseNo && !b.strong && !barred th seq f.seq a then coveredBytes b bs a else none
  | _ => none

/-- A weak load takes the value of the thread's latest access to its bytes; a weak store is dropped where a later weak
store of its clause covers its bytes (R201, elide). -/
def elideFlight (s : State) (t : Nat) (th : Thread) (f : Flight) : State :=
  match f.op with
  | .load a sg =>
    (match (if a.strong then none else elidedValue th f a) with
    | some bs => modThread s t (fun th => th.modFlight f.seq (fun f =>
        { f with got := some (loadWords a.len sg (splice bs f.parts)) }))
    | none => s)
  | .store a _ =>
    let covered := !a.strong && f.accesses.all (fun a => th.flights.any (fun g =>
      decide (f.seq < g.seq) && g.clauseNo == f.clauseNo && g.got.isNone && g.parts.isEmpty
      && (match g.op with
        | .store b bs => !b.strong && (coveredBytes b bs a).isSome && !barred th f.seq g.seq a
        | _ => false)))
    if covered then modThread s t (fun th => th.retire f) else s
  | _ => s

/-- A memory operation was issued after the fence that this one stands before: the stretch it could be performed again in
is over (R201, R231). -/
def pastFence (th : Thread) (seq : Nat) : Bool := decide (seq < th.fencew) && decide (th.fencew ≤ th.lastMem)

/-- The access reads a bank in its refresh window (R191). -/
def accessRefreshing (s : State) (a : Access) : Bool :=
  match a.loc with
  | .weight off => refreshing s off a.len
  | _ => false

/-- A weak access that is performed may be performed again, until a later access of the thread to its bytes is (R201,
repeat): a store with the same value, a load whose register then receives the last value. -/
def repeatAccess (s : State) (t seq : Nat) : State :=
  match thread? s t with
  | none => s
  | some th =>
    match th.recent.find? (fun d => d.seq == seq) with
    | none => s
    | some d =>
      if th.recent.any (fun e => decide (seq < e.seq) && e.acc.meets d.acc) || decide (1 < (th.recent.filter (fun e => e.seq == seq)).length)
        || pastFence th seq || accessRefreshing s d.acc then s
      else if d.store then
        let (p, s) := storeAt s d.acc d.data th.pts th.sealId
        modThread s t (fun th => th.takePts p)
      else match th.flights.find? (fun f => f.seq == seq) with
        | some f => (match f.op, f.got with
          | .load a _, some _ => if a == d.acc then performFlight (modThread s t (fun th =>
              { th with recent := th.recent.filter (fun e => e.seq != seq) })) t { f with parts := [] } none else s
          | _, _ => s)
        | none => s

/-! ### Accesses of ended threads (R67, R105) -/

/-- A logical time an ended thread's access brought: its grid's completion word carries it (R67, R204). -/
def noteEndPts (s : State) (tm p : Nat) : State :=
  match team? s tm with
  | some t => modGrid s t.grid (fun g => { g with endPts := Nat.max g.endPts p })
  | none => s

/-- Perform an access an ended thread has left, and let the thread's next ones follow it in logical time. -/
def performHeir (s : State) (h : Heir) : State :=
  let s := { s with heirs := s.heirs.filter (fun g => !(g.thread == h.thread && g.seq == h.seq)) }
  let c := ((team? s h.team).map (·.core)).getD 0
  let (p, s) := match h.op with
    | .store a bs => if h.parts.isEmpty then storeAt s a bs h.pts h.sealId else writeLeft s h.pts h.sealId [a] bs h.parts
    | .atom a op => let (_, p, s) := atomAt s c a op h.pts h.sealId; (p, s)
    | _ => (h.pts, s)
  noteEndPts { s with heirs := s.heirs.map (fun g => if g.thread == h.thread then { g with pts := Nat.max g.pts p } else g) } h.team p

/-- Nothing comes before an access of an ended thread any more. -/
def Heir.free (s : State) (h : Heir) : Bool :=
  h.ops.all (fun i => (kget? s.mtx i).isNone) && h.reqs.all (fun i => (kget? s.domain.reqs i).isNone)
    && !s.heirs.any (fun g => g.thread == h.thread && decide (g.seq < h.seq))

/-- Perform the accesses of ended threads that nothing comes before, the oldest first. -/
def settleHeirs (s : State) : State :=
  s.heirs.foldl (fun s h => match s.heirs.find? (fun g => g.thread == h.thread && g.seq == h.seq) with
    | some g => if g.free s then performHeir s g else s
    | none => s) s

/-- A tile operation of an ended thread waits for what comes before it in the thread's order (R200, R305). -/
def orphanWaits (s : State) (o : MtxOp) : Bool :=
  o.preds.any (fun i => (kget? s.mtx i).isSome)
    || (match o.orphan with
      | some (t, q) => s.heirs.any (fun h => h.thread == t && decide (h.seq < q))
      | none => false)

/-- A strong store of the device at a physical address (R417). -/
def storeDevice (s : State) (pa pts sealId : Nat) (bs : List Byte) : State :=
  (storeRange s pts sealId [⟨.glob pa, bs.length, true, 0, true, sealId⟩] bs).2

/-- The mask of a list of registers. -/
def maskOf (rs : List Nat) : Nat := rs.foldl (fun m r => m ||| 2 ^ r) 0

/-- What a reply changes in the context record of an evicted thread: the registers it is for, and MAPPED, PENDING, PTS
and EC, at their offsets (R77, R416, R417). -/
def replyBytes (th : Thread) (dests : List Nat) : List (Nat × List Byte) :=
  dests.map (fun r => (4 * r, leBytes 4 (th.reg r).toNat))
    ++ [(256, leBytes 8 (maskOf (th.regs.map (·.1)))), (264, leBytes 8 (maskOf th.pend)), (288, leBytes 8 th.pts), (300, (List.range 6).flatMap (fun i => leBytes 1 (th.counter i)))]

/-- A reply to an evicted thread is written into its context record, each part as a strong store (R77, R417). -/
def replyToRecord (s : State) (t : Nat) (dests : List Nat) : State :=
  match thread? s t with
  | none => s
  | some th =>
    if !th.evicted then s
    else (replyBytes th dests).foldl (fun s b => storeDevice s (th.record + b.1) th.pts th.sealId b.2) s

/-- An operation of a unit that has ended: its counter falls, and what it did waits to be acquired by a header wait on the
counter, or a read of it below the operation's contribution (R205, R305). -/
def Thread.unitDone (th : Thread) (f : Flight) (pts : Nat) : Thread :=
  { th.retire f with acq := if f.ec < 6 then th.acq ++ [{ ec := f.ec, level := f.level, pts := pts }] else th.acq }

/-- An operation is over: its counter falls, and where it brings a logical time that time waits to be acquired. -/
def Thread.over_ (th : Thread) (f : Flight) : Thread :=
  match f.brings with
  | some p => th.unitDone f p
  | none => th.retire f

/-- Write a finished operation's result: its registers stop being pending and its counter falls (R32). -/
def deliverFlight (s : State) (t : Nat) (f : Flight) (vals : List Word) : State :=
  let s := modThread s t (fun th =>
    let th := (th.setRegs (f.dests.zip vals)).over_ f
    { th with pend := th.pend.filter (fun r => !f.dests.contains r || th.flights.any (fun g => g.dests.contains r)) })
  replyToRecord s t f.dests

/-- A read of a weight-store bank in its refresh window waits (R191). -/
def inRefresh (s : State) (f : Flight) : Bool := f.accesses.any (accessRefreshing s)

/-- Perform these operations of a thread in order, each once nothing ahead of it is outstanding that it must follow, and no
bank it reads is in its refresh window. -/
def performAll (s : State) (t : Nat) (fs : List Flight) : State :=
  fs.foldl (fun s f => if ((thread? s t).map (fun th => mayPerform th f && !inRefresh s f)).getD false then performFlight s t f none else s) s

/-- Perform every outstanding access of a thread in its program order: an ordering point (R200). -/
def flush (s : State) (t : Nat) : State :=
  match thread? s t with
  | none => s
  | some th => modThread (performAll s t (th.flights.filter (fun f => f.got.isNone && f.op.here))) t Thread.orderingPoint

/-- Perform what accesses made now must follow; none where a unit or another package has part of it still to do. -/
def performBefore (s : State) (t : Nat) (as_ : List Access) : Option State :=
  match thread? s t with
  | none => some s
  | some th =>
    let fs := mustPrecede th.flights th.fencew as_
    if fs.all (fun f => f.op.here && !inRefresh s f) then some (performAll s t fs) else none

/-- Requests to other packages, or tile stores, are outstanding: an ordering point waits for them. -/
def remoteOpen (th : Thread) : Bool :=
  th.flights.any (fun f => f.got.isNone && (match f.op with
    | .remote .. | .mstore .. => true
    | .mload .. => !f.op.here
    | _ => false))

/-- An ordering point waits: for what is at other packages, for tile stores, and for a bank's refresh (R191, R200). -/
def orderWaits (s : State) (th : Thread) : Bool :=
  remoteOpen th || th.flights.any (fun f => f.got.isNone && f.op.here && inRefresh s f)

/-- Issue an operation: it joins the list, its destinations become pending, its counter rises (R26, R32). -/
def Thread.launch (th : Thread) (ec : Nat) (dests : List Nat) (op : FlightOp) (got : Option (List Word))
    (brings : Option Nat := none) : Thread :=
  { (th.mapPending dests).raise ec with
    flights := th.flights ++ [{ seq := th.seq, ec := ec, dests := dests, op := op, got := got, clauseNo := th.clauseNo,
                                level := if ec < 6 then th.counter ec + 1 else 0, brings := brings }]
    seq := th.seq + 1, lastMem := if op.accesses.isEmpty then th.lastMem else th.seq }

/-- The ended operations of a counter acquired by reading it (R205). -/
def Thread.acquireBelow (th : Thread) (i : Nat) : Thread :=
  let seen (a : Acq) : Bool := a.ec == i && decide (th.counter i < a.level)
  { (th.acq.filter seen).foldl (fun th a => th.takePts a.pts) th with acq := th.acq.filter (fun a => !seen a) }

/-- A thread reads a checked range at issue, after its earlier accesses: bytes and state. -/
def readNow (s : State) (t : Nat) (as_ : List Access) : List Byte × State :=
  let s := flush s t
  match thread? s t with
  | none => ([], s)
  | some th =>
    let r := loadRange s (coreOf s th) th.pts th.sealId as_
    (r.1, modThread r.2.2 t (fun th => th.takePts r.2.1))

/-- A thread writes a checked range at issue, after its earlier accesses. -/
def writeNow (s : State) (t : Nat) (as_ : List Access) (bs : List Byte) : State :=
  let s := flush s t
  match thread? s t with
  | none => s
  | some th =>
    let r := storeRange s th.pts th.sealId as_ bs
    modThread r.2 t (fun th => th.takePts r.1)

/-- The range touches another package's memory. -/
def rangeRemote (as_ : List Access) : Bool := as_.any (fun a => match a.loc with | .remote .. => true | _ => false)

/-- The largest timestamp any slice holds (R195). -/
def topTime (s : State) : Nat := (s.lines.wts ++ s.lines.rts).foldl (fun m p => Nat.max m p.2) 0

/-! ### Rebase (R198) -/

/-- The smallest pts of a context, resident or evicted. -/
def leastPts (s : State) : Nat :=
  s.feeds.foldl (fun m p => Nat.min m p.2.pts) (s.threads.foldl (fun m p => Nat.min m p.2.pts) (2 ^ 64))

/-- The largest line timestamp or logical time of a thread. -/
def topStamp (s : State) : Nat := s.threads.foldl (fun m p => Nat.max m p.2.pts) (topTime s)

/-- A line timestamp or a thread's logical time exceeds 2^62, and has grown since the latest rebase: the next step is one
(R198; log 158). -/
def rebaseDue (s : State) : Bool := decide (2 ^ 62 < topStamp s) && decide (s.lines.rebaseTop < topStamp s)

/-- Every timestamp a thread holds, lowered. -/
def Thread.lowerTimes (low : Nat → Nat) (th : Thread) : Thread :=
  { th with
    pts := low th.pts, acq := th.acq.map (fun a => { a with pts := low a.pts })
    flights := th.flights.map (fun f => { f with brings := f.brings.map low }) }

/-- Every timestamp a team holds, lowered. -/
def Team.lowerTimes (low : Nat → Nat) (tm : Team) : Team :=
  { tm with
    arrPts := tm.arrPts.map (fun p => (p.1, low p.2)), records := tm.records.map (fun p => (p.1, low p.2))
    sync := tm.sync.map (fun p => (p.1, low p.2)), buffers := tm.buffers.map (fun b => { b with pts := low b.pts })
    barriers := tm.barriers.map (fun p => (p.1, { p.2 with pts := low p.2.pts, donePts := low p.2.donePts })) }

/-- Device-wide rebase: private copies are dropped, and every timestamp is lowered by the smallest pts of a context,
those in context records with them (R198). -/
def rebase (s : State) : State :=
  let o := leastPts s
  let low (t : Nat) := t - o
  let lows (m : KMap Nat) : KMap Nat := m.map (fun p => (p.1, low p.2))
  let s : State := { s with
    lines := { s.lines with wts := lows s.lines.wts, rts := lows s.lines.rts, sync := lows s.lines.sync
                            copies := [], rebases := (s.lines.rebases + 1) % 2 ^ 32, rebaseTop := low (topStamp s) }
    threads := s.threads.map (fun p => (p.1, p.2.lowerTimes low))
    teams := s.teams.map (fun p => (p.1, p.2.lowerTimes low))
    grids := s.grids.map (fun p => (p.1, { p.2 with pts := low p.2.pts, endPts := low p.2.endPts }))
    queues := s.queues.map (fun p => (p.1, { p.2 with pts := p.2.pts.map low }))
    copies := s.copies.map (fun p => (p.1, { p.2 with pts := low p.2.pts }))
    feeds := s.feeds.map (fun p => (p.1, { p.2 with pts := low p.2.pts }))
    mtx := s.mtx.map (fun p => (p.1, { p.2 with pts := low p.2.pts }))
    heirs := s.heirs.map (fun h => { h with pts := low h.pts })
    rays := s.rays.map (fun p => (p.1, { p.2 with pts := low p.2.pts }))
    passes := s.passes.map (fun p => (p.1, { p.2 with pts := low p.2.pts }))
    chains := s.chains.map (fun p => (p.1, { p.2 with pts := low p.2.pts }))
    commits := s.commits.map (fun p => (p.1, { p.2 with pts := low p.2.pts }))
    reservoir := s.reservoir.map (fun p => (p.1, { p.2 with
      bsPts := low p.2.bsPts, slots := p.2.slots.map (fun q => (q.1, { q.2 with pts := low q.2.pts })) }))
    tasksDone := s.tasksDone.map (fun d => { d with pts := low d.pts })
    domain := { s.domain with reqs := s.domain.reqs.map (fun p => (p.1, { p.2 with pts := low p.2.pts })) }
    dev := { s.dev with graphs := s.dev.graphs.map (fun p => (p.1, { p.2 with run := p.2.run.map (fun r => { r with pts := low r.pts }) })) } }
  (s.threads.filter (fun p => p.2.evicted)).foldl (fun s p =>
    { s with mem := Memory.writeBytes s.mem (p.2.record + 288) (leBytes 8 p.2.pts) }) s

end Sys2Proof.Machine
end

