-- ==== Sys2Proof/Machine/Pool.lean ====
section
/-!
DEFINITION. A seal's context pool: the areas that hold context records, table images, private-window backing, and the
matrix and ray save areas (R189, R304, R357, R416, R459).

DESIGN CHOICE (log 160): an area stands at the lowest place of the pool that is free, at a multiple of 512 bytes.
-/
namespace Sys2Proof.Machine

/-- Bytes of a seal's context pool. -/
def poolBytes (s : State) (sealId : Nat) : Nat := 65536 * (sealOf s sealId).poolsz

/-- The lowest free place for `n` bytes among areas: at the pool's start or after an area. -/
def poolPlace (areas : KMap Nat) (total n : Nat) : Option Nat :=
  let fits (o : Nat) : Bool := decide (o + n ≤ total) && !areas.any (fun p => overlaps p.1 p.2 o n)
  ((0 :: areas.map (fun p => ceilDiv (p.1 + p.2) 512 * 512)).filter fits).foldl (fun (m : Option Nat) o => some (Nat.min (m.getD o) o)) none

/-- Lines of a seal's pool that are withheld, by offset (R420). -/
def poolLost (s : State) (sealId : Nat) : KMap Nat :=
  s.errors.quarantined.filterMap (fun q =>
    if q.1 == 0x09 && decide ((sealOf s sealId).pool ≤ 128 * q.2.2) then some (128 * q.2.2 - (sealOf s sealId).pool, 128) else none)

/-- Take an area of `n` bytes: its address; none where the pool has no room. -/
def poolTake (s : State) (sealId n : Nat) : Option (Nat × State) :=
  let e := sealOf s sealId
  (poolPlace (e.areas ++ poolLost s sealId) (poolBytes s sealId) n).map (fun o =>
    (e.pool + o, modSeal s sealId (fun e => { e with areas := kset e.areas o n })))

/-- Give back the area at an address. -/
def poolGive (s : State) (sealId a : Nat) : State :=
  modSeal s sealId (fun e => { e with areas := kdel e.areas (a - e.pool) })

/-- Take an area where the pool has room. -/
def poolTry (s : State) (sealId n : Nat) : Option Nat × State :=
  match poolTake s sealId n with
  | some (a, s) => (some a, s)
  | none => (none, s)

/-- Give back an area that may not have been taken. -/
def poolGive? (s : State) (sealId : Nat) (a : Option Nat) : State :=
  match a with
  | some a => poolGive s sealId a
  | none => s

end Sys2Proof.Machine
end

