-- ==== Sys2Proof/Machine/Sync.lean ====
section
/-!
DEFINITION. Word advance, waking, held traps, team barriers, arrival words, cluster queues and feed ports
(R23, R32, R113, R235 to R250, R406).
-/
namespace Sys2Proof.Machine

/-! ### Going on -/

/-- Past the current word: the next word of the clause, or the next clause's header (R23). A thread between clauses
stays where it is. -/
def Thread.advance (th : Thread) : Thread :=
  match th.clause with
  | none => { th with ext := {} }
  | some c =>
    if th.word < c.n then { th with word := th.word + 1, ext := {} }
    else { th with pc := (th.pc + 4 * (c.n + 1)) % 2 ^ 64, word := 0, clause := none, ext := {} }

/-- To a branch target, a clause header. -/
def Thread.branchTo (th : Thread) (target : Nat) : Thread :=
  { th with pc := target % 2 ^ 64, word := 0, clause := none, ext := {} }

/-- After a word with its switch marker: park while a register is pending (R32, R33). -/
def Thread.afterWord (th : Thread) (sw : Bool) : Thread :=
  { th with wait := if sw && !th.pend.isEmpty then .park else .ready }

/-- A hold ends. -/
def Thread.wake (th : Thread) : Thread :=
  { th with wait := if th.parkAfter && !th.pend.isEmpty then .park else .ready, parkAfter := false }

/-- The thread is ready or held at issue only (R79). -/
def Thread.atIssue (th : Thread) : Bool := th.wait == .ready || th.wait == .hold

/-- The thread is ready: nothing of R79 holds it. A hold at issue that has ended no longer shows, as holds are judged again
before each step (`settleHolds`). -/
def Thread.ready (th : Thread) : Bool := !th.suspended && !th.evicted && th.wait == .ready && th.due.isNone

/-- It has been ready for as long as R80 allows: it issues now. -/
def Thread.overdue (th : Thread) : Bool := decide (16384 ≤ th.waited)

/-- The thread stands at a word that has issued and completes later. -/
def Thread.inWord (th : Thread) : Bool :=
  match th.wait with
  | .ligature _ | .rendezvous .. | .regroup .. => true
  | _ => false

/-- The thread at the resume point of a synchronous trap: the word, or its first EXT word (R408). -/
def Thread.atResume (th : Thread) : Thread :=
  { th with word := if th.ext.ctl.isSome || th.ext.imm.isSome then th.ext.first else th.word, ext := {} }

/-- The thread goes on after a suspension or an eviction: from its header where no word of the clause has issued, else from
the recorded word, which it fetches again with the rest (R29, R30). A word that has issued is not fetched again. -/
def Thread.resumed (th : Thread) : Thread :=
  let th := if th.inWord then th else th.atResume
  match th.clause with
  | none => th
  | some c =>
    if th.word = 0 then { th with clause := none }
    else { th with clause := some { c with words := c.words.take (if th.inWord then th.word else th.word - 1), resumed := true } }

/-- The thread enters or leaves its quadrant's active set (R71). -/
def Thread.setActive (th : Thread) (b : Bool) (now : Nat) : Thread :=
  { th with active := b, slowSince := if b then th.slowSince else now }

/-- A word held without advance completes. -/
def Thread.completeHeld (th : Thread) : Thread :=
  let sw := th.rawWord.toNat.testBit 31
  (th.advance).afterWord sw

/-- RESUME of a record: header address, next word, CLASS and N (R416). At REGROUP it is the word after it: the one that
issues next once the barrier completes. -/
def resumeWord (th : Thread) : Nat :=
  let th := match th.wait with
    | .regroup .. => th.advance
    | _ => th.atResume
  let cn := match th.clause with
    | some c => if th.word = 0 then (0, 0) else (c.cls, c.n)
    | none => (0, 0)
  th.pc % 2 ^ 52 + th.word % 16 * 2 ^ 52 + cn.1 * 2 ^ 56 + cn.2 * 2 ^ 59

/-- An evicted thread's record gets the thread's present resume point (R408, R417). -/
def resumeToRecord (s : State) (t : Nat) : State :=
  match thread? s t with
  | some th => if th.evicted then storeDevice s (th.record + 272) th.pts th.sealId (leBytes 8 (resumeWord th)) else s
  | none => s

/-- Words the instruction at issue occupies where SKIP may pass it (R414): none at a header, nor for CLAUSE_FORM or a fetch
trap met by a thread resumed in mid-clause (R408). -/
def Thread.skipWords (th : Thread) (cause : Nat) : Nat :=
  let resumed := (th.clause.map (fun c => c.resumed || c.words.isEmpty)).getD true
  let lacking := (th.clause.map (fun c => decide (c.words.length < th.word))).getD false
  if th.word = 0 || lacking || (resumed && (cause == causeClauseForm)) then 0
  else th.word + 1 - (if th.ext.ctl.isSome || th.ext.imm.isSome then th.ext.first else th.word)

/-! ### Held traps (R406) -/

/-- Raise an asynchronous trap for a thread: held in order, at most 15. -/
def raiseAsync (s : State) (t cause : Nat) (infos : List Word) : State :=
  modThread s t (fun th =>
    if 15 ≤ th.held.length then { th with trap := { th.trap with alost := true } }
    else { th with held := th.held ++ [{ cause := cause, infos := infos }] })

/-- Raise a synchronous trap for a thread held at a word; it is delivered at the thread's next step. -/
def raiseDue (s : State) (t cause : Nat) (infos : List Word) : State :=
  resumeToRecord (modThread s t (fun th =>
    { th with due := some { cause := cause, infos := infos, words := some (th.skipWords cause) }, wait := .ready })) t

/-! ### Team barriers (R235 to R238) -/

/-- A role mask with the bits of absent roles cleared (R236). -/
def Team.maskOf (tm : Team) (m : Nat) : Nat :=
  (List.range 3).foldl (fun a k => if m.testBit k && tm.roles.contains k then a + 2 ^ k else a) 0

/-- Every live thread of a team whose role is in the mask has arrived. -/
def barrierFull (s : State) (tmid : Nat) (b : Barrier) : Bool :=
  match b.mask with
  | none => false
  | some m => (teamThreads s tmid).all (fun p => !m.testBit p.2.role || b.arrived.contains p.1)

/-- The thread waits at a barrier of its team for a generation that has passed (R237). -/
def Thread.barrierPassed (th : Thread) (tmid id gen : Nat) : Bool :=
  th.team == tmid && (match th.wait with | .barrier i g => i == id && g != gen | _ => false)

/-- A BAR or BARW wait ends when its generation differs from the one awaited (R237, R257). -/
def wakeBarrier (s : State) (tmid id gen pts : Nat) : State :=
  (s.threads.filter (fun p => p.2.barrierPassed tmid id gen)).foldl (fun s p =>
    replyToRecord (modThread s p.1 (fun th => (th.wake).takePts pts)) p.1 []) s

/-- Complete a barrier generation when everyone expected has arrived (R236). -/
def barrierCheck (s : State) (tmid id : Nat) : State :=
  match team? s tmid with
  | none => s
  | some tm =>
    let b := tm.barrier id
    if barrierFull s tmid b then
      let g := (b.gen + 1) % 2 ^ 32
      let p := Nat.max b.pts b.donePts
      let s := modTeam s tmid (fun tm =>
        { tm with barriers := kset tm.barriers id { gen := g, arrived := [], mask := none, pts := 0, donePts := p } })
      wakeBarrier s tmid id g p
    else s

/-- An arrival that R236 refuses: another mask, the thread's own role missing, or a second arrival. -/
def barrierRefuses (tm : Team) (th : Thread) (t id roles : Nat) : Bool :=
  let b := tm.barrier id
  let m := tm.maskOf roles
  (match b.mask with | some k => k != m | none => false) || !roles.testBit th.role || b.arrived.contains t

/-- Record an arrival (R236). -/
def barrierArrive (s : State) (t : Nat) (th : Thread) (id roles : Nat) : State :=
  let s := modTeam s th.team (fun tm =>
    let b := tm.barrier id
    let b' := { b with arrived := b.arrived ++ [t], mask := some (tm.maskOf roles), pts := Nat.max b.pts th.pts }
    { tm with barriers := kset tm.barriers id b' })
  barrierCheck s th.team id

/-- Every barrier of a team is judged again after an exit (R236). -/
def barriersAfterExit (s : State) (tmid : Nat) : State := (List.range 16).foldl (fun s i => barrierCheck s tmid i) s

/-! ### Arrival words (R239 to R246) -/

/-- The fields of an arrival word: TARGET, COUNT, GEN, FLAGS. -/
structure ArrWord where
  target : Nat
  count : Nat
  gen : Nat
  flags : Nat
  deriving DecidableEq, Repr

/-- Read an arrival word of a team. -/
def arrRead (tm : Team) (off : Nat) : ArrWord :=
  let w (i : Nat) := leNat (Memory.readBytes tm.spad (off + 4 * i) 4)
  ⟨w 0, w 1, w 2, w 3⟩

/-- Write an arrival word of a team. -/
def arrWrite (tm : Team) (off : Nat) (w : ArrWord) : Team :=
  let bs := leBytes 4 w.target ++ leBytes 4 w.count ++ leBytes 4 w.gen ++ leBytes 4 w.flags
  { tm with spad := Memory.writeBytes tm.spad off bs }

/-- ARMED, OVERSHOOT and ARMTID of the flags. -/
def ArrWord.armed (w : ArrWord) : Bool := w.flags.testBit 0
/-- The thread that last armed the word. -/
def ArrWord.armTid (w : ArrWord) : Nat := fld w.flags 16 10

/-- The strong access an instruction makes to an arrival word at its home (R242). -/
def arrAccess (tmid off : Nat) : Access :=
  { loc := .spad tmid off, len := 16, strong := true, cattr := 0, pageW := true, pageSeal := 0 }

/-- A generation counts as passed (R238, R245). -/
def genPassed (gen g : Nat) : Bool :=
  let d := (gen + 2 ^ 32 - g) % 2 ^ 32
  decide (1 ≤ d) && decide (d ≤ 2 ^ 31)

/-- The destination of a thread that waits at an arrival word for a generation that has passed (R245). -/
def Thread.arrivalPassed (th : Thread) (tmid off gen : Nat) : Option Nat :=
  match th.wait with
  | .arrival tm o g d _ => if tm == tmid && o == off && g != gen then some d else none
  | _ => none

/-- ARWAITs of a word whose generation now differs go on with the new generation, which goes into the context record of an
evicted waiter (R245, R257). -/
def wakeArrival (s : State) (tmid off gen pts : Nat) : State :=
  s.threads.foldl (fun s p => match p.2.arrivalPassed tmid off gen with
    | some d => replyToRecord (modThread s p.1 (fun th => ((th.wake).setReg d (wordN gen)).takePts pts)) p.1 [d]
    | none => s) s

/-- A completion of an arrival word: the generation advances and the linked buffer becomes FULL (R240). -/
def arrComplete (s : State) (tmid : Nat) (tm : Team) (a : Arrival) (w : ArrWord) (pts : Nat) : State :=
  let g := (w.gen + 1) % 2 ^ 32
  let p := Nat.max pts (kgetD tm.arrPts a.off 0)
  let s := modTeam s tmid (fun tm =>
    let tm := arrWrite tm a.off { w with gen := g, count := 0 }
    let tm := tm.modBuffer a.buf (fun b => if b.state ≤ 1 then { b with state := 2 } else b)
    { tm with arrPts := kset tm.arrPts a.off p })
  wakeArrival s tmid a.off g p

/-- ArrivalAdd (R240), by an agent at logical time `pts`. -/
def arrivalAdd (s : State) (tmid off n pts : Nat) : State :=
  match team? s tmid with
  | none => s
  | some tm =>
    match tm.arrivals.find? (fun a => a.off == off) with
    | none => s
    | some a =>
      let w := arrRead tm off
      let s := met s (.spad tmid off) 16
      if !w.armed then modTeam s tmid (fun tm => arrWrite tm off { w with count := (w.count + n) % 2 ^ 32 })
      else
        let v := w.count + n
        let ovf := decide (w.target < v)
        let w' := if ovf then { w with flags := w.flags ||| 2 } else w
        let done := decide (w.target ≤ v)
        let s := if done then arrComplete s tmid tm a w' pts
          else modTeam s tmid (fun tm =>
            { arrWrite tm off { w' with count := v } with
              arrPts := kset tm.arrPts off (Nat.max pts (kgetD tm.arrPts off 0)) })
        if ovf then
          match threadOfTid s tmid w.armTid with
          | some t => raiseAsync s t causeOvershoot
              [wordN off, wordN w.count, wordN n, wordN ((w.gen + 1) % 2 ^ 32)]
          | none => s
        else s

/-! ### Cluster queues (R247 to R250) -/

/-- Key of a queue: cluster and number. -/
def queueKey (handle : Nat) : Nat := handle % 512

/-- A queue; one that is not listed stands as after reset. -/
def queueOf (s : State) (handle : Nat) : Queue := kgetD s.queues (queueKey handle) {}

/-- Put a queue back. -/
def setQueue (s : State) (handle : Nat) (q : Queue) : State := { s with queues := kset s.queues (queueKey handle) q }

/-- Give an entry to a thread waiting at QPOP: it goes on with the entry in its pair, or in its context record (R249). -/
def grantEntry (s : State) (t : Nat) (e : DWord) (pts : Nat) : State :=
  match (thread? s t).map Thread.wait with
  | some (.queue _ d) =>
    replyToRecord (modThread s t (fun th =>
      (((th.wake).setReg d (wordN (e.toNat % 2 ^ 32))).setReg (d + 1) (wordN (e.toNat / 2 ^ 32))).takePts pts)) t [d, d + 1]
  | _ => s

/-- An entry arrives at a queue: the first waiter takes it, or it joins the entries (R249). -/
def queuePush (s : State) (handle : Nat) (e : DWord) (pts : Nat) : State :=
  let q := queueOf s handle
  match q.waiters with
  | t :: ws => grantEntry (setQueue s handle { q with waiters := ws }) t e pts
  | [] => setQueue s handle { q with entries := q.entries ++ [e], pts := q.pts ++ [pts] }

/-! ### Feed ports q0 to q7 (R113, R282, R286) -/

/-- Entries standing in a port. -/
def Team.port (tm : Team) (gid q : Nat) : List Word := kgetD tm.ports (gkey gid q) []

/-- Append an entry to a group's port: the first waiter takes it, into its context record where it is evicted (R113). -/
def portPush (s : State) (tmid gid q : Nat) (v : Word) : State :=
  match team? s tmid with
  | none => s
  | some tm =>
    match kgetD tm.portWait (gkey gid q) [] with
    | t :: ws =>
      let s := modTeam s tmid (fun tm => { tm with portWait := kset tm.portWait (gkey gid q) ws })
      match (thread? s t).map Thread.wait with
      | some (.port _ d) => replyToRecord (modThread s t (fun th => (th.wake).setReg d v)) t [d]
      | _ => s
    | [] => modTeam s tmid (fun tm => { tm with ports := kset tm.ports (gkey gid q) (tm.port gid q ++ [v]) })

end Sys2Proof.Machine
end

