-- ==== Sys2Proof/Machine/Operands.lean ====
section
/-!
DEFINITION. Operand forms, EXT fields, the opcode map's columns, and the checks a word passes before its entry
(R28, R34 to R51).
-/
namespace Sys2Proof.Machine

/-! ### The opcode map's columns (R44, R51) -/

/-- Class of an operation, by its opcode range. -/
def classOf (opc : Nat) : Nat :=
  if opc < 0x100 then 0 else if opc < 0x180 then 1 else if opc < 0x200 then 2 else if opc < 0x280 then 3
  else if opc < 0x300 then 4 else if opc < 0x380 then 5 else if opc < 0x3E0 then 6 else 7

/-- Rows marked priv. -/
def isPriv (opc : Nat) : Bool := [0x3E1, 0x3E2, 0x3E3, 0x3E4, 0x3E6, 0x3E7, 0x3E8, 0x3E9, 0x3EA].contains opc

/-- Rows marked branch. -/
def isBranch (opc : Nat) : Bool := (decide (0x100 ≤ opc) && decide (opc ≤ 0x105)) || opc == 0x3E1

/-- Rows listing "rnd", with or without "srh". -/
def takesRnd (opc : Nat) : Bool :=
  [0x080, 0x081, 0x082, 0x083, 0x093, 0x096, 0x097, 0x098, 0x099, 0x09A, 0x09B, 0x09C, 0x09D, 0x191, 0x303, 0x30A].contains opc
    || (decide (0x089 ≤ opc) && decide (opc ≤ 0x091))

/-- Rows listing "rnd+srh". -/
def takesSrh (opc : Nat) : Bool := [0x09B, 0x09C, 0x09D].contains opc

/-- Rows listing "sat". -/
def takesSat (opc : Nat) : Bool := [0x005, 0x006, 0x007, 0x00A, 0x024, 0x026, 0x09B, 0x09C, 0x09D].contains opc

/-- Rows listing "c required". -/
def needsC (opc : Nat) : Bool := [0x00A, 0x01B, 0x024, 0x083, 0x095, 0x09A, 0x18D].contains opc

/-- TWOSUM's c is its second result, not a source (R171). -/
def cIsResult (opc : Nat) : Bool := opc == 0x095

/-- Words that take an EXT immediate: formats B, C, J and M whose entry uses the immediate (R36, R41). -/
def takesImm (opc : Nat) : Bool :=
  (decide (0x002 ≤ opc) && decide (opc ≤ 0x004)) || (decide (0x026 ≤ opc) && decide (opc ≤ 0x02D))
    || [0x100, 0x101, 0x103, 0x106, 0x107, 0x108, 0x109, 0x10A, 0x10D, 0x300, 0x301, 0x305, 0x306].contains opc
    || (decide (0x180 ≤ opc) && decide (opc ≤ 0x18B))

/-- Format C rows that take the immediate (R36). -/
def isFormatC (opc : Nat) : Bool := decide (0x002 ≤ opc) && decide (opc ≤ 0x004)

/-- Entries of format B that take the immediate form but give the immediate no meaning: it must be 0. -/
def immUnused (opc : Nat) : Bool := opc == 0x107 || opc == 0x108

/-- Map 3 assigns the opcode (R51). -/
def assigned (opc : Nat) : Bool := wordRows.any (fun r => r.opc == opc) || opc == 0x3FF

/-- Entry of map 3 (R45). -/
def map3Entry (opc : Nat) : Nat :=
  if opc == 0 || opc == 0x3FF then 0
  else if assigned opc then opc + (if isPriv opc then 2 ^ 13 else 0) else 0xFFF

/-- The entry of an opcode in a decode table (R44). Maps 0 to 2 hold what the firmware image has installed, and the shipped
contents of map 3 otherwise (R45, R428). -/
def tableEntry (s : State) (tb : DecodeTable) (opc : Nat) : Nat :=
  match tb with
  | .map n => (match (if n < 3 then kget? s.dev.maps n else none) with
    | some es => nthD es opc 0
    | none => map3Entry opc)
  | .image es => nthD es opc 0

/-- Fields of a decode entry. -/
def entryPriv (e : Nat) : Bool := flag e 13
def entryEmu (e : Nat) : Bool := flag e 12
def entryIop (e : Nat) : Nat := fld e 0 12
/-- The opcode is unmapped. -/
def entryUnmapped (e : Nat) : Bool := !entryEmu e && entryIop e == 0xFFF
/-- Class the entry gives (R44). -/
def entryClass (e : Nat) : Nat := if entryEmu e then fld e 9 3 else classOf (entryIop e)

/-! ### One word at issue -/

/-- A register operand: its low register, how many registers, and its last-read bit (R35, R43). -/
structure Src where
  base : Nat
  n : Nat
  last : Bool
  deriving DecidableEq, Repr

/-- A single register source. -/
def src (r : BitVec 6) (last : Bool) : Src := ⟨r.toNat, 1, last⟩
/-- A pair source. -/
def srcPair (r : BitVec 6) (last : Bool) : Src := ⟨r.toNat, 2, last⟩
/-- Registers of an operand. -/
def Src.regs (a : Src) : List Nat := range a.base a.n

/-- What an instruction's entry reads: the state, its thread, the word and its EXT words. -/
structure Ctx where
  s : State
  t : Nat
  th : Thread
  iw : Word
  ctl : Option Nat
  imm : Option Nat

/-- Fields of the EXT control word (R39); 0 without one. -/
def Ctx.ctlField (k : Ctx) (lo n : Nat) : Nat := fld (k.ctl.getD 0) lo n
/-- RND. -/
def Ctx.rnd (k : Ctx) : Nat := k.ctlField 12 3
/-- SAT. -/
def Ctx.sat (k : Ctx) : Bool := k.ctlField 11 1 == 1
/-- Register number of c. -/
def Ctx.cReg (k : Ctx) : Nat := k.ctlField 5 6
/-- LC. -/
def Ctx.lc (k : Ctx) : Bool := k.ctlField 4 1 == 1
/-- IMM20, 0 without an EXT immediate word. -/
def Ctx.imm20 (k : Ctx) : Nat := fld (k.imm.getD 0) 0 20
/-- A register's value. -/
def Ctx.g (k : Ctx) (r : BitVec 6) : Word := k.th.reg r.toNat
/-- A pair's value. -/
def Ctx.g64 (k : Ctx) (r : BitVec 6) : Nat := k.th.reg64 r.toNat
/-- The thread's decode entry of an opcode (R44). -/
def Ctx.entry (k : Ctx) (opc : Nat) : Nat := tableEntry k.s k.th.table opc
/-- The value of c. -/
def Ctx.c (k : Ctx) : Word := k.th.reg k.cReg
/-- The rounding mode: the override, or the one the entry gives (R41). -/
def Ctx.mode (k : Ctx) (m : Nat) : Nat := if k.rnd = 0 then m else k.rnd - 1

/-- Format B immediate, sign-extended (R36). -/
def Ctx.immB (k : Ctx) (i : BitVec 7) : Int :=
  match k.imm with
  | none => sx i.toNat 7
  | some _ => sx (k.imm20 * 2 ^ 7 + i.toNat) 27

/-- Format B immediate, zero-extended (R36). -/
def Ctx.immBu (k : Ctx) (i : BitVec 7) : Nat :=
  match k.imm with
  | none => i.toNat
  | some _ => k.imm20 * 2 ^ 7 + i.toNat

/-- Format C immediate: imm15 sign- or zero-extended, or all 32 bits (R36). -/
def Ctx.immC (k : Ctx) (i : BitVec 15) (signed : Bool) : Word :=
  match k.imm with
  | none => if signed then word (sx i.toNat 15) else wordN i.toNat
  | some _ => wordN (fld k.imm20 0 17 * 2 ^ 15 + i.toNat)

/-- Address of the next clause header (R37). -/
def nextHeader (th : Thread) : Nat :=
  match th.clause with
  | none => th.pc
  | some c => th.pc + 4 * (c.n + 1)

/-- A target of a signed word offset of `n` bits, wider under an EXT immediate (R36, R37). -/
def Ctx.target (k : Ctx) (offset n : Nat) : Nat :=
  let o := match k.imm with
    | none => sx offset n
    | some _ => sx (k.imm20 * 2 ^ n + offset) (20 + n)
  wrap ((nextHeader k.th : Int) + 4 * o) 64

/-- Format M address: the pair plus the displacement (R36). -/
def Ctx.addrM (k : Ctx) (a : BitVec 6) : Nat :=
  wrap ((k.g64 a : Int) + (match k.imm with | none => 0 | some _ => sx k.imm20 20)) 64

/-! ### Traps raised by the shared checks -/

/-- ILLEGAL_OP (R49). -/
def Ctx.illegal (k : Ctx) (reason : Nat) : Stop :=
  let e := if reason == 4 then 0 else k.entry (fld k.iw.toNat 21 10)
  .trap causeIllegalOp (wordN (e * 2 ^ 16 + reason)) k.iw (wordN (k.ctl.getD 0)) (wordN (k.imm.getD 0))

/-- ILLEGAL_OP, reason 4, where an EXT word itself is at fault (R49). -/
def Ctx.extFault (k : Ctx) (ext : Word) : Stop :=
  .trap causeIllegalOp 4 ext (wordN (k.ctl.getD 0)) (wordN (k.imm.getD 0))

/-- The header of the clause, or the one formed for a thread resumed in mid-clause (R49). -/
def Clause.headerWord (c : Clause) : Word :=
  if c.resumed then wordN (0xC * 2 ^ 28 + c.n * 2 ^ 24 + c.cls * 2 ^ 21) else wordN c.header

/-- CLAUSE_FORM at a word (R49). -/
def Ctx.clauseForm (k : Ctx) (reason : Nat) : Stop :=
  .trap causeClauseForm (wordN reason) ((k.th.clause.map Clause.headerWord).getD 0) (wordN k.th.word) k.iw

/-- PRIV (R407). -/
def privTrap (iw : Word) : Stop := .trap causePriv 0 iw 0 0

/-- PENDING_READ (R407). -/
def Ctx.pendingTrap (k : Ctx) (r : Nat) : Stop :=
  .trap causePendingRead (wordN r) k.iw (wordN (k.ctl.getD 0)) 0

/-! ### Steps 5 to 11 of R48 -/

/-- What the shared checks decide. -/
inductive Gate where
  | off
  | stop (st : Stop)
  | go
  deriving Repr

/-- The predicate of R42 is 1. -/
def Ctx.predOn (k : Ctx) : Bool :=
  k.ctlField 15 1 == 0 || (k.th.pred (k.ctlField 17 3) != (k.ctlField 16 1 == 1))

/-- The word is the clause's last. -/
def Thread.lastWord (th : Thread) : Bool :=
  match th.clause with
  | none => true
  | some c => th.word == c.n

/-- Class and place of a branch (R28). A thread between clauses has no class to break. -/
def Ctx.classFault (k : Ctx) (cls : Nat) (branch : Bool) : Option Nat :=
  match k.th.clause with
  | none => none
  | some c => if c.cls != cls then some 4 else if branch && !k.th.lastWord then some 5 else none

/-- A field of the EXT control word the instruction does not accept (R41). -/
def Ctx.ctlMisuse (k : Ctx) (opc : Nat) : Bool :=
  match k.ctl with
  | none => needsC opc
  | some w =>
    (fld w 15 1 == 0 && fld w 16 4 != 0)
      || (k.rnd != 0 && !takesRnd opc) || (k.rnd == 6 && !takesSrh opc)
      || (k.sat && !takesSat opc)
      || (fld w 4 7 != 0 && !(needsC opc || takesSrh opc))
      || (k.lc && cIsResult opc)

/-- The EXT immediate word is not accepted, or holds bits the entry gives no meaning. -/
def Ctx.immMisuse (k : Ctx) (opc : Nat) : Bool :=
  match k.imm with
  | none => false
  | some _ => !takesImm opc || (immUnused opc && k.imm20 != 0)

/-- Registers the fourth operand names: the pair of ATOMC.b64 (R223). -/
def cWidth (i : Instr) : Nat :=
  match i with
  | .atomc _ _ _ _ _ _ m => 1 + b2n m
  | _ => 1

/-- Step 10: operand and EXT legality (R34 to R41, R50). -/
def Ctx.legality (k : Ctx) (i : Instr) (opc : Nat) : Option Stop :=
  if reservedOperand i then some (k.illegal 2)
  else if !operandsOk i || k.cReg % cWidth i != 0 then some (k.illegal 3)
  else if k.rnd == 7 then some (k.illegal 2)
  else if k.ctlMisuse opc then some (k.illegal 4)
  else if k.immMisuse opc then some (k.illegal 4)
  else if k.imm.isSome && isFormatC opc && fld k.imm20 17 3 != 0 then some (k.extFault (wordN (k.imm.getD 0)))
  else none

/-- Sources with c, where c is one (R41). DESIGN CHOICE (log 183): a conversion with a control word has c as a source in every
mode, though only SRH uses it as a seed. -/
def Ctx.allSrcs (k : Ctx) (i : Instr) (opc : Nat) (srcs : List Src) : List Src :=
  if k.ctl.isSome && (needsC opc || takesSrh opc) && !cIsResult opc then srcs ++ [⟨k.cReg, cWidth i, k.lc⟩] else srcs

/-- The lowest pending register among the sources (R32). -/
def Ctx.pendingSrc (k : Ctx) (srcs : List Src) : Option Nat :=
  (List.range 64).find? (fun r => k.th.pend.contains r && srcs.any (fun a => decide (a.base ≤ r) && decide (r < a.base + a.n)))

/-- Registers the last-read bits free (R43). -/
def freesOf (srcs : List Src) : List Nat := (srcs.filter (·.last)).flatMap Src.regs

/-- Steps 4 (an immediate form before a NOP) to 11 of R48 for a decoded word. -/
def Ctx.gate (k : Ctx) (i : Instr) (opc : Nat) (srcs : List Src) : Gate :=
  if opc == 0 && k.imm.isSome then .stop (k.extFault (wordN (k.imm.getD 0)))
  else if !k.predOn then .off
  else match (if opc == 0 then none else k.classFault (classOf opc) (isBranch opc)) with
  | some r => .stop (k.clauseForm r)
  | none =>
    if (isPriv opc || entryPriv (k.entry (fld k.iw.toNat 21 10))) && !k.th.system then .stop (privTrap k.iw)
    else match k.legality i opc with
    | some st => .stop st
    | none =>
      match k.pendingSrc (k.allSrcs i opc srcs) with
      | some r => .stop (k.pendingTrap r)
      | none => .go

/-! ### What an entry leaves -/

/-- Where control goes. -/
inductive Flow where
  /-- The next word. -/
  | next
  /-- A clause header. -/
  | branch (target : Nat)
  /-- The next word once the hold ends. -/
  | wait (w : Wait)
  /-- The entry has settled the thread itself. -/
  | done
  deriving DecidableEq, Repr

/-- A long-latency operation to issue: counter, destinations, what it does, its values if known (R26, R32). -/
structure Launch where
  ec : Nat
  dests : List Nat
  op : FlightOp
  got : Option (List Word) := none
  /-- Logical time its completion brings (R205). -/
  brings : Option Nat := none

/-- What an entry leaves: the state, registers written at once, registers a later completion writes, a long-latency
operation, where control goes, and what follows when the thread has moved. -/
structure Eff where
  st : State
  writes : List (Nat × Word) := []
  later : List Nat := []
  /-- Registers freed beyond those the operand fields name (R151). -/
  moreFrees : List Nat := []
  launch : Option Launch := none
  flow : Flow := .next
  after : State → State := id

/-- Every register the instruction maps. -/
def Eff.dests (e : Eff) : List Nat :=
  e.writes.map (·.1) ++ e.later ++ ((e.launch.map (·.dests)).getD [])

/-- Footprint after the frees with the destinations mapped (R72). -/
def footprintAfter (th : Thread) (frees dests : List Nat) : Nat :=
  ((List.range 64).filter (fun r => dests.contains r || (th.mapped r && !frees.contains r))).length

/-- Step 13: REG_BUDGET (R72). -/
def Ctx.budget (k : Ctx) (frees dests : List Nat) : Option Stop :=
  if dests.isEmpty || footprintAfter k.th frees dests ≤ k.th.budget then none
  else
    let low := (List.range 64).find? (fun r => dests.contains r && !k.th.mapped r)
    some (.trap causeRegBudget (wordN (low.getD 0)) (wordN k.th.footprint) (wordN k.th.budget) 0)

/-- A result written at once. -/
def ret (k : Ctx) (d : BitVec 6) (v : Word) : Except Stop Eff := .ok { st := k.s, writes := [(d.toNat, v)] }

/-- A pair written at once. -/
def ret64 (k : Ctx) (d : BitVec 6) (v : Nat) : Except Stop Eff :=
  .ok { st := k.s, writes := [(d.toNat, wordN (v % 2 ^ 32)), (d.toNat + 1, wordN (v / 2 ^ 32 % 2 ^ 32))] }

/-- A result that its unit writes later: its value is known at issue (R32). -/
def retLater (k : Ctx) (ec : Nat) (d : BitVec 6) (vs : List Word) : Except Stop Eff :=
  .ok { st := k.s, launch := some { ec := ec, dests := range d.toNat vs.length, op := .result vs, got := some vs } }

/-- The effect, its operation's completion bringing a logical time. -/
def Eff.bringing (e : Eff) (pts : Nat) : Eff := { e with launch := e.launch.map (fun l => { l with brings := some pts }) }

/-- The effect, in another state. -/
def inState (s : State) (r : Except Stop Eff) : Except Stop Eff := r.map (fun e => { e with st := s })

end Sys2Proof.Machine
end

