-- ==== Sys2Proof/Machine/Launch.lean ====
section
/-!
DEFINITION. Launch records, placement and retirement of teams (R59 to R67).
-/
namespace Sys2Proof.Machine

/-! ### The record (R62 to R64) -/

/-- Field of `n` bytes of a byte list at an offset (R3). -/
def bfld (bs : List Byte) (off n : Nat) : Nat := leNat ((bs.drop off).take n)

/-- Parse the 128 bytes of a launch record. -/
def parseRecord (bs : List Byte) : LaunchRecord :=
  { kaddr := bfld bs 0 8, args := bfld bs 8 8, done := bfld bs 16 8, decl := bfld bs 24 8, gx := bfld bs 32 2
    gy := bfld bs 34 2, gz := bfld bs 36 2, teamn := bfld bs 38 2, groups := bfld bs 40 1, flags := bfld bs 41 1
    spord := bfld bs 42 1, tiles := bfld bs 43 1, privKb := bfld bs 44 2, map := bfld bs 46 1, nbuf := bfld bs 47 1
    narr := bfld bs 48 1
    roles := (List.range (Nat.min 3 (bfld bs 49 1))).map (fun i =>
      (bfld bs (52 + 4 * i) 1, bfld bs (53 + 4 * i) 1, bfld bs (54 + 4 * i) 2))
    mapimg := bfld bs 64 8, dbegin := bfld bs 72 4, dend := bfld bs 76 4, dchunk := bfld bs 80 2, dorder := bfld bs 82 1
    sealId := bfld bs 84 2, queue := bfld bs 86 1, prio := bfld bs 87 1, deadline := bfld bs 88 8, budget := bfld bs 96 4 }

/-- QUAD. -/
def LaunchRecord.quad (r : LaunchRecord) : Bool := r.flags.testBit 0
/-- CLUSTER. -/
def LaunchRecord.clusterSel (r : LaunchRecord) : Nat := fld r.flags 1 2
/-- DLEN. -/
def LaunchRecord.dlen (r : LaunchRecord) : Bool := r.flags.testBit 3
/-- Teams of the grid. -/
def LaunchRecord.teams (r : LaunchRecord) : Nat := r.gx * r.gy * r.gz
/-- Threads per group, ⌈n/G⌉ (R60). -/
def LaunchRecord.groupSize (r : LaunchRecord) : Nat := ceilDiv r.teamn r.groups

/-- An address of window 0x00 with an alignment. -/
def window0 (a align : Nat) : Bool := a / 2 ^ 52 == 0 && a % align == 0

/-- The limits of R62, each with the offset it is reported at, in ascending order. -/
def recordChecks (r : LaunchRecord) (bs : List Byte) : List (Nat × Bool) :=
  let nrole := bfld bs 49 1
  let roleWord (i : Nat) : Nat := bfld bs (52 + 4 * i) 4
  let roleOk (i : Nat) : Bool :=
    if i < nrole then
      let (k, b, c) := nthD r.roles i (0, 0, 0)
      decide (k ≤ 2) && !((r.roles.take i).any (fun p => p.1 == k)) && decide (1 ≤ b) && decide (b ≤ 64) && decide (1 ≤ c)
    else roleWord i == 0
  [ (0, window0 r.kaddr 4)
  , (16, r.done == 0 || window0 r.done 8)
  , (24, if r.nbuf + r.narr == 0 then r.decl == 0 else window0 r.decl 8)
  , (32, r.gx != 0), (34, r.gy != 0), (36, r.gz != 0)
  , (38, decide (1 ≤ r.teamn) && decide (r.teamn ≤ 1024))
  , (40, decide (1 ≤ r.groups) && decide (r.groups ≤ 16) && decide (r.teamn ≤ 64 * r.groups)
      && decide ((r.groups - 1) * r.groupSize < r.teamn))
  , (41, fld r.flags 4 4 == 0 && (!r.quad || r.groups % 4 == 0))
  , (42, decide (r.spord ≤ 8))
  , (43, decide (r.tiles ≤ 8) && decide (ceilDiv r.groups 4 * r.tiles ≤ 8))
  , (44, decide (r.privKb ≤ 1024))
  , (46, decide (r.map ≤ 3) || r.map == 0xFF)
  , (47, decide (r.nbuf ≤ 32)), (48, decide (r.narr ≤ 32))
  , (49, decide (1 ≤ nrole) && decide (nrole ≤ 3))
  , (50, bfld bs 50 2 == 0)
  , (52, roleOk 0 && (r.roles.foldl (fun n p => n + p.2.2) 0 == r.teamn)), (56, roleOk 1), (60, roleOk 2)
  , (64, if r.map == 0xFF then window0 r.mapimg 64 else r.mapimg == 0)
  , (76, decide (r.dbegin ≤ r.dend))
  , (80, r.dchunk != 0 || r.dend == r.dbegin)
  , (82, decide (r.dorder ≤ 2)), (83, bfld bs 83 1 == 0)
  , (84, decide (1 ≤ r.sealId) && decide (r.sealId ≤ 1023))
  , (86, decide (r.queue ≤ 63)), (87, decide (r.prio ≤ 15))
  , (100, bfld bs 100 28 == 0) ]

/-- Offset of the first field out of its limits. -/
def badField (cs : List (Nat × Bool)) : Option Nat := (cs.find? (fun c => !c.2)).map (·.1)

/-- The eight bytes of a buffer record as a buffer (R184). -/
def bufferOf (v : Nat) : Buffer := { idx := fld v 38 5, base := fld v 0 19, extent := fld v 19 19, state := 0, readers := [] }

/-- Limits of one buffer record (R63). -/
def bufferOk (v spad : Nat) (before : List Buffer) : Bool :=
  let b := bufferOf v
  fld v 43 21 == 0 && b.base % 128 == 0 && b.extent % 128 == 0 && decide (128 ≤ b.extent)
    && decide (b.base + b.extent ≤ spad)
    && !before.any (fun o => o.idx == b.idx || overlaps o.base o.extent b.base b.extent)

/-- Parse the declaration block: buffers, arrivals with targets, or the offset of the first bad field (R63, R64). -/
def parseDecls (r : LaunchRecord) (bs : List Byte) : Except Nat (List Buffer × List (Arrival × Nat)) :=
  let spad := 1024 * 2 ^ r.spord
  match (List.range r.nbuf).foldlM (fun (acc : List Buffer) i =>
      let v := bfld bs (8 * i) 8
      if bufferOk v spad acc then Except.ok (acc ++ [bufferOf v]) else Except.error (128 + 8 * i)) [] with
  | .error o => .error o
  | .ok bufs =>
    match (List.range r.narr).foldlM (fun (acc : List (Arrival × Nat)) i =>
        let o := 8 * r.nbuf + 8 * i
        let target := bfld bs o 4
        let off := 16 * bfld bs (o + 4) 2
        let buf := bfld bs (o + 6) 1
        let idx := bfld bs (o + 7) 1
        if target == 0 then Except.error (128 + o)
        else if decide (spad < off + 16) || bufs.any (fun b => overlaps b.base b.extent off 16) then Except.error (132 + o)
        else if !bufs.any (fun b => b.idx == buf) then Except.error (134 + o)
        else if decide (31 < idx) || acc.any (fun p => p.1.idx == idx) then Except.error (135 + o)
        else Except.ok (acc ++ [({ idx := idx, off := off, buf := buf }, target)])) [] with
    | .error o => .error o
    | .ok arrs => .ok (bufs, arrs)

/-! ### Decode-table images (R47) -/

/-- The first failure of R47 over the entries from index `i`: its code and the index. -/
def tableCheckFrom (i : Nat) : List Nat → Option (Nat × Nat)
  | [] => none
  | e :: es =>
    if fld e 14 2 != 0 then some (1, i)
    else if (i == 0 || i == 0x3FF) && e != 0 then some (3, i)
    else if i != 0 && i != 0x3FF && !entryEmu e && entryIop e != 0xFFF
        && !(assigned (entryIop e) && entryIop e != 0 && entryIop e != 0x3FF) then some (2, i)
    else tableCheckFrom (i + 1) es

/-- The 1,024 entries of a 2 KiB image. -/
def imageEntries (bs : List Byte) : List Nat := (List.range 1024).map (fun i => bfld bs (2 * i) 2)

/-- A table by its contents: map 3, or an image that differs from it. -/
def tableContents (s : State) (t : DecodeTable) : DecodeTable :=
  let of (es : List Nat) : DecodeTable := if es == (List.range 1024).map map3Entry then .map 3 else .image es
  match t with
  | .map n => (match (if n < 3 then kget? s.dev.maps n else none) with
    | some es => of es
    | none => .map 3)
  | .image es => of es

/-- Insert a table into the measured tables, each distinct table once (R428). -/
def measure (s : State) (t : DecodeTable) : State :=
  let t := tableContents s t
  if s.measured.contains t then s else { s with measured := s.measured ++ [t] }

/-! ### Queues (R64, R65) -/

/-- Grids standing in a launch queue. -/
def queuedGrids (s : State) (q : Nat) : KMap Grid := s.grids.filter (fun p => p.2.lr.queue == q && !p.2.hidden)

/-- Grids of a launch queue that are not yet complete (R64). -/
def queueCount (s : State) (q : Nat) : Nat := ((queuedGrids s q).filter (fun p => !p.2.waiting)).length

/-- Enter a checked grid: 0, or 3 where the queue is full (R64). -/
def enqueueGrid (s : State) (r : LaunchRecord) (bufs : List Buffer) (arrs : List (Arrival × Nat)) (image : Option (List Nat))
    (pts : Nat) (task : Option (Nat × Nat)) : Nat × State :=
  if 256 ≤ queueCount s r.queue then (3, s)
  else
    let (i, s) := fresh s
    let g : Grid := { lr := r, buffers := bufs, arrivals := arrs, image := image, pts := pts, task := task }
    (0, { s with grids := kset s.grids i g })

/-! ### Room on a core (R65) -/

/-- Teams standing on a core. -/
def coreTeams (s : State) (c : Nat) : KMap Team := s.teams.filter (fun p => p.2.core == c && !p.2.evicted)

/-- Teams that take up room on a core: a chain's slice that has ended has given its place back to its reservation (R383). -/
def roomTeams (s : State) (c : Nat) : KMap Team :=
  (coreTeams s c).filter (fun p => p.2.chain.isNone || s.reserves.any (fun r => r.team == some p.1))

/-- Scratchpad ranges of a core in use: teams, reservations, and quarantined 1 KiB blocks (R65, R383, R420). -/
def spadUsed (s : State) (c : Nat) : List (Nat × Nat) :=
  (roomTeams s c).map (fun p => (p.2.base, p.2.spadSize))
    ++ (s.reserves.filter (fun r => r.core == c && !r.inPlace)).map (fun r => (r.base, r.size))
    ++ (s.errors.quarantined.filter (fun q => q.1 == 0x05 && q.2.1 == c)).map (fun q => (q.2.2, 1024))

/-- A block of 2^k KiB at a base is free. -/
def blockFree (used : List (Nat × Nat)) (base k : Nat) : Bool :=
  !used.any (fun u => overlaps u.1 u.2 base (1024 * 2 ^ k))

/-- The lowest maximal free buddy block of order k. -/
def freeBlock (used : List (Nat × Nat)) (k : Nat) : Option Nat :=
  ((List.range (2 ^ (8 - k))).map (fun i => i * 1024 * 2 ^ k)).find? (fun b =>
    blockFree used b k && (k == 8 || !blockFree used (b / (2048 * 2 ^ k) * (2048 * 2 ^ k)) (k + 1)))

/-- The smallest adequate free block: its order and base (R65). -/
def bestBlock (used : List (Nat × Nat)) (spord : Nat) : Option (Nat × Nat) :=
  (range spord (9 - spord)).findSome? (fun k => (freeBlock used k).map (fun b => (k, b)))

/-- Groups of a team that stand on a quadrant. -/
def groupsOn (groups q : Nat) : Nat := (groups + 3 - q) / 4

/-- Tile registers of a quadrant that are withheld, by themselves or with the bitmap register granted beside them (R293,
R420). DESIGN CHOICE (log 167): tile k of quadrant q is entry 16 · q + k, its bitmap register eight more. -/
def lostTiles (s : State) (c q : Nat) : List Nat :=
  (s.errors.quarantined.filter (fun e => e.1 == 0x03 && e.2.1 == c && e.2.2 / 16 == q)).foldl (fun l e => insertNew l (e.2.2 % 8)) []

/-- Tile registers in use on a quadrant of a core. -/
def tilesUsed (s : State) (c q : Nat) : Nat :=
  (roomTeams s c).foldl (fun n p => n + groupsOn p.2.groups q * p.2.tiles) 0
    + (s.reserves.filter (fun r => r.core == c && !r.inPlace)).foldl (fun n r => n + groupsOn r.groups q * r.tiles) 0
    + (lostTiles s c q).length

/-- Threads resident on a core: neither ended nor evicted (R59, R65). -/
def coreThreads (s : State) (c : Nat) : KMap Thread := s.threads.filter (fun p => coreOf s p.2 == c && !p.2.evicted)

/-- Threads a core holds or keeps room for. -/
def residents (s : State) (c : Nat) : Nat :=
  (coreThreads s c).length
    + (s.reserves.filter (fun r => r.core == c && !r.inPlace)).foldl (fun n r => n + r.threads) 0

/-- Slow-file entries of a core in use (R71, R383) or withheld (R420). -/
def slowUsed (s : State) (c : Nat) : Nat :=
  (coreThreads s c).foldl (fun n p => n + p.2.budget) 0
    + (s.reserves.filter (fun r => r.core == c && !r.inPlace)).foldl (fun n r => n + r.entries) 0
    + lostEntries s 0x02 c

/-- A core has room for one more team of so many threads, slow-file entries, groups and tiles per group; its scratchpad
apart (R59, R65, R71). -/
def coreRoom (s : State) (c threads entries groups tiles : Nat) : Bool :=
  !(core s c).fenced
    && decide ((roomTeams s c).length + (s.reserves.filter (fun x => x.core == c && !x.inPlace)).length < 8)
    && decide (residents s c + threads ≤ 2048) && decide (slowUsed s c + entries ≤ 131072)
    && (List.range 4).all (fun q => decide (tilesUsed s c q + groupsOn groups q * tiles ≤ 8))

/-- Slow-file entries a team's roles reserve (R71). -/
def LaunchRecord.entries (r : LaunchRecord) : Nat := r.roles.foldl (fun n p => n + p.2.1 * p.2.2) 0

/-- A core can take a team: the block it would give (R65). -/
def coreFits (s : State) (r : LaunchRecord) (c : Nat) : Option (Nat × Nat) :=
  if coreRoom s c r.teamn r.entries r.groups r.tiles then bestBlock (spadUsed s c) r.spord else none

/-- The core a cluster's dispatcher chooses among those allowed, with the block's base (R65). -/
def chooseCore (s : State) (r : LaunchRecord) (cores : List Nat) : Option (Nat × Nat) :=
  let best := cores.foldl (fun (b : Option (Nat × Nat × Nat)) c =>
    match coreFits s r c with
    | none => b
    | some (k, base) =>
      match b with
      | some (k', _, _) => if k < k' then some (k, c, base) else b
      | none => some (k, c, base)) none
  best.map (fun b => b.2)

/-! ### Placing a team (R60, R66) -/

/-- The role a thread index falls into: kind and budget (R60). -/
def roleAt : List (Nat × Nat × Nat) → Nat → Nat × Nat
  | [], _ => (0, 64)
  | (k, b, c) :: rs, i => if i < c then (k, b) else roleAt rs (i - c)

/-- Fast-file entries of a quadrant that are withheld (R420). DESIGN CHOICE (log 167): they are numbered from 16,384 · q. -/
def lostFast (s : State) (c q : Nat) : List Nat :=
  (s.errors.quarantined.filter (fun e => e.1 == 0x01 && e.2.1 == c && e.2.2 / 16384 == q)).map (fun e => e.2.2 % 16384)

/-- Room in a quadrant's active set (R71). -/
def activeRoom (s : State) (c q budget : Nat) : Bool :=
  let act := (coreThreads s c).filter (fun p => p.2.quadrant == q && p.2.active && !p.2.suspended)
  decide (act.length < 256) && decide (act.foldl (fun n p => n + p.2.budget) 0 + budget + (lostFast s c q).length ≤ 16384)

/-- A thread enters its quadrant's active set where there is room, else the slow file (R71). -/
def placeActive (s : State) (t : Nat) : State :=
  match thread? s t with
  | none => s
  | some th =>
    let s := modThread s t (fun th => th.setActive false s.aclk)
    if activeRoom s (coreOf s th) th.quadrant th.budget then modThread s t (fun th => th.setActive true s.aclk) else s

/-- Move threads of a quadrant out of the active set, lowest number first, until one of that budget has room. -/
def makeRoom (c q budget : Nat) : Nat → State → State
  | 0, s => s
  | fuel + 1, s =>
    if activeRoom s c q budget then s
    else match (coreThreads s c).find? (fun p => p.2.quadrant == q && p.2.active && !p.2.suspended) with
      | some p => makeRoom c q budget fuel (modThread s p.1 (fun th => th.setActive false s.aclk))
      | none => s

/-- The decode table a record names (R62). -/
def recordTable (g : Grid) : DecodeTable :=
  match g.image with
  | some es => .image es
  | none => .map (g.lr.map % 4)

/-- A thread at placement (R66). -/
def newThread (g : Grid) (team i : Nat) : Thread :=
  let sz := g.lr.groupSize
  let (kind, budget) := roleAt g.lr.roles i
  { team := team, tid := i, gid := i / sz, mid := i % sz, role := kind, sealId := g.lr.sealId % 1024, budget := budget
    pc := g.lr.kaddr, table := recordTable g, pts := g.pts }

/-- A team at placement (R66). -/
def newTeam (gid : Nat) (g : Grid) (index c base : Nat) : Team :=
  let r := g.lr
  let tm : Team :=
    { grid := gid, index := index, x := index % r.gx, y := index / r.gx % r.gy, z := index / (r.gx * r.gy), core := c
      cluster := c / 160, sealId := r.sealId % 1024, groups := r.groups, nthreads := r.teamn, spord := r.spord, base := base
      tiles := r.tiles, quad := r.quad, privKb := r.privKb, handle := if index < 16384 then some index else none
      roles := r.roles.map (·.1), buffers := g.buffers, arrivals := g.arrivals.map (·.1) }
  g.arrivals.foldl (fun tm a => arrWrite tm a.1.off ⟨a.2, 0, 0, 1⟩) tm

/-- The matrix save areas of a team's bank contexts, one for each quad, where the pool has room (R304; log 160). -/
def takeSaveAreas (s : State) (tm : Team) : KMap Nat × State :=
  if !tm.quad then ([], s)
  else (List.range (tm.groups / 4)).foldl (fun r q =>
    match poolTry r.2 tm.sealId 65536 with
    | (some a, s) => (kset r.1 q a, s)
    | (none, s) => (r.1, s)) ([], s)

/-- Place one thread of a team: its window's backing is taken, and it enters its quadrant's active set where there is room
(R71, R189). -/
def placeThread (s : State) (g : Grid) (tm i : Nat) : State :=
  let (n, s) := fresh s
  let th := newThread g tm i
  let (b, s) := if g.lr.privKb = 0 then (none, s) else poolTry s th.sealId (1024 * g.lr.privKb)
  placeActive (setThread s n { th with backing := b, selfAt := s.aclk }) n

/-- Place a team with its threads; answers its number. -/
def placeTeam (s : State) (gid : Nat) (g : Grid) (index c base : Nat) : Nat × State :=
  let (tid, s) := fresh s
  let tm := newTeam gid g index c base
  let (areas, s) := takeSaveAreas s tm
  let s := measure { s with teams := kset s.teams tid { tm with saveAreas := areas } } (recordTable g)
  (tid, (List.range g.lr.teamn).foldl (fun s i => placeThread s g tid i) s)

/-- A grid's CLUSTER field allows a cluster (R62). -/
def clusterAllowed (g : Grid) (k : Nat) : Bool :=
  match g.lr.clusterSel with
  | 0 => true
  | 1 => k == 0
  | 2 => k == 1
  | _ => g.home == none || g.home == some k

/-- Grids a cluster's dispatcher considers, with their numbers: the oldest with teams to place in each queue (R65). -/
def candidates (s : State) (k : Nat) : List (Nat × Grid) :=
  (List.range 64).filterMap (fun q =>
    ((queuedGrids s q).find? (fun p => decide (p.2.placed < p.2.lr.teams))).bind (fun p =>
      if clusterAllowed p.2 k && sealLive s (p.2.lr.sealId % 1024) then some p else none))

/-- The considered grid of the highest PRIO; round robin over the queues among equals (R65). -/
def pickGrid (s : State) (k : Nat) (cs : List (Nat × Grid)) : Option (Nat × Grid) :=
  let last := kgetD s.dispatch k 63
  let top := cs.foldl (fun m p => Nat.max m (p.2.lr.prio % 16)) 0
  let es := cs.filter (fun p => p.2.lr.prio % 16 == top)
  match es.find? (fun p => decide (last < p.2.lr.queue)) with
  | some p => some p
  | none => es.head?

/-- Place the next team of a grid on a core. -/
def placeNext (s : State) (k gid : Nat) (g : Grid) (c base : Nat) : State :=
  let (_, s) := placeTeam s gid g g.placed c base
  let s := modGrid s gid (fun g => { g with placed := g.placed + 1, home := if g.home.isNone then some k else g.home })
  { s with dispatch := kset s.dispatch k g.lr.queue }

/-- Try the considered grids in order until one has a team that fits (R65, 5). -/
def placeFrom (s : State) (k : Nat) : Nat → List (Nat × Grid) → State
  | 0, _ => s
  | fuel + 1, cs =>
    match pickGrid s k cs with
    | none => s
    | some (gid, g) =>
      match chooseCore s g.lr (range (160 * k) 160) with
      | some (c, base) => placeNext s k gid g c base
      | none => placeFrom s k fuel (cs.filter (fun p => p.1 != gid))

/-! ### Retirement (R67) -/

/-- The completion word is not stored: a DONEFAULT event (R67, R423). -/
def logDoneFault (s : State) (sealId addr : Nat) : State := logEvent s { kind := 8, sealId := sealId, syndrome := addr }

/-- A graph task whose grid is complete (R461). -/
def taskComplete (s : State) (g : Grid) : State :=
  match g.task with
  | none => s
  | some p =>
    let d : TaskDone := ⟨p.1, p.2, g.status, Nat.max g.endPts g.pts⟩
    { s with tasksDone := s.tasksDone ++ [d] }

/-- The grid leaves its queue; weight-store regions it read are free of it (R190). -/
def dropGrid (s : State) (gid : Nat) (g : Grid) : State :=
  taskComplete { s with grids := kdel s.grids gid
                        regions := s.regions.map (fun p => (p.1, { p.2 with grids := p.2.grids.filter (· != gid) })) } g

/-- Complete a grid: the completion word is stored, waits for the host, or is not stored (R67). -/
def completeGrid (s : State) (gid : Nat) : State :=
  match grid? s gid with
  | none => s
  | some g =>
    if g.lr.done == 0 then dropGrid s gid g
    else
      let sid := g.lr.sealId % 1024
      match translateNow s none sid g.lr.done 8 .store with
      | .ok (a, s) =>
        dropGrid (storeAt s { a with strong := true } (leBytes 8 g.status) (Nat.max g.endPts g.pts) sid).2 gid g
      | .error (some (.absent _ true), _) => modGrid s gid (fun g => { g with waiting := true })
      | .error _ => dropGrid (logDoneFault s sid g.lr.done) gid g

end Sys2Proof.Machine
end

