-- ==== Sys2Proof/Machine/Video.lean ====
section
/-!
DEFINITION. Strip times, reservoir slots and the shading-rate ladder (R371 to R379, R387, R388).
-/
namespace Sys2Proof.Machine

/-! ### Registers and times (R371 to R374) -/

/-- A stored word of an output. -/
def Output.reg (x : Output) (off : Nat) : Nat := kgetD x.regs off 0

/-- SH of a two-bit code (R372). -/
def shOf (code : Nat) : Nat := 8 * 2 ^ code

/-- The locked parameters as the registers hold them. -/
def Output.params (x : Output) : Video :=
  { forigin := x.reg 0 + 2 ^ 32 * x.reg 4, lper := x.reg 8, tlines := fld (x.reg 0xC) 16 16, vstart := fld (x.reg 0xC) 0 16
    vact := fld (x.reg 0x10) 16 16, hact := fld (x.reg 0x10) 0 16, guard := x.reg 0x14, window := x.reg 0x18
    ring := fld (x.reg 0x1C) 16 3, sh := shOf (fld (x.reg 0x1C) 8 2), chain := fld (x.reg 0x24) 0 24
    factor := fld (x.reg 0x28) 4 2, halo := fld (x.reg 0x28) 8 4, loring := fld (x.reg 0x28) 0 3
    keyint := fld (x.reg 0x2C) 16 16, qbase := fld (x.reg 0x2C) 8 8, tenb := flag (x.reg 0x2C) 0 }

/-- FILL, FILLM, FLOOR and BASE as the registers hold them, for a frame of an arming. -/
def Output.frameSet (x : Output) (arm frame : Nat) : FrameSet :=
  { arm := arm, frame := frame, fill := fld (x.reg 0x20) 0 30, fillm := flag (x.reg 0x1C) 7, floor := fld (x.reg 0x1C) 4 3
    base := fld (x.reg 0x1C) 1 3 }

/-- The values that hold for a frame: those taken at its strip 0, before that the latest ones taken, before any the
registers' own (R372; log 162). -/
def Output.setFor (x : Output) (arm frame : Nat) : FrameSet :=
  match x.sets.find? (fun f => f.arm == arm && f.frame == frame) with
  | some f => f
  | none => (x.sets.find? (fun f => f.arm == arm)).getD (x.frameSet arm frame)

/-- K, strips of a frame. -/
def Video.strips (v : Video) : Nat := v.vact / v.sh

/-- The upscaling factor as twice its value: 3, 4 or 6 (R373). -/
def Video.twice (v : Video) : Nat := match v.factor with | 1 => 3 | 2 => 4 | 3 => 6 | _ => 2

/-- Active lines of the low-resolution frame (R388). -/
def Video.vactLo (v : Video) : Nat := 2 * v.vact / v.twice

/-- T, F and S of a strip (R374). -/
def Video.timeT (v : Video) (f k : Nat) : Nat :=
  (v.forigin + (f * v.tlines + v.vstart + k * v.sh) * v.lper / 2 ^ 16) % 2 ^ 64
/-- Finish time. -/
def Video.timeF (v : Video) (f k : Nat) : Nat := wrap ((v.timeT f k : Int) - v.guard) 64
/-- Start time. -/
def Video.timeS (v : Video) (f k : Nat) : Nat := wrap ((v.timeF f k : Int) - v.window) 64

/-! ### Rings and slots (R377, R378) -/

def Ring.nslot (g : Ring) : Nat := fld g.w0 16 8
/-- First page. -/
def Ring.rbase (g : Ring) : Nat := fld g.w0 0 14
/-- KIND. -/
def Ring.kind (g : Ring) : Nat := fld g.w4 24 2
/-- RSH. -/
def Ring.rsh (g : Ring) : Nat := fld g.w4 16 8
/-- WIDTH. -/
def Ring.width (g : Ring) : Nat := fld g.w4 0 16
/-- Pages of a slot. -/
def Ring.slotPages (g : Ring) : Nat := ceilDiv (g.width * g.rsh * 4) 4096
/-- Pages of the ring. -/
def Ring.pages (g : Ring) : List Nat := range g.rbase (g.nslot * g.slotPages)
/-- Pixels of a slot. -/
def Ring.pixels (g : Ring) : Nat := g.width * g.rsh

/-- Strips per frame of a ring under an output's parameters: none where they do not name it. -/
def Video.stripsOn (v : Video) (r : Nat) : Option Nat :=
  if v.ring == r then some v.strips else if v.factor != 0 && v.loring == r then some v.loStrips else none

/-- Strips per frame of a ring: Kr, from the armed output it is bound to, else from a chain or a frame in progress that
still uses it. -/
def ringStrips (s : State) (r : Nat) : Option Nat :=
  match s.outputs.findSome? (fun p => if p.2.armed then p.2.video.bind (fun v => v.stripsOn r) else none) with
  | some k => some k
  | none => match s.chains.findSome? (fun p => p.2.video.stripsOn r) with
    | some k => some k
    | none => s.outputs.findSome? (fun p => p.2.scans.findSome? (fun c => c.video.stripsOn r))

/-- Number of the slot a strip of a ring uses. -/
def slotIndex (s : State) (r frame strip : Nat) : Option Nat :=
  let g := ringOf s r
  if !g.en || g.nslot == 0 then none else (ringStrips s r).map (fun k => (frame * k + strip) % g.nslot)

/-- A slot of a ring. -/
def slotOf (s : State) (r i : Nat) : Slot := kgetD (ringOf s r).slots i {}

/-- Change a slot. -/
def modSlot (s : State) (r i : Nat) (f : Slot → Slot) : State :=
  modRing s r (fun g => { g with slots := kset g.slots i (f (kgetD g.slots i {})) })

/-- A pixel of a slot. -/
def Slot.pixel (x : Slot) (i : Nat) : Nat := kgetD x.px i x.fill

/-- Put a pixel; bits [31:30] stand as zero. -/
def Slot.put (x : Slot) (i v : Nat) : Slot :=
  let v := v % 2 ^ 30
  { x with px := if v == x.fill then kdel x.px i else kset x.px i v }

/-- The slot is held for a strip of a frame. -/
def Slot.holds (x : Slot) (frame strip : Nat) : Bool := x.frame == frame && x.strip == strip

/-- Write a tile's colours where the strip's slot is in RENDER for it; else they are dropped (R378). `px` gives the
colour at each column and line of the tile. -/
def tileWrite (s : State) (r frame strip x0 y0 w h : Nat) (px : Nat → Nat → Nat) : State :=
  match slotIndex s r frame strip with
  | none => s
  | some i =>
    let x := slotOf s r i
    if x.state == 1 && x.holds frame strip then
      let width := (ringOf s r).width
      modSlot s r i (fun x => (List.range h).foldl (fun x dy => (List.range w).foldl (fun x dx =>
        x.put (width * (y0 + dy) + x0 + dx) (px dx dy)) x) x)
    else s

/-! ### The ladder (R387) -/

/-- Ladder state of a strip. -/
def ladder? (s : State) (r frame strip : Nat) : Option Ladder :=
  s.ladders.find? (fun l => l.ring == r && l.frame == frame && l.strip == strip)

/-- Change a strip's ladder state. -/
def modLadder (s : State) (r frame strip : Nat) (f : Ladder → Ladder) : State :=
  { s with ladders := s.ladders.map (fun l => if l.ring == r && l.frame == frame && l.strip == strip then f l else l) }

/-- The rung in force for a strip; 0 where no admitted chain renders it. -/
def rungOf (s : State) (r frame strip : Nat) : Nat := ((ladder? s r frame strip).map (·.rung)).getD 0

/-- A request on a strip is answered: the first one sets t0. -/
def firstAnswer (s : State) (r frame strip : Nat) : State :=
  modLadder s r frame strip (fun l => { l with t0 := some (l.t0.getD s.tnow) })

/-- OnTileComplete. -/
def Ladder.report (l : Ladder) (now : Nat) : Ladder :=
  let n := l.done + 1
  let cost : Int := -(Int.fdiv (-((now : Int) - (l.t0.getD now : Nat))) (n : Int))
  let predicted : Int := now + ((l.total - n : Nat) : Int) * cost
  let l := { l with done := n }
  if (l.finish : Int) < predicted then
    let step := if (l.finish : Int) - now < 2 * (predicted - l.finish) then 2 else 1
    { l with rung := Nat.min (l.rung + step) l.floor }
  else l

/-- Report a completed raster tile to Ductus (R330, R387). -/
def tileDone (s : State) (r frame strip : Nat) : State := modLadder s r frame strip (fun l => l.report s.tnow)

end Sys2Proof.Machine
end

