-- ==== Sys2Proof/Machine/Passes.lean ====
section
/-!
DEFINITION. Passes of the raster and stipple units: records, coverage, fragments, handles and bindings (R321 to R344).
-/
namespace Sys2Proof.Machine

/-! ### The record (R321) -/

/-- Parse the 64 bytes of a pass record. -/
def parsePass (bs : List Byte) : PassRecord :=
  { bins := bfld bs 0 8, pool := bfld bs 8 8, chunks := bfld bs 16 8, npool := bfld bs 24 4, nchunk := bfld bs 28 4
    ring := bfld bs 32 1 % 8, cmt := flag (bfld bs 32 1) 7, kind := bfld bs 33 1, width := bfld bs 34 2, frame := bfld bs 36 4
    strip0 := bfld bs 40 2, nstrip := bfld bs 42 1, sh := bfld bs 43 1, nsub := bfld bs 44 1, clear := bfld bs 48 4
    opthr := bfld bs 52 4 }

/-- Lines of a tile. -/
def PassRecord.th (r : PassRecord) : Nat := Nat.min r.sh 16
/-- Tiles in a row of a strip. -/
def PassRecord.cols (r : PassRecord) : Nat := r.width / 32
/-- TPS, tiles of a strip. -/
def PassRecord.tps (r : PassRecord) : Nat := r.cols * (r.sh / r.th)
/-- First column of a tile. -/
def PassRecord.tileX (r : PassRecord) (t : Nat) : Nat := 32 * (t % r.cols)
/-- First line of a tile within its strip. -/
def PassRecord.tileY (r : PassRecord) (t : Nat) : Nat := r.th * (t / r.cols)
/-- First active line of a strip of the pass. -/
def PassRecord.stripY (r : PassRecord) (s : Nat) : Nat := (r.strip0 + s) * r.sh
/-- Key of a tile. -/
def PassRecord.key (r : PassRecord) (s t : Nat) : Nat := s * r.tps + t

/-- An area of window 0x00 with an alignment, as a write (R322). -/
def areaOk (a n align : Nat) : Bool := a % align == 0 && decide (a + n ≤ 2 ^ 52)

/-- The OPTHR threshold is in (0, 1]. -/
def opthrOk (w : Nat) : Bool :=
  match rd32 w with
  | .fin neg m _ => !neg && m != 0 && !less32 0x3F800000 w
  | _ => false

/-- The limits of R321 and the areas of R322. -/
def passOk (s : State) (r : PassRecord) (bs : List Byte) (kind : Nat) : Bool :=
  let g := ringOf s r.ring
  r.kind == kind && fld (bfld bs 32 1) 3 4 == 0 && (r.kind == 1 || r.cmt)
    && decide (1 ≤ r.npool) && decide (r.npool < 2 ^ 24) && decide (1 ≤ r.nchunk) && decide (r.nchunk < 2 ^ 24)
    && decide (32 ≤ r.width) && decide (r.width ≤ 7680) && r.width % 32 == 0 && r.width == g.width
    && decide (1 ≤ r.nstrip) && decide (r.nstrip ≤ 64) && [8, 16, 32, 64].contains r.sh && r.sh == g.rsh
    && decide (1 ≤ r.nsub) && bfld bs 45 3 == 0 && decide (r.clear < 2 ^ 30)
    && (if r.kind == 1 then opthrOk r.opthr else r.opthr == 0)
    && areaOk r.bins (r.nstrip * r.tps * 8) 128 && areaOk r.pool (r.npool * 64) 64 && areaOk r.chunks (r.nchunk * 128) 128

/-- A live pass: opened and not finished. -/
def Pass.live (p : Pass) : Bool := !p.finished

/-- Two passes overlap (R322). -/
def Pass.overlap (p : Pass) (r : PassRecord) : Bool :=
  p.live && p.r.ring == r.ring && p.r.frame == r.frame && overlaps p.r.strip0 p.r.nstrip r.strip0 r.nstrip

/-- The pass a record names: the live one, or the last finished one (R322). -/
def passAt (s : State) (pa : Nat) : Option (Nat × Pass) := s.passes.find? (fun p => p.2.pa == pa)

/-- The pass of a unit's slot. -/
def passInSlot (s : State) (kind st slot : Nat) : Option (Nat × Pass) :=
  s.passes.find? (fun p => p.2.live && p.2.r.kind == kind && p.2.station == st && p.2.slot == slot)

/-! ### Primitives: triangles (R325 to R327) -/

/-- Word `i` of a record. -/
def recWord (bs : List Byte) (i : Nat) : Nat := bfld bs (4 * i) 4

/-- A2 of a triangle record, scaled. -/
def triArea (bs : List Byte) : Int :=
  let c (i : Nat) := scaled32 (recWord bs i)
  (c 2 - c 0) * (c 5 - c 1) - (c 4 - c 0) * (c 3 - c 1)

/-- The triangle is culled (R326). -/
def triCulled (bs : List Byte) : Bool :=
  let a2 := triArea bs; let cull := bfld bs 49 1
  (List.range 9).any (fun i => notFinite (recWord bs i)) || a2 == 0 || (decide (0 < a2) && cull.testBit 1)
    || (decide (a2 < 0) && cull.testBit 0)

/-- A pixel coordinate's centre, scaled by 2^149. -/
def centre (x : Nat) : Int := (2 * x + 1 : Nat) * ((2 ^ 148 : Nat) : Int)

/-- The edge from vertex i accepts a point: Ei > 0, or Ei = 0 on a top-left edge. -/
def edgeHolds (bs : List Byte) (sg : Int) (px py : Int) (i : Nat) : Bool :=
  let c (k : Nat) := scaled32 (recWord bs k)
  let j := (i + 1) % 3
  let dx := sg * (c (2 * j) - c (2 * i)); let dy := sg * (c (2 * j + 1) - c (2 * i + 1))
  let e := dx * (py - c (2 * i + 1)) - dy * (px - c (2 * i))
  decide (0 < e) || (e == 0 && (decide (dy < 0) || (dy == 0 && decide (0 < dx))))

/-- The triangle covers a pixel's centre. -/
def triCovers (bs : List Byte) (x y : Nat) : Bool :=
  (List.range 3).all (edgeHolds bs (triArea bs).sign (centre x) (centre y))

/-- A plane at a point whose coordinates are half-integers: `x2` and `y2` are twice them (R327, R340). -/
def planeAt (a b c x2 y2 : Nat) : Nat :=
  let fa := rd32 a; let fb := rd32 b; let fc := rd32 c
  if fa.isNan || fb.isNan || fc.isNan then fp32.nan
  else
    let infs := ([fa, fb, fc].filter FVal.isInf).map FVal.neg
    match infs with
    | n :: ns => if ns.all (· == n) then fp32.inf n else fp32.nan
    | [] =>
      let v : Int := scaled32 a * x2 + scaled32 b * y2 + 2 * scaled32 c
      rn (fa.isZero && fb.isZero && fc.isZero && fa.neg && fb.neg && fc.neg) ⟨v, -150⟩

/-- The triangle's depth at a pixel. -/
def triDepth (bs : List Byte) (x y : Nat) : Nat :=
  planeAt (recWord bs 6) (recWord bs 7) (recWord bs 8) (2 * x + 1) (2 * y + 1)

/-- PRIM. -/
def triPrim (bs : List Byte) : Nat := recWord bs 9

/-- The box of a primitive's vertices meets a tile's area: least and greatest coordinates, scaled. -/
def boxMeets (x0 x1 y0 y1 : Int) (tx ty w h : Nat) : Bool :=
  let u : Int := ((2 ^ 149 : Nat) : Int)
  decide (tx * u < x1) && decide (x0 < (tx + w : Nat) * u) && decide (ty * u < y1) && decide (y0 < (ty + h : Nat) * u)

/-- The bounding box of a primitive: a triangle's vertices, or a splat's square (R324, R332). -/
def primBox (kind : Nat) (bs : List Byte) : Int × Int × Int × Int :=
  let c (i : Nat) := scaled32 (recWord bs i)
  if kind == 0 then
    (min (c 0) (min (c 2) (c 4)), max (c 0) (max (c 2) (c 4)), min (c 1) (min (c 3) (c 5)), max (c 1) (max (c 3) (c 5)))
  else
    let r := c 8
    (c 0 - r, c 0 + r, c 1 - r, c 1 + r)

/-- Tiles a primitive is entered in, in ascending order. -/
def primTiles (r : PassRecord) (bs : List Byte) : List Nat :=
  let (x0, x1, y0, y1) := primBox r.kind bs
  (List.range (r.nstrip * r.tps)).filter (fun k =>
    let t := k % r.tps
    boxMeets x0 x1 y0 y1 (r.tileX t) (r.stripY (k / r.tps) + r.tileY t) 32 r.th)

/-! ### Primitives: splats (R332) -/

/-- The splat is refused (R332). -/
def splatRefused (r : PassRecord) (bs : List Byte) : Bool :=
  let rad := recWord bs 8
  let opac := fp16.read (bfld bs 24 2)
  let (x0, x1, y0, y1) := primBox 1 bs
  let half : Int := ((2 ^ 148 : Nat) : Int)
  /- some centre n + 1/2 with lo ≤ n < hi stands in [a, b] -/
  let holds (a b : Int) (lo hi : Nat) : Bool :=
    let n := max (-(Int.fdiv (-(a - half)) (2 * half))) (lo : Int)
    decide (n < (hi : Int)) && decide ((2 * n + 1) * half ≤ b)
  [0, 1, 2, 3, 4].any (fun i => notFinite (recWord bs i)) || opac.isNan || opac.isInf || (rd32 (recWord bs 5)).isNan
    || notFinite rad || decide (scaled32 rad ≤ 0)
    || !(holds x0 x1 0 r.width && holds y0 y1 (r.stripY 0) (r.stripY r.nstrip))

/-! ### Entering a primitive (R324) -/

/-- Chunks a primitive needs beyond those there are. -/
def chunksNeeded (p : Pass) (ks : List Nat) : Nat :=
  (ks.filter (fun k => (kgetD p.bins k []).length % 31 == 0)).length

/-- Enter a primitive in one bin: the chunk it starts if it needs one, and the unit's writes. -/
def enterBin (n : Nat) (p : Pass) (k : Nat) : Pass :=
  let es := kgetD p.bins k []
  let cs := kgetD p.chains k []
  let new := es.length % 31 == 0
  let cs' := if new then cs ++ [p.chused] else cs
  let last := cs'.getLast?.getD 0
  let w1 := if new then [(p.r.chunks + 128 * last, List.replicate 128 (0 : Byte))] else []
  let w2 := if new && !cs.isEmpty then [(p.r.chunks + 128 * (cs.getLast?.getD 0) + 124, leBytes 4 (last + 1))] else []
  let w3 := [(p.r.chunks + 128 * last + 4 * (es.length % 31), leBytes 4 n)]
  let w4 := [(p.r.bins + 8 * k, leBytes 8 (cs'.headD 0 + 1 + (es.length + 1) * 2 ^ 32))]
  { p with bins := kset p.bins k (es ++ [n]), chains := kset p.chains k cs'
           chused := if new then p.chused + 1 else p.chused, writes := p.writes ++ w1 ++ w2 ++ w3 ++ w4 }

/-- Enter a primitive in the pool and its bins. A splat is left out of a tile whose list is full (R333). -/
def enterPrim (p : Pass) (bs : List Byte) : Pass :=
  let n := p.prims.length
  let ks := primTiles p.r bs
  let full (k : Nat) : Bool := p.r.kind == 1 && decide (65535 ≤ (kgetD p.bins k []).length)
  let p := { p with prims := p.prims ++ [bs], writes := p.writes ++ [(p.r.pool + 64 * n, bs)]
                    ovf := p.ovf || ks.any full, over_ := (ks.filter full).foldl insertNew p.over_ }
  (ks.filter (fun k => !full k)).foldl (enterBin n) p

/-! ### Visibility of a tile (R327) -/

/-- A pixel's best owners so far: depth, PRIM, and the primitives that share them. -/
structure Best where
  z : Nat
  prim : Nat
  ps : List Nat
  deriving DecidableEq, Repr

/-- Let a primitive compete for a pixel. -/
def compete (bs : List Byte) (n x y : Nat) (b : Option Best) : Option Best :=
  if !triCovers bs x y then b
  else
    let z := triDepth bs x y
    if (rd32 z).isNan then b
    else match b with
    | none => some ⟨z, triPrim bs, [n]⟩
    | some k =>
      if less32 z k.z || (!less32 k.z z && decide (triPrim bs < k.prim)) then some ⟨z, triPrim bs, [n]⟩
      else if less32 k.z z || decide (k.prim < triPrim bs) then b
      else some { k with ps := k.ps ++ [n] }

/-- Owners of a tile's pixels: 1 + primitive index, 0 for none. Equal (z, PRIM) are decided by a free number. -/
def ownersOf (p : Pass) (k d : Nat) : List Nat :=
  let t := k % p.r.tps
  let x0 := p.r.tileX t; let y0 := p.r.stripY (k / p.r.tps) + p.r.tileY t
  let ns := kgetD p.bins k []
  (List.range (32 * p.r.th)).map (fun i =>
    match ns.foldl (fun b n => compete (nthD p.prims n []) n (x0 + i % 32) (y0 + i / 32) b) none with
    | none => 0
    | some b => if b.ps.length == 1 then b.ps.headD 0 + 1 else nthD b.ps (Config.freeNat (d + i) % b.ps.length) 0 + 1)

/-! ### Fragments (R328) -/

/-- w × h of a rung. -/
def rungSize (r : Nat) : Nat × Nat :=
  match r with
  | 0 => (1, 1)
  | 1 => (2, 1)
  | 2 => (2, 2)
  | 3 => (4, 2)
  | _ => (4, 4)

/-- Insert a primitive by PRIM, then index. -/
def insertPrim (p : Pass) (n : Nat) : List Nat → List Nat
  | [] => [n]
  | m :: ms =>
    let a := triPrim (nthD p.prims n []); let b := triPrim (nthD p.prims m [])
    if m == n then m :: ms
    else if a < b || (a == b && decide (n < m)) then n :: m :: ms else m :: insertPrim p n ms

/-- Fragments of one cell at column and line (cx, cy) of the tile. -/
def cellFrags (p : Pass) (own : List Nat) (t rung x0 y0 cx cy : Nat) : List Frag :=
  let (w, h) := rungSize rung
  let cell := (List.range (w * h)).map (fun b => nthD own (32 * (cy + b / w) + cx + b % w) 0)
  let ps := cell.foldl (fun l v => if v == 0 then l else insertPrim p (v - 1) l) []
  ps.map (fun n => { tile := t, x := x0 + cx, y := y0 + cy, prim := n, rung := rung
                     mask := (cell.zipIdx).foldl (fun m q => if q.1 == n + 1 then m + 2 ^ q.2 else m) 0 })

/-- Fragments of a tile at a rung, in handout order. -/
def tileFrags (p : Pass) (k rung : Nat) (own : List Nat) : List Frag :=
  let (w, h) := rungSize rung
  let t := k % p.r.tps
  let x0 := p.r.tileX t; let y0 := p.r.stripY (k / p.r.tps) + p.r.tileY t
  (List.range (p.r.th / h)).flatMap (fun j => (List.range (32 / w)).flatMap (fun i =>
    cellFrags p own t rung x0 y0 (i * w) (j * h)))

/-! ### Completion of tiles (R330) -/

/-- A handle of a tile is outstanding. -/
def tileOut (p : Pass) (k : Nat) : Bool := p.out.any (fun o => o.1 / 2 ^ 19 * p.r.tps + o.2.1.tile == k)

/-- Write the tile's colours to the slot and report it to Ductus. -/
def completeTile (s : State) (id : Nat) (p : Pass) (k : Nat) (x : RasterTile) : State :=
  let t := k % p.r.tps; let strip := p.r.strip0 + k / p.r.tps
  let s := modPass s id (fun p => { p with tiles := kset p.tiles k { x with done := true } })
  let s := if p.r.cmt then
      tileWrite s p.r.ring p.r.frame strip (p.r.tileX t) (p.r.tileY t) 32 p.r.th (fun dx dy => kgetD x.px (32 * dy + dx) p.r.clear)
    else s
  tileDone s p.r.ring p.r.frame strip

/-- Complete a tile whose last fragment has been handed out and has no outstanding handle. -/
def tileCheck (s : State) (id k : Nat) : State :=
  match kget? s.passes id with
  | none => s
  | some p =>
    match kget? p.tiles k with
    | none => s
    | some x =>
      match x.frags with
      | some fs => if !x.done && decide (fs.length ≤ x.handed) && !tileOut p k then completeTile s id p k x else s
      | none => s

/-- Every tile of a raster pass, or every tile run of a stipple pass, is complete. -/
def Pass.allDone (p : Pass) : Bool :=
  (List.range (p.r.nstrip * p.r.tps)).all (fun k =>
    if p.r.kind == 1 then p.run.contains k else ((kget? p.tiles k).map (·.done)).getD false)

/-! ### Handing out fragments (R339) -/

/-- Form a tile's fragments at the rung in force, at its first handout. -/
def formTile (s : State) (id : Nat) (p : Pass) (k : Nat) : State :=
  match kget? p.tiles k with
  | none => s
  | some x =>
    match x.frags with
    | some _ => s
    | none =>
      let rung := rungOf s p.r.ring p.r.frame (p.r.strip0 + k / p.r.tps)
      modPass s id (fun p => { p with tiles := kset p.tiles k { x with frags := some (tileFrags p k rung x.own) } })

/-- What a request on a strip finds from its next tile on. -/
inductive Handout where
  /-- A tile is not resolved yet. -/
  | wait
  /-- No fragment is left. -/
  | exhausted
  /-- The tile that holds the next fragment. -/
  | tile (t : Nat)
  deriving DecidableEq, Repr

/-- The tile has a fragment to hand out. -/
def RasterTile.hasFrag (x : RasterTile) : Bool :=
  match x.frags with
  | some fs => decide (x.handed < fs.length)
  | none => x.own.any (· != 0)

/-- Search the tiles of a strip from tile `t`; `fuel` tiles remain. -/
def findTile (p : Pass) (strip : Nat) : Nat → Nat → Handout
  | 0, _ => .exhausted
  | fuel + 1, t =>
    match kget? p.tiles (p.r.key strip t) with
    | none => .wait
    | some x => if x.hasFrag then .tile t else findTile p strip fuel (t + 1)

/-- Form and complete the tiles from `t` up to `t'`, which have no fragment left. -/
def passTiles (s : State) (id strip t t' : Nat) : State :=
  (range t (t' - t)).foldl (fun s t =>
    match kget? s.passes id with
    | none => s
    | some p => tileCheck (formTile s id p (p.r.key strip t)) id (p.r.key strip t)) s

/-- A fragment handle (R329). -/
def fragHandle (p : Pass) (strip num : Nat) : Nat := p.station * 2 ^ 27 + p.slot * 2 ^ 25 + strip * 2 ^ 19 + num % 2 ^ 19

/-- Give a request its result. -/
def answerFrag (s : State) (p : Pass) (w : FragWait) (vals : List Word) : State :=
  modThread s w.th (fun th => (th.takePts p.pts).modFlight w.seq (fun f => { f with got := some vals }))

/-- Hand the next fragment of tile `t` to a request. -/
def handFrag (s : State) (id strip t num : Nat) (w : FragWait) : State :=
  match kget? s.passes id with
  | none => s
  | some p =>
    let s := formTile s id p (p.r.key strip t)
    match (kget? s.passes id).bind (fun p => kget? p.tiles (p.r.key strip t)) with
    | none => s
    | some x =>
      match (x.frags.getD [])[x.handed]? with
      | none => s
      | some f =>
        let s := modPass s id (fun p =>
          { p with tiles := kset p.tiles (p.r.key strip t) { x with handed := x.handed + 1 }
                   out := kset p.out (strip * 2 ^ 19 + num % 2 ^ 19) (f, w.th), next := kset p.next strip (t, num + 1) })
        answerFrag s p w [wordN (f.x + f.y * 2 ^ 16), wordN (triPrim (nthD p.prims f.prim [])), wordN (f.mask + f.rung * 2 ^ 16),
          wordN (fragHandle p strip num)]

/-- An earlier request of the thread waits on the pass (R402). -/
def Pass.asksBefore (p : Pass) (th seq : Nat) : Bool := p.waits.any (fun q => q.2.any (fun w => w.th == th && decide (w.seq < seq)))

/-- Serve the requests waiting on a strip, in order, each once its thread's earlier requests on the pass are served (R402);
`fuel` bounds their number. -/
def serveStrip (id strip : Nat) : Nat → State → State
  | 0, s => s
  | fuel + 1, s =>
    match kget? s.passes id with
    | none => s
    | some p =>
      match kgetD p.waits strip [] with
      | [] => s
      | w :: ws =>
        let drop (s : State) : State := modPass s id (fun p => { p with waits := kset p.waits strip ws })
        if (thread? s w.th).isNone then serveStrip id strip fuel (drop s)
        else if !p.closed || p.asksBefore w.th w.seq then s
        else
          let (t, num) := kgetD p.next strip (0, 0)
          let y := p.r.strip0 + strip
          match findTile p strip (p.r.tps - t) t with
          | .wait => s
          | .exhausted =>
            let s := passTiles (firstAnswer (drop s) p.r.ring p.r.frame y) id strip t p.r.tps
            let s := modPass s id (fun p => { p with next := kset p.next strip (p.r.tps, num) })
            serveStrip id strip fuel (answerFrag s p w [0, 0, wordN (2 ^ 31 + b2n p.fault * 2 ^ 30), 0])
          | .tile t' =>
            let s := passTiles (firstAnswer (drop s) p.r.ring p.r.frame y) id strip t t'
            serveStrip id strip fuel (handFrag s id strip t' num w)

/-- Serve a strip's requests. -/
def serve (s : State) (id strip : Nat) : State :=
  serveStrip id strip (((kget? s.passes id).map (fun p => (kgetD p.waits strip []).length)).getD 0) s

/-! ### Handles and bindings (R323, R329) -/

/-- The pass and key of an outstanding handle. -/
def handleOf (s : State) (h : Nat) : Option (Nat × Pass × Nat × Frag × Nat) :=
  (passInSlot s 0 (fld h 27 5) (fld h 25 2)).bind (fun p =>
    (kget? p.2.out (fld h 0 25)).map (fun o => (p.1, p.2, fld h 0 25, o.1, o.2)))

/-- End a handle; its tile may complete. -/
def endHandle (s : State) (id key tile : Nat) : State :=
  match kget? s.passes id with
  | none => s
  | some p => tileCheck (modPass s id (fun p => { p with out := kdel p.out key })) id (p.r.key (key / 2 ^ 19) tile)

/-- End a thread's binding to a pass: it counts once towards NSUB (R323). -/
def endBinding (s : State) (t : Nat) (pass : Option Nat) : State :=
  match pass with
  | none => s
  | some id => modPass s id (fun p =>
      if p.closed || p.closing then p
      else { p with nend := p.nend + 1, ended := insertNew p.ended t, closing := decide (p.r.nsub ≤ p.nend + 1) })

/-- What a thread's end does at the units: bindings, handles and its stipple result (R323, R329, R335). -/
def endAtUnits (s : State) (t : Nat) (th : Thread) : State :=
  let s := endBinding (endBinding s t th.rasterPass) t th.stipplePass
  let s := s.passes.foldl (fun s p =>
    (p.2.out.filter (fun o => o.2.2 == t)).foldl (fun s o => endHandle s p.1 o.1 o.2.1.tile) s) s
  { s with stips := kdel s.stips t }

end Sys2Proof.Machine
end

