-- ==== Sys2Proof/Machine/Rays.lean ====
section
/-!
DEFINITION. What ray units do to rays apart from reading memory: verdicts, ends, handles (R345, R353 to R359).
-/
namespace Sys2Proof.Machine

/-- A ray's handle (R345). -/
def Ray.handle (r : Ray) : Nat := r.gen * 2 ^ 8 + r.slot

/-- Status word of a ray (R353). -/
def Ray.statusWord (r : Ray) : Nat :=
  if r.state == 1 || r.state == 2 then 15
  else Nat.min r.calls 65535 * 2 ^ 16 + (if r.status == 0 then ((r.hit.map (·.kind)).getD 0) * 2 ^ 4 else 0) + r.status

/-- The live ray of a thread that a handle names (R345). -/
def rayOf (s : State) (t h : Nat) : Option (Nat × Ray) :=
  if h / 2 ^ 16 != 0 || fld h 5 3 != 0 then none
  else s.rays.find? (fun p => p.2.owner == t && p.2.slot == h % 32 && p.2.gen == fld h 8 8)

/-- A ray finishes with a status: its owner's RAYWAIT goes on (R353, R356, R364). -/
def finishRay (s : State) (id : Nat) (status : Nat) : State :=
  let s := modRay s id (fun r =>
    { r with state := 3, status := status, hit := if 2 ≤ status then none else r.hit, stack := [], call := none })
  match kget? s.rays id with
  | none => s
  | some r =>
    match (thread? s r.owner).map Thread.wait with
    | some (.ray h d) =>
      if h == r.handle then
        replyToRecord (modThread s r.owner (fun th => ((th.wake).setReg d (wordN r.statusWord)).takePts r.pts)) r.owner [d]
      else s
    | _ => s

/-- Commit a hit (R352). -/
def commitRay (s : State) (id : Nat) (h : RayHit) : State := modRay s id (fun r => { r with hit := some h, tb := h.t })

/-- FLAGS of a ray (R346). -/
def Ray.flags (r : Ray) : Nat := fld (nthD r.words 12 0).toNat 8 8

/-- Commit a hit, and end the traversal where FIRSTHIT or a terminating verdict says so (R352, R355). -/
def commitThen (s : State) (id : Nat) (h : RayHit) (stop : Bool) : State :=
  let s := commitRay s id h
  if stop || (((kget? s.rays id).map (fun r => r.flags.testBit 1)).getD false) then finishRay s id 0 else s

/-- The hit an intersection verdict commits, where its t qualifies (R355). -/
def isectHit (r : Ray) (c : RayCall) (t : Nat) : Option RayHit :=
  if (rd32 t).isNan || less32 t (nthD r.words 6 0).toNat || !less32 t r.tb then none
  else some { c.hit with t := t, u := 0, v := 0 }

/-- A ray of an evicted owner is written to its save area, as strong stores of the device. The area's layout is not visible:
free values stand for its bytes (R357; DESIGN CHOICE, log 179). -/
def saveRay (s : State) (id : Nat) : State :=
  match kget? s.rays id with
  | none => s
  | some r => match r.save, thread? s r.owner with
    | some a, some th =>
      let (d, s) := draw s 512
      let s := modSeal s th.sealId (fun e => { e with rayAreas := insertNew e.rayAreas a })
      storeDevice s a r.pts th.sealId ((List.range 512).map (fun i => BitVec.ofNat 8 (Config.freeNat (d + i))))
    | _, _ => s

/-- The rays of an evicted thread are written to their save areas (R357). -/
def saveRays (s : State) (t : Nat) : State := (s.rays.filter (fun p => p.2.owner == t)).foldl (fun s p => saveRay s p.1) s

/-- Apply a verdict to the ray a callback serves: 0 accept, 1 ignore, 2 terminate (R355); to the saved ray where its owner is
evicted (R357). -/
def applyVerdict (s : State) (id t code tval : Nat) : State :=
  match kget? s.rays id with
  | none => s
  | some r =>
    match r.call with
    | none => s
    | some c =>
      if c.th != some t then s
      else
        let s := modRay s id (fun r => { r with state := 1, call := none })
        saveRay (match code with
        | 1 => s
        | _ =>
          match (if c.isect then isectHit r c tval else some c.hit) with
          | some h => commitThen s id h (code == 2)
          | none => if code == 2 then finishRay s id (if r.hit.isSome then 0 else 1) else s) id

/-- Free every ray of a thread (R358). -/
def freeRays (s : State) (t : Nat) : State := { s with rays := s.rays.filter (fun p => p.2.owner != t) }

/-- A thread ends: its rays are freed, and as a callback without a verdict it counts as ignore (R355, R358). -/
def endAtRays (s : State) (t : Nat) (th : Thread) : State :=
  let s := freeRays s t
  match th.callback with
  | some id => if th.verdict then s else applyVerdict s id t 1 0
  | none => s

end Sys2Proof.Machine
end

