-- ==== Sys2Proof/Machine/Chains.lean ====
section
/-!
DEFINITION. Claims, reservations, and the placing and ending of job slices and chains (R73, R382 to R386, R399).
-/
namespace Sys2Proof.Machine

/-! ### Claims (R73) -/

/-- A quadrant of a core is claimed. -/
def quadClaimed (s : State) (c q : Nat) : Bool := !(kgetD (core s c).claims q []).isEmpty

/-- A thread of no chain slice on a claimed quadrant is suspended (R73). -/
def shouldSuspend (s : State) (th : Thread) : Bool :=
  match team? s th.team with
  | none => false
  | some tm => tm.chain.isNone && quadClaimed s tm.core th.quadrant

/-- Suspend or resume a thread as its quadrant's claims stand: a suspended one stands in the slow file, and one that
resumes enters the active set where there is room (R71, R73). -/
def reclaimThread (s : State) (t : Nat) : State :=
  match thread? s t with
  | none => s
  | some th =>
    let b := shouldSuspend s th
    if b == th.suspended then s
    else if b then modThread s t (fun th => { th.setActive false s.aclk with suspended := true })
    else placeActive (modThread s t (fun th => { th.resumed with suspended := false })) t

/-- Suspend and resume the threads of a core as its claims stand. -/
def reclaim (s : State) (c : Nat) : State := (coreThreads s c).foldl (fun s p => reclaimThread s p.1) s

/-- Quadrants of a mask. -/
def maskQuads (m : Nat) : List Nat := (List.range 4).filter m.testBit

/-- A core with a chain's claim on quadrants. -/
def Core.claim (k : Core) (chain : Nat) (qs : List Nat) : Core :=
  let m := qs.foldl (fun m q => kset m q (kgetD m q [] ++ [chain])) k.claims
  { k with claims := m }

/-- A core without a chain's claims. -/
def Core.unclaim (k : Core) (chain : Nat) : Core :=
  let m := (k.claims.map (fun p => (p.1, p.2.filter (· != chain)))).filter (fun p => !p.2.isEmpty)
  { k with claims := m }

/-- Add a chain's claims (R382). -/
def addClaims (s : State) (chain : Nat) (cs : List (Nat × Nat)) : State :=
  cs.foldl (fun s c => reclaim (modCore s c.1 (fun k => k.claim chain (maskQuads c.2))) c.1) s

/-- Release a chain's claims (R382). -/
def dropClaims (s : State) (chain : Nat) (cs : List (Nat × Nat)) : State :=
  cs.foldl (fun s c => reclaim (modCore s c.1 (fun k => k.unclaim chain)) c.1) s

/-! ### Reservations (R383) -/

/-- Make a reservation on its core where there is room now. -/
def takeReserve (s : State) (r : Reserve) : Option Reserve :=
  if coreRoom s r.core r.threads r.entries r.groups r.tiles then
    (bestBlock (spadUsed s r.core) r.spord).map (fun b => { r with base := b.2, team := none, present := true })
  else none

/-- What a reservation holds is still there, `s` being the state without it: no part is withheld, and its core is not
fenced (R383, R420, R427). -/
def reserveHolds (s : State) (r : Reserve) : Bool :=
  coreRoom s r.core r.threads r.entries r.groups r.tiles && blockFree (spadUsed s r.core) r.base r.spord

/-- A reservation looks for a core that can take it, the cores in order. -/
def moveTo (s : State) (r : Reserve) : List Nat → Option Reserve
  | [] => none
  | c :: cs => match takeReserve s { r with core := c } with
    | some r' => some r'
    | none => moveTo s r cs

/-- A reservation none of whose slices runs, as it stands now, `s` being the state without it: kept; or remade on its core;
or, as its core is fenced, moved to a core of the station, or of the cluster; or missing (R383, R427). -/
def settleReserve (s : State) (r : Reserve) : Reserve :=
  if r.present && reserveHolds s r then r
  else
    let c := r.core
    let cores := if r.present && (core s c).fenced then range (c / 16 * 16) 16 ++ range (c / 160 * 160) 160 else [c]
    (moveTo s r cores).getD { r with present := false }

/-- Settle every reservation that no running slice stands on, in order. -/
def settleReserves (s : State) : State :=
  (List.range s.reserves.length).foldl (fun s i =>
    match s.reserves[i]? with
    | some r =>
      if r.team.isSome then s
      else { s with reserves := s.reserves.set i (settleReserve { s with reserves := s.reserves.eraseIdx i } r) }
    | none => s) s

/-- A free instance of a slice's reservation. -/
def freeReserve (s : State) (out arm slice : Nat) : Option Reserve :=
  s.reserves.find? (fun r => r.out == out && r.arm == arm && r.slice == slice && r.present && r.team.isNone)

/-- A slice ends: what its team stood on returns to its reservation, as far as it still holds (R383). -/
def returnReserve (s : State) (tm : Nat) : State :=
  settleReserves { s with reserves := s.reserves.map (fun r => if r.team == some tm then { r with team := none } else r) }

/-- Release an output's reservations of an arming that is over once its last chain has ended (R375). -/
def releaseOutput (s : State) (o : Nat) : State :=
  let x := output s o
  let live (a : Nat) : Bool := (x.armed && x.arming == a) || s.chains.any (fun p => p.2.out == o && p.2.arm == a)
  { s with reserves := s.reserves.filter (fun r => r.out != o || r.team.isSome || live r.arm) }

/-! ### Slices (R382, R383) -/

/-- The launch record a slice stands for (R381). -/
def SliceEntry.record (e : SliceEntry) (sealId map : Nat) : LaunchRecord :=
  { kaddr := e.kaddr, args := e.args, done := 0, decl := 0, gx := 1, gy := 1, gz := 1, teamn := e.teamn, groups := e.groups
    flags := e.sflags % 2, spord := e.spord, tiles := e.tiles, privKb := 1, map := map, nbuf := 0, narr := 0
    roles := [(0, e.regb, e.teamn)], mapimg := 0, dbegin := 0, dend := 0, dchunk := 0, dorder := 0, sealId := sealId
    queue := 0, prio := 0, deadline := 0, budget := e.budget }

/-- Claim index of a slice. -/
def SliceEntry.claim (e : SliceEntry) : Nat := fld e.sflags 1 3
/-- LORES. -/
def SliceEntry.lores (e : SliceEntry) : Bool := flag e.sflags 4

/-- Place slice `i` of a chain on a free instance of its reservation. -/
def placeSlice (s : State) (cid i : Nat) : State :=
  match kget? s.chains cid with
  | none => s
  | some c =>
    match c.tpl.slices[i]?, freeReserve s c.out c.arm i with
    | some e, some r =>
      let (gid, s) := fresh s
      let g : Grid := { lr := e.record c.sealId c.tpl.map, buffers := [], arrivals := [], image := none, pts := c.pts
                        placed := 1, hidden := true }
      let s := { s with grids := kset s.grids gid g
                        reserves := s.reserves.map (fun x => if x == r then { x with present := false } else x) }
      let (tm, s) := placeTeam s gid g 0 r.core r.base
      let (jid, s) := fresh s
      let job : Job := { team := tm, chain := some cid, idx := i, out := c.out, frame := c.frame, strip := c.k
                         deadline := some (wrap ((c.f : Int) - e.dloff) 64), budget := e.budget }
      let s := { s with jobs := kset s.jobs jid job
                        reserves := s.reserves.map (fun x => if x == { r with present := false } then { r with team := some tm } else x) }
      let s := modTeam s tm (fun t => { t with slice := some jid, chain := some cid, quad := flag e.sflags 0 })
      let regs : KMap Word := [(0, wordN (c.frame % 2 ^ 32)), (1, word c.k), (2, wordN c.out), (3, (c.lo.map wordN).getD 0xFFFFFFFF)]
      let ths := s.threads.map (fun p => if p.2.team == tm then (p.1, { p.2 with regs := regs, suspended := false }) else p)
      let s := { s with threads := ths }
      { s with chains := kmod s.chains cid (fun c =>
          { c with slices := c.slices.set i { team := some tm, job := some jid, ended := false } }) }
    | _, _ => s

/-- A slice of a chain is placed by neither kind of strip it could work on (R388). -/
def sliceSkipped (c : Chain) (e : SliceEntry) : Bool := if e.lores then c.lo.isNone else decide (c.k < 0)

/-- Place every slice that waits for nothing: AFTER is none or has ended. -/
def placeReady (s : State) (cid : Nat) : State :=
  match kget? s.chains cid with
  | none => s
  | some c => (List.range c.slices.length).foldl (fun s i =>
      match kget? s.chains cid with
      | none => s
      | some c =>
        let sl := nthD c.slices i {}
        match c.tpl.slices[i]? with
        | none => s
        | some e =>
          let ready := e.afterSl == 0xFF || (nthD c.slices e.afterSl {}).ended
          if sl.team.isNone && !sl.ended && ready then placeSlice s cid i else s) s

/-- Place what waits for its reservation, in the order of the chains (R383). -/
def placeWaiting (s : State) : State := s.chains.foldl (fun s p => placeReady s p.1) s

/-- Reservations are settled, and slices that waited for one are placed. -/
def remakeReserves (s : State) : State := placeWaiting (settleReserves s)

/-- A chain ends: its claims are released (R382). -/
def endChain (s : State) (cid : Nat) : State :=
  match kget? s.chains cid with
  | none => s
  | some c => releaseOutput (dropClaims { s with chains := kdel s.chains cid } cid c.tpl.claims) c.out

/-- A slice of a chain has ended: the slices after it are placed, and the chain ends with its last one (R382, R385). -/
def sliceEnded (s : State) (jid : Nat) : State :=
  match kget? s.jobs jid with
  | none => s
  | some j =>
    let s := returnReserve { s with jobs := kdel s.jobs jid } j.team
    match j.chain with
    | none => s
    | some cid =>
      let s := { s with chains := kmod s.chains cid (fun c =>
        { c with slices := c.slices.set j.idx { nthD c.slices j.idx {} with ended := true } }) }
      let s := placeWaiting s
      match kget? s.chains cid with
      | none => s
      | some c => if c.slices.all (fun x => x.ended && !(x.job.any (fun j => (kget? s.jobs j).isSome))) then endChain s cid else s

/-- The last thread of a team has gone: a job slice of it ends (R385). -/
def teamEmptied (s : State) (tm : Nat) : State :=
  match team? s tm with
  | none => s
  | some t =>
    match t.slice with
    | none => s
    | some j => if (teamThreads s tm).isEmpty then sliceEnded s j else s

/-- A placed team of a host grid with a deadline or a budget is a job slice (R385). -/
def makeJob (s : State) (tm : Nat) (r : LaunchRecord) : State :=
  if !r.dlen && r.budget == 0 then s
  else
    let (jid, s) := fresh s
    let job : Job := { team := tm, chain := none, idx := 0, out := 8, frame := 0, strip := 0
                       deadline := if r.dlen then some r.deadline else none, budget := r.budget }
    modTeam { s with jobs := kset s.jobs jid job } tm (fun t => { t with slice := some jid })

end Sys2Proof.Machine
end

