-- ==== Sys2Proof/Machine/Ligature.lean ====
section
/-!
DEFINITION. Ligatures: arrivals, releases, breaches and rendezvous (R83 to R89, R107, R108).
-/
namespace Sys2Proof.Machine

/-- A participant of a rendezvous, as its thread handed it over. -/
structure Part where
  t : Nat
  mid : Nat
  opc : Nat
  d : Nat
  dv : Word
  av : Word
  m : Bool
  more : List Word
  frees : List Nat
  deriving DecidableEq, Repr

/-- The threads of a group that stand in a mask. -/
def groupThreads (s : State) (tm gid : Nat) (mask : DWord) : List (Nat × Thread) :=
  s.threads.filter (fun p => p.2.team == tm && p.2.gid == gid && mask.getLsbD p.2.mid)

/-- The participant a waiting thread is at a ligature's rendezvous. -/
def partOf (l : Nat) (p : Nat × Thread) : Option Part :=
  match p.2.wait with
  | .rendezvous l' opc d dv av m more frees =>
    if l' == l then some ⟨p.1, p.2.mid, opc, d, dv, av, m, more, frees⟩ else none
  | _ => none

/-- Insert by %mid. -/
def insertPart (p : Part) : List Part → List Part
  | [] => [p]
  | q :: qs => if p.mid ≤ q.mid then p :: q :: qs else q :: insertPart p qs

/-- Participants in %mid order. -/
def sortParts (ps : List Part) : List Part := ps.foldr insertPart []

/-- Largest pts of some threads: what a synchronising event brings them (R195). -/
def maxPts (ps : List (Nat × Thread)) : Nat := ps.foldl (fun m p => Nat.max m p.2.pts) 0

/-- Change a team's ligature. -/
def modLig (s : State) (tm gid l : Nat) (f : Ligature → Ligature) : State :=
  modTeam s tm (fun t => t.setLig gid l (f (t.lig gid l)))

/-! ### Results of the rendezvous words (R107, R108) -/

/-- One step of RRED. -/
def redStep (op : Nat) (a b : Word) : Word :=
  match op with
  | 0 => a + b
  | 1 => if a.toInt ≤ b.toInt then a else b
  | 2 => if b.toInt ≤ a.toInt then a else b
  | 3 => if a.toNat ≤ b.toNat then a else b
  | 4 => if b.toNat ≤ a.toNat then a else b
  | 5 => a &&& b
  | 6 => a ||| b
  | 7 => a ^^^ b
  | 8 => wordN (add32 a.toNat b.toNat)
  | 9 => wordN (fMinMax false a.toNat b.toNat).1
  | _ => wordN (fMinMax true a.toNat b.toNat).1

/-- The reduction of a list from left to right. -/
def redAll (op : Nat) : List Word → Word
  | [] => 0
  | v :: vs => vs.foldl (redStep op) v

/-- Registers and values a participant receives. -/
def rendezvousResult (ps : List Part) (p : Part) : List (Nat × Word) :=
  match p.opc with
  | 0x308 => []
  | 0x110 =>
    let i := p.dv.toNat % 64
    let src := if p.m then p.mid ^^^ i else i
    [(p.d, ((ps.find? (fun q => q.mid == src)).map (·.av)).getD 0)]
  | 0x111 => [(p.d, ((if p.m then ps.getLast? else ps.head?).map (·.av)).getD 0)]
  | 0x112 => [(p.d, redAll (p.dv.toNat % 16) ((if p.m then ps.filter (fun q => decide (q.mid ≤ p.mid)) else ps).map (·.av)))]
  | _ =>
    let ones := ps.filter (fun q => q.av != 0)
    if p.m then [(p.d, wordN ones.length)]
    else
      let mask := ones.foldl (fun a q => a + 2 ^ q.mid) 0
      [(p.d, wordN (mask % 2 ^ 32)), (p.d + 1, wordN (mask / 2 ^ 32))]

/-- The rendezvous runs for its participants: results, frees, and each goes on (R87). -/
def completeParts (s : State) (ps : List Part) (pts : Nat) : State :=
  ps.foldl (fun s p => modThread s p.t (fun th =>
    (((th.unmap p.frees).setRegs (rendezvousResult ps p)).takePts pts).completeHeld)) s

/-! ### Breaches (R88) -/

/-- The two lowest distinct codes of a list. -/
def lowestTwo (cs : List Nat) : Nat × Nat :=
  let lo := cs.foldl Nat.min 15
  (lo, (cs.filter (· != lo)).foldl Nat.min 15)

/-- Every arrived member traps LIGATURE; its ARRIVED bit is cleared. -/
def breach (s : State) (tm gid l : Nat) (ps : List (Nat × Thread)) (infos : List Word) : State :=
  let s := ps.foldl (fun s p => raiseDue s p.1 causeLigature infos) s
  modLig s tm gid l (fun g => { g with arrived := 0 })

/-! ### Judging a ligature -/

/-- What every member having arrived amounts to. -/
inductive Meeting where
  | open_
  | release
  | mixed
  | codes (lo hi : Nat)
  | rendezvous (ps : List Part)
  deriving DecidableEq, Repr

/-- Judge a ligature's members (R85, R87, R88). -/
def meetingOf (s : State) (tm gid l : Nat) : Meeting :=
  match team? s tm with
  | none => .open_
  | some t =>
    let g := t.lig gid l
    if g.members == 0 || g.members &&& ~~~ g.arrived != 0 then .open_
    else
      let ths := groupThreads s tm gid g.members
      let ps := sortParts (ths.filterMap (partOf l))
      if ps.isEmpty then .release
      else if ps.length != ths.length || ps.any (fun p => ps.any (fun q => p.opc != q.opc)) then .mixed
      else if ps.any (fun p => p.opc == 0x112) then
        let cs := ps.map (fun p => p.dv.toNat % 16)
        if cs.any (fun c => cs.any (· != c)) then .codes (lowestTwo cs).1 (lowestTwo cs).2 else .rendezvous ps
      else .rendezvous ps

/-- Release a ligature (R85, R86). -/
def releaseLig (s : State) (tm gid l : Nat) : State :=
  match team? s tm with
  | none => s
  | some t =>
    let ths := groupThreads s tm gid (t.lig gid l).members
    let p := maxPts ths
    let s := modLig s tm gid l (fun g => { g with arrived := 0 })
    ths.foldl (fun s q => modThread s q.1 (fun th =>
      let th := th.takePts p
      let th := if fld th.meet.toNat 52 4 == l then { th with meet := clearBit th.meet 63 } else th
      match th.wait with
      | .meet => { th with wait := .ready }
      | .ligature _ => th.completeHeld
      | _ => th)) s

end Sys2Proof.Machine
end

