-- ==== Sys2Proof/Machine/Orders.lean ====
section
/-!
DEFINITION. The tile, bitmap and bank registers as stores, and the orders operations on them keep (R293, R296, R303 to R305).
-/
namespace Sys2Proof.Machine

/-! ### Registers and banks (R293, R304) -/

/-- A byte list as a store from address `a` up. -/
def memOf (a : Nat) : List Byte → Memory
  | [] => []
  | b :: bs => if b = 0 then memOf (a + 1) bs else (a, b) :: memOf (a + 1) bs

/-- Contents of a group's tile and bitmap registers. -/
def Team.tile (tm : Team) (gid k : Nat) : Memory := kgetD tm.tileMem (gkey gid k) []
/-- A bitmap register. -/
def Team.bmp (tm : Team) (gid k : Nat) : Memory := kgetD tm.bitmaps (gkey gid k) []
/-- Write a tile. -/
def Team.setTile (tm : Team) (gid k : Nat) (m : Memory) : Team := { tm with tileMem := kset tm.tileMem (gkey gid k) m }
/-- Write a bitmap register. -/
def Team.setBmp (tm : Team) (gid k : Nat) (m : Memory) : Team := { tm with bitmaps := kset tm.bitmaps (gkey gid k) m }

/-- A bank of a quad. -/
def Team.bank (tm : Team) (quad l : Nat) : Bank := kgetD tm.banks (2 * quad + l) {}

/-- The bytes of a register. -/
def Team.regBytes (tm : Team) (bmp : Bool) (gid k : Nat) : List Byte :=
  if bmp then Memory.readBytes (tm.bmp gid k) 0 1024 else Memory.readBytes (tm.tile gid k) 0 2048

/-- Write a whole register. -/
def Team.setReg (tm : Team) (bmp : Bool) (gid k : Nat) (bs : List Byte) : Team :=
  if bmp then tm.setBmp gid k (memOf 0 bs) else tm.setTile gid k (memOf 0 bs)

/-- Change a bank of a team. -/
def Team.modBank (tm : Team) (quad l : Nat) (f : Bank → Bank) : Team :=
  { tm with banks := kset tm.banks (2 * quad + l) (f (tm.bank quad l)) }

/-! ### Orders (R296, R303) -/

/-- The bank an operation needs, as 2 · quad + bank. -/
def MtxOp.bank? (o : MtxOp) : Option Nat :=
  match o.kind with
  | .mma b => some (2 * o.quad + b.bank)
  | .accz l | .accrd _ _ _ _ l _ | .accrdReg _ _ _ _ l _ | .spill l | .fill l => some (2 * o.quad + l)
  | _ => none

/-- Operations not complete on a core. -/
def coreMtx (s : State) (c : Nat) : KMap MtxOp :=
  s.mtx.filter (fun p => ((team? s p.2.team).map (·.core)) == some c)

/-- A bank is held in a set of the core. -/
def holds (b : BankSet) (team key : Nat) : Bool := b.holder == some (team, key)

/-- Place of a bank's image in its save area, where the pool had room for one (R304; log 160). -/
def bankArea (tm : Team) (key : Nat) : Option Nat := (kget? tm.saveAreas (key / 2)).map (fun a => a + 32768 * (key % 2))

/-- A set's contents are written to the save area of the bank it holds, and the bank is marked (R303, R304). Without an
area the image stays with the bank. -/
def spillBank (s : State) (team key : Nat) : State :=
  match team? s team with
  | none => s
  | some tm =>
    let b := tm.bank (key / 2) (key % 2)
    let keep (b : Bank) : State := modTeam s team (fun tm => tm.modBank (key / 2) (key % 2) (fun _ => { b with spilled := true }))
    match bankArea tm key with
    | some a => storeDevice (keep { b with img := [] }) a 0 tm.sealId (Memory.readBytes b.img 0 32768)
    | none => keep b

/-- A marked bank is filled from its save area, and its mark cleared (R303). -/
def fillBank (s : State) (c team key : Nat) : State :=
  match team? s team with
  | none => s
  | some tm =>
    let b := tm.bank (key / 2) (key % 2)
    let put (s : State) (b : Bank) : State := modTeam s team (fun tm => tm.modBank (key / 2) (key % 2) (fun _ => { b with spilled := false }))
    match (if b.spilled then bankArea tm key else none) with
    | some a =>
      let r := loadRange s c 0 tm.sealId [⟨.glob a, 32768, true, 0, true, tm.sealId⟩]
      put r.2.2 { b with img := memOf 0 r.1 }
    | none => put s b

/-- A set of a core. -/
def Core.bankSet (k : Core) (one : Bool) : BankSet := if one then k.set1 else k.set0

/-- Change a set of a core. -/
def Core.modSet (k : Core) (one : Bool) (f : BankSet → BankSet) : Core :=
  if one then { k with set1 := f k.set1 } else { k with set0 := f k.set0 }

/-- A pair of the set is withheld from use, and the set with it (R420). DESIGN CHOICE (log 167): pair i of set P is entry
4,096 · P + i. -/
def setLost (s : State) (c : Nat) (one : Bool) : Bool :=
  s.errors.quarantined.any (fun q => q.1 == 0x04 && q.2.1 == c && q.2.2 / 4096 == b2n one)

/-- The bank is not filled for an ACCZ, which zeroes it whole: its mark goes (R315). -/
def unmarkBank (s : State) (team key : Nat) : State :=
  modTeam s team (fun tm => tm.modBank (key / 2) (key % 2) (fun b => { b with spilled := false }))

/-- The operation is ACCZ. -/
def MtxOp.zeroes (o : MtxOp) : Bool := match o.kind with | .accz _ => true | _ => false

/-- Give a set to a bank for an operation; a bank that is not filled holds +0 pairs, and an ACCZ fills none (R303, R315). -/
def assignSet (s : State) (c : Nat) (one : Bool) (team key id : Nat) : State :=
  let s := modCore s c (fun k => k.modSet one (fun b => { holder := some (team, key), last := Nat.max b.last id }))
  if ((kget? s.mtx id).map MtxOp.zeroes).getD false then unmarkBank s team key else fillBank s c team key

/-- The set an operation waits for that waits for this bank (R303). -/
def setWaited (s : State) (c team key : Nat) : Option Bool :=
  (coreMtx s c).findSome? (fun p => if p.2.team == team && p.2.bank? == some key then p.2.onSet else none)

/-- The set that serves an operation on a bank: the one that holds the bank or that an earlier operation waits for it with;
a free one, the bank's own first; else the one whose last operation entered its order earliest (R303). A set withheld
from use serves only while it is the bank's. -/
def chooseSet (s : State) (c team key : Nat) : Bool :=
  let k := core s c
  let own := key % 2 == 1
  let free (one : Bool) : Bool := (k.bankSet one).holder.isNone && !setLost s c one
  if holds k.set0 team key then false
  else if holds k.set1 team key then true
  else match setWaited s c team key with
    | some one => one
    | none =>
      if free own then own
      else if free (!own) then !own
      else if setLost s c false then true
      else if setLost s c true then false
      else decide (k.set1.last < k.set0.last)

/-- Serve an operation with the set it waits for: at once where the set holds its bank or is free; otherwise it waits for
a spill (R303). -/
def serveBank (s : State) (c team key id : Nat) (one : Bool) : State :=
  let b := (core s c).bankSet one
  if holds b team key then modCore s c (fun k => k.modSet one (fun b => { b with last := id }))
  else if b.holder.isNone && !setLost s c one then assignSet s c one team key id
  else modMtx (modCore s c (fun k => k.modSet one (fun b => { b with last := id }))) id (fun o => { o with onSet := some one })

/-- Enter an operation into its orders: its number and the state. -/
def enterMtx (s : State) (o : MtxOp) : Nat × State :=
  let (id, s) := fresh s
  let s := { s with mtx := kset s.mtx id o }
  match o.bank?, team? s o.team with
  | some key, some tm => (id, serveBank s tm.core o.team key id (chooseSet s tm.core o.team key))
  | _, _ => (id, s)

/-- An operation's bank stands in a set. -/
def bankServed (s : State) (o : MtxOp) : Bool :=
  match o.bank?, team? s o.team with
  | some key, some tm => let k := core s tm.core; holds k.set0 o.team key || holds k.set1 o.team key
  | _, _ => true

/-- A later operation must wait for an earlier one. -/
def clashes (a b : MtxOp) : Bool :=
  a.team == b.team && (a.writes.any (fun r => b.reads.contains r || b.writes.contains r) || b.writes.any (fun r => a.reads.contains r))

/-- A fill of an operation's tile entered its order earlier and is still open. -/
def fillOpen (s : State) (id : Nat) (o : MtxOp) : Bool :=
  match team? s o.team with
  | none => false
  | some tm => tm.openFills.any (fun f => decide (f.order < id) &&
      (o.reads.contains (.tile f.gid f.k) || o.writes.contains (.tile f.gid f.k)))

/-- A chain claims a quadrant of the core of an operation that no chain's slice issued (R305). -/
def claimed (s : State) (o : MtxOp) : Bool :=
  match team? s o.team with
  | none => false
  | some tm => tm.chain.isNone && (core s tm.core).claims.any (fun p => !p.2.isEmpty)

/-- The operation's turn has come in every order (R296, R303, R305). -/
def mtxReady (s : State) (id : Nat) (o : MtxOp) : Bool :=
  bankServed s o && !fillOpen s id o && !s.mtx.any (fun p => decide (p.1 < id) && clashes p.2 o)
    && !((match o.kind with | .mma _ => true | _ => false) && claimed s o)

/-- The operation a flight belongs to. -/
def FlightOp.unit? : FlightOp → Option Nat
  | .unit id => some id
  | .mload _ id => some id
  | .mstore _ id => some id
  | _ => none

/-- A thread's flight of an operation. -/
def unitFlight (s : State) (t id : Nat) : Option Flight :=
  (thread? s t).bind (fun th => th.flights.find? (fun f => f.op.unit? == some id))

end Sys2Proof.Machine
end

