-- ==== Sys2Proof/Machine/Tiles.lean ====
section
/-!
DEFINITION. Tile and bitmap images, the arithmetic of a matrix op, parameter blocks, and the rendezvous of MMAC
(R294 to R302, R310, R314).
-/
namespace Sys2Proof.Machine

/-! ### Images (R294, R295, R310) -/

/-- Bytes of a block of a block format, and of an element of a scalar format. -/
def blockBytes : Nat → Nat
  | 4 => 18
  | 5 => 12
  | 6 => 8
  | _ => 17

/-- Bytes that `n` consecutive elements of a format take. -/
def imageBytes (code n : Nat) : Nat :=
  if code == 4 || code == 5 || code == 6 then n / 16 * blockBytes code
  else if code == 7 then n / 32 * 17
  else n * (widthOfCode code / 8)

/-- Tiles of a span of that many bytes. -/
def spanOf (bytes : Nat) : Nat := ceilDiv bytes 2048

/-- K per op of a code, FP32 counted as 64 (R138, R310). -/
def kFor (code : Nat) : Nat := if code == 9 then 64 else kOf code

/-- Byte `i` of the image that starts at tile `k`. -/
def Team.imgByte (tm : Team) (gid k i : Nat) : Byte := Memory.read (tm.tile gid (k + i / 2048)) (i % 2048)

/-- Write an image over a span of tiles; bytes beyond it in the span become zero. -/
def Team.setImage (tm : Team) (gid k : Nat) (bs : List Byte) : Team :=
  (List.range (spanOf bs.length)).foldl (fun tm i => tm.setTile gid (k + i) (memOf 0 ((bs.drop (2048 * i)).take 2048))) tm

/-- Little-endian number of `n` bytes of an image. -/
def imgNat (img : Nat → Byte) (at_ : Nat) : Nat → Nat
  | 0 => 0
  | n + 1 => (img at_).toNat + 256 * imgNat img (at_ + 1) n

/-- Element `k` of the row or column whose bytes start at `base` (R294, R132 to R135). -/
def imgElement (img : Nat → Byte) (code base k : Nat) : FVal :=
  if code == 4 || code == 5 || code == 6 then
    let at_ := base + k / 16 * blockBytes code
    let mw := nxM code
    let v := imgNat img at_ (blockBytes code)
    let j := k % 16
    nxElement mw (fld v 0 8) (fld v 8 8) j (flag v (16 + j * (mw + 1) + mw)) (fld v (16 + j * (mw + 1)) mw)
  else if code == 7 then
    let at_ := base + k / 32 * 17
    let j := k % 32
    mxElement (img at_).toNat (fld (img (at_ + 1 + j / 2)).toNat (4 * (j % 2)) 4)
  else
    let w := widthOfCode code / 8
    readCode code (imgNat img (base + k * w) w)

/-- A bit of a bitmap register (R295). -/
def Team.bmpBit (tm : Team) (gid k i : Nat) : Bool := (Memory.read (tm.bmp gid k) (i / 8)).toNat.testBit (i % 8)

/-- An image of `rows` rows of `kc` elements each in a format: element `i` of the image (R310). -/
def elementAt (img : Nat → Byte) (code kc i : Nat) : FVal := imgElement img code (i / kc * imageBytes code kc) (i % kc)

/-- Multiply a reading by a power of two. -/
def FVal.scale (v : FVal) (k : Int) : FVal :=
  match v with
  | .fin n m e => .fin n m (e + k)
  | v => v

/-- Bytes of an NX block (R133). -/
def nxBlock (code : Nat) (r : Nat × Nat × List (Bool × Nat) × Cond) : List Byte :=
  let mw := nxM code
  let v := (r.2.2.1.zipIdx).foldl (fun v p => v + (p.1.2 + b2n p.1.1 * 2 ^ mw) * 2 ^ (16 + p.2 * (mw + 1))) (r.1 + r.2.1 * 256)
  leBytes (blockBytes code) v

/-- Bytes of an MXFP4 block (R132). -/
def mxBlock (r : Nat × List Nat × Cond) : List Byte :=
  leBytes 17 (r.1 + (r.2.1.zipIdx).foldl (fun v p => v + p.1 * 16 ^ p.2) 0 * 256)

/-- KCVT's destination image from its source elements (R311). -/
def cvtImage (x : Nat → FVal) (n w mode : Nat) (seed : Word) : List Byte :=
  let r := fwR w
  let y (i : Nat) : FVal := (x i).scale (fwBias w)
  if r == 4 || r == 5 || r == 6 then
    (List.range (n / 16)).flatMap (fun b => nxBlock r (nxEncode ((range (16 * b) 16).map y) (nxM r) mode seed (16 * b)))
  else if r == 7 then
    (List.range (n / 32)).flatMap (fun b => mxBlock (mxEncode ((range (32 * b) 32).map y) mode seed (32 * b)))
  else (List.range n).flatMap (fun i => leBytes (widthOfCode r / 8) (roundCode r mode true (fwBias w) (x i) ⟨seed, i⟩).1)

/-! ### The arithmetic of an op (R300, R301, R302) -/

/-- The product of two elements: none where it is omitted for a zero factor, else FP32 bits (R300). -/
def mmaProduct (a b : FVal) : Option Nat :=
  if a.isZero || b.isZero then none
  else match fProd a b with
    | none => some fp32.nan
    | some (.fin n m e) => some (fp32.roundFin modeRNE false n m e {}).1
    | some p => some (fp32.inf p.neg)

/-- A pair with the first k at which its S became NaN. -/
structure Acc where
  s : Nat
  c : Nat
  nan : Option Nat
  deriving DecidableEq, Repr

/-- One fold. -/
def Acc.fold (x : Acc) (k p : Nat) : Acc :=
  let r := foldPair x.s x.c (rd32 p)
  ⟨r.1, r.2, if x.nan.isNone && (rd32 r.1).isNan && !(rd32 x.s).isNan then some k else x.nan⟩

/-- The folds of one output in ascending k. -/
def foldOutput (a b : Nat → Option FVal) : Nat → Nat → Acc → Acc
  | _, 0, x => x
  | k, n + 1, x =>
    let x := match a k, b k with
      | some u, some v => (match mmaProduct u v with
        | some p => x.fold k p
        | none => x)
      | _, _ => x
    foldOutput a b (k + 1) n x

/-- Byte offset of the pair of row m and column c in a bank image (R304). -/
def pairAt (m c : Nat) : Nat := 8192 * (m / 16) + 8 * (64 * (m % 16) + c)

/-- The element A[m][k] of an op, none where its bitmap leaves it out. -/
def mmaA (tm : Team) (quad : Nat) (b : MmaBlock) (kop m k : Nat) : Option FVal :=
  let g := 4 * quad + m / 16; let q := m / 16
  if fwBmpA b.fmt && !tm.bmpBit g (nthD b.abmp q 0) (m % 16 * kop + k) then none
  else some (imgElement (tm.imgByte g (nthD b.atile q 0)) (fwA b.fmt) (m % 16 * imageBytes (fwA b.fmt) kop) k)

/-- The element B[k][n] of an op, none where its bitmap leaves it out. -/
def mmaB (tm : Team) (quad : Nat) (b : MmaBlock) (kop n k : Nat) : Option FVal :=
  let kq := kop / 4
  let g := 4 * quad + k / kq; let q := k / kq
  if fwBmpB b.fmt && !tm.bmpBit g (nthD b.bbmp q 0) (n * kq + k % kq) then none
  else some (imgElement (tm.imgByte g (nthD b.btile q 0)) (fwB b.fmt) (n * imageBytes (fwB b.fmt) kq) (k % kq))

/-- The new pair of one output. -/
def mmaOutput (tm : Team) (quad : Nat) (b : MmaBlock) (m n : Nat) : Acc :=
  let kop := kOf (fwA b.fmt)
  let img := (tm.bank quad b.bank).img
  let p (i : Nat) : Nat := if b.zero then 0 else leNat (Memory.readBytes img (pairAt m n + i) 4)
  foldOutput (mmaA tm quad b kop m) (mmaB tm quad b kop n) 0 b.klen ⟨p 0, p 4, none⟩

/-- The outputs of an op, n within k order of columns then rows: each with its place. -/
def mmaOutputs (tm : Team) (quad : Nat) (b : MmaBlock) : List (Nat × Nat × Acc) :=
  (List.range (16 * b.nc)).flatMap (fun n => (List.range 64).map (fun m => (m, n, mmaOutput tm quad b m n)))

/-- The first fold in architectural order after which S is NaN: k, n, m ascending (R301, R302). -/
def firstNan (os : List (Nat × Nat × Acc)) : Option (Nat × Nat × Nat) :=
  os.foldl (fun best o => match o.2.2.nan with
    | none => best
    | some k => match best with
      | some (k', _, _) => if k < k' then some (k, o.2.1, o.1) else best
      | none => some (k, o.2.1, o.1)) none

/-- The bank's image after an op. -/
def mmaImage (img : Memory) (os : List (Nat × Nat × Acc)) : Memory :=
  os.foldl (fun m o => Memory.writeBytes m (pairAt o.1 o.2.1) (leBytes 4 o.2.2.s ++ leBytes 4 o.2.2.c)) img

/-! ### Parameter blocks (R298, R299) -/

/-- Parse the 32 bytes of a block. -/
def parseBlock (bs : List Byte) : MmaBlock :=
  let f (o n : Nat) : Nat := leNat ((bs.drop o).take n)
  let q (o : Nat) : List Nat := (List.range 4).map (fun i => fld (f (o + i) 1) 0 3)
  { fmt := f 0 4, nc := f 4 1, bank := fld (f 5 1) 0 1, zero := flag (f 5 1) 1, klen := f 6 2, atile := q 8, btile := q 12
    abmp := q 16, bbmp := q 20, ec := fld (f 24 1) 0 3, aen := flag (f 24 1) 3, aidx := f 25 1, tag := f 26 2
    seed := wordN (f 28 4) }

/-- Every field meets R298. -/
def blockOk (tm : Team) (bs : List Byte) : Bool :=
  let b := parseBlock bs
  let f (o : Nat) : Nat := leNat ((bs.drop o).take 1)
  let kop := kOf (fwA b.fmt)
  let nx (c : Nat) : Bool := c == 4 || c == 5 || c == 6
  fmtCheck b.fmt == 0 && decide (1 ≤ b.nc) && decide (b.nc ≤ 4) && decide (f 5 < 4)
    && decide (1 ≤ b.klen) && decide (b.klen ≤ kop)
    && (!(nx (fwA b.fmt) || nx (fwB b.fmt)) || b.klen % 16 == 0)
    && (!(fwA b.fmt == 7 || fwB b.fmt == 7) || b.klen % 32 == 0)
    && (range 8 16).all (fun i => decide (f i < 8)) && decide (f 24 < 16) && b.ec != 6
    && (if b.aen then tm.arrivals.any (fun a => a.idx == b.aidx) else b.aidx == 0)

/-- TILE_FORMAT (R299). -/
def tileFormat (reg quad operand span : Nat) (overlap : Bool) (fmt : Nat) (iw : Word) : Stop :=
  .trap causeTileFormat (wordN (reg % 8 + quad * 16 + operand * 256)) (wordN (span + 256 * b2n overlap)) (wordN fmt) iw

/-- Tiles of the A and B spans of a format word. -/
def aSpan (fmt : Nat) : Nat := spanOf (imageBytes (fwA fmt) (16 * kOf (fwA fmt)))
/-- Tiles of the B span. -/
def bSpan (fmt : Nat) : Nat := spanOf (64 * imageBytes (fwB fmt) (kOf (fwA fmt) / 4))

/-- The lowest tile two spans share. -/
def spanOverlap (a n b m : Nat) : Option Nat := if a < b + m ∧ b < a + n then some (Nat.max a b) else none

/-- Tiles granted to a group of a team: none for a group it has not. -/
def Team.granted (tm : Team) (gid : Nat) : Nat := if gid < tm.groups then tm.tiles else 0

/-- R299 step 4 on one quadrant. -/
def quadrantCheck (tm : Team) (quad : Nat) (b : MmaBlock) (iw : Word) (q : Nat) : Option Stop :=
  let t := tm.granted (4 * quad + q)
  let a := nthD b.atile q 0; let bt := nthD b.btile q 0
  let an := aSpan b.fmt; let bn := bSpan b.fmt
  if t < a + an then some (tileFormat (Nat.max a t) q 0 an false b.fmt iw)
  else if t < bt + bn then some (tileFormat (Nat.max bt t) q 1 bn false b.fmt iw)
  else if fwBmpA b.fmt && decide (t ≤ nthD b.abmp q 0) then some (tileFormat (nthD b.abmp q 0) q 2 1 false b.fmt iw)
  else if fwBmpB b.fmt && decide (t ≤ nthD b.bbmp q 0) then some (tileFormat (nthD b.bbmp q 0) q 3 1 false b.fmt iw)
  else (spanOverlap a an bt bn).map (fun k => tileFormat k q 1 bn true b.fmt iw)

/-- R299 steps 3 and 4. -/
def blockCheck (k : Ctx) (tm : Team) (bs : List Byte) : Except Stop MmaBlock :=
  if !blockOk tm bs then .error (k.illegal 3)
  else
    let b := parseBlock bs
    match (List.range 4).findSome? (quadrantCheck tm (k.th.gid / 4) b k.iw) with
    | some e => .error e
    | none => .ok b

/-! ### Entering an op (R299, R313, R314) -/

/-- Tiles of a span as resources. -/
def tileRes (gid k n : Nat) : List Res := (range k n).map (fun i => .tile gid i)

/-- Resources an op reads and writes. -/
def mmaReads (quad : Nat) (b : MmaBlock) : List Res :=
  (List.range 4).flatMap (fun q =>
    let g := 4 * quad + q
    tileRes g (nthD b.atile q 0) (aSpan b.fmt) ++ tileRes g (nthD b.btile q 0) (bSpan b.fmt)
      ++ (if fwBmpA b.fmt then [.bmp g (nthD b.abmp q 0)] else []) ++ (if fwBmpB b.fmt then [.bmp g (nthD b.bbmp q 0)] else []))

/-- Enter a checked matrix op for its threads; their counters rise (R299, R313, R314). -/
def startMma (s : State) (team quad sealId pts : Nat) (b : MmaBlock) (ts : List Nat) : State :=
  let o : MtxOp := { team := team, quad := quad, kind := .mma b, parts := ts, reads := mmaReads quad b
                     writes := [.bank quad b.bank], sealId := sealId, pts := pts }
  let (id, s) := enterMtx s o
  ts.foldl (fun s t => modThread s t (fun th => th.launch b.ec [] (.unit id) none)) s

/-! ### The rendezvous of MMAC (R314) -/

/-- What a participant's checks see. -/
def partCtx (s : State) (p : Part) : Option Ctx :=
  (thread? s p.t).map (fun th => { s := s, t := p.t, th := th, iw := th.rawWord, ctl := th.ext.ctl, imm := th.ext.imm })

/-- Trap informations of a stop. -/
def stopInfos : Stop → Nat × List Word
  | .trap c i0 i1 i2 i3 => (c, [i0, i1, i2, i3])
  | .held _ => (0, [])

/-- The block of a rendezvous: the lowest participant's words, or the bytes at its address. -/
def mmacBytes (k : Ctx) (p : Part) : Except Stop (List Byte × State) :=
  if !p.m then .ok (p.more.flatMap (fun w => leBytes 4 w.toNat), k.s)
  else
    let addr := (nthD p.more 0 0).toNat + 2 ^ 32 * (nthD p.more 1 0).toNat
    match checkAccess k.s k.t k.th k.iw addr 32 32 .load false [0xF0] false with
    | .error e => .error e
    | .ok a => .ok (readNow k.s k.t [a])

/-- R299 for a participant: the block with the agreed format word, or its trap. -/
def mmacCheck (k : Ctx) (p : Part) : Except Stop (MmaBlock × State) :=
  match team? k.s k.th.team with
  | none => .error (k.illegal 3)
  | some tm =>
    if !tm.quad then .error (k.illegal 3)
    else match mmacBytes k p with
    | .error e => .error e
    | .ok (bs, s) => (blockCheck k tm (leBytes 4 p.av.toNat ++ bs.drop 4)).map (fun b => (b, s))

/-- The outcome of a rendezvous at MMAC. -/
inductive Vote where
  /-- The rendezvous waits for a counter or for the sequencer. -/
  | wait
  /-- Each participant traps. -/
  | trap (ps : List (Nat × Nat × List Word))
  /-- The op is entered; the participants go on. -/
  | go (s : State)

/-- The trap of each participant for a failed check, each with its own instruction word. -/
def mmacTraps (s : State) (low : Part) (ps : List Part) : List (Nat × Nat × List Word) :=
  ps.filterMap (fun p => match partCtx s low, partCtx s p with
    | some k, some own =>
      (match mmacCheck { k with iw := own.iw, ctl := own.ctl, imm := own.imm } low with
       | .error e => let (c, is) := stopInfos e; some (p.t, c, is)
       | .ok _ => none)
    | _, _ => none)

/-- Judge a rendezvous of MMAC words, participants in %mid order (R314). -/
def mmacVote (s : State) (ps : List Part) : Vote :=
  match ps with
  | [] => .wait
  | low :: rest =>
    match rest.find? (fun p => p.av != low.av) with
    | some other =>
      let mask := (ps.filter (fun p => p.av == low.av)).foldl (fun a p => a + 2 ^ p.mid) 0
      .trap (ps.map (fun p => (p.t, causeFormatDiverge, [low.av, other.av, loW mask, hiW mask])))
    | none =>
      match partCtx s low with
      | none => .wait
      | some k => match mmacCheck k low with
        | .error _ => .trap (mmacTraps s low ps)
        | .ok (b, s) =>
          let full := ps.any (fun p => decide (63 ≤ ((thread? s p.t).map (fun th => th.counter b.ec)).getD 0))
          if (b.ec < 6 && full) || 32 ≤ (coreMtx s (coreOf s k.th)).length then .wait
          else .go (startMma s k.th.team (k.th.gid / 4) k.th.sealId k.th.pts b (ps.map (·.t)))

end Sys2Proof.Machine
end

