-- ==== Sys2Proof/Machine/Ops.lean ====
section
/-!
DEFINITION. The operations every meaning shares: judging a ligature, ending a thread, taking an exception, and issuing
a word through the checks of R48 (R43, R48, R72, R85 to R88, R105, R406 to R412).
-/
namespace Sys2Proof.Machine

/-! ### Ligatures -/

/-- Act on a ligature whose members have all arrived (R85, R87, R88). -/
def ligCheck (s : State) (tm gid l : Nat) : State :=
  let arr : DWord := ((team? s tm).map (fun t => (t.lig gid l).arrived)).getD 0
  let all := groupThreads s tm gid arr
  match meetingOf s tm gid l with
  | .open_ => s
  | .release => releaseLig s tm gid l
  | .mixed => breach s tm gid l all [3, wordN l, wordN (arr.toNat % 2 ^ 32), wordN (arr.toNat / 2 ^ 32)]
  | .codes lo hi => breach s tm gid l all [4, wordN l, wordN lo, wordN hi]
  | .rendezvous ps =>
    if ps.any (fun p => p.opc == 0x308) then
      match mmacVote s ps with
      | .wait => s
      | .trap ts =>
        modLig (ts.foldl (fun s t => raiseDue s t.1 t.2.1 t.2.2) s) tm gid l (fun g => { g with arrived := 0 })
      | .go s => completeParts (modLig s tm gid l (fun g => { g with arrived := 0 })) ps (maxPts all)
    else completeParts (modLig s tm gid l (fun g => { g with arrived := 0 })) ps (maxPts all)

/-- A thread held at MMAC for a counter or the sequencer is judged again. -/
def rejudge (s : State) (t : Nat) : State :=
  match thread? s t with
  | some th => (match th.wait with
    | .rendezvous l 0x308 _ _ _ _ _ _ => ligCheck s th.team th.gid l
    | _ => s)
  | none => s

/-- Every thread of a core held at MMAC is judged again. -/
def rejudgeCore (s : State) (c : Nat) : State :=
  (s.threads.filter (fun p => coreOf s p.2 == c)).foldl (fun s p => rejudge s p.1) s

/-- Set a thread's ARRIVED bit at a ligature, with the hold it stands in, and judge the ligature. Arriving publishes
the thread's accesses (R86). -/
def arriveLig (s : State) (t : Nat) (th : Thread) (l : Nat) (w : Wait) : State :=
  let s := flush s t
  let s := modThread s t (fun th => { th with wait := w })
  ligCheck (modLig s th.team th.gid l (fun g => { g with arrived := setBit g.arrived th.mid })) th.team th.gid l

/-- Take a member out of a ligature and judge it (R99). -/
def leaveLig (s : State) (th : Thread) (l : Nat) : State :=
  ligCheck (modLig s th.team th.gid l (fun g =>
    { members := clearBit g.members th.mid, arrived := clearBit g.arrived th.mid })) th.team th.gid l

/-! ### The end of a thread (R105) -/

/-- Give back the areas of the context pool that an ended thread held (R189, R416). -/
def releaseAreas (s : State) (th : Thread) : State :=
  let s := poolGive? s th.sealId th.backing
  if th.evicted then poolGive? (poolGive s th.sealId th.record) th.sealId th.image else s

/-- Take a thread out of every list of waiters. -/
def dropWaiter (s : State) (t tm : Nat) : State :=
  let s := { s with queues := s.queues.map (fun p => (p.1, { p.2 with waiters := p.2.waiters.filter (· != t) })) }
  modTeam s tm (fun x => { x with portWait := x.portWait.map (fun p => (p.1, p.2.filter (· != t))) })

/-- The distributor's answers a thread has asked for in a slot are stored (R253). -/
def storeAnswers (s : State) (th : Thread) : State :=
  th.flights.foldl (fun s f => match f.op with
    | .answer tm off bs => poke s (.spad tm off) bs
    | _ => s) s

/-- A load's result in flight is dropped (R105). -/
def FlightOp.forRegister (s : State) : FlightOp → Bool
  | .load .. | .result _ | .prefetch .. => true
  | .remote r _ _ _ => ((kget? s.domain.reqs r).map (fun q => q.store.isEmpty && q.atom.isNone)).getD true
  | _ => false

/-- Results still in flight to a thread are dropped. -/
def dropResults (s : State) (t : Nat) : State :=
  modThread s t (fun th => { th with flights := th.flights.filter (fun f => !f.op.forRegister s) })

/-- Open operations of a thread that come before one of its operations (R200, R231). -/
def Thread.before (th : Thread) (f : Flight) : List Flight :=
  th.flights.filter (fun g => decide (g.seq < f.seq) && g.open_
    && !(g.passes f.accesses && !(decide (g.seq < th.fencew) && decide (th.fencew ≤ f.seq))))

/-- Requests to other packages among operations. -/
def requestsOf (fs : List Flight) : List Nat :=
  fs.filterMap (fun f => match f.op with
    | .remote r _ _ _ => some r
    | _ => none)

/-- What an ending thread leaves: its stores and atomics that something still open comes before, and its tile operations'
places in its order (R105, R305). -/
def bequeath (s : State) (t : Nat) (th : Thread) : State :=
  (th.flights.filter (·.open_)).foldl (fun s f =>
    let fs := th.before f
    match f.op with
    | .store .. | .atom .. =>
      let h : Heir := { thread := t, seq := f.seq, op := f.op, parts := f.parts, ops := fs.filterMap (·.op.unit?), reqs := requestsOf fs
                        pts := th.pts, sealId := th.sealId, team := th.team }
      { s with heirs := s.heirs ++ [h] }
    | .mload _ id | .mstore _ id => modMtx s id (fun o => { o with orphan := some (t, f.seq), preds := fs.filterMap (·.op.unit?), taken := f.parts })
    | _ => s) s

/-- End a thread as under R105: results in flight are dropped, its stores and atomics are performed, and the areas it held
go back to the pool. -/
def endThread (s : State) (t : Nat) : State :=
  let s := dropLines (flush (dropResults s t) t) t
  match thread? s t with
  | none => s
  | some th =>
    let s := bequeath s t th
    let s := releaseAreas (storeAnswers { s with threads := kdel s.threads t } th) th
    let s := (List.range 16).foldl (fun s l => leaveLig s th l) s
    let s := dropWaiter s t th.team
    let s := barriersAfterExit s th.team
    let s := endAtUnits s t th
    let s := endAtRays s t th
    let s := match team? s th.team with
      | none => s
      | some tm => modGrid s tm.grid (fun g => { g with endPts := Nat.max g.endPts th.pts })
    teamEmptied s th.team

/-! ### Taking an exception (R406 to R411) -/

/-- Address of the resume point. -/
def Thread.resumeAddr (th : Thread) : Nat := (th.pc + 4 * th.word) % 2 ^ 64

/-- An event of kind UNHANDLED (R410, R411, R423). -/
def logUnhandled (s : State) (th : Thread) (cause tpc : Nat) (double : Bool) : State :=
  logEvent s { kind := 5, sealId := th.sealId, index := coreOf s th * 2 ^ 22
               syndrome := cause + (tpc % 2 ^ 32) * 2 ^ 8, extra := if double then 2 ^ 31 else 0 }

/-- End a thread as a double trap (R411). -/
def doubleTrap (s : State) (t cause : Nat) : State :=
  match thread? s t with
  | none => s
  | some th => endThread (logUnhandled s th cause th.resumeAddr true) t

/-- Causes whose default action is to go on (R410). -/
def ignorable (cause : Nat) : Bool :=
  [causeBreak, causeOvershoot, causeMatrixNan, causeBudget, causeDeadline, causeWatchdog].contains cause

/-- Address of the vector-table entry of a cause (R409). -/
def vectorAt (s : State) (sealId cause : Nat) : Nat := (sealOf s sealId).vbase + 8 * cause

/-- The vector-table entry of a cause: none where it cannot be read or is no multiple of 4 (R409). -/
def readVector (s : State) (sealId cause : Nat) : Option Nat :=
  let a := vectorAt s sealId cause
  if 2 ^ 39 < a + 8 then none
  else
    let v := leNat (Memory.readBytes s.mem a 8)
    if v % 4 == 0 then some v else none

/-- Reading a vector-table entry meets the errors injected there (R437). -/
def metVector (s : State) (sealId cause : Nat) : State :=
  let a := vectorAt s sealId cause
  if 2 ^ 39 < a + 8 then s else met s (.glob a) 8

/-- The registers a delivery saves and sets (R409): the thread stands at the resume point. `words` is the number of
words the trapping instruction occupies, 0 where SKIP is not legal (R414). -/
def Thread.enterHandler (th : Thread) (cause : Nat) (i0 i1 i2 i3 : Word) (words v : Nat) : Thread :=
  let cn := (th.clause.map (fun c => (c.cls, c.n))).getD (0, 0)
  let cn := if th.word = 0 then (0, 0) else cn
  let mapped := b2n (th.mapped 0) + 2 * b2n (th.mapped 1) + 4 * b2n (th.mapped 2) + 8 * b2n (th.mapped 3)
  let tr : TrapRegs :=
    { cause := cause, tpc := th.resumeAddr, info0 := i0, info1 := i1, info2 := i2, info3 := i3
      save0 := th.reg 0, save1 := th.reg 1, save2 := th.reg 2, save3 := th.reg 3, alost := th.trap.alost
      tn := cn.2, tcls := cn.1, tword := th.word, tactive := true, pmode := th.system, tsmap := mapped
      tpred := th.preds % 256, words := words, skippable := words != 0 }
  { (th.unmap [0, 1, 2, 3]).branchTo v with preds := 0, trap := tr, wait := .ready, parkAfter := false, due := none }

/-- Deliver a trap to a thread that stands at its resume point (R409 to R411). -/
def deliver (s : State) (t cause : Nat) (i0 i1 i2 i3 : Word) (words : Nat) : State :=
  match thread? s t with
  | none => s
  | some th =>
    if th.trap.tactive then doubleTrap s t cause
    else
      let s := metVector s th.sealId cause
      match readVector s th.sealId cause with
      | none => doubleTrap s t cause
      | some 0 =>
        if ignorable cause then modThread s t (fun th => { th with due := none })
        else endThread (logUnhandled s th cause th.resumeAddr false) t
      | some v => setThread s t (th.enterHandler cause i0 i1 i2 i3 words v)

/-- A synchronous trap of the word at issue (R406, R408). -/
def trapSync (s : State) (t cause : Nat) (i0 i1 i2 i3 : Word) : State :=
  match thread? s t with
  | none => s
  | some th => deliver (setThread s t th.atResume) t cause i0 i1 i2 i3 (th.skipWords cause)

/-- A synchronous trap that was raised while its thread waited (R406, R408). -/
def trapDue (s : State) (t : Nat) (h : HeldTrap) : State :=
  match thread? s t with
  | none => s
  | some th =>
    let i (n : Nat) : Word := nthD h.infos n 0
    deliver (setThread s t th.atResume) t h.cause (i 0) (i 1) (i 2) (i 3) (h.words.getD (th.skipWords h.cause))

/-- What a step that does not complete leaves. -/
def stopped (s : State) (t : Nat) : Stop → State
  | .trap c i0 i1 i2 i3 => trapSync s t c i0 i1 i2 i3
  | .held s' => s'

/-! ### Issuing a word (R48) -/

/-- A thread held at issue for a resource (R79). -/
def holdAt (s : State) (t : Nat) : State := modThread s t (fun th => { th with wait := .hold })

/-- The word's event counter stands at 63, its largest value (R26). -/
def counterFull (k : Ctx) (e : Eff) : Bool :=
  match e.launch with
  | some l => decide (l.ec < 6) && decide (63 ≤ k.th.counter l.ec)
  | none => false

/-- Frees, results, the long-latency operation, and where control goes. -/
def complete (k : Ctx) (sw : Bool) (frees : List Nat) (e : Eff) : State :=
  e.after (modThread e.st k.t (fun th =>
    match e.flow with
    | .done => th.mapNames e.later
    | f =>
      let th := ((th.unmap frees).mapNames e.later).setRegs e.writes
      let th := match e.launch with
        | none => th
        | some l => th.launch l.ec l.dests l.op l.got l.brings
      match f with
      | .branch target => (th.branchTo target).afterWord sw
      | .wait w => { th.advance with wait := w, parkAfter := sw }
      | _ => th.advance.afterWord sw))

/-- The word completes, or its thread is held while its event counter is full. -/
def finish (k : Ctx) (sw : Bool) (frees : List Nat) (e : Eff) : State :=
  if counterFull k e then holdAt k.s k.t else complete k sw frees e

/-- The instruction's own opcode under map 3. -/
def opcOf' (i : Instr) : Nat := (opcode? i).getD 0

/-- What the entry sees of a thread at issue. -/
def ctxOf (s : State) (t : Nat) (th : Thread) : Ctx :=
  { s := s, t := t, th := { th with wait := .ready }, iw := th.rawWord, ctl := th.ext.ctl, imm := th.ext.imm }

/-- Run an instruction's entry through the checks of R48 for a thread. -/
def issueAt (i : Instr) (srcs : List Src) (body : Ctx → Except Stop Eff) (s : State) (t : Nat) (th : Thread) : State :=
  let s := modThread s t (fun th => { th with wait := .ready })
  let k := ctxOf s t th
  let opc := opcOf' i
  match k.gate i opc srcs with
  | .off => setThread s t ((th.advance).afterWord (switchMarker i))
  | .stop st => stopped s t st
  | .go =>
    match body k with
    | .error st => stopped s t st
    | .ok e =>
      let frees := freesOf (k.allSrcs i opc srcs) ++ e.moreFrees
      match k.budget frees e.dests with
      | some st => stopped s t st
      | none => finish k (switchMarker i) frees e

/-- Issue an instruction for the current thread (R48). -/
def issue (i : Instr) (srcs : List Src) (body : Ctx → Except Stop Eff) (s : State) : Host.Outcome State Fault Refusal :=
  match s.cur with
  | none => .fault .noThread
  | some t =>
    match thread? s t with
    | none => .fault .noThread
    | some th => .next (issueAt i srcs body s t th)

/-! ### Conditions and the NaN trap (R147, R158, R159) -/

/-- Write float results: FP_NAN where it is enabled and an element is a NaN (its index with the bits reported for a and
b), else the conditions are gathered and the registers written (R147, R158, R159). -/
def floatWrites (k : Ctx) (ws : List (Nat × Word)) (nan : Option (Nat × Word × Word)) (c : Cond) : Except Stop Eff :=
  match (if fmtNanTrap k.th.fmt then nan else none) with
  | some (i, a, b) => .error (.trap causeFpNan (wordN i) k.iw a b)
  | none => .ok { st := setThread k.s k.t { k.th with fmt := gather k.th.fmt c }, writes := ws }

/-- One FP32 result with its conditions (R158, R159). -/
def floatRet (k : Ctx) (d : BitVec 6) (r : FRes) (a b : Word) : Except Stop Eff :=
  floatWrites k [(d.toNat, wordN r.1)] (if (rd32 r.1).isNan then some (0, a, b) else none) r.2

/-- The rounding mode of R156. -/
def Ctx.fmode (k : Ctx) : Nat := k.mode (fmtRmode k.th.fmt)

end Sys2Proof.Machine
end

