-- ==== Sys2Proof/Machine/Fetch.lean ====
section
/-!
DEFINITION. Clause fetch and issue, memory tokens, results written, parks, and asynchronous traps
(R24, R25, R29, R30, R32, R81, R82, R85, R406).
-/
namespace Sys2Proof.Machine

/-! ### Who may issue -/

/-- The thread could issue if it were picked, YIELD apart (R71, R79). -/
def Thread.runnable (th : Thread) : Bool := !th.suspended && !th.evicted && th.active && th.atIssue

/-- Threads a YIELD still lets go first (R103). -/
def yieldsLeft (s : State) (th : Thread) : List Nat :=
  th.yields.filter (fun t => ((thread? s t).map (fun o => o.active && o.ready)).getD false)

/-- The thread may take a step now: YIELD never makes it wait longer than R80 allows (R80, R103). -/
def mayStep (s : State) (th : Thread) : Bool := th.runnable && (th.overdue || (yieldsLeft s th).isEmpty)

/-- A thread has issued: the threads that yielded to it need not wait for it any more (R103). -/
def noteIssue (s : State) (t : Nat) : State :=
  { s with threads := s.threads.map (fun p =>
      if p.2.yields.contains t then (p.1, { p.2 with yields := p.2.yields.filter (· != t) }) else p) }

/-! ### Memory tokens (R81, R82) -/

/-- A group's number on its core, for the round robin of tokens. DESIGN CHOICE (log 159): the spec gives the groups of a core
no numbering; they count by team, in order of placement, then by %gid. -/
def groupKey (th : Thread) : Nat := 16 * th.team + th.gid

/-- MEMGROUPS.EFFECTIVE (R81). -/
def Core.effective (c : Core) : Nat := Nat.max c.limit (ceilDiv (c.tokens.length + c.waiting.length) 14)

/-- The next waiting group in round robin order. -/
def Core.nextGroup (c : Core) : Option Nat :=
  match (c.waiting.filter (fun g => decide (c.tokenNext < g))) with
  | g :: gs => some (gs.foldl Nat.min g)
  | [] => match c.waiting with
    | [] => none
    | g :: gs => some (gs.foldl Nat.min g)

/-- Give a token to a waiting group. -/
def Core.grant (c : Core) (g now : Nat) : Core :=
  { c with tokens := kset c.tokens g now, waiting := c.waiting.filter (· != g), tokenNext := g }

/-- Grant tokens while fewer than EFFECTIVE are held (R82). -/
def Core.grantAll (c : Core) (now : Nat) : Nat → Core
  | 0 => c
  | fuel + 1 =>
    if c.tokens.length < c.effective then
      match c.nextGroup with
      | some g => (c.grant g now).grantAll now fuel
      | none => c
    else c

/-- A group asks for a token at a MEM-class header. -/
def askToken (s : State) (c g : Nat) : State :=
  modCore s c (fun k => if (kget? k.tokens g).isSome then k
    else ({ k with waiting := insertNew k.waiting g } : Core).grantAll s.aclk 130)

/-- The group holds a token. -/
def hasToken (s : State) (c g : Nat) : Bool := (kget? (core s c).tokens g).isSome

/-! ### Fetch (R29) -/

/-- Checks and load of one word at an address, as a weak load with X permission. -/
def fetchWord (s : State) (t : Nat) (addr : Nat) : Except Stop (Nat × State) :=
  match thread? s t with
  | none => .error (.held s)
  | some th =>
    if selector addr != 0 then .error (accessViolation 3 addr 0)
    else match checkAccess s t th 0 addr 4 4 .fetch false [0x00] false with
    | .error e => .error e
    | .ok a =>
      let (bs, p, s) := loadAt s (coreOf s th) a th.pts th.sealId none
      .ok (leNat bs, modThread s t (fun th => th.takePts p))

/-- Fetch words at consecutive addresses. -/
def fetchWords (s : State) (t addr : Nat) : Nat → Except Stop (List Nat × State)
  | 0 => .ok ([], s)
  | n + 1 =>
    match fetchWord s t addr with
    | .error e => .error e
    | .ok (w, s) => (fetchWords s t (addr + 4) n).map (fun r => (w :: r.1, r.2))

/-- The bytes of `n` words at an address, as the thread's TLB maps them. -/
def codeAccess (s : State) (t : Nat) (th : Thread) (addr n : Nat) : List Access :=
  (checkRange s t th 0 addr (4 * n) 4 .fetch false [0x00] false).toOption.getD []

/-- The thread's open accesses that a weak load of these words must follow are performed first; none where one of them is
not this core's to perform (R29, R200). -/
def flushForFetch (s : State) (t : Nat) (th : Thread) (addr n : Nat) : Option State :=
  performBefore s t (codeAccess s t th addr n)

/-- CLAUSE_FORM reason of a header word (R24); 0 for none. -/
def headerFault (h : Nat) : Nat :=
  if fld h 28 4 != 0xC then 1 else if fld h 24 4 == 0 then 2 else if fld h 18 2 != 0 then 3 else 0

/-- The header's waits hold (R25). -/
def waitsMet (th : Thread) (h : Nat) : Bool :=
  (List.range 6).all (fun i => let w := fld h (3 * i) 3; w == 7 || decide (th.counter i ≤ w))

/-- The thread stands at its meet (R85). -/
def atMeet (s : State) (th : Thread) : Bool :=
  th.meet.getLsbD 63 && th.pc == fld th.meet.toNat 0 52 &&
    (((team? s th.team).map (fun tm => (tm.lig th.gid (fld th.meet.toNat 52 4)).members.getLsbD th.mid)).getD false)

/-- The clause of a header and its words. -/
def clauseOf (h : Nat) (ws : List Nat) : Clause :=
  { header := h, cls := fld h 21 3, n := fld h 24 4, words := ws, resumed := false }

/-- A thread held at issue for a resource (R79). -/
def heldAt (s : State) (t : Nat) : Stop := .held (holdAt s t)

/-- Fetch `n` words at an address as a weak load, after the accesses it must follow. -/
def fetchRun (s : State) (t : Nat) (th : Thread) (addr n : Nat) : Except Stop (List Nat × State) :=
  match flushForFetch s t th addr n with
  | none => .error (heldAt s t)
  | some s => fetchWords s t addr n

/-- Steps 1 and 2 of R48 at a header: the clause fetched whole, header and as many words as its N names, and then its
header's fields judged. -/
def fetchClause (s : State) (t : Nat) (th : Thread) : Except Stop (Clause × State) :=
  match fetchRun s t th th.pc 1 with
  | .error e => .error e
  | .ok (hs, s) =>
    let h := nthD hs 0 0
    match fetchRun s t th (th.pc + 4) (fld h 24 4) with
    | .error e => .error e
    | .ok (ws, s) =>
      match headerFault h with
      | 0 => .ok (clauseOf h ws, s)
      | r => .error (.trap causeClauseForm (wordN r) (wordN h) 0 0)

/-- The header waits on a counter (R25). -/
def waitsOn (h i : Nat) : Bool := fld h (3 * i) 3 != 7

/-- A satisfied header acquires the commands that have finished on the counters it waits on (R205). -/
def Thread.acquireAt (th : Thread) (h : Nat) : Thread :=
  let mine := th.acq.filter (fun a => waitsOn h a.ec)
  { mine.foldl (fun th a => th.takePts a.pts) th with acq := th.acq.filter (fun a => !waitsOn h a.ec) }

/-- Step 3 of R48: waits, and a token for a MEM-class clause. The clause's first word is next. -/
def startClause (s : State) (t : Nat) (c : Clause) : State :=
  match thread? s t with
  | none => s
  | some th =>
    let th := { th with clause := some c, wait := .ready, table := th.nextTable.getD th.table, nextTable := none }
    if !waitsMet th c.header then setThread s t { th with wait := .hold }
    else
      let th := th.acquireAt c.header
      let start : Thread := { th with word := 1, clauseNo := th.clauseNo + 1 }
      if c.cls == 2 then
        let k := coreOf s th
        let s := askToken s k (groupKey th)
        if hasToken s k (groupKey th) then setThread s t start else setThread s t { th with wait := .hold }
      else setThread s t start

/-- Word `w` of the clause is not at hand: a thread resumed in mid-clause fetches again from there (R29, R30). -/
def Clause.lacks (c : Clause) (w : Nat) : Bool := decide (c.words.length < w)

/-- The words a clause has up to one, and those fetched from it on. -/
def Clause.refetched (c : Clause) (w : Nat) (ws : List Nat) : Clause :=
  { c with words := (c.words ++ List.replicate 15 0).take (w - 1) ++ ws, resumed := true }

/-- A thread that has reached its meet is held there (R85); arriving waits until no access of it is at another package
(R86). -/
def reachMeet (s : State) (t : Nat) (th : Thread) : State :=
  if orderWaits s th then holdAt s t else arriveLig s t th (fld th.meet.toNat 52 4) .meet

/-- A thread between clauses passes the next header, or is held there; a thread resumed in mid-clause fetches the rest
of its clause (R25, R29, R30, R85). -/
def passHeader (s : State) (t : Nat) : State :=
  match thread? s t with
  | none => s
  | some th =>
    if !th.runnable then s
    else match th.clause with
    | some c =>
      if th.word = 0 then startClause s t c
      else if c.lacks th.word then
        match fetchRun s t th (th.pc + 4 * th.word) (c.n + 1 - th.word) with
        | .error e => stopped s t e
        | .ok (ws, s) => modThread s t (fun th => { th with clause := some (c.refetched th.word ws), wait := .ready })
      else s
    | none =>
      if atMeet s th then reachMeet s t th
      else match fetchClause s t th with
      | .error e => stopped s t e
      | .ok (c, s) => startClause s t c


/-- CLAUSE_ISSUE (R25). -/
def execClauseIssue (t : Nat) (s : State) : Host.Outcome State Fault Refusal := .next (passHeader s t)

/-! ### Parks and results (R32) -/

/-- PARK_END (R32). -/
def execParkEnd (t : Nat) (s : State) : Host.Outcome State Fault Refusal :=
  .next (modThread s t (fun th => if th.wait == .park && th.pend.isEmpty then { th with wait := .ready } else th))

/-- An outstanding operation of a thread. -/
def flight? (s : State) (t seq : Nat) : Option (Thread × Flight) :=
  (thread? s t).bind (fun th => (th.flights.find? (fun f => f.seq == seq)).map (fun f => (th, f)))

/-- The run is part of what is left of `total` bytes, and not all of it. -/
def partOfRest (total : Nat) (parts : List (Nat × List Byte)) (off n : Nat) : Bool :=
  let rs := runsLeft total parts
  decide (0 < n) && rs != [(off, n)] && rs.any (fun r => decide (r.1 ≤ off) && decide (off + n ≤ r.1 + r.2))

/-- Those bytes of an outstanding operation may be performed apart from the rest (R201); those of a tile operation in pieces
of 128 bytes (R308). -/
def splittable (f : Flight) (off n : Nat) : Bool :=
  match f.op with
  | .load a _ => !a.strong && partOfRest a.len f.parts off n
  | .store a _ => !a.strong && partOfRest a.len f.parts off n
  | .mload as_ _ => f.op.here && off % 128 == 0 && n % 128 == 0 && partOfRest (totalLen as_) f.parts off n
  | _ => false

/-- Perform an operation where the order of R200 allows. -/
def performNow (s : State) (t seq : Nat) (peer : Option Nat) : State :=
  match flight? s t seq with
  | none => s
  | some (th, f) => if f.got.isSome || !mayPerform th f || inRefresh s f then s else performFlight s t f peer

/-- Weak accesses of one clause, all loads or all stores (R201, merge). -/
def mergeable (f g : Flight) : Bool :=
  f.clauseNo == g.clauseNo && f.got.isNone && g.got.isNone && (match f.op, g.op with
    | .load a _, .load b _ | .store a _, .store b _ => !a.strong && !b.strong
    | _, _ => false)

/-- Perform an operation in one of the ways R201 allows, where the order of R200 allows. -/
def tryPerform (s : State) (t seq : Nat) (way : Way) (peer : Option Nat) : State :=
  match way, flight? s t seq with
  | .again, _ => repeatAccess s t seq
  | _, none => s
  | .elide, some (th, f) => if f.got.isSome then s else elideFlight s t th f
  | .part off n, some (th, f) =>
    if splittable f off n && f.got.isNone && mayPerform th f && !inRefresh s f then splitFlight s t f off n peer else performNow s t seq peer
  | .merged seqs, some (_, f) =>
    seqs.foldl (fun s q => match flight? s t q with
      | some (_, g) => if mergeable f g then performNow s t q peer else s
      | none => s) (performNow s t seq peer)
  | .whole, some _ => performNow s t seq peer

/-- RESULT_WRITTEN (R32): the load is performed if it is not yet, and its registers are written. -/
def execResultWritten (t seq : Nat) (peer : Option Nat) (way : Way) (s : State) : Host.Outcome State Fault Refusal :=
  let s := tryPerform s t seq way peer
  .next (match flight? s t seq with
    | some (_, f) => (match f.got with
      | some vs => if f.dests.isEmpty then s else deliverFlight s t f vs
      | none => s)
    | none => s)

/-! ### Asynchronous traps (R406) -/

/-- An asynchronous trap may be delivered: one is held, no handler runs, and the thread stands at a boundary. -/
def asyncReady (th : Thread) : Bool :=
  !th.held.isEmpty && !th.trap.tactive && th.runnable && th.ext.ctl.isNone && th.ext.imm.isNone

/-- ASYNCHRONOUS_TRAP_DELIVERY (R406). -/
def execAsynchronousTrapDelivery (t : Nat) (s : State) : Host.Outcome State Fault Refusal :=
  .next (match thread? s t with
    | none => s
    | some th =>
      if !asyncReady th then s
      else match th.held with
      | [] => s
      | h :: hs =>
        let i (n : Nat) : Word := nthD h.infos n 0
        deliver (setThread s t { th with held := hs, wait := .ready }) t h.cause (i 0) (i 1) (i 2) (i 3) 0)

/-- The accesses a weak access made now must follow are performed; the thread is held while one of them is another unit's
(R200). -/
def Ctx.before (k : Ctx) (a : Access) : Except Stop State :=
  match performBefore k.s k.t [a] with
  | some s => .ok s
  | none => .error (.held (holdAt k.s k.t))

end Sys2Proof.Machine
end

