-- ==== Sys2Proof/Machine/Access.lean ====
section
/-!
DEFINITION. Load, store, cache, atomic, exact-cell and fence instructions and their events (R208 to R232).
-/
namespace Sys2Proof.Machine

/-! ### Requests to other packages (R199, R449, R451) -/

/-- Enter a request to another package; answers its number in the request table. -/
def openRemote (s : State) (who : Requester) (sealId dest off len pts : Nat) (data : List Byte) (atom : Option AtomOp)
    (numbered : Bool) : Nat × State :=
  let (i, s) := fresh s
  let sl := homeSlice off
  let key := 16 * dest + sl
  let n := kgetD s.domain.seqs key 0
  let r : RemoteReq :=
    { by_ := who, sealId := sealId, dest := dest, slice := sl, num := if numbered then some n else none, off := off
      len := len, pts := pts, store := data, atom := atom, sends := 1 }
  (i, { s with domain := { s.domain with
    reqs := kset s.domain.reqs i r
    seqs := if numbered then kset s.domain.seqs key ((n + 1) % 2 ^ 32) else s.domain.seqs } })

/-- A MEM word waits: for accesses before a FENCEW, or, at another package's memory, for requests it must not pass. -/
def memHeld (th : Thread) : Bool := th.flights.any (fun f => decide (f.seq < th.fencew) && f.open_)

/-- The number a line of another package's memory has among the private copies: the home package translates and permits it
for one seal (R180, R199). -/
def remoteLine (sealId pkg off : Nat) : Nat := 2 ^ 48 * (1 + pkg + 4096 * sealId) + off / 128

/-- The value a weak load at another package takes from a copy of a replicable page's line held here, with the logical time
it brings; a set of the station whose ways are all pinned is bypassed (R199, R216). -/
def heldCopy (s : State) (th : Thread) (pkg off n : Nat) : Option (List Byte × Nat) :=
  let c := coreOf s th
  let l := remoteLine th.sealId pkg off
  let at_ (place : Nat) := usableCopy s place l th.pts
  ((at_ c).or (if stationFull s (stationOf c) l then none else at_ (320 + stationOf c))).map (fun cp => (sliceOf cp off n, Nat.max th.pts cp.wts))

/-- A line of a replicable page arrives from its home package with its timestamps: copies are taken (R199). -/
def takeLine (s : State) (c level line wts rts : Nat) (bs : List Byte) : State :=
  let cp : Copy := { place := 320 + stationOf c, line := line, data := bs, wts := wts, rts := rts
                     expiry := s.aclk + 64 * (core s c).lease }
  let s := if stationFull s (stationOf c) line || decide (2 ≤ level) then s else putCopy s cp
  if level == 0 then putCopy s { cp with place := c } else s

/-- Mark the weight-store regions of an access as read by the thread's grid (R190). -/
def noteRegion (s : State) (th : Thread) (a : Access) : State :=
  match a.loc, team? s th.team with
  | .weight off, some tm => (regionsOf off a.len).foldl (fun s i =>
      let r := kgetD s.regions i {}
      { s with regions := kset s.regions i { r with grids := insertNew r.grids tm.grid } }) s
  | _, _ => s

/-- Issue one checked access of a thread: at once on its way here, or as a request to another package. -/
def sendAccess (k : Ctx) (a : Access) (ec : Nat) (dests : List Nat) (op : FlightOp) (signed : Bool) (data : List Byte)
    (atom : Option AtomOp) : Except Stop Eff :=
  if memHeld k.th then .error (.held (holdAt k.s k.t))
  else match a.loc with
  | .remote p off =>
    let weakLoad := data.isEmpty && atom.isNone && !a.strong
    match performBefore k.s k.t [a] with
    | none => .error (.held (holdAt k.s k.t))
    | some s =>
      let s := if a.strong then modThread s k.t Thread.orderingPoint else s
      let th := (thread? s k.t).getD k.th
      match (if weakLoad then heldCopy s th p off a.len else none) with
      | some (bs, pts) =>
        let ws := loadWords a.len signed bs
        .ok { st := modThread s k.t (fun th => th.takePts pts)
              launch := some { ec := ec, dests := dests, op := .result ws, got := some ws } }
      | none =>
        let (i, s) := openRemote s (.thread k.t th.gen th.seq) th.sealId p off a.len th.pts data atom (!weakLoad)
        .ok { st := s, launch := some { ec := ec, dests := dests, op := .remote i signed a k.iw } }
  | _ => .ok { st := noteRegion k.s k.th a, launch := some { ec := ec, dests := dests, op := op } }

/-! ### Loads and stores (R210, R211) -/

/-- Registers a size names (R34). -/
def sizeRegs (z : BitVec 3) : Nat := if z.toNat ≤ 2 then 1 else 2 ^ (z.toNat - 2)

/-- A load (R210). -/
def loadBody (wins : List Nat) (t a : BitVec 6) (z : BitVec 3) (strong sx : Bool) (k : Ctx) : Except Stop Eff :=
  let len := 2 ^ z.toNat
  match checkAccess k.s k.t k.th k.iw (k.addrM a) len len .load strong wins true with
  | .error e => .error e
  | .ok acc => sendAccess k acc 0 (range t.toNat (sizeRegs z)) (.load acc sx) sx [] none

/-- The bytes a store takes from its registers (R211). -/
def Thread.storeBytes (th : Thread) (t : BitVec 6) (z : BitVec 3) : List Byte :=
  leBytes (2 ^ z.toNat) ((List.range (sizeRegs z)).foldl (fun v i => v + (th.reg (t.toNat + i)).toNat * 2 ^ (32 * i)) 0)

/-- A store (R211). -/
def storeBody (wins : List Nat) (t a : BitVec 6) (z : BitVec 3) (strong : Bool) (k : Ctx) : Except Stop Eff :=
  let len := 2 ^ z.toNat
  match checkAccess k.s k.t k.th k.iw (k.addrM a) len len .store strong wins true with
  | .error e => .error e
  | .ok acc =>
    let bs := k.th.storeBytes t z
    sendAccess k acc 1 [] (.store acc bs) false bs none

/-- Sources of a store: the address pair and the data. -/
def storeSrcs (t a : BitVec 6) (z : BitVec 3) (x : Bool) : List Src := [srcPair a x, ⟨t.toNat, sizeRegs z, false⟩]

/-- LDG (R210). -/
def execLdg (sw : Bool) (t a : BitVec 6) (z : BitVec 3) (g e x : Bool) (s : State) : Host.Outcome State Fault Refusal :=
  issue (.ldg sw t a z g e x) [srcPair a x] (loadBody allWindows t a z g e) s

/-- STG (R211). -/
def execStg (sw : Bool) (t a : BitVec 6) (z : BitVec 3) (g x : Bool) (s : State) : Host.Outcome State Fault Refusal :=
  issue (.stg sw t a z g x) (storeSrcs t a z x) (storeBody allWindows t a z g) s

/-- LDS (R210). -/
def execLds (sw : Bool) (t a : BitVec 6) (z : BitVec 3) (g e x : Bool) (s : State) : Host.Outcome State Fault Refusal :=
  issue (.lds sw t a z g e x) [srcPair a x] (loadBody [0xF0] t a z g e) s

/-- STS (R211). -/
def execSts (sw : Bool) (t a : BitVec 6) (z : BitVec 3) (g x : Bool) (s : State) : Host.Outcome State Fault Refusal :=
  issue (.sts sw t a z g x) (storeSrcs t a z x) (storeBody [0xF0] t a z g) s

/-- LDP (R210). -/
def execLdp (sw : Bool) (t a : BitVec 6) (z : BitVec 3) (g e x : Bool) (s : State) : Host.Outcome State Fault Refusal :=
  issue (.ldp sw t a z g e x) [srcPair a x] (loadBody [0xF2] t a z g e) s

/-- STP (R211). -/
def execStp (sw : Bool) (t a : BitVec 6) (z : BitVec 3) (g x : Bool) (s : State) : Host.Outcome State Fault Refusal :=
  issue (.stp sw t a z g x) (storeSrcs t a z x) (storeBody [0xF2] t a z g) s

/-- LDC (R210). -/
def execLdc (sw : Bool) (t a : BitVec 6) (z : BitVec 3) (g e x : Bool) (s : State) : Host.Outcome State Fault Refusal :=
  issue (.ldc sw t a z g e x) [srcPair a x] (loadBody [0xF1] t a z g e) s

/-- STC (R211). -/
def execStc (sw : Bool) (t a : BitVec 6) (z : BitVec 3) (g x : Bool) (s : State) : Host.Outcome State Fault Refusal :=
  issue (.stc sw t a z g x) (storeSrcs t a z x) (storeBody [0xF1] t a z g) s

/-- LDW (R210). -/
def execLdw (sw : Bool) (t a : BitVec 6) (z : BitVec 3) (e x : Bool) (s : State) : Host.Outcome State Fault Refusal :=
  issue (.ldw sw t a z e x) [srcPair a x] (loadBody [0xF3] t a z false e) s

/-! ### PREF, PIN and UNPIN (R213 to R216) -/

/-- The page of an address at a station, with its leaf entry: none where it is not mapped, or may not be read. -/
def prefPage (s : State) (th : Thread) (va : Nat) : Option (Access × Nat × State) :=
  match unitWalk s (some (stationOf (coreOf s th))) th.sealId va with
  | (.leaf level e _, s) => if (leafDenies e th.sealId .load).isSome then none else some (leafAccess e level va 1 false, e, s)
  | _ => none

/-- What a prefetch fetches from this package, and the state after its translation: nothing where the address does not
translate, its page may not be read, or its lines may not be held at that level; in window 0xE0 lines of replicable pages
only (R193, R213). -/
def prefAccess (s : State) (th : Thread) (addr level : Nat) : Option (Access × State) :=
  let dom := selector addr != 0
  (prefPage s th (if dom then domOff addr else addr)).bind (fun r =>
    if r.1.cattr == 1 || (r.1.cattr == 2 && level < 2) || (dom && !pteRepl r.2.1) then none else some (r.1, r.2.2))

/-- A line of this package arrives at a level: a private copy is taken, and the thread's pts does not move (R213). DESIGN CHOICE
(log 185): a fully pinned set of the slice counts its bypass, one of the station does not. -/
def takePrefetch (s : State) (t : Nat) (a : Access) (level : Nat) : State :=
  match thread? s t, a.loc with
  | some th, .glob pa =>
    let l := lineOf pa; let c := coreOf s th
    let s := homeLoad (sliceVisit (met s (.glob (128 * l)) 128) l) l th.pts (core s c).lease
    takeLine s c level l (wtsOf s l) (rtsOf s l) (Memory.readBytes s.mem (128 * l) 128)
  | _, _ => s

/-- The operation a PREF issues: a line of this package, a request to another, or one that is dropped (R213). -/
def prefOp (k : Ctx) (addr level : Nat) : FlightOp × State :=
  let dropped : Access := { loc := .remote 0 0, len := 1, strong := false, cattr := 1, pageW := false, pageSeal := 0 }
  if selector addr != 0 && domPkg addr != k.s.domain.pkg then
    if memberPackage k.s (domPkg addr) then
      let off := domOff addr / 128 * 128
      let (_, s) := openRemote k.s (.prefetch k.t k.th.gen k.th.seq level) k.th.sealId (domPkg addr) off 128 k.th.pts [] none false
      (.prefetch { dropped with loc := .remote (domPkg addr) off, len := 128 } level, s)
    else (.prefetch dropped level, k.s)
  else match prefAccess k.s k.th addr level with
  | some (a, s) => (.prefetch a level, s)
  | none => (.prefetch dropped level, k.s)

/-- PREF (R213). -/
def execPref (sw : Bool) (a : BitVec 6) (z : BitVec 3) (x : Bool) (s : State) : Host.Outcome State Fault Refusal :=
  issue (.pref sw a z x) [srcPair a x]
    (fun k =>
      let addr := k.addrM a
      match windowFault addr with
      | some r => .error (accessViolation r addr k.iw)
      | none =>
        if !(selector addr == 0x00 || selector addr == 0xE0) then .error (accessViolation 3 addr k.iw)
        else
          let r := prefOp k addr z.toNat
          .ok { st := r.2, launch := some { ec := 1, dests := [], op := r.1 } }) s

/-- The pin of a line at a level, for a station's cache or a slice. -/
def pinOf (s : State) (level st l : Nat) : Option Pin :=
  s.lines.pins.find? (fun p => p.level == level && p.line == l && (level == 1 || p.station == st))

/-- Ways pinned in the line's set are all 16 (R214). -/
def setFull (s : State) (level st l : Nat) : Bool := if level == 0 then stationFull s st l else sliceFull s l

/-- Steps 1 to 3 of R209 for PIN and UNPIN, and the TLB entry that translates the address (R214, R215). -/
def pinEntry (k : Ctx) (addr : Nat) : Except Stop TlbEntry :=
  match windowFault addr with
  | some r => .error (accessViolation r addr k.iw)
  | none =>
    if selector addr != 0x00 then .error (accessViolation 3 addr k.iw)
    else if addr % 128 != 0 then .error (misaligned addr 128 k.iw)
    else entryFor k.s k.t k.th addr addr .load

/-- The line a TLB entry maps an address to. -/
def TlbEntry.line (e : TlbEntry) (addr : Nat) : Nat := lineOf (leafPa e.entry e.level addr)

/-- PIN's fetch of its line into the station's cache or the home slice: a copy under its lease, and no move of the thread's
logical time (R214). DESIGN CHOICE (log 184): of a page whose lines that cache may not hold nothing is fetched, and the line is
pinned all the same. -/
def pinLine (s : State) (k : Ctx) (level l cattr : Nat) : State :=
  let c := coreOf s k.th
  if cattr == 1 then s
  else
    let s := sliceVisit (met s (.glob (128 * l)) 128) l
    if level == 0 && cattr == 0 then
      let s := homeLoad s l k.th.pts (core s c).lease
      putCopy s { place := 320 + stationOf c, line := l, data := Memory.readBytes s.mem (128 * l) 128, wts := wtsOf s l
                  rts := rtsOf s l, expiry := s.aclk + 64 * (core s c).lease }
    else s

/-- PIN (R214). -/
def execPin (sw : Bool) (t a : BitVec 6) (z : BitVec 3) (x : Bool) (s : State) : Host.Outcome State Fault Refusal :=
  issue (.pin sw t a z x) [srcPair a x]
    (fun k =>
      let addr := k.addrM a
      match pinEntry k addr with
      | .error e => .error e
      | .ok e =>
        let st := stationOf (coreOf k.s k.th)
        let l := e.line addr
        match leafDenies e.entry k.th.sealId .load with
        | some r => .error (accessViolation r addr k.iw)
        | none =>
          if !ptePinOk e.entry then .error (accessViolation 4 addr k.iw)
          else match pinOf k.s z.toNat st l with
          | some p => retLater k 0 t [if p.sealId == k.th.sealId then 1 else 2]
          | none =>
            if setFull k.s z.toNat st l then retLater k 0 t [3]
            else
              let s := modLines k.s (fun x =>
                { x with pins := x.pins ++ [{ level := z.toNat, station := st, line := l, sealId := k.th.sealId }] })
              inState (pinLine s k z.toNat l (pteCattr e.entry)) (retLater k 0 t [0])) s

/-- UNPIN (R215). -/
def execUnpin (sw : Bool) (t a : BitVec 6) (z : BitVec 3) (x : Bool) (s : State) : Host.Outcome State Fault Refusal :=
  issue (.unpin sw t a z x) [srcPair a x]
    (fun k =>
      match pinEntry k (k.addrM a) with
      | .error e => .error e
      | .ok e =>
        match pinOf k.s z.toNat (stationOf (coreOf k.s k.th)) (e.line (k.addrM a)) with
        | none => retLater k 0 t [1]
        | some p =>
          if p.sealId != k.th.sealId then retLater k 0 t [2]
          else inState (modLines k.s (fun x => { x with pins := x.pins.filter (· != p) })) (retLater k 0 t [0])) s

/-! ### Atomics and exact cells (R217 to R230) -/

/-- Windows atomics accept. -/
def atomWindows : List Nat := [0x00, 0xE0, 0xF0, 0xF1, 0xF2]
/-- Windows exact cells accept (R217). -/
def cellWindows : List Nat := [0x00, 0xE0, 0xF0]

/-- Issue an atomic or exact-cell access. -/
def atomBody (wins : List Nat) (a : BitVec 6) (len : Nat) (kind : AccKind) (ec : Nat) (dests : List Nat) (op : AtomOp)
    (k : Ctx) : Except Stop Eff :=
  match checkAccess k.s k.t k.th k.iw (k.g64 a) len len kind true wins true with
  | .error e => .error e
  | .ok acc => sendAccess k acc ec dests (.atom acc op) false [] (some op)

/-- A 32- or 64-bit operand. -/
def Ctx.operand (k : Ctx) (m : Bool) (r : Nat) : Nat := if m then k.th.reg64 r else (k.th.reg r).toNat

/-- ATOM (R222). -/
def execAtom (sw : Bool) (d a b : BitVec 6) (x y m : Bool) (s : State) : Host.Outcome State Fault Refusal :=
  issue (.atom sw d a b x y m) [srcPair a x, ⟨b.toNat, 1 + b2n m, y⟩, src d false]
    (fun k =>
      let c := (k.g d).toNat
      if 10 < c then .error (k.illegal 3)
      else atomBody atomWindows a (4 + 4 * b2n m) .atomic 0 (range d.toNat (1 + b2n m))
        (.int c (32 + 32 * b2n m) (k.operand m b.toNat)) k) s

/-- ATOMC (R223): the new value is a pair when m = 1. -/
def atomcBody (d a b : BitVec 6) (m : Bool) (k : Ctx) : Except Stop Eff :=
  atomBody atomWindows a (4 + 4 * b2n m) .atomic 0 (range d.toNat (1 + b2n m))
    (.cas (32 + 32 * b2n m) (k.operand m b.toNat) (k.operand m k.cReg)) k

/-- ATOMC (R223). -/
def execAtomc (sw : Bool) (d a b : BitVec 6) (x y m : Bool) (s : State) : Host.Outcome State Fault Refusal :=
  issue (.atomc sw d a b x y m) [srcPair a x, ⟨b.toNat, 1 + b2n m, y⟩] (atomcBody d a b m) s

/-- ATOMF (R224). -/
def execAtomf (sw : Bool) (d a b : BitVec 6) (x y m : Bool) (s : State) : Host.Outcome State Fault Refusal :=
  issue (.atomf sw d a b x y m) [srcPair a x, src b y]
    (fun k => atomBody atomWindows a 4 .atomic 0 [d.toNat] (.fadd m (k.g b).toNat) k) s

/-- XACC (R227). -/
def execXacc (sw : Bool) (a b : BitVec 6) (x y : Bool) (s : State) : Host.Outcome State Fault Refusal :=
  issue (.xacc sw a b x y) [srcPair a x, src b y]
    (fun k => atomBody cellWindows a 64 .update 1 [] (.xacc [(k.g b).toNat]) k) s

/-- XACCP (R228). -/
def execXaccp (sw : Bool) (a b : BitVec 6) (x y : Bool) (s : State) : Host.Outcome State Fault Refusal :=
  issue (.xaccp sw a b x y) [srcPair a x, srcPair b y]
    (fun k => atomBody cellWindows a 64 .update 1 [] (.xacc [(k.g b).toNat, (k.th.reg (b.toNat + 1)).toNat]) k) s

/-- XRD (R229). -/
def execXrd (sw : Bool) (d a : BitVec 6) (x m : Bool) (s : State) : Host.Outcome State Fault Refusal :=
  issue (.xrd sw d a x m) [srcPair a x]
    (fun k => atomBody cellWindows a 64 .load 0 (range d.toNat (1 + b2n m)) (.xrd k.fmode m) k) s

/-- XCLR (R230). -/
def execXclr (sw : Bool) (a : BitVec 6) (x : Bool) (s : State) : Host.Outcome State Fault Refusal :=
  issue (.xclr sw a x) [srcPair a x] (atomBody cellWindows a 64 .put 1 [] .xclr) s

/-! ### Fences (R231, R232) -/

/-- FENCEW (R231): later MEM words wait for every earlier access. -/
def execFencew (sw : Bool) (s : State) : Host.Outcome State Fault Refusal :=
  issue (.fencew sw) [] (fun k => .ok { st := setThread k.s k.t { k.th with fencew := k.th.seq } }) s

/-- FENCE (R232): besides, the thread waits until its commands are registered. -/
def execFence (sw : Bool) (s : State) : Host.Outcome State Fault Refusal :=
  issue (.fence sw) []
    (fun k => .ok { st := setThread k.s k.t { k.th with fencew := k.th.seq }
                    flow := if k.th.unreg.isEmpty then .next else .wait (.fence k.th.unreg) }) s

/-- A command or feed start of a thread is registered: a FENCE that waits for it last goes on (R232). -/
def registered (s : State) (t cmd : Nat) : State :=
  modThread s t (fun th =>
    let th := { th with unreg := th.unreg.filter (· != cmd) }
    match th.wait with
    | .fence cs =>
      let cs := cs.filter (· != cmd)
      if cs.isEmpty then th.wake else { th with wait := .fence cs }
    | _ => th)

/-! ### Events (R181, R182, R194, R195, R211, R213, R217) -/

/-- A request of another package's memory stands for this operation of a thread. -/
def awaitsPrefetch (s : State) (t seq : Nat) : Bool :=
  s.domain.reqs.any (fun p => match p.2.by_ with
    | .prefetch u _ q _ => u == t && q == seq
    | _ => false)

/-- Some bytes of a tile store whose turn has come, apart from the rest (R296, R308). -/
def splitTile (s : State) (t : Nat) (th : Thread) (f : Flight) (id off n : Nat) : State :=
  match kget? s.mtx id with
  | none => s
  | some o => match team? s o.team, o.kind with
    | some tm, .store bmp gid r => go s o (tm.regBytes bmp gid r)
    | some tm, .spill l => go s o (Memory.readBytes (tm.bank o.quad l).img 0 32768)
    | _, _ => s
where
  go (s : State) (o : MtxOp) (all : List Byte) : State :=
    if off % 128 != 0 || n % 128 != 0 || !partOfRest (totalLen o.accs) f.parts off n || rangeRemote o.accs || !mtxReady s id o
        || !mayPerform th f then s
    else
      let bs := (all.drop off).take n
      let (p, s) := storeRange s th.pts th.sealId (pieceOf o.accs off n) bs
      modThread s t (fun th => (th.takePts p).modFlight f.seq (fun f => { f with parts := f.parts ++ [(off, bs)] }))

/-- STORE_PERFORMED (R211), or the end of a prefetch of a line of this package (R213); a store that is performed may be
performed again (R201). -/
def execStorePerformed (t seq : Nat) (way : Way) (s : State) : Host.Outcome State Fault Refusal :=
  .next (match flight? s t seq with
    | some (th, f) =>
      match f.op with
      | .store .. => tryPerform s t seq way none
      | .mstore _ id => (match way with
        | .part off n => splitTile s t th f id off n
        | _ => s)
      | .prefetch a l => if awaitsPrefetch s t seq then s else modThread (takePrefetch s t a l) t (fun th => th.retire f)
      | _ => s
    | none => if way == .again then repeatAccess s t seq else s)

/-- ATOMIC_PERFORMED (R217). -/
def execAtomicPerformed (t seq : Nat) (s : State) : Host.Outcome State Fault Refusal :=
  .next (match flight? s t seq with
    | some (_, f) => (match f.op with
      | .atom .. => performNow s t seq none
      | _ => s)
    | none => s)

/-- PTS_SELF_ADVANCE (R195): a resident thread's logical time, once every 64 ACLK cycles. -/
def execPtsSelfAdvance (t : Nat) (s : State) : Host.Outcome State Fault Refusal :=
  .next (match thread? s t with
    | none => s
    | some th => if th.evicted || decide (s.aclk < th.selfAt + 64) then s
      else setThread s t { th with pts := th.pts + 1, selfAt := th.selfAt + 64 })

/-- LEASE_EXPIRY (R194): a private copy is dropped; one that a core's L0 drops early leaves its tag (R82), and one of a
pinned line is not dropped early (R214). -/
def execLeaseExpiry (place line : Nat) (s : State) : Host.Outcome State Fault Refusal :=
  .next (match s.lines.copies.find? (fun c => c.place == place && c.line == line) with
    | none => s
    | some cp =>
      if pinnedAt s place line && decide (s.aclk < cp.expiry) then s
      else
        let s := modLines s (fun x => { x with copies := x.copies.filter (fun c => !(c.place == place && c.line == line)) })
        if decide (s.aclk < cp.expiry) then tagVictims s place [line] else s)

/-- Kind of an attached access, for the permission rules. -/
def kindOfCode (c : Nat) : AccKind := if c == 1 then .store else if c == 2 then .fetch else .load

/-- End a walk for its threads: each goes on and judges the entry when its word issues again; with an absent entry of
HF = 0 each traps (R182). -/
def wakeWalk (s : State) (ths : List (Nat × Nat × Nat)) (level : Option Nat) (reason : Option Nat) : State :=
  ths.foldl (fun s p =>
    match thread? s p.1 with
    | none => s
    | some th =>
      let iw : Word := if p.2.2 == 2 then 0 else th.rawWord
      match level, reason with
      | some l, _ => raiseDue s p.1 causePageFault [loW p.2.1, hiW p.2.1, wordN (p.2.2 + 4 * l), iw]
      | _, some r => raiseDue s p.1 causeAccess
          [wordN (r * 256 + p.2.1 / 2 ^ 56 % 256), loW p.2.1, hiW p.2.1, iw]
      | none, none => modThread s p.1 (fun th => { th with wait := .ready })) s

/-- The entry of a station's fault table that stands for a seal's page. -/
def pageFault? (s : State) (st sealId va : Nat) : Option FaultEntry :=
  (station s st).faults.find? (fun f => f.sealId == sealId && f.va / 2 ^ 16 == va / 2 ^ 16)

/-- A page fault at a station: the page is entered in the fault table and reported once, and a thread that meets it
again joins the entry; the threads stand at the blocking point (R182, R467). -/
def enterFault (s : State) (st sealId va kind : Nat) (ths : List (Nat × Nat × Nat)) : State :=
  let s := match pageFault? s st sealId va with
    | some e => modStation s st (fun x => { x with faults := x.faults.map (fun f =>
        if f.idx == e.idx then { f with threads := f.threads ++ ths } else f) })
    | none =>
      let fs := (station s st).faults
      let idx := ((List.range 64).find? (fun i => !fs.any (fun f => f.idx == i))).getD 0
      let (ring, s) := logFault s va sealId st idx kind
      modStation s st (fun x => { x with faults := x.faults ++
        [{ idx := idx, sealId := sealId, va := va, kind := kind, ringIdx := ring, threads := ths }] })
  ths.foldl (fun s p => modThread s p.1 (fun th => { th with wait := .fault p.2.1 })) s

/-- PAGE_WALK_COMPLETE (R181, R182): the walk's outcome reaches every attached access. -/
def walkComplete (s : State) (st : Nat) (w : Walk) : State :=
  let drop (s : State) : State := modStation s st (fun x => { x with walks := x.walks.filter (fun v => v.id != w.id) })
  let r := walkTables s w.sealId w.va
  let s := noteWalk s w.sealId w.va
  match r with
  | .busy => s
  | .leaf level e pa =>
    let s := setAccessed (drop s) e pa
    let e' : TlbEntry := { sealId := w.sealId, level := level, page := w.va / 2 ^ levelLo level, entry := e }
    wakeWalk (if w.stale then s else tlbInsert s st e') w.threads none none
  | .malformed => wakeWalk (drop s) w.threads none (some 8)
  | .wrongSeal => wakeWalk (drop s) w.threads none (some 5)
  | .absent level false => wakeWalk (drop s) w.threads (some level) none
  | .absent _ true =>
    if decide (64 ≤ (station s st).faults.length) && (pageFault? s st w.sealId w.va).isNone then s
    else enterFault (drop s) st w.sealId w.va w.kind w.threads

/-- PAGE_WALK_COMPLETE (R181). -/
def execPageWalkComplete (st walk : Nat) (s : State) : Host.Outcome State Fault Refusal :=
  .next (match (station s st).walks.find? (fun w => w.id == walk) with
    | none => s
    | some w => walkComplete s st w)

end Sys2Proof.Machine
end

