-- ==== Sys2Proof/Machine/Control.lean ====
section
/-!
DEFINITION. The control-flow, ligature, kern, yield, launch and rendezvous instructions (R90 to R108).
-/
namespace Sys2Proof.Machine

/-! ### Branch, call and return (R91 to R96) -/

/-- A branch taken. -/
def takeBranch (s : State) (target : Nat) : Except Stop Eff := .ok { st := s, flow := .branch target }

/-- BRA (R91). -/
def execBra (sw : Bool) (o : BitVec 21) (s : State) : Host.Outcome State Fault Refusal :=
  issue (.bra sw o) [] (fun k => takeBranch k.s (k.target o.toNat 21)) s

/-- BRP (R92). -/
def execBrp (sw : Bool) (p : BitVec 3) (n : Bool) (o : BitVec 17) (s : State) : Host.Outcome State Fault Refusal :=
  issue (.brp sw p n o) []
    (fun k => takeBranch k.s (if k.th.pred p.toNat != n then k.target o.toNat 17 else nextHeader k.th)) s

/-- BRX (R93). -/
def execBrx (sw : Bool) (a : BitVec 6) (x : Bool) (s : State) : Host.Outcome State Fault Refusal :=
  issue (.brx sw a x) [srcPair a x] (fun k => takeBranch k.s (k.g64 a)) s

/-- The hardware return stack's depth (R95). -/
def stackDepth : Nat := 16

/-- Bytes of the thread's window 0xF2. -/
def Ctx.window (k : Ctx) : Nat := 1024 * (((team? k.s k.th.team).map (·.privKb)).getD 0)

/-- Spill slot `j` as an access of the thread: weak, of 8 bytes (R95). -/
def Ctx.spillSlot (k : Ctx) (j : Nat) : Access :=
  { loc := .own k.t (k.window - 8 * (j + 1)), len := 8, strong := false, cattr := 0, pageW := true, pageSeal := k.th.sealId }

/-- Push a return address, spilling the oldest entry of a full stack (R95). -/
def pushReturn (k : Ctx) (v : Nat) : Except Stop State :=
  let w := k.window
  if k.th.stack.length < stackDepth then
    .ok (setThread k.s k.t { k.th with stack := v :: k.th.stack })
  else if w < 8 * (k.th.spilled + 1) then .error (.trap causeAccess 0xF2 (wordN w) 0 k.iw)
  else
    let a := k.spillSlot k.th.spilled
    (k.before a).map (fun s =>
      let s := (storeAt s a (leBytes 8 (k.th.stack.getLast?.getD 0)) (ptsOf s k.t) k.th.sealId).2
      modThread s k.t (fun th => { th with stack := v :: th.stack.dropLast, spilled := th.spilled + 1 }))

/-- Push and branch (R94). -/
def callTo (k : Ctx) (target : Nat) : Except Stop Eff :=
  match pushReturn k (nextHeader k.th % 2 ^ 64) with
  | .error e => .error e
  | .ok s => takeBranch s target

/-- CALL (R94). -/
def execCall (sw : Bool) (o : BitVec 21) (s : State) : Host.Outcome State Fault Refusal :=
  issue (.call sw o) [] (fun k => callTo k (k.target o.toNat 21)) s

/-- CALLX (R94). -/
def execCallx (sw : Bool) (a : BitVec 6) (x : Bool) (s : State) : Host.Outcome State Fault Refusal :=
  issue (.callx sw a x) [srcPair a x] (fun k => callTo k (k.g64 a)) s

/-- Pop a return address: from the hardware stack, else from the newest spill slot (R95, R96). -/
def popReturn (k : Ctx) : Except Stop Eff :=
  match k.th.stack with
  | v :: vs => takeBranch (setThread k.s k.t { k.th with stack := vs }) v
  | [] =>
    if k.th.spilled == 0 then .error (.trap causeRetEmpty 0 0 0 0)
    else
      let a := k.spillSlot (k.th.spilled - 1)
      (k.before a).bind (fun s =>
        let r := loadAt s (coreOf s k.th) a (ptsOf s k.t) k.th.sealId none
        takeBranch (modThread r.2.2 k.t (fun th => { th with spilled := th.spilled - 1 })) (leNat r.1))

/-- RET (R96). -/
def execRet (sw : Bool) (s : State) : Host.Outcome State Fault Refusal := issue (.ret sw) [] popReturn s

/-! ### Ligatures (R97 to R101) -/

/-- The thread's group's ligature. -/
def Ctx.lig (k : Ctx) (l : Nat) : Ligature := ((team? k.s k.th.team).map (fun tm => tm.lig k.th.gid l)).getD {}

/-- The thread is a member. -/
def Ctx.member (k : Ctx) (l : Nat) : Bool := (k.lig l).members.getLsbD k.th.mid

/-- The bits of MEET (R84). -/
def meetWord (valid : Bool) (l addr : Nat) : DWord := BitVec.ofNat 64 (b2n valid * 2 ^ 63 + l * 2 ^ 52 + addr % 2 ^ 52)

/-- LGJOIN (R97). -/
def execLgjoin (sw : Bool) (a : BitVec 6) (i : BitVec 7) (x : Bool) (s : State) : Host.Outcome State Fault Refusal :=
  issue (.lgjoin sw a i x) []
    (fun k =>
      let s := setThread k.s k.t { k.th with meet := meetWord true a.toNat (k.target i.toNat 7) }
      .ok { st := modLig s k.th.team k.th.gid a.toNat (fun g => { g with members := setBit g.members k.th.mid }) }) s

/-- LGWAIT (R98): a non-member goes on at once. -/
def execLgwait (sw : Bool) (a : BitVec 6) (x : Bool) (s : State) : Host.Outcome State Fault Refusal :=
  issue (.lgwait sw a x) []
    (fun k =>
      if !k.member a.toNat then .ok { st := k.s }
      else if orderWaits k.s k.th then .error (.held (holdAt k.s k.t))
      else .ok { st := k.s, flow := .done, after := fun s => arriveLig s k.t k.th a.toNat (.ligature a.toNat) }) s

/-- LGDROP (R99). -/
def execLgdrop (sw : Bool) (a : BitVec 6) (x : Bool) (s : State) : Host.Outcome State Fault Refusal :=
  issue (.lgdrop sw a x) []
    (fun k =>
      if !k.member a.toNat then .ok { st := k.s }
      else
        let th := if fld k.th.meet.toNat 52 4 == a.toNat then { k.th with meet := clearBit k.th.meet 63 } else k.th
        .ok { st := setThread k.s k.t th, after := fun s => leaveLig s k.th a.toNat }) s

/-- LGREAD (R100). -/
def execLgread (sw : Bool) (d a : BitVec 6) (i : BitVec 7) (x : Bool) (s : State) : Host.Outcome State Fault Refusal :=
  issue (.lgread sw d a i x) []
    (fun k => match k.immBu i with
      | 0 => ret64 k d (k.lig a.toNat).members.toNat
      | 1 => ret64 k d (k.lig a.toNat).arrived.toNat
      | _ => .error (k.illegal 3)) s

/-- LIGATURE, reason 1 (R88). -/
def notMember (l : Nat) : Stop := .trap causeLigature 1 (wordN l) 0 0

/-- MEETSET (R101). -/
def execMeetset (sw : Bool) (o : BitVec 21) (s : State) : Host.Outcome State Fault Refusal :=
  issue (.meetset sw o) []
    (fun k =>
      let l := fld k.th.meet.toNat 52 4
      if !k.member l then .error (notMember l)
      else .ok { st := setThread k.s k.t { k.th with meet := meetWord true l (k.target o.toNat 21) } }) s

/-! ### The kern unit (R102) -/

/-- REGROUP (R102): the thread first parks until none of its registers is pending. -/
def execRegroup (sw : Bool) (a b : BitVec 6) (x y : Bool) (s : State) : Host.Outcome State Fault Refusal :=
  issue (.regroup sw a b x y) [src a x, srcPair b y]
    (fun k =>
      if !k.th.pend.isEmpty then .error (.held (modThread k.s k.t (fun th => { th with wait := .park })))
      else if orderWaits k.s k.th then .error (.held (holdAt k.s k.t))
      else
        let w : Wait := .regroup ((k.g a).toNat % 2 ^ 16) (k.g64 b) (freesOf [src a x, srcPair b y])
        .ok { st := modThread (flush k.s k.t) k.t (fun th => { th with wait := w }), flow := .done }) s

/-- A thread at the kern unit: number, thread, key, live mask, frees. -/
structure Kern where
  t : Nat
  th : Thread
  key : Nat
  live : Nat
  frees : List Nat

/-- The thread's arrival, where it stands at REGROUP. -/
def kernOf (p : Nat × Thread) : Option Kern :=
  match p.2.wait with
  | .regroup k l f => some ⟨p.1, p.2, k, l, f⟩
  | _ => none

/-- Insert by key, then %tid. -/
def insertKern (p : Kern) : List Kern → List Kern
  | [] => [p]
  | q :: qs => if p.key < q.key || (p.key == q.key && decide (p.th.tid ≤ q.th.tid)) then p :: q :: qs else q :: insertKern p qs

/-- The non-empty ligature of the lowest %gid, and within it the lowest index (R88). -/
def firstLigature (tm : Team) : Option (Nat × Ligature) := tm.ligatures.find? (fun p => p.2.members != 0)

/-- A thread's registers after REGROUP: those outside the live mask become unmapped (R102). -/
def Thread.keepLive (th : Thread) (live : Nat) (frees : List Nat) : Thread :=
  { th with regs := th.regs.filter (fun p => live.testBit p.1 && !frees.contains p.1) }

/-- Move one thread of a completed REGROUP to place `i`: its window's lines leave the old home lane (R189), an evicted
one's registers are changed in its record, and it enters the new quadrant's active set where there is room. -/
def regroupThread (sz pts : Nat) (s : State) (p : Kern × Nat) : State :=
  let s := modThread (leaveLane s p.1.t) p.1.t (fun th =>
    ({ (th.keepLive p.1.live p.1.frees).takePts pts with gid := p.2 / sz, mid := p.2 % sz }).completeHeld)
  if p.1.th.evicted then replyToRecord s p.1.t (List.range 64) else placeActive s p.1.t

/-- The kern unit acts once every live thread of a team has arrived (R102). -/
def regroupTeam (s : State) (tmid : Nat) : State :=
  match team? s tmid with
  | none => s
  | some tm =>
    let ths := teamThreads s tmid
    let ks := ths.filterMap kernOf
    if ths.isEmpty || ks.length != ths.length then s
    else match firstLigature tm with
    | some (key, g) =>
      ks.foldl (fun s k => raiseDue s k.t causeLigature
        [2, wordN (key % 16 + key / 16 * 256), wordN (g.members.toNat % 2 ^ 32), wordN (g.members.toNat / 2 ^ 32)]) s
    | none =>
      let order := ks.foldr insertKern []
      let s := ks.foldl (fun s k => modThread s k.t (fun th => th.setActive false s.aclk)) s
      reclaim ((order.zipIdx).foldl (regroupThread (ceilDiv order.length tm.groups) (maxPts ths)) s) tm.core

/-- REGROUP_COMPLETION (R102). -/
def execRegroupCompletion (team : Nat) (s : State) : Host.Outcome State Fault Refusal := .next (regroupTeam s team)

/-! ### Yield, pause, exit (R103 to R105) -/

/-- Threads of a quadrant of a core. -/
def quadThreads (s : State) (c q : Nat) : List (Nat × Thread) :=
  s.threads.filter (fun p => coreOf s p.2 == c && p.2.quadrant == q)

/-- The ready thread of a quadrant's slow file that has waited longest, the lowest number first among equals. -/
def longestWaiting (s : State) (c q : Nat) : Option (Nat × Thread) :=
  ((quadThreads s c q).filter (fun p => !p.2.active && p.2.ready)).foldl
    (fun (b : Option (Nat × Thread)) p => match b with
      | some o => if p.2.slowSince < o.2.slowSince then some p else b
      | none => some p) none

/-- The longest-waiting ready thread of the slow file enters the active set in the place of a thread (R103); where its
budget needs more room, further threads leave (R71). -/
def rotateActive (s : State) (t : Nat) (th : Thread) : State :=
  match longestWaiting s (coreOf s th) th.quadrant with
  | none => s
  | some p =>
    let s := modThread s t (fun th => th.setActive false s.aclk)
    modThread (makeRoom (coreOf s th) th.quadrant p.2.budget 2048 s) p.1 (fun th => th.setActive true s.aclk)

/-- YIELD (R103). -/
def execYield (sw : Bool) (s : State) : Host.Outcome State Fault Refusal :=
  issue (.yield sw) []
    (fun k =>
      let others := ((quadThreads k.s (coreOf k.s k.th) k.th.quadrant).filter (fun p => p.1 != k.t && p.2.active && p.2.ready)).map (·.1)
      .ok { st := setThread k.s k.t { k.th with yields := others }
            after := fun s => rotateActive s k.t k.th }) s

/-- PAUSE (R104). -/
def execPause (sw : Bool) (i : BitVec 7) (s : State) : Host.Outcome State Fault Refusal :=
  issue (.pause sw i) []
    (fun k => .ok { st := k.s, flow := .wait (.pause (k.s.aclk + 32 * Nat.max 1 (k.immBu i))) }) s

/-- PAUSE_EXPIRY (R104). -/
def execPauseExpiry (t : Nat) (s : State) : Host.Outcome State Fault Refusal :=
  .next (modThread s t (fun th => match th.wait with
    | .pause u => if u ≤ s.aclk then th.wake else th
    | _ => th))

/-- Stores or atomics of the thread at other packages are not performed yet. -/
def remoteWrites (s : State) (th : Thread) : Bool :=
  th.flights.any (fun f => match f.op, f.got with
    | .remote r _ _ _, none => ((kget? s.domain.reqs r).map (fun q => !q.store.isEmpty || q.atom.isSome)).getD false
    | _, _ => false)

/-- EXIT (R105): its stores and atomics at other packages are performed first; the others are as it ends, or once the tile
operations ahead of them are complete; results in flight are dropped, and units go on. -/
def execExit (sw : Bool) (s : State) : Host.Outcome State Fault Refusal :=
  issue (.exit sw) []
    (fun k =>
      if remoteWrites k.s k.th then .error (.held (holdAt k.s k.t))
      else .ok { st := k.s, flow := .done, after := fun s => endThread s k.t }) s

/-! ### LAUNCH (R106) -/

/-- LAUNCH's status word. -/
def launchWord (status off : Nat) : Word := wordN (status + off % 2 ^ 16 * 2 ^ 8)

/-- Read a range at issue after its checks. -/
def Ctx.readBlock (k : Ctx) (s : State) (addr len align : Nat) (wins : List Nat) (locks : Bool) :
    Except Stop (List Byte × State) :=
  match checkRange s k.t k.th k.iw addr len align .load false wins locks with
  | .error e => .error e
  | .ok as_ => .ok (readNow s k.t as_)

/-- Check the declarations, the seal and the image of a record, in the order of R64, and enter the grid. -/
def launchChecked (k : Ctx) (d : BitVec 6) (r : LaunchRecord) (s : State) : Except Stop Eff :=
  let done (s : State) (st off : Nat) : Except Stop Eff := .ok { st := s, writes := [(d.toNat, launchWord st off)] }
  let n := 8 * (r.nbuf + r.narr)
  match (if n == 0 then .ok ([], s) else k.readBlock s r.decl n 8 [0x00] false) with
  | .error e => .error e
  | .ok (ds, s) =>
    match parseDecls r ds with
    | .error off => done s 1 off
    | .ok (bufs, arrs) =>
      if !sealLive s r.sealId then done s 5 84
      else match (if r.map == 0xFF then k.readBlock s r.mapimg 2048 64 [0x00] false else .ok ([], s)) with
      | .error e => .error e
      | .ok (im, s) =>
        let es := imageEntries im
        if r.map == 0xFF && (tableCheckFrom 0 es).isSome then done s 2 0
        else
          let (st, s) := enqueueGrid s r bufs arrs (if r.map == 0xFF then some es else none) (ptsOf s k.t) none
          done s st 0

/-- LAUNCH (R106). -/
def launchBody (d a : BitVec 6) (k : Ctx) : Except Stop Eff :=
  if orderWaits k.s k.th || k.s.dev.power.stby then .error (.held (holdAt k.s k.t))
  else match k.readBlock k.s (k.g64 a) 128 64 [0x00, 0xF0] true with
  | .error e => .error e
  | .ok (bs, s) =>
    let r := parseRecord bs
    if !k.th.system && r.sealId % 1024 != k.th.sealId then .error (.trap causePriv 0 0 0 0)
    else match badField (recordChecks r bs) with
    | some off => .ok { st := s, writes := [(d.toNat, launchWord 1 off)] }
    | none => launchChecked k d r s

/-- LAUNCH (R106). -/
def execLaunch (sw : Bool) (d a : BitVec 6) (x : Bool) (s : State) : Host.Outcome State Fault Refusal :=
  issue (.launch sw d a x) [srcPair a x] (launchBody d a) s

/-! ### Rendezvous words (R87, R107, R108) -/

/-- Arrive at a rendezvous word of a ligature: its registers are written at completion. -/
def rendezvousBody (opc : Nat) (d a l : BitVec 6) (m : Bool) (dests : List Nat) (frees : List Nat) (k : Ctx) :
    Except Stop Eff :=
  if !k.member l.toNat then .error (notMember l.toNat)
  else if orderWaits k.s k.th then .error (.held (holdAt k.s k.t))
  else
    let w : Wait := .rendezvous l.toNat opc d.toNat (k.g d) (k.g a) m [] frees
    .ok { st := k.s, later := dests, flow := .done, after := fun s => arriveLig s k.t k.th l.toNat w }

/-- RXCH (R107). -/
def execRxch (sw : Bool) (d a b : BitVec 6) (x y m : Bool) (s : State) : Host.Outcome State Fault Refusal :=
  issue (.rxch sw d a b x y m) [src a x, src d false] (rendezvousBody 0x110 d a b m [d.toNat] (freesOf [src a x])) s

/-- RBCAST (R107). -/
def execRbcast (sw : Bool) (d a b : BitVec 6) (x y m : Bool) (s : State) : Host.Outcome State Fault Refusal :=
  issue (.rbcast sw d a b x y m) [src a x] (rendezvousBody 0x111 d a b m [d.toNat] (freesOf [src a x])) s

/-- RRED (R107, R108). DESIGN CHOICE (log 161): a non-member that supplies a code above 10 traps ILLEGAL_OP; the spec does not
rank the two traps. -/
def execRred (sw : Bool) (d a b : BitVec 6) (x y m : Bool) (s : State) : Host.Outcome State Fault Refusal :=
  issue (.rred sw d a b x y m) [src a x, src d false]
    (fun k => if 10 < (k.g d).toNat then .error (k.illegal 3)
      else rendezvousBody 0x112 d a b m [d.toNat] (freesOf [src a x]) k) s

/-- RVOTE (R107). -/
def execRvote (sw : Bool) (d a b : BitVec 6) (x y m : Bool) (s : State) : Host.Outcome State Fault Refusal :=
  issue (.rvote sw d a b x y m) [src a x]
    (rendezvousBody 0x113 d a b m (if m then [d.toNat] else [d.toNat, d.toNat + 1]) (freesOf [src a x])) s

end Sys2Proof.Machine
end

