-- ==== Sys2Proof/Machine/Convert.lean ====
section
/-!
DEFINITION. The conversion instructions (R146 to R154).
-/
namespace Sys2Proof.Machine

/-- The seed of SRH: g[c] whenever an EXT control word precedes, else 0 (R146). -/
def Ctx.seed (k : Ctx) : Word := if k.ctl.isSome then k.c else 0

/-- CVTFI's integer and conditions (R148). -/
def cvtFloatInt (mode : Nat) (sat m : Bool) (x : FVal) (e : Int) (d : Draw) : Int × Cond :=
  let lo : Int := if m then 0 else -2 ^ 31
  let hi : Int := if m then 2 ^ 32 - 1 else 2 ^ 31 - 1
  match x with
  | .nan _ => (0, { nv := true })
  | .inf n => (if sat then (if n then lo else hi) else 0, { nv := true })
  | v =>
    let (i, exact) := roundInt mode (dyScale v.dy (clampExp e)) d
    if i < lo || hi < i then (if sat then clamp i lo hi else i, { nv := true })
    else (i, { nx := !exact })

/-- CVTFI (R148). -/
def execCvtfi (sw : Bool) (d a b : BitVec 6) (x y m : Bool) (s : State) : Host.Outcome State Fault Refusal :=
  issue (.cvtfi sw d a b x y m) [src a x, src b y]
    (fun k =>
      let r := cvtFloatInt k.fmode k.sat m (rd32 (k.g a).toNat) (s32 (k.g b)) ⟨k.seed, 0⟩
      floatWrites k [(d.toNat, word r.1)] none r.2) s

/-- CVTIF (R149). -/
def execCvtif (sw : Bool) (d a b : BitVec 6) (x y m : Bool) (s : State) : Host.Outcome State Fault Refusal :=
  issue (.cvtif sw d a b x y m) [src a x, src b y]
    (fun k =>
      let v := dyScale (dyInt (typed m (k.g a))) (clampExp (s32 (k.g b)))
      floatRet k d (fp32.round k.fmode k.sat false v ⟨k.seed, 0⟩) (k.g a) 0) s

/-! ### CVTFF (R150, R151) -/

/-- Scalar codes CVTFF converts between. -/
def cvtCode (c : Nat) : Bool := [0x0, 0x1, 0x2, 0x3, 0x8, 0x9].contains c

/-- CVTFF's format-word check. -/
def cvtWordOk (w : Nat) : Bool :=
  cvtCode (fwA w) && cvtCode (fwR w) && fwB w == 0 && fld w 16 8 == 0 && decide (fwMode w ≤ 5)

/-- Registers of a group of that many bits. -/
def groupRegs (bits : Nat) : Nat := bits / 32

/-- A register number fits its group's alignment. -/
def groupAligned (r bits : Nat) : Bool := r % groupRegs bits == 0

/-- Bits of a register group, from its low register (R3). -/
def Thread.groupBits (th : Thread) (r n : Nat) : Nat :=
  (List.range n).foldl (fun v i => v + (th.reg (r + i)).toNat * 2 ^ (32 * i)) 0

/-- A pattern of a scalar code is a NaN. -/
def codeNan (code bits : Nat) : Bool :=
  match fmtOfCode code with
  | some f => (f.read bits).isNan
  | none => false

/-- CVTFF (R150, R151). -/
def cvtffBody (d a b : BitVec 6) (x : Bool) (k : Ctx) : Except Stop Eff :=
  let w := (k.g b).toNat
  if !cvtWordOk w then .error (k.illegal 3)
  else
    let ws := widthOfCode (fwA w); let wd := widthOfCode (fwR w)
    let n := 32 / Nat.min ws wd
    if !(groupAligned a.toNat (n * ws) && groupAligned d.toNat (n * wd)) then .error (k.illegal 3)
    else
      let sregs := groupRegs (n * ws)
      match k.pendingSrc [⟨a.toNat, sregs, x⟩] with
      | some r => .error (k.pendingTrap r)
      | none =>
        let bits := k.th.groupBits a.toNat sregs
        let els := (List.range n).map (fun i =>
          let e := fld bits (ws * i) ws
          (e, roundCode (fwR w) (k.mode (fwMode w)) k.sat (fwBias w) (readCode (fwA w) e) ⟨k.seed, i⟩))
        let out := (els.zipIdx).foldl (fun v p => v + p.1.2.1 * 2 ^ (wd * p.2)) 0
        let nan := (els.zipIdx).find? (fun p => codeNan (fwR w) p.1.2.1)
        let cond := els.foldl (fun c p => c.or p.2.2) {}
        (floatWrites k ((range d.toNat (groupRegs (n * wd))).zip (natWords (groupRegs (n * wd)) out))
          (nan.map (fun p => (p.2, wordN p.1.1, 0))) cond).map (fun e =>
            { e with moreFrees := if x then range a.toNat sregs else [] })

/-- CVTFF (R151). -/
def execCvtff (sw : Bool) (d a b : BitVec 6) (x y : Bool) (s : State) : Host.Outcome State Fault Refusal :=
  issue (.cvtff sw d a b x y) [src a x, src b y] (cvtffBody d a b x) s

/-! ### Block elements and format words (R152 to R154) -/

/-- NXEL (R152). -/
def execNxel (sw : Bool) (d a b : BitVec 6) (x y : Bool) (s : State) : Host.Outcome State Fault Refusal :=
  issue (.nxel sw d a b x y) [src a x, src b y]
    (fun k =>
      let h := (k.g a).toNat
      let code := fld h 20 4
      if !(code == 4 || code == 5 || code == 6) then .error (k.illegal 3)
      else
        let mw := nxM code
        let v := nxElement mw (fld h 0 8) (fld h 8 8) (fld h 16 4) (flag (k.g b).toNat mw) (fld (k.g b).toNat 0 mw)
        floatRet k d (fp32.roundVal modeRNE false 0 v {}) (k.g b) 0) s

/-- MXEL (R153). -/
def execMxel (sw : Bool) (d a b : BitVec 6) (x y : Bool) (s : State) : Host.Outcome State Fault Refusal :=
  issue (.mxel sw d a b x y) [src a x, src b y]
    (fun k =>
      let h := (k.g a).toNat
      floatRet k d (fp32.roundVal modeRNE false 0 (mxElement (fld h 0 8) (fld (k.g b).toNat (4 * fld h 8 3) 4)) {})
        (k.g b) 0) s

/-- FMTCHK's result (R154). -/
def fmtChkWord (w : Nat) : Word :=
  let c := fmtCheck w
  wordN (c + (if c == 0 then kOf (fwA w) * 2 ^ 16 else 0))

/-- FMTCHK (R154). -/
def execFmtchk (sw : Bool) (d a : BitVec 6) (x : Bool) (s : State) : Host.Outcome State Fault Refusal :=
  issue (.fmtchk sw d a x) [src a x] (fun k => ret k d (fmtChkWord (k.g a).toNat)) s

end Sys2Proof.Machine
end

