-- ==== Sys2Proof/Machine/SyncInsn.lean ====
section
/-!
DEFINITION. Barrier, arrival-word, queue, distributor and buffer-state instructions (R233 to R255).
-/
namespace Sys2Proof.Machine

/-- An ordering point of the thread: its earlier accesses are performed; it is held while one of them is at another
package (R200). -/
def Ctx.publish (k : Ctx) : Except Stop State :=
  if orderWaits k.s k.th then .error (.held (holdAt k.s k.t)) else .ok (flush k.s k.t)

/-- A thread's team; a thread always has one. -/
def Ctx.team (k : Ctx) : Option Team := team? k.s k.th.team

/-! ### Team barriers (R235 to R238) -/

/-- Publish and arrive, unless R236 refuses: what follows gets the generation arrived in. -/
def arriveThen (k : Ctx) (id roles : Nat) (f : State → Nat → Except Stop Eff) : Except Stop Eff :=
  match k.team with
  | none => .error (.held k.s)
  | some tm =>
    if barrierRefuses tm k.th k.t id roles then .error (k.illegal 3)
    else k.publish.bind (fun s => f s (tm.barrier id).gen)

/-- The arrival itself, at the thread's logical time. -/
def arriveNow (k : Ctx) (id roles : Nat) (s : State) : State :=
  barrierArrive s k.t { k.th with pts := ptsOf s k.t } id roles

/-- BAR (R237). -/
def execBar (sw : Bool) (i : BitVec 4) (r : BitVec 3) (s : State) : Host.Outcome State Fault Refusal :=
  issue (.bar sw i r) []
    (fun k => arriveThen k i.toNat r.toNat (fun s g =>
      .ok { st := s, flow := .wait (.barrier i.toNat g), after := arriveNow k i.toNat r.toNat })) s

/-- BARA (R237). -/
def execBara (sw : Bool) (d : BitVec 6) (i : BitVec 4) (r : BitVec 3) (s : State) : Host.Outcome State Fault Refusal :=
  issue (.bara sw d i r) []
    (fun k => arriveThen k i.toNat r.toNat (fun s g =>
      .ok { st := s, writes := [(d.toNat, wordN g)], after := arriveNow k i.toNat r.toNat })) s

/-- BARW (R237, R238): a generation that completed earlier is acquired with every later one. -/
def execBarw (sw : Bool) (a : BitVec 6) (i : BitVec 4) (x : Bool) (s : State) : Host.Outcome State Fault Refusal :=
  issue (.barw sw a i x) [src a x]
    (fun k => match k.team with
      | none => .error (.held k.s)
      | some tm =>
        let b := tm.barrier i.toNat
        let g := (k.g a).toNat
        if b.gen == g then k.publish.bind (fun s => .ok { st := s, flow := .wait (.barrier i.toNat g) })
        else if genPassed b.gen g then k.publish.bind (fun s => .ok { st := modThread s k.t (fun th => th.takePts b.donePts) })
        else .ok { st := k.s }) s

/-! ### Arrival words (R239 to R246) -/

/-- The declared arrival word an address names, with its team (R242). -/
def arrivalOf (k : Ctx) (addr : Nat) : Except Stop (Nat × Team × Arrival) :=
  match windowFault addr with
  | some r => .error (accessViolation r addr k.iw)
  | none =>
    if !(selector addr == 0xF0 || selector addr == 0xF1) then .error (accessViolation 3 addr k.iw)
    else if addr % 16 != 0 then .error (misaligned addr 16 k.iw)
    else
      let off := fld addr 0 18
      match (if selector addr == 0xF0 then k.team.map (fun tm => (k.th.team, tm))
             else k.team.bind (fun tm => teamOfHandle k.s tm (fld addr 18 14))) with
      | none => .error (accessViolation 7 addr k.iw)
      | some (id, tm) =>
        if tm.spadSize < off + 16 then .error (spadExtent tm off 16 k.iw)
        else if tm.evicted && id != k.th.team then
          .error (.held (modThread k.s k.t (fun th => { th with wait := .away id })))
        else match tm.arrivals.find? (fun a => a.off == off) with
          | none => .error (spadState (off, 6, ((tm.bufferAt off).map (·.idx)).getD (31 + 256)) k.iw)
          | some a => .ok (id, tm, a)

/-- ARM's update of a word: status and the word it leaves (R243). -/
def armStep (w : ArrWord) (off : Bool) (target tid : Nat) : Nat × ArrWord :=
  if off then (0, { w with flags := w.flags &&& 0xFFFFFFFE })
  else if w.count != 0 then (1, w)
  else (0, { w with target := target, flags := (w.flags &&& 0xFC00FFFC) + 1 + tid * 2 ^ 16 })

/-- ARM's update in a published state: one strong access, which takes the time of the strong stores whose value it reads and
leaves its thread's own (R202, R242). -/
def armWord (s : State) (t tmid off : Nat) (w : ArrWord) : State :=
  let s := met s (.spad tmid off) 16
  let s := modThread s t (fun th => th.takePts (syncTime s (arrAccess tmid off)))
  noteSync (modTeam s tmid (fun tm => arrWrite tm off w)) (arrAccess tmid off) (ptsOf s t)

/-- ARM (R243). -/
def execArm (sw : Bool) (d a b : BitVec 6) (x y m : Bool) (s : State) : Host.Outcome State Fault Refusal :=
  issue (.arm sw d a b x y m) (srcPair a x :: (if m then [] else [src b y]))
    (fun k =>
      if !m && k.g b == 0 then .error (k.illegal 3)
      else match arrivalOf k (k.g64 a) with
      | .error e => .error e
      | .ok (id, tm, w) => k.publish.bind (fun s =>
          let r := armStep (arrRead tm w.off) m (k.g b).toNat k.th.tid
          inState (armWord s k.t id w.off r.2) (retLater k 5 d [wordN r.1]))) s

/-- ARRV's update: ArrivalAdd, as one strong store of the thread (R202, R244). -/
def arrvWord (s : State) (t tmid off n : Nat) : State :=
  noteSync (arrivalAdd s tmid off n (ptsOf s t)) (arrAccess tmid off) (ptsOf s t)

/-- ARRV (R244). -/
def execArrv (sw : Bool) (a b : BitVec 6) (x y : Bool) (s : State) : Host.Outcome State Fault Refusal :=
  issue (.arrv sw a b x y) [srcPair a x, src b y]
    (fun k => match arrivalOf k (k.g64 a) with
      | .error e => .error e
      | .ok (id, _, w) => k.publish.bind (fun s =>
          if k.g b == 0 then .ok { st := s }
          else .ok { st := s, after := fun s => arrvWord s k.t id w.off (k.g b).toNat })) s

/-- Logical time an ARWAIT or ARREAD takes from a word's completions (R245, R246). -/
def arrTime (tm : Team) (off : Nat) : Nat := kgetD tm.arrPts off 0

/-- ARWAIT (R245). -/
def execArwait (sw : Bool) (d a b : BitVec 6) (x y : Bool) (s : State) : Host.Outcome State Fault Refusal :=
  issue (.arwait sw d a b x y) [srcPair a x, src b y]
    (fun k => match arrivalOf k (k.g64 a) with
      | .error e => .error e
      | .ok (id, tm, w) =>
        let gen := (arrRead tm w.off).gen
        let g := (k.g b).toNat
        if gen == g then
          k.publish.bind (fun s =>
            .ok { st := met s (.spad id w.off) 16, later := [d.toNat], flow := .wait (.arrival id w.off g d.toNat (k.g64 a)) })
        else if genPassed gen g then
          k.publish.bind (fun s =>
            .ok { st := modThread (met s (.spad id w.off) 16) k.t (fun th => th.takePts (arrTime tm w.off)), writes := [(d.toNat, wordN gen)] })
        else .ok { st := met k.s (.spad id w.off) 16, writes := [(d.toNat, wordN gen)] }) s

/-- ARREAD (R246): it acquires the completions it finds, and the strong stores whose value it reads (R202). -/
def execArread (sw : Bool) (d a : BitVec 6) (x : Bool) (s : State) : Host.Outcome State Fault Refusal :=
  issue (.arread sw d a x) [srcPair a x]
    (fun k => match arrivalOf k (k.g64 a) with
      | .error e => .error e
      | .ok (id, tm, w) => k.publish.bind (fun s =>
          let r := arrRead tm w.off
          inState (modThread (met s (.spad id w.off) 16) k.t
              (fun th => th.takePts (Nat.max (arrTime tm w.off) (syncTime s (arrAccess id w.off)))))
            (retLater k 5 d [wordN r.target, wordN r.count, wordN r.gen, wordN r.flags]))) s

/-! ### Cluster queues (R247 to R250) -/

/-- The queue a handle names, for this thread (R248). -/
def queueFor (k : Ctx) (h : Word) : Except Stop Queue :=
  if fld h.toNat 9 23 != 0 then .error (k.illegal 3)
  else
    let q := queueOf k.s h.toNat
    if !q.en || q.sealId != k.th.sealId then .error (.trap causeAccess 0x500 h 0 k.iw)
    else .ok q

/-- QPUSH (R250). -/
def execQpush (sw : Bool) (d a b : BitVec 6) (x y : Bool) (s : State) : Host.Outcome State Fault Refusal :=
  issue (.qpush sw d a b x y) [src a x, srcPair b y]
    (fun k => match queueFor k (k.g a) with
      | .error e => .error e
      | .ok q =>
        if 64 ≤ q.entries.length then retLater k 5 d [1]
        else k.publish.bind (fun s =>
          (inState s (retLater k 5 d [0])).map (fun e =>
            { e with after := fun s => queuePush s (k.g a).toNat (BitVec.ofNat 64 (k.g64 b)) (ptsOf s k.t) }))) s

/-- Take the first entry of a queue: the entry with its logical time, and the queue left. -/
def Queue.pop (q : Queue) : Option (DWord × Nat × Queue) :=
  match q.entries with
  | [] => none
  | e :: es => some (e, q.pts.head?.getD 0, { q with entries := es, pts := q.pts.drop 1 })

/-- The two words of an entry. -/
def entryWords (e : DWord) : List Word := [loW e.toNat, hiW e.toNat]

/-- QPOP (R250). -/
def execQpop (sw : Bool) (d a : BitVec 6) (x : Bool) (s : State) : Host.Outcome State Fault Refusal :=
  issue (.qpop sw d a x) [src a x]
    (fun k => match queueFor k (k.g a) with
      | .error e => .error e
      | .ok q =>
        let h := (k.g a).toNat
        k.publish.bind (fun s => match (if q.waiters.isEmpty then q.pop else none) with
          | some (e, p, q) =>
            .ok { st := modThread (setQueue s h q) k.t (fun th => th.takePts p)
                  writes := (range d.toNat 2).zip (entryWords e) }
          | none =>
            .ok { st := setQueue s h { q with waiters := q.waiters ++ [k.t] }, later := range d.toNat 2
                  flow := .wait (.queue h d.toNat) })) s

/-- QTRY (R250): an entry is taken only where no thread waits. -/
def execQtry (sw : Bool) (d a : BitVec 6) (x : Bool) (s : State) : Host.Outcome State Fault Refusal :=
  issue (.qtry sw d a x) [src a x]
    (fun k => match queueFor k (k.g a) with
      | .error e => .error e
      | .ok q =>
        match (if q.waiters.isEmpty then q.pop else none) with
        | some (e, p, q) => k.publish.bind (fun s =>
          inState (modThread (setQueue s (k.g a).toNat q) k.t (fun th => th.takePts p)) (retLater k 5 d (entryWords e ++ [0, 0])))
        | none => retLater k 5 d [0, 0, 1, 0]) s

/-- QLEN (R250). -/
def execQlen (sw : Bool) (d a : BitVec 6) (x : Bool) (s : State) : Host.Outcome State Fault Refusal :=
  issue (.qlen sw d a x) [src a x]
    (fun k => match queueFor k (k.g a) with
      | .error e => .error e
      | .ok q => retLater k 5 d [wordN (q.entries.length + sat q.waiters.length 255 * 2 ^ 16)]) s

/-! ### The work distributor (R251 to R253) -/

/-- Number of chunks. -/
def LaunchRecord.chunks (r : LaunchRecord) : Nat :=
  if r.dend ≤ r.dbegin || r.dchunk == 0 then 0 else ceilDiv (r.dend - r.dbegin) r.dchunk

/-- The answer word for a chunk (R251, R252). -/
def chunkAnswer (r : LaunchRecord) (c : Nat) : Nat :=
  if r.chunks ≤ c then 2 ^ 63 + r.dend
  else if r.dorder == 1 then
    let first := r.dend - 1 - c * r.dchunk
    Nat.min r.dchunk (first - r.dbegin + 1) * 2 ^ 32 + first
  else
    let first := r.dbegin + c * r.dchunk
    Nat.min r.dchunk (r.dend - first) * 2 ^ 32 + first

/-- NextAnswer (R252): the answer and the state after the request. -/
def nextAnswer (s : State) (tmid : Nat) : Nat × State :=
  match team? s tmid with
  | none => (2 ^ 63, s)
  | some tm =>
    match grid? s tm.grid with
    | none => (2 ^ 63, s)
    | some g =>
      if g.lr.dorder == 2 then
        (chunkAnswer g.lr (tm.index + tm.distCount * g.lr.teams),
          modTeam s tmid (fun tm => { tm with distCount := tm.distCount + 1 }))
      else
        (chunkAnswer g.lr g.chunk,
          modGrid s tm.grid (fun g => { g with chunk := Nat.min (g.chunk + 1) g.lr.chunks }))

/-- DIST (R253). -/
def execDist (sw : Bool) (d a : BitVec 6) (x m : Bool) (s : State) : Host.Outcome State Fault Refusal :=
  issue (.dist sw d a x m) (if m then [srcPair a x] else [])
    (fun k =>
      if m then
        match checkAccess k.s k.t k.th k.iw (k.g64 a) 8 8 .store true [0xF0] false with
        | .error e => .error e
        | .ok acc =>
          let r := nextAnswer k.s k.th.team
          match acc.loc with
          | .spad tm off =>
            .ok { st := r.2, launch := some { ec := 5, dests := [], op := .answer tm off (leBytes 8 r.1) } }
          | _ => .error (.held k.s)
      else
        let r := nextAnswer k.s k.th.team
        inState r.2 (retLater k 5 d [loW r.1, hiW r.1])) s

/-- DISTRIBUTOR_ANSWER_STORE (R253): the answer is stored and ec5 falls. -/
def execDistributorAnswerStore (t seq : Nat) (s : State) : Host.Outcome State Fault Refusal :=
  .next (match flight? s t seq with
    | some (_, f) => (match f.op with
      | .answer tm off bs => replyToRecord (modThread (poke s (.spad tm off) bs) t (fun th => th.retire f)) t []
      | _ => s)
    | none => s)

/-! ### Buffer states set by threads (R254, R255) -/

/-- SPAD_EXTENT for a base-and-extent record: beyond the allocation, or matching no declared buffer (R187). -/
def badBuffer (tm : Team) (r : Buffer) (iw : Word) : Stop :=
  if tm.spadSize < r.base + r.extent then spadExtent tm r.base r.extent iw
  else .trap causeSpadExtent (wordN r.base) (wordN tm.spadSize) (wordN r.extent) iw

/-- The declared buffer a base-and-extent record names, else SPAD_EXTENT (R184). -/
def matchBuffer (tm : Team) (v : Nat) (iw : Word) : Except Stop Buffer :=
  let r := bufferOf v
  match tm.buffer? r.idx with
  | some b =>
    if fld v 43 21 == 0 && b.base == r.base && b.extent == r.extent then .ok b else .error (badBuffer tm r iw)
  | none => .error (badBuffer tm r iw)

/-- The buffer SBSET and SBQRY name. -/
def bufferFor (k : Ctx) (v : Nat) : Except Stop Buffer :=
  match k.team with
  | none => .error (.held k.s)
  | some tm => matchBuffer tm v k.iw

/-- Result and new state of a transition (R254). -/
def sbStep (state target : Nat) : Nat × Nat :=
  match state, target with
  | 0, 0 => (1, 0)
  | 0, _ => (0, 2)
  | 2, 0 => (0, 0)
  | 2, _ => (1, 2)
  | st, _ => (2, st)

/-- The buffer becomes FULL: every linked arrival word completes its generation (R254). -/
def fillBuffer (s : State) (tmid idx pts : Nat) : State :=
  match team? s tmid with
  | none => s
  | some tm => (tm.arrivals.filter (fun a => a.buf == idx)).foldl (fun s a =>
      match team? s tmid with
      | none => s
      | some tm => arrComplete s tmid tm a (arrRead tm a.off) pts) s

/-- SBSET (R254): a move to EMPTY leaves the thread's logical time for the engine writes that follow. -/
def execSbset (sw : Bool) (d a : BitVec 6) (i : BitVec 7) (x : Bool) (s : State) : Host.Outcome State Fault Refusal :=
  issue (.sbset sw d a i x) [srcPair a x]
    (fun k => match bufferFor k (k.g64 a) with
      | .error e => .error e
      | .ok b => k.publish.bind (fun s =>
          let r := sbStep b.state i.toNat
          let p := if r.1 == 0 && r.2 == 0 then ptsOf s k.t else 0
          let s := modTeam s k.th.team (fun tm => tm.modBuffer b.idx (fun b => { b with state := r.2, pts := Nat.max b.pts p }))
          (inState s (retLater k 5 d [wordN (r.1 + b.state * 16)])).map (fun e =>
            { e with after := fun s =>
                if r.1 == 0 && r.2 == 2 then fillBuffer s k.th.team b.idx (ptsOf s k.t) else s }))) s

/-- A registered command with the buffer as source or destination (R255). -/
def CopyCmd.usesBuffer (c : CopyCmd) (t idx : Nat) : Bool :=
  c.registered && (c.srcBuf == some (t, idx) || c.dstBufs.contains (t, idx))

/-- SBQRY (R255). -/
def execSbqry (sw : Bool) (d a : BitVec 6) (x : Bool) (s : State) : Host.Outcome State Fault Refusal :=
  issue (.sbqry sw d a x) [srcPair a x]
    (fun k => match bufferFor k (k.g64 a) with
      | .error e => .error e
      | .ok b =>
        let n := (k.s.copies.filter (fun p => p.2.usesBuffer k.th.team b.idx)).length
        retLater k 5 d [wordN (b.state + b.idx * 2 ^ 8 + sat n 255 * 2 ^ 16)]) s

end Sys2Proof.Machine
end

