-- ==== Sys2Proof/Machine/Engine.lean ====
section
/-!
DEFINITION. What the copy and feed engines share: checks of one engine access, buffer permits, and range locks
(R185 to R190, R267, R271, R275, R287).
-/
namespace Sys2Proof.Machine

/-! ### One engine access -/

/-- What an engine access meets: it may go on, it waits, it fails with a STATUS of R262, or its team has ended. -/
inductive EngRes where
  | ok (as_ : List Access) (s : State)
  | wait (s : State)
  | fail (status : Nat)
  | drop

/-- Report a page an engine waits for, once (R182, R467). -/
def engineFault (s : State) (st sealId va : Nat) : State :=
  let fs := (station s st).faults
  if fs.any (fun f => f.sealId == sealId && f.va / 2 ^ 16 == va / 2 ^ 16) || decide (64 ≤ fs.length) then s
  else enterFault s st sealId va 3 []

/-- An engine access in window 0x00, cut at pages. -/
def engineGlob (s : State) (st sealId va n : Nat) (k : AccKind) : EngRes :=
  (piecesOf (2 ^ 16) (n / 2 ^ 16 + 2) va n).foldl (fun r p =>
    match r with
    | .ok as_ s =>
      match translateNow s (some st) sealId p.1 p.2 k with
      | .ok (a, s) => .ok (as_ ++ [a]) s
      | .error (some .busy, _) => .wait s
      | .error (some (.absent _ true), _) => .wait (engineFault s st sealId p.1)
      | .error (some (.absent _ false), _) => .fail 4
      | .error _ => .fail 5
    | r => r) (.ok [] s)

/-- A read of the weight store by an engine: a region being written is judged after its write has ended (R190, R191,
R271). -/
def engineWeight (s : State) (sealId off n : Nat) : EngRes :=
  if regionLost s off n then .fail 5
  else if regionMarked s off n || refreshing s off n then .wait s
  else if regionSealed s sealId off n then .fail 5
  else .ok [{ loc := .weight off, len := n, strong := false, cattr := 0, pageW := false, pageSeal := 0 }] s

/-- The state of the buffer a scratchpad access falls into lets an engine go on (R185, R267). -/
def permitted (tm : Team) (off : Nat) (k : AccKind) : Bool :=
  match tm.bufferAt off with
  | none => true
  | some b => if k.writes then decide (b.state ≤ 1) else decide (2 ≤ b.state)

/-- One engine access at an endpoint. -/
def engineAccess (s : State) (st sealId : Nat) (e : End) (n : Nat) (k : AccKind) : EngRes :=
  match e with
  | .glob a =>
    if selector a == 0x00 then engineGlob s st sealId a n k
    else if domPkg a == s.domain.pkg then engineGlob s st sealId (domOff a) n k
    else if !memberPackage s (domPkg a) then .fail 5
    else .ok [{ loc := .remote (domPkg a) (domOff a), len := n, strong := false, cattr := 1, pageW := true, pageSeal := sealId }] s
  | .spad t off =>
    match team? s t with
    | none => .drop
    | some tm =>
      if tm.evicted || !permitted tm off k then .wait s
      else .ok [{ loc := .spad t off, len := n, strong := false, cattr := 0, pageW := true, pageSeal := tm.sealId }] s
  | .weight off => if k.writes then .ok [{ loc := .weight off, len := n, strong := false, cattr := 0, pageW := true, pageSeal := sealId }] s
    else engineWeight s sealId off n

/-- The read of a buffer begins: FULL becomes DRAINING, and the reader counts (R186, R267). -/
def beginRead (s : State) (e : End) (id : Nat) : State :=
  match e with
  | .spad t off => modTeam s t (fun tm => match tm.bufferAt off with
      | some b => tm.modBuffer b.idx (fun b => { b with state := if b.state == 2 then 3 else b.state, readers := insertNew b.readers id })
      | none => tm)
  | _ => s

/-- The write of a buffer begins: EMPTY becomes FILLING (R186, R267). -/
def beginWrite (s : State) (e : End) : State :=
  match e with
  | .spad t off => modTeam s t (fun tm => match tm.bufferAt off with
      | some b => tm.modBuffer b.idx (fun b => { b with state := if b.state == 0 then 1 else b.state })
      | none => tm)
  | _ => s

/-- Logical time an engine write takes from the buffer it goes into (R254). -/
def bufferTime (s : State) (e : End) : Nat :=
  match e with
  | .spad t off => (((team? s t).bind (fun tm => tm.bufferAt off)).map (·.pts)).getD 0
  | _ => 0

/-- A reader of a buffer is done: without readers a DRAINING buffer is EMPTY (R186). -/
def endRead (s : State) (t idx id : Nat) : State :=
  modTeam s t (fun tm => tm.modBuffer idx (fun b =>
    let rs := b.readers.filter (· != id)
    { b with readers := rs, state := if b.state == 3 && rs.isEmpty then 0 else b.state }))

/-- A read of the weight store counts for the reader's grid (R190). -/
def noteGridRegion (s : State) (t : Nat) (as_ : List Access) : State :=
  as_.foldl (fun s a => match a.loc, team? s t with
    | .weight off, some tm => (regionsOf off a.len).foldl (fun s r =>
        let g := kgetD s.regions r {}
        { s with regions := kset s.regions r { g with grids := insertNew g.grids tm.grid } }) s
    | _, _ => s) s

/-- The endpoint `k` bytes further. -/
def End.shift : End → Nat → End
  | .glob a, k => .glob ((a + k) % 2 ^ 64)
  | .spad t o, k => .spad t (o + k)
  | .weight o, k => .weight (o + k)

/-- The low bits of the endpoint's address. -/
def End.low : End → Nat
  | .glob a => a
  | .spad _ o => o
  | .weight o => o

/-! ### Range locks (R275) -/

/-- The core whose table holds an entry of a command; none while that core's team is evicted whole (R277). -/
def entryCore (s : State) (c : CopyCmd) (e : RangeLock) : Option Nat :=
  match team? s (e.team.getD c.team) with
  | some tm => if tm.evicted then none else some tm.core
  | none => some c.core

/-- The entry stands in some core's table. -/
def entryStands (s : State) (e : RangeLock) : Bool := s.cores.any (fun p => p.2.locks.any (fun l => l.2 == e))

/-- Entries of a command that do not stand yet; those of teams that have ended are not wanted. -/
def missingEntries (s : State) (c : CopyCmd) : List RangeLock :=
  c.entries.filter (fun e => (e.team.isNone || (team? s (e.team.getD 0)).isSome) && !entryStands s e)

/-- The lowest free entry number of a table of 32. -/
def freeEntry (k : Core) : Option Nat := (List.range 32).find? (fun i => (kget? k.locks i).isNone)

/-- Take an entry in a core's table where there is room. -/
def takeEntry (s : State) (c : Nat) (e : RangeLock) : State :=
  match freeEntry (core s c) with
  | none => s
  | some i => modCore s c (fun k => { k with locks := kset k.locks i e })

/-- Take every missing entry of a command that belongs to a core. -/
def takeEntries (s : State) (c : CopyCmd) (k : Nat) : State :=
  ((missingEntries s c).filter (fun e => entryCore s c e == some k)).foldl (fun s e => takeEntry s k e) s

/-- Remove a command's entries everywhere (R272). -/
def dropEntries (s : State) (cmd : Nat) : State :=
  { s with cores := s.cores.map (fun p => (p.1, { p.2 with locks := p.2.locks.filter (fun l => l.2.cmd != cmd) })) }

end Sys2Proof.Machine
end

