-- ==== Sys2Proof/Machine/Copy.lean ====
section
/-!
DEFINITION. The copy instructions and the steps of the tile-walk engines (R260 to R281).
-/
namespace Sys2Proof.Machine

/-! ### The record (R261 to R265) -/

/-- Change a live command. -/
def modCopy (s : State) (id : Nat) (f : CopyCmd → CopyCmd) : State := { s with copies := kmod s.copies id f }

/-- The live command whose record stands at an offset of a team. -/
def copyAt (s : State) (t off : Nat) : Option (Nat × CopyCmd) := s.copies.find? (fun p => p.2.team == t && p.2.rec_ == off)

/-- Step 1 of R265: the record's offset and its team. -/
def recordOf (k : Ctx) (addr : Nat) : Except Stop (Nat × Team) :=
  match windowFault addr with
  | some r => .error (accessViolation r addr k.iw)
  | none =>
    if selector addr != 0xF0 then .error (accessViolation 3 addr k.iw)
    else if addr % 32 != 0 then .error (misaligned addr 32 k.iw)
    else match k.team with
    | none => .error (.held k.s)
    | some tm =>
      let off := fld addr 0 18
      if tm.spadSize < off + 32 then .error (spadExtent tm off 32 k.iw) else .ok (off, tm)

/-- The record touches a declared buffer or arrival word. -/
def touchesDeclared (tm : Team) (off n : Nat) : Bool :=
  tm.buffers.any (fun b => overlaps b.base b.extent off n) || tm.arrivals.any (fun a => overlaps a.off 16 off n)

/-- Fields of a record. -/
structure CopyRec where
  src : Nat
  dst : Nat
  shape : Nat
  ctrl : Nat
  cursor : Nat
  deriving DecidableEq, Repr

/-- Parse a record's 32 bytes. -/
def parseCopy (bs : List Byte) : CopyRec := ⟨bfld bs 0 8, bfld bs 8 8, bfld bs 16 8, bfld bs 24 4, bfld bs 28 4⟩

/-- Fields of CTRL. -/
def CopyRec.ec (r : CopyRec) : Nat := fld r.ctrl 22 3
def CopyRec.aen (r : CopyRec) : Bool := flag r.ctrl 21
def CopyRec.aidx (r : CopyRec) : Nat := fld r.ctrl 16 5
def CopyRec.mcast (r : CopyRec) : Nat := fld r.ctrl 0 16
def CopyRec.rbf (r : CopyRec) : Bool := flag r.ctrl 25

/-- MODE a copy word asks for (R264). -/
def copyMode (opc : Nat) : Nat := if opc == 0x283 then 1 else if opc == 0x286 then 2 else 0

/-- Row length, rows, and pitches in bytes. -/
structure CopyShape where
  rowLen : Nat
  rows : Nat
  sp : Nat
  dp : Nat
  deriving DecidableEq, Repr

/-- The shape of a record for an opcode, where it keeps the limits of R263. -/
def shapeOf (opc v : Nat) : Option CopyShape :=
  if opc == 0x281 then
    let rl := fld v 16 16; let rows := fld v 0 16; let sp := fld v 32 16; let dp := fld v 48 16
    if rl % 4 == 0 && rl != 0 && rows != 0 && (rows == 1 || decide (ceilDiv rl 16 ≤ dp)) then some ⟨rl, rows, 16 * sp, 16 * dp⟩
    else none
  else
    let n := fld v 0 32
    let u := if opc == 0x286 then 128 else 4
    if v / 2 ^ 32 == 0 && n != 0 && n % u == 0 then some ⟨n, 1, 0, 0⟩ else none

/-- Step 3 of R265. -/
def recordOk (opc : Nat) (r : CopyRec) : Bool :=
  fld r.ctrl 28 4 == 0 && r.cursor == 0 && fld r.ctrl 26 2 == copyMode opc && (!r.rbf || opc == 0x283) && r.ec != 6
    && (r.aen || r.aidx == 0) && ((r.mcast != 0) == (opc == 0x282)) && (shapeOf opc r.shape).isSome

/-- Windows of the endpoints (R265). -/
def srcWindows (opc : Nat) : List Nat := if opc == 0x286 then [0x00, 0xE0, 0xF0, 0xF1] else [0x00, 0xE0, 0xF0, 0xF1, 0xF3]
/-- Windows of the destination. -/
def dstWindows (opc : Nat) : List Nat := if opc == 0x286 then [0xF3] else if opc == 0x282 then [0xF0, 0xF1] else [0x00, 0xE0, 0xF0, 0xF1]

/-- Step 4 of R265: an endpoint of `len` bytes from its first to its last. DESIGN CHOICE (log 172): a range that runs out of
its window breaks that window's form, ACCESS_VIOLATION reason 2. -/
def endpointOf (k : Ctx) (tm : Team) (addr len align : Nat) (wins : List Nat) : Except Stop End :=
  match windowFault addr with
  | some r => .error (accessViolation r addr k.iw)
  | none =>
    let sel := selector addr
    let last := (addr + len - 1) % 2 ^ 64
    if (sel == 0x00 || sel == 0xE0 || sel == 0xF3) && (selector last != sel || (windowFault last).isSome) then
      .error (accessViolation 2 addr k.iw)
    else if !wins.contains sel then .error (accessViolation 3 addr k.iw)
    else if addr % align != 0 then .error (misaligned addr align k.iw)
    else if sel == 0x00 then .ok (.glob addr)
    else if sel == 0xE0 then
      if memberPackage k.s (domPkg addr) then .ok (.glob addr) else .error (accessViolation 9 addr k.iw)
    else if sel == 0xF3 then .ok (.weight (fld addr 0 30))
    else
      let off := fld addr 0 18
      match (if sel == 0xF0 then some (k.th.team, tm) else teamOfHandle k.s tm (fld addr 18 14)) with
      | none => .error (accessViolation 7 addr k.iw)
      | some (id, o) => if o.spadSize < off + len then .error (spadExtent o off len k.iw) else .ok (.spad id off)

/-- Step 5 of R265 for one endpoint: wholly in one buffer, or wholly in the free area outside every arrival word.
Answers the buffer. -/
def placeOf (s : State) (e : End) (len : Nat) : Option (Option (Nat × Nat)) :=
  match e with
  | .spad t off =>
    match team? s t with
    | none => none
    | some tm =>
      if !touchesDeclared tm off len then some none
      else match tm.bufferAt off with
        | some b => if off + len ≤ b.base + b.extent then some (some (t, b.idx)) else none
        | none => none
  | _ => some none

/-- Two endpoints share scratchpad bytes. -/
def endsOverlap (a : End) (n : Nat) (b : End) (m : Nat) : Bool :=
  match a, b with
  | .spad t x, .spad u y => t == u && overlaps x n y m
  | _, _ => false

/-- Receivers of a multicast, or none where one is missing (R269). -/
def receiversOf (s : State) (grid mcast : Nat) (t0 : Team) : Option (List Nat) :=
  ((List.range 16).filter (fun j => mcast.testBit j)).mapM (fun j =>
    let c := 16 * stationOf t0.core + j
    let ts := s.teams.filter (fun p => p.2.grid == grid && p.2.core == c && !p.2.evicted && p.2.handle.isSome)
    let low := ts.foldl (fun m p => Nat.min m (p.2.handle.getD 0)) 16384
    (ts.find? (fun p => p.2.handle == some low)).map (·.1))

/-- The arrival words AIDX names, one per arrival team; none where one is missing. -/
def arrivalsOf (s : State) (ts : List Nat) (aidx : Nat) : Option (List (Nat × Nat)) :=
  ts.mapM (fun t => (team? s t).bind (fun tm => (tm.arrivals.find? (fun a => a.idx == aidx)).map (fun a => (t, a.off))))

/-- Range-lock entries of a command (R275). -/
def entriesOf (id sealId : Nat) (src : End) (slen : Nat) (dsts : List End) (dlen : Nat) : List RangeLock :=
  let entry (dest : Bool) (e : End) (n : Nat) : List RangeLock := match e with
    | .glob a => [⟨id, dest, none, sealId, a, n⟩]
    | .spad t o => [⟨id, dest, some t, sealId, o, n⟩]
    | .weight o => if dest then [⟨id, dest, none, sealId, 0xF3 * 2 ^ 56 + o, n⟩] else []
  entry false src slen ++ dsts.flatMap (fun d => entry true d dlen)

/-! ### Issue (R265) -/

/-- Steps 4 to 6: the command a checked record makes. -/
def makeCopy (k : Ctx) (s : State) (opc off : Nat) (tm : Team) (r : CopyRec) (sh : CopyShape) (id : Nat) :
    Except Stop CopyCmd :=
  let span (p : Nat) : Nat := p * (sh.rows - 1) + sh.rowLen
  let align := if opc == 0x286 then 128 else 4
  match endpointOf k tm r.src (span sh.sp) align (srcWindows opc) with
  | .error e => .error e
  | .ok src =>
  match endpointOf k tm r.dst (span sh.dp) align (dstWindows opc) with
  | .error e => .error e
  | .ok dst =>
  let bad : Except Stop CopyCmd := .error (k.illegal 3)
  let recvs : Option (List Nat) := if opc != 0x282 then some [] else match dst with
    | .spad t0 _ => (team? s t0).bind (receiversOf s tm.grid r.mcast)
    | _ => none
  match recvs with
  | none => bad
  | some rs =>
  let dsts : List End := if opc == 0x282 then rs.map (fun t => (match dst with | .spad _ o => .spad t o | e => e)) else [dst]
  match placeOf s src (span sh.sp), dsts.mapM (fun d => placeOf s d (span sh.dp)) with
  | some sb, some dbs =>
    if dsts.any (fun d => endsOverlap src (span sh.sp) d (span sh.dp)) then bad
    else
      let arrTeams := if opc == 0x282 then rs else match dst with
        | .spad t _ => [t]
        | _ => [k.th.team]
      match (if r.aen then arrivalsOf s arrTeams r.aidx else some []) with
      | none => bad
      | some arrs => .ok
        { th := k.t, team := k.th.team, core := tm.core, engine := 2 * stationOf tm.core + tm.core % 2, sealId := k.th.sealId
          opc := opc, rec_ := off, ctrl := r.ctrl, src := src, dst := dst, recvs := rs, rowLen := sh.rowLen, rows := sh.rows
          spitch := sh.sp, dpitch := sh.dp, arrs := arrs, srcBuf := sb, dstBufs := dbs.filterMap (fun b => b)
          entries := entriesOf id k.th.sealId src (span sh.sp) dsts (span sh.dp), pts := ptsOf s k.t }
  | _, _ => bad

/-- Commands an engine holds: a stopped one has left it (R260, R277). -/
def engineHeld (s : State) (e : Nat) : KMap CopyCmd := s.copies.filter (fun p => p.2.engine == e && !p.2.stopped)

/-- An engine of a station has one of its 64 places free (R260, R420). -/
def engineRoom (s : State) (e : Nat) : Bool :=
  decide ((engineHeld s e).length + (s.errors.quarantined.filter (fun q => q.1 == 0x0B && q.2.1 == e / 2 && q.2.2 / 64 == e % 2)).length < 64)

/-- Enter a command: its entries on the issuing core, its engine's queue and the counter; held while one has no room. -/
def enterCopy (k : Ctx) (s : State) (id : Nat) (c : CopyCmd) (ec : Nat) : Except Stop Eff :=
  let mine := c.entries.filter (fun e => entryCore s c e == some c.core)
  if 32 < (core s c.core).locks.length + mine.length || !engineRoom s c.engine then .error (.held (holdAt s k.t))
  else
    let s := { s with copies := kset s.copies id { c with accepted := id } }
    let s := mine.foldl (fun s e => takeEntry s c.core e) s
    .ok { st := modThread s k.t (fun th => { th with unreg := th.unreg ++ [id] })
          launch := some { ec := ec, dests := [], op := .unit id } }

/-- A copy word (R265). -/
def copyBody (opc : Nat) (a : BitVec 6) (k : Ctx) : Except Stop Eff :=
  match recordOf k (k.g64 a) with
  | .error e => .error e
  | .ok (off, tm) =>
    if touchesDeclared tm off 32 || (copyAt k.s k.th.team off).isSome then .error (k.illegal 3)
    else k.publish.bind (fun s =>
      let r := parseCopy (peek s (.spad k.th.team off) 32)
      let s := met s (.spad k.th.team off) 32
      match shapeOf opc r.shape with
      | none => .error (k.illegal 3)
      | some sh =>
        if !recordOk opc r then .error (k.illegal 3)
        else
          let (id, s) := fresh s
          (makeCopy k s opc off tm r sh id).bind (fun c => enterCopy k s id c r.ec))

/-- CPY (R265). -/
def execCpy (sw : Bool) (a : BitVec 6) (x : Bool) (s : State) : Host.Outcome State Fault Refusal :=
  issue (.cpy sw a x) [srcPair a x] (copyBody 0x280 a) s

/-- CPY2D (R265). -/
def execCpy2d (sw : Bool) (a : BitVec 6) (x : Bool) (s : State) : Host.Outcome State Fault Refusal :=
  issue (.cpy2d sw a x) [srcPair a x] (copyBody 0x281 a) s

/-- CPYM (R269). -/
def execCpym (sw : Bool) (a : BitVec 6) (x : Bool) (s : State) : Host.Outcome State Fault Refusal :=
  issue (.cpym sw a x) [srcPair a x] (copyBody 0x282 a) s

/-- CPYR (R270). -/
def execCpyr (sw : Bool) (a : BitVec 6) (x : Bool) (s : State) : Host.Outcome State Fault Refusal :=
  issue (.cpyr sw a x) [srcPair a x] (copyBody 0x283 a) s

/-- CPYF (R271). -/
def execCpyf (sw : Bool) (a : BitVec 6) (x : Bool) (s : State) : Host.Outcome State Fault Refusal :=
  issue (.cpyf sw a x) [srcPair a x] (copyBody 0x286 a) s

/-! ### The end of a command (R272, R274) -/

/-- Write STATUS and CURSOR into the record (R272). -/
def writeStatus (s : State) (c : CopyCmd) (status : Nat) : State :=
  poke s (.spad c.team (c.rec_ + 24)) (leBytes 4 (fld c.ctrl 0 28 + status * 2 ^ 28) ++ leBytes 4 c.cursor)

/-- A FILLING destination buffer that no other live command writes returns to EMPTY, its arrival count to 0 (R274). -/
def emptyBuffer (s : State) (id : Nat) (b : Nat × Nat) : State :=
  if s.copies.any (fun p => p.1 != id && p.2.dstBufs.contains b) then s
  else modTeam s b.1 (fun tm =>
    match tm.buffer? b.2 with
    | some x =>
      if x.state != 1 then tm
      else (tm.arrivals.filter (fun a => a.buf == b.2)).foldl (fun tm a => arrWrite tm a.off { arrRead tm a.off with count := 0 })
        (tm.modBuffer b.2 (fun x => { x with state := 0 }))
    | none => tm)

/-- The issuing thread's counter falls; what the command did is acquired when it observes that (R205, R272, R273). -/
def lowerFor (s : State) (t id pts : Nat) : State :=
  replyToRecord (modThread s t (fun th =>
    match th.flights.find? (fun f => f.op == .unit id) with
    | some f => th.unitDone f pts
    | none => th)) t []

/-- End a command with a STATUS (R272, R274, R278). -/
def endCopy (s : State) (id status : Nat) : State :=
  match kget? s.copies id with
  | none => s
  | some c =>
    let s := if status == 7 then s else writeStatus s c status
    let s := dropEntries s id
    let s := registered s c.th id
    let s := match c.srcBuf with
      | some b => if c.reading then endRead s b.1 b.2 id else s
      | none => s
    let s := if [2, 4, 5, 7].contains status then c.dstBufs.foldl (fun s b => emptyBuffer s id b) s else s
    let s := { s with regions := s.regions.map (fun p => if p.2.writer == some id then (p.1, { p.2 with writer := none }) else p) }
    let s := modTeam s c.team (fun tm => { tm with records := kset tm.records c.rec_ c.pts })
    lowerFor { s with copies := kdel s.copies id } c.th id c.pts

/-! ### Bursts (R266 to R271) -/

/-- Bytes of the whole command. -/
def CopyCmd.total (c : CopyCmd) : Nat := c.rowLen * c.rows

/-- Source, destination and length of the burst at a place of the byte order (R260, R263). -/
def CopyCmd.burst (c : CopyCmd) (x : Nat) : End × End × Nat :=
  let r := x / c.rowLen; let j := x % c.rowLen
  let d := c.dst.shift (c.dpitch * r + j)
  (c.src.shift (c.spitch * r + j), d, Nat.min (c.rowLen - j) (128 - d.low % 128))

/-- Destinations of a burst. -/
def CopyCmd.dests (c : CopyCmd) (d : End) : List End :=
  match d with
  | .spad _ o => if c.opc == 0x282 then c.recvs.map (fun t => .spad t o) else [d]
  | _ => [d]

/-- Place of the next burst to start. -/
def CopyCmd.nextAt (c : CopyCmd) : Nat := ((c.flying.getLast?).map (fun b => b.at_ + b.len)).getD c.cursor

/-- No burst is in flight: none waits for another package, and none has been written anywhere (R266). -/
def CopyCmd.settled (c : CopyCmd) : Bool := c.flying.all (fun b => b.remote.isNone && !b.begun)

/-- The burst is performed. -/
def Burst.done (b : Burst) : Bool := b.dsts.isEmpty && b.remote.isNone

/-- CURSOR past the bursts performed in order, and the bursts left. -/
def popDone : Nat → List Burst → Nat × List Burst
  | x, [] => (x, [])
  | x, b :: bs => if b.done then popDone (b.at_ + b.len) bs else (x, b :: bs)

/-- Count performed bursts into CURSOR (R266). -/
def advanceCopy (s : State) (id : Nat) : State :=
  modCopy s id (fun c =>
    let r := popDone c.cursor c.flying
    { c with cursor := r.1, flying := r.2 })

/-- Change a burst of a command. -/
def modBurst (s : State) (id x : Nat) (f : Burst → Burst) : State :=
  modCopy s id (fun c => { c with flying := c.flying.map (fun b => if b.at_ == x then f b else b) })

/-- The examination of a CPYF's regions before its first burst: a STATUS to end with, or the regions marked (R271). -/
def markRegions (s : State) (id : Nat) (c : CopyCmd) : Except Nat State :=
  let rs := match c.dst with
    | .weight off => regionsOf off c.total
    | _ => []
  if rs.any (fun r => let g := kgetD s.regions r {}; !g.grids.isEmpty || g.writer.isSome) then .error 6
  else if rs.any (fun r => let g := kgetD s.regions r {}
      (g.sealId != 0 && g.sealId != c.sealId) || s.errors.quarantined.contains (0x11, 0, r)) then .error 5
  else
    let s := rs.foldl (fun s r =>
      let g := kgetD s.regions r {}
      { s with regions := kset s.regions r { g with sealId := c.sealId, writer := some id } }) s
    .ok (modCopy s id (fun c => { c with marked := true }))

/-- The checks of an endpoint when a burst starts; the state of a buffer is judged when the burst is performed (R267). -/
def startAccess (s : State) (c : CopyCmd) (e : End) (n : Nat) (k : AccKind) : EngRes :=
  match e with
  | .spad t off => match team? s t with
    | none => .drop
    | some tm => .ok [{ loc := .spad t off, len := n, strong := false, cattr := 0, pageW := true, pageSeal := tm.sealId }] s
  | _ => engineAccess s (stationOf c.core) c.sealId e n k

/-- The checks of every destination in turn; one whose team has ended is dropped (R278). -/
def startDests (s : State) (c : CopyCmd) (n : Nat) : List End → Except (State ⊕ Nat) (List (End × List Access) × State)
  | [] => .ok ([], s)
  | d :: ds =>
    match startAccess s c d n (if c.opc == 0x283 then .update else .store) with
    | .wait s => .error (.inl s)
    | .fail st => .error (.inr st)
    | .drop => startDests s c n ds
    | .ok as_ s => (startDests s c n ds).map (fun r => ((d, as_) :: r.1, r.2))

/-- Start the next burst of a command: its checks are made, and it joins the bursts in flight; or it waits; or the command
is to end (R266, R272). -/
def startBurst (s : State) (id : Nat) (c : CopyCmd) : State :=
  let (src, dst, n) := c.burst c.nextAt
  let fail (st : Nat) : State := modCopy s id (fun c => { c with ending := some st })
  let enter (s : State) (b : Burst) : State := modCopy s id (fun c => { c with flying := c.flying ++ [b] })
  match startDests s c n (c.dests dst) with
  | .error (.inl s) => s
  | .error (.inr st) => fail st
  | .ok (ds, s) =>
    match startAccess s c src n .load with
    | .wait s => s
    | .fail st => fail st
    | .drop => enter s { at_ := c.nextAt, len := n, src := src, srcAcc := [], dsts := [] }
    | .ok as_ s => enter (noteGridRegion s c.team as_) { at_ := c.nextAt, len := n, src := src, srcAcc := as_, dsts := ds }

/-- An endpoint lets a burst go on now (R185, R188, R191, R267, R271). -/
def endReady (s : State) (e : End) (n : Nat) (k : AccKind) : Bool :=
  match e with
  | .spad t off => ((team? s t).map (fun tm => !tm.evicted && permitted tm off k)).getD true
  | .weight off => k.writes || !(regionMarked s off n || refreshing s off n)
  | .glob _ => true

/-- Arrival words that count the bytes of a destination (R268, R269). -/
def CopyCmd.countsAt (c : CopyCmd) (d : End) : List (Nat × Nat) :=
  match d with
  | .spad t _ => c.arrs.filter (fun a => a.1 == t)
  | _ => c.arrs

/-- A destination of a burst has its bytes: the arrival words that count it rise (R268). -/
def delivered (s : State) (id x n : Nat) (d : End) : State :=
  let s := modBurst s id x (fun b => { b with begun := true, dsts := b.dsts.filter (fun e => e.1 != d) })
  match kget? s.copies id with
  | none => s
  | some c => (c.countsAt d).foldl (fun s a => arrivalAdd s a.1 a.2 n c.pts) s

/-- Write a burst's bytes at one destination: here, or by a request to another package. -/
def writeDest (s : State) (id : Nat) (c : CopyCmd) (x n : Nat) (d : End) (as_ : List Access) (bs : List Byte) : State :=
  match as_ with
  | { loc := .remote p off, .. } :: _ =>
    let at_ := if c.opc == 0x283 then some (AtomOp.reduce (flag c.ctrl 25) bs) else none
    let (r, s) := openRemote s (.command id) c.sealId p off n c.pts bs at_ true
    modBurst s id x (fun b => { b with begun := true, remote := some r })
  | _ =>
    let pts := Nat.max c.pts (bufferTime s d)
    let s := beginWrite s d
    let r := as_.foldl (fun r a =>
      let w := if c.opc == 0x283 then (atomAt r.2.2 c.core a (.reduce (flag c.ctrl 25) (r.1.take a.len)) r.2.1 c.sealId).2
        else storeAt r.2.2 a (r.1.take a.len) r.2.1 c.sealId
      (r.1.drop a.len, w.1, w.2)) (bs, pts, s)
    delivered (modCopy r.2.2 id (fun c => { c with pts := Nat.max c.pts r.2.1 })) id x n d

/-- Write a burst's bytes at every destination that is ready; each receiver is served by itself (R269). -/
def writeDests (s : State) (id x n : Nat) (bs : List Byte) : List (End × List Access) → State
  | [] => s
  | (d, as_) :: ds =>
    let s := match kget? s.copies id with
      | some c => if endReady s d n (if c.opc == 0x283 then .update else .store) then writeDest s id c x n d as_ bs else s
      | none => s
    writeDests s id x n bs ds

/-- Read a burst's source: here, or by a request to another package. -/
def readSource (s : State) (id : Nat) (c : CopyCmd) (b : Burst) : Option (List Byte) × State :=
  match b.srcAcc with
  | { loc := .remote p off, .. } :: _ =>
    let (r, s) := openRemote s (.command id) c.sealId p off b.len c.pts [] none true
    (none, modBurst s id b.at_ (fun b => { b with remote := some r }))
  | as_ =>
    let s := beginRead s b.src id
    let (bs, p, s) := loadRange s c.core c.pts c.sealId (as_.map (fun a => { a with strong := true }))
    (some bs, modBurst (modCopy s id (fun c => { c with pts := Nat.max c.pts p, reading := true })) id b.at_ (fun b => { b with got := some bs }))

/-- The team of the endpoint has ended. -/
def End.gone (s : State) : End → Bool
  | .spad t _ => (team? s t).isNone
  | _ => false

/-- Perform a burst as far as its endpoints let it (R266 to R270). One that has not read a source whose team has ended is
passed over. DEDUCED (log 77). -/
def performBurst (s : State) (id : Nat) (c : CopyCmd) (b : Burst) : State :=
  let k : AccKind := if c.opc == 0x283 then .update else .store
  if b.remote.isSome then s
  else match b.got with
  | some bs => advanceCopy (writeDests s id b.at_ b.len bs b.dsts) id
  | none =>
    if b.dsts.isEmpty then advanceCopy s id
    else if b.src.gone s then advanceCopy (modBurst s id b.at_ (fun b => { b with dsts := [] })) id
    else if !endReady s b.src b.len .load || !b.dsts.any (fun d => endReady s d.1 b.len k) then s
    else match readSource s id c b with
      | (some bs, s) => advanceCopy (writeDests s id b.at_ b.len bs b.dsts) id
      | (none, s) => s

/-- A burst waits for the state of a buffer, for a team that is evicted, or for the weight store (R188, R191, R267, R271). -/
def Burst.waits (s : State) (c : CopyCmd) (b : Burst) : Bool :=
  b.remote.isNone && (if b.got.isNone && !endReady s b.src b.len .load then true
    else !b.dsts.isEmpty && b.dsts.all (fun d => !endReady s d.1 b.len (if c.opc == 0x283 then .update else .store)))

/-- Bursts of an engine in flight. One that waits holds its own command only (R267). -/
def engineFlying (s : State) (e : Nat) : Nat :=
  (engineHeld s e).foldl (fun n p => n + (p.2.flying.filter (fun b => !b.waits s p.2)).length) 0

/-- A CPYX waits for the command: its thread still stands at that word (R280). -/
def cancelling (s : State) (c : CopyCmd) : Bool :=
  match c.cancel with
  | some (t, pc, w) => ((thread? s t).map (fun th => th.pc == pc && th.word == w && !th.evicted)).getD false
  | none => false

/-- A further burst may start: at most 32 of an engine are in flight, and one at another package is alone, since it may be
refused there (R260, R266). -/
def mayStart (s : State) (c : CopyCmd) : Bool :=
  decide (c.nextAt < c.total) && decide (engineFlying s c.engine < 32) && c.ending.isNone && !cancelling s c
    && !c.flying.any (fun b => rangeRemote b.srcAcc || b.dsts.any (fun d => rangeRemote d.2))

/-- Start bursts until one stands at place `k` of the window; as many as `fuel`. -/
def startTo (s : State) (id k : Nat) : Nat → State
  | 0 => s
  | fuel + 1 => match kget? s.copies id with
    | none => s
    | some c => if decide (k < c.flying.length) || !mayStart s c then s else startTo (startBurst s id c) id k fuel

/-- Perform the burst at place `k` of a command's window; in reduce mode only the first (R266). -/
def windowBurst (s : State) (id k : Nat) : State :=
  let s := startTo s id k 8
  match kget? s.copies id with
  | none => s
  | some c => match c.flying[k]? with
    | some b => if k == 0 || c.opc != 0x283 then performBurst s id c b else s
    | none => s

/-- A stopped command whose entries all stand resumes, where its engine has room (R277). -/
def resumeIf (s : State) (id : Nat) : State :=
  match kget? s.copies id with
  | none => s
  | some c =>
    if c.stopped && (missingEntries s c).isEmpty && engineRoom s c.engine then
      let (n, s) := fresh s
      writeStatus (modCopy s id (fun c => { c with stopped := false, started := false, accepted := n })) c 0
    else s

/-! ### Events -/

/-- COPY_REGISTRATION (R232, R265): the engine has the command and its entries stand. -/
def execCopyRegistration (cmd : Nat) (s : State) : Host.Outcome State Fault Refusal :=
  .next (match kget? s.copies cmd with
    | some c =>
      if c.registered || !(missingEntries s c).isEmpty then s
      else registered (modCopy s cmd (fun c => { c with registered := true })) c.th cmd
    | none => s)

/-- RANGE_LOCK_ENTRY_TAKEN (R275, R277). -/
def execRangeLockEntryTaken (cmd c : Nat) (s : State) : Host.Outcome State Fault Refusal :=
  .next (match kget? s.copies cmd with
    | some x => takeEntries s x c
    | none => s)

/-- The issuing team is evicted whole. -/
def copyAway (s : State) (c : CopyCmd) : Bool := ((team? s c.team).map (·.evicted)).getD false

/-- COPY_COMMAND_START (R260, R277): the command an engine accepted first of those that wait starts, where fewer than 16
are active; a stopped command resumes. -/
def execCopyCommandStart (cmd : Nat) (s : State) : Host.Outcome State Fault Refusal :=
  .next (match kget? s.copies cmd with
    | some c =>
      if copyAway s c then s
      else if c.stopped then resumeIf s cmd
      else
        let mine := engineHeld s c.engine
        if c.started || mine.any (fun p => decide (p.2.accepted < c.accepted) && !p.2.started)
            || decide (16 ≤ (mine.filter (fun p => p.2.started)).length) then s
        else modCopy s cmd (fun c => { c with started := true })
    | none => s)

/-- COPY_BURST (R266 to R271): the burst at a place of the command's window of 8. -/
def execCopyBurst (burst : BurstAt) (s : State) : Host.Outcome State Fault Refusal :=
  let cmd := burst.cmd
  .next (match kget? s.copies cmd with
    | some c =>
      if !c.started || c.stopped || decide (8 ≤ burst.place) || copyAway s c then s
      else if c.opc == 0x286 && !c.marked && c.ending.isNone then
        match markRegions s cmd c with
        | .ok s => windowBurst s cmd burst.place
        | .error st => modCopy s cmd (fun c => { c with ending := some st })
      else windowBurst s cmd burst.place
    | none => s)

/-- COPY_COMMAND_END (R272): once its bursts in flight are performed; those ahead of one that failed are performed first. -/
def execCopyCommandEnd (cmd : Nat) (s : State) : Host.Outcome State Fault Refusal :=
  .next (match kget? s.copies cmd with
    | some c =>
      if c.stopped then s
      else match c.ending with
        | some 7 => if c.settled then endCopy s cmd 7 else s
        | some st => if c.flying.isEmpty then endCopy s cmd st else s
        | none => if c.started && decide (c.total ≤ c.cursor) then endCopy s cmd 1 else s
    | none => s)

/-! ### Command instructions (R279 to R281) -/

/-- CPYQ (R279): where no command is live, a weak read of the record in the thread's program order. -/
def execCpyq (sw : Bool) (d a : BitVec 6) (x : Bool) (s : State) : Host.Outcome State Fault Refusal :=
  issue (.cpyq sw d a x) [srcPair a x]
    (fun k => match recordOf k (k.g64 a) with
      | .error e => .error e
      | .ok (off, tm) =>
        match copyAt k.s k.th.team off with
        | some (_, c) => retLater k 2 d [wordN c.cursor, 0]
        | none =>
          let a : Access := { loc := .spad k.th.team off, len := 32, strong := false, cattr := 0, pageW := true, pageSeal := tm.sealId }
          (k.before a).bind (fun s =>
            let bs := peek s a.loc 32
            let st := fld (bfld bs 24 4) 28 4
            let s := met s a.loc 32
            let s := if st == 1 then modThread s k.t (fun th => th.takePts (kgetD tm.records off 0)) else s
            inState s (retLater k 2 d [wordN (bfld bs 28 4), wordN st]))) s

/-- CPYX (R280): held while bursts of the command are in flight; meanwhile it starts no more. -/
def execCpyx (sw : Bool) (d a : BitVec 6) (x : Bool) (s : State) : Host.Outcome State Fault Refusal :=
  issue (.cpyx sw d a x) [srcPair a x]
    (fun k => match recordOf k (k.g64 a) with
      | .error e => .error e
      | .ok (off, tm) =>
        match copyAt k.s k.th.team off with
        | some (id, c) =>
          if !c.settled then .error (.held (holdAt (modCopy k.s id (fun c => { c with cancel := some (k.t, k.th.pc, k.th.word) })) k.t))
          else inState (endCopy k.s id 2) (retLater k 2 d [0])
        | none => retLater k 2 d [if (kget? tm.records off).isSome then 1 else 2]) s

/-- Entries of a core's table whose range holds a byte. -/
def lockCount (k : Core) (team : Option Nat) (sealId a : Nat) (dest : Bool) : Nat :=
  (k.locks.filter (fun l => l.2.dest == dest && l.2.team == team && (team.isSome || l.2.sealId == sealId)
    && overlaps l.2.base l.2.len a 1)).length

/-- RLQRY (R281): steps 1, 2 and 4 of R209 as a one-byte access, then the issuing core's table. -/
def execRlqry (sw : Bool) (d a : BitVec 6) (x : Bool) (s : State) : Host.Outcome State Fault Refusal :=
  issue (.rlqry sw d a x) [srcPair a x]
    (fun k =>
      let addr := k.g64 a
      match k.team with
      | none => .error (.held k.s)
      | some tm =>
        let c := core k.s tm.core
        let answer (team : Option Nat) (x : Nat) : Except Stop Eff :=
          retLater k 2 d [wordN (c.locks.length + lockCount c team k.th.sealId x false * 2 ^ 8
            + lockCount c team k.th.sealId x true * 2 ^ 16)]
        if (windowFault addr).isNone && selector addr == 0xF2 then
          if 1024 * tm.privKb ≤ fld addr 0 20 then .error (accessViolation 6 addr k.iw)
          else retLater k 2 d [wordN c.locks.length]
        else match endpointOf k tm addr 1 1 allWindows with
          | .error e => .error e
          | .ok (.glob g) => answer none g
          | .ok (.spad t o) => answer (some t) o
          | .ok (.weight o) => answer none (0xF3 * 2 ^ 56 + o)) s

end Sys2Proof.Machine
end

