-- ==== Sys2Proof/Machine/Outputs.lean ====
section
/-!
DEFINITION. Output and ring registers, chain templates, reservations, arming and disarming (R371 to R383, R388, R389).
-/
namespace Sys2Proof.Machine

/-! ### Rings (R377) -/

/-- An arming's parameters name a ring. -/
def Video.uses (v : Video) (r : Nat) : Bool := v.ring == r || (v.factor != 0 && v.loring == r)

/-- The ring is bound to an armed output. -/
def ringBound (s : State) (r : Nat) : Bool :=
  s.outputs.any (fun p => p.2.armed && (match p.2.video with
    | some v => v.uses r
    | none => false))

/-- Pages lent to encoder references (R389). -/
def lentPages (s : State) : List Nat := s.pipes.flatMap (fun p => p.2.pages)

/-- Reservoir pages withheld from use (R420). -/
def lostPages (s : State) : List Nat := (s.errors.quarantined.filter (fun q => q.1 == 0x0F)).map (fun q => q.2.2)

/-- The fields of a ring allow it to be enabled. -/
def ringFits (s : State) (r : Nat) (g : Ring) : Bool :=
  let last := g.rbase + g.nslot * g.slotPages
  decide (2 ≤ g.nslot) && decide (g.nslot ≤ 16) && decide (g.kind ≤ 1) && [8, 16, 32, 64].contains g.rsh
    && decide (32 ≤ g.width) && decide (g.width ≤ 7680) && g.width % 32 == 0 && decide (last ≤ 16384)
    && !s.reservoir.any (fun p => p.1 != r && p.2.en && overlaps p.2.rbase (p.2.nslot * p.2.slotPages) g.rbase (last - g.rbase))
    && !(lentPages s ++ lostPages s).any (fun p => decide (g.rbase ≤ p) && decide (p < last))

/-- A word of a ring as read. -/
def ringRead (s : State) (r off : Nat) : Nat :=
  let g := ringOf s r
  match off with
  | 0x0 => g.w0 + b2n g.en * 2 ^ 31
  | 0x4 => g.w4
  | 0x8 => g.bswr
  | _ => g.bsrd

/-- Zero fields of a ring's words. -/
def ringZero (off : Nat) : Nat :=
  match off with
  | 0x0 => 0x7F00C000
  | 0x4 => 0xFC000000
  | _ => 0

/-- What a ring's slots hold in their pages: those that a strip was rendered into (R377, R378). -/
def Ring.remnants (g : Ring) : List Remnant :=
  g.slots.map (fun p => { page := g.rbase + p.1 * g.slotPages, pixels := g.pixels, fill := p.2.fill, px := p.2.px })

/-- Pages come to stand in no ring and in no reference, with what they hold (R377, R389). -/
def leavePages (s : State) (rs : List Remnant) : State :=
  { s with dev := { s.dev with remnants := rs ++ s.dev.remnants } }

/-- Bytes of the pages as they were left. -/
def Remnant.bytes (r : Remnant) : List Byte :=
  (List.range r.pixels).flatMap (fun i => match r.reference with
    | some d => leBytes 4 (Config.freeWord (d + i)).toNat
    | none => leBytes 4 (kgetD r.px i r.fill))

/-- The staging window: the first 32 MiB of the reservoir, with what its pages were left with over the host's bytes, and what
the slots of enabled rings hold (R470). -/
def stagingWindow (s : State) : Memory :=
  ((s.reservoir.filter (fun p => p.2.en)).flatMap (fun p => p.2.remnants) ++ s.dev.remnants).foldr
    (fun r m => Memory.writeBytes m (4096 * r.page) (r.bytes.take (2 ^ 25 - 4096 * r.page))) s.dev.staging

/-- A write of word 0x0. -/
def ringWrite0 (s : State) (r w : Nat) : State :=
  let g := ringOf s r
  let w0 := w % 2 ^ 14 + fld w 16 8 * 2 ^ 16
  if g.en then (if flag w 31 then s else leavePages (modRing s r (fun g => { g with en := false })) g.remnants)
  else if !flag w 31 then modRing s r (fun g => { g with w0 := w0 })
  else if ringFits s r { g with w0 := w0 } then modRing s r (fun g => { g with en := true, w0 := w0, slots := [] })
  else s

/-- A write of a ring's word. -/
def ringWrite (s : State) (r off w : Nat) : State :=
  match off with
  | 0x0 => if ringBound s r then s else ringWrite0 s r w
  | 0x4 => if ringBound s r || (ringOf s r).en then s else modRing s r (fun g => { g with w4 := w % 2 ^ 26 })
  | 0xC => modRing s r (fun g => { g with bsrd := w })
  | _ => s

/-- RING_ENABLE (R377): a host write of word 0x0 with EN = 1. -/
def execRingEnable (r : Nat) (w : Word) (s : State) : Host.Outcome State Fault Refusal :=
  .next (if r < 8 && w.toNat.testBit 31 then ringWrite s r 0 w.toNat else s)

/-- RING_DISABLE (R377): a host write of word 0x0 with EN = 0. -/
def execRingDisable (r : Nat) (w : Word) (s : State) : Host.Outcome State Fault Refusal :=
  .next (if r < 8 && !w.toNat.testBit 31 then ringWrite s r 0 w.toNat else s)

/-! ### Chain templates (R380, R381, R388) -/

/-- A 64-byte entry of scheduler memory tagged with a seal. -/
def schedTagged (s : State) (sealId e : Nat) : Bool := kget? s.schedTags e == some sealId

/-- Parse a slice entry. -/
def parseSlice (bs : List Byte) : SliceEntry :=
  { kaddr := bfld bs 0 8, args := bfld bs 8 8, teamn := bfld bs 16 2, groups := bfld bs 18 1, sflags := bfld bs 19 1
    spord := bfld bs 20 1, tiles := bfld bs 21 1, regb := bfld bs 22 1, afterSl := bfld bs 23 1, budget := bfld bs 24 4
    dloff := bfld bs 28 4 }

/-- The limits of slice entry `i`. -/
def sliceOk (claims : List (Nat × Nat)) (factor i : Nat) (e : SliceEntry) : Bool :=
  window0 e.kaddr 4 && decide (1 ≤ e.teamn) && decide (e.teamn ≤ 1024) && decide (e.teamn ≤ 64 * e.groups)
    && decide (1 ≤ e.groups) && decide (e.groups ≤ 16) && (!flag e.sflags 0 || e.groups % 4 == 0)
    && decide (e.claim < claims.length) && (!e.lores || factor != 0) && fld e.sflags 5 3 == 0 && decide (e.spord ≤ 8)
    && decide (ceilDiv e.groups 4 * e.tiles ≤ 8) && decide (e.tiles ≤ 8) && decide (1 ≤ e.regb) && decide (e.regb ≤ 64)
    && (e.afterSl == 0xFF || decide (e.afterSl < i))
    && (List.range (Nat.min e.groups 4)).all (fun q => (nthD claims e.claim (0, 0)).2.testBit q)

/-- Claim `i` of a header. -/
def claimWord (h : List Byte) (i : Nat) : Nat := bfld h (8 + 4 * i) 4

/-- The limits of a template's header. -/
def headerOk (h : List Byte) (pipe : Bool) : Bool :=
  let nc := bfld h 0 1; let ns := bfld h 1 1
  let cs := (List.range 8).map (claimWord h)
  let bsz := bfld h 48 4
  decide (1 ≤ nc) && decide (nc ≤ 8) && decide (1 ≤ ns) && decide (ns ≤ 8) && decide (1 ≤ bfld h 2 2)
    && decide (bfld h 2 2 ≤ 1023) && decide (bfld h 4 1 ≤ 3) && bfld h 5 3 == 0
    && (cs.zipIdx).all (fun c => if c.2 < nc then decide (fld c.1 0 9 < 320) && fld c.1 9 3 == 0 && fld c.1 12 4 != 0
        && fld c.1 16 16 == 0 && !(cs.take c.2).any (fun d => fld d 0 9 == fld c.1 0 9) else c.1 == 0)
    && (if pipe then window0 (bfld h 40 8) 65536 && bsz != 0 && bsz % 65536 == 0 else bfld h 40 8 == 0 && bsz == 0)
    && bfld h 52 12 == 0

/-- The well-formed template at an offset of scheduler memory, for an output that upscales by FACTOR. -/
def templateAt (s : State) (off : Nat) (pipe : Bool) (factor : Nat) : Option Template :=
  let h := Memory.readBytes s.sched off 64
  let ns := bfld h 1 1
  let sealId := bfld h 2 2
  let claims := (List.range (bfld h 0 1)).map (fun i => (fld (claimWord h i) 0 9, fld (claimWord h i) 12 4))
  let es := (List.range ns).map (fun i => parseSlice (Memory.readBytes s.sched (off + 64 + 32 * i) 32))
  let tagged := (range (off / 64) (1 + ceilDiv ns 2)).all (schedTagged s sealId)
  if headerOk h pipe && tagged && decide (off + 64 + 32 * ns ≤ 2 ^ 24) && (es.zipIdx).all (fun e => sliceOk claims factor e.2 e.1)
  then some { sealId := sealId, map := bfld h 4 1, claims := claims, slices := es, bsbase := bfld h 40 8, bssize := bfld h 48 4 }
  else none

/-- Bytes of scheduler memory a template takes. -/
def Template.size (t : Template) : Nat := 64 + 32 * t.slices.length

/-! ### Reservations at arming (R383) -/

/-- The reservation of one instance of a slice. -/
def reserveOf (o arm : Nat) (t : Template) (i inst : Nat) (e : SliceEntry) : Reserve :=
  { out := o, arm := arm, slice := i, inst := inst, core := (nthD t.claims e.claim (0, 0)).1, base := 0, size := 1024 * 2 ^ e.spord
    threads := e.teamn, groups := e.groups, tiles := e.tiles, spord := e.spord, entries := e.teamn * e.regb, team := none
    present := false }

/-- Every reservation a template needs. -/
def reservesOf (o arm : Nat) (t : Template) : List Reserve :=
  (t.slices.zipIdx).flatMap (fun e => [reserveOf o arm t e.2 0 e.1, reserveOf o arm t e.2 1 e.1])

/-- Make every reservation, or none. -/
def makeReserves (s : State) : List Reserve → Option State
  | [] => some s
  | r :: rs => (takeReserve s r).bind (fun r => makeReserves { s with reserves := s.reserves ++ [r] } rs)

/-! ### Encoder references (R389) -/

/-- B of a pipe in units of 64 KiB. -/
def refUnits (v : Video) : Nat := ceilDiv (v.hact * v.vact * 3 * (if v.tenb then 10 else 8)) (2 * 8 * 65536)

/-- Reservoir pages in no ring, lent to no pipe and not withheld, highest first. -/
def freePages (s : State) : List Nat :=
  let used := (s.reservoir.filter (fun p => p.2.en)).flatMap (fun p => p.2.pages) ++ lentPages s
    ++ lostPages s
  (List.range 16384).reverse.filter (fun p => !used.contains p)

/-- The reference of B a pipe holds, its units of the store and its pages: none where it does not fit. -/
def takeRef (s : State) (b : Nat) : Option (Nat × List Nat) :=
  let lost := (s.errors.quarantined.filter (fun q => q.1 == 0x10)).foldl (fun l q => insertNew l (q.2.2 / 512)) []
  let free := 768 - lost.length - s.pipes.foldl (fun n p => n + p.2.units) 0
  let u := Nat.min b free
  let need := 16 * (b - u)
  let pages := (if need == 0 then [] else freePages s).take need
  if pages.length < need then none else some (u, pages)

/-- Key of a pipe's entry for an arming: an earlier arming's entry stands until its last temporal unit is closed. -/
def pipeKey (i arm : Nat) : Nat := i + 4 * arm

/-- What pipe `i` works on: the entry of its earliest arming not closed. -/
def pipeOf (s : State) (i : Nat) : Option (Nat × Pipe) := s.pipes.find? (fun p => p.1 % 4 == i)

/-- A closed pipe has coded and written every frame it took: its entry and its reference go (R375, R389). -/
def closePipe (s : State) (key : Nat) : State :=
  match kget? s.pipes key with
  | some p =>
    let taking := (output s (4 + key % 4)).scans.any (fun c => c.arm == key / 4)
    if p.closing && !taking && p.buf.isEmpty && p.tiles.isEmpty then
      let (d, s) := draw s (1024 * p.pages.length)
      leavePages { s with pipes := kdel s.pipes key }
        (p.pages.zipIdx.map (fun q => { page := q.1, pixels := 1024, reference := some (d + 1024 * q.2) }))
    else s
  | none => s

/-! ### Arming (R375) -/

/-- Check 1. -/
def timingOk (v : Video) : Bool :=
  v.lper != 0 && decide (v.vstart + v.vact ≤ v.tlines) && v.vact != 0 && v.vact % v.sh == 0 && v.hact % 32 == 0
    && decide (32 ≤ v.hact) && decide (v.hact ≤ 7680)

/-- A ring bound to another armed output. -/
def ringTaken (s : State) (o r : Nat) : Bool := ringBound { s with outputs := kdel s.outputs o } r

/-- A ring bound to another output, armed or with a chain left (R375). -/
def ringHeld (s : State) (o r : Nat) : Bool := ringTaken s o r || s.chains.any (fun p => p.2.out != o && p.2.video.uses r)

/-- The conditions of R388. -/
def loOk (s : State) (o : Nat) (v : Video) : Bool :=
  let l := ringOf s v.loring
  l.en && l.kind == 1 && !ringHeld s o v.loring && v.loring != v.ring && 2 * v.hact == v.twice * l.width
    && 2 * v.vact % v.twice == 0 && v.vactLo % l.rsh == 0 && v.twice * l.rsh % (2 * v.sh) == 0 && decide (2 * v.sh ≤ v.twice * l.rsh)

/-- Check 2. -/
def ringOk (s : State) (o : Nat) (v : Video) : Bool :=
  let g := ringOf s v.ring
  g.en && g.kind == 0 && g.width == v.hact && g.rsh == v.sh && !ringTaken s o v.ring && (v.factor == 0 || loOk s o v)

/-- Check 5 of a pipe, apart from its reference. -/
def pipeRateOk (v : Video) : Bool :=
  decide (v.vact ≤ 4320) && decide (v.hact * v.vact * 2 ^ 46 ≤ 1990656000 * v.tlines * v.lper)

/-- The first frame of an armed output: the smallest f with S(f, 0) ≥ TNOW + 5,120. -/
def firstFrame (v : Video) (now : Nat) : Nat :=
  let x : Int := ((now + 5120 + v.guard + v.window : Nat) : Int) - v.forigin
  let n : Nat := ceilDiv (x.toNat * 2 ^ 16) v.lper
  ceilDiv (n - v.vstart) v.tlines

/-- What the write of ARM = 1 finds: an ERR code, or the state with the reservations and the reference made. -/
def armChecks (s : State) (o : Nat) (v : Video) (rateOk linkOk : Bool) : Except Nat (State × Template) :=
  let x := output s o
  if !timingOk v then .error 1
  else if !ringOk s o v then .error 2
  else match templateAt s (64 * v.chain) (4 ≤ o) v.factor with
  | none => .error 3
  | some t =>
    if !sealLive s t.sealId then .error 3
    else match makeReserves s (reservesOf o (x.arming + 1) t) with
    | none => .error 4
    | some s' =>
      match (if 4 ≤ o then (if pipeRateOk v then takeRef s (refUnits v) else none) else (if rateOk then some (0, []) else none)) with
      | none => .error 5
      | some (u, ps) =>
        let p : Pipe := { units := u, pages := ps, video := v, tpl := t }
        if s.dev.power.stby then .error 6
        else if o < 4 && !linkOk then .error 7
        else .ok (if 4 ≤ o then { s' with pipes := kset s'.pipes (pipeKey (o - 4) (x.arming + 1)) p } else s', t)

/-- The chain renders a strip of a ring. -/
def Chain.renders (c : Chain) (ring frame strip : Nat) : Bool :=
  c.frame == frame && ((c.video.ring == ring && c.k == strip) || (c.video.factor != 0 && c.video.loring == ring && c.lo == some strip))

/-- The write of ARM = 1 to an output that is not armed. Strips that no admitted chain renders have no ladder (R387). -/
def armOutput (s : State) (o : Nat) (rateOk linkOk : Bool) : State :=
  let v := (output s o).params
  match armChecks s o v rateOk linkOk with
  | .error e => modOutput s o (fun x => { x with err := e })
  | .ok (s, t) =>
    let f := firstFrame v s.tnow % 2 ^ 32
    let v := { v with loStrips := if v.factor == 0 then 0 else v.vactLo / (ringOf s v.loring).rsh }
    let n := (output s o).arming + 1
    let s := { s with ladders := s.ladders.filter (fun l => !v.uses l.ring || s.chains.any (fun p => p.2.renders l.ring l.frame l.strip)) }
    modOutput s o (fun x =>
      { x with err := 0, armed := true, link := true, arming := n, video := some v, tpl := some t
               nextChain := (f, if v.factor == 0 then 1 else 0), scans := x.scans ++ [⟨n, v, t.sealId, (f, 0), none⟩]
               resumeAt := none, woken := none })

/-- The first chain of a frame, as 1 + k (R388). -/
def Video.firstChain (v : Video) : Nat := if v.factor == 0 then 1 else 0

/-- The start time of chain `j` − 1 of a frame. -/
def chainStart (v : Video) (f j : Nat) : Int := if j == 0 then (v.timeS f 0 : Int) - v.window else v.timeS f (j - 1)

/-- Units of 1 µs (R18). -/
def idleLead : Nat := 1074

/-- An armed output's next chain starts within 1 µs (R18). -/
def chainNear (s : State) : Bool :=
  s.outputs.any (fun p => p.2.armed && (match p.2.video with
    | some v => decide (chainStart v p.2.nextChain.1 p.2.nextChain.2 ≤ (s.tnow : Int) + idleLead)
    | none => false))

/-- Ductus stays out of IDLE only while a chain is near (R18). -/
def settleEarly (s : State) : State :=
  { s with dev := { s.dev with power := { s.dev.power with early := s.dev.power.early && chainNear s } } }

/-- The last frame an output finishes once it is disarmed: the frame in progress, none where no frame is (R375). -/
def lastFrame (v : Video) (nextChain next : Nat × Nat) : Option Nat :=
  if decide (v.firstChain < nextChain.2) then some nextChain.1
  else if nextChain.1 == next.1 && next.2 == 0 then none
  else some (nextChain.1 - 1)

/-- The strips an arming's output still takes once it is disarmed. -/
def Output.stopped (x : Output) (v : Video) : List Scan :=
  x.scans.filterMap (fun c =>
    if c.arm != x.arming then some c
    else match lastFrame v x.nextChain c.next with
      | some f => if c.next.1 ≤ f then some { c with stop := some f } else none
      | none => none)

/-- The write of ARM = 0 to an armed output: no chain is admitted any more, and the frame in progress is finished. -/
def disarmOutput (s : State) (o : Nat) : State :=
  let x := output s o
  match x.video with
  | none => s
  | some v =>
    let key := pipeKey (o - 4) x.arming
    let s := modOutput s o (fun x => { x with armed := false, scans := x.stopped v, link := x.link && !(x.stopped v).isEmpty })
    let s := if 4 ≤ o then closePipe { s with pipes := kmod s.pipes key (fun p => { p with closing := true }) } key else s
    settleEarly (releaseOutput s o)

/-! ### The registers (R371 to R373) -/

/-- Bits of an output's word that a write stores, CTL apart. -/
def outMask (o off : Nat) : Nat :=
  match off with
  | 0x1C => 0x000703FE
  | 0x20 => 0x3FFFFFFF
  | 0x24 => 0x00FFFFFF
  | 0x28 => 0x00000F37
  | 0x2C => if o < 4 then 0 else 0xFFFFFF01
  | _ => if off < 0x30 then 0xFFFFFFFF else 0

/-- Zero fields of an output's words. -/
def outZero (o off : Nat) : Nat :=
  match off with
  | 0x1C => 0x60F8FC01
  | 0x20 => 0xC0000000
  | 0x24 => 0xFF000000
  | 0x28 => 0xFFFFF0C8
  | 0x2C => if o < 4 then 0xFFFFFFFF else 0x000000FE
  | _ => 0

/-- Words that accept writes only while CTL.ARM = 0. -/
def outLocked (off : Nat) : Bool := off != 0x20 && off != 0x1C

/-- The locked fields of CTL: RING and SHC. -/
def ctlLocked : Nat := 0x00070300

/-- A word of an output as read. -/
def outRead (s : State) (o off : Nat) : Nat :=
  let x := output s o
  match off with
  | 0x1C => x.reg off + b2n x.armed * 2 ^ 31 + b2n (if o < 4 then x.link else x.armed) * 2 ^ 28 + x.err * 2 ^ 24
  | 0x30 => Nat.min x.drops 65535 * 2 ^ 16 + Nat.min x.misses 65535
  | 0x34 => x.frame % 2 ^ 32
  | 0x38 => x.lastCmt % 2 ^ 32
  | 0x3C => x.lastCmt / 2 ^ 32 % 2 ^ 32
  | _ => x.reg off

/-- FLOOR and BASE of a written CTL: 5 to 7 store 4. -/
def ctlRungs (w : Nat) : Nat := Nat.min (fld w 4 3) 4 * 2 ^ 4 + Nat.min (fld w 1 3) 4 * 2

/-- A write of CTL. -/
def writeCtl (s : State) (o w : Nat) (rateOk linkOk : Bool) : State :=
  let x := output s o
  let v := (w &&& 0x00070380) + ctlRungs w
  let v := if x.armed then (v &&& 0x000000FE) + (x.reg 0x1C &&& ctlLocked) else v
  let s := modOutput s o (fun x => { x with regs := kset x.regs 0x1C v })
  if flag w 31 && !x.armed then armOutput s o rateOk linkOk
  else if !flag w 31 && x.armed then disarmOutput s o
  else s

/-- A write of an output's word. -/
def outWrite (s : State) (o off w : Nat) (rateOk linkOk : Bool) : State :=
  if off == 0x1C then writeCtl s o w rateOk linkOk
  else if 0x30 ≤ off || ((output s o).armed && outLocked off) then s
  else modOutput s o (fun x => { x with regs := kset x.regs off (w &&& outMask o off) })

/-- A write whose arming outcome at the display link is open: free values stand for it. -/
def outWriteFree (s : State) (o off w : Nat) : State :=
  let (d, s) := draw s 2
  outWrite s o off w (Config.freeBit d) (Config.freeBit (d + 1))

/-- OUTPUT_ARM (R375): a host write of ARM = 1 that changes no other field. -/
def execOutputArm (o : Nat) (rateOk linkOk : Bool) (s : State) : Host.Outcome State Fault Refusal :=
  .next (if o < 8 && !(output s o).armed then armOutput s o rateOk linkOk else s)

/-- OUTPUT_DISARM (R375): a host write of ARM = 0 that changes no other field. -/
def execOutputDisarm (o : Nat) (s : State) : Host.Outcome State Fault Refusal :=
  .next (if o < 8 && (output s o).armed then disarmOutput s o else s)

end Sys2Proof.Machine
end

