-- ==== Sys2Proof/Machine/Encode.lean ====
section
/-!
DEFINITION. The encode pipes: colour conversion, the coding of tile rows, and temporal units (R389, R390).

How a tile is coded is the encoder's own and stays open: the coded bytes and the reconstructed samples are free values
of the samples, the reference and the parameters the spec names.
-/
namespace Sys2Proof.Machine

/-! ### Colour (R389) -/

/-- The nearest integer to a quotient, halves upwards. -/
def nearest (a b : Int) : Int := Int.fdiv (2 * a + b) (2 * b)

/-- 10,000 times the luma of a 10-bit pixel, by the weights of BT.709 (log 163). -/
def lumaSum (p : Word) : Int := 2126 * fld p.toNat 0 10 + 7152 * fld p.toNat 10 10 + 722 * fld p.toNat 20 10

/-- The luma sample of a pixel in limited range, of `n` bits. -/
def lumaOf (n : Nat) (p : Word) : Nat := (nearest ((219 * lumaSum p + 16 * 10230000) * 2 ^ (n - 8)) 10230000).toNat

/-- The colour-difference sample of a colour in limited range; `d` is 10,000 times the divisor of BT.709. -/
def chromaOf (n c d : Nat) (p : Word) : Nat :=
  (nearest ((2240000 * (10000 * c - lumaSum p) + 128 * 10230000 * d) * 2 ^ (n - 8)) (10230000 * d)).toNat

/-- The blue difference of a pixel. -/
def blueOf (n : Nat) (p : Word) : Nat := chromaOf n (fld p.toNat 20 10) 18556 p
/-- The red difference of a pixel. -/
def redOf (n : Nat) (p : Word) : Nat := chromaOf n (fld p.toNat 0 10) 15748 p

/-- The mean of each 2 × 2 block of samples of `w` columns, halves rounded up. -/
def blockMeans (w : Nat) (xs : List Nat) : List Nat :=
  (List.range (xs.length / (2 * w))).flatMap (fun y => (List.range (w / 2)).map (fun x =>
    let a := 2 * w * y + 2 * x
    (nthD xs a 0 + nthD xs (a + 1) 0 + nthD xs (a + w) 0 + nthD xs (a + w + 1) 0 + 2) / 4))

/-- The samples of lines of `w` pixels at 4:2:0: luma, blue difference, red difference. -/
def planesOf (n w : Nat) (px : List Word) : List Nat :=
  px.map (lumaOf n) ++ blockMeans w (px.map (blueOf n)) ++ blockMeans w (px.map (redOf n))

/-! ### Tile rows (R389) -/

/-- Tile rows of a frame. -/
def Video.tileRows (v : Video) : Nat := ceilDiv v.vact 64

/-- Lines of tile row r. -/
def Video.rowLines (v : Video) (r : Nat) : Nat := Nat.min 64 (v.vact - 64 * r)

/-- Bits of a sample. -/
def Video.sampleBits (v : Video) : Nat := if v.tenb then 10 else 8

/-- Tile rows coded of the frame in progress. -/
def Pipe.rows (p : Pipe) : Nat := p.tiles.length

/-- Pixels of the next tile row. -/
def Pipe.rowPixels (p : Pipe) : Nat := p.video.hact * p.video.rowLines p.rows

/-- The pipe can code its next tile row: it has copied every strip that holds its lines. -/
def rowReady (p : Pipe) : Bool := decide (p.rows < p.video.tileRows) && decide (p.rowPixels ≤ p.buf.length)

/-- The frame is a key frame: the first after the arming, every KEYINT frames after it, and one that is forced (R389, R390,
R420). -/
def keyFrame (p : Pipe) : Bool := p.forceKey || p.frames == 0 || (p.video.keyint != 0 && p.frames % p.video.keyint == 0)

/-- A coded header of the frame: Main profile, the sample's bits, the quantiser index, tile rows of 64 lines, and LAST_FRAME
as the only reference of a frame that is no key frame (R389; log 114). -/
def Pipe.header (p : Pipe) (d : Nat) (seq : Bool) : List Byte :=
  let v := p.video
  Config.av1Header d ⟨seq, keyFrame p, v.sampleBits, v.qbase, v.hact, v.vact, 64, !keyFrame p⟩

/-- Code the next tile row with a draw: a key frame has no reference, and any other predicts from LAST_FRAME. -/
def codeRow (p : Pipe) (d : Nat) : Pipe :=
  let v := p.video
  let xs := planesOf v.sampleBits v.hact (p.buf.take p.rowPixels)
  let ref := if keyFrame p then [] else p.ref
  let rec_ := (List.range xs.length).map (fun i =>
    Config.av1Sample d (keyFrame p) v.qbase v.sampleBits xs ref i % 2 ^ v.sampleBits)
  { p with
    buf := p.buf.drop p.rowPixels
    seqHead := if p.rows == 0 then p.header d true else p.seqHead
    head := if p.rows == 0 then p.header (d + 1) false else p.head
    tiles := p.tiles ++ [Config.av1Tile d (keyFrame p) v.qbase v.sampleBits xs ref]
    recon := p.recon ++ rec_ }

/-- ENCODE_TILE_ROW (R389); `powerLets` keeps it out of STANDBY and RECOVERY (R17). -/
def execEncodeTileRow (i : Nat) (s : State) : Host.Outcome State Fault Refusal :=
  .next (match pipeOf s i with
    | some (key, p) =>
      if rowReady p then
        let (d, s) := draw s 2
        { s with pipes := kset s.pipes key (codeRow p d) }
      else s
    | none => s)

/-! ### Temporal units (R390) -/

/-- A number in groups of seven bits, low group first, as the bitstream writes a size (log 163). -/
def leb128 : Nat → Nat → List Byte
  | 0, _ => []
  | fuel + 1, n => if n < 128 then [BitVec.ofNat 8 n] else BitVec.ofNat 8 (128 + n % 128) :: leb128 fuel (n / 128)

/-- An open bitstream unit of a type, with its size field (log 163). -/
def obu (type : Nat) (bs : List Byte) : List Byte := BitVec.ofNat 8 (8 * type + 2) :: leb128 10 bs.length ++ bs

/-- The tiles of a frame: each but the last after its size less 1 in four bytes (log 163). -/
def tileGroup : List (List Byte) → List Byte
  | [] => []
  | [t] => t
  | t :: ts => leBytes 4 (t.length - 1) ++ t ++ tileGroup ts

/-- The temporal unit of a coded frame: a temporal delimiter, a sequence header at a key frame, and one frame unit. -/
def temporalUnit (p : Pipe) : List Byte :=
  obu 2 [] ++ (if keyFrame p then obu 1 p.seqHead else [])
    ++ obu 6 (p.head ++ (if 1 < p.tiles.length then [0] else []) ++ tileGroup p.tiles)

/-- Every tile row of the frame is coded. -/
def unitReady (p : Pipe) : Bool := p.rows == p.video.tileRows && p.rows != 0

/-- The accesses of a temporal unit in the bitstream ring: none where a page faults or is denied (R390). -/
def unitAccess (s : State) (t : Template) (pos n : Nat) : Option (List Access × State) :=
  let at_ := pos % t.bssize
  let first := Nat.min n (t.bssize - at_)
  ((piecesOf (2 ^ 16) (first / 2 ^ 16 + 2) (t.bsbase + at_) first)
    ++ (piecesOf (2 ^ 16) (n / 2 ^ 16 + 2) t.bsbase (n - first))).foldl (fun r p =>
    match r with
    | none => none
    | some (as_, s) =>
      match translateNow s none t.sealId p.1 p.2 .store with
      | .ok (a, s) => some (as_ ++ [a], s)
      | .error _ => none) (some ([], s))

/-- The pipe starts its next frame; the reconstructed frame is its LAST_FRAME. -/
def nextUnit (p : Pipe) (dropped : Bool) : Pipe :=
  { p with tiles := [], recon := [], ref := p.recon, frames := p.frames + 1, forceKey := dropped || p.keyNext, keyNext := false }

/-- A unit is dropped: DROPS advances, and the next frame is a key frame (R390). -/
def dropUnit (s : State) (o key : Nat) (p : Pipe) : State :=
  closePipe (modOutput { s with pipes := kset s.pipes key (nextUnit p true) } o (fun x => { x with drops := x.drops + 1 })) key

/-- Bytes of a pipe's ring written and not consumed. -/
def ringFill (g : Ring) : Nat := (g.bswr + 2 ^ 32 - g.bsrd) % 2 ^ 32

/-- TEMPORAL_UNIT_WRITE (R390); `powerLets` keeps it out of STANDBY and RECOVERY (R17). -/
def execTemporalUnitWrite (i : Nat) (s : State) : Host.Outcome State Fault Refusal :=
  .next (match pipeOf s i with
    | some (key, p) =>
      let g := ringOf s p.video.ring
      let bs := temporalUnit p
      if !unitReady p then s
      else if p.tpl.bssize < ringFill g + bs.length || !sealLive s p.tpl.sealId then dropUnit s (4 + i) key p
      else match unitAccess s p.tpl g.bswr bs.length with
      | none => dropUnit s (4 + i) key p
      | some (as_, s) =>
        let (pts, s) := storeRange s 0 p.tpl.sealId as_ bs
        closePipe (modRing { s with pipes := kset s.pipes key (nextUnit p false) } p.video.ring (fun g =>
          { g with bswr := (g.bswr + bs.length) % 2 ^ 32, bsPts := pts })) key
    | none => s)

end Sys2Proof.Machine
end

