-- ==== Sys2Proof/Machine/Traffic.lean ====
section
/-!
DEFINITION. The packets that wait for Damlan's channels, and a visit of a channel's token (R441 to R447).
-/
namespace Sys2Proof.Machine

/-- A packet that waits: the thread and the number of its operation, and its flits. -/
structure Packet where
  thread : Nat
  seq : Nat
  flits : Nat
  deriving DecidableEq, Repr

/-- A thread of a job slice of an admitted strip chain sends packets of class C (R444). -/
def classC (s : State) (th : Thread) : Bool := ((team? s th.team).bind (·.chain)).isSome

/-- The packets of an operation that wait for a channel: its requests to a slice, or its replies to its station, each with the
sender's number, a station's or a slice's (R441, R442). -/
def waitingOf (s : State) (th : Thread) (ch : Nat) (f : Flight) : List (Nat × Nat) :=
  let st := stationOf (coreOf s th)
  if ch < 16 then
    if f.got.isNone && !f.sent.contains ch then
      ((requestPackets s th f.op).filter (fun p => p.1 == ch)).map (fun p => (st, p.2)) else []
  else if st == ch - 16 then f.reply else []

/-- Every packet that waits for a channel at its senders, those of class C first, each with its sender (R444; DESIGN CHOICE, log
178: those of one class in the order of threads and of issue). -/
def waitingAt (s : State) (ch : Nat) : List (Nat × Packet) :=
  let of (c : Bool) : List (Nat × Packet) := (s.threads.filter (fun p => classC s p.2 == c)).flatMap (fun p =>
    p.2.flights.flatMap (fun f => (waitingOf s p.2 ch f).map (fun w => (w.1, ⟨p.1, f.seq, w.2⟩))))
  of true ++ of false

/-- QDEPTH: the flits waiting for a channel at all its senders (R447). -/
def queueDepth (s : State) (ch : Nat) : Nat := (waitingAt s ch).foldl (fun n p => n + p.2.flits) 0

/-- The packets of an operation for a channel are sent from a sender. -/
def sendPacket (s : State) (ch sender : Nat) (p : Packet) : State :=
  modThread s p.thread (fun th => th.modFlight p.seq (fun f =>
    if ch < 16 then { f with sent := insertNew f.sent ch } else { f with reply := f.reply.filter (fun r => r.1 != sender) }))

/-- Packets in order, whole, up to a number of flits. -/
def sendUpTo (ch sender : Nat) : Nat → List Packet → State → State
  | _, [], s => s
  | n, p :: ps, s => if p.flits ≤ n then sendUpTo ch sender (n - p.flits) ps (sendPacket s ch sender p) else s

/-- Senders of a channel: the stations of a slice's, the slices of a station's. -/
def senders (ch : Nat) : Nat := if ch < 16 then 20 else 16

/-- A visit of a channel's token, by the number of visits before it: the sender it is at sends up to 64 flits (R442). -/
def tokenVisit (s : State) (ch visits : Nat) : State :=
  let sender := visits % senders ch
  sendUpTo ch sender 64 ((waitingAt s ch).filterMap (fun p => if p.1 == sender then some p.2 else none)) s

end Sys2Proof.Machine
end

