-- ==== Sys2Proof/Machine/Ductus.lean ====
section
/-!
DEFINITION. Ductus and the scan of outputs: admission, the ends of chains and slices, scan-out, links, time and channels
(R368 to R370, R376, R379, R382 to R388, R443, R447).
-/
namespace Sys2Proof.Machine

/-! ### Ends (R385, R386, R399) -/

/-- End every thread of a team as under R105. -/
def endTeam (s : State) (tm : Nat) : State := (teamThreads s tm).foldl (fun s p => endThread s p.1) s

/-- End a chain: every slice still running is ended, without a trap (R386). -/
def killChain (s : State) (cid : Nat) : State :=
  match kget? s.chains cid with
  | none => s
  | some c =>
    let all := c.slices.map (fun x => { x with ended := true })
    let s := { s with chains := kset s.chains cid { c with slices := all } }
    let s := c.slices.foldl (fun s x => match x.team with
      | some tm => endTeam s tm
      | none => s) s
    endChain s cid

/-- The chain of an output's strip under an arming: −1 for the one before strip 0. -/
def chainOf (s : State) (o arm frame : Nat) (k : Int) : Option (Nat × Chain) :=
  s.chains.find? (fun p => p.2.out == o && p.2.arm == arm && p.2.frame == frame && p.2.k == k)

/-- CHAIN_FORCED_END (R386): at T of the chain's output strip; for chain −1 at T of strip 0. -/
def execChainForcedEnd (cid : Nat) (s : State) : Host.Outcome State Fault Refusal :=
  .next (match kget? s.chains cid with
    | some c => if c.t ≤ s.tnow then killChain s cid else s
    | none => s)

/-- Raise a trap for every thread of a team. -/
def raiseTeam (s : State) (tm cause : Nat) (infos : List Word) : State :=
  (teamThreads s tm).foldl (fun s p => raiseAsync s p.1 cause infos) s

/-- The deadline a slice shows; all ones without one. -/
def Job.shown (j : Job) : Nat := j.deadline.getD (2 ^ 64 - 1)

/-- BUDGET_EXPIRY (R385). -/
def execBudgetExpiry (jid : Nat) (s : State) : Host.Outcome State Fault Refusal :=
  .next (match kget? s.jobs jid with
    | some j =>
      if j.budget == 0 || j.budgetTold || decide (j.count < j.budget) then s
      else raiseTeam (modJob s jid (fun j => { j with budgetTold := true })) j.team causeBudget
        [wordN j.count, loW j.shown, hiW j.shown]
    | none => s)

/-- DEADLINE_MISS (R386). -/
def execDeadlineMiss (jid : Nat) (s : State) : Host.Outcome State Fault Refusal :=
  .next (match kget? s.jobs jid with
    | some j =>
      match j.deadline with
      | none => s
      | some d =>
        if j.deadlineTold || decide (s.tnow < d) then s
        else raiseTeam (modJob s jid (fun j => { j with deadlineTold := true })) j.team causeDeadline
          [loW s.tnow, hiW s.tnow, loW d, hiW d]
    | none => s)

/-! ### Admission (R382, R388) -/

/-- R of an upscaled output: output strips per low-resolution strip. -/
def loRatio (s : State) (v : Video) : Nat := v.twice * (ringOf s v.loring).rsh / (2 * v.sh)

/-- The low-resolution strip chain `j` − 1 renders (R388). -/
def loStripOf (s : State) (v : Video) (j : Nat) : Option Nat :=
  if v.factor == 0 then none
  else if j == 0 then (if 0 < v.loStrips then some 0 else none)
  else
    let r := loRatio s v
    if (j - 1) % r == 0 && decide ((j - 1) / r + 1 < v.loStrips) then some ((j - 1) / r + 1) else none

/-- Place of a chain in its output's sequence. -/
def Video.seqNo (v : Video) (f j : Nat) : Nat := if v.factor == 0 then f * v.strips + (j - 1) else f * (v.strips + 1) + j

/-- The chain after chain `j` − 1 of a frame. -/
def Video.nextOf (v : Video) (f j : Nat) : Nat × Nat :=
  if j < v.strips then (f, j + 1) else ((f + 1) % 2 ^ 32, v.firstChain)

/-- FILL, FILLM, FLOOR and BASE are taken for a frame at the instant of strip 0's admission (R372). -/
def latchFrame (x : Output) (f j : Nat) : Output :=
  let wanted (g : FrameSet) : Bool :=
    !(g.arm == x.arming && g.frame == f) && x.scans.any (fun c => c.arm == g.arm && decide (c.next.1 ≤ g.frame))
  if j == 1 then { x with sets := x.frameSet x.arming f :: x.sets.filter wanted } else x

/-- A strip's slot is FREE. -/
def slotFree (s : State) (r i : Nat) : Bool := (slotOf s r i).state == 0

/-- Slot of a strip of a ring with `per` strips a frame. -/
def slotNo (s : State) (r per f k : Nat) : Nat := (f * per + k) % Nat.max 1 (ringOf s r).nslot

/-- Take a slot for rendering (R378). -/
def renderSlot (s : State) (r i f k fill sealId : Nat) : State :=
  modSlot s r i (fun _ => { state := 1, frame := f, strip := k, fill := fill, sealId := sealId })

/-- Start a strip's ladder state (R387). -/
def startLadder (s : State) (r f k finish : Nat) (fs : FrameSet) : State :=
  let g := ringOf s r
  let rung := Nat.min fs.base fs.floor
  let l : Ladder := { ring := r, frame := f, strip := k, rung := rung, base := rung, floor := fs.floor, finish := finish
                      total := g.width / 32 * (g.rsh / Nat.min g.rsh 16) }
  { s with ladders := l :: s.ladders.filter (fun x => !(x.ring == r && x.frame == f && x.strip == k)) }

/-- The strips of a chain that is missed have no ladder, but one an admitted chain still renders (R387). -/
def missLadders (s : State) (c : Chain) : State :=
  { s with ladders := s.ladders.filter (fun l => !c.renders l.ring l.frame l.strip || s.chains.any (fun p => p.2.renders l.ring l.frame l.strip)) }

/-- A chain is missed at admission (R382, step 1). -/
def admitMissed (s : State) (o : Nat) (v : Video) (t : Template) (f j : Nat) (c : Chain) : Bool :=
  s.chains.any (fun p => p.2.out == o && p.2.arm == c.arm && p.2.seqNo + 2 == v.seqNo f j)
    || (j != 0 && !slotFree s v.ring (slotNo s v.ring v.strips f (j - 1)))
    || (match c.lo with
      | some l => !slotFree s v.loring (slotNo s v.loring v.loStrips f l)
      | none => false)
    || (t.slices.zipIdx).any (fun e => !sliceSkipped c e.1 && (freeReserve s o c.arm e.2).isNone)

/-- Steps 2 to 5 of R382. -/
def admitChain (s : State) (o : Nat) (v : Video) (fs : FrameSet) (f j : Nat) (c : Chain) : State :=
  let (cid, s) := fresh s
  let s := if j == 0 then s else
    startLadder (renderSlot s v.ring (slotNo s v.ring v.strips f (j - 1)) f (j - 1) fs.fill c.sealId) v.ring f (j - 1) c.f fs
  let s := match c.lo with
    | some l => startLadder (renderSlot s v.loring (slotNo s v.loring v.loStrips f l) f l 0 c.sealId) v.loring f l c.f fs
    | none => s
  let s := modOutput s o (fun x => { x with frame := f })
  let s := { s with chains := kset s.chains cid c }
  let s := addClaims s cid c.tpl.claims
  let s := placeReady s cid
  if (((kget? s.chains cid).map (fun c => c.slices.all (·.ended))).getD false) then endChain s cid else s

/-- The chain `j` − 1 of a frame of an output, before its admission. -/
def newChain (s : State) (o : Nat) (x : Output) (v : Video) (t : Template) (f j : Nat) : Chain :=
  let k := j - 1
  let c : Chain :=
    { out := o, arm := x.arming, video := v, frame := f, k := (j : Int) - 1, seqNo := v.seqNo f j, t := v.timeT f k
      f := v.timeF f k, s := v.timeS f k, sealId := t.sealId, tpl := t, lo := loStripOf s v j, slices := [], pts := topTime s }
  { c with slices := t.slices.map (fun e => { ended := sliceSkipped c e }) }

/-- STRIP_ADMISSION (R382): not while the template's seal is not LIVE (R419), nor after a device-fatal error (R421). -/
def execStripAdmission (o : Nat) (s : State) : Host.Outcome State Fault Refusal :=
  let x := output s o
  .next (match x.video, x.tpl with
    | some v, some t =>
      let (f, j) := x.nextChain
      if !x.armed || decide ((s.tnow : Int) < chainStart v f j) then s
      else
        let s := modOutput s o (fun x => { latchFrame x f j with nextChain := v.nextOf f j })
        let x := output s o
        let c := newChain s o x v t f j
        settleEarly (if !sealLive s t.sealId || s.dev.power.state != 0 || admitMissed s o v t f j c then missLadders s c
          else admitChain s o v (x.setFor x.arming f) f j c)
    | _, _ => s)

/-! ### Scan (R378, R379) -/

/-- The pixels of a slot, line by line. -/
def Slot.pixels (x : Slot) (n : Nat) : List Word := (List.range n).map (fun i => wordN (x.pixel i))

/-- Low-resolution slots that the scan time of strip k frees (R388). -/
def freeLoSlots (s : State) (v : Video) (f k : Nat) : State :=
  if v.factor == 0 then s
  else
    let r := loRatio s v
    (List.range v.loStrips).foldl (fun s j =>
      if Nat.min (v.strips - 1) ((j + 1) * r) == k then
        let i := slotNo s v.loring v.loStrips f j
        modSlot s v.loring i (fun y => if y.holds f j then { y with state := 0 } else y)
      else s) s

/-- What an output sends for a strip it misses: the last line again, or the fill colour. -/
def missPixels (x : Output) (v : Video) (fs : FrameSet) (k : Nat) (dead : Bool) : List Word :=
  let line := if dead || fs.fillm || k == 0 || x.lastLine.isEmpty then List.replicate v.hact (wordN fs.fill) else x.lastLine
  (List.replicate v.sh line).flatten

/-- The pixels of a strip go out, where the link carries video (R376). -/
def sendStrip (x : Output) (v : Video) (o f : Nat) (px : List Word) : Output :=
  let on := decide (4 ≤ o) || (x.link && (match x.resumeAt with | some g => decide (g ≤ f) | none => true))
  let x := if on then { x with sent := px } else x
  { x with lastLine := px.drop (v.hact * (v.sh - 1)) }

/-- The next strip to take. -/
def Video.nextStrip (v : Video) (f k : Nat) : Nat × Nat := if k + 1 < v.strips then (f, k + 1) else ((f + 1) % 2 ^ 32, 0)

/-- An arming's strips of an output after one is taken: its next strip is another, and a disarmed one ends with its last
frame (R375). -/
def Output.advance (x : Output) (c : Scan) (next : Nat × Nat) : Output :=
  let past : Bool := match c.stop with
    | some f => decide (f < next.1)
    | none => false
  let scans := if past then x.scans.filter (fun d => d.arm != c.arm)
    else x.scans.map (fun d => if d.arm == c.arm then { d with next := next } else d)
  { x with scans := scans, link := x.link && !scans.isEmpty }

/-- The output takes strip k of frame f of an arming (R379). -/
def takeStrip (s : State) (o : Nat) (x : Output) (c : Scan) : State :=
  let v := c.video
  let f := c.next.1; let k := c.next.2
  let i := slotNo s v.ring v.strips f k
  let y := slotOf s v.ring i
  let fs := x.setFor c.arm f
  let dead := !sealLive s c.sealId || s.errors.fatal
  let taken := y.state == 2 && y.holds f k
  let n := v.hact * v.sh
  let px := if taken then y.pixels n else missPixels x v fs k dead
  let hold := if 4 ≤ o then v.lper / 2 ^ 16 else v.sh * v.lper / 2 ^ 16
  let s := if taken then modSlot s v.ring i (fun y => { y with state := 3, until_ := (v.timeT f k + hold) % 2 ^ 64 })
    else modSlot s v.ring i (fun y => if y.state == 1 && y.holds f k then { y with state := 0 } else y)
  let s := modOutput s o (fun x =>
    let x := sendStrip x v o f px
    ({ x with misses := if taken && !dead then x.misses else x.misses + 1 } : Output).advance c (v.nextStrip f k))
  if 4 ≤ o then { s with pipes := kmod s.pipes (pipeKey (o - 4) c.arm) (fun p => { p with buf := p.buf ++ px }) } else s

/-- STRIP_SCAN (R379, R386): a chain of the strip that has not ended is ended first. -/
def execStripScan (o : Nat) (s : State) : Host.Outcome State Fault Refusal :=
  let x := output s o
  .next (match x.scans with
    | [] => s
    | c :: _ =>
      let v := c.video
      let f := c.next.1; let k := c.next.2
      if s.dev.power.state == 2 || decide (s.tnow < v.timeT f k) then s
      else
        let kill (s : State) (k : Int) : State := match chainOf s o c.arm f k with
          | some (cid, _) => killChain s cid
          | none => s
        let s := kill s k
        let s := if k == 0 then kill s (-1) else s
        freeLoSlots (takeStrip s o (output s o) c) v f k)

/-- SLOT_RELEASE (R379). -/
def execSlotRelease (r i : Nat) (s : State) : Host.Outcome State Fault Refusal :=
  let y := slotOf s r i
  .next (if y.state == 3 && decide (y.until_ ≤ s.tnow) then modSlot s r i (fun y => { y with state := 0 }) else s)

/-! ### Links of heads (R376) -/

/-- A LINK event (R376, R423). -/
def logLink (s : State) (o : Nat) (back : Bool) : State :=
  let sid := ((output s o).tpl.map (·.sealId)).getD 0
  logEvent s { kind := 9, sealId := sid, index := o, syndrome := b2n back }

/-- HEAD_LINK_LOSS (R376). -/
def execHeadLinkLoss (o : Nat) (s : State) : Host.Outcome State Fault Refusal :=
  let x := output s o
  .next (if o < 4 && x.armed && x.link then logLink (modOutput s o (fun x => { x with link := false })) o false else s)

/-- LINK_RETRAIN (R376): video resumes at line 0 of the next frame. -/
def execLinkRetrain (o : Nat) (s : State) : Host.Outcome State Fault Refusal :=
  let x := output s o
  let next := ((x.scans.find? (fun c => c.arm == x.arming)).map (·.next)).getD (0, 0)
  let f := if next.2 == 0 then next.1 else next.1 + 1
  .next (if o < 4 && x.armed && !x.link then
    logLink (modOutput s o (fun x => { x with link := true, resumeAt := some f })) o true else s)

/-! ### Time (R368 to R370, R191, R443) -/

/-- Change the device state. -/
def modDev (s : State) (f : Device → Device) : State := { s with dev := f s.dev }

/-- Change the discipline's state. -/
def modTlock (s : State) (f : Tlock → Tlock) : State := modDev s (fun d => { d with tlock := f d.tlock })

/-- PPS_EDGE (R369, R370) with the offset measured at it in ns; without timestamps it measures none. -/
def execPpsEdge (offset : Int) (s : State) : Host.Outcome State Fault Refusal :=
  .next (modTlock s (fun t =>
    let t := { t with pps := true, lastPps := s.dev.mono }
    if t.state == 0 || t.state == 3 then t
    else
      let o := max (-32767) (min 32767 offset)
      let good := if o.natAbs ≤ 20 then t.good + 1 else 0
      { t with offs := o, good := good, state := if 16 ≤ good then 2 else 1 }))

/-- PTPIN (R465): the timestamps of one exchange reach the discipline. -/
def execPtpin (t1 t2 t3 t4 : Nat) (s : State) : Host.Outcome State Fault Refusal :=
  .next (modTlock s (fun t =>
    { t with lastStamp := s.dev.mono, stamps := [t1, t2, t3, t4], state := if t.state == 0 || t.state == 3 then 1 else t.state
             good := if t.state == 0 || t.state == 3 then 0 else t.good }))

/-- TLOCK_HOLDOVER (R370): no timestamp for 3 s. -/
def execTlockHoldover (s : State) : Host.Outcome State Fault Refusal :=
  .next (if (s.dev.tlock.state == 1 || s.dev.tlock.state == 2) && decide (s.dev.tlock.lastStamp + 3 * 2 ^ 30 ≤ s.dev.mono) then
    modTlock s (fun t => { t with state := 3, good := 0 }) else s)

/-- PPS_LOSS (R370): no edge for 1.5 s. -/
def execPpsLoss (s : State) : Host.Outcome State Fault Refusal :=
  .next (if s.dev.tlock.pps && decide (s.dev.tlock.lastPps + 3 * 2 ^ 29 ≤ s.dev.mono) then
    modTlock s (fun t => { t with pps := false }) else s)

/-- REFRESH_WINDOW_START (R191). -/
def execRefreshWindowStart (b : Nat) (s : State) : Host.Outcome State Fault Refusal :=
  .next (if decide (b < 32) && inWindow s.tnow b then modDev s (fun d => { d with refresh := insertNew d.refresh b }) else s)

/-- REFRESH_WINDOW_END (R191). -/
def execRefreshWindowEnd (b : Nat) (s : State) : Host.Outcome State Fault Refusal :=
  .next (if inWindow s.tnow b then s else modDev s (fun d => { d with refresh := d.refresh.filter (· != b) }))

/-! ### Damlan channels (R443, R446, R447) -/

/-- A home channel. -/
def channel (s : State) (c : Nat) : Channel := kgetD s.dev.channels c {}

/-- Change a channel. -/
def modChannel (s : State) (c : Nat) (f : Channel → Channel) : State :=
  modDev s (fun d => { d with channels := kset d.channels c (f (channel s c)) })

/-- A channel after a wake (R446, R447). -/
def Channel.wake (x : Channel) (now : Nat) : Channel :=
  match x.state with
  | 1 => { x with state := 2, since := now, tuned := false }
  | 3 => { x with state := 0 }
  | _ => x

/-- A channel at a frame boundary (R446, R447). -/
def Channel.boundary (x : Channel) : Channel :=
  match x.state with
  | 3 => { x with state := 1 }
  | 2 => if x.tuned then { x with state := 0 } else x
  | _ => x

/-- The quality-of-service frame a value of the time counter stands in: the whole second, and the number of whole 256 FCLK
cycles passed in it (R443). -/
def frameOf (now : Nat) : Nat × Nat := (now / 2 ^ 30, now % 2 ^ 30 * 1650000000 / (256 * 2 ^ 30))

/-- QOS_FRAME_BOUNDARY (R443): the counter has passed into another frame. -/
def execQosFrameBoundary (s : State) : Host.Outcome State Fault Refusal :=
  .next (if frameOf s.tnow == s.dev.frameAt then s
    else modDev s (fun d => { d with
      qframe := d.qframe + 1, frameAt := frameOf s.tnow, channels := d.channels.map (fun p => (p.1, p.2.boundary)) }))

/-- QDEPTH of a channel now exceeds its threshold (R447). -/
def overThreshold (s : State) (c : Nat) : Bool := decide ((channel s c).thr < queueDepth s c)

/-- AUTOMATIC_WAKE (R447): QDEPTH exceeds THR. -/
def execAutomaticWake (c : Nat) (s : State) : Host.Outcome State Fault Refusal :=
  .next (if c < 36 && overThreshold s c then modChannel s c (fun x => x.wake s.dev.mono) else s)

/-- RETUNE_END (R447): 2.4 µs after the wake began. -/
def execRetuneEnd (c : Nat) (s : State) : Host.Outcome State Fault Refusal :=
  let x := channel s c
  .next (if x.state == 2 && decide (x.since + 2577 ≤ s.dev.mono) then modChannel s c (fun x => { x with tuned := true }) else s)

/-- Units of 3 µs (R382). -/
def wakeLead : Nat := 3222

/-- DUCTUS_WAKE (R382, R447): 3 µs before the next chain's start. -/
def execDuctusWake (o : Nat) (s : State) : Host.Outcome State Fault Refusal :=
  let x := output s o
  .next (match x.video, x.tpl with
    | some v, some t =>
      let (f, j) := x.nextChain; let n := x.arming
      if !x.armed || x.woken == some (f, j) || decide ((s.tnow : Int) + wakeLead < chainStart v f j) then s
      else
        let s := modOutput s o (fun x => { x with woken := some (f, j) })
        (t.claims.map (fun c => 16 + c.1 / 16)).foldl (fun s c => modChannel s c (fun x =>
          { x.wake s.dev.mono with wakes := (o, n, f, j) :: x.wakes.filter (fun w => w.1 != o || (w.2.1 == n && decide (f ≤ w.2.2.1 + 1))) })) s
    | _, _ => s)

/-- DUCTUS_IDLE_EXIT (R18): Ductus leaves IDLE ahead of a strip. -/
def execDuctusIdleExit (s : State) : Host.Outcome State Fault Refusal :=
  .next (if s.dev.power.state == 0 && chainNear s then
    modDev s (fun d => { d with power := { d.power with early := true } }) else s)

end Sys2Proof.Machine
end

