-- ==== Sys2Proof/Machine/Graph.lean ====
section
/-!
DEFINITION. Status records, host launches, and graphs in scheduler memory with their runs (R21, R64, R457, R460, R461).
-/
namespace Sys2Proof.Machine

/-! ### Status records (R457) -/

def codeDone : Nat := 0
def codeBadCmd : Nat := 1
def codeBadSeal : Nat := 2
def codeBusy : Nat := 3
def codeNoSpace : Nat := 4
def codeOverrun : Nat := 5
def codeLaunchFail : Nat := 6
def codeAccepted : Nat := 8
def codeRefused : Nat := 9
def codeBadImage : Nat := 10

/-- The 16 bytes of a status record. -/
def statusBytes (tag op code value now : Nat) : List Byte :=
  leBytes 2 tag ++ leBytes 1 op ++ leBytes 1 code ++ leBytes 4 value ++ leBytes 8 now

/-- Write a status record at STHEAD. -/
def statusRecord (s : State) (tag op code value : Nat) : State :=
  let bs := statusBytes tag op code value s.tnow
  let s := { s with rings := { s.rings with status := kset s.rings.status s.rings.stHead bs, stHead := (s.rings.stHead + 1) % 256 } }
  signal s 0

/-! ### Reads by the device for a seal (R64, R182) -/

/-- What a read by the device meets. -/
inductive DevRead where
  | ok (bs : List Byte) (s : State)
  | wait (s : State)
  | fail

/-- Read `n` bytes of a seal's address space as an agent of the seal at logical time `pts`. Its page faults are
reported at station 0. -/
def readFor (s : State) (sealId addr n pts : Nat) : DevRead :=
  match engineGlob s 0 sealId addr n .load with
  | .ok as_ s =>
    let r := loadRange s 0 pts sealId (as_.map (fun a => { a with strong := true }))
    .ok r.1 r.2.2
  | .wait s => .wait s
  | _ => .fail

/-! ### A host launch (R64) -/

/-- Outcome of a host launch: it waits for a page, or answers a status. -/
inductive HostLaunch where
  | wait (s : State)
  | status (code : Nat) (s : State)

/-- Read the image of a checked record and enter the grid. -/
def hostEnqueue (s : State) (r : LaunchRecord) (bufs : List Buffer) (arrs : List (Arrival × Nat)) (pts : Nat)
    (task : Option (Nat × Nat)) : HostLaunch :=
  let enter (s : State) (im : Option (List Nat)) : HostLaunch :=
    let (st, s) := enqueueGrid s r bufs arrs im pts task
    .status st s
  if r.map != 0xFF then enter s none
  else match readFor s r.sealId r.mapimg 2048 pts with
  | .wait s => .wait s
  | .fail => .status 4 s
  | .ok bs s =>
    let es := imageEntries bs
    if (tableCheckFrom 0 es).isSome then .status 2 s else enter s (some es)

/-- Launch a record for the host under a seal: BADFIELD, that of a declaration with it, then NOSEAL, NOREAD, BADMAP, QFULL.
A FREE seal has no address space to read declarations from (log entry 27). -/
def hostLaunch (s : State) (bs : List Byte) (sealId pts : Nat) (task : Option (Nat × Nat)) : HostLaunch :=
  let r := parseRecord bs
  let n := 8 * (r.nbuf + r.narr)
  let live := sealLive s r.sealId
  if (badField (recordChecks r bs)).isSome || r.sealId != sealId then .status 1 s
  else if (sealOf s r.sealId).state == 0 then .status 5 s
  else match (if n == 0 then .ok [] s else readFor s r.sealId r.decl n pts) with
  | .wait s => .wait s
  | .fail => .status (if live then 4 else 5) s
  | .ok ds s =>
    match parseDecls r ds with
    | .error _ => .status 1 s
    | .ok (bufs, arrs) => if live then hostEnqueue s r bufs arrs pts task else .status 5 s

/-! ### Graph images (R460) -/

/-- A field of `n` bytes of a memory. -/
def mfld (m : Memory) (a n : Nat) : Nat := leNat (Memory.readBytes m a n)

/-- NTASK, NBIND and NPARAM of an image. -/
def imgTasks (m : Memory) (a : Nat) : Nat := mfld m a 2
/-- NBIND. -/
def imgBinds (m : Memory) (a : Nat) : Nat := mfld m (a + 2) 2
/-- NPARAM. -/
def imgParams (m : Memory) (a : Nat) : Nat := mfld m (a + 4) 2
/-- Address of task `k`. -/
def imgTaskAt (m : Memory) (a k : Nat) : Nat := a + 64 + 8 * imgParams m a + 192 * k
/-- Binding `i`. -/
def imgBind (m : Memory) (a i : Nat) : Nat := mfld m (imgTaskAt m a (imgTasks m a) + 4 * i) 4
/-- PRED `i` of task `k`. -/
def imgPred (m : Memory) (a k i : Nat) : Nat := mfld m (imgTaskAt m a k + 128 + 2 * i) 2

/-- The offset of the first field that is not within its limits. -/
def firstBad (cs : List (Nat × Bool)) : Option Nat := (cs.find? (fun c => !c.2)).map (·.1)

/-- The fields of a header, by offset in the image (R460). -/
def headerChecks (m : Memory) (a : Nat) : List (Nat × Bool) :=
  let nt := imgTasks m a; let np := imgParams m a
  [(0, decide (1 ≤ nt) && decide (nt ≤ 1024)), (2, decide (imgBinds m a ≤ 4096)), (4, decide (np ≤ 1024) && np % 8 == 0),
    (6, mfld m (a + 6) 58 == 0)]

/-- The fields of task `k`. -/
def taskChecks (m : Memory) (a sealId k : Nat) : List (Nat × Bool) :=
  let t := imgTaskAt m a k
  (t - a + 84, mfld m (t + 84) 2 == sealId)
    :: (List.range 8).map (fun i => (t - a + 128 + 2 * i, imgPred m a k i == 0xFFFF || decide (imgPred m a k i < k)))
    ++ [(t - a + 144, mfld m (t + 144) 48 == 0)]

/-- Binding `i`. -/
def bindCheck (m : Memory) (a i : Nat) : Nat × Bool :=
  let b := imgBind m a i
  (imgTaskAt m a (imgTasks m a) - a + 4 * i, decide (fld b 0 10 < imgParams m a) && decide (fld b 10 10 < imgTasks m a) && fld b 24 8 == 0)

/-- The offset of the first field of an image of `len` bytes that breaks the limits of R460; `len` itself where the image's
parts do not fit in it (DESIGN CHOICE, log entry 124). -/
def imageBad (m : Memory) (a len sealId : Nat) : Option Nat :=
  let nt := imgTasks m a; let nb := imgBinds m a
  match firstBad (headerChecks m a) with
  | some o => some o
  | none =>
    if len < 64 + 8 * imgParams m a + 192 * nt + 4 * nb then some len
    else match (List.range nt).findSome? (fun k => firstBad (taskChecks m a sealId k)) with
    | some o => some o
    | none => firstBad ((List.range nb).map (bindCheck m a))

/-- The launch record of task `k` with the values bound to it. -/
def taskRecord (m : Memory) (a k : Nat) : List Byte :=
  (List.range (imgBinds m a)).foldl (fun r i =>
    let b := imgBind m a i
    if fld b 10 10 == k then
      let w := fld b 20 4
      r.take (8 * w) ++ Memory.readBytes m (a + 64 + 8 * fld b 0 10) 8 ++ r.drop (8 * w + 8)
    else r) (Memory.readBytes m (imgTaskAt m a k) 128)

/-! ### Runs (R461) -/

/-- Change a graph. -/
def modGraph (s : State) (g : Nat) (f : Graph → Graph) : State := modDev s (fun d => { d with graphs := kmod d.graphs g f })

/-- Launches, TRIGGER and SEALNEW commands are held until the host clears STBY (R21). -/
def standbyHolds (s : State) : Bool := s.dev.power.stby

/-- A run ends: its graph is idle, and with NOTIFY a record says how. -/
def endRun (s : State) (g : Nat) (r : GraphRun) (code value : Nat) : State :=
  let s := modGraph s g (fun x => { x with run := none })
  if r.notify then statusRecord s r.tag 2 code value else s

/-- The predecessors of a task have all completed. -/
def predsDone (m : Memory) (a k : Nat) (r : GraphRun) : Bool :=
  (List.range 8).all (fun i => imgPred m a k i == 0xFFFF || r.ended.contains (imgPred m a k i))

/-- Launch, in task order, each task from `k` on whose predecessors have completed; a launch that waits holds those
behind it. -/
def launchTasks (g k : Nat) : Nat → State → State
  | 0, s => s
  | fuel + 1, s =>
    match kget? s.dev.graphs g with
    | none => s
    | some x =>
      match x.run with
      | none => s
      | some r =>
        if r.launched.contains k || !predsDone s.sched x.off k r then launchTasks g (k + 1) fuel s
        else match hostLaunch s (taskRecord s.sched x.off k) x.sealId (Nat.max (topTime s) r.pts) (some (r.id, k)) with
        | .wait s => s
        | .status 0 s => launchTasks g (k + 1) fuel (modGraph s g (fun x => { x with run := some { r with launched := k :: r.launched } }))
        | .status c s => endRun s g r codeLaunchFail (c + k * 2 ^ 8)

/-- Take up one completed grid of a run. -/
def takeDone (s : State) (g : Nat) (d : TaskDone) : State :=
  match (kget? s.dev.graphs g).bind (·.run) with
  | none => s
  | some r =>
    if r.id != d.run then s
    else if d.status != 0 then endRun s g r codeLaunchFail (d.status + d.task * 2 ^ 8)
    else modGraph s g (fun x => { x with run := some { r with ended := d.task :: r.ended, pts := Nat.max r.pts d.pts } })

/-- A run whose tasks have all completed is DONE. -/
def finishRun (s : State) (g : Nat) : State :=
  match kget? s.dev.graphs g with
  | none => s
  | some x =>
    match x.run with
    | none => s
    | some r =>
      let n := imgTasks s.sched x.off
      if (List.range n).all r.ended.contains then endRun s g r codeDone n else s

/-- Carry one graph's run on. -/
def advanceGraph (s : State) (g : Nat) : State :=
  let n := ((kget? s.dev.graphs g).map (fun x => imgTasks s.sched x.off)).getD 0
  finishRun (launchTasks g 0 n s) g

/-- Take up completed grids, and carry every run on unless launches are held (R21, R461). -/
def advanceGraphs (s : State) : State :=
  let ds := s.tasksDone
  let ids := s.dev.graphs.map (·.1)
  let s := { s with tasksDone := [] }
  let s := ds.foldl (fun s d => ids.foldl (fun s g => takeDone s g d) s) s
  if standbyHolds s then ids.foldl finishRun s else ids.foldl advanceGraph s

end Sys2Proof.Machine
end

