-- ==== Sys2Proof/Machine/Context.lean ====
section
/-!
DEFINITION. The context record of an evicted thread: blocking points, wake conditions, and the 512 bytes (R75, R256,
R414, R416, R417).
-/
namespace Sys2Proof.Machine

/-! ### TSTAT (R414) -/

/-- TSTAT as read. -/
def TrapRegs.tstat (r : TrapRegs) : Nat :=
  b2n r.alost * 2 ^ 26 + r.tn % 16 * 2 ^ 21 + r.tcls % 8 * 2 ^ 18 + r.tword % 16 * 2 ^ 14 + b2n r.tactive * 2 ^ 13
    + b2n r.pmode * 2 ^ 12 + r.tsmap % 16 * 2 ^ 8 + r.tpred % 256

/-! ### Blocking points (R75, R188, R256) -/

/-- The number of the request to another package a parked thread awaits. -/
def remoteTag (th : Thread) : Option Nat :=
  th.flights.findSome? (fun f => match f.op with
    | .remote req _ _ _ => if f.dests.isEmpty then none else some req
    | _ => none)

/-- The wake code of the blocking point a thread stands at, with WAKEOP and WAKEGEN. -/
def wakeOf (th : Thread) : Option (Nat × Nat × Nat) :=
  match th.wait with
  | .barrier id gen => some (1, id % 16, gen)
  | .regroup .. => some (1, 16, 0)
  | .queue h _ => some (2, h % 512, 0)
  | .port q _ => some (2, q % 8 + 2 ^ 16, 0)
  | .park => (remoteTag th).map (fun r => (3, r, 0))
  | .away team => some (3, team, 0)
  | .fault addr => some (4, addr, 0)
  | .time t => some (5, t, 0)
  | .arrival _ _ gen _ addr => some (6, addr, gen)
  | .ray h _ => some (7, h, 0)
  | .halt => some (8, 0, 0)
  | _ => none

/-! ### The record (R416) -/

/-- MODE. -/
def modeByte (th : Thread) : Nat := b2n th.system + 2 * b2n th.trap.tactive + 4 * b2n (th.wait == .halt)

/-- MAP: 0 to 3, or 0xFF for an image. -/
def mapByte (th : Thread) : Nat :=
  match th.nextTable.getD th.table with
  | .map n => n % 4
  | .image _ => 0xFF

/-- The 512 bytes of a thread's record. -/
def recordBytes (th : Thread) : List Byte :=
  let w := (wakeOf th).getD (0, 0, 0)
  let rs := th.stack.reverse
  let t := th.trap
  (List.range 64).flatMap (fun r => leBytes 4 (th.reg r).toNat)
    ++ leBytes 8 (maskOf (th.regs.map (·.1))) ++ leBytes 8 (maskOf th.pend) ++ leBytes 8 (resumeWord th)
    ++ leBytes 8 th.meet.toNat ++ leBytes 8 th.pts ++ leBytes 4 th.fmt.toNat
    ++ (List.range 6).flatMap (fun i => leBytes 1 (th.counter i)) ++ leBytes 1 th.preds ++ leBytes 1 (modeByte th)
    ++ leBytes 1 rs.length ++ leBytes 1 (mapByte th) ++ leBytes 2 (th.held.length + b2n t.alost * 2 ^ 15)
    ++ leBytes 8 (th.image.getD 0)
    ++ (List.range 16).flatMap (fun i => leBytes 8 (nthD rs i 0)) ++ leBytes 4 th.spilled ++ leBytes 1 w.1
    ++ leBytes 1 t.cause ++ leBytes 2 th.gen ++ leBytes 8 w.2.1 ++ leBytes 4 w.2.2 ++ leBytes 4 t.tstat ++ leBytes 8 t.tpc
    ++ [t.info0, t.info1, t.info2, t.info3, t.save0, t.save1, t.save2, t.save3].flatMap (fun v => leBytes 4 v.toNat)

/-- Bytes of a decode table's image (R47). -/
def tableBytes (s : State) (th : Thread) : List Byte :=
  (List.range 1024).flatMap (fun i => leBytes 2 (tableEntry s (th.nextTable.getD th.table) i))

/-- Take the areas of the pool that a thread's eviction needs: its record, the image of a loaded table, and 512 bytes for
each of its rays (R357, R416); none where the pool has no room for all. -/
def takeAreas (s : State) (t : Nat) (th : Thread) : Option (Thread × State) :=
  match poolTake s th.sealId 512 with
  | none => none
  | some (a, s) =>
    let th := { th with record := a }
    match (if mapByte th == 0xFF then (poolTake s th.sealId 2048).map (fun r => ({ th with image := some r.1 }, r.2)) else some (th, s)) with
    | none => none
    | some (th, s) =>
      (s.rays.filter (fun p => p.2.owner == t)).foldl (fun r p => r.bind (fun x =>
        (poolTake x.2 th.sealId 512).map (fun y => (x.1, modRay y.2 p.1 (fun ray => { ray with save := some y.1 }))))) (some (th, s))

/-- Give back what `takeAreas` took. -/
def giveAreas (s : State) (t : Nat) (th : Thread) : State :=
  let s := poolGive? (poolGive s th.sealId th.record) th.sealId th.image
  (s.rays.filter (fun p => p.2.owner == t)).foldl (fun s p =>
    modRay (poolGive? s th.sealId p.2.save) p.1 (fun r => { r with save := none })) s

/-- Write a thread's record and, with a loaded table, its image (R417). -/
def saveRecord (s : State) (th : Thread) : State :=
  let s := storeDevice s th.record th.pts th.sealId (recordBytes th)
  match th.image with
  | some a => storeDevice s a th.pts th.sealId (tableBytes s th)
  | none => s

/-! ### Reading it back (R416, R417) -/

/-- The trap registers of a record; whether SKIP is still legal is kept with the context. -/
def TrapRegs.ofRecord (r : TrapRegs) (bs : List Byte) : TrapRegs :=
  let f := bfld bs
  let st := f 468 4
  let w (o : Nat) : Word := wordN (f o 4)
  { r with
    cause := f 453 1, tpc := f 472 8, info0 := w 480, info1 := w 484, info2 := w 488, info3 := w 492
    save0 := w 496, save1 := w 500, save2 := w 504, save3 := w 508, alost := r.alost || flag (f 310 2) 15, tn := fld st 21 4
    tcls := fld st 18 3, tword := fld st 14 4, tactive := flag st 13, pmode := flag st 12, tsmap := fld st 8 4
    tpred := fld st 0 8 }

/-- The clause a record's RESUME names: none at a header. Its words are fetched again (R29, R30). -/
def resumeClause (r : Nat) : Option Clause :=
  if fld r 52 4 = 0 then none
  else some { header := 0, cls := fld r 56 3, n := fld r 59 4, words := [], resumed := true }

/-- The table that governs, and the one that waits for the next header, of a thread that comes back with a table of its
record: in the rest of a clause that has loaded one, the old table still governs (R47). -/
def Thread.tablesBack (th : Thread) (word : Nat) (t : DecodeTable) : DecodeTable × Option DecodeTable :=
  if word != 0 && th.nextTable.isSome then (th.table, some t) else (t, none)

/-- A thread as its record holds it, with the image its DTIMG names; what the record leaves to the team's save area, and
the wait it stands in, is as it was (R416, R417). -/
def Thread.ofRecord (th : Thread) (bs img : List Byte) : Thread :=
  let f := bfld bs
  let resume := f 272 8
  let tables := th.tablesBack (fld resume 52 4) (if f 309 1 == 0xFF then .image (imageEntries img) else .map (f 309 1 % 4))
  { th with
    regs := (List.range 64).filterMap (fun r => if (f 256 8).testBit r then some (r, wordN (f (4 * r) 4)) else none)
    pend := (List.range 64).filter (f 264 8).testBit
    pc := fld resume 0 52, word := fld resume 52 4, clause := resumeClause resume, ext := {}
    meet := BitVec.ofNat 64 (f 280 8), pts := f 288 8, fmt := wordN (f 296 4)
    ec := (List.range 6).map (fun i => (i, f (300 + i) 1)), preds := f 306 1, sysMode := flag (f 307 1) 0
    stack := ((List.range (f 308 1)).map (fun i => f (320 + 8 * i) 8)).reverse, spilled := f 448 4
    table := tables.1, nextTable := tables.2
    gen := f 454 2, trap := th.trap.ofRecord bs }

/-- A thread's context read back from its record, which meets the errors injected there (R417, R437). -/
def readRecord (s : State) (th : Thread) : Thread × State :=
  let bs := Memory.readBytes s.mem th.record 512
  let img := bfld bs 312 8
  let s := met s (.glob th.record) 512
  (th.ofRecord bs (Memory.readBytes s.mem img 2048), if bfld bs 309 1 == 0xFF then met s (.glob img) 2048 else s)

end Sys2Proof.Machine
end

