-- ==== Sys2Proof/Machine/Matrix.lean ====
section
/-!
DEFINITION. The tile and matrix instructions and the completion of their operations (R293 to R318).
-/
namespace Sys2Proof.Machine

/-! ### Issue -/

/-- Enter an operation whose word has passed its checks; held while the core's sequencer has 32 (R296). -/
def mtxIssue (k : Ctx) (s : State) (o : MtxOp) (ec : Nat) (dests : List Nat) (op : Nat → FlightOp) : Except Stop Eff :=
  if 32 ≤ (coreMtx s (coreOf s k.th)).length then .error (.held (holdAt k.s k.t))
  else
    let (id, s) := enterMtx s o
    .ok { st := s, launch := some { ec := ec, dests := dests, op := op id } }

/-- An operation of this thread. -/
def Ctx.mtx (k : Ctx) (kind : MtxKind) (reads writes : List Res) : MtxOp :=
  { team := k.th.team, quad := k.th.gid / 4, kind := kind, parts := [k.t], reads := reads, writes := writes
    sealId := k.th.sealId, pts := k.th.pts, iw := k.iw }

/-- Tile or bitmap registers of the thread's group. -/
def Ctx.granted (k : Ctx) : Nat := (k.team.map (fun tm => tm.granted k.th.gid)).getD 0

/-- TILE_FORMAT for registers of the thread's own group. -/
def Ctx.tileFault (k : Ctx) (reg operand span fmt : Nat) : Stop :=
  tileFormat (Nat.max reg k.granted) (k.th.gid % 4) operand span false fmt k.iw

/-- A register resource of the thread's group. -/
def Ctx.regRes (k : Ctx) (bmp : Bool) (i : Nat) : Res := if bmp then .bmp k.th.gid i else .tile k.th.gid i

/-! ### Loads and stores (R308, R317) -/

/-- Steps 1 and 2 of R209. -/
def stepsOneTwo (k : Ctx) (addr : Nat) (write : Bool) (wins : List Nat) : Option Stop :=
  match windowFault addr with
  | some r => some (accessViolation r addr k.iw)
  | none =>
    if write && selector addr == 0xF3 && !wins.contains 0xF3 && wins.contains 0xF2 then
      some (.trap causeWeightWrite (loW addr) (hiW addr) 0 k.iw)
    else if !wins.contains (selector addr) then some (accessViolation 3 addr k.iw)
    else none

/-- Windows of tile loads and stores. -/
def tileLoadWindows : List Nat := [0x00, 0xE0, 0xF0, 0xF1, 0xF2, 0xF3]
/-- Windows of tile stores. -/
def tileStoreWindows : List Nat := [0x00, 0xE0, 0xF0, 0xF1, 0xF2]

/-- The range at another package that the accesses of one operation make up. -/
def remoteSpan (as_ : List Access) : Option (Nat × Nat × Nat) :=
  match as_ with
  | { loc := .remote p off, .. } :: _ => some (p, off, as_.foldl (fun n a => n + a.len) 0)
  | _ => none

/-- Send the memory side of an operation: here as one flight, or as a request to another package. -/
def sendTile (k : Ctx) (o : MtxOp) (as_ : List Access) (load : Bool) : Except Stop Eff :=
  if memHeld k.th then .error (.held (holdAt k.s k.t))
  else if rangeRemote as_ && orderWaits k.s k.th then .error (.held (holdAt k.s k.t))
  else
    let s := if rangeRemote as_ then flush k.s k.t else noteGridRegionOf k.s k.th as_
    (mtxIssue k s { o with accs := as_ } 3 [] (fun id => if load then .mload as_ id else .mstore as_ id)).map (fun e =>
      match remoteSpan as_, load, e.launch with
      | some (p, off, n), true, some { op := .mload _ id, .. } =>
        { e with st := (openRemote e.st (.matrix id) k.th.sealId p off n (ptsOf e.st k.t) [] none true).2 }
      | _, _, _ => e)
where
  noteGridRegionOf (s : State) (th : Thread) (as_ : List Access) : State := as_.foldl (fun s a => noteRegion s th a) s

/-- KLD, KST, KBLD and KBST (R308). -/
def tileBody (bmp load : Bool) (t a : BitVec 6) (k : Ctx) : Except Stop Eff :=
  let addr := k.addrM a
  let wins := if load then tileLoadWindows else tileStoreWindows
  match stepsOneTwo k addr (!load) wins with
  | some e => .error e
  | none =>
    if k.granted ≤ t.toNat then .error (k.tileFault t.toNat (if load then 4 else 5) 1 0)
    else match checkRange k.s k.t k.th k.iw addr (if bmp then 1024 else 2048) 128 (if load then .load else .store) false wins true with
    | .error e => .error e
    | .ok as_ =>
      let r := k.regRes bmp t.toNat
      let o := if load then k.mtx (.load bmp k.th.gid t.toNat) [] [r] else k.mtx (.store bmp k.th.gid t.toNat) [r] []
      sendTile k o as_ load

/-- KLD (R308). -/
def execKld (sw : Bool) (t a : BitVec 6) (x : Bool) (s : State) : Host.Outcome State Fault Refusal :=
  issue (.kld sw t a x) [srcPair a x] (tileBody false true t a) s

/-- KST (R308). -/
def execKst (sw : Bool) (t a : BitVec 6) (x : Bool) (s : State) : Host.Outcome State Fault Refusal :=
  issue (.kst sw t a x) [srcPair a x] (tileBody false false t a) s

/-- KBLD (R308). -/
def execKbld (sw : Bool) (t a : BitVec 6) (x : Bool) (s : State) : Host.Outcome State Fault Refusal :=
  issue (.kbld sw t a x) [srcPair a x] (tileBody true true t a) s

/-- KBST (R308). -/
def execKbst (sw : Bool) (t a : BitVec 6) (x : Bool) (s : State) : Host.Outcome State Fault Refusal :=
  issue (.kbst sw t a x) [srcPair a x] (tileBody true false t a) s

/-- ACCSPL and ACCFIL (R317). -/
def bankMemBody (load : Bool) (a : BitVec 6) (bank : Bool) (k : Ctx) : Except Stop Eff :=
  let l := b2n bank
  match checkRange k.s k.t k.th k.iw (k.g64 a) 32768 128 (if load then .load else .put) false [0x00, 0xF0] true with
  | .error e => .error e
  | .ok as_ =>
    let r : Res := .bank (k.th.gid / 4) l
    sendTile k (if load then k.mtx (.fill l) [] [r] else k.mtx (.spill l) [r] []) as_ load

/-- ACCSPL (R317). -/
def execAccspl (sw : Bool) (a : BitVec 6) (kb x : Bool) (s : State) : Host.Outcome State Fault Refusal :=
  issue (.accspl sw a kb x) [srcPair a x] (bankMemBody false a kb) s

/-- ACCFIL (R317). -/
def execAccfil (sw : Bool) (a : BitVec 6) (kb x : Bool) (s : State) : Host.Outcome State Fault Refusal :=
  issue (.accfil sw a kb x) [srcPair a x] (bankMemBody true a kb) s

/-! ### Zeroing, conversion and bitmaps (R309 to R312) -/

/-- An operation without memory. -/
def unitIssue (k : Ctx) (o : MtxOp) : Except Stop Eff := mtxIssue k k.s o 3 [] .unit

/-- KZERO (R309). -/
def execKzero (sw : Bool) (d : BitVec 6) (n : BitVec 2) (m : Bool) (s : State) : Host.Outcome State Fault Refusal :=
  issue (.kzero sw d n m) []
    (fun k =>
      let span := n.toNat + 1
      if m && span != 1 then .error (k.illegal 3)
      else if k.granted < d.toNat + span then .error (k.tileFault d.toNat 4 span 0)
      else unitIssue k (k.mtx (.zero m k.th.gid d.toNat span) []
        (if m then [.bmp k.th.gid d.toNat] else tileRes k.th.gid d.toNat span))) s

/-- KCVT's format-word check (R311). -/
def kcvtOk (w : Nat) : Bool :=
  decide (fwA w ≤ 9) && decide (fwR w ≤ 8) && decide (fwMode w ≤ 5) && fwB w == 0 && fld w 16 8 == 0

/-- Elements of an image of row length `kc`: rows of an A image, or columns of a B image (R310). -/
def rowLenOf (kc : Nat) (b : Bool) : Nat := if b then kc / 4 else kc

/-- Bytes of an image of 16·Kc elements in a format. -/
def imageSize (code kc : Nat) (b : Bool) : Nat := 16 * kc / rowLenOf kc b * imageBytes code (rowLenOf kc b)

/-- KCVT (R311). -/
def kcvtBody (d a b : BitVec 6) (m : Bool) (k : Ctx) : Except Stop Eff :=
  let w := (k.g b).toNat
  if !kcvtOk w then .error (k.illegal 3)
  else
    let kc := Nat.max (kFor (fwA w)) (kFor (fwR w))
    let sn := spanOf (imageSize (fwA w) kc m); let dn := spanOf (imageSize (fwR w) kc m)
    if k.granted < a.toNat + sn then .error (k.tileFault a.toNat 5 sn w)
    else if k.granted < d.toNat + dn then .error (k.tileFault d.toNat 4 dn w)
    else match spanOverlap a.toNat sn d.toNat dn with
    | some t => .error (tileFormat t (k.th.gid % 4) 4 dn true w k.iw)
    | none => unitIssue k (k.mtx (.cvt k.th.gid d.toNat a.toNat m w (k.th.reg (b.toNat + 1)) (k.mode (fwMode w)))
        (tileRes k.th.gid a.toNat sn) (tileRes k.th.gid d.toNat dn))

/-- KCVT (R311). -/
def execKcvt (sw : Bool) (d a b : BitVec 6) (y m : Bool) (s : State) : Host.Outcome State Fault Refusal :=
  issue (.kcvt sw d a b y m) [srcPair b y] (kcvtBody d a b m) s

/-- KBMP (R312). -/
def execKbmp (sw : Bool) (d a b : BitVec 6) (y m : Bool) (s : State) : Host.Outcome State Fault Refusal :=
  issue (.kbmp sw d a b y m) [src b y]
    (fun k =>
      let c := (k.g b).toNat
      if 8 < c then .error (k.illegal 3)
      else
        let sn := spanOf (imageSize c (kFor c) m)
        if k.granted < a.toNat + sn then .error (k.tileFault a.toNat 5 sn 0)
        else if k.granted ≤ d.toNat then .error (k.tileFault d.toNat 4 1 0)
        else unitIssue k (k.mtx (.bmp k.th.gid d.toNat a.toNat m c) (tileRes k.th.gid a.toNat sn) [.bmp k.th.gid d.toNat])) s

/-! ### Matrix ops (R313, R314) -/

/-- The octet of registers at a base, low bytes first. -/
def Thread.octet (th : Thread) (r : Nat) : List Byte := (List.range 8).flatMap (fun i => leBytes 4 (th.reg (r + i)).toNat)

/-- MMAE's block bytes (R313). -/
def mmaeBytes (k : Ctx) (a : BitVec 6) (m : Bool) : Except Stop (List Byte × State) :=
  if !m then .ok (k.th.octet a.toNat, k.s)
  else if orderWaits k.s k.th then .error (.held (holdAt k.s k.t))
  else match checkAccess k.s k.t k.th k.iw (k.g64 a) 32 32 .load false [0xF0] false with
    | .error e => .error e
    | .ok acc => .ok (readNow k.s k.t [acc])

/-- MMAE (R313). -/
def execMmae (sw : Bool) (a : BitVec 6) (x m : Bool) (s : State) : Host.Outcome State Fault Refusal :=
  issue (.mmae sw a x m) [⟨a.toNat, if m then 2 else 8, x⟩]
    (fun k => match k.team with
      | none => .error (.held k.s)
      | some tm =>
        if !tm.quad then .error (k.illegal 3)
        else match mmaeBytes k a m with
        | .error e => .error e
        | .ok (bs, s) => match blockCheck k tm bs with
          | .error e => .error e
          | .ok b =>
            let o := k.mtx (.mma b) (mmaReads (k.th.gid / 4) b) [.bank (k.th.gid / 4) b.bank]
            mtxIssue k s { o with pts := ptsOf s k.t } b.ec [] .unit) s

/-- MMAC (R314): arrives at its ligature with its format word and block. -/
def execMmac (sw : Bool) (d a b : BitVec 6) (x y m : Bool) (s : State) : Host.Outcome State Fault Refusal :=
  issue (.mmac sw d a b x y m) [src a x, ⟨b.toNat, if m then 2 else 8, y⟩]
    (fun k =>
      if !k.member d.toNat then .error (notMember d.toNat)
      else if orderWaits k.s k.th then .error (.held (holdAt k.s k.t))
      else
        let more := (List.range (if m then 2 else 8)).map (fun i => k.th.reg (b.toNat + i))
        let w : Wait := .rendezvous d.toNat 0x308 0 0 (k.g a) m more (freesOf [src a x, ⟨b.toNat, if m then 2 else 8, y⟩])
        .ok { st := k.s, flow := .done, after := fun s => arriveLig s k.t k.th d.toNat w }) s

/-! ### Banks (R315, R316, R318) -/

/-- ACCZ (R315). DESIGN CHOICE (log 189): a thread of a team without QUAD uses the bank context of its quad, gid / 4, here and in
ACCRD.r, ACCSPL, ACCFIL and MQRY. -/
def execAccz (sw kb : Bool) (s : State) : Host.Outcome State Fault Refusal :=
  issue (.accz sw kb) [] (fun k => unitIssue k (k.mtx (.accz (b2n kb)) [] [.bank (k.th.gid / 4) (b2n kb)])) s

/-- The words of ACCRD meet R316. -/
def accrdOk (w c : Nat) (m : Bool) : Bool :=
  fld w 19 5 == 0 && rfmtOk (fwR w) && decide (fwMode w ≤ 5)
    && fld c 22 10 == 0 && fld c 14 2 == 0 && fld c 4 4 == 0
    && (if m then fld c 1 2 == 0 else fld c 16 6 == 0 && fld c 8 6 == 0)

/-- ACCRD (R316). -/
def accrdBody (d a b : BitVec 6) (m : Bool) (k : Ctx) : Except Stop Eff :=
  let w := (k.g a).toNat; let c := (k.g b).toNat
  if !accrdOk w c m then .error (k.illegal 3)
  else
    let q := k.th.gid / 4
    let l := fld c 0 1; let sat := flag c 3
    let mode := k.mode (fwMode w)
    if m then
      mtxIssue k k.s (k.mtx (.accrdReg (fld c 8 6) (fld c 16 6) w sat l mode) [.bank q l] []) 3 [d.toNat] .unit
    else
      let n := fld c 1 2 + 1
      let span := spanOf (16 * 16 * n * (widthOfCode (fwR w) / 8))
      match k.team with
      | none => .error (.held k.s)
      | some tm =>
        match (List.range 4).find? (fun i => decide (tm.granted (4 * q + i) < d.toNat + span)) with
        | some i => .error (tileFormat (Nat.max d.toNat (tm.granted (4 * q + i))) i 4 span false w k.iw)
        | none =>
          unitIssue k (k.mtx (.accrd d.toNat w n sat l mode) [.bank q l]
            ((List.range 4).flatMap (fun i => tileRes (4 * q + i) d.toNat span)))

/-- ACCRD (R316). -/
def execAccrd (sw : Bool) (d a b : BitVec 6) (x y m : Bool) (s : State) : Host.Outcome State Fault Refusal :=
  issue (.accrd sw d a b x y m) [src a x, src b y] (accrdBody d a b m) s

/-- Tiles of a group with an operation not complete, as a mask. -/
def tileMask (ops : List MtxOp) (gid : Nat) (f : MtxOp → List Res) : Nat :=
  (List.range 8).foldl (fun v i => v + b2n (ops.any (fun o => (f o).contains (.tile gid i))) * 2 ^ i) 0

/-- MQRY's answer for SEL 0 (R318). -/
def mqryWord (s : State) (th : Thread) (tm : Team) : Nat :=
  let q := th.gid / 4
  let ops := (s.mtx.filter (fun p => p.2.team == th.team)).map (·.2)
  let c := core s tm.core
  let held (l : Nat) : Bool := holds c.set0 th.team (2 * q + l) || holds c.set1 th.team (2 * q + l)
  let fills := (List.range 8).foldl (fun v i => v ||| b2n (tm.openFills.any (fun f => f.gid == th.gid && f.k == i)) * 2 ^ i) 0
  Nat.min 32 (ops.filter (fun o => o.quad == q)).length + b2n (held 0) * 2 ^ 8 + b2n (held 1) * 2 ^ 9
    + b2n (tm.bank q 0).spilled * 2 ^ 10 + b2n (tm.bank q 1).spilled * 2 ^ 11
    + (tileMask ops th.gid (·.writes) ||| fills) * 2 ^ 16 + tileMask ops th.gid (·.reads) * 2 ^ 24

/-- MQRY (R318). -/
def execMqry (sw : Bool) (d a : BitVec 6) (x : Bool) (s : State) : Host.Outcome State Fault Refusal :=
  issue (.mqry sw d a x) [src a x]
    (fun k =>
      let v := (k.g a).toNat
      match k.team with
      | none => .error (.held k.s)
      | some tm =>
        if 32 ≤ (coreMtx k.s (coreOf k.s k.th)).length then .error (.held (holdAt k.s k.t))
        else if v == 0 then retLater k 3 d [wordN (mqryWord k.s k.th tm)]
        else if v == 1 || v == 17 then retLater k 3 d [(tm.bank (k.th.gid / 4) (v / 16)).seed]
        else .error (k.illegal 3)) s

/-! ### Completion -/

/-- An operation is complete: its counters fall, what it did waits to be acquired (R305), and words that wait for room are
judged again. -/
def finishMtx (s : State) (id : Nat) (o : MtxOp) : State :=
  let s := { s with mtx := kdel s.mtx id }
  let s := o.parts.foldl (fun s t => match unitFlight s t id with
    | some f => replyToRecord (modThread s t (fun th => th.unitDone f o.pts)) t []
    | none => s) s
  rejudgeCore (settleHeirs s) (((team? s o.team).map (·.core)).getD 0)

/-- The bytes a load of an ended thread brings, once nothing comes before it (R305). -/
def orphanBytes (s : State) (o : MtxOp) : Option (List Byte) × State :=
  if orphanWaits s o || o.accs.any (accessRefreshing s) then (none, s)
  else
    let c := ((team? s o.team).map (·.core)).getD 0
    let (bs, _, s) := if o.taken.isEmpty then loadRange s c o.pts o.sealId o.accs else readLeft s c o.pts o.sealId o.accs o.taken
    (some bs, s)

/-- The bytes a load brings: read now where they are not read yet and the order allows. -/
def loadedBytes (s : State) (id : Nat) (o : MtxOp) : Option (List Byte) × State :=
  match o.data with
  | some bs => (some bs, s)
  | none =>
    if rangeRemote o.accs then (none, s)
    else match o.parts with
    | t :: _ => (match thread? s t, unitFlight s t id with
      | some th, some f =>
        if mayPerform th f && !inRefresh s f then
          let s := performFlight s t f none
          ((kget? s.mtx id).bind (·.data), s)
        else (none, s)
      | _, _ => orphanBytes s o)
    | [] => (none, s)

/-- The store of an operation, where the order allows: none while it waits; the bytes a split has stored are left out
(R308). -/
def storeTile (s : State) (id : Nat) (o : MtxOp) (bs : List Byte) : Option State :=
  let remote (pts : Nat) : Option State := match remoteSpan o.accs with
    | some (p, off, n) =>
      if o.sent then none
      else some (modMtx (openRemote s (.matrix id) o.sealId p off n pts bs none true).2 id (fun o => { o with sent := true }))
    | _ => none
  match o.parts with
  | [] => none
  | t :: _ => match thread? s t, unitFlight s t id with
    | some th, some f =>
      if !mayPerform th f then none
      else if rangeRemote o.accs then remote th.pts
      else
        let (p, s) := if f.parts.isEmpty then storeRange s th.pts th.sealId o.accs bs else writeLeft s th.pts th.sealId o.accs bs f.parts
        some (finishMtx (modThread s t (fun th => th.takePts p)) id o)
    | _, _ =>
      if orphanWaits s o then none
      else if rangeRemote o.accs then remote o.pts
      else
        let (p, s) := if o.taken.isEmpty then storeRange s o.pts o.sealId o.accs bs else writeLeft s o.pts o.sealId o.accs bs o.taken
        some (finishMtx (noteEndPts s o.team p) id o)

/-- The image KBMP writes: bit i is 1 where element i is not a zero (R312). -/
def bmpImage (x : Nat → FVal) (n : Nat) : List Byte :=
  (List.range 1024).map (fun j => BitVec.ofNat 8 ((List.range 8).foldl (fun v i =>
    v + b2n (decide (8 * j + i < n) && !(x (8 * j + i)).isZero) * 2 ^ i) 0))

/-- A bank's pair read for ACCRD (R316). -/
def accRead (b : Bank) (row col fmt : Nat) (sat : Bool) (mode : Nat) : Nat :=
  let p (i : Nat) : Nat := leNat (Memory.readBytes b.img (pairAt row col + i) 4)
  (readPair (p 0) (p 4) (fwR fmt) mode sat (fwBias fmt) ⟨b.seed, 64 * row + col⟩).1

/-- ACCRD's image of one quadrant. -/
def accImage (b : Bank) (q fmt n : Nat) (sat : Bool) (mode : Nat) : List Byte :=
  (List.range 16).flatMap (fun r => (List.range (16 * n)).flatMap (fun c =>
    leBytes (widthOfCode (fwR fmt) / 8) (accRead b (16 * q + r) c fmt sat mode)))

/-- Perform an operation whose turn has come, and complete it; one whose memory access must wait stays. -/
def performMtx (s : State) (id : Nat) (o : MtxOp) (tm : Team) : State :=
  let upd (f : Team → Team) : State := finishMtx (modTeam s o.team f) id o
  match o.kind with
  | .load bmp gid k => (match loadedBytes s id o with
    | (some bs, s) => finishMtx (modTeam s o.team (fun tm => tm.setReg bmp gid k bs)) id o
    | (none, s) => s)
  | .fill l => (match loadedBytes s id o with
    | (some bs, s) => finishMtx (modTeam s o.team (fun tm => tm.modBank o.quad l (fun b => { b with img := memOf 0 bs }))) id o
    | (none, s) => s)
  | .store bmp gid k => (storeTile s id o (tm.regBytes bmp gid k)).getD s
  | .spill l => (storeTile s id o (Memory.readBytes (tm.bank o.quad l).img 0 32768)).getD s
  | .zero bmp gid k span =>
    if bmp then upd (fun tm => tm.setBmp gid k (memOf 0 (List.replicate 1024 255)))
    else upd (fun tm => (range k span).foldl (fun tm i => tm.setTile gid i []) tm)
  | .cvt gid dst src b fmt seed mode =>
    let kc := Nat.max (kFor (fwA fmt)) (kFor (fwR fmt))
    let x (i : Nat) : FVal := elementAt (tm.imgByte gid src) (fwA fmt) (rowLenOf kc b) i
    upd (fun tm => tm.setImage gid dst (cvtImage x (16 * kc) fmt mode seed))
  | .bmp gid dst src b code =>
    let x (i : Nat) : FVal := elementAt (tm.imgByte gid src) code (rowLenOf (kFor code) b) i
    upd (fun tm => tm.setBmp gid dst (memOf 0 (bmpImage x (16 * kFor code))))
  | .accz l => upd (fun tm => tm.modBank o.quad l (fun b => { b with img := [], seed := 0 }))
  | .accrd k fmt n sat l mode =>
    let b := tm.bank o.quad l
    upd (fun tm => (List.range 4).foldl (fun tm q => tm.setImage (4 * o.quad + q) k (accImage b q fmt n sat mode)) tm)
  | .accrdReg row col fmt sat l mode =>
    let v := accRead (tm.bank o.quad l) row col fmt sat mode
    let w := if fwR fmt == 8 then word (sx v 8) else wordN v
    let s := o.parts.foldl (fun s t => match unitFlight s t id with
      | some f => deliverFlight s t f [w]
      | none => s) s
    finishMtx s id o
  | .mma _ => s

/-- The op of a number on a core, with its team, where its turn has come. -/
def readyOp (s : State) (c id : Nat) : Option (MtxOp × Team) :=
  (kget? s.mtx id).bind (fun o => (team? s o.team).bind (fun tm =>
    if tm.core == c && !tm.evicted && mtxReady s id o then some (o, tm) else none))

/-- MTX_OPERATION_COMPLETE (R296). -/
def execMtxOperationComplete (c id : Nat) (s : State) : Host.Outcome State Fault Refusal :=
  .next (match readyOp s c id with
    | some (o, tm) => performMtx s id o tm
    | none => s)

/-- MATRIX_NAN of an op, to its first thread that has not ended (R302). -/
def matrixNan (s : State) (o : MtxOp) (b : MmaBlock) (os : List (Nat × Nat × Acc)) : State :=
  match (if fwNanTrap b.fmt then firstNan os else none), o.parts.find? (fun t => (thread? s t).isSome) with
  | some (k, n, m), some t =>
    raiseAsync s t causeMatrixNan [wordN (m / 16 * 2 ^ 16 + m * 2 ^ 8 + n), wordN k, wordN b.fmt, wordN b.tag]
  | _, _ => s

/-- A matrix op runs and completes (R313). -/
def completeMma (s : State) (id : Nat) (o : MtxOp) (tm : Team) (b : MmaBlock) : State :=
  let os := mmaOutputs tm o.quad b
  let s := modTeam s o.team (fun tm => tm.modBank o.quad b.bank (fun k => { k with img := mmaImage k.img os, seed := b.seed }))
  let s := match (if b.aen then tm.arrivals.find? (fun a => a.idx == b.aidx) else none) with
    | some a => arrivalAdd s o.team a.off 1 o.pts
    | none => s
  matrixNan (finishMtx s id o) o b os

/-- MATRIX_OP_COMPLETION (R302, R305, R313). -/
def execMatrixOpCompletion (c id : Nat) (s : State) : Host.Outcome State Fault Refusal :=
  .next (match readyOp s c id with
    | some (o, tm) => (match o.kind with
      | .mma b => completeMma s id o tm b
      | _ => s)
    | none => s)

/-- The oldest operation of a core that waits for a set: number, team and bank. -/
def waitingBank (s : State) (c : Nat) (one : Bool) : Option (Nat × Nat × Nat) :=
  (coreMtx s c).findSome? (fun p =>
    if bankServed s p.2 || p.2.onSet != some one then none else p.2.bank?.map (fun k => (p.1, p.2.team, k)))

/-- The operation that waits longest for a set takes it, where it is free. -/
def serveSet (s : State) (c : Nat) (one : Bool) : State :=
  match ((core s c).bankSet one).holder, waitingBank s c one with
  | none, some (id, team, key) => if setLost s c one then s else assignSet s c one team key id
  | _, _ => s

/-- Operations that wait for a bank set are served where theirs is free. -/
def serveWaiting (s : State) (c : Nat) : State := serveSet (serveSet s c false) c true

/-- BANK_SPILL (R303): the bank a set holds is spilled for the operation that waits for the set, once no operation on the
bank is incomplete. -/
def execBankSpill (c set : Nat) (s : State) : Host.Outcome State Fault Refusal :=
  .next (
    let one := set % 2 == 1
    match ((core s c).bankSet one).holder, waitingBank s c one with
    | some (t, key), some _ =>
      if s.mtx.any (fun p => p.2.team == t && p.2.bank? == some key) then s
      else serveSet (modCore (spillBank s t key) c (fun k => k.modSet one (fun b => { b with holder := none }))) c one
    | _, _ => s)

end Sys2Proof.Machine
end

