-- ==== Sys2Proof/Machine/Feed.lean ====
section
/-!
DEFINITION. The feed engine: FDSTART, FDSTOP, FDSTAT and the access-slice words (R282 to R292).
-/
namespace Sys2Proof.Machine

/-- Key of a feed context. -/
def feedKey (c x : Nat) : Nat := 8 * c + x

/-- Change a feed context. -/
def modFeed (s : State) (k : Nat) (f : Feed → Feed) : State := { s with feeds := kmod s.feeds k f }

/-- The context is in one of its running states (R291). -/
def Feed.running (f : Feed) : Bool := decide (f.state ≤ 3)

/-! ### The end of a context (R287, R290) -/

/-- Reservations, fills and readings of a context lapse, and it stands in a final state. -/
def endFeed (s : State) (k : Nat) (f : Feed) (state : Nat) : State :=
  let s := modTeam s f.team (fun tm =>
    let left := f.reserved.foldl (fun m p => kset m (gkey f.gid p.1) (kgetD m (gkey f.gid p.1) 0 - p.2)) tm.portReserved
    { tm with openFills := tm.openFills.filter (fun x => x.feed != f.id), portReserved := left })
  let s := f.reads.foldl (fun s b => endRead s b.1 b.2 f.id) s
  modFeed s k (fun f => { f with state := state, reads := [], reserved := [], remote := none, got := none })

/-! ### Addresses and reads (R285) -/

/-- Addr(s). -/
def Feed.addr (f : Feed) (st : Nat) : Nat :=
  let d := f.loops.length
  wrap ((f.loops.zipIdx).foldl (fun a p => a + kgetD f.strides (4 * st + (d - 1 - p.2)) 0 * (p.1.i : Int)) (nthD f.bases st 0 : Int)) 64

/-- The endpoint an address names for a context, or none where it faults. -/
def feedEnd (s : State) (f : Feed) (addr n : Nat) : Option End :=
  if (windowFault addr).isSome || addr % n != 0 then none
  else match team? s f.team with
  | none => none
  | some tm =>
    let sel := selector addr; let off := fld addr 0 18
    if sel == 0x00 || sel == 0xE0 then some (.glob addr)
    else if sel == 0xF3 then some (.weight (fld addr 0 30))
    else if sel == 0xF0 then (if off + n ≤ tm.spadSize then some (.spad f.team off) else none)
    else if sel == 0xF1 then
      (teamOfHandle s tm (fld addr 18 14)).bind (fun p => if off + n ≤ p.2.spadSize then some (.spad p.1 off) else none)
    else none

/-- Buffers an endpoint lies in, to count as read (R287). -/
def endBuffer (s : State) (e : End) : List (Nat × Nat) :=
  match e with
  | .spad t off => (((team? s t).bind (fun tm => tm.bufferAt off)).map (fun b => (t, b.idx))).toList
  | _ => []

/-- A page that a context reads waits for the host (R182). -/
def faultHeld (s : State) (st sealId va : Nat) : Bool :=
  (station s st).faults.any (fun f => f.sealId == sealId && f.va / 2 ^ 16 == va / 2 ^ 16)

/-- State code of a read that waits: a buffer's state is a permit, a page may wait for the host, and any other wait
leaves the context running (R291). -/
def holdCode (s : State) (c sealId : Nat) (e : End) : Nat :=
  match e with
  | .glob a => if faultHeld s (stationOf c) sealId (a % 2 ^ 44) || faultHeld s (stationOf c) sealId a then 3 else 1
  | .spad t _ => if ((team? s t).map (·.evicted)).getD true then 1 else 2
  | .weight _ => 1

/-- What a read of a context comes to: its bytes, or the state in which it holds, faults or waits. DESIGN CHOICE (log
173): a page that is absent and not the host's ends the context with FAULT. -/
def feedRead (s : State) (c k : Nat) (f : Feed) (addr n : Nat) : Option (List Byte) × State :=
  match f.got with
  | some bs => (some bs, modFeed s k (fun f => { f with got := none }))
  | none =>
    match feedEnd s f addr n with
    | none => (none, endFeed s k f 7)
    | some e =>
      let hold (code : Nat) (s : State) : Option (List Byte) × State := (none, modFeed s k (fun f => { f with state := code }))
      match engineAccess s (stationOf c) f.sealId e n .load with
      | .wait s => hold (holdCode s c f.sealId e) s
      | .fail _ => (none, endFeed s k f 7)
      | .drop => (none, endFeed s k f 7)
      | .ok as_ s =>
        match remoteSpan as_ with
        | some (p, off, n) =>
          let (r, s) := openRemote s (.feed c (k % 8)) f.sealId p off n f.pts [] none true
          (none, modFeed s k (fun f => { f with remote := some r, state := 1 }))
        | none =>
          let s := beginRead (noteGridRegion s f.team as_) e f.id
          let (bs, p, s) := loadRange s c f.pts f.sealId as_
          (some bs, modFeed s k (fun f =>
            { f with pts := Nat.max f.pts p, reads := (endBuffer s e).foldl (fun l b => if l.contains b then l else l ++ [b]) f.reads }))

/-! ### One word of a context -/

/-- The next word. -/
def Feed.next (f : Feed) : Feed := { f with at_ := f.at_ + 1, state := 1, elem := 0 }

/-- Run an access-slice word for the current context; `loopWord` words act while a loop is skipped. -/
def feedIssue (loopWord : Bool) (body : State → Nat → Nat → Feed → State) (s : State) : Host.Outcome State Fault Refusal :=
  match s.curFeed with
  | none => .fault .noFeed
  | some (c, x) =>
    let k := feedKey c x
    match kget? s.feeds k with
    | none => .fault .noFeed
    | some f =>
      .next (if !f.running || f.remote.isSome then s
        else if f.skip != 0 && !loopWord then modFeed s k Feed.next
        else body s c k f)

/-- The state becomes BADWORD (R285). -/
def badWord (s : State) (k : Nat) (f : Feed) : State := endFeed s k f 6

/-- FLOOP (R285). -/
def execFloop (src p : BitVec 2) (c : BitVec 20) (s : State) : Host.Outcome State Fault Refusal :=
  feedIssue true (fun s _ k f =>
    if f.skip != 0 then modFeed s k (fun f => { f.next with skip := f.skip + 1 })
    else if 4 ≤ f.loops.length then badWord s k f
    else
      let n := if src == 0 then c.toNat else nthD f.prms p.toNat 0
      if n == 0 then modFeed s k (fun f => { f.next with skip := 1 })
      else modFeed s k (fun f => { f.next with loops := ⟨f.at_ + 1, 0, n⟩ :: f.loops })) s

/-- FEND (R285). -/
def execFend (s : State) : Host.Outcome State Fault Refusal :=
  feedIssue true (fun s _ k f =>
    if f.skip != 0 then modFeed s k (fun f => { f.next with skip := f.skip - 1 })
    else match f.loops with
    | [] => badWord s k f
    | l :: ls =>
      if l.i + 1 < l.n then modFeed s k (fun f => { f.next with at_ := l.start, loops := { l with i := l.i + 1 } :: ls })
      else modFeed s k (fun f => { f.next with loops := ls })) s

/-- FADDR (R285). -/
def execFaddr (st l sc : BitVec 2) (w : BitVec 16) (s : State) : Host.Outcome State Fault Refusal :=
  feedIssue false (fun s _ k _ => modFeed s k (fun f =>
    { f.next with strides := kset f.strides (4 * st.toNat + l.toNat) (sx w.toNat 16 * (4 ^ sc.toNat : Nat)) })) s

/-- Entries a context may still append to a queue: its reservation, or unreserved room (R286). -/
def pushRoom (tm : Team) (f : Feed) (q : Nat) : Bool :=
  decide (0 < kgetD f.reserved q 0) || decide ((tm.port f.gid q).length + kgetD tm.portReserved (gkey f.gid q) 0 < 16)

/-- Append an entry; a reservation of the context is used first. -/
def feedPush (s : State) (k : Nat) (f : Feed) (q : Nat) (v : Word) : State :=
  let r := kgetD f.reserved q 0
  let s := if r == 0 then s else
    modTeam (modFeed s k (fun f => { f with reserved := kset f.reserved q (r - 1) })) f.team (fun tm =>
      { tm with portReserved := kset tm.portReserved (gkey f.gid q) (kgetD tm.portReserved (gkey f.gid q) 0 - 1) })
  portPush s f.team f.gid q v

/-- FPUSH (R285, R286): one element; a push to a full queue holds the context there. -/
def execFpush (st : BitVec 2) (q z : BitVec 3) (e : Bool) (n : BitVec 5) (s : State) : Host.Outcome State Fault Refusal :=
  feedIssue false (fun s c k f =>
    match team? s f.team with
    | none => s
    | some tm =>
      if !pushRoom tm f q.toNat then modFeed s k (fun f => { f with state := 2 })
      else
        let len := 2 ^ z.toNat
        match feedRead s c k f ((f.addr st.toNat + f.elem * len) % 2 ^ 64) len with
        | (none, s) => s
        | (some bs, s) =>
          let v := if e then word (sx (leNat bs) (8 * len)) else wordN (leNat bs)
          let s := feedPush s k f q.toNat v
          modFeed s k (fun f => if f.elem < n.toNat then { f with elem := f.elem + 1, state := 1 } else f.next)) s

/-- A row may be written: no earlier operation or fill of the tile is open (R296). -/
def rowFree (s : State) (f : Feed) (tm : Team) (k order : Nat) : Bool :=
  !s.mtx.any (fun p => decide (p.1 < order) && p.2.team == f.team
      && (p.2.reads.contains (.tile f.gid k) || p.2.writes.contains (.tile f.gid k)))
    && !tm.openFills.any (fun x => decide (x.order < order) && x.gid == f.gid && x.k == k && x.feed != f.id)

/-- The context's open fill of a tile. -/
def openFill (tm : Team) (f : Feed) (k : Nat) : Option Fill :=
  tm.openFills.find? (fun x => x.feed == f.id && x.gid == f.gid && x.k == k)

/-- A row is written; a fill's first row enters it in its quadrant's order (R296). -/
def writeRow (s : State) (f : Feed) (tm : Team) (k row : Nat) (bs : List Byte) : State :=
  let s := match openFill tm f k with
    | some _ => s
    | none =>
      let (o, s) := fresh s
      modTeam s f.team (fun tm => { tm with openFills := tm.openFills ++ [⟨f.id, f.gid, k, o⟩] })
  modTeam s f.team (fun tm => tm.setTile f.gid k (Memory.writeBytes (tm.tile f.gid k) (128 * row) bs))

/-- FPUSHK (R285, R287). -/
def execFpushk (st : BitVec 2) (t : BitVec 3) (r : BitVec 4) (s : State) : Host.Outcome State Fault Refusal :=
  feedIssue false (fun s c k f =>
    match team? s f.team with
    | none => s
    | some tm =>
      if tm.granted f.gid ≤ t.toNat then badWord s k f
      else
        let o := ((openFill tm f t.toNat).map (·.order)).getD s.nextId
        if !rowFree s f tm t.toNat o then modFeed s k (fun f => { f with state := 1 })
        else match feedRead s c k f (f.addr st.toNat) 128 with
        | (none, s) => s
        | (some bs, s) => modFeed (writeRow s f tm t.toNat r.toNat bs) k Feed.next) s

/-- FPERMIT, queue form (R286). DESIGN CHOICE (log 186): the reservation replaces what is left of an earlier one. -/
def execFpermitQueue (q : BitVec 3) (n : BitVec 5) (s : State) : Host.Outcome State Fault Refusal :=
  feedIssue false (fun s _ k f =>
    match team? s f.team with
    | none => s
    | some tm =>
      let key := gkey f.gid q.toNat
      let all := kgetD tm.portReserved key 0
      let own := kgetD f.reserved q.toNat 0
      if (tm.port f.gid q.toNat).length + (all - own) + n.toNat ≤ 16 then
        modFeed (modTeam s f.team (fun tm => { tm with portReserved := kset tm.portReserved key (all - own + n.toNat) })) k
          (fun f => { f.next with reserved := kset f.reserved q.toNat n.toNat })
      else modFeed s k (fun f => { f with state := 2 })) s

/-- FPERMIT, buffer form (R287). -/
def execFpermitBuffer (b : BitVec 5) (s : State) : Host.Outcome State Fault Refusal :=
  feedIssue false (fun s _ k f =>
    match (team? s f.team).bind (fun tm => tm.buffer? b.toNat) with
    | some x => if 2 ≤ x.state then modFeed s k Feed.next else modFeed s k (fun f => { f with state := 2 })
    | none => modFeed s k (fun f => { f with state := 2 })) s

/-- FSYNC (R287): its fills end; with REL the buffer is released. -/
def execFsync (r : Bool) (b : BitVec 5) (s : State) : Host.Outcome State Fault Refusal :=
  feedIssue false (fun s _ k f =>
    let s := modTeam s f.team (fun tm => { tm with openFills := tm.openFills.filter (fun x => x.feed != f.id) })
    if r && f.reads.contains (f.team, b.toNat) then
      modFeed (endRead s f.team b.toNat f.id) k (fun f => { f.next with reads := f.reads.filter (· != (f.team, b.toNat)) })
    else modFeed s k Feed.next) s

/-- FSTOP (R285). -/
def execFstop (s : State) : Host.Outcome State Fault Refusal :=
  feedIssue false (fun s _ k f => endFeed s k f 4) s

/-! ### The fetch of a word -/

/-- The team's eviction has been asked for, and no thread of it is left: contexts stop at a word boundary (R288). -/
def feedStops (s : State) (f : Feed) : Bool :=
  f.elem == 0 && f.got.isNone && ((team? s f.team).map (·.evictReq)).getD false
    && s.threads.all (fun p => p.2.team != f.team || p.2.evicted)

/-- A context's next word: fetched with X permission from window 0x00 (R283, R289). -/
def feedFetch (s : State) (c x : Nat) : Option Nat × State :=
  let k := feedKey c x
  match kget? s.feeds k with
  | none => (none, s)
  | some f =>
    if !f.running || f.remote.isSome || feedStops s f || ((team? s f.team).map (·.evicted)).getD true then (none, s)
    else
      let a := (f.prog + 4 * f.at_) % 2 ^ 64
      if a % 4 != 0 || selector a != 0 || (windowFault a).isSome then (none, endFeed s k f 7)
      else match engineGlob s (stationOf c) f.sealId a 4 .fetch with
      | .ok as_ s =>
        let (bs, p, s) := loadRange s c f.pts f.sealId as_
        (some (leNat bs), modFeed s k (fun f => { f with pts := Nat.max f.pts p }))
      | .wait s => (none, modFeed s k (fun f => { f with state := holdCode s c f.sealId (.glob a) }))
      | _ => (none, endFeed s k f 7)

/-! ### Instructions (R289 to R291) -/

/-- The lowest free context of a core. -/
def freeFeed (s : State) (c : Nat) : Option Nat :=
  (List.range 8).find? (fun x => !s.errors.quarantined.contains (0x0C, c, x) && match kget? s.feeds (feedKey c x) with
    | none => true
    | some f => !f.running)

/-- FDSTART (R289). -/
def fdstartBody (d a : BitVec 6) (k : Ctx) : Except Stop Eff :=
  match checkAccess k.s k.t k.th k.iw (k.g64 a) 64 64 .load false [0xF0] false with
  | .error e => .error e
  | .ok acc => k.publish.bind (fun s =>
      let bs := peek s acc.loc 64
      let s := met s acc.loc 64
      let gid := bfld bs 56 1
      match k.team with
      | none => .error (.held k.s)
      | some tm =>
        if tm.groups ≤ gid || bfld bs 57 7 != 0 then .error (k.illegal 3)
        else match freeFeed s tm.core with
        | none => inState s (retLater k 2 d [0x100])
        | some x =>
          let (id, s) := fresh s
          let f : Feed :=
            { id := id, team := k.th.team, gid := gid, sealId := k.th.sealId, prog := bfld bs 0 8
              bases := (List.range 4).map (fun i => bfld bs (8 + 8 * i) 8), prms := (List.range 4).map (fun i => bfld bs (40 + 4 * i) 4)
              pts := ptsOf s k.t }
          inState { s with feeds := kset s.feeds (feedKey tm.core x) f } (retLater k 2 d [wordN x]))

/-- FDSTART (R289). -/
def execFdstart (sw : Bool) (d a : BitVec 6) (x : Bool) (s : State) : Host.Outcome State Fault Refusal :=
  issue (.fdstart sw d a x) [srcPair a x] (fdstartBody d a) s

/-- FDSTOP (R290): held while a read of the context is at another package. -/
def execFdstop (sw : Bool) (d : BitVec 6) (c : BitVec 3) (s : State) : Host.Outcome State Fault Refusal :=
  issue (.fdstop sw d c) []
    (fun k =>
      let key := feedKey (coreOf k.s k.th) c.toNat
      match kget? k.s.feeds key with
      | none => retLater k 2 d [1]
      | some f =>
        if f.team != k.th.team then retLater k 2 d [2]
        else if !f.running then retLater k 2 d [1]
        else if f.remote.isSome then .error (.held (holdAt k.s k.t))
        else inState (endFeed k.s key f 5) (retLater k 2 d [0])) s

/-- FDSTAT (R291). DESIGN CHOICE (log 188): the index of a free context and of another team's reads 0. -/
def execFdstat (sw : Bool) (d a : BitVec 6) (x : Bool) (s : State) : Host.Outcome State Fault Refusal :=
  issue (.fdstat sw d a x) [src a x]
    (fun k =>
      let v := (k.g a).toNat
      if 8 ≤ v then .error (k.illegal 3)
      else match kget? k.s.feeds (feedKey (coreOf k.s k.th) v) with
        | none => retLater k 2 d [0, 0]
        | some f =>
          if f.team != k.th.team then retLater k 2 d [15, 0]
          else
            let s := if f.state == 4 then setThread k.s k.t (k.th.takePts f.pts) else k.s
            inState s (retLater k 2 d [wordN (f.state + f.loops.length * 2 ^ 8), wordN f.at_])) s

end Sys2Proof.Machine
end

