-- ==== Sys2Proof/Machine/RayTests.lean ====
section
/-!
DEFINITION. The exact intersection tests of a ray (R347, R348, R351).
-/
namespace Sys2Proof.Machine

/-- What a test works on: origin and direction in the space of the tree, and the bounds TMIN and tb. -/
structure RaySeg where
  o : V3
  d : V3
  tmin : Nat
  tb : Nat
  deriving DecidableEq, Repr

/-- A met parameter is in [TMIN, tb]. -/
def RaySeg.holds (g : RaySeg) (t : Surd) : Bool := boundLe g.tmin t && leBound t g.tb

/-! ### Boxes -/

/-- Bounds of one axis on t: none when the axis can never hold; an empty list when it always does. -/
def axisBounds (o d lo hi : Int) : Option (List (Surd × Surd)) :=
  if d = 0 then (if lo ≤ o && o ≤ hi then some [] else none)
  else
    let a := Surd.norm (Surd.ratio (lo - o) d)
    let b := Surd.norm (Surd.ratio (hi - o) d)
    some [if d < 0 then (b, a) else (a, b)]

/-- The greater of two numbers. -/
def Surd.max (a b : Surd) : Surd := if a.le b then b else a
/-- The lesser of two numbers. -/
def Surd.min (a b : Surd) : Surd := if a.le b then a else b

/-- The box test: the entry distance te (R351). -/
def boxTest (g : RaySeg) (lo hi : V3) : Option Nat :=
  match axisBounds g.o.x g.d.x lo.x hi.x, axisBounds g.o.y g.d.y lo.y hi.y, axisBounds g.o.z g.d.z lo.z hi.z with
  | some a, some b, some c =>
    match a ++ b ++ c with
    | [] => none
    | p :: ps =>
      let (l, h) := ps.foldl (fun r q => (Surd.max r.1 q.1, Surd.min r.2 q.2)) p
      if l.le h && boundLe g.tmin h && leBound l g.tb && !less32 g.tb g.tmin then
        some (if boundLe g.tmin l then l.rn else g.tmin)
      else none
  | _, _, _ => none

/-! ### Triangles -/

/-- A met point: t and the two reported parameters. -/
structure Meet where
  t : Surd
  u : Surd
  v : Surd
  deriving DecidableEq, Repr

/-- The triangle test with its culling (R351). -/
def triTest (g : RaySeg) (a b c : V3) (cullBack cullFront : Bool) : Option Meet :=
  let e1 := b.sub a; let e2 := c.sub a
  let n := e1.cross e2
  let dn := g.d.dot n
  if dn = 0 || (cullBack && 0 < dn) || (cullFront && dn < 0) then none
  else
    let s := g.o.sub a
    let sn := s.dot n
    let q := (s.smul dn).sub (g.d.smul sn)
    let den := dn * n.dot n
    let m : Meet := ⟨Surd.norm (Surd.ratio (-sn) dn), Surd.norm (Surd.ratio ((q.cross e2).dot n) den),
      Surd.norm (Surd.ratio ((e1.cross q).dot n) den)⟩
    if 0 ≤ m.u.sign && 0 ≤ m.v.sign && (m.u.add m.v).le (Surd.ratio 1 1) && g.holds m.t then some m else none

/-- The least t of a list of met points; the first among equals. -/
def leastMeet : List Meet → Option Meet
  | [] => none
  | m :: ms => match leastMeet ms with
    | none => some m
    | some k => if m.t.le k.t then some m else some k

/-! ### Curve segments -/

/-- Weights of the cubic uniform B-spline at i / n, times 6n³. -/
def splineWeights (i n : Int) : List Int :=
  [(n - i) * (n - i) * (n - i), 3 * i * i * i - 6 * i * i * n + 4 * n * n * n,
   -(3 * i * i * i) + 3 * i * i * n + 3 * i * n * n + n * n * n, i * i * i]

/-- A weighted sum. -/
def weighted (ws vs : List Int) : Int := ((ws.zip vs).map (fun p => p.1 * p.2)).sum

/-- A cut point or grid value: RN of a sum over a common denominator, as a scaled integer (R351). -/
def rnScaled (num den : Int) : Int := scaled32 (Surd.ratio num (den * ((2 ^ 149 : Nat) : Int))).rn

/-- Cut point j of a curve: centre and radius, scaled. `cs` are the scaled control values of x, y, z and r. -/
def cutPoint (cs : List (List Int)) (j d : Nat) : V3 × Int :=
  let n : Int := ((2 ^ d : Nat) : Int)
  let ws := splineWeights j n
  let c (k : Nat) : Int := rnScaled (weighted ws (nthD cs k [])) (6 * n * n * n)
  (⟨c 0, c 1, c 2⟩, c 3)

/-- Where the line meets a ball's boundary. -/
def ballRoots (g : RaySeg) (c : V3) (r : Int) : List Surd :=
  let w := g.o.sub c
  if r < 0 then [] else quadRoots (g.d.dot g.d) (2 * w.dot g.d) (w.dot w - r * r)

/-- Where the line meets the boundary of a round cone, each with its axis parameter s (R351). DESIGN CHOICE (log 192): on the side
of a cone of unequal radii it is that of the centre of the sphere that touches the side at the hit. -/
def coneMeets (g : RaySeg) (c0 : V3) (r0 : Int) (c1 : V3) (r1 : Int) : List (Surd × Surd) :=
  let zero := Surd.ratio 0 1; let one := Surd.ratio 1 1
  let d := c1.sub c0; let dr := r1 - r0
  let a := d.dot d - dr * dr
  if r0 < 0 || r1 < 0 || a ≤ 0 then
    if r0 < r1 then (ballRoots g c1 r1).map (fun t => (t, one)) else (ballRoots g c0 r0).map (fun t => (t, zero))
  else
    let w := g.o.sub c0
    let s0 := w.dot d + r0 * dr; let s1 := g.d.dot d
    let axis (t : Surd) : Surd := ((t.scale s1).addInt s0).div (Surd.ratio a 1)
    let on0 := (ballRoots g c0 r0).filter (fun t => (axis t).sign ≤ 0)
    let on1 := (ballRoots g c1 r1).filter (fun t => one.le (axis t))
    let qa := a * g.d.dot g.d - s1 * s1
    let qb := 2 * (a * w.dot g.d - s0 * s1)
    let qc := a * (w.dot w - r0 * r0) - s0 * s0
    let side :=
      if qa = 0 && qb = 0 && qc = 0 then
        if s1 = 0 then []
        else
          let t0 := Surd.norm (Surd.ratio (-s0) s1); let t1 := Surd.norm (Surd.ratio (a - s0) s1)
          [t0, t1] ++ (if notFinite g.tmin then [] else [boundOf g.tmin])
      else quadRoots qa qb qc
    on0.map (fun t => (t, zero)) ++ (side.filter (fun t => 0 ≤ (axis t).sign && (axis t).le one)).map (fun t => (t, axis t))
      ++ on1.map (fun t => (t, one))

/-- The curve test: `cs` as for `cutPoint`, 2^D pieces (R351). -/
def curveTest (g : RaySeg) (cs : List (List Int)) (d : Nat) : Option Meet :=
  let n := 2 ^ d
  leastMeet ((List.range n).flatMap (fun j =>
    let p := cutPoint cs j d; let q := cutPoint cs (j + 1) d
    ((coneMeets g p.1 p.2 q.1 q.2).filter (fun m => g.holds m.1)).map (fun m =>
      ⟨m.1, (m.2.addInt j).div (Surd.ratio (n : Int) 1), Surd.ratio 0 1⟩)))

/-! ### Patches -/

/-- α + βa + γb + δab. -/
structure Bil where
  c : Int
  a : Int
  b : Int
  ab : Int
  deriving DecidableEq, Repr

/-- Value at a point of one field. -/
def Bil.eval (f : Bil) (a b : Surd) : Surd :=
  ((((a.mul b).scale f.ab).add (b.scale f.b)).add (a.scale f.a)).addInt f.c

/-- k·f + m·g. -/
def Bil.comb (f : Bil) (k : Int) (g : Bil) (m : Int) : Bil :=
  ⟨f.c * k + g.c * m, f.a * k + g.a * m, f.b * k + g.b * m, f.ab * k + g.ab * m⟩

/-- Zero everywhere. -/
def Bil.isZero (f : Bil) : Bool := f.c == 0 && f.a == 0 && f.b == 0 && f.ab == 0

/-- The form with its arguments exchanged. -/
def Bil.swap (f : Bil) : Bil := ⟨f.c, f.b, f.a, f.ab⟩

/-- Candidates on the line of one a: its ends, and where `h` is 0. -/
def lineCandidates (h : Option Bil) (a : Surd) : List (Surd × Surd) :=
  let zero := Surd.ratio 0 1; let one := Surd.ratio 1 1
  [(a, zero), (a, one)] ++ (match h with
    | none => []
    | some h =>
      let k := (a.scale h.ab).addInt h.b
      let c := (a.scale h.a).addInt h.c
      if k.sign = 0 then [] else [(a, (c.scale (-1)).div k)])

/-- Points where both forms are 0, by roots of a; of a line of such points, its ends and where `h` is 0. -/
def solveByA (f g : Bil) (h : Option Bil) : List (Surd × Surd) :=
  let roots := quadRoots (f.a * g.ab - g.a * f.ab) (f.c * g.ab + f.a * g.b - g.c * f.ab - g.a * f.b) (f.c * g.b - g.c * f.b)
  roots.flatMap (fun a =>
    let fb := (a.scale f.ab).addInt f.b; let fc := (a.scale f.a).addInt f.c
    let gb := (a.scale g.ab).addInt g.b; let gc := (a.scale g.a).addInt g.c
    if fb.sign != 0 then [(a, (fc.scale (-1)).div fb)]
    else if gb.sign != 0 then [(a, (gc.scale (-1)).div gb)]
    else if fc.sign = 0 && gc.sign = 0 then lineCandidates h a
    else [])

/-- The resultant of two forms in a vanishes. -/
def noRootsByA (f g : Bil) : Bool :=
  f.a * g.ab - g.a * f.ab == 0 && f.c * g.ab + f.a * g.b - g.c * f.ab - g.a * f.b == 0 && f.c * g.b - g.c * f.b == 0

/-- Points where both forms are 0: by a, or by b where the resultant in a vanishes. -/
def solveBil (f g : Bil) (h : Option Bil) : List (Surd × Surd) :=
  if noRootsByA f g then (solveByA f.swap g.swap (h.map Bil.swap)).map (fun p => (p.2, p.1)) else solveByA f g h

/-- Both resultants vanish: the forms are multiples of one. -/
def dependent (f g : Bil) : Bool := noRootsByA f g && noRootsByA f.swap g.swap

/-- Zeros of a form on the edges of the square, with corners and zeros of `h` where the form is 0 on an edge. -/
def edgePoints (f : Bil) (h : Option Bil) : List (Surd × Surd) :=
  let onA (f : Bil) (h : Option Bil) (a : Int) : List (Surd × Surd) :=
    let x := Surd.ratio a 1
    let k := f.b + a * f.ab; let c := f.c + a * f.a
    if k = 0 then (if c = 0 then lineCandidates h x else []) else [(x, Surd.norm (Surd.ratio (-c) k))]
  [0, 1].flatMap (onA f h) ++ ([0, 1].flatMap (onA f.swap (h.map Bil.swap))).map (fun p => (p.2, p.1))

/-- Points of one form's zero set that can hold its least value of `t`: edges, places where the form and `t` are
stationary together, and where `h` is 0. -/
def curvePoints (f t : Bil) (h : Option Bil) : List (Surd × Surd) :=
  let j : Bil := ⟨f.a * t.b - f.b * t.a, f.a * t.ab - f.ab * t.a, f.ab * t.b - f.b * t.ab, 0⟩
  edgePoints f h ++ (if f.isZero || j.isZero || dependent f j then [] else solveBil f j none)
    ++ (match h with
      | none => []
      | some h => if f.isZero || dependent f h then [] else solveBil f h none)

/-- Where a ray meets the bilinear surface through four points, with its cell parameters (R351). -/
def cellMeets (g : RaySeg) (p00 p10 p01 p11 : V3) : List Meet :=
  let k := if g.d.x != 0 then 0 else if g.d.y != 0 then 1 else 2
  let dk := g.d.at k
  let co (i : Nat) : Bil :=
    ⟨p00.at i - g.o.at i, p10.at i - p00.at i, p01.at i - p00.at i, p11.at i - p10.at i - p01.at i + p00.at i⟩
  let t := co k
  let eq (i : Nat) : Bil := (co i).comb dk t (-(g.d.at i))
  let f1 := eq ((k + 1) % 3); let f2 := eq ((k + 2) % 3)
  let unit : Int := ((2 ^ 149 : Nat) : Int)
  let h : Option Bil := if notFinite g.tmin then none else some ((t.comb unit ⟨1, 0, 0, 0⟩ (-(scaled32 g.tmin * dk))))
  let pts := if dependent f1 f2 then curvePoints (if f1.isZero then f2 else f1) t h else solveBil f1 f2 h
  let zero := Surd.ratio 0 1; let one := Surd.ratio 1 1
  (pts.filter (fun p => zero.le p.1 && p.1.le one && zero.le p.2 && p.2.le one)).map (fun p =>
    ⟨(t.eval p.1 p.2).div (Surd.ratio dk 1), p.1, p.2⟩)

/-- Grid point (i, j) of a patch: `cs` are the scaled control values of x, y and z, each by 4i + j (R351). -/
def gridPoint (cs : List (List Int)) (i j l : Nat) : V3 :=
  let n : Int := ((2 ^ l : Nat) : Int)
  let wu := splineWeights i n; let wv := splineWeights j n
  let ws := wu.flatMap (fun a => wv.map (fun b => a * b))
  let c (k : Nat) : Int := rnScaled (weighted ws (nthD cs k [])) (36 * n * n * n * n * n * n)
  ⟨c 0, c 1, c 2⟩

/-- The patch test (R351). -/
def patchTest (g : RaySeg) (cs : List (List Int)) (l : Nat) : Option Meet :=
  let n := 2 ^ l
  let grid := (List.range (n + 1)).map (fun i => (List.range (n + 1)).map (fun j => gridPoint cs i j l))
  let at_ (i j : Nat) : V3 := nthD (nthD grid i []) j ⟨0, 0, 0⟩
  leastMeet ((List.range n).flatMap (fun i => (List.range n).flatMap (fun j =>
    ((cellMeets g (at_ i j) (at_ (i + 1) j) (at_ i (j + 1)) (at_ (i + 1) (j + 1))).filter (fun m => g.holds m.t)).map (fun m =>
      ⟨m.t, (m.u.addInt i).div (Surd.ratio (n : Int) 1), (m.v.addInt j).div (Surd.ratio (n : Int) 1)⟩))))

/-! ### Instances -/

/-- The object-space origin and direction: each component exact and rounded once; none where the ray is invalid there
(R350, R351). `m` are the twelve words of the matrix, `o` and `d` FP32 words. -/
def instanceRay (m o d : List Nat) : Option (List Nat × List Nat) :=
  if m.any notFinite then none
  else
    let row (r : Nat) (v : List Nat) (one : Int) : Nat :=
      let s := weighted ((List.range 4).map (fun c => scaled32 (nthD m (4 * r + c) 0)))
        (v.map scaled32 ++ [one * ((2 ^ 149 : Nat) : Int)])
      (Surd.ratio s ((2 ^ 298 : Nat) : Int)).rn
    let o' := (List.range 3).map (fun r => row r o 1)
    let d' := (List.range 3).map (fun r => row r d 0)
    if (o' ++ d').any notFinite || d'.all (fun b => b % 2 ^ 31 == 0) then none else some (o', d')

/-- Index of the first word that makes a ray invalid, 8 for a zero direction (R350). -/
def invalidRay (ws : List Nat) : Option Nat :=
  match (List.range 8).find? (fun i => let w := nthD ws i 0; (rd32 w).isNan || (decide (i < 6) && (rd32 w).isInf)) with
  | some i => some i
  | none => if (range 3 3).all (fun i => nthD ws i 0 % 2 ^ 31 == 0) then some 8 else none

end Sys2Proof.Machine
end

