-- ==== Sys2Proof/Machine/RayUnit.lean ====
section
/-!
DEFINITION. Ray instructions, traversal steps and callbacks (R345 to R367).
-/
namespace Sys2Proof.Machine

/-! ### Reads of the unit (R349) -/

/-- What a read of the unit comes to: its bytes, a hold, or an end of traversal with a status. -/
inductive RayRead where
  | bytes (bs : List Byte) (s : State)
  | hold (s : State)
  | fail (status : Nat)

/-- A read under a ray's seal: a weak load of an engine agent at the station of its owner. One that does not lie in window 0x00
from its first byte to its last is a FAULT (R349). -/
def rayRead (s : State) (id : Nat) (r : Ray) (addr n : Nat) : RayRead :=
  match thread? s r.owner with
  | none => .hold s
  | some th =>
    let a := addr % 2 ^ 64
    if 2 ^ 64 ≤ addr || selector a != 0 || (windowFault a).isSome || decide (2 ^ 52 < a + n) then .fail 4
    else
      let c := coreOf s th
      match engineGlob s (stationOf c) th.sealId a n .load with
      | .ok as_ s =>
        let x := loadRange s c r.pts th.sealId as_
        .bytes x.1 (modRay x.2.2 id (fun r => { r with pts := Nat.max r.pts x.2.1 }))
      | .wait s => .hold s
      | _ => .fail 4

/-! ### Nodes (R347, R349) -/

/-- A child of a node. -/
structure NodeChild where
  kind : Nat
  count : Nat
  mask : Nat
  /-- Box corners, scaled; none where it is empty. -/
  box : Option (V3 × V3)
  addr : Nat

/-- A corner of a child's box on one axis: P + Q · 2^E, scaled. -/
def boxCorner (bs : List Byte) (axis q : Nat) : Int :=
  let e := sx (bfld bs (12 + axis) 1) 8
  scaled32 (bfld bs (4 * axis) 4) + (q : Int) * ((2 ^ (e + 149).toNat : Nat) : Int)

/-- Child `i` of a node. -/
def nodeChild (bs : List Byte) (i : Nat) : NodeChild :=
  let meta_ := bfld bs (16 + i) 1
  let q (k : Nat) := bfld bs (32 + 6 * i + k) 1
  let lo (k : Nat) := boxCorner bs k (q k); let hi (k : Nat) := boxCorner bs k (q (3 + k) + 1)
  { kind := meta_ % 16, count := meta_ / 16, mask := bfld bs (24 + i) 1
    box := if (List.range 3).any (fun k => q (3 + k) < q k) then none else some (⟨lo 0, lo 1, lo 2⟩, ⟨hi 0, hi 1, hi 2⟩)
    addr := bfld bs 80 8 + 16 * bfld bs (88 + 4 * i) 4 }

/-- A child breaks R347 or R349. -/
def childBad (c : NodeChild) : Bool :=
  decide (6 < c.kind) || (if c.kind ≤ 1 then c.count != 0 else c.count == 0)
    || (c.kind != 0 && c.addr % (if c.kind == 1 then 128 else 16) != 0)

/-- A node breaks R347 or R349. -/
def nodeBad (bs : List Byte) : Bool :=
  let n := bfld bs 15 1
  n == 0 || decide (8 < n) || bfld bs 120 8 != 0
    || (List.range 3).any (fun k => notFinite (bfld bs (4 * k) 4) || decide (sx (bfld bs (12 + k) 1) 8 < -126))
    || (List.range 8).any (fun i =>
      if i < n then childBad (nodeChild bs i)
      else bfld bs (16 + i) 1 != 0 || bfld bs (24 + i) 1 != 0 || bfld bs (32 + 6 * i) 6 != 0 || bfld bs (88 + 4 * i) 4 != 0)

/-- Record words of a ray as numbers. -/
def Ray.w (r : Ray) (i : Nat) : Nat := (nthD r.words i 0).toNat

/-- Origin and direction words in a space. -/
def Ray.line (r : Ray) (sp : Option RaySpace) : List Nat × List Nat :=
  match sp with
  | some x => (x.o, x.d)
  | none => ([r.w 0, r.w 1, r.w 2], [r.w 3, r.w 4, r.w 5])

/-- What the tests work on. -/
def Ray.seg (r : Ray) (sp : Option RaySpace) : RaySeg :=
  let (o, d) := r.line sp
  let v (l : List Nat) : V3 := v3Of (nthD l 0 0) (nthD l 1 0) (nthD l 2 0)
  { o := v o, d := v d, tmin := r.w 6, tb := r.tb }

/-- MASK. -/
def Ray.mask (r : Ray) : Nat := r.w 12 % 256

/-- Insert a child entry by (te, index). -/
def insertEntry (e : RayEntry) : List RayEntry → List RayEntry
  | [] => [e]
  | f :: fs => if less32 (f.te.getD 0) (e.te.getD 0) then f :: insertEntry e fs else e :: f :: fs

/-- Children to push, least first (R352). -/
def nodeEntries (r : Ray) (e : RayEntry) (bs : List Byte) : List RayEntry :=
  ((List.range (bfld bs 15 1)).filterMap (fun i =>
    let c := nodeChild bs i
    if c.kind == 0 || c.mask &&& r.mask == 0 then none
    else match c.box with
      | none => none
      | some (lo, hi) => (boxTest (r.seg e.space) lo hi).map (fun te =>
          { kind := c.kind, addr := c.addr, count := c.count, te := some te, depth := e.depth + 1, space := e.space }))).foldr insertEntry []

/-! ### Items (R348) -/

/-- Bytes of an item. -/
def itemSize (kind : Nat) : Nat :=
  match kind with
  | 2 => 48
  | 3 => 80
  | 4 => 208
  | 5 => 64
  | _ => 16

/-- A zero field or a limit of an item is broken (R349). -/
def itemBad (kind : Nat) (bs : List Byte) (inInstance : Bool) : Bool :=
  match kind with
  | 2 => bfld bs 42 1 / 2 != 0 || bfld bs 43 5 != 0
  | 3 => let d := bfld bs 70 1; d == 0 || decide (5 < d) || bfld bs 71 1 / 2 != 0 || bfld bs 72 8 != 0
  | 4 => let l := bfld bs 198 1; l == 0 || decide (6 < l) || bfld bs 199 1 / 2 != 0 || bfld bs 200 8 != 0
  | 5 => inInstance || bfld bs 61 1 != 0 || bfld bs 48 8 % 128 != 0
  | _ => bfld bs 6 1 / 2 != 0 || bfld bs 7 1 != 0

/-- Offset of PRIM in an item. -/
def primOffset (kind : Nat) : Nat :=
  match kind with
  | 2 => 36
  | 3 => 64
  | 4 => 192
  | _ => 0

/-- FLAGS of an item. -/
def itemFlags (kind : Nat) (bs : List Byte) : Nat :=
  match kind with
  | 2 => bfld bs 42 1
  | 3 => bfld bs 71 1
  | 4 => bfld bs 199 1
  | _ => bfld bs 6 1

/-- Scaled control values of coordinate `c` of `n` points of `k` words each. -/
def controlValues (bs : List Byte) (n k c : Nat) : List Int := (List.range n).map (fun i => scaled32 (bfld bs (4 * (k * i + c)) 4))

/-- The primitive test of an item (R351). -/
def itemTest (r : Ray) (sp : Option RaySpace) (kind : Nat) (bs : List Byte) : Option Meet :=
  let g := r.seg sp
  let w (i : Nat) := bfld bs (4 * i) 4
  let words := match kind with | 2 => 9 | 3 => 16 | _ => 48
  if (List.range words).any (fun i => notFinite (w i)) then none
  else match kind with
  | 2 => triTest g (v3Of (w 0) (w 1) (w 2)) (v3Of (w 3) (w 4) (w 5)) (v3Of (w 6) (w 7) (w 8)) (r.flags.testBit 2) (r.flags.testBit 3)
  | 3 => curveTest g ((List.range 4).map (controlValues bs 4 4)) (bfld bs 70 1)
  | _ => patchTest g ((List.range 3).map (controlValues bs 16 3)) (bfld bs 198 1)

/-- The candidate of an item, admitted only below tb (R351). -/
def candidate (r : Ray) (sp : Option RaySpace) (kind addr : Nat) (bs : List Byte) : Option RayHit :=
  match itemTest r sp kind bs with
  | none => none
  | some m =>
    let t := m.t.rn
    if less32 t r.tb then
      some { t := t, u := m.u.rn, v := m.v.rn, prim := bfld bs (primOffset kind) 4, geom := bfld bs (primOffset kind + 4) 2
             kind := kind, instId := (sp.map (·.instId)).getD 0xFFFFFFFF, addr := addr }
    else none

/-! ### Shader records (R354) -/

/-- Address of a shader-table record. -/
def Ray.shaderAddr (r : Ray) (sp : Option RaySpace) (geom : Nat) : Nat :=
  r.w 10 + 2 ^ 32 * r.w 11 + 32 * (r.w 12 / 2 ^ 16 + (sp.map (·.sbtOff)).getD 0 + geom)

/-- A code address of a record: 0, or a place for a clause header in window 0x00. -/
def codeOk (a : Nat) : Bool := a / 2 ^ 52 == 0 && a % 4 == 0

/-- A shader record breaks its limits. -/
def shaderBad (bs : List Byte) : Bool :=
  !codeOk (bfld bs 0 8) || !codeOk (bfld bs 8 8) || bfld bs 16 1 == 0 || decide (64 < bfld bs 16 1)
    || decide (64 < bfld bs 17 1) || decide (3 < bfld bs 18 1) || bfld bs 19 5 != 0

/-- Park a ray for a callback (R352). -/
def parkRay (s : State) (id : Nat) (r : Ray) (sp : Option RaySpace) (h : RayHit) (isect : Bool) (sb : List Byte) : State :=
  let (o, d) := r.line sp
  let c : RayCall := { isect := isect, hit := h, code := bfld sb (if isect then 8 else 0) 8, budget := bfld sb 16 1
                       privKb := bfld sb 17 1, map := bfld sb 18 1, arg := bfld sb 24 8, o := o, d := d }
  modRay s id (fun r => { r with state := 2, call := some c })

/-! ### One step of a traversal (R352) -/

/-- The stack without its top. -/
def popRay (s : State) (id : Nat) : State := modRay s id (fun r => { r with stack := r.stack.tail })

/-- Push entries. -/
def pushRay (s : State) (id : Nat) (es : List RayEntry) : State := modRay s id (fun r => { r with stack := es ++ r.stack })

/-- A candidate's fate: committed where it is opaque, else a callback (R352, R354). -/
def judge (s : State) (id : Nat) (r : Ray) (sp : Option RaySpace) (h : RayHit) (opaque_ : Bool) : Option State :=
  if opaque_ then some (commitThen s id h false)
  else match rayRead s id r (r.shaderAddr sp h.geom) 32 with
    | .hold _ => none
    | .fail st => some (finishRay s id st)
    | .bytes sb s =>
      if shaderBad sb then some (finishRay s id 5)
      else if bfld sb 0 8 == 0 then some (commitThen s id h false)
      else some (parkRay s id r sp h false sb)

/-- The intersection callback of a procedural item; an ISECT of 0 is never hit. -/
def judgeProcedural (s : State) (id : Nat) (r : Ray) (sp : Option RaySpace) (addr : Nat) (bs : List Byte) : Option State :=
  let h : RayHit := { t := 0, u := 0, v := 0, prim := bfld bs 0 4, geom := bfld bs 4 2, kind := 6
                      instId := (sp.map (·.instId)).getD 0xFFFFFFFF, addr := addr }
  match rayRead s id r (r.shaderAddr sp h.geom) 32 with
  | .hold _ => none
  | .fail st => some (finishRay s id st)
  | .bytes sb s =>
    if shaderBad sb then some (finishRay s id 5)
    else if bfld sb 8 8 == 0 then some s
    else some (parkRay s id r sp h true sb)

/-- Enter an instance's tree where its mask and its object-space ray allow (R351). -/
def enterInstance (s : State) (id : Nat) (r : Ray) (e : RayEntry) (bs : List Byte) : State :=
  if r.mask &&& bfld bs 60 1 == 0 then s
  else
    let (o, d) := r.line none
    match instanceRay ((List.range 12).map (fun i => bfld bs (4 * i) 4)) o d with
    | none => s
    | some (o', d') =>
      let sp : RaySpace := { instId := bfld bs 56 4, sbtOff := bfld bs 62 2, o := o', d := d' }
      pushRay s id [{ kind := 1, addr := bfld bs 48 8, count := 0, te := none, depth := e.depth, space := some sp }]

/-- Take the first item of a leaf; the rest stays on the stack. -/
def leafStep (s : State) (id : Nat) (r : Ray) (e : RayEntry) : State :=
  let size := itemSize e.kind
  match rayRead s id r e.addr size with
  | .hold s => s
  | .fail st => finishRay s id st
  | .bytes bs s' =>
    if itemBad e.kind bs e.space.isSome then finishRay s' id 5
    else
      let rest := if e.count ≤ 1 then [] else [{ e with addr := e.addr + size, count := e.count - 1, te := none }]
      let next := pushRay (popRay s' id) id rest
      if e.kind == 5 then enterInstance next id r e bs
      else if e.kind == 6 then
        (match judgeProcedural next id r e.space e.addr bs with
          | some s => s
          | none => (match rayRead s' id r (r.shaderAddr e.space (bfld bs 4 2)) 32 with | .hold s => s | _ => s'))
      else match candidate r e.space e.kind e.addr bs with
        | none => next
        | some h =>
          (match judge next id r e.space h (r.flags.testBit 0 || (itemFlags e.kind bs).testBit 0) with
            | some s => s
            | none => (match rayRead s' id r (r.shaderAddr e.space h.geom) 32 with | .hold s => s | _ => s'))

/-- Take a popped node: read it and push its children. -/
def nodeStep (s : State) (id : Nat) (r : Ray) (e : RayEntry) : State :=
  if 24 < e.depth then finishRay s id 3
  else match rayRead s id r e.addr 128 with
    | .hold s => s
    | .fail st => finishRay s id st
    | .bytes bs s =>
      if nodeBad bs then finishRay s id 5
      else pushRay (popRay s id) id (nodeEntries r e bs)

/-- RAY_TRAVERSAL_STEP (R352). -/
def traverse (s : State) (id : Nat) : State :=
  match kget? s.rays id with
  | none => s
  | some r =>
    if r.state != 1 || ((thread? s r.owner).map (·.evicted)).getD true then s
    else match r.stack with
    | [] => finishRay s id (if r.hit.isSome then 0 else 1)
    | e :: _ =>
      if (match e.te with | some te => less32 r.tb te | none => false) then popRay s id
      else if e.kind == 1 then nodeStep s id r e
      else leafStep s id r e

/-- RAY_TRAVERSAL_STEP (R352). -/
def execRayTraversalStep (ray : Nat) (s : State) : Host.Outcome State Fault Refusal := .next (traverse s ray)

/-! ### Callbacks (R354) -/

/-- Callback threads alive that a station's unit has started. -/
def callbacksAt (s : State) (st : Nat) : Nat :=
  (s.threads.filter (fun p => p.2.callback.isSome && (team? s p.2.team).bind (·.callbackOf) == some st)).length

/-- The record a callback stands for. -/
def RayCall.record (c : RayCall) (sealId : Nat) : LaunchRecord :=
  { kaddr := c.code, args := c.arg, done := 0, decl := 0, gx := 1, gy := 1, gz := 1, teamn := 1, groups := 1, flags := 0
    spord := 0, tiles := 0, privKb := c.privKb, map := c.map, nbuf := 0, narr := 0, roles := [(0, c.budget, 1)], mapimg := 0
    dbegin := 0, dend := 0, dchunk := 0, dorder := 0, sealId := sealId, queue := 0, prio := 0, deadline := 0, budget := 0 }

/-- Registers a callback begins with. -/
def callRegs (r : Ray) (c : RayCall) : KMap Word :=
  (([r.handle, c.hit.kind + c.hit.geom * 2 ^ 16, c.hit.prim, c.hit.instId, if c.isect then 0 else c.hit.t,
     if c.isect then 0 else c.hit.u, if c.isect then 0 else c.hit.v, c.arg % 2 ^ 32].map wordN).zipIdx).map (fun p => (p.2, p.1))

/-- The values RAYCB reads (R367). -/
def callVals (r : Ray) (c : RayCall) : List Word :=
  (c.o ++ c.d ++ [r.w 6, r.tb, r.w 14, r.w 15, c.hit.addr % 2 ^ 32, c.hit.addr / 2 ^ 32]).map wordN

/-- The core a callback goes to: the first of the cluster that has room, for it takes no scratchpad (R65, R354; log 166). -/
def callbackCore (s : State) (c : RayCall) (cluster : Nat) : Option Nat :=
  (range (160 * cluster) 160).find? (fun k => coreRoom s k 1 c.budget 1 0)

/-- Start the callback a ray waits for (R354): a one-thread team on a core of the owner's cluster. -/
def startCallback (s : State) (id : Nat) : State :=
  match kget? s.rays id with
  | none => s
  | some r =>
    match r.call, thread? s r.owner with
    | some c, some th =>
      match c.th, team? s th.team with
      | none, some tm =>
        let lr := c.record th.sealId
        match (if th.evicted || decide (256 ≤ callbacksAt s (stationOf tm.core)) then none
               else callbackCore s c tm.cluster) with
        | none => s
        | some co =>
          let (gid, s) := fresh s
          let g : Grid := { lr := lr, buffers := [], arrivals := [], image := none, pts := r.pts, placed := 1, hidden := true }
          let s := { s with grids := kset s.grids gid g }
          let (t, s) := placeTeam s gid g 0 co 0
          let s := modTeam s t (fun x => { x with callbackOf := some (stationOf tm.core), handle := none })
          match threadOfTid s t 0 with
          | none => s
          | some n =>
            let s := modThread s n (fun x => { x with regs := callRegs r c, callback := some id, callVals := callVals r c })
            modRay (reclaim s co) id (fun r => { r with calls := r.calls + 1, call := some { c with th := some n } })
      | _, _ => s
    | _, _ => s

/-- Start every callback that waits in a cluster, as far as there is room: ahead of any queued grid (R354). -/
def startCallbacks (s : State) (cluster : Nat) : State :=
  s.rays.foldl (fun s p =>
    match (thread? s p.2.owner).bind (fun th => team? s th.team) with
    | some tm => if tm.cluster == cluster then startCallback s p.1 else s
    | none => s) s

/-- CALLBACK_START (R354). -/
def execCallbackStart (ray : Nat) (s : State) : Host.Outcome State Fault Refusal := .next (startCallback s ray)

/-! ### Instructions (R361 to R367) -/

/-- Rays standing in a station's table (R345). -/
def raysAt (s : State) (st : Nat) : Nat :=
  (s.rays.filter (fun p => match thread? s p.2.owner with
    | some th => !th.evicted && stationOf (coreOf s th) == st
    | none => false)).length

/-- RAYNEW (R361). -/
def raynewBody (d a : BitVec 6) (k : Ctx) : Except Stop Eff :=
  match checkRange k.s k.t k.th k.iw (k.g64 a) 64 64 .load false [0x00, 0xF0] false with
  | .error e => .error e
  | .ok as_ =>
    let mine := k.s.rays.filter (fun p => p.2.owner == k.t)
    match (List.range 32).find? (fun i => !mine.any (fun p => p.2.slot == i)) with
    | none =>
      let (_, s) := readNow k.s k.t as_
      inState s (retLater k 4 d [0])
    | some slot =>
      if 4096 ≤ raysAt k.s (stationOf (coreOf k.s k.th)) + lostEntries k.s 0x0E (stationOf (coreOf k.s k.th)) then .error (.held (holdAt k.s k.t))
      else
        let (bs, s) := readNow k.s k.t as_
        let gen := kgetD k.th.rayGens slot 0 % 255 + 1
        let (id, s) := fresh s
        let (dr, s) := draw s 16
        let r : Ray := { owner := k.t, slot := slot, gen := gen, draw := dr
                         words := (List.range 16).map (fun i => wordN (bfld bs (4 * i) 4)) }
        let s := modThread s k.t (fun th => { th with rayGens := kset th.rayGens slot gen })
        inState { s with rays := kset s.rays id r } (retLater k 4 d [wordN r.handle])

/-- RAYNEW (R361). -/
def execRaynew (sw : Bool) (d a : BitVec 6) (x : Bool) (s : State) : Host.Outcome State Fault Refusal :=
  issue (.raynew sw d a x) [srcPair a x] (raynewBody d a) s

/-- The live ray a register's handle names, or ILLEGAL_OP (R360). -/
def withRay (k : Ctx) (a : BitVec 6) (f : Nat → Ray → Except Stop Eff) : Except Stop Eff :=
  match rayOf k.s k.t (k.g a).toNat with
  | none => .error (k.illegal 3)
  | some (id, r) => f id r

/-- The ray is IDLE or DONE. -/
def Ray.still (r : Ray) : Bool := r.state == 0 || r.state == 3

/-- RAYSET (R362). -/
def execRayset (sw : Bool) (d a b : BitVec 6) (x y : Bool) (s : State) : Host.Outcome State Fault Refusal :=
  issue (.rayset sw d a b x y) [src a x, src b y]
    (fun k => withRay k a (fun id r =>
      if !r.still then .error (k.illegal 3)
      else .ok { st := modRay k.s id (fun r => { r with words := r.words.set d.toNat (k.g b) }) })) s

/-- A record RAYGO refuses (R363). -/
def Ray.recordBad (r : Ray) : Bool :=
  let root := r.w 8 + 2 ^ 32 * r.w 9; let sbt := r.w 10 + 2 ^ 32 * r.w 11
  r.w 13 != 0 || fld (r.w 12) 13 3 != 0 || !window0 root 128 || !window0 sbt 32

/-- RAYGO (R363): a valid ray runs from its root. -/
def raygoBody (k : Ctx) (id : Nat) (r : Ray) : Except Stop Eff :=
  if !r.still || r.recordBad then .error (k.illegal 3)
  else k.publish.bind (fun s =>
    let (dr, s) := draw s 16
    let s := modRay s id (fun r =>
      { r with status := 0, hit := none, calls := 0, tb := r.w 7, call := none, draw := dr, pts := ptsOf s k.t
               stack := [{ kind := 1, addr := r.w 8 + 2 ^ 32 * r.w 9, count := 0, te := none, depth := 1, space := none }] })
    match invalidRay (r.words.map (·.toNat)) with
    | none => .ok { st := modRay s id (fun r => { r with state := 1 }) }
    | some i =>
      let s := finishRay s id 2
      if r.flags.testBit 4 then .error (.held (trapSync s k.t causeBadRay (wordN r.handle) (wordN i) 0 0)) else .ok { st := s })

/-- RAYGO (R363). -/
def execRaygo (sw : Bool) (a : BitVec 6) (x : Bool) (s : State) : Host.Outcome State Fault Refusal :=
  issue (.raygo sw a x) [src a x] (fun k => withRay k a (raygoBody k)) s

/-- RAYWAIT (R364). -/
def execRaywait (sw : Bool) (d a : BitVec 6) (x : Bool) (s : State) : Host.Outcome State Fault Refusal :=
  issue (.raywait sw d a x) [src a x]
    (fun k => withRay k a (fun _ r =>
      if !r.still then .ok { st := k.s, later := [d.toNat], flow := .wait (.ray r.handle d.toNat) }
      else
        let s := if r.state == 3 then setThread k.s k.t (k.th.takePts r.pts) else k.s
        .ok { st := s, writes := [(d.toNat, wordN r.statusWord)] })) s

/-- A result field of a ray with no committed hit: 0 where an error status says so, else a free value (R353). -/
def Ray.openField (r : Ray) (sel : Nat) : Word :=
  if 2 ≤ r.status && r.status ≤ 5 then (if sel == 4 then 0xFFFFFFFF else 0) else Config.freeWord (r.draw + sel)

/-- The value a RAYGET selector names (R365). -/
def Ray.field (r : Ray) (sel : Nat) : Word :=
  if 16 ≤ sel then nthD r.words (sel - 16) 0
  else if sel == 8 then wordN r.statusWord
  else if sel == 9 || !r.still then 0
  else match r.hit with
  | none => r.openField sel
  | some h => wordN (match sel with
    | 0 => h.t
    | 1 => h.u
    | 2 => h.v
    | 3 => h.prim
    | 4 => h.instId
    | 5 => h.kind + h.geom * 2 ^ 16
    | 6 => h.addr % 2 ^ 32
    | _ => h.addr / 2 ^ 32)

/-- RAYGET (R365). -/
def execRayget (sw : Bool) (d a b : BitVec 6) (x y : Bool) (s : State) : Host.Outcome State Fault Refusal :=
  issue (.rayget sw d a b x y) [src a x, src b y]
    (fun k => withRay k a (fun _ r =>
      let sel := (k.g b).toNat
      if !(decide (sel ≤ 9) || (decide (16 ≤ sel) && decide (sel ≤ 31))) then .error (k.illegal 3)
      else
        let s := if sel == 8 && r.state == 3 then setThread k.s k.t (k.th.takePts r.pts) else k.s
        inState s (retLater k 4 d [r.field sel]))) s

/-- RAYFREE (R366). -/
def execRayfree (sw : Bool) (a : BitVec 6) (x : Bool) (s : State) : Host.Outcome State Fault Refusal :=
  issue (.rayfree sw a x) [src a x] (fun k => withRay k a (fun id _ => .ok { st := { k.s with rays := kdel k.s.rays id } })) s

/-- VERDICT (R367): it releases the callback's accesses and acts on its ray (R355, R356). -/
def execVerdict (sw : Bool) (a b : BitVec 6) (x y : Bool) (s : State) : Host.Outcome State Fault Refusal :=
  issue (.verdict sw a b x y) [src a x, src b y]
    (fun k => match k.th.callback with
      | none => .error (k.illegal 3)
      | some id =>
        let code := (k.g a).toNat
        if k.th.verdict || decide (3 ≤ code) then .error (k.illegal 3)
        else k.publish.bind (fun s =>
          let s := modRay (modThread s k.t (fun th => { th with verdict := true })) id (fun r => { r with pts := Nat.max r.pts (ptsOf s k.t) })
          .ok { st := applyVerdict s id k.t code (k.g b).toNat })) s

/-- RAYCB (R367). -/
def execRaycb (sw : Bool) (d a : BitVec 6) (x : Bool) (s : State) : Host.Outcome State Fault Refusal :=
  issue (.raycb sw d a x) [src a x]
    (fun k =>
      let sel := (k.g a).toNat
      if k.th.callback.isNone || decide (12 ≤ sel) then .error (k.illegal 3)
      else retLater k 4 d [nthD k.th.callVals sel 0]) s

end Sys2Proof.Machine
end

