-- ==== Sys2Proof/Machine/Placement.lean ====
section
/-!
DEFINITION. Placement, retirement, eviction and restoring of teams and threads, memory tokens, locality windows and time
slices (R65 to R67, R71, R76 to R78, R82, R277, R303).
-/
namespace Sys2Proof.Machine

/-! ### Placement (R65, R66) -/

/-- Place the next team a cluster's dispatcher finds room for, after the callbacks that wait (R65, R354). -/
def placeInCluster (s : State) (k : Nat) : State :=
  let s := startCallbacks (remakeReserves s) k
  let n := s.nextId
  let s := placeFrom s k 65 (candidates s k)
  match team? s n with
  | none => s
  | some tm =>
    match grid? s tm.grid with
    | none => s
    | some g => reclaim (makeJob s n g.lr) tm.core

/-- TEAM_PLACEMENT (R65): not while the package is in STANDBY or not READY. -/
def execTeamPlacement (cluster : Nat) (s : State) : Host.Outcome State Fault Refusal :=
  .next (if s.dev.power.state == 0 && cluster < 2 then placeInCluster s cluster else s)

/-! ### Retirement (R67) -/

/-- Nothing of the team is left: no thread, command, feed context, matrix operation or ray. -/
def teamOver (s : State) (tm : Nat) : Bool :=
  (teamThreads s tm).isEmpty && !s.copies.any (fun p => p.2.team == tm) && !s.feeds.any (fun p => p.2.team == tm && p.2.running)
    && !s.mtx.any (fun p => p.2.team == tm) && !s.heirs.any (fun h => h.team == tm)

/-- The groups of a team give up their memory tokens. -/
def dropTokens (s : State) (c tm : Nat) : State :=
  let mine (g : Nat) : Bool := g / 16 == tm
  modCore s c (fun k =>
    let k := { k with tokens := k.tokens.filter (fun p => !mine p.1), waiting := k.waiting.filter (fun g => !mine g) }
    k.grantAll s.aclk 130)

/-- The bank sets a team holds become free; with `spill` its images keep them (R303, R304). -/
def dropBanks (s : State) (c tm : Nat) (spill : Bool) : State :=
  let mine (b : BankSet) : Bool := (b.holder.map (·.1)) == some tm
  let k := core s c
  let keys := ([k.set0, k.set1].filter mine).filterMap (·.holder)
  let s := if spill then keys.foldl (fun s h => spillBank s tm h.2) s else s
  modCore s c (fun k =>
    { k with set0 := if mine k.set0 then { k.set0 with holder := none } else k.set0
             set1 := if mine k.set1 then { k.set1 with holder := none } else k.set1 })

/-- Threads that wait for a team go on and issue their words again (R188). -/
def wakeAway (s : State) (tm : Nat) : State :=
  { s with threads := s.threads.map (fun p => if p.2.wait == .away tm then (p.1, { p.2 with wait := .ready }) else p) }

/-- Range-lock entries on a team's scratchpad go with it. -/
def dropTeamLocks (s : State) (tm : Nat) : State :=
  { s with cores := s.cores.map (fun p => (p.1, { p.2 with locks := p.2.locks.filter (fun l => l.2.team != some tm) })) }

/-- Release everything a team holds. -/
def releaseTeam (s : State) (id : Nat) (tm : Team) : State :=
  let s := { s with teams := kdel s.teams id, feeds := s.feeds.filter (fun p => p.2.team != id) }
  let s := serveWaiting (dropBanks (dropTokens s tm.core id) tm.core id false) tm.core
  wakeAway (dropTeamLocks s id) id

/-- Every team of a grid has retired, and none is still to be placed. -/
def gridOver (s : State) (g : Grid) : Bool :=
  g.retired == g.placed && (g.placed == g.lr.teams || !sealLive s (g.lr.sealId % 1024))

/-- Complete a grid; where its completion word meets a page that waits for the host, the page is reported (R67, R182). -/
def finishGrid (s : State) (gid : Nat) : State :=
  let s := completeGrid s gid
  match grid? s gid with
  | some g => if g.waiting then engineFault s 0 (g.lr.sealId % 1024) g.lr.done else s
  | none => s

/-- The watchdog's count of a grid restarts where every team of it stands evicted (R426). -/
def restartCount (s : State) (gid : Nat) : State :=
  let ts := s.teams.filter (fun p => p.2.grid == gid)
  if !ts.isEmpty && ts.all (fun p => p.2.evicted) then modGrid s gid (fun g => { g with wdCount := 0, wdStep := 0, wdSince := 0 })
  else s

/-- A host grid counts a retired team; with its last one it is complete, and its graph goes on. -/
def countRetired (s : State) (gid : Nat) : State :=
  let s := modGrid s gid (fun g => { g with retired := g.retired + 1 })
  match grid? s gid with
  | some g => if gridOver s g then advanceGraphs (finishGrid s gid) else restartCount s gid
  | none => s

/-- Retire a team. -/
def retireTeam (s : State) (id : Nat) (tm : Team) : State :=
  let s := releaseTeam s id tm
  match grid? s tm.grid with
  | none => s
  | some g =>
    if g.hidden then remakeReserves { s with grids := kdel s.grids tm.grid }
    else remakeReserves (countRetired s tm.grid)

/-- TEAM_RETIREMENT (R67). -/
def execTeamRetirement (team : Nat) (s : State) : Host.Outcome State Fault Refusal :=
  .next (match team? s team with
    | some tm => if teamOver s team then retireTeam s team tm else s
    | none => s)

/-! ### Eviction (R76 to R78) -/

/-- Request the eviction of a team. -/
def requestEviction (s : State) (tm : Nat) : State := modTeam s tm (fun t => { t with evictReq := true })

/-- EVICTION_REQUEST (R78): the teams chosen, of one cluster. -/
def execEvictionRequest (cluster : Nat) (teams : List Nat) (s : State) : Host.Outcome State Fault Refusal :=
  .next (teams.foldl (fun s i => match team? s i with
    | some tm => if tm.cluster == cluster then requestEviction s i else s
    | none => s) s)

/-- One more than the highest priority of a considered grid whose next team no core of the cluster can take; 0 for none. -/
def pressure (s : State) (k : Nat) : Nat :=
  (candidates s k).foldl (fun m p =>
    if (chooseCore s p.2.lr (range (160 * k) 160)).isNone then Nat.max m (p.2.lr.prio % 16 + 1) else m) 0

/-- A team the dispatcher may ask to leave, and its grid's priority: not a job slice of a chain, nor a callback. -/
def teamPrio (s : State) (tm : Team) : Option Nat :=
  (grid? s tm.grid).bind (fun g => if g.hidden then none else some (g.lr.prio % 16))

/-- The team a cluster's dispatcher asks to leave for a grid of higher priority (R78): of the lowest priority, on the lowest
core; none while one that was asked is still there. -/
def preempted (s : State) (k : Nat) : List Nat :=
  let n := pressure s k
  let here := s.teams.filter (fun p => p.2.cluster == k && !p.2.evicted)
  if here.any (fun p => p.2.evictReq) then []
  else
    let best := here.foldl (fun (b : Option (Nat × Nat)) p =>
      match teamPrio s p.2 with
      | none => b
      | some pr =>
        let key := pr * 320 + p.2.core
        if pr + 1 < n && (match b with | some (k', _) => decide (key < k') | none => true) then some (key, p.1) else b) none
    (best.map (fun b => b.2)).toList

/-- A live command of a team that leaves its core stops (R277). -/
def stopCopy (s : State) (c : Nat) (p : Nat × CopyCmd) : State :=
  let s := writeStatus s p.2 3
  let s := match p.2.srcBuf with
    | some b => if p.2.reading then endRead s b.1 b.2 p.1 else s
    | none => s
  let s := modCore s c (fun k => { k with locks := k.locks.filter (fun l => l.2.cmd != p.1) })
  modCopy s p.1 (fun x => { x with stopped := true, flying := [] })

/-- A context stands at a word boundary with no read in flight; or, in the middle of an FPUSH, at a full queue, which
nothing empties any more (R286, R288). DESIGN CHOICE (log 171): it then stops there, and goes on with the same entry. -/
def feedRests (s : State) (f : Feed) : Bool :=
  f.remote.isNone && f.got.isNone && (f.elem == 0 || f.state == 2 && s.threads.all (fun p => p.2.team != f.team || p.2.evicted))

/-- All threads of the team are evicted, and no operation of it is on its way. -/
def mayLeave (s : State) (tm : Nat) : Bool :=
  !(teamThreads s tm).isEmpty && (teamThreads s tm).all (fun p => p.2.evicted) && !s.mtx.any (fun p => p.2.team == tm)
    && !s.copies.any (fun p => p.2.team == tm && !p.2.settled) && !s.feeds.any (fun p => p.2.team == tm && p.2.running && !feedRests s p.2)

/-- Move a team's feed contexts from one core's table to another; away from any core they stand under 320 + team. -/
def moveFeeds (s : State) (id c c' : Nat) : State :=
  let mine := s.feeds.filter (fun p => p.2.team == id && p.1 / 8 == c)
  let rest := s.feeds.filter (fun p => !(p.2.team == id && p.1 / 8 == c))
  { s with feeds := mine.foldl (fun m p => kset m (feedKey c' (p.1 % 8)) p.2) rest }

/-- The numbers of a team's feed contexts are free on a core: an ended context of another team there stays readable until
FDSTART reuses it (R291). -/
def feedsFit (s : State) (id c : Nat) : Bool :=
  (s.feeds.filter (fun p => p.2.team == id)).all (fun p => (kget? s.feeds (feedKey c (p.1 % 8))).isNone)

/-- A team leaves its core whole: commands and feed contexts stop, entries of other teams' commands for its ranges leave the
core's table with it, bank sets are spilled, tokens are given up (R275, R277, R288, R304). -/
def leaveCore (s : State) (id : Nat) (tm : Team) : State :=
  let s := moveFeeds s id tm.core (320 + id)
  let s := (s.copies.filter (fun p => p.2.team == id)).foldl (fun s p => stopCopy s tm.core p) s
  let s := modCore s tm.core (fun k => { k with locks := k.locks.filter (fun l => l.2.team != some id) })
  let s := serveWaiting (dropBanks (dropTokens s tm.core id) tm.core id true) tm.core
  restartCount (modTeam s id (fun t => { t with evicted := true, evictReq := false })) tm.grid

/-- A store of a thread is at another package or with a unit, or an access of it could not be performed yet (R207). -/
def storesOut (s : State) (th : Thread) : Bool :=
  th.flights.any (fun f => f.got.isNone && (f.op.here || (match f.op with
    | .remote r _ _ _ => ((kget? s.domain.reqs r).map (fun q => !q.store.isEmpty)).getD false
    | .mstore .. => true
    | _ => false)))

/-- Evict a thread that stands at a blocking point: its accesses are performed first, its window's lines go to its backing,
and its record is written (R76, R189, R200, R207, R417). It waits while a store of it is out, and while the pool has no
room (log 160). -/
def evictThread (s : State) (t : Nat) (th : Thread) : State :=
  if (wakeOf th).isNone then s
  else
    let s' := leaveLane (flush s t) t
    match (thread? s' t).bind (fun th => if storesOut s' th then none else takeAreas s' t th) with
    | none => s
    | some (th, s') =>
      let th := { th.setActive false s.aclk with evicted := true }
      setThread (saveRays (saveRecord s' th) t) t th

/-- EVICTION (R76): a requested thread at a blocking point; with its last thread the team leaves its core. -/
def execEviction (t : Nat) (s : State) : Host.Outcome State Fault Refusal :=
  .next (match thread? s t with
    | none => s
    | some th =>
      match team? s th.team with
      | none => s
      | some tm =>
        if tm.evicted then s
        else
          let s := if tm.evictReq && !th.evicted then evictThread s t th else s
          if mayLeave s th.team then leaveCore s th.team tm else s)

/-! ### Restoring (R76, R277) -/

/-- A command of a team that comes back: its engine is the new core's, its entries are registered as far as there is
room, and it resumes once all stand. -/
def resumeCopy (s : State) (c : Nat) (id : Nat) : State :=
  let s := modCopy s id (fun x => { x with core := c, engine := 2 * stationOf c + c % 2 })
  match kget? s.copies id with
  | none => s
  | some x =>
    let s := takeEntries s x c
    let s := match x.srcBuf with
      | some b => if x.reading then modTeam s b.1 (fun tm => tm.modBuffer b.2 (fun y =>
          { y with state := if y.state == 0 then 3 else y.state, readers := insertNew y.readers id })) else s
      | none => s
    resumeIf s id

/-- A core of the team's cluster takes it back: the block's base. Its threads take their places as they are restored. -/
def takesBack (s : State) (tm : Team) (c : Nat) : Option Nat :=
  if c / 160 != tm.cluster || !coreRoom s c 1 0 tm.groups tm.tiles then none
  else if tm.callbackOf.isSome then some 0
  else (bestBlock (spadUsed s c) tm.spord).map (·.2)

/-- The core can take the team: the block's base, with its feed contexts' numbers free. -/
def canReturn (s : State) (id : Nat) (tm : Team) (c : Nat) : Option Nat := if feedsFit s id c then takesBack s tm c else none

/-- Bring a team back on a core. -/
def returnTeam (s : State) (id c base : Nat) : State :=
  let s := moveFeeds (modTeam s id (fun t => { t with evicted := false, core := c, base := base })) id (320 + id) c
  let s := (s.copies.filter (fun p => p.2.team == id)).foldl (fun s p => resumeCopy s c p.1) s
  let s := (s.copies.filter (fun p => p.2.team != id)).foldl (fun s p => takeEntries s p.2 c) s
  wakeAway s id

/-- Put a thread back on its team's core, as its record holds it; its areas of the pool are free again (R76, R417). -/
def restoreThread (s : State) (t c : Nat) : State :=
  match thread? s t with
  | none => s
  | some th =>
    let (r, s) := readRecord s th
    let back := { r with evicted := false, suspended := false, image := none, record := 0, selfAt := s.aclk }
    let s := giveAreas (setThread s t back) t th
    reclaim (placeActive s t) c

/-- A thread's wake condition holds; or it waits for a ray that goes on only once the ray's owner is back (R75, R357). -/
def mayWake (s : State) (t : Nat) (th : Thread) : Bool :=
  match th.wait with
  | .ray h _ => s.rays.any (fun p => p.2.owner == t && p.2.handle == h
      && (p.2.state == 1 || (p.2.state == 2 && ((p.2.call.map (fun c => c.th.isNone)).getD true))))
  | _ => (wakeOf th).isNone

/-- A station's ray table takes the rays of a thread that comes back (R345, R357). -/
def rayRoom (s : State) (t st : Nat) : Bool :=
  decide ((s.rays.filter (fun p => p.2.owner == t || (match thread? s p.2.owner with
    | some th => !th.evicted && stationOf (coreOf s th) == st
    | none => false))).length + lostEntries s 0x0E st ≤ 4096)

/-- A thread of a team that stands on a core goes back to it. -/
def restoreOn (s : State) (t : Nat) : State :=
  match thread? s t with
  | none => s
  | some th =>
    match team? s th.team with
    | none => s
    | some tm =>
      if th.evicted && !tm.evicted && mayWake s t th && rayRoom s t (stationOf tm.core) && !(core s tm.core).fenced
          && decide (residents s tm.core < 2048) && decide (slowUsed s tm.core + th.budget ≤ 131072) then
        restoreThread s t tm.core
      else s

/-- RESTORE (R76, R277): a team evicted whole comes back where the core can take it, and its commands, feed contexts and
rays go on; the thread goes back to its team's core once its wake condition holds. -/
def execRestore (t c : Nat) (s : State) : Host.Outcome State Fault Refusal :=
  .next (match thread? s t with
    | none => s
    | some th =>
      match team? s th.team with
      | none => s
      | some tm =>
        if !th.evicted || s.dev.power.state != 0 then s
        else if !tm.evicted then (if tm.core == c then restoreOn s t else s)
        else match canReturn s th.team tm c with
          | some base => restoreOn (returnTeam s th.team c base) t
          | none => s)

/-! ### Memory tokens and locality (R81, R82) -/

/-- MEMORY_TOKEN_GRANT (R82). -/
def execMemoryTokenGrant (c g : Nat) (s : State) : Host.Outcome State Fault Refusal :=
  .next (let k := core s c
    if k.nextGroup == some g && decide (k.tokens.length < k.effective) then modCore s c (fun k => k.grant g s.aclk) else s)

/-- MEMORY_TOKEN_PASS (R82): a token held for 1,024 cycles passes on when another group waits. -/
def execMemoryTokenPass (c g : Nat) (s : State) : Host.Outcome State Fault Refusal :=
  .next (let k := core s c
    match kget? k.tokens g with
    | some since =>
      if k.waiting.isEmpty || decide (s.aclk < since + 1024) then s
      else modCore s c (fun k => ({ k with tokens := kdel k.tokens g } : Core).grantAll s.aclk 130)
    | none => s)

/-- Give back the tokens granted longest ago until no more than EFFECTIVE are held. -/
def Core.trim (k : Core) : Nat → Core
  | 0 => k
  | fuel + 1 =>
    if k.tokens.length ≤ k.effective then k
    else
      let old := k.tokens.foldl (fun m p => Nat.min m p.2) (2 ^ 80)
      match k.tokens.find? (fun p => p.2 == old) with
      | some p => ({ k with tokens := kdel k.tokens p.1 } : Core).trim fuel
      | none => k

/-- LIMIT at a window's end. -/
def newLimit (auto : Bool) (limit score : Nat) : Nat :=
  if !auto then limit
  else if 64 ≤ score then Nat.max 1 (limit - 1)
  else if score ≤ 16 then Nat.min 128 (limit + 1)
  else limit

/-- LOCALITY_WINDOW_END (R82): every 4,096 cycles. -/
def execLocalityWindowEnd (c : Nat) (s : State) : Host.Outcome State Fault Refusal :=
  .next (let k := core s c
    if s.aclk < k.windowAt + 4096 then s
    else
      let score := Nat.min 255 (k.missHits / 16)
      let k := { k with score := score, missHits := 0, windowAt := k.windowAt + 4096, limit := newLimit k.auto k.limit score }
      modCore s c (fun _ => (k.trim 130).grantAll s.aclk 130))

/-! ### The active set (R71) -/

/-- TIME_SLICE_EXPIRY (R71): a thread of the slow file enters the active set. -/
def execTimeSliceExpiry (c t : Nat) (s : State) : Host.Outcome State Fault Refusal :=
  .next (match thread? s t with
    | none => s
    | some th =>
      if th.active || th.evicted || th.suspended || coreOf s th != c then s
      else modThread (makeRoom c th.quadrant th.budget 2048 s) t (fun th => th.setActive true s.aclk))

end Sys2Proof.Machine
end

