-- ==== Sys2Proof/Machine/Raster.lean ====
section
/-!
DEFINITION. Raster and stipple instructions and the unit steps they need (R321 to R344).
-/
namespace Sys2Proof.Machine

/-! ### The unit's writes (R324) -/

/-- One write of a pass's unit: performed, waiting for the host, or failed. -/
inductive UnitWrite where
  | done (s : State)
  | wait (s : State)
  | fail

/-- Write bytes at an address under the pass's seal. -/
def unitWrite (s : State) (id : Nat) (p : Pass) (va : Nat) (bs : List Byte) (strong : Bool) : UnitWrite :=
  match engineGlob s p.station p.sealId va bs.length .store with
  | .ok as_ s =>
    let r := storeRange s p.pts p.sealId (as_.map (fun a => { a with strong := strong })) bs
    .done (modPass r.2 id (fun p => { p with pts := Nat.max p.pts r.1 }))
  | .wait s => .wait s
  | _ => .fail

/-- FAULT: binning stops, and entries whose bin words stand unwritten are not in their bins. -/
def Pass.failed (p : Pass) : Pass :=
  let left (k : Nat) := (p.writes.filter (fun w => w.1 == p.r.bins + 8 * k && w.2.length == 8)).length
  { p with fault := true, writes := [], bins := p.bins.map (fun b => (b.1, b.2.take (b.2.length - left b.1))) }

/-- Perform the pending writes in order; `fuel` bounds their number. -/
def flushPass (id : Nat) : Nat → State → State
  | 0, s => s
  | fuel + 1, s =>
    match kget? s.passes id with
    | none => s
    | some p =>
      match p.writes with
      | [] => s
      | w :: ws =>
        match unitWrite s id p w.1 w.2 false with
        | .done s => flushPass id fuel (modPass s id (fun p => { p with writes := ws }))
        | .wait s => s
        | .fail => modPass s id Pass.failed

/-- The RESULT word. -/
def Pass.result (p : Pass) (closed finished : Bool) : Nat :=
  b2n finished * 2 ^ 63 + b2n closed * 2 ^ 62 + b2n p.ovf * 2 ^ 61 + b2n p.fault * 2 ^ 60 + p.chused % 2 ^ 24 * 2 ^ 32
    + p.prims.length % 2 ^ 32

/-- Store RESULT, one strong store; a store that fails sets FAULT and the pass goes on. -/
def storeResult (s : State) (id : Nat) (finished : Bool) (f : Pass → Pass) : State :=
  match kget? s.passes id with
  | none => s
  | some p =>
    match unitWrite s id p (p.va + 56) (leBytes 8 (p.result true finished)) true with
    | .done s => modPass s id f
    | .wait s => s
    | .fail => modPass s id (fun p => f { p with fault := true })

/-- Tiles of a pass. -/
def PassRecord.tiles (r : PassRecord) : Nat := r.nstrip * r.tps

/-- A pass about to close writes the bin words of its empty bins (R324; log 164). -/
def Pass.zeroEmpty (p : Pass) : Pass :=
  if p.closing && !p.zeroed && !p.fault then
    { p with zeroed := true, writes := p.writes ++ ((List.range p.r.tiles).filter (fun k => (kgetD p.bins k []).isEmpty)).map (fun k =>
        (p.r.bins + 8 * k, leBytes 8 0)) }
  else p

/-- Close a pass all of whose submissions are written. -/
def closePass (s : State) (id : Nat) : State :=
  match kget? s.passes id with
  | none => s
  | some p =>
    if p.closing && !p.closed && p.writes.isEmpty then storeResult s id false (fun p => { p with closed := true }) else s

/-- Finish a pass all of whose tiles are complete: its slot frees (R322, R401). -/
def finishPass (s : State) (id : Nat) : State :=
  match kget? s.passes id with
  | none => s
  | some p =>
    if p.closed && !p.finished && p.allDone then storeResult s id true (fun p => { p with finished := true }) else s

/-! ### What stands in memory -/

/-- A chunk's bytes: its entries, and the next chunk. -/
def chunkBytes (es : List Nat) (next : Nat) : List Byte :=
  es.flatMap (leBytes 4) ++ List.replicate (124 - 4 * es.length) 0 ++ leBytes 4 next

/-- Chunks of a bin with their bytes. -/
def chunksOf (r : PassRecord) : List Nat → List Nat → List (Nat × List Byte)
  | [], _ => []
  | c :: cs, es => (r.chunks + 128 * c, chunkBytes (es.take 31) (match cs with | d :: _ => d + 1 | [] => 0)) :: chunksOf r cs (es.drop 31)

/-- What the unit wrote of a tile's list. -/
def tileBytes (p : Pass) (k : Nat) : List (Nat × List Byte) :=
  let es := kgetD p.bins k []
  if es.isEmpty then (if p.zeroed then [(p.r.bins + 8 * k, leBytes 8 0)] else [])
  else es.map (fun n => (p.r.pool + 64 * n, nthD p.prims n []))
    ++ [(p.r.bins + 8 * k, leBytes 8 ((kgetD p.chains k []).headD 0 + 1 + es.length * 2 ^ 32))]
    ++ chunksOf p.r (kgetD p.chains k []) es

/-- No store of software has changed a tile's list since the unit wrote it (R324). -/
def tileIntact (s : State) (p : Pass) (k : Nat) : Bool :=
  p.fault || (tileBytes p k).all (fun w =>
    match engineGlob s p.station p.sealId w.1 w.2.length .load with
    | .ok as_ s' => as_.flatMap (fun a => peek s' a.loc a.len) == w.2
    | _ => true)

/-! ### Stipple compositing (R334, R335) -/

/-- Order of DEPTH words, −0 before +0. -/
def depthKey (w : Nat) : Int := if w.testBit 31 then -((w % 2 ^ 31 : Nat) : Int) - 1 else w

/-- Insert a splat by (DEPTH, ID); equal keys by a free choice. -/
def insertSplat (p : Pass) (d n : Nat) : List Nat → List Nat
  | [] => [n]
  | m :: ms =>
    let w (i j : Nat) := recWord (nthD p.prims i []) j
    let a := depthKey (w n 5); let b := depthKey (w m 5)
    if a < b || (a == b && decide (w n 9 < w m 9)) || (a == b && w n 9 == w m 9 && Config.freeBit (d + n)) then n :: m :: ms
    else m :: insertSplat p d n ms

/-- An FP16 value as FP32 (exact). -/
def widen16 (h : Nat) : Nat := (fp32.roundVal modeRNE false 0 (fp16.read h) {}).1

/-- RN product of FP32 words. -/
def mul32 (a b : Nat) : Nat := (fMul fp32 modeRNE (rd32 a) (rd32 b)).1

/-- RN(exp(a)) of a dyadic number. -/
def exp32 (a : Dy) : Nat :=
  if a.m = 0 || dyLt (dyAbs a) ⟨1, -60⟩ then 0x3F800000
  else if dyLt a ⟨-128, 0⟩ then 0
  else if dyLt ⟨128, 0⟩ a then fp32.inf false
  else rn false (expSticky a)

/-- A composite in progress: T, R, G, B. -/
structure Blend where
  t : Nat
  r : Nat
  g : Nat
  b : Nat
  deriving DecidableEq, Repr

/-- One splat at a pixel centre (R334). -/
def splatAt (opthr : Nat) (x y : Nat) (acc : Blend × Bool) (bs : List Byte) : Blend × Bool :=
  let c := acc.1
  if acc.2 || less32 c.t opthr then (c, true)
  else
    let w (i : Nat) := recWord bs i
    let ex := centre x - scaled32 (w 0); let ey := centre y - scaled32 (w 1)
    if scaled32 (w 8) < ex.natAbs || scaled32 (w 8) < ey.natAbs then (c, false)
    else
      let dx := (rd32 (rn false ⟨ex, -149⟩)).dy; let dy := (rd32 (rn false ⟨ey, -149⟩)).dy
      let val (i : Nat) := (rd32 (w i)).dy
      let q := dyAdd (dyAdd (dyMul (val 2) (dyMul dx dx)) (dyScale (dyMul (val 3) (dyMul dx dy)) 1)) (dyMul (val 4) (dyMul dy dy))
      let e := exp32 (dyScale (dyNeg q) (-1))
      let alpha := (fMinMax false (mul32 (widen16 (bfld bs 24 2)) e) 0x3F7D70A4).1
      if !(rd32 alpha).isNan && decide (scaled32 alpha * 255 < ((2 ^ 149 : Nat) : Int)) then (c, false)
      else
        let wt := mul32 alpha c.t
        let ch (v h : Nat) := add32 v (mul32 wt (widen16 h))
        ({ t := add32 c.t (neg32 wt), r := ch c.r (bfld bs 26 2), g := ch c.g (bfld bs 28 2), b := ch c.b (bfld bs 30 2) }, false)

/-- The composite of a tile, pixel by pixel. -/
def composite (p : Pass) (k d : Nat) : List Blend :=
  let t := k % p.r.tps
  let x0 := p.r.tileX t; let y0 := p.r.stripY (k / p.r.tps) + p.r.tileY t
  let list := ((kgetD p.bins k []).foldr (insertSplat p d) []).map (fun n => nthD p.prims n [])
  (List.range (32 * p.r.th)).map (fun i =>
    (list.foldl (splatAt p.r.opthr (x0 + i % 32) (y0 + i / 32)) (⟨0x3F800000, 0, 0, 0⟩, false)).1)

/-- A channel's 10-bit code (R335); of a value that is no number, a free one. -/
def channelCode (c t clear d : Nat) : Nat :=
  match rd32 c, rd32 t with
  | .fin n m e, .fin n' m' e' =>
    let v := dyAdd (dyMul (FVal.fin n m e).dy (dyInt 1023)) (dyMul (FVal.fin n' m' e').dy (dyInt clear))
    (roundInt modeRNE (dyMax dyZero (dyMin v (dyInt 1023))) {}).1.toNat
  | .inf n, .fin _ _ _ => if n then 0 else 1023
  | _, _ => Config.freeNat d % 1024

/-- A pixel's colour in the slot. -/
def stipColour (clear d : Nat) (c : Blend) : Nat :=
  channelCode c.r c.t (fld clear 0 10) (3 * d) + channelCode c.g c.t (fld clear 10 10) (3 * d + 1) * 2 ^ 10
    + channelCode c.b c.t (fld clear 20 10) (3 * d + 2) * 2 ^ 20

/-- Composite a tile for a thread: its result, the slot's colours at the first run, and the answer (R335, R342). -/
def runStipple (s : State) (id : Nat) (p : Pass) (t seq k : Nat) : State :=
  let (d, s) := draw s 4096
  let free (i : Nat) : Nat := (Config.freeWord (d + 2048 + i)).toNat
  let px := if tileIntact s p k then composite p k d
    else (List.range (32 * p.r.th)).map (fun i => ⟨free (4 * i), free (4 * i + 1), free (4 * i + 2), free (4 * i + 3)⟩)
  let again := p.run.contains k
  let tile := k % p.r.tps; let strip := p.r.strip0 + k / p.r.tps
  let s := if p.r.cmt && !again then
      tileWrite s p.r.ring p.r.frame strip (p.r.tileX tile) (p.r.tileY tile) 32 p.r.th
        (fun dx dy => stipColour p.r.clear (d + 32 * dy + dx) (nthD px (32 * dy + dx) ⟨0, 0, 0, 0⟩))
    else s
  let s := { s with stips := kset s.stips t { station := p.station, px := px.map (fun c => (c.r, c.g, c.b, c.t)) } }
  let s := modPass s id (fun p => { p with run := insertNew p.run k })
  let v := (kgetD p.bins k []).length % 2 ^ 16 + b2n (p.over_.contains k) * 2 ^ 16 + b2n again * 2 ^ 17 + b2n p.fault * 2 ^ 18
  modThread s t (fun th => (th.takePts p.pts).modFlight seq (fun f => { f with got := some [wordN v] }))

/-- Run the tiles asked for before a stipple pass closed. -/
def serveRuns (s : State) (id : Nat) : State :=
  match kget? s.passes id with
  | none => s
  | some p =>
    if !p.closed then s
    else
      p.runs.foldl (fun s r =>
        match kget? s.passes id with
        | none => s
        | some p => if (thread? s r.1).isSome then runStipple s id p r.1 r.2.1 r.2.2 else s)
        (modPass s id (fun p => { p with runs := [] }))

/-- The unit works on a pass: its writes, its closing, waiting requests, its finish. -/
def advancePass (s : State) (id : Nat) : State :=
  match kget? s.passes id with
  | none => s
  | some p =>
    let p := p.zeroEmpty
    let s := flushPass id p.writes.length (modPass s id (fun _ => p))
    let s := closePass s id
    let s := (List.range p.r.nstrip).foldl (fun s i => serve s id i) s
    let s := serveRuns s id
    finishPass s id

/-- PRIMITIVE_BINNING (R324). -/
def execPrimitiveBinning (pass : Nat) (s : State) : Host.Outcome State Fault Refusal := .next (advancePass s pass)

/-- HSR_TILE_RESOLUTION (R327). -/
def execHsrTileResolution (pass strip tile : Nat) (s : State) : Host.Outcome State Fault Refusal :=
  .next (match kget? s.passes pass with
    | none => s
    | some p =>
      let k := p.r.key strip tile
      if p.r.kind != 0 || !p.closed || decide (p.r.nstrip ≤ strip) || decide (p.r.tps ≤ tile) || (kget? p.tiles k).isSome then s
      else
        let (d, s) := draw s 1024
        let own := if tileIntact s p k then ownersOf p k d
          else (List.range (32 * p.r.th)).map (fun i => Config.freeNat (d + i) % (p.prims.length + 1))
        serve (modPass s pass (fun p => { p with tiles := kset p.tiles k { own := own } })) pass strip)

/-! ### PBIN and SPLAT (R322, R323, R337) -/

/-- The check of a pass record's address (R337): R209 steps 1 to 3. -/
def recordAddr (k : Ctx) (a : BitVec 6) : Option Stop :=
  let addr := k.g64 a
  match windowFault addr with
  | some r => some (accessViolation r addr k.iw)
  | none =>
    if selector addr != 0 then some (accessViolation 3 addr k.iw)
    else if addr % 64 != 0 then some (misaligned addr 64 k.iw)
    else none

/-- The leaf an address has for a thread: its station's TLB entry, or what the tables hold. -/
def leafNow (k : Ctx) (va : Nat) : Option (Nat × Nat) :=
  match tlbFind (station k.s (stationOf (coreOf k.s k.th))) k.th.sealId va with
  | some t => some (t.level, t.entry)
  | none => match walkTables k.s k.th.sealId va with
    | .leaf level e _ => some (level, e)
    | _ => none

/-- Where a record's address leads for the thread's seal; none where it is not mapped for reading. -/
def recordPa (k : Ctx) (a : BitVec 6) : Option Nat :=
  match leafNow k (k.g64 a) with
  | some (level, e) =>
    if (leafDenies e k.th.sealId .load).isSome then none
    else (match (leafAccess e level (k.g64 a) 64 false).loc with | .glob pa => some pa | _ => none)
  | none => none

/-- The pass a register pair names: by its record's address in the thread's seal, whatever stands in the tables; else by
where the address leads. -/
def passNamed (k : Ctx) (a : BitVec 6) : Option (Nat × Pass) :=
  match k.s.passes.find? (fun p => p.2.sealId == k.th.sealId && p.2.va == k.g64 a) with
  | some p => some p
  | none => (recordPa k a).bind (passAt k.s)

/-- The number of the state after a new pass entered the unit at a station's slot (R322). -/
def addPass (k : Ctx) (s : State) (b : BitVec 6) (pa st slot : Nat) (r : PassRecord) : Nat × State :=
  let (id, s) := fresh s
  let p : Pass := { va := k.g64 b, pa := pa, sealId := k.th.sealId, station := st, slot := slot, r := r, pts := ptsOf s k.t }
  (id + 8, { s with passes := kset (s.passes.filter (fun p => p.2.pa != pa)) id p })

/-- Open a pass on its record (R322): its number plus 8, or a status below 8. -/
def openPass (k : Ctx) (s : State) (b : BitVec 6) (kind : Nat) : Except Stop (Nat × State) :=
  match checkRange s k.t k.th k.iw (k.g64 b) 64 64 .load false [0x00] false with
  | .error e => .error e
  | .ok as_ =>
    let (bs, s) := readNow s k.t as_
    let r := parsePass bs
    let st := stationOf (coreOf s k.th)
    match recordPa { k with s := s } b with
    | none => .ok (5, s)
    | some pa =>
      if !passOk s r bs kind then .ok (5, s)
      else if s.passes.any (fun p => p.2.overlap r) then .ok (4, s)
      else match (List.range 4).find? (fun i => (passInSlot s kind st i).isNone) with
        | none => .error (.held (holdAt s k.t))
        | some slot => .ok (addPass k s b pa st slot r)

/-- The live pass a pair names, opened if there is none: its number plus 8, or a status below 8. A live pass of the other KIND
gives status 5, where it is of the thread's seal (R337). -/
def passFor (k : Ctx) (s : State) (b : BitVec 6) (kind : Nat) : Except Stop (Nat × State) :=
  match (passNamed { k with s := s } b).filter (fun p => p.2.live) with
  | some (id, p) => if p.r.kind == kind || p.sealId != k.th.sealId then .ok (id + 8, s) else .ok (5, s)
  | none => openPass k s b kind

/-- A thread's binding of a kind. -/
def Thread.binding (th : Thread) (kind : Nat) : Option Nat := if kind == 0 then th.rasterPass else th.stipplePass

/-- The thread with a binding of a kind. -/
def Thread.bind (th : Thread) (kind : Nat) (p : Option Nat) : Thread :=
  if kind == 0 then { th with rasterPass := p } else { th with stipplePass := p }

/-- The status and effect of a submission to an open pass (R337). -/
def submit (s : State) (k : Ctx) (id : Nat) (p : Pass) (kind : Nat) (bs : List Byte) : Nat × State :=
  if p.sealId != k.th.sealId then (6, s)
  else if (match k.th.binding kind with | some o => o != id | none => false) then (7, s)
  else if p.closed || p.closing || p.ended.contains k.t then (3, s)
  else
    let s := modThread s k.t (fun th => th.bind kind (some id))
    if (if kind == 0 then triCulled bs else splatRefused p.r bs) then (1, s)
    else if p.fault then (2, s)
    else if p.r.npool ≤ p.prims.length || p.r.nchunk < p.chused + chunksNeeded p (primTiles p.r bs) then
      (2, modPass s id (fun p => { p with ovf := true }))
    else (0, modPass s id (fun p => enterPrim p bs))

/-- The zero fields and limits checked at issue (R337). -/
def primBad (kind : Nat) (bs : List Byte) : Bool :=
  if kind == 0 then decide (16 < bfld bs 48 1) || bfld bs 49 1 / 4 != 0 || bfld bs 50 14 != 0 else bfld bs 40 24 != 0

/-- PBIN and SPLAT (R337). -/
def submitBody (kind : Nat) (d a b : BitVec 6) (k : Ctx) : Except Stop Eff :=
  match checkRange k.s k.t k.th k.iw (k.g64 a) 64 64 .load false [0x00, 0xF0] false with
  | .error e => .error e
  | .ok as_ =>
    match recordAddr k b with
    | some st => .error st
    | none =>
      let (bs, s) := readNow k.s k.t as_
      if primBad kind bs then .error (k.illegal 3)
      else match passFor k s b kind with
        | .error e => .error e
        | .ok (n, s) =>
          if n < 8 then inState s (retLater k 4 d [wordN n])
          else match kget? s.passes (n - 8) with
            | none => inState s (retLater k 4 d [5])
            | some p =>
              let (st, s) := submit s k (n - 8) p kind bs
              inState s (retLater k 4 d [wordN st])

/-- PBIN (R337). -/
def execPbin (sw : Bool) (d a b : BitVec 6) (x y : Bool) (s : State) : Host.Outcome State Fault Refusal :=
  issue (.pbin sw d a b x y) [srcPair a x, srcPair b y] (submitBody 0 d a b) s

/-- SPLAT (R337). -/
def execSplat (sw : Bool) (d a b : BitVec 6) (x y : Bool) (s : State) : Host.Outcome State Fault Refusal :=
  issue (.splat sw d a b x y) [srcPair a x, srcPair b y] (submitBody 1 d a b) s

/-- PBEND and SPLATEND: the thread's binding of a kind ends (R323, R338). -/
def endBody (kind : Nat) (k : Ctx) : Except Stop Eff :=
  .ok { st := setThread (endBinding k.s k.t (k.th.binding kind)) k.t (k.th.bind kind none) }

/-- PBEND (R338). -/
def execPbend (sw : Bool) (s : State) : Host.Outcome State Fault Refusal := issue (.pbend sw) [] (endBody 0) s

/-- SPLATEND (R338). -/
def execSplatend (sw : Bool) (s : State) : Host.Outcome State Fault Refusal := issue (.splatend sw) [] (endBody 1) s

/-! ### HSRNEXT, IPA and FRAGW (R339 to R341) -/

/-- The pass of a kind a pair names for the thread's seal, live or finished. -/
def passOfSeal (k : Ctx) (a : BitVec 6) (kind : Nat) : Except Stop (Nat × Pass) :=
  match (if (recordAddr k a).isSome then none else passNamed k a) with
  | some (id, p) => if p.sealId == k.th.sealId && p.r.kind == kind then .ok (id, p) else .error (k.illegal 3)
  | none => .error (k.illegal 3)

/-- HSRNEXT (R339). -/
def hsrnextBody (d a b : BitVec 6) (k : Ctx) : Except Stop Eff :=
  match passOfSeal k a 0 with
  | .error e => .error e
  | .ok (id, p) =>
    let strip := (k.g b).toNat
    if p.r.nstrip ≤ strip then .error (k.illegal 3)
    else if p.finished then
      inState (modThread k.s k.t (fun th => th.takePts p.pts)) (retLater k 4 d [0, 0, wordN (2 ^ 31 + b2n p.fault * 2 ^ 30), 0])
    else
      let w : FragWait := ⟨k.t, k.th.seq⟩
      .ok { st := k.s, launch := some { ec := 4, dests := range d.toNat 4, op := .unit id }
            after := fun s => serve (modPass s id (fun p => { p with waits := kset p.waits strip (kgetD p.waits strip [] ++ [w]) })) id strip }

/-- HSRNEXT (R339). -/
def execHsrnext (sw : Bool) (d a b : BitVec 6) (x y : Bool) (s : State) : Host.Outcome State Fault Refusal :=
  issue (.hsrnext sw d a b x y) [srcPair a x, src b y] (hsrnextBody d a b) s

/-- IPA (R340), after the thread's earlier requests on the pass (R402; log 165). DESIGN CHOICE (log 191): a plane of 12 bytes is
aligned to 4. -/
def ipaBody (d a b : BitVec 6) (m : Bool) (k : Ctx) : Except Stop Eff :=
  match handleOf k.s (k.g a).toNat with
  | none => .error (k.illegal 3)
  | some (_, p, _, f, _) =>
    let bs := nthD p.prims f.prim []
    let i := (k.g b).toNat
    if p.sealId != k.th.sealId || bfld bs 48 1 ≤ i then .error (k.illegal 3)
    else if p.asksBefore k.t k.th.seq then .error (.held (holdAt k.s k.t))
    else
      match checkRange k.s k.t k.th k.iw ((bfld bs 40 8 + 12 * i) % 2 ^ 64) 12 4 .load false [0x00] true with
      | .error e => .error e
      | .ok as_ =>
        let (c, s) := readNow k.s k.t as_
        let (w, h) := rungSize f.rung
        let v := planeAt (bfld c 0 4) (bfld c 4 4) (bfld c 8 4) (2 * f.x + w) (2 * f.y + h)
        inState s (retLater k 4 d (if m then [wordN v, wordN (bfld c 0 4), wordN (bfld c 4 4), 0] else [wordN v]))

/-- IPA (R340). -/
def execIpa (sw : Bool) (d a b : BitVec 6) (x y m : Bool) (s : State) : Host.Outcome State Fault Refusal :=
  issue (.ipa sw d a b x y m) [src a x, src b y] (ipaBody d a b m) s

/-- Write a fragment's colour to its pixels in the on-chip tile. -/
def paintFrag (p : Pass) (key : Nat) (f : Frag) (c : Nat) : Pass :=
  let k := p.r.key (key / 2 ^ 19) f.tile
  let cx := f.x - p.r.tileX f.tile; let cy := f.y - (p.r.stripY (key / 2 ^ 19) + p.r.tileY f.tile)
  let (w, h) := rungSize f.rung
  let paint (m : KMap Nat) : KMap Nat :=
    ((List.range (w * h)).filter f.mask.testBit).foldl (fun m b => kset m (32 * (cy + b / w) + cx + b % w) c) m
  { p with tiles := kmod p.tiles k (fun x => { x with px := paint x.px }) }

/-- FRAGW (R341), after the thread's earlier requests on the pass (R402; log 165). -/
def execFragw (sw : Bool) (a b : BitVec 6) (x y : Bool) (s : State) : Host.Outcome State Fault Refusal :=
  issue (.fragw sw a b x y) [src a x, src b y]
    (fun k =>
      let h := (k.g a).toNat
      match handleOf k.s h with
      | none => .error (k.illegal 3)
      | some (id, p, key, f, _) =>
        if p.sealId != k.th.sealId then .error (accessViolation 5 h k.iw)
        else if 2 ^ 30 ≤ (k.g b).toNat then .error (k.illegal 3)
        else if p.asksBefore k.t k.th.seq then .error (.held (holdAt k.s k.t))
        else .ok { st := endHandle (modPass k.s id (fun p => paintFrag p key f (k.g b).toNat)) id key f.tile }) s

/-! ### STIPRUN and STIPRD (R342, R343) -/

/-- Threads for which a station's unit holds or has promised a result. -/
def stipThreads (s : State) (st : Nat) : List Nat :=
  ((s.stips.filter (fun p => p.2.station == st)).map (·.1)
    ++ (s.passes.filter (fun p => p.2.station == st)).flatMap (fun p => p.2.runs.map (·.1))).foldl insertNew []

/-- Results a station's unit holds or has promised to other threads. -/
def stipUsed (s : State) (st t : Nat) : Nat := ((stipThreads s st).filter (· != t)).length

/-- STIPRUN (R342). -/
def stiprunBody (d a b : BitVec 6) (k : Ctx) : Except Stop Eff :=
  match passOfSeal k a 1 with
  | .error e => .error e
  | .ok (id, p) =>
    let v := (k.g b).toNat
    let t := fld v 0 16; let strip := fld v 16 6
    if v / 2 ^ 22 != 0 || decide (p.r.tps ≤ t) || decide (p.r.nstrip ≤ strip) then .error (k.illegal 3)
    else if p.finished then retLater k 4 d [wordN (2 ^ 17 + b2n p.fault * 2 ^ 18)]
    else if 64 ≤ stipUsed k.s p.station k.t then .error (.held (holdAt k.s k.t))
    else
      .ok { st := k.s, launch := some { ec := 4, dests := [d.toNat], op := .unit id }
            after := fun s => serveRuns (modPass s id (fun p => { p with runs := p.runs ++ [(k.t, k.th.seq, p.r.key strip t)] })) id }

/-- STIPRUN (R342). -/
def execStiprun (sw : Bool) (d a b : BitVec 6) (x y : Bool) (s : State) : Host.Outcome State Fault Refusal :=
  issue (.stiprun sw d a b x y) [srcPair a x, src b y] (stiprunBody d a b) s

/-- STIPRD (R343): it waits for a run of the thread that has not been composited. -/
def execStiprd (sw : Bool) (d a : BitVec 6) (x : Bool) (s : State) : Host.Outcome State Fault Refusal :=
  issue (.stiprd sw d a x) [src a x]
    (fun k =>
      if k.s.passes.any (fun p => p.2.runs.any (fun r => r.1 == k.t)) then .error (.held (holdAt k.s k.t))
      else match kget? k.s.stips k.t with
      | none => .error (k.illegal 3)
      | some r =>
        match r.px[(k.g a).toNat]? with
        | none => .error (k.illegal 3)
        | some (cr, cg, cb, ct) => retLater k 4 d ([cr, cg, cb, ct].map wordN)) s

end Sys2Proof.Machine
end

