-- ==== Sys2Proof/Machine/Errors.lean ====
section
/-!
DEFINITION. The end of a seal, the effects of detected errors, the watchdog, and fencing (R344, R358, R418 to R427).
-/
namespace Sys2Proof.Machine

/-! ### The end of a seal (R419) -/

/-- Every slot rendered for a seal stands for fill (R419, step 4). -/
def fillSlots (s : State) (sealId : Nat) : State :=
  { s with reservoir := s.reservoir.map (fun p => (p.1, { p.2 with slots := p.2.slots.map (fun q =>
      if q.2.sealId == sealId && (q.2.state == 1 || q.2.state == 2) then (q.1, { q.2 with state := 2, px := [] }) else q) })) }

/-- Queues bound to a seal are emptied, and their EN cleared; QCFG.SEAL stays (R247). -/
def dropQueues (s : State) (sealId : Nat) : State :=
  { s with queues := s.queues.map (fun p => if p.2.en && p.2.sealId == sealId then (p.1, { en := false, sealId := sealId }) else p) }

/-- The grids of an ended seal get its completion status; those with no team left are complete. One that was complete keeps
its own (R67, R419). -/
def endGrids (s : State) (sealId status : Nat) : State :=
  let mine := s.grids.filter (fun p => p.2.lr.sealId % 1024 == sealId && !p.2.waiting)
  let s := mine.foldl (fun s p => modGrid s p.1 (fun g => { g with status := status })) s
  mine.foldl (fun s p => match grid? s p.1 with
    | some g => if !g.hidden && gridOver s g then finishGrid s p.1 else s
    | none => s) s

/-- A command of an ended seal ends; one with bursts in flight ends after them (R266, R272, R278). -/
def cancelCopy (s : State) (id : Nat) (c : CopyCmd) : State :=
  if c.settled then endCopy s id 7 else modCopy s id (fun c => { c with ending := some 7 })

/-- End a LIVE seal with a cause and the status its grids get: contexts ended, commands cancelled, and the state. -/
def sealEnd (s : State) (x cause status : Nat) : Nat × Nat × State :=
  if x == 0 || (sealOf s x).state != 1 then (0, 0, s)
  else
    let ths := s.threads.filter (fun p => p.2.sealId == x)
    let cps := s.copies.filter (fun p => p.2.sealId == x)
    let s := modSeal s x (fun e => { e with state := 2, cause := cause, status := status })
    let s := (s.chains.filter (fun p => p.2.sealId == x)).foldl (fun s p => killChain s p.1) s
    let s := ths.foldl (fun s p => endThread s p.1) s
    let s := cps.foldl (fun s p => cancelCopy s p.1 p.2) s
    let s := (s.feeds.filter (fun p => p.2.sealId == x && p.2.running)).foldl (fun s p => endFeed s p.1 p.2 5) s
    let s := { s with passes := s.passes.filter (fun p => p.2.sealId != x) }
    let s := dropQueues s x
    let s := fillSlots s x
    let s := endGrids s x status
    (ths.length, cps.length, advanceGraphs s)

/-- End a seal, the counts unwanted. -/
def sealEndOnly (s : State) (x cause status : Nat) : State := (sealEnd s x cause status).2.2

/-! ### SEAL_FREE (R418) -/

/-- Every structure of a seal has been released. -/
def sealDrained (s : State) (x : Nat) : Bool :=
  !s.threads.any (fun p => p.2.sealId == x) && !s.teams.any (fun p => p.2.sealId == x) && !s.grids.any (fun p => p.2.lr.sealId % 1024 == x)
    && !s.copies.any (fun p => p.2.sealId == x) && !s.feeds.any (fun p => p.2.sealId == x && p.2.running)
    && !s.mtx.any (fun p => p.2.sealId == x) && !s.chains.any (fun p => p.2.sealId == x)

/-- Drop translations, walk results and reported faults of seals a test names (R181, R418). -/
def dropSealPages (s : State) (x : Nat) : State :=
  { s with stations := s.stations.map (fun p => (p.1,
      { p.2 with tlb := p.2.tlb.filter (fun e => e.sealId != x), walks := p.2.walks.filter (fun w => w.sealId != x)
                 faults := p.2.faults.filter (fun f => f.sealId != x) })) }

/-- Bytes of the weight store in a seal's regions are scrubbed, and the regions released. -/
def scrubRegions (s : State) (x : Nat) : State :=
  let mine (r : Nat) : Bool := ((kget? s.regions r).map (·.sealId)) == some x
  { s with weight := s.weight.filter (fun c => !mine (c.1 / 2 ^ 21)), regions := s.regions.filter (fun p => p.2.sealId != x) }

/-- Scheduler memory and graphs of a seal are scrubbed (R458, R459). -/
def dropSched (s : State) (x : Nat) : State :=
  let mine (a : Nat) : Bool := kget? s.schedTags (a / 64) == some x
  let s := { s with sched := s.sched.filter (fun c => !mine c.1), schedTags := s.schedTags.filter (fun p => p.2 != x) }
  modDev s (fun d => { d with graphs := d.graphs.filter (fun g => g.2.sealId != x) })

/-- The ray save areas of a seal are scrubbed: zeros are stored (R357). -/
def scrubRays (s : State) (x : Nat) : State :=
  modSeal ((sealOf s x).rayAreas.foldl (fun s a => storeDevice s a 0 0 (List.replicate 512 0)) s) x (fun e => { e with rayAreas := [] })

/-- Release what an ENDING seal still holds; it is FREE. -/
def freeSeal (s : State) (x : Nat) : State :=
  let s := scrubRegions (dropSealPages s x) x
  let s := modLines s (fun l => { l with pins := l.pins.filter (fun p => p.sealId != x), poison := l.poison.filter (fun p => p.2 != x)
                                         dirty := l.dirty.filter (fun p => p.2 != x) })
  let s := if (sealOf s x).cause == causeSealedErr then dropSched s x else s
  let s := scrubRays s x
  modSeal s x (fun e => { e with state := 0, wdAt := none })

/-- SEAL_FREE (R418). -/
def execSealFree (x : Nat) (s : State) : Host.Outcome State Fault Refusal :=
  .next (if (sealOf s x).state == 2 && sealDrained s x then freeSeal s x else s)

/-! ### Detected errors (R420 to R424) -/

/-- Change the error state. -/
def modErrors (s : State) (f : ErrorState → ErrorState) : State := { s with errors := f s.errors }

/-- The entry of the pipe table a reservoir page is lent to. -/
def lentTo (s : State) (page : Nat) : Option (Nat × Pipe) := s.pipes.find? (fun p => p.2.pages.contains page)

/-- Seal of the slot a reservoir page belongs to; 0 when FREE. -/
def pageSealOf (s : State) (page : Nat) : Nat :=
  (s.reservoir.findSome? (fun p =>
    if p.2.en && p.2.pages.contains page then
      let y := kgetD p.2.slots ((page - p.2.rbase) / Nat.max 1 p.2.slotPages) {}
      some (if y.state == 0 then 0 else y.sealId)
    else none)).getD 0

/-- The team a core's scratchpad byte is allocated to. -/
def teamAtByte (s : State) (c off : Nat) : Option Team :=
  ((coreTeams s c).find? (fun p => decide (p.2.base ≤ off) && decide (off < p.2.base + p.2.spadSize))).map (·.2)

/-- Whose share an entry falls in, where shares stand one after another. -/
def holderAt {α : Type} : List (α × Nat) → Nat → Option α
  | [], _ => none
  | (x, n) :: ps, i => if i < n then some x else holderAt ps (i - n)

/-- Whose an entry is, where the entries not withheld are handed out in order (log 167). -/
def shareAt {α : Type} (shares : List (α × Nat)) (lost : List Nat) (i : Nat) : Option α :=
  if lost.contains i then none else holderAt shares (i - (lost.filter (fun l => decide (l < i))).length)

/-- Entries of a structure at a place that are withheld. -/
def lostAt (s : State) (code place : Nat) : List Nat :=
  (s.errors.quarantined.filter (fun q => q.1 == code && q.2.1 == place)).map (fun q => q.2.2)

/-- Seal of a register-file entry: fast files by quadrant, the slow file as one. -/
def fileSeal (s : State) (c : Nat) (fast : Bool) (e : Nat) : Nat :=
  let q := e / 16384
  let ths := (coreThreads s c).filter (fun p => !fast || (p.2.quadrant == q && p.2.active))
  ((if fast then shareAt (ths.map (fun p => (p.2.sealId, p.2.budget))) (lostFast s c q) (e % 16384)
    else shareAt (ths.map (fun p => (p.2.sealId, p.2.budget))) (lostAt s 0x02 c) e)).getD 0

/-- Seal of the group that holds a tile or bitmap register. -/
def tileSeal (s : State) (c e : Nat) : Nat :=
  let q := e / 16
  (shareAt ((coreTeams s c).map (fun p => (p.2.sealId, groupsOn p.2.groups q * p.2.tiles))) (lostTiles s c q) (e % 8)).getD 0

/-- A command in a slot of a station's engines: 64 slots each. -/
def commandAt (s : State) (st e : Nat) : Option CopyCmd :=
  shareAt ((engineHeld s (2 * st + e / 64)).map (fun p => (p.2, 1))) (((lostAt s 0x0B st).filter (fun l => l / 64 == e / 64)).map (· % 64)) (e % 64)

/-- Seal of the owner of a slot of a station's ray table. -/
def raySeal (s : State) (st e : Nat) : Nat :=
  (shareAt (s.rays.filterMap (fun p => (thread? s p.2.owner).bind (fun th =>
    if !th.evicted && stationOf (coreOf s th) == st then some (th.sealId, 1) else none))) (lostAt s 0x0E st) e).getD 0

/-- The pipe whose reference a line of the store belongs to: 512 lines a unit. -/
def pipeAtLine (s : State) (e : Nat) : Option Nat :=
  (shareAt (s.pipes.map (fun p => (p.1, p.2.units))) ((lostAt s 0x10 0).foldl (fun l e => insertNew l (e / 512)) []) (e / 512))

/-- Seal of an entry of the pipe table. -/
def pipeSeal (s : State) (key : Nat) : Nat := ((kget? s.pipes key).map (·.tpl.sealId)).getD 0

/-- The seal an entry carries (R420). -/
def unitSeal (s : State) (u : ErrUnit) : Nat :=
  match u.struct with
  | 0x01 => fileSeal s u.place true u.entry
  | 0x02 => fileSeal s u.place false u.entry
  | 0x03 => tileSeal s u.place u.entry
  | 0x04 => ((((core s u.place).bankSet (u.entry / 4096 == 1)).holder.bind (fun h => team? s h.1)).map (·.sealId)).getD 0
  | 0x05 => ((teamAtByte s u.place u.entry).map (·.sealId)).getD 0
  | 0x06 => ((thread? s u.place).map (·.sealId)).getD 0
  | 0x08 => kgetD s.lines.dirty u.entry 0
  | 0x09 => u.tag
  | 0x0A => u.tag
  | 0x0B => ((commandAt s u.place u.entry).map (·.sealId)).getD 0
  | 0x0C => ((kget? s.feeds (feedKey u.place u.entry)).map (·.sealId)).getD 0
  | 0x0D => (kgetD s.queues (256 * u.place + u.entry) {}).sealId
  | 0x0E => raySeal s u.place u.entry
  | 0x0F => match lentTo s u.entry with
    | some p => p.2.tpl.sealId
    | none => pageSealOf s u.entry
  | 0x10 => ((pipeAtLine s u.entry).map (pipeSeal s)).getD 0
  | 0x11 => (kgetD s.regions u.entry {}).sealId
  | 0x12 => (((station s u.place).tlb[u.entry]?).map (·.sealId)).getD 0
  | 0x13 => kgetD s.schedTags u.entry 0
  | _ => 0

/-- Core of a private-slice line of a thread, and its slot there: 8 of each lane. -/
def laneSlot (s : State) (t line : Nat) : Nat × Nat :=
  match thread? s t with
  | none => (0, line)
  | some th =>
    let c := coreOf s th
    (c, 8 * th.laneKey + (kgetD (core s c).lanes th.laneKey []).findIdx (· == (t, line)) % 8)

/-- The unit in which an entry is quarantined. -/
def quarUnit (s : State) (u : ErrUnit) : Nat × Nat × Nat :=
  match u.struct with
  | 0x05 => (0x05, u.place, u.entry / 1024 * 1024)
  | 0x06 => (0x06, laneSlot s u.place u.entry)
  | _ => (u.struct, u.place, u.entry)

/-- Withhold a unit from use. -/
def quarantine (s : State) (u : ErrUnit) : State :=
  let q := quarUnit s u
  if s.errors.quarantined.contains q then s else modErrors s (fun e => { e with quarantined := e.quarantined ++ [q] })

/-- INDEX of an entry's record: core, station or slice, and the entry's number there (R423). DESIGN CHOICE (log 167). -/
def unitIndex (s : State) (u : ErrUnit) : Nat :=
  let p := match u.struct with
    | 0x06 => laneSlot s u.place u.entry
    | 0x07 => (if u.place < 320 then u.place else u.place - 320, u.entry)
    | _ => (u.place, u.entry)
  p.1 % 2 ^ 10 * 2 ^ 22 + p.2 % 2 ^ 22

/-- The entry is always clean, can be had again, or has a second copy: its loss is a REFETCH. -/
def refetched (s : State) (u : ErrUnit) : Bool :=
  u.struct == 0x07 || u.struct == 0x12 || u.struct == 0x14 || (u.struct == 0x08 && (kget? s.lines.dirty u.entry).isNone)
    || (u.struct == 0x0A && u.tag == 0)

/-- What the loss of an entry does besides ending its seal. -/
def loseEntry (s : State) (u : ErrUnit) : State :=
  let key (p : Nat) : State := { s with pipes := kmod s.pipes p (fun x => { x with keyNext := true }) }
  match u.struct with
  | 0x07 => modLines s (fun x => { x with copies := x.copies.filter (fun c => !(c.place == u.place && c.line == u.entry)) })
  | 0x08 => match kget? s.lines.dirty u.entry with
    | some x => modLines s (fun l => { l with poison := kset l.poison u.entry x })
    | none => s
  | 0x09 => modLines s (fun l => { l with poison := kset l.poison u.entry u.tag })
  | 0x0F => match lentTo s u.entry with
    | some p => key p.1
    | none => s
  | 0x10 => match pipeAtLine s u.entry with
    | some p => key p
    | none => s
  | 0x11 => { s with weight := s.weight.filter (fun c => c.1 / 2 ^ 21 != u.entry) }
  | 0x0D => { s with queues := kmod s.queues (256 * u.place + u.entry) (fun q => { en := false, sealId := q.sealId }) }
  | 0x12 => modStation s u.place (fun x => { x with tlb := x.tlb.eraseIdx u.entry })
  | _ => s

/-- Reservations whose place is withheld are made again, or wait (R383). -/
def settleAfter (s : State) (u : ErrUnit) : State := if u.struct ≤ 0x05 then remakeReserves s else s

/-- SYNDROME: the origin, and a check's syndrome, which stays open. -/
def syndrome (s : State) (injected : Bool) : Nat × State :=
  let (d, s) := draw s 2
  ((if injected then 2 else 1) * 2 ^ 56 + (Config.freeWord d).toNat + (Config.freeWord (d + 1)).toNat % 2 ^ 24 * 2 ^ 32, s)

/-- Log a detected error. -/
def logError (s : State) (u : ErrUnit) (kind sealId index extra : Nat) (injected : Bool) : State :=
  let (y, s) := syndrome s injected
  let s := logEvent s { kind := kind, struct := u.struct, sealId := sealId, index := index, syndrome := y, extra := extra }
  modErrors s (fun e => { e with uncorr := sat (e.uncorr + 1) 255 })

/-- EXTRA of kinds 1 to 3. -/
def endCounts (contexts commands : Nat) : Nat := sat commands 65535 + sat contexts 32767 * 2 ^ 16

/-- Every context ends, the units have nothing left to do, outputs go on and send fill, and the package is in RECOVERY as
after a failed verification (R17, R421). -/
def fatal (s : State) : State :=
  let s := s.chains.foldl (fun s p => killChain s p.1) s
  let s := s.threads.foldl (fun s p => endThread s p.1) s
  let s := (s.feeds.filter (fun p => p.2.running)).foldl (fun s p => endFeed s p.1 p.2 5) s
  let s := (List.range 1024).foldl fillSlots s
  let s := { s with copies := [], mtx := [], rays := [], passes := [], stips := [], reserves := [], heirs := [], commits := [] }
  let s := modErrors s (fun e => { e with fatal := true })
  modDev s (fun d => { d with power := { state := 3 }, stage := 1, fail := 1 })

/-- An uncorrectable error takes effect (R420 to R422). -/
def loseUnit (s : State) (u : ErrUnit) (injected : Bool) : State :=
  let x := unitSeal s u
  let index := unitIndex s u
  if u.struct == 0x14 && u.both then fatal (logError s u 7 0 index 0 injected)
  else if x != 0 && (sealOf s x).state == 2 then logError s u 1 x index 0 injected
  else
    let re := refetched s u
    let s := settleAfter (loseEntry (quarantine s u) u) u
    if re || x == 0 then logError s u (if re then 2 else 1) x index 0 injected
    else
      let (n, c, s) := sealEnd s x causeSealedErr 1
      logError s u 1 x index (endCounts n c) injected

/-- The entry's check detects an error. -/
def handleError (s : State) (u : ErrUnit) (unc injected : Bool) : State :=
  if unc then loseUnit s u injected else modErrors s (fun e => { e with corr := sat (e.corr + 1) 65535 })

/-- Take a detected error off the list of those due: whether it was injected. -/
def takeDue (s : State) (u : ErrUnit) (unc : Bool) : Bool × State :=
  match s.errors.due.find? (fun d => d.1 == u && d.2.1 == unc) with
  | some d => (d.2.2, modErrors s (fun e => { e with due := e.due.erase d }))
  | none => (false, s)

/-- UNCORRECTABLE_ERROR (R420). -/
def execUncorrectableError (u : ErrUnit) (s : State) : Host.Outcome State Fault Refusal :=
  .next (let (inj, s) := takeDue s u true
    handleError s u true inj)

/-- CORRECTABLE_ERROR (R420). -/
def execCorrectableError (u : ErrUnit) (s : State) : Host.Outcome State Fault Refusal :=
  .next (let (inj, s) := takeDue s u false
    handleError s u false inj)

/-- ERRSTAT (R424). -/
def errstat (s : State) : Nat :=
  sat s.errors.corr 65535 * 2 ^ 16 + sat s.errors.uncorr 255 * 2 ^ 8 + sat s.errors.quarantined.length 255

/-! ### The watchdog (R425, R426) -/

/-- WDOG of a launch queue. -/
def wdog (s : State) (q : Nat) : Nat := kgetD s.dev.wdog q 0x84010040

/-- A watchdog interval in ACLK cycles: 0 for W1, 1 for W2, 2 for W3. -/
def wdogCycles (s : State) (q i : Nat) : Nat := fld (wdog s q) (10 * i) 10 * 2 ^ 20

/-- Teams of a grid. -/
def gridTeams (s : State) (gid : Nat) : KMap Team := s.teams.filter (fun p => p.2.grid == gid)

/-- Step 1: pre-emption of every team, and WATCHDOG to every resident thread. -/
def watchdog1 (s : State) (gid q : Nat) : State :=
  let ts := gridTeams s gid
  let s := modGrid s gid (fun g => { g with wdStep := 1, wdSince := 0 })
  let s := ts.foldl (fun s p => requestEviction s p.1) s
  (s.threads.filter (fun p => !p.2.evicted && ts.any (fun t => t.1 == p.2.team))).foldl
    (fun s p => raiseAsync s p.1 causeWatchdog [1, wordN q]) s

/-- WATCHDOG_W1 (R426). -/
def execWatchdogW1 (gid : Nat) (s : State) : Host.Outcome State Fault Refusal :=
  .next (match grid? s gid with
    | some g =>
      let q := g.lr.queue
      if !g.hidden && g.wdStep == 0 && flag (wdog s q) 31 && decide (wdogCycles s q 0 ≤ g.wdCount) then watchdog1 s gid q else s
    | none => s)

/-- WATCHDOG_W2 (R426): the grid's seal is ended, and a record names the queue. -/
def execWatchdogW2 (gid : Nat) (s : State) : Host.Outcome State Fault Refusal :=
  .next (match grid? s gid with
    | some g =>
      let q := g.lr.queue; let x := g.lr.sealId % 1024
      if g.wdStep != 1 || decide (g.wdSince < wdogCycles s q 1) || (sealOf s x).state != 1
          || !(gridTeams s gid).any (fun p => !p.2.evicted) then s
      else
        let s := modGrid s gid (fun g => { g with wdStep := 2 })
        let (n, c, s) := sealEnd s x causeWatchdog 1
        let s := modSeal s x (fun e => { e with wdAt := some s.aclk, wdQueue := q })
        logEvent s { kind := 3, sealId := x, index := q, syndrome := causeWatchdog, extra := endCounts n c }
    | none => s)

/-! ### Fencing (R427) -/

/-- Fence a core: it admits no team, and its teams of other seals are to leave. -/
def fenceCore (s : State) (c x : Nat) : State :=
  let s := modCore s c (fun k => { k with fenced := true })
  let s := (coreTeams s c).foldl (fun s p => if p.2.sealId == x then s else requestEviction s p.1) s
  remakeReserves s

/-- A core holds a context of a seal that has not ended: a thread, or a feed context that runs. -/
def holdsContext (s : State) (c x : Nat) : Bool :=
  (coreThreads s c).any (fun p => p.2.sealId == x) || (range (feedKey c 0) 8).any (fun k => match kget? s.feeds k with
    | some f => f.sealId == x && f.running
    | none => false)

/-- The ended seal whose W3 interval has run out with a context of it still on a core that has not ended (R426). -/
def overdueSeal (s : State) (c : Nat) : Option (Nat × Nat) :=
  s.seals.findSome? (fun p => match p.2.wdAt with
    | some t =>
      if p.2.state == 2 && decide (t + wdogCycles s p.2.wdQueue 2 ≤ s.aclk)
          && holdsContext s c p.1 then some (p.1, p.2.wdQueue) else none
    | none => none)

/-- WATCHDOG_W3 (R426). -/
def execWatchdogW3 (c : Nat) (s : State) : Host.Outcome State Fault Refusal :=
  .next (match overdueSeal s c with
    | some (x, _) =>
      if (core s c).fenced then s
      else logEvent (fenceCore s c x) { kind := 4, sealId := x, index := c % 2 ^ 10 * 2 ^ 22, syndrome := causeWatchdog }
    | none => s)

/-- Structures that stand on a core. -/
def onCore (q : Nat × Nat × Nat) (c : Nat) : Bool := q.2.1 == c && (decide (q.1 ≤ 0x07) || q.1 == 0x0C)

/-- The self-test of a fenced core: a withheld unit that passes returns; whether it passes is open. -/
def selfTest (s : State) (c : Nat) : State :=
  let (d, s) := draw s s.errors.quarantined.length
  let kept := (s.errors.quarantined.zipIdx).filter (fun q => !(onCore q.1 c && Config.freeBit (d + q.2)))
  modErrors s (fun e => { e with quarantined := kept.map (·.1) })

/-- CORE_RETURN (R427). -/
def execCoreReturn (c : Nat) (s : State) : Host.Outcome State Fault Refusal :=
  .next (if !(core s c).fenced || !(coreTeams s c).isEmpty then s
    else remakeReserves (selfTest (modCore s c (fun k => { k with fenced := false })) c))

end Sys2Proof.Machine
end

