-- ==== Sys2Proof/Machine/Integer.lean ====
section
/-!
DEFINITION. NOP, EXT and the integer, address and logic instructions (R38 to R40, R109 to R129).
-/
namespace Sys2Proof.Machine

/-- NOP (R38). -/
def execNop (sw : Bool) (s : State) : Host.Outcome State Fault Refusal :=
  issue (.nop sw) [] (fun k => .ok { st := k.s }) s

/-! ### EXT (R39, R40) -/

/-- An EXT word latches for the next word of its clause, unless its form or place is wrong. DESIGN CHOICE (log 182): the second
of a form is judged before the last word of a clause. -/
def extLatch (i : Instr) (immediate : Bool) (s : State) : Host.Outcome State Fault Refusal :=
  match s.cur, s.cur.bind (thread? s) with
  | some t, some th =>
    let w := (encode i).headD 0
    let k := ctxOf s t th
    if (if immediate then k.imm.isSome else k.ctl.isSome) then
      .next (stopped s t (k.extFault (wordN w)))
    else if th.lastWord then .next (stopped s t (.trap causeClauseForm 6
      ((th.clause.map Clause.headerWord).getD 0) (wordN th.word) (wordN w)))
    else
      let first := if k.ctl.isSome || k.imm.isSome then th.ext.first else th.word
      let e : ExtLatch := if immediate then { th.ext with imm := some w, first := first }
        else { th.ext with ctl := some w, first := first }
      .next (setThread s t { th with ext := e, word := th.word + 1, wait := .ready })
  | _, _ => .fault .noThread

/-- EXT, control form (R39). -/
def execExtControlForm (p : BitVec 3) (n e : Bool) (r : BitVec 3) (t : Bool) (c : BitVec 6) (l : Bool) (s : State) :
    Host.Outcome State Fault Refusal := extLatch (.extControlForm p n e r t c l) false s

/-- EXT, immediate form (R39). -/
def execExtImmediateForm (i : BitVec 20) (s : State) : Host.Outcome State Fault Refusal :=
  extLatch (.extImmediateForm i) true s

/-! ### Moves (R111 to R113) -/

/-- MOV (R112). -/
def execMov (sw : Bool) (d a : BitVec 6) (x : Bool) (s : State) : Host.Outcome State Fault Refusal :=
  issue (.mov sw d a x) [src a x] (fun k => ret k d (k.g a)) s

/-- MOVI (R112). -/
def execMovi (sw : Bool) (d : BitVec 6) (i : BitVec 15) (s : State) : Host.Outcome State Fault Refusal :=
  issue (.movi sw d i) [] (fun k => ret k d (k.immC i true)) s

/-- MOVH's high word (R112). -/
def Ctx.movhWord (k : Ctx) (i : BitVec 15) : Word :=
  match k.imm with
  | none => wordN (i.toNat * 2 ^ 17)
  | some _ => k.immC i false

/-- MOVH (R112). -/
def execMovh (sw : Bool) (d : BitVec 6) (i : BitVec 15) (s : State) : Host.Outcome State Fault Refusal :=
  issue (.movh sw d i) [] (fun k => .ok { st := k.s, writes := [(d.toNat, 0), (d.toNat + 1, k.movhWord i)] }) s

/-- REFSCHED (R191, R192) at a time in units of 2^-30 s. -/
def refSched (tnow : Nat) : Word :=
  let p := (tnow % 2 ^ 30 * 1000000000 / 2 ^ 30) % 32000
  let b := p / 1000
  let r := p % 1000
  if r < 512 then wordN (2 ^ 21 + b * 2 ^ 16 + (512 - r))
  else wordN ((b + 1) % 32 * 2 ^ 16 + (1000 - r))

/-- Sources 0x000 to 0x030 of R111 besides %pts and %tpc. -/
def movsSource (s : State) (th : Thread) (n : Nat) : Option Word :=
  let tm := team? s th.team
  let g := tm.bind (fun t => grid? s t.grid)
  let ofTeam (f : Team → Nat) : Option Word := some (wordN ((tm.map f).getD 0))
  let ofGrid (f : LaunchRecord → Nat) : Option Word := some (wordN ((g.map (fun g => f g.lr)).getD 0))
  match n with
  | 0x000 => some (wordN th.tid)
  | 0x001 => some (wordN th.gid)
  | 0x002 => some (wordN th.mid)
  | 0x003 => some (wordN th.lane)
  | 0x004 => some (wordN th.quadrant)
  | 0x005 => ofTeam (·.core)
  | 0x006 => ofTeam (fun t => stationOf t.core)
  | 0x007 => ofTeam (·.cluster)
  | 0x008 => ofTeam (·.x)
  | 0x009 => ofTeam (·.y)
  | 0x00A => ofTeam (·.z)
  | 0x00B => ofGrid (·.gx)
  | 0x00C => ofGrid (·.gy)
  | 0x00D => ofGrid (·.gz)
  | 0x00E => some (wordN th.role)
  | 0x00F => some (wordN th.sealId)
  | 0x010 => ofGrid (fun l => l.args % 2 ^ 32)
  | 0x011 => ofGrid (fun l => l.args / 2 ^ 32)
  | 0x012 => some (wordN (th.preds % 256))
  | 0x018 => some (wordN (th.counter 0))
  | 0x019 => some (wordN (th.counter 1))
  | 0x01A => some (wordN (th.counter 2))
  | 0x01B => some (wordN (th.counter 3))
  | 0x01C => some (wordN (th.counter 4))
  | 0x01D => some (wordN (th.counter 5))
  | 0x020 => some (wordN th.trap.cause)
  | 0x023 => some th.trap.info0
  | 0x024 => some th.trap.info1
  | 0x025 => some th.trap.info2
  | 0x026 => some th.trap.info3
  | 0x028 => some th.fmt
  | 0x030 => some (refSched s.tnow)
  | _ => none

/-- The thread with its .lo latches replaced (R113). -/
def Thread.latch (th : Thread) (p t : Option Nat) : Thread := { th with ptsHi := p, tpcHi := t }

/-- MOVS of a feed port: the head entry, or the blocking point "empty queue" (R113). -/
def movsPort (k : Ctx) (d : BitVec 6) (q : Nat) : Except Stop Eff :=
  let s := setThread k.s k.t (k.th.latch none none)
  match team? k.s k.th.team with
  | none => .error (k.illegal 3)
  | some tm =>
    match tm.port k.th.gid q with
    | v :: vs =>
      .ok { st := modTeam s k.th.team (fun tm => { tm with ports := kset tm.ports (gkey k.th.gid q) vs })
            writes := [(d.toNat, v)] }
    | [] =>
      .ok { st := modTeam s k.th.team (fun tm => { tm with
              portWait := kset tm.portWait (gkey k.th.gid q) (kgetD tm.portWait (gkey k.th.gid q) [] ++ [k.t]) })
            later := [d.toNat], flow := .wait (.port q d.toNat) }

/-- MOVS of %pts after every earlier access (R113): the thread waits for replies of other packages. -/
def movsPts (k : Ctx) (d : BitVec 6) (hi : Bool) : Except Stop Eff :=
  if orderWaits k.s k.th then .error (.held (holdAt k.s k.t))
  else
    let s := flush k.s k.t
    match thread? s k.t with
    | none => .error (.held s)
    | some th =>
      let v := if hi then th.ptsHi.getD (th.pts / 2 ^ 32) else th.pts
      .ok { st := setThread s k.t (th.latch (if hi then none else some (th.pts / 2 ^ 32)) none)
            writes := [(d.toNat, wordN (v % 2 ^ 32))] }

/-- MOVS (R113). -/
def movsBody (d : BitVec 6) (i : BitVec 15) (k : Ctx) : Except Stop Eff :=
  let n := (k.immC i false).toNat
  if n == 0x013 then movsPts k d false
  else if n == 0x014 then movsPts k d true
  else if n == 0x021 then
    .ok { st := setThread k.s k.t (k.th.latch none (some (k.th.trap.tpc / 2 ^ 32)))
          writes := [(d.toNat, loW k.th.trap.tpc)] }
  else if n == 0x022 then
    .ok { st := setThread k.s k.t (k.th.latch none none)
          writes := [(d.toNat, wordN ((k.th.tpcHi.getD (k.th.trap.tpc / 2 ^ 32)) % 2 ^ 32))] }
  else if 0x040 ≤ n && n ≤ 0x047 then movsPort k d (n - 0x040)
  else match movsSource k.s k.th n with
  | none => .error (k.illegal 3)
  | some v =>
    let th := k.th.latch none none
    let th := if 0x018 ≤ n && n ≤ 0x01D then th.acquireBelow (n - 0x018) else th
    .ok { st := setThread k.s k.t th, writes := [(d.toNat, v)] }

/-- MOVS (R113). -/
def execMovs (sw : Bool) (d : BitVec 6) (i : BitVec 15) (s : State) : Host.Outcome State Fault Refusal :=
  issue (.movs sw d i) [] (movsBody d i) s

/-! ### Addition, subtraction and carries (R114, R115) -/

/-- IADD (R114). -/
def execIadd (sw : Bool) (d a b : BitVec 6) (x y m : Bool) (s : State) : Host.Outcome State Fault Refusal :=
  issue (.iadd sw d a b x y m) [src a x, src b y]
    (fun k => ret k d (word (saturate k.sat m (typed m (k.g a) + typed m (k.g b))))) s

/-- ISUB (R114). -/
def execIsub (sw : Bool) (d a b : BitVec 6) (x y m : Bool) (s : State) : Host.Outcome State Fault Refusal :=
  issue (.isub sw d a b x y m) [src a x, src b y]
    (fun k => ret k d (word (saturate k.sat m (typed m (k.g a) - typed m (k.g b))))) s

/-- IADDI (R114). -/
def execIaddi (sw : Bool) (d a : BitVec 6) (i : BitVec 7) (x m : Bool) (s : State) : Host.Outcome State Fault Refusal :=
  issue (.iaddi sw d a i x m) [src a x]
    (fun k => ret k d (word (saturate k.sat m (typed m (k.g a) + k.immB i)))) s

/-- The sum or difference with a carry, and the carry out (R115). -/
def addCarry (sub sat : Bool) (a b : Word) (cin : Nat) : Word × Bool :=
  let v : Int := if sub then (a.toNat : Int) - b.toNat - cin else (a.toNat : Int) + b.toNat + cin
  let out := if sub then decide (v < 0) else decide ((2 ^ 32 : Int) ≤ v)
  (if sat && out then (if sub then 0 else 0xFFFFFFFF#32) else word v, out)

/-- IADDC (R115). -/
def execIaddc (sw : Bool) (d a b : BitVec 6) (x y m : Bool) (s : State) : Host.Outcome State Fault Refusal :=
  issue (.iaddc sw d a b x y m) [src a x, src b y, ⟨d.toNat + 1, 1, false⟩]
    (fun k =>
      let r := addCarry m k.sat (k.g a) (k.g b) ((k.th.reg (d.toNat + 1)).toNat % 2)
      .ok { st := k.s, writes := [(d.toNat, r.1), (d.toNat + 1, wordN (b2n r.2))] }) s

/-! ### Multiplication and division (R116, R117) -/

/-- IMUL (R116). -/
def execImul (sw : Bool) (d a b : BitVec 6) (x y : Bool) (s : State) : Host.Outcome State Fault Refusal :=
  issue (.imul sw d a b x y) [src a x, src b y] (fun k => ret k d (k.g a * k.g b)) s

/-- IMULH (R116). -/
def execImulh (sw : Bool) (d a b : BitVec 6) (x y m : Bool) (s : State) : Host.Outcome State Fault Refusal :=
  issue (.imulh sw d a b x y m) [src a x, src b y]
    (fun k => ret k d (word (typed m (k.g a) * typed m (k.g b) / 2 ^ 32))) s

/-- IMAD (R116). -/
def execImad (sw : Bool) (d a b : BitVec 6) (x y m : Bool) (s : State) : Host.Outcome State Fault Refusal :=
  issue (.imad sw d a b x y m) [src a x, src b y]
    (fun k => ret k d (word (saturate k.sat m (typed m (k.g a) * typed m (k.g b) + typed m k.c)))) s

/-- Quotient and remainder (R117). -/
def divRem (m : Bool) (a b : Word) : Word × Word :=
  let x := typed m a; let y := typed m b
  if y = 0 then (if m then 0xFFFFFFFF#32 else if 0 ≤ x then 0x7FFFFFFF#32 else 0x80000000#32, a)
  else (word (x.tdiv y), word (x.tmod y))

/-- IDIV (R117). -/
def execIdiv (sw : Bool) (d a b : BitVec 6) (x y m : Bool) (s : State) : Host.Outcome State Fault Refusal :=
  issue (.idiv sw d a b x y m) [src a x, src b y] (fun k => ret k d (divRem m (k.g a) (k.g b)).1) s

/-- IREM (R117). -/
def execIrem (sw : Bool) (d a b : BitVec 6) (x y m : Bool) (s : State) : Host.Outcome State Fault Refusal :=
  issue (.irem sw d a b x y m) [src a x, src b y] (fun k => ret k d (divRem m (k.g a) (k.g b)).2) s

/-! ### Sign, minimum and maximum (R118) -/

/-- INEG (R118). -/
def execIneg (sw : Bool) (d a : BitVec 6) (x : Bool) (s : State) : Host.Outcome State Fault Refusal :=
  issue (.ineg sw d a x) [src a x] (fun k => ret k d (0 - k.g a)) s

/-- IABS (R118). -/
def execIabs (sw : Bool) (d a : BitVec 6) (x : Bool) (s : State) : Host.Outcome State Fault Refusal :=
  issue (.iabs sw d a x) [src a x] (fun k => ret k d (if s32 (k.g a) < 0 then 0 - k.g a else k.g a)) s

/-- IMIN (R118). -/
def execImin (sw : Bool) (d a b : BitVec 6) (x y m : Bool) (s : State) : Host.Outcome State Fault Refusal :=
  issue (.imin sw d a b x y m) [src a x, src b y]
    (fun k => ret k d (if typed m (k.g a) ≤ typed m (k.g b) then k.g a else k.g b)) s

/-- IMAX (R118). -/
def execImax (sw : Bool) (d a b : BitVec 6) (x y m : Bool) (s : State) : Host.Outcome State Fault Refusal :=
  issue (.imax sw d a b x y m) [src a x, src b y]
    (fun k => ret k d (if typed m (k.g b) ≤ typed m (k.g a) then k.g a else k.g b)) s

/-! ### Logic, shifts and bit fields (R119 to R122) -/

/-- AND (R119). -/
def execAnd (sw : Bool) (d a b : BitVec 6) (x y : Bool) (s : State) : Host.Outcome State Fault Refusal :=
  issue (.and sw d a b x y) [src a x, src b y] (fun k => ret k d (k.g a &&& k.g b)) s

/-- OR (R119). -/
def execOr (sw : Bool) (d a b : BitVec 6) (x y : Bool) (s : State) : Host.Outcome State Fault Refusal :=
  issue (.or sw d a b x y) [src a x, src b y] (fun k => ret k d (k.g a ||| k.g b)) s

/-- XOR (R119). -/
def execXor (sw : Bool) (d a b : BitVec 6) (x y : Bool) (s : State) : Host.Outcome State Fault Refusal :=
  issue (.xor sw d a b x y) [src a x, src b y] (fun k => ret k d (k.g a ^^^ k.g b)) s

/-- NOT (R119). -/
def execNot (sw : Bool) (d a : BitVec 6) (x : Bool) (s : State) : Host.Outcome State Fault Refusal :=
  issue (.not sw d a x) [src a x] (fun k => ret k d (~~~ (k.g a))) s

/-- ANDN (R119). -/
def execAndn (sw : Bool) (d a b : BitVec 6) (x y : Bool) (s : State) : Host.Outcome State Fault Refusal :=
  issue (.andn sw d a b x y) [src a x, src b y] (fun k => ret k d (k.g a &&& ~~~ (k.g b))) s

/-- ANDI (R119). -/
def execAndi (sw : Bool) (d a : BitVec 6) (i : BitVec 7) (x : Bool) (s : State) : Host.Outcome State Fault Refusal :=
  issue (.andi sw d a i x) [src a x] (fun k => ret k d (k.g a &&& word (k.immB i))) s

/-- ORI (R119). -/
def execOri (sw : Bool) (d a : BitVec 6) (i : BitVec 7) (x : Bool) (s : State) : Host.Outcome State Fault Refusal :=
  issue (.ori sw d a i x) [src a x] (fun k => ret k d (k.g a ||| word (k.immB i))) s

/-- XORI (R119). -/
def execXori (sw : Bool) (d a : BitVec 6) (i : BitVec 7) (x : Bool) (s : State) : Host.Outcome State Fault Refusal :=
  issue (.xori sw d a i x) [src a x] (fun k => ret k d (k.g a ^^^ word (k.immB i))) s

/-- Left shift by any count (R120). -/
def shlWord (a : Word) (n : Nat) : Word := if 32 ≤ n then 0 else a <<< n

/-- Logical right shift by any count (R120). -/
def shrWord (a : Word) (n : Nat) : Word := if 32 ≤ n then 0 else a >>> n

/-- Arithmetic right shift by any count (R120). -/
def sarWord (a : Word) (n : Nat) : Word := if 32 ≤ n then (if a.msb then 0xFFFFFFFF#32 else 0) else word (a.toInt / 2 ^ n)

/-- SHL (R120). -/
def execShl (sw : Bool) (d a b : BitVec 6) (x y : Bool) (s : State) : Host.Outcome State Fault Refusal :=
  issue (.shl sw d a b x y) [src a x, src b y] (fun k => ret k d (shlWord (k.g a) (k.g b).toNat)) s

/-- SHR (R120). -/
def execShr (sw : Bool) (d a b : BitVec 6) (x y : Bool) (s : State) : Host.Outcome State Fault Refusal :=
  issue (.shr sw d a b x y) [src a x, src b y] (fun k => ret k d (shrWord (k.g a) (k.g b).toNat)) s

/-- SAR (R120). -/
def execSar (sw : Bool) (d a b : BitVec 6) (x y : Bool) (s : State) : Host.Outcome State Fault Refusal :=
  issue (.sar sw d a b x y) [src a x, src b y] (fun k => ret k d (sarWord (k.g a) (k.g b).toNat)) s

/-- An immediate shift: IMM20 other than 0 is an operand out of range (R120). DESIGN CHOICE (log 13): it is judged after the
pending sources of step 12 of R48, while an immediate above 31 is judged with the operands, at step 10. -/
def immShift (d a : BitVec 6) (i : BitVec 7) (f : Word → Nat → Word) (k : Ctx) : Except Stop Eff :=
  if k.imm20 != 0 then .error (k.illegal 3) else ret k d (f (k.g a) i.toNat)

/-- SHLI (R120). -/
def execShli (sw : Bool) (d a : BitVec 6) (i : BitVec 7) (x : Bool) (s : State) : Host.Outcome State Fault Refusal :=
  issue (.shli sw d a i x) [src a x] (immShift d a i shlWord) s

/-- SHRI (R120). -/
def execShri (sw : Bool) (d a : BitVec 6) (i : BitVec 7) (x : Bool) (s : State) : Host.Outcome State Fault Refusal :=
  issue (.shri sw d a i x) [src a x] (immShift d a i shrWord) s

/-- SARI (R120). -/
def execSari (sw : Bool) (d a : BitVec 6) (i : BitVec 7) (x : Bool) (s : State) : Host.Outcome State Fault Refusal :=
  issue (.sari sw d a i x) [src a x] (immShift d a i sarWord) s

/-- Left rotation by a count below 32 (R120). -/
def rotWord (a : Word) (k : Nat) : Word := (a <<< k) ||| (a >>> (32 - k))

/-- ROT (R120). -/
def execRot (sw : Bool) (d a b : BitVec 6) (x y m : Bool) (s : State) : Host.Outcome State Fault Refusal :=
  issue (.rot sw d a b x y m) [src a x, src b y]
    (fun k =>
      let n := (k.g b).toNat % 32
      ret k d (rotWord (k.g a) (if m then (32 - n) % 32 else n))) s

/-- Position and width of the field that lies inside the word (R121). -/
def fieldOf (b : Word) : Nat × Nat :=
  let pos := fld b.toNat 0 8
  (pos, if 32 ≤ pos then 0 else Nat.min (fld b.toNat 8 8) (32 - pos))

/-- The extracted field (R121). -/
def bfxWord (m : Bool) (a b : Word) : Word :=
  let (pos, w) := fieldOf b
  if w = 0 then 0 else if m then word (sx (fld a.toNat pos w) w) else wordN (fld a.toNat pos w)

/-- The inserted field (R121). -/
def bfiWord (a b c : Word) : Word :=
  let (pos, w) := fieldOf b
  let mask := wordN ((2 ^ w - 1) * 2 ^ pos)
  if w = 0 then c else (c &&& ~~~ mask) ||| (wordN (a.toNat * 2 ^ pos) &&& mask)

/-- BFX (R121). -/
def execBfx (sw : Bool) (d a b : BitVec 6) (x y m : Bool) (s : State) : Host.Outcome State Fault Refusal :=
  issue (.bfx sw d a b x y m) [src a x, src b y] (fun k => ret k d (bfxWord m (k.g a) (k.g b))) s

/-- BFI (R121). -/
def execBfi (sw : Bool) (d a b : BitVec 6) (x y : Bool) (s : State) : Host.Outcome State Fault Refusal :=
  issue (.bfi sw d a b x y) [src a x, src b y] (fun k => ret k d (bfiWord (k.g a) (k.g b) k.c)) s

/-- Number of 1 bits (R122). -/
def popCount (a : Word) : Nat := ((List.range 32).filter (fun i => a.getLsbD i)).length

/-- Zero bits above the highest 1 bit (R122). -/
def leadingZeros (a : Word) : Nat := if a = 0 then 32 else 31 - Nat.log2 a.toNat

/-- The word with its bits in the other order (R122). -/
def bitReverse (a : Word) : Word := wordN ((List.range 32).foldl (fun v i => v * 2 + b2n (a.getLsbD i)) 0)

/-- POPC (R122). -/
def execPopc (sw : Bool) (d a : BitVec 6) (x : Bool) (s : State) : Host.Outcome State Fault Refusal :=
  issue (.popc sw d a x) [src a x] (fun k => ret k d (wordN (popCount (k.g a)))) s

/-- CLZ (R122). -/
def execClz (sw : Bool) (d a : BitVec 6) (x : Bool) (s : State) : Host.Outcome State Fault Refusal :=
  issue (.clz sw d a x) [src a x] (fun k => ret k d (wordN (leadingZeros (k.g a)))) s

/-- BREV (R122). -/
def execBrev (sw : Bool) (d a : BitVec 6) (x : Bool) (s : State) : Host.Outcome State Fault Refusal :=
  issue (.brev sw d a x) [src a x] (fun k => ret k d (bitReverse (k.g a))) s

/-! ### Predicates and selection (R123 to R125) -/

/-- A predicate written (R123, R125, R165). -/
def retPred (k : Ctx) (p : BitVec 3) (v : Bool) : Except Stop Eff :=
  .ok { st := setThread k.s k.t (k.th.setPred p.toNat v) }

/-- ISETP (R123). -/
def execIsetp (sw : Bool) (c p : BitVec 3) (a b : BitVec 6) (x y m : Bool) (s : State) :
    Host.Outcome State Fault Refusal :=
  issue (.isetp sw c p a b x y m) [src a x, src b y]
    (fun k => retPred k p (cmpTest c.toNat (typed m (k.g a)) (typed m (k.g b)))) s

/-- ISETPI (R123). -/
def execIsetpi (sw : Bool) (c p : BitVec 3) (a : BitVec 6) (i : BitVec 7) (x m : Bool) (s : State) :
    Host.Outcome State Fault Refusal :=
  issue (.isetpi sw c p a i x m) [src a x]
    (fun k => retPred k p (cmpTest c.toNat (typed m (k.g a)) (if m then (k.immBu i : Int) else k.immB i))) s

/-- SEL (R124). -/
def execSel (sw : Bool) (d a b : BitVec 6) (x y m : Bool) (s : State) : Host.Outcome State Fault Refusal :=
  issue (.sel sw d a b x y m) [src a x, src b y, src d false]
    (fun k => ret k d (if (if m then (k.g d).msb else k.g d != 0) then k.g a else k.g b)) s

/-- PLOP's operation (R125). -/
def plopBit (o : Nat) (a b m : Bool) : Bool :=
  match o with
  | 0 => a && b
  | 1 => a || b
  | 2 => a != b
  | 3 => a && !b
  | 4 => a || !b
  | 5 => a
  | 6 => !a
  | _ => m

/-- PLOP (R125). -/
def execPlop (sw : Bool) (o p q r : BitVec 3) (m : Bool) (s : State) : Host.Outcome State Fault Refusal :=
  issue (.plop sw o p q r m) [] (fun k => retPred k p (plopBit o.toNat (k.th.pred q.toNat) (k.th.pred r.toNat) m)) s

/-! ### Addresses and 64-bit sums (R126, R127) -/

/-- LEA's sum: the selector passes unchanged (R126). -/
def leaSum (base : Nat) (off : Int) : Nat := base / 2 ^ 56 % 256 * 2 ^ 56 + wrap ((base % 2 ^ 56 : Nat) + off) 56

/-- LEA (R126). -/
def execLea (sw : Bool) (d a b : BitVec 6) (x y m : Bool) (s : State) : Host.Outcome State Fault Refusal :=
  issue (.lea sw d a b x y m) [srcPair a x, src b y] (fun k => ret64 k d (leaSum (k.g64 a) (typed m (k.g b)))) s

/-- ADD64 (R127). -/
def execAdd64 (sw : Bool) (d a b : BitVec 6) (x y m : Bool) (s : State) : Host.Outcome State Fault Refusal :=
  issue (.add64 sw d a b x y m) [srcPair a x, srcPair b y]
    (fun k => ret64 k d (wrap (if m then (k.g64 a : Int) - k.g64 b else (k.g64 a : Int) + k.g64 b) 64)) s

/-! ### Dot product and mixing (R128, R129) -/

/-- The exact dot product of four bytes (R128). -/
def dot4 (m : Bool) (a b : Word) : Int :=
  (List.range 4).foldl (fun v i =>
    let x := fld a.toNat (8 * i) 8; let y := fld b.toNat (8 * i) 8
    v + (if m then (x : Int) * y else sx x 8 * sx y 8)) 0

/-- IDP4 (R128). -/
def execIdp4 (sw : Bool) (d a b : BitVec 6) (x y m : Bool) (s : State) : Host.Outcome State Fault Refusal :=
  issue (.idp4 sw d a b x y m) [src a x, src b y]
    (fun k => ret k d (word (saturate k.sat m (typed m k.c + dot4 m (k.g a) (k.g b))))) s

/-- MIX32 (R129). -/
def execMix32 (sw : Bool) (d a b : BitVec 6) (x y : Bool) (s : State) : Host.Outcome State Fault Refusal :=
  issue (.mix32 sw d a b x y) [src a x, src b y] (fun k => ret k d (mix32 (k.g a) (k.g b))) s

end Sys2Proof.Machine
end

