-- ==== Sys2Proof/Machine/Float.lean ====
section
/-!
DEFINITION. The floating-point instructions (R155 to R174).
-/
namespace Sys2Proof.Machine

/-- The FP32 reading of a register. -/
def Ctx.f (k : Ctx) (r : BitVec 6) : FVal := rd32 (k.g r).toNat

/-- FADD (R162). -/
def execFadd (sw : Bool) (d a b : BitVec 6) (x y : Bool) (s : State) : Host.Outcome State Fault Refusal :=
  issue (.fadd sw d a b x y) [src a x, src b y]
    (fun k => floatRet k d (fAdd fp32 k.fmode (k.f a) (k.f b)) (k.g a) (k.g b)) s

/-- FSUB (R162). -/
def execFsub (sw : Bool) (d a b : BitVec 6) (x y : Bool) (s : State) : Host.Outcome State Fault Refusal :=
  issue (.fsub sw d a b x y) [src a x, src b y]
    (fun k => floatRet k d (fAdd fp32 k.fmode (k.f a) (k.f b).negate) (k.g a) (k.g b)) s

/-- FMUL (R162). -/
def execFmul (sw : Bool) (d a b : BitVec 6) (x y : Bool) (s : State) : Host.Outcome State Fault Refusal :=
  issue (.fmul sw d a b x y) [src a x, src b y]
    (fun k => floatRet k d (fMul fp32 k.fmode (k.f a) (k.f b)) (k.g a) (k.g b)) s

/-- FMAD (R162). -/
def execFmad (sw : Bool) (d a b : BitVec 6) (x y m : Bool) (s : State) : Host.Outcome State Fault Refusal :=
  issue (.fmad sw d a b x y m) [src a x, src b y]
    (fun k => floatRet k d (fMad fp32 k.fmode m (k.f a) (k.f b) (rd32 k.c.toNat)) (k.g a) (k.g b)) s

/-- FMIN (R164). -/
def execFmin (sw : Bool) (d a b : BitVec 6) (x y : Bool) (s : State) : Host.Outcome State Fault Refusal :=
  issue (.fmin sw d a b x y) [src a x, src b y]
    (fun k => floatRet k d (fMinMax false (k.g a).toNat (k.g b).toNat) (k.g a) (k.g b)) s

/-- FMAX (R164). -/
def execFmax (sw : Bool) (d a b : BitVec 6) (x y : Bool) (s : State) : Host.Outcome State Fault Refusal :=
  issue (.fmax sw d a b x y) [src a x, src b y]
    (fun k => floatRet k d (fMinMax true (k.g a).toNat (k.g b).toNat) (k.g a) (k.g b)) s

/-- FNEG (R163). -/
def execFneg (sw : Bool) (d a : BitVec 6) (x : Bool) (s : State) : Host.Outcome State Fault Refusal :=
  issue (.fneg sw d a x) [src a x] (fun k => ret k d (k.g a ^^^ 0x80000000#32)) s

/-- FABS (R163). -/
def execFabs (sw : Bool) (d a : BitVec 6) (x : Bool) (s : State) : Host.Outcome State Fault Refusal :=
  issue (.fabs sw d a x) [src a x] (fun k => ret k d (k.g a &&& 0x7FFFFFFF#32)) s

/-- Readings compare equal: −0 equals +0. -/
def fltEq (a b : FVal) : Bool :=
  match a, b with
  | .inf x, .inf y => x == y
  | .inf _, _ => false
  | _, .inf _ => false
  | a, b => dyEq a.dy b.dy

/-- The tests of R165. -/
def fltTest (c : Nat) (a b : FVal) : Bool :=
  if a.isNan || b.isNan then c == 1 || c == 6
  else match c with
  | 0 => fltEq a b
  | 1 => !fltEq a b
  | 2 => !fltEq a b && fltLess a b
  | 3 => fltEq a b || fltLess a b
  | 4 => !fltEq a b && fltLess b a
  | 5 => fltEq a b || fltLess b a
  | 6 => false
  | _ => true

/-- FSETP (R165). -/
def execFsetp (sw : Bool) (c p : BitVec 3) (a b : BitVec 6) (x y m : Bool) (s : State) :
    Host.Outcome State Fault Refusal :=
  issue (.fsetp sw c p a b x y m) [src a x, src b y]
    (fun k =>
      let u := k.f a; let v := k.f b
      let nv := if m then u.isNan || v.isNan else u.isSnan || v.isSnan
      let th := { k.th with fmt := gather k.th.fmt { nv := nv } }
      .ok { st := setThread k.s k.t (th.setPred p.toNat (fltTest c.toNat u v)) }) s

/-! ### Division, roots and functions (R166) -/

/-- The invalid result. -/
def fInvalid : FRes := (fp32.nan, { nv := true })

/-- A NaN operand's result. -/
def fNanOf (snan : Bool) : FRes := (fp32.nan, { nv := snan })

/-- a / b (R166). -/
def fDiv (mode : Nat) (a b : FVal) : FRes :=
  if a.isNan || b.isNan then fNanOf (a.isSnan || b.isSnan)
  else
    let n := a.neg != b.neg
    if a.isInf then (if b.isInf then fInvalid else (fp32.inf n, {}))
    else if b.isInf then (b2n n * 2 ^ 31, {})
    else if b.isZero then (if a.isZero then fInvalid else (fp32.inf n, { dz := true }))
    else if a.isZero then (b2n n * 2 ^ 31, {})
    else
      let q := quotSticky a.dy b.dy
      fp32.roundFin mode false n q.m.natAbs q.e {}

/-- A positive sticky value rounded with a sign. -/
def fSticky (mode : Nat) (neg : Bool) (v : Dy) : FRes := fp32.roundFin mode false neg v.m.natAbs v.e {}

/-- √a (R166). -/
def fSqrt (mode : Nat) (bits : Nat) : FRes :=
  let a := rd32 bits
  if a.isNan then fNanOf a.isSnan
  else if a.isZero then (bits, {})
  else if a.neg then fInvalid
  else if a.isInf then (bits, {})
  else fSticky mode false (sqrtSticky a.dy)

/-- 1 / √a (R166). -/
def fRsqrt (mode : Nat) (bits : Nat) : FRes :=
  let a := rd32 bits
  if a.isNan then fNanOf a.isSnan
  else if a.isZero then (fp32.inf a.neg, { dz := true })
  else if a.neg then fInvalid
  else if a.isInf then (0, {})
  else fSticky mode false (rsqrtSticky a.dy)

/-- A dyadic number is an integer. -/
def dyIsInt (a : Dy) : Bool := dyEq a (dyInt (dyFloor a))

/-- 2^a (R166). Outside ±2^12 every result overflows or rounds as the least magnitude does. -/
def fExp2 (mode : Nat) (bits : Nat) : FRes :=
  let a := rd32 bits
  if a.isNan then fNanOf a.isSnan
  else if a.isInf then ((if a.neg then 0 else fp32.inf false), {})
  else if a.isZero then (0x3F800000, {})
  else if dyLe ⟨1, 12⟩ (dyAbs a.dy) then
    fp32.roundFin mode false false 1 (if a.neg then -4096 else 4096) {}
  else if dyIsInt a.dy then fp32.roundFin mode false false 1 (dyFloor a.dy) {}
  else fSticky mode false (exp2Sticky a.dy)

/-- log2 a (R166). -/
def fLog2 (mode : Nat) (bits : Nat) : FRes :=
  let a := rd32 bits
  if a.isNan then fNanOf a.isSnan
  else if a.isZero then (fp32.inf true, { dz := true })
  else if a.neg then fInvalid
  else if a.isInf then (bits, {})
  else
    let e := dyLog2 a.dy
    if dyEq a.dy ⟨1, e⟩ then fp32.round mode false false (dyInt e) {}
    else
      let r := log2Sticky a.dy
      fSticky mode r.1 r.2

/-- sin(π·r) for a non-negative r: sign and magnitude; none where it is a zero, one or a half circle's end. -/
inductive TrigVal where
  | zero
  | one (neg : Bool)
  | part (neg : Bool) (v : Dy)

/-- sin(π·r) for r ≥ 0 by reduction to the first quarter. -/
def sinPi (r : Dy) : TrigVal :=
  let n := dyFloor r
  let f := dySub r (dyInt n)
  let neg := n % 2 == 1
  if f.m = 0 then .zero
  else if dyEq f ⟨1, -1⟩ then .one neg
  else .part neg (sinPiSticky (if dyLt f ⟨1, -1⟩ then f else dySub (dyInt 1) f))

/-- sin(π·a) (R166). -/
def fSinPi (mode : Nat) (bits : Nat) : FRes :=
  let a := rd32 bits
  if a.isNan then fNanOf a.isSnan
  else if a.isInf then fInvalid
  else if a.isZero then (bits, {})
  else match sinPi (dyAbs a.dy) with
  | .zero => (b2n a.neg * 2 ^ 31, {})
  | .one n => (0x3F800000 + b2n (n != a.neg) * 2 ^ 31, {})
  | .part n v => fSticky mode (n != a.neg) v

/-- cos(π·a) = sin(π·(|a| + 1/2)) (R166). -/
def fCosPi (mode : Nat) (bits : Nat) : FRes :=
  let a := rd32 bits
  if a.isNan then fNanOf a.isSnan
  else if a.isInf then fInvalid
  else if a.isZero then (0x3F800000, {})
  else match sinPi (dyAdd (dyAbs a.dy) ⟨1, -1⟩) with
  | .zero => (0, {})
  | .one n => (0x3F800000 + b2n n * 2 ^ 31, {})
  | .part n v => fSticky mode n v

/-- FDIV (R166). -/
def execFdiv (sw : Bool) (d a b : BitVec 6) (x y : Bool) (s : State) : Host.Outcome State Fault Refusal :=
  issue (.fdiv sw d a b x y) [src a x, src b y]
    (fun k => floatRet k d (fDiv k.fmode (k.f a) (k.f b)) (k.g a) (k.g b)) s

/-- FRCP (R166). -/
def execFrcp (sw : Bool) (d a : BitVec 6) (x : Bool) (s : State) : Host.Outcome State Fault Refusal :=
  issue (.frcp sw d a x) [src a x] (fun k => floatRet k d (fDiv k.fmode (.fin false 1 0) (k.f a)) (k.g a) 0) s

/-- FSQRT (R166). -/
def execFsqrt (sw : Bool) (d a : BitVec 6) (x : Bool) (s : State) : Host.Outcome State Fault Refusal :=
  issue (.fsqrt sw d a x) [src a x] (fun k => floatRet k d (fSqrt k.fmode (k.g a).toNat) (k.g a) 0) s

/-- FRSQ (R166). -/
def execFrsq (sw : Bool) (d a : BitVec 6) (x : Bool) (s : State) : Host.Outcome State Fault Refusal :=
  issue (.frsq sw d a x) [src a x] (fun k => floatRet k d (fRsqrt k.fmode (k.g a).toNat) (k.g a) 0) s

/-- FEXP2 (R166). -/
def execFexp2 (sw : Bool) (d a : BitVec 6) (x : Bool) (s : State) : Host.Outcome State Fault Refusal :=
  issue (.fexp2 sw d a x) [src a x] (fun k => floatRet k d (fExp2 k.fmode (k.g a).toNat) (k.g a) 0) s

/-- FLOG2 (R166). -/
def execFlog2 (sw : Bool) (d a : BitVec 6) (x : Bool) (s : State) : Host.Outcome State Fault Refusal :=
  issue (.flog2 sw d a x) [src a x] (fun k => floatRet k d (fLog2 k.fmode (k.g a).toNat) (k.g a) 0) s

/-- FSINPI (R166). -/
def execFsinpi (sw : Bool) (d a : BitVec 6) (x : Bool) (s : State) : Host.Outcome State Fault Refusal :=
  issue (.fsinpi sw d a x) [src a x] (fun k => floatRet k d (fSinPi k.fmode (k.g a).toNat) (k.g a) 0) s

/-- FCOSPI (R166). -/
def execFcospi (sw : Bool) (d a : BitVec 6) (x : Bool) (s : State) : Host.Outcome State Fault Refusal :=
  issue (.fcospi sw d a x) [src a x] (fun k => floatRet k d (fCosPi k.fmode (k.g a).toNat) (k.g a) 0) s

/-! ### Rounding, classes and scales (R167 to R170) -/

/-- The integral value of a reading (R167). -/
def fRound (mode : Nat) (exact : Bool) (bits : Nat) : FRes :=
  let a := rd32 bits
  if a.isNan then fNanOf a.isSnan
  else if a.isInf || a.isZero || dyLe ⟨1, 23⟩ (dyAbs a.dy) then (bits, {})
  else
    let r := roundInt mode a.dy {}
    ((fp32.roundFin modeRNE false a.neg r.1.natAbs 0 {}).1, { nx := exact && !r.2 })

/-- FRND (R167). -/
def execFrnd (sw : Bool) (d a : BitVec 6) (x m : Bool) (s : State) : Host.Outcome State Fault Refusal :=
  issue (.frnd sw d a x m) [src a x] (fun k => floatRet k d (fRound k.fmode m (k.g a).toNat) (k.g a) 0) s

/-- The class bit of a pattern (R168). -/
def fClass (bits : Nat) : Nat :=
  match rd32 bits with
  | .nan true => 0
  | .nan false => 1
  | .inf n => if n then 2 else 9
  | .fin n m _ =>
    if m == 0 then (if n then 5 else 6)
    else if m < 2 ^ 23 then (if n then 4 else 7)
    else if n then 3 else 8

/-- FCLASS (R168). -/
def execFclass (sw : Bool) (d a : BitVec 6) (x : Bool) (s : State) : Host.Outcome State Fault Refusal :=
  issue (.fclass sw d a x) [src a x] (fun k => ret k d (wordN (2 ^ fClass (k.g a).toNat))) s

/-- a × 2^k (R169). -/
def fScale (mode : Nat) (bits : Nat) (e : Int) : FRes :=
  match rd32 bits with
  | .nan sn => fNanOf sn
  | .inf _ => (bits, {})
  | .fin n m x => if m == 0 then (bits, {}) else fp32.roundFin mode false n m (x + clampExp e) {}

/-- FSCALE (R169). -/
def execFscale (sw : Bool) (d a b : BitVec 6) (x y : Bool) (s : State) : Host.Outcome State Fault Refusal :=
  issue (.fscale sw d a b x y) [src a x, src b y]
    (fun k => floatRet k d (fScale k.fmode (k.g a).toNat (s32 (k.g b))) (k.g a) (k.g b)) s

/-- FEXPO's integer and conditions (R170). -/
def fExpo (bits : Nat) : Word × Cond :=
  match rd32 bits with
  | .nan _ => (0x80000000#32, { nv := true })
  | .inf _ => (0x7FFFFFFF#32, { nv := true })
  | v => if v.isZero then (0x80000000#32, { nv := true }) else (word (dyLog2 v.dy), {})

/-- FEXPO (R170). -/
def execFexpo (sw : Bool) (d a : BitVec 6) (x : Bool) (s : State) : Host.Outcome State Fault Refusal :=
  issue (.fexpo sw d a x) [src a x]
    (fun k =>
      let r := fExpo (k.g a).toNat
      floatWrites k [(d.toNat, r.1)] none r.2) s

/-! ### Compensated sums (R171 to R173) -/

/-- What rounding a sum to nearest leaves: exact where the sum is finite, so that the two make up a + b (R171). DEDUCED
(log 168): the steps of R144 would overflow inside for a few operands near the largest number. -/
def sumRest (a b : FVal) (s : Nat) : Nat :=
  if special32 s then 0 else (fp32.round modeRNE false false (dySub (dyAdd a.dy b.dy) (rd32 s).dy) {}).1

/-- TWOSUM (R171). -/
def execTwosum (sw : Bool) (d a b : BitVec 6) (x y : Bool) (s : State) : Host.Outcome State Fault Refusal :=
  issue (.twosum sw d a b x y) [src a x, src b y]
    (fun k =>
      if k.cReg == d.toNat then .error (k.illegal 3)
      else
        let sum := fAdd fp32 modeRNE (k.f a) (k.f b)
        let e := sumRest (k.f a) (k.f b) sum.1
        let c := { sum.2 with nx := sum.2.of_, uf := false }
        floatWrites k [(d.toNat, wordN sum.1), (k.cReg, wordN e)]
          (if (rd32 sum.1).isNan then some (0, k.g a, k.g b) else none) c) s

/-- The sum of two pairs as a pair, with its conditions (R172). DESIGN CHOICE (log 169): a quiet NaN beside infinities of
both signs raises no invalid. -/
def pairAdd (mode : Nat) (vs : List FVal) : Nat × Nat × Cond :=
  let infs := vs.filter FVal.isInf
  if vs.any FVal.isNan || (infs.any FVal.neg && infs.any (fun v => !v.neg)) then
    (fp32.nan, 0, { nv := vs.any FVal.isSnan || !vs.any FVal.isNan })
  else match infs with
  | v :: _ => (fp32.inf v.neg, 0, {})
  | [] =>
    let v := vs.foldl (fun s x => dyAdd s x.dy) dyZero
    if v.m = 0 then
      ((if vs.all FVal.neg || mode == modeRD then 2 ^ 31 else 0), 0, {})
    else
      let sr := fp32.round modeRNE false false v {}
      if sr.2.of_ then (sr.1, 0, { of_ := true, nx := true })
      else
        let r := dySub v (rd32 sr.1).dy
        let cr := fp32.round mode false (mode == modeRD) r {}
        (sr.1, cr.1, if r.m = 0 then {} else cr.2)

/-- PADD (R172). -/
def execPadd (sw : Bool) (d a b : BitVec 6) (x y : Bool) (s : State) : Host.Outcome State Fault Refusal :=
  issue (.padd sw d a b x y) [srcPair a x, srcPair b y]
    (fun k =>
      let v (r : Nat) := rd32 (k.th.reg r).toNat
      let r := pairAdd k.fmode [v a.toNat, v (a.toNat + 1), v b.toNat, v (b.toNat + 1)]
      floatWrites k [(d.toNat, wordN r.1), (d.toNat + 1, wordN r.2.1)]
        (if (rd32 r.1).isNan then some (0, k.g a, k.g b) else none) r.2.2) s

/-- PRD (R173). -/
def execPrd (sw : Bool) (d a : BitVec 6) (x : Bool) (s : State) : Host.Outcome State Fault Refusal :=
  issue (.prd sw d a x) [srcPair a x]
    (fun k => floatRet k d
      (readPair (k.g a).toNat (k.th.reg (a.toNat + 1)).toNat 9 k.fmode false 0 {}) (k.g a) 0) s

/-! ### Packed halves (R174) -/

/-- Apply an operation to both halves. -/
def halves (k : Ctx) (d : BitVec 6) (m : Bool) (a b : Word) (f : Fmt → Nat → FRes) : Except Stop Eff :=
  let fm := if m then bf16 else fp16
  let r0 := f fm 0; let r1 := f fm 1
  let h (w : Word) (i : Nat) : Word := wordN (fld w.toNat (16 * i) 16)
  let nan := if (fm.read r0.1).isNan then some (0, h a 0, h b 0)
    else if (fm.read r1.1).isNan then some (1, h a 1, h b 1) else none
  floatWrites k [(d.toNat, wordN (r0.1 + 2 ^ 16 * r1.1))] nan (r0.2.or r1.2)

/-- Half `i` of a word in a format. -/
def halfOf (f : Fmt) (w : Word) (i : Nat) : FVal := f.read (fld w.toNat (16 * i) 16)

/-- HADD2 (R174). -/
def execHadd2 (sw : Bool) (d a b : BitVec 6) (x y m : Bool) (s : State) : Host.Outcome State Fault Refusal :=
  issue (.hadd2 sw d a b x y m) [src a x, src b y]
    (fun k => halves k d m (k.g a) (k.g b) (fun f i => fAdd f k.fmode (halfOf f (k.g a) i) (halfOf f (k.g b) i))) s

/-- HMUL2 (R174). -/
def execHmul2 (sw : Bool) (d a b : BitVec 6) (x y m : Bool) (s : State) : Host.Outcome State Fault Refusal :=
  issue (.hmul2 sw d a b x y m) [src a x, src b y]
    (fun k => halves k d m (k.g a) (k.g b) (fun f i => fMul f k.fmode (halfOf f (k.g a) i) (halfOf f (k.g b) i))) s

/-- HFMA2 (R174). -/
def execHfma2 (sw : Bool) (d a b : BitVec 6) (x y m : Bool) (s : State) : Host.Outcome State Fault Refusal :=
  issue (.hfma2 sw d a b x y m) [src a x, src b y]
    (fun k => halves k d m (k.g a) (k.g b) (fun f i =>
      fMad f k.fmode false (halfOf f (k.g a) i) (halfOf f (k.g b) i) (halfOf f k.c i))) s

end Sys2Proof.Machine
end

