-- ==== Sys2Proof/Machine/System.lean ====
section
/-!
DEFINITION. TRAP, RTE, SRD, SWR, DTLOAD, SEALQ, HALT, ERRINJ, TLBINV, and the system registers (R413 to R415, R424,
R428 to R439).
-/
namespace Sys2Proof.Machine

/-! ### TRAP and RTE (R430, R431) -/

/-- Past the TRAP, then into the handler: the resume point is the word after it (R408). -/
def trapAfter (t : Nat) (sw : Bool) (cause : Nat) (code : Word) (s : State) : State :=
  deliver (modThread s t (fun th => th.advance.afterWord sw)) t cause code 0 0 0 0

/-- TRAP (R430). -/
def execTrap (sw : Bool) (d : BitVec 6) (i : BitVec 15) (s : State) : Host.Outcome State Fault Refusal :=
  issue (.trap sw d i) []
    (fun k =>
      let cause := if d = 0 then causeTrapInsn else causeBreak
      .ok { st := k.s, flow := .done, after := trapAfter k.t sw cause (wordN i.toNat) }) s

/-- Bits set among the four of TSMAP. -/
def mapCount (m : Nat) : Nat := b2n (m.testBit 0) + b2n (m.testBit 1) + b2n (m.testBit 2) + b2n (m.testBit 3)

/-- Registers the program has after RTE (R412). -/
def Thread.rteFootprint (th : Thread) : Nat := (th.regs.filter (fun p => decide (4 ≤ p.1))).length + mapCount th.trap.tsmap

/-- g0 to g3 as RTE restores them (R431). -/
def Thread.restored (th : Thread) : Thread :=
  let t := th.trap
  let put (th : Thread) (r : Nat) (v : Word) : Thread := if t.tsmap.testBit r then th.setReg r v else th
  put (put (put (put (th.unmap [0, 1, 2, 3]) 0 t.save0) 1 t.save1) 2 t.save2) 3 t.save3

/-- To the resume point: a clause header, or word TWORD of a clause whose words are fetched again (R30, R431). -/
def Thread.toResume (th : Thread) : Thread :=
  let t := th.trap
  if t.tword = 0 then th.branchTo t.tpc
  else { th with pc := wrap ((t.tpc : Int) - 4 * t.tword) 64, word := t.tword, ext := {}
                 clause := some { header := 0, cls := t.tcls, n := t.tn, words := [], resumed := true } }

/-- What RTE leaves of its thread (R431). -/
def Thread.rte (th : Thread) : Thread :=
  let t := th.trap
  { th.restored.toResume with preds := t.tpred % 256, sysMode := t.pmode, trap := { t with tactive := false } }

/-- RTE (R431). -/
def execRte (sw : Bool) (s : State) : Host.Outcome State Fault Refusal :=
  issue (.rte sw) []
    (fun k =>
      if !k.th.trap.tactive then .error (k.illegal 3)
      else if k.th.budget < k.th.rteFootprint then
        .error (.held (endThread (logUnhandled k.s k.th k.th.trap.cause k.th.trap.tpc true) k.t))
      else .ok { st := setThread k.s k.t (k.th.rte.afterWord sw), flow := .done }) s

/-! ### Writes of trap state (R413, R414) -/

/-- The thread's ARRIVED bits are cleared (R89). -/
def clearArrived (s : State) (th : Thread) : State :=
  modTeam s th.team (fun tm => { tm with ligatures := tm.ligatures.map (fun p =>
    if p.1 / 16 == th.gid then (p.1, { p.2 with arrived := clearBit p.2.arrived th.mid }) else p) })

/-- A write of TPC.lo or TPC.hi: the resume point becomes a branch target (R413). DESIGN CHOICE (log 174): a SKIP that is still
legal moves it on from there, by the words of the trapping instruction. -/
def writeTpc (s : State) (t : Nat) (th : Thread) (hi : Bool) (w : Word) : State :=
  let v := if hi then th.trap.tpc % 2 ^ 32 + w.toNat % 2 ^ 20 * 2 ^ 32 else th.trap.tpc / 2 ^ 32 * 2 ^ 32 + w.toNat
  clearArrived (setThread s t { th with trap := { th.trap with tpc := v, tword := 0 } }) th

/-- A write of MEET.lo or MEET.hi (R84, R413). -/
def writeMeet (s : State) (t : Nat) (th : Thread) (hi : Bool) (w : Word) : State :=
  let m := th.meet.toNat
  let v := if hi then m % 2 ^ 32 + (w.toNat &&& 0x80FFFFFF) * 2 ^ 32 else m / 2 ^ 32 * 2 ^ 32 + w.toNat
  clearArrived (setThread s t { th with meet := BitVec.ofNat 64 v }) th

/-- SKIP: the resume point moves past the trapping instruction (R414). -/
def TrapRegs.skip (t : TrapRegs) : TrapRegs :=
  if !t.skippable then t
  else
    let j := t.tword + t.words
    let t := { t with skippable := false, tpc := (t.tpc + 4 * t.words) % 2 ^ 64 }
    if t.tn < j then { t with tword := 0, tn := 0, tcls := 0 } else { t with tword := j }

/-- A write of TSTAT (R414). -/
def writeTstat (s : State) (t : Nat) (th : Thread) (w : Word) : State :=
  let v := w.toNat
  let tr := { th.trap with alost := th.trap.alost && flag v 26, pmode := flag v 12, tsmap := fld v 8 4, tpred := fld v 0 8 }
  setThread s t { th with trap := if flag v 25 then tr.skip else tr }

/-- A write of %fmt (R157). -/
def fmtWritten (old w : Word) : Word :=
  let v := w.toNat
  let mode := if 5 ≤ fld v 8 3 then 0 else fld v 8 3
  wordN (fld v 12 1 * 2 ^ 12 + mode * 2 ^ 8) ||| (old &&& 0x1F#32 &&& ~~~w)

/-- Write %fmt. -/
def writeFmt (s : State) (t : Nat) (th : Thread) (w : Word) : State := setThread s t { th with fmt := fmtWritten th.fmt w }

/-- A write of TSAVEi: the register is restored as mapped (R412). -/
def writeTsave (s : State) (t : Nat) (th : Thread) (i : Nat) (w : Word) : State :=
  let r := { th.trap with tsmap := th.trap.tsmap ||| 2 ^ i }
  let r := match i with
    | 0 => { r with save0 := w }
    | 1 => { r with save1 := w }
    | 2 => { r with save2 := w }
    | _ => { r with save3 := w }
  setThread s t { th with trap := r }

/-- A write of TINFOi (R414). -/
def writeTinfo (s : State) (t : Nat) (th : Thread) (i : Nat) (w : Word) : State :=
  let r := th.trap
  let r := match i with
    | 0 => { r with info0 := w }
    | 1 => { r with info1 := w }
    | 2 => { r with info2 := w }
    | _ => { r with info3 := w }
  setThread s t { th with trap := r }

/-! ### Writes of core, cluster and device registers -/

/-- A write of MEMGROUPS (R81). -/
def writeMemgroups (s : State) (c : Nat) (w : Word) : State :=
  let auto := flag w.toNat 31
  let limit := Nat.max 1 (Nat.min 128 (fld w.toNat 16 8))
  modCore s c (fun k => (({ k with auto := auto, limit := if auto then k.limit else limit } : Core).trim 130).grantAll s.aclk 130)

/-- MEMGROUPS as read (R81). -/
def memgroups (k : Core) : Nat := b2n k.auto * 2 ^ 31 + k.limit * 2 ^ 16 + Nat.min 255 k.effective * 2 ^ 8 + k.score

/-- A write of LEASECFG (R197). -/
def writeLeasecfg (s : State) (c : Nat) (w : Word) : State :=
  modCore s c (fun k => { k with lease := Nat.max 1 (Nat.min 4096 (fld w.toNat 0 13)) })

/-- A write of QCFG: accepted only while the queue holds no entry and no waiter (R247). EN = 1 with SEAL 0, outside the
field's stated values, binds the queue to seal 0 (DESIGN CHOICE, log entry 175). A queue whose storage is withheld is not
bound (R420; DESIGN CHOICE, log 180). -/
def writeQcfg (s : State) (cluster q : Nat) (w : Word) : State :=
  let h := 256 * cluster + q
  let x := queueOf s h
  if !x.entries.isEmpty || !x.waiters.isEmpty then s
  else setQueue s h { x with en := flag w.toNat 31 && !s.errors.quarantined.contains (0x0D, cluster, q), sealId := fld w.toNat 0 10 }

/-- A write of WDOG: intervals of 0 are stored as 1 (R425). -/
def writeWdog (s : State) (q : Nat) (w : Word) : State :=
  let f (i : Nat) : Nat := Nat.max 1 (fld w.toNat (10 * i) 10) * 2 ^ (10 * i)
  modDev s (fun d => { d with wdog := kset d.wdog q (fld w.toNat 31 1 * 2 ^ 31 + f 0 + f 1 + f 2) })

/-- TLOCK as read (R370). -/
def tlockWord (s : State) : Nat :=
  let t := s.dev.tlock
  wrap (clamp t.offs (-32767) 32767) 16 * 2 ^ 16 + t.domain % 256 * 2 ^ 8 + b2n t.pps * 2 ^ 4 + b2n t.prof * 2 ^ 3 + t.state % 8

/-! ### SRD and SWR (R415, R432) -/

/-- What a system-register number names. -/
inductive SysReg where
  | unlisted
  /-- A HOST register. -/
  | host
  | thread (n : Nat)
  | memgroups | fmt | bypass | leasecfg | rebasecnt | tlock | errstat
  | qcfg (q : Nat)
  | wdog (q : Nat)
  | out (o off : Nat)
  | ring (r off : Nat)
  deriving DecidableEq, Repr

/-- The register of a number (R415). -/
def sysReg (n : Nat) : SysReg :=
  if 0x100 ≤ n && n < 0x200 then .qcfg (n - 0x100)
  else if 0x200 ≤ n && n < 0x240 then .wdog (n - 0x200)
  else if n % 4 != 0 then .unlisted
  else if n < 0x40 then .thread n
  else if n == 0x40 then .memgroups
  else if n == 0x44 then .fmt
  else if n == 0x48 then .bypass
  else if n == 0x4C then .leasecfg
  else if n == 0x50 then .rebasecnt
  else if n == 0x54 then .tlock
  else if n == 0x58 then .errstat
  else if 0x5C ≤ n && n < 0x70 then .host
  else if 0x400 ≤ n && n < 0x600 then .out ((n - 0x400) / 0x40) ((n - 0x400) % 0x40)
  else if 0x600 ≤ n && n < 0x680 then .ring ((n - 0x600) / 0x10) ((n - 0x600) % 0x10)
  else .unlisted

/-- A trap register as read (R414). -/
def readTrapReg (s : State) (th : Thread) (n : Nat) : Nat :=
  let t := th.trap
  match n with
  | 0x00 => t.cause
  | 0x04 => t.tpc % 2 ^ 32
  | 0x08 => t.tpc / 2 ^ 32
  | 0x0C => t.info0.toNat
  | 0x10 => t.info1.toNat
  | 0x14 => t.info2.toNat
  | 0x18 => t.info3.toNat
  | 0x1C => t.save0.toNat
  | 0x20 => t.save1.toNat
  | 0x24 => t.save2.toNat
  | 0x28 => t.save3.toNat
  | 0x2C => t.tstat
  | 0x30 => th.meet.toNat % 2 ^ 32
  | 0x34 => th.meet.toNat / 2 ^ 32
  | 0x38 => (sealOf s th.sealId).vbase % 2 ^ 32
  | _ => (sealOf s th.sealId).vbase / 2 ^ 32

/-- A register's value as a thread reads it. -/
def sysRead (s : State) (th : Thread) : SysReg → Nat
  | .unlisted => 0
  | .host => 0
  | .thread n => readTrapReg s th n
  | .memgroups => memgroups (core s (coreOf s th))
  | .fmt => th.fmt.toNat
  | .bypass => s.lines.slBypass * 2 ^ 16 + (station s (stationOf (coreOf s th))).bypass
  | .leasecfg => (core s (coreOf s th)).lease
  | .rebasecnt => s.lines.rebases
  | .tlock => tlockWord s
  | .errstat => errstat s
  | .qcfg q => let x := queueOf s (256 * (coreOf s th / 160) + q); b2n x.en * 2 ^ 31 + x.sealId
  | .wdog q => wdog s q
  | .out o off => outRead s o off
  | .ring r off => ringRead s r off

/-- Zero fields of a register: a thread's write of another value there traps (R432). -/
def sysZero : SysReg → Nat
  | .thread 0x08 => 0xFFF00000
  | .thread 0x2C => 0xF8000000
  | .thread 0x34 => 0x7F000000
  | .memgroups => 0x7F000000
  | .fmt => 0xFFFFE8E0
  | .leasecfg => 0xFFFFE000
  | .qcfg _ => 0x7FFFFC00
  | .wdog _ => 0x40000000
  | .out o off => outZero o off
  | .ring _ off => ringZero off
  | _ => 0

/-- Write a trap register (R414); read-only ones stay. -/
def writeTrapReg (s : State) (t : Nat) (th : Thread) (n : Nat) (w : Word) : State :=
  match n with
  | 0x04 => writeTpc s t th false w
  | 0x08 => writeTpc s t th true w
  | 0x0C => writeTinfo s t th 0 w
  | 0x10 => writeTinfo s t th 1 w
  | 0x14 => writeTinfo s t th 2 w
  | 0x18 => writeTinfo s t th 3 w
  | 0x1C => writeTsave s t th 0 w
  | 0x20 => writeTsave s t th 1 w
  | 0x24 => writeTsave s t th 2 w
  | 0x28 => writeTsave s t th 3 w
  | 0x2C => writeTstat s t th w
  | 0x30 => writeMeet s t th false w
  | 0x34 => writeMeet s t th true w
  | _ => s

/-- A thread's write of a register. -/
def sysWrite (s : State) (t : Nat) (th : Thread) (r : SysReg) (w : Word) : State :=
  match r with
  | .thread n => writeTrapReg s t th n w
  | .memgroups => writeMemgroups s (coreOf s th) w
  | .fmt => writeFmt s t th w
  | .leasecfg => writeLeasecfg s (coreOf s th) w
  | .qcfg q => writeQcfg s (coreOf s th / 160) q w
  | .wdog q => writeWdog s q w
  | .out o off => outWriteFree s o off w.toNat
  | .ring r off => ringWrite s r off w.toNat
  | _ => s

/-- A read of BSWR acquires the stores its last advance publishes (R390). -/
def Thread.seeRing (th : Thread) (s : State) : SysReg → Thread
  | .ring r 8 => th.takePts (ringOf s r).bsPts
  | _ => th

/-- SRD (R432). -/
def execSrd (sw : Bool) (d : BitVec 6) (i : BitVec 15) (s : State) : Host.Outcome State Fault Refusal :=
  issue (.srd sw d i) []
    (fun k => match sysReg i.toNat with
      | .unlisted => .error (k.illegal 3)
      | .host => .error (privTrap k.iw)
      | r => .ok { st := setThread k.s k.t (k.th.seeRing k.s r), writes := [(d.toNat, wordN (sysRead k.s k.th r))] }) s

/-- SWR (R432). -/
def execSwr (sw : Bool) (d : BitVec 6) (i : BitVec 15) (s : State) : Host.Outcome State Fault Refusal :=
  issue (.swr sw d i) [src d false]
    (fun k => match sysReg i.toNat with
      | .unlisted => .error (k.illegal 3)
      | .host => .error (privTrap k.iw)
      | r =>
        if (k.g d).toNat &&& sysZero r != 0 then .error (k.illegal 3)
        else .ok { st := sysWrite k.s k.t k.th r (k.g d) }) s

/-! ### Register writes as steps of the opcode table -/

/-- A write by the current thread; without one, or with a value its zero fields refuse, nothing changes. -/
def writeCurrent (s : State) (zs : Nat) (w : Word) (f : Nat → Thread → State) : State :=
  match s.cur with
  | none => s
  | some t => match thread? s t with
    | some th => if w.toNat &&& zs != 0 then s else f t th
    | none => s

/-- TPC_WRITE (R413). -/
def execTpcWrite (hi : Bool) (w : Word) (s : State) : Host.Outcome State Fault Refusal :=
  .next (writeCurrent s (if hi then sysZero (.thread 0x08) else 0) w (fun t th => writeTpc s t th hi w))

/-- MEET_WRITE (R413). -/
def execMeetWrite (hi : Bool) (w : Word) (s : State) : Host.Outcome State Fault Refusal :=
  .next (writeCurrent s (if hi then sysZero (.thread 0x34) else 0) w (fun t th => writeMeet s t th hi w))

/-- TSTAT_WRITE (R414). -/
def execTstatWrite (w : Word) (s : State) : Host.Outcome State Fault Refusal :=
  .next (writeCurrent s (sysZero (.thread 0x2C)) w (fun t th => writeTstat s t th w))

/-- FMT_WRITE (R157). -/
def execFmtWrite (w : Word) (s : State) : Host.Outcome State Fault Refusal :=
  .next (writeCurrent s (sysZero .fmt) w (fun t th => writeFmt s t th w))

/-- MEMGROUPS_WRITE (R81). -/
def execMemgroupsWrite (c : Nat) (w : Word) (s : State) : Host.Outcome State Fault Refusal :=
  .next (if w.toNat &&& sysZero .memgroups != 0 then s else writeMemgroups s c w)

/-- LEASECFG_WRITE (R197). -/
def execLeasecfgWrite (c : Nat) (w : Word) (s : State) : Host.Outcome State Fault Refusal :=
  .next (if w.toNat &&& sysZero .leasecfg != 0 then s else writeLeasecfg s c w)

/-- QCFG_WRITE (R247). -/
def execQcfgWrite (cluster q : Nat) (w : Word) (s : State) : Host.Outcome State Fault Refusal :=
  .next (if w.toNat &&& sysZero (.qcfg q) != 0 then s else writeQcfg s cluster q w)

/-- WDOG_WRITE (R425). -/
def execWdogWrite (q : Nat) (w : Word) (s : State) : Host.Outcome State Fault Refusal :=
  .next (if w.toNat &&& sysZero (.wdog q) != 0 || decide (64 ≤ q) then s else writeWdog s q w)

/-! ### DTLOAD (R433) -/

/-- The current table as DTLOAD stores it: entries 0x000 and 0x3FF zero. -/
def storedTable (s : State) (th : Thread) : List Byte :=
  (List.range 1024).flatMap (fun i => leBytes 2 (if i == 0 || i == 0x3FF then 0 else tableEntry s th.table i))

/-- DTLOAD (R433). -/
def dtloadBody (d a : BitVec 6) (m : Bool) (k : Ctx) : Except Stop Eff :=
  if orderWaits k.s k.th then .error (.held (holdAt k.s k.t))
  else match checkRange k.s k.t k.th k.iw (k.g64 a) 2048 64 (if m then .store else .load) false [0x00, 0xF0] true with
  | .error e => .error e
  | .ok as_ =>
    if m then .ok { st := writeNow k.s k.t as_ (storedTable k.s k.th), writes := [(d.toNat, 0)] }
    else
      let (bs, s) := readNow k.s k.t as_
      let es := imageEntries bs
      match tableCheckFrom 0 es with
      | some (c, i) => .ok { st := s, writes := [(d.toNat, wordN (c + i * 2 ^ 16))] }
      | none =>
        .ok { st := modThread (measure s (.image es)) k.t (fun th => { th with nextTable := some (.image es) }), writes := [(d.toNat, 0)] }

/-- DTLOAD (R433). -/
def execDtload (sw : Bool) (d a : BitVec 6) (x m : Bool) (s : State) : Host.Outcome State Fault Refusal :=
  issue (.dtload sw d a x m) [srcPair a x] (dtloadBody d a m) s

/-! ### SEALQ, HALT (R434, R435) -/

/-- SEALQ's value. -/
def sealqWord (s : State) (x sel : Nat) : Nat :=
  let e := sealOf s x
  match sel with
  | 0 => (if x == 0 then 1 else e.state) + e.cause % 256 * 2 ^ 8
      + sat (s.threads.filter (fun p => p.2.sealId == x)).length 65535 * 2 ^ 16
  | 1 => e.events
  | n => (e.latest.map (fun ws => (nthD ws (n - 2) 0).toNat)).getD 0

/-- SEALQ (R434). -/
def execSealq (sw : Bool) (d a : BitVec 6) (x : Bool) (s : State) : Host.Outcome State Fault Refusal :=
  issue (.sealq sw d a x) [src a x]
    (fun k =>
      let v := (k.g a).toNat
      let x := if fld v 16 10 == 0 then k.th.sealId else fld v 16 10
      if !k.th.system && x != k.th.sealId then .error (privTrap k.iw)
      else if v &&& 0xFC00FFF0 != 0 || decide (10 ≤ fld v 0 4) then .error (k.illegal 3)
      else retLater k 5 d [wordN (sealqWord k.s x (fld v 0 4))]) s

/-- HALT (R435). -/
def execHalt (sw : Bool) (s : State) : Host.Outcome State Fault Refusal :=
  issue (.halt sw) []
    (fun k => .ok { st := logEvent k.s { kind := 6, sealId := k.th.sealId, index := coreOf k.s k.th * 2 ^ 22
                                         syndrome := k.th.trap.cause }
                    flow := .wait .halt }) s

/-- A host write of DBGCTL (R436): GO wakes every halted thread of the seal. -/
def writeDbgctl (s : State) (w : Word) : State :=
  if !flag w.toNat 31 then s
  else { s with threads := s.threads.map (fun p =>
    if p.2.wait == .halt && p.2.sealId == fld w.toNat 0 10 then (p.1, p.2.wake) else p) }

/-- DBGCTL (R436). -/
def execDbgctl (w : Word) (s : State) : Host.Outcome State Fault Refusal := .next (writeDbgctl s w)

/-! ### ERRINJ (R437) -/

/-- Window of an entry's address. -/
def injWindows (code : Nat) : List Nat :=
  match code with
  | 0x05 => [0xF0, 0xF1]
  | 0x06 => [0xF2]
  | 0x08 => [0x00]
  | 0x11 => [0xF3]
  | _ => []

/-- Steps 1 to 5 of R209 for the address, and the entry it names. -/
def injUnit (k : Ctx) (code addr : Nat) : Except Stop ErrUnit :=
  match k.team with
  | none => .error (.held k.s)
  | some tm =>
    match code with
    | 0x06 => match windowFault addr with
      | some r => .error (accessViolation r addr k.iw)
      | none =>
        if 1024 * tm.privKb ≤ fld addr 0 20 then .error (accessViolation 6 addr k.iw)
        else .ok ⟨0x06, k.t, fld addr 0 20 / 128, false, 0⟩
    | 0x08 => match checkAccess k.s k.t k.th k.iw addr 1 1 .load false [0x00] false with
      | .error e => .error e
      | .ok a => (match unitsOf k.s a.loc 1 with
        | u :: _ => .ok u
        | [] => .error (.held k.s))
    | _ => match endpointOf k tm addr 1 1 (injWindows code) with
      | .error e => .error e
      | .ok (.spad t off) => (match unitsOf k.s (.spad t off) 1 with
        | u :: _ => .ok u
        | [] => .error (accessViolation 7 addr k.iw))
      | .ok (.weight off) =>
        if k.s.errors.quarantined.contains (0x11, 0, off / 2 ^ 21) then .error (accessViolation 10 addr k.iw)
        else .ok ⟨0x11, 0, off / 2 ^ 21, false, 0⟩
      | .ok (.glob _) => .error (accessViolation 3 addr k.iw)

/-- A private line named by ERRINJ is first brought into its lane's slice (R437). -/
def broughtIn (u : ErrUnit) (s : State) : State := if u.struct == 0x06 then touchLine s u.place u.entry else s

/-- The entry's check detects an error now, or at the entry's next read. -/
def inject (u : ErrUnit) (unc defer_ : Bool) (s : State) : State :=
  if defer_ then modErrors s (fun e => { e with deferred := e.deferred ++ [(u, unc)] }) else handleError s u unc true

/-- ERRINJ (R437). -/
def execErrinj (sw : Bool) (a b : BitVec 6) (x y : Bool) (s : State) : Host.Outcome State Fault Refusal :=
  issue (.errinj sw a b x y) [srcPair a x, src b y]
    (fun k =>
      let v := (k.g b).toNat; let addr := k.g64 a
      let code := fld v 0 5
      if !(injWindows code).contains (selector addr) || decide (2 ^ 7 ≤ v) || (code == 0x06 && decide (1024 ≤ fld addr 0 20)) then
        .error (k.illegal 3)
      else match injUnit k code addr with
      | .error e => .error e
      | .ok u =>
        let sl := unitSeal k.s u
        if k.th.sealId != 0 && sl != 0 && sl != k.th.sealId then .error (accessViolation 5 addr k.iw)
        else .ok { st := broughtIn u k.s, after := inject u (flag v 5) (flag v 6) }) s

/-! ### Translations dropped (R438, R439) -/

/-- Drop the TLB entries a test names at every station; walks it names keep no result. -/
def dropTlb (s : State) (entry : TlbEntry → Bool) (walk : Walk → Bool) : State :=
  { s with stations := s.stations.map (fun p => (p.1,
      { p.2 with tlb := p.2.tlb.filter (fun e => !entry e)
                 walks := p.2.walks.map (fun w => if walk w then { w with stale := true } else w) })) }

/-- Drop a seal's translations: of an address, or all. -/
def dropSealTlb (s : State) (x : Nat) (va : Option Nat) : State :=
  match va with
  | none => dropTlb s (fun e => e.sealId == x) (fun w => w.sealId == x)
  | some a => dropTlb s (fun e => e.sealId == x && e.page == a / 2 ^ levelLo e.level)
      (fun w => w.sealId == x && w.va / 2 ^ levelLo 1 == a / 2 ^ levelLo 1)

/-- TLBINV (R438). -/
def execTlbinv (sw : Bool) (d a b : BitVec 6) (x y : Bool) (s : State) : Host.Outcome State Fault Refusal :=
  issue (.tlbinv sw d a b x y) [srcPair a x, src b y]
    (fun k =>
      let v := (k.g b).toNat; let addr := k.g64 a
      let sl := if fld v 16 10 == 0 then k.th.sealId else fld v 16 10
      if sl != k.th.sealId && k.th.sealId != 0 then .error (accessViolation 5 addr k.iw)
      else if 2 ≤ fld v 0 2 || v &&& 0xFC00FFFC != 0 then .error (k.illegal 3)
      else
        let bad : Option Nat := if fld v 0 2 != 0 then none else match windowFault addr with
          | some r => some r
          | none => if selector addr != 0 then some 3 else none
        match bad with
        | some r => .error (accessViolation r addr k.iw)
        | none => k.publish.bind (fun s =>
            inState (dropSealTlb s sl (if fld v 0 2 == 0 then some addr else none)) (retLater k 5 d [0]))) s

/-- A host write of TLBCTL (R439). -/
def writeTlbctl (s : State) (n : Nat) (w : Word) : State :=
  match n with
  | 0x60 => modDev s (fun d => { d with valo := w.toNat })
  | 0x64 => modDev s (fun d => { d with vahi := w.toNat % 2 ^ 20 })
  | 0x68 =>
    let v := w.toNat
    if !flag v 31 || fld v 10 2 == 3 || fld v 12 19 != 0 || s.dev.tlbRun.isSome then s
    else modDev s (fun d => { d with tlbRun := some ⟨fld v 10 2, fld v 0 10, d.valo + d.vahi * 2 ^ 32⟩ })
  | _ => s

/-- TLBCTL (R439). -/
def execTlbctl (number : Nat) (w : Word) (s : State) : Host.Outcome State Fault Refusal := .next (writeTlbctl s number w)

/-- TLB_INVALIDATION_COMPLETE (R439): every station has dropped what the GO write named; BUSY falls. -/
def execTlbInvalidationComplete (s : State) : Host.Outcome State Fault Refusal :=
  .next (match s.dev.tlbRun with
    | none => s
    | some r =>
      let s := modDev s (fun d => { d with tlbRun := none })
      if r.scope == 2 then dropTlb s (fun _ => true) (fun _ => true)
      else dropSealTlb s r.sealId (if r.scope == 0 then some r.va else none))

end Sys2Proof.Machine
end

