-- ==== Sys2Proof/Machine/Links.lean ====
section
/-!
DEFINITION. Damlan park instructions, and requests to and from other packages (R220, R441 to R452, R471 to R475).
-/
namespace Sys2Proof.Machine

/-! ### XBPARK, XBWAKE, XBSTAT (R472 to R474) -/

/-- The channel g[a] names; none where it breaks R471. -/
def channelArg (w : Word) : Option Nat := if w.toNat < 36 then some w.toNat else none

/-- A wake Ductus has begun is for a chain that has not ended: not yet considered for admission, or admitted. -/
def wakePending (s : State) (w : Nat × Nat × Nat × Nat) : Bool :=
  let (o, n, f, j) := w
  let x := output s o
  match x.video with
  | none => false
  | some v =>
    (x.armed && x.arming == n && decide (v.seqNo x.nextChain.1 x.nextChain.2 ≤ v.seqNo f j)) || (chainOf s o n f ((j : Int) - 1)).isSome

/-- An admitted chain claims a quadrant in the station of a channel; for a slice channel, in any station. -/
def chainClaims (s : State) (c : Nat) : Bool :=
  s.chains.any (fun p => p.2.tpl.claims.any (fun q => decide (c < 16) || q.1 / 16 == c - 16))

/-- XBPARK's status and the channel it leaves (R472). -/
def parkChannel (s : State) (c thr : Nat) : Nat × Channel :=
  let x := channel s c
  if x.wakes.any (wakePending s) || chainClaims s c then (3, x)
  else match x.state with
    | 0 => (0, { x with state := 3, thr := thr })
    | 2 => (2, x)
    | _ => (1, { x with thr := thr })

/-- XBPARK (R472). -/
def execXbpark (sw : Bool) (d a b : BitVec 6) (x y : Bool) (s : State) : Host.Outcome State Fault Refusal :=
  issue (.xbpark sw d a b x y) [src a x, src b y]
    (fun k => match channelArg (k.g a) with
      | none => .error (k.illegal 3)
      | some c =>
        let thr := (k.g b).toNat
        if thr == 0 || decide (1024 ≤ thr) then .error (k.illegal 3)
        else
          let (st, x) := parkChannel k.s c thr
          inState (modChannel k.s c (fun _ => x)) (retLater k 5 d [wordN st])) s

/-- XBWAKE (R473). -/
def execXbwake (sw : Bool) (d a : BitVec 6) (x : Bool) (s : State) : Host.Outcome State Fault Refusal :=
  issue (.xbwake sw d a x) [src a x]
    (fun k => match channelArg (k.g a) with
      | none => .error (k.illegal 3)
      | some c =>
        let st := (channel k.s c).state
        let asleep := st == 1 || st == 3
        inState (if asleep then modChannel k.s c (fun x => x.wake k.s.dev.mono) else k.s)
          (retLater k 5 d [if asleep then 0 else 1])) s

/-- XBSTAT's value with a queue depth (R474). -/
def xbstatWord (x : Channel) (depth : Nat) : Nat :=
  x.thr % 2 ^ 10 * 2 ^ 22 + Nat.min 1023 depth * 2 ^ 12 + x.state % 4 * 2 ^ 6 + (if x.state == 0 || x.state == 3 then 8 else 2)

/-- XBSTAT (R474). -/
def execXbstat (sw : Bool) (d a : BitVec 6) (x : Bool) (s : State) : Host.Outcome State Fault Refusal :=
  issue (.xbstat sw d a x) [src a x]
    (fun k => match channelArg (k.g a) with
      | none => .error (k.illegal 3)
      | some c => retLater k 5 d [wordN (xbstatWord (channel k.s c) (queueDepth k.s c))]) s

/-! ### LKSTAT (R475) -/

/-- Wavelengths up of a fibre. -/
def fibreUp (s : State) (f : Nat) : DWord := kgetD s.domain.waves f 0

/-- Bits set in a 64-bit mask. -/
def popcount64 (w : DWord) : Nat := (List.range 64).foldl (fun n i => n + b2n (w.getLsbD i)) 0

/-- A fibre pair is up: some wavelength of it is (R452). -/
def pairUp (s : State) (p : Nat) : Bool := fibreUp s p != 0 || fibreUp s (64 + p) != 0

/-- DOMCFG as read (R455). -/
def domcfg (s : State) : Nat := b2n s.domain.en * 2 ^ 31 + s.domain.pkg % 2 ^ 12

/-- Change the domain state. -/
def modDomain (s : State) (f : Domain → Domain) : State := { s with domain := f s.domain }

/-- Check failures of a fibre are counted with those no run has told of: a free number of them (log 148). -/
def countChecks (s : State) (f n : Nat) : State :=
  modDomain s (fun d => { d with checks := kset d.checks f (kgetD d.checks f 0 + n) })

/-- LKSTAT's pair. -/
def lkstatWords (s : State) (f sel : Nat) : List Word :=
  match sel with
  | 0 => [loW (fibreUp s f).toNat, hiW (fibreUp s f).toNat]
  | 1 => [wordN (Config.partner (f % 64) % 2 ^ 12 + b2n (pairUp s (f % 64)) * 2 ^ 12 + popcount64 (fibreUp s f) * 2 ^ 16),
      wordN (sat (kgetD s.domain.checks f 0) (2 ^ 32 - 1))]
  | 2 => [loW (kgetD s.domain.resends (f % 64) 0), hiW (kgetD s.domain.resends (f % 64) 0)]
  | _ => [wordN (domcfg s), wordN (sat s.domain.unreachable.length (2 ^ 32 - 1))]

/-- LKSTAT (R475). Selector 1 reads the check failures up to now. -/
def execLkstat (sw : Bool) (d a : BitVec 6) (x : Bool) (s : State) : Host.Outcome State Fault Refusal :=
  issue (.lkstat sw d a x) [src a x]
    (fun k =>
      let v := (k.g a).toNat
      let f := fld v 0 7; let sel := fld v 8 2
      if v &&& 0xFFFFFC80 != 0 || (sel == 3 && f != 0) then .error (k.illegal 3)
      else
        let s := if sel == 1 then (let (n, s) := draw k.s 1; countChecks s f (Config.freeNat n)) else k.s
        inState s (retLater k 5 d (lkstatWords s f sel))) s

/-- OPTICAL_TOKEN (R442, R445): the holder sends its waiting packets and passes the token on. -/
def execOpticalToken (ch : Nat) (s : State) : Host.Outcome State Fault Refusal :=
  .next (if ch < 36 then modChannel (tokenVisit s ch (channel s ch).token) ch (fun x => { x with token := x.token + 1 }) else s)

/-! ### A reply to a request of this package (R199, R449, R451) -/

/-- The request a reply or a timeout names: by its sequence number, or, where it has none, by its own number. -/
def reqOf (s : State) (package slice seq : Nat) : Option (Nat × RemoteReq) :=
  match s.domain.reqs.find? (fun p => p.2.dest == package && p.2.slice == slice && p.2.num == some seq) with
  | some p => some p
  | none => s.domain.reqs.find? (fun p => p.2.dest == package && p.2.slice == slice && p.2.num == none && p.1 == seq)

/-- The line of a replicable page in a reply: its wts and rts, 8 bytes each, and its 128 bytes. -/
def replyLine (bs : List Byte) : Option (Nat × Nat × List Byte) :=
  if bs.length == 144 then some (leNat (bs.take 8), leNat ((bs.drop 8).take 8), bs.drop 16) else none

/-- A line that a load missed arrives; a bypass of a station's set whose ways are all pinned is counted (R216). -/
def takeDemanded (s : State) (c line w rt : Nat) (bs : List Byte) : State :=
  let s := if stationFull s (stationOf c) line then modStation s (stationOf c) (fun x => { x with bypass := sat (x.bypass + 1) 65535 }) else s
  takeLine s c 0 line w rt bs

/-- A reply reaches a thread's operation. To a weak load of a replicable page the home may send the whole line, which is
then held here (R199). -/
def threadReply (s : State) (id : Nat) (r : RemoteReq) (t seq pts : Nat) (bs : List Byte) : State :=
  match flight? s t seq with
  | none => s
  | some (th, f) => match f.op with
    | .remote i signed a _ =>
      if i != id then s
      else
        let (bs, pts, s) := match (if r.num.isNone then replyLine bs else none) with
          | some (w, rt, l) => ((l.drop (r.off % 128)).take a.len, Nat.max pts w, takeDemanded s (coreOf s th) (remoteLine r.sealId r.dest r.off) w rt l)
          | none => (bs, pts, s)
        let s := modThread s t (fun th => th.takePts pts)
        if f.dests.isEmpty then replyToRecord (modThread s t (fun th => th.retire f)) t []
        else
          let ws := if r.atom.isSome then wordsOf f.dests.length bs else loadWords a.len signed bs
          modThread s t (fun th => th.modFlight seq (fun f => { f with got := some ws }))
    | _ => s

/-- A reply reaches a prefetch: the line of a replicable page is held, any other reply drops it (R213). -/
def prefetchReply (s : State) (r : RemoteReq) (t seq level : Nat) (bs : List Byte) : State :=
  match flight? s t seq with
  | none => s
  | some (th, f) =>
    let s := match replyLine bs with
      | some (w, rt, l) => takeLine s (coreOf s th) level (remoteLine r.sealId r.dest r.off) w rt l
      | none => s
    replyToRecord (modThread s t (fun th => th.retire f)) t []

/-- A reply reaches a tile operation. -/
def matrixReply (s : State) (op pts : Nat) (r : RemoteReq) (bs : List Byte) : State :=
  match kget? s.mtx op with
  | none => s
  | some o =>
    let s := noteEndPts (o.parts.foldl (fun s t => modThread s t (fun th => th.takePts pts)) s) o.team (if o.orphan.isSome then pts else 0)
    if !r.store.isEmpty then finishMtx s op o
    else
      let s := modMtx s op (fun o => { o with data := some bs })
      o.parts.foldl (fun s t => match unitFlight s t op with
        | some f => modThread s t (fun th => th.modFlight f.seq (fun f => { f with got := some [] }))
        | none => s) s

/-- A reply reaches a copy command: the source bytes of a burst, or the end of its write. -/
def copyReply (s : State) (id cmd pts : Nat) (bs : List Byte) : State :=
  match kget? s.copies cmd with
  | none => s
  | some c =>
    let s := modCopy s cmd (fun c => { c with pts := Nat.max c.pts pts })
    match c.flying.find? (fun b => b.remote == some id) with
    | none => s
    | some b =>
      let s := modBurst s cmd b.at_ (fun b => { b with remote := none })
      match b.got, b.dsts with
      | none, _ => modBurst (modCopy s cmd (fun c => { c with reading := true })) cmd b.at_ (fun b => { b with got := some bs })
      | some _, (d, _) :: _ => advanceCopy (delivered s cmd b.at_ b.len d) cmd
      | some _, [] => advanceCopy s cmd

/-- A request is answered with its bytes. -/
def giveReply (s : State) (id : Nat) (r : RemoteReq) (pts : Nat) (bs : List Byte) : State :=
  match r.by_ with
  | .thread t _ seq => threadReply s id r t seq pts bs
  | .prefetch t _ seq level => prefetchReply s r t seq level bs
  | .command cmd => copyReply s id cmd pts bs
  | .feed c x => modFeed s (feedKey c x) (fun f =>
      if f.remote == some id then { f with remote := none, got := some bs, state := 1, pts := Nat.max f.pts pts } else f)
  | .matrix op => matrixReply s op pts r bs

/-- Kind code of R182 of a request's access: XRD is a load (R218). -/
def RemoteReq.kind (r : RemoteReq) : Nat :=
  match r.atom with
  | some (.xrd ..) => 0
  | some _ => 1
  | none => b2n (!r.store.isEmpty)

/-- The word of the instruction that made a request. -/
def FlightOp.word : FlightOp → Word
  | .remote _ _ _ iw => iw
  | _ => 0

/-- The burst of a command at another package fails there: the command ends at it, unless its seal has ended (R272, R278). -/
def failCopy (s : State) (cmd status : Nat) : State :=
  modCopy s cmd (fun c => { c with flying := [], ending := some (if c.ending == some 7 then 7 else status) })

/-- The trap a thread gets for a request its home package refuses (R176, R182). -/
def refusedTrap (s : State) (t : Nat) (r : RemoteReq) (code : Nat) (iw : Word) : State :=
  let a := 0xE0 * 2 ^ 56 + r.dest * 2 ^ 44 + r.off
  let due : HeldTrap :=
    if 16 ≤ code then { cause := causePageFault, infos := [loW a, hiW a, wordN (r.kind + 4 * (code - 16)), iw] }
    else { cause := causeAccess, infos := [wordN (code * 256 + 0xE0), loW a, hiW a, iw] }
  modThread s t (fun th => { th with due := some due, wait := if th.wait == .park then .ready else th.wait })

/-- The home package refuses a request under R178 to R180: the requester faults. Codes below 16 are reasons of R176;
16 and above an absent entry of that level. -/
def refuseRequest (s : State) (id : Nat) (r : RemoteReq) (code : Nat) : State :=
  match r.by_ with
  | .thread t _ seq =>
    (match flight? s t seq with
    | none => s
    | some (_, f) =>
      let s := modThread s t (fun th =>
        let th := th.retire f
        { th with pend := th.pend.filter (fun x => !f.dests.contains x) })
      replyToRecord (refusedTrap s t r code f.op.word) t [])
  | .prefetch t _ seq level => prefetchReply s r t seq level []
  | .command cmd => failCopy s cmd (if 16 ≤ code then 4 else 5)
  | .feed c x => (match kget? s.feeds (feedKey c x) with
    | some f => if f.remote == some id then endFeed s (feedKey c x) f 7 else s
    | none => s)
  | .matrix op => (match kget? s.mtx op with
    | some o => finishMtx (o.parts.foldl (fun s t => refusedTrap s t r code o.iw) s) op o
    | none => s)

/-- REMOTE_REPLY_ARRIVAL (R451). `data` is the reply: 8 bytes of logical time and the result's bytes; or one byte, the
code of a refusal. A later reply finds no request and is discarded. -/
def execRemoteReplyArrival (package slice seq : Nat) (data : List Byte) (s : State) : Host.Outcome State Fault Refusal :=
  .next (settleHeirs (match reqOf s package slice seq with
    | none => s
    | some (id, r) =>
      let s := modDomain s (fun d => { d with reqs := kdel d.reqs id, toAck := match r.num with
        | some n => d.toAck ++ [(package, slice, n)]
        | none => d.toAck })
      match data with
      | [c] => refuseRequest s id r c.toNat
      | _ => giveReply s id r (leNat (data.take 8)) (data.drop 8)))

/-! ### Requests of other packages (R220) -/

/-- The atomic a request asks for. Kind 2: `op` 0 to 10 ATOM, 16 ATOMC, 17 ATOMF, 18 its BF16 pair, 19 and 20 the adds
of a reduce-copy in BF16 and FP32. -/
def requestAtom (r : RemoteRequest) : Option AtomOp :=
  let n := r.data.length
  match r.kind with
  | 2 =>
    if r.op ≤ 10 then some (.int r.op (8 * n) (leNat r.data))
    else match r.op with
      | 16 => some (.cas (4 * n) (leNat (r.data.take (n / 2))) (leNat (r.data.drop (n / 2))))
      | 17 => some (.fadd false (leNat r.data))
      | 18 => some (.fadd true (leNat r.data))
      | 19 => some (.reduce false r.data)
      | 20 => some (.reduce true r.data)
      | _ => none
  | 4 => some (.xacc ((List.range (n / 4)).map (fun i => leNat ((r.data.drop (4 * i)).take 4))))
  | 5 => some (.xrd (r.op % 8) (flag r.op 3))
  | 6 => some .xclr
  | _ => none

/-- Bytes the request touches. -/
def requestLen (r : RemoteRequest) : Nat :=
  match r.kind with
  | 0 => r.len
  | 3 => r.len
  | 1 => r.data.length
  | 2 => if r.op == 16 then r.data.length / 2 else r.data.length
  | _ => 64

/-- Kind of access for the page permissions. -/
def requestKind (r : RemoteRequest) : AccKind := if r.kind == 0 || r.kind == 3 || r.kind == 5 then .load else .update

/-- A weak load carries no sequence number: kind 0 with `op` 0 (R451). -/
def requestNumbered (r : RemoteRequest) : Bool := !(r.kind == 0 && r.op == 0)

/-- Perform a request at this package: its reply, or none while a page waits for the host. -/
def performRequest (s : State) (r : RemoteRequest) : Option (List Byte) × State :=
  if !sealLive s r.sealId then (some [5], s)
  else match translateNow s none r.sealId (r.va % 2 ^ 44) (requestLen r) (requestKind r) with
  | .error (some (.absent _ true), _) => (none, engineFault s 0 r.sealId (r.va % 2 ^ 44))
  | .error (some (.absent l false), _) => (some [BitVec.ofNat 8 (16 + l)], s)
  | .error (_, c) => (some [BitVec.ofNat 8 c], s)
  | .ok (a, s) =>
    let a := { a with strong := true }
    match requestAtom r with
    | some op =>
      let (ws, p, s) := atomAt s 0 a op r.pts r.sealId
      (some (leBytes 8 p ++ ws.flatMap (fun w => leBytes 4 w.toNat)), s)
    | none =>
      if r.kind == 1 then
        let (p, s) := storeRange s r.pts r.sealId [a] r.data
        (some (leBytes 8 p), s)
      else
        let (bs, p, s) := loadRange s 0 r.pts r.sealId [a]
        (some (leBytes 8 p ++ bs), s)

/-- Entries of a slice's duplicate-suppression table. -/
def dedupOf (s : State) (slice : Nat) : List Dedup := kgetD s.domain.dedup slice []

/-- A sequence number is below another, modulo 2^32. -/
def seqBelow (a b : Nat) : Bool := decide (2 ^ 31 ≤ (a + 2 ^ 32 - b) % 2 ^ 32)

/-- The low mark of a source at a slice. -/
def lowMarkOf (s : State) (src slice : Nat) : Nat := kgetD s.domain.lowMark (16 * src + slice) 0

/-- The entry of a numbered request. -/
def Dedup.names (e : Dedup) (r : RemoteRequest) : Bool := e.src == r.src && e.num == r.seq

/-- Perform an entered request, and keep its reply; while its page waits for the host it stays to be performed (R182, R220). -/
def performEntered (s : State) (r : RemoteRequest) : State :=
  let put (s : State) (f : Dedup → Dedup) : State := modDomain s (fun d =>
    { d with dedup := kset d.dedup r.slice ((kgetD d.dedup r.slice []).map (fun e => if e.names r then f e else e)) })
  match performRequest s r with
  | (none, s) => put s (fun e => { e with waiting := some r })
  | (some bs, s) => put s (fun e => { e with reply := some bs, waiting := none })

/-- The requests that wait for a page are tried again, slice by slice. -/
def retryRequests (s : State) : State :=
  (s.domain.dedup.flatMap (fun p => p.2.filterMap (·.waiting))).foldl performEntered s

/-- REMOTE_REQUEST_ARRIVAL (R220): a numbered request is entered, performed once and answered; a copy of it is not
performed, one below the low mark is dropped, and a full table answers BUSY. -/
def execRemoteRequestArrival (r : RemoteRequest) (s : State) : Host.Outcome State Fault Refusal :=
  let es := dedupOf s r.slice
  .next (if !s.domain.en then s
    else if !requestNumbered r then (performRequest s r).2
    else if es.any (·.names r) || seqBelow r.seq (lowMarkOf s r.src r.slice) || decide (256 ≤ es.length) then s
    else performEntered (modDomain s (fun d =>
      { d with dedup := kset d.dedup r.slice (es ++ [{ src := r.src, num := r.seq, reply := none }]) })) r)

/-- Retire acknowledged entries at a source's low mark, which moves past them. -/
def retireAcked (src : Nat) : Nat → Nat → List Dedup → Nat × List Dedup
  | 0, low, es => (low, es)
  | fuel + 1, low, es =>
    if es.any (fun e => e.src == src && e.num == low && e.acked) then
      retireAcked src fuel ((low + 1) % 2 ^ 32) (es.filter (fun e => !(e.src == src && e.num == low)))
    else (low, es)

/-- ACKNOWLEDGEMENT (R220, R449): a source acknowledges a reply of this package; or this package has acknowledged one. -/
def execAcknowledgement (package slice seq : Nat) (s : State) : Host.Outcome State Fault Refusal :=
  let es := dedupOf s slice
  .next (if es.any (fun e => e.src == package && e.num == seq && !e.acked) then
      let es := es.map (fun e => if e.src == package && e.num == seq then { e with acked := true } else e)
      let (low, es) := retireAcked package 256 (lowMarkOf s package slice) es
      modDomain s (fun d => { d with dedup := kset d.dedup slice es, lowMark := kset d.lowMark (16 * package + slice) low })
    else modDomain s (fun d => { d with toAck := d.toAck.erase (package, slice, seq) }))

/-! ### Timeouts (R449, R450) -/

/-- An abandoned request ends its seal, with a CONTAIN record, where the seal is still LIVE; a command or a feed context ends
instead (R450). -/
def abandon (s : State) (p : Nat × RemoteReq) : State :=
  let ended (s : State) : State :=
    if p.2.sealId == 0 || !sealLive s p.2.sealId then s
    else
      let (n, c, s) := sealEnd s p.2.sealId causeSealedErr 1
      let (y, s) := syndrome s false
      logEvent s { kind := 1, struct := 0x0A, sealId := p.2.sealId, syndrome := y, extra := endCounts n c }
  match p.2.by_ with
  | .thread .. | .prefetch .. | .matrix _ => ended s
  | .command cmd => failCopy s cmd 5
  | .feed c x => match kget? s.feeds (feedKey c x) with
    | some f => endFeed s (feedKey c x) f 7
    | none => s

/-- Declare a package unreachable (R450). -/
def unreachable (s : State) (dest : Nat) : State :=
  let mine := s.domain.reqs.filter (fun p => p.2.dest == dest)
  let s := modDomain s (fun d => { d with table := kset d.table dest 0xFF, reqs := d.reqs.filter (fun p => p.2.dest != dest)
                                          unreachable := d.unreachable ++ [dest] })
  settleHeirs (mine.foldl abandon s)

/-- RETRANSMISSION_TIMEOUT (R449, R450): 4 µs without a reply. -/
def execRetransmissionTimeout (package slice seq : Nat) (s : State) : Host.Outcome State Fault Refusal :=
  .next (match reqOf s package slice seq with
    | none => s
    | some (id, r) =>
      if 8 ≤ r.sends then unreachable s package
      else
        let p := domtab s package
        modDomain s (fun d => { d with reqs := kset d.reqs id { r with sends := r.sends + 1 }
                                       resends := kset d.resends p (kgetD d.resends p 0 + 1) }))

/-- BUSY_RESEND (R449): a request answered BUSY is sent again with its number; it does not count as a try, so the count
of sends stands. -/
def execBusyResend (package slice seq : Nat) (s : State) : Host.Outcome State Fault Refusal :=
  .next (match reqOf s package slice seq with
    | none => s
    | some (id, r) => modDomain s (fun d => { d with reqs := kset d.reqs id { r with sends := Nat.max 1 r.sends } }))

/-- WAVELENGTH_RETRAIN (R452): after a run of 1,000 check failures; a wavelength that fails stays down until the next
bring-up. -/
def execWavelengthRetrain (f : Nat) (mask : DWord) (s : State) : Host.Outcome State Fault Refusal :=
  .next (if f < 128 then
      countChecks (modDomain s (fun d => { d with waves := kset d.waves f (kgetD d.waves f 0 &&& mask) })) f 1000
    else s)

/-- TSUXUS_FORWARDING (R448): a packet for another package goes on, or is dropped after 16 hops. -/
def execTsuxusForwarding (dest hops : Nat) (s : State) : Host.Outcome State Fault Refusal :=
  .next (if dest == s.domain.pkg then s
    else if 16 ≤ hops || decide (64 ≤ domtab s dest) then modDomain s (fun d => { d with dropped := d.dropped + 1 })
    else modDomain s (fun d => { d with forwarded := d.forwarded + 1 }))

end Sys2Proof.Machine
end

