-- ==== Sys2Proof/Machine/Sha3.lean ====
section
/-!
DEFINITION. SHA3-256, which R463, R466 and R469 name: the sponge of FIPS 202 over Keccak-f[1600].
-/
namespace Sys2Proof.Machine

/-! The permutation works on 25 lanes, 64-bit numbers in one list: lane i stands in column i mod 5 of plane i div 5. -/

/-- A lane turned left by `n` places, `n` below 64. -/
def turn (n v : Nat) : Nat := (v * 2 ^ n ||| v / 2 ^ (64 - n)) % 2 ^ 64

/-- The next state of the register that yields the constants: multiplication by x modulo x⁸ + x⁶ + x⁵ + x⁴ + 1. -/
def lfsrNext (r : Nat) : Nat := if r < 128 then 2 * r else (2 * r) ^^^ 0x171

/-- The constant of one round, from seven states of the register: the j-th gives bit 2^j − 1. Answers the register too. -/
def roundWord (r : Nat) : Nat × Nat :=
  (List.range 7).foldl (fun p j => (p.1 + p.2 % 2 * 2 ^ (2 ^ j - 1), lfsrNext p.2)) (0, r)

/-- Every lane takes the parities of the columns beside its own. -/
def mixColumns (a : List Nat) : List Nat :=
  let sum (x : Nat) : Nat := (List.range 25).foldl (fun v i => if i % 5 == x % 5 then v ^^^ nthD a i 0 else v) 0
  let sums := (List.range 5).map sum
  a.zipIdx.map (fun l => l.1 ^^^ nthD sums ((l.2 + 4) % 5) 0 ^^^ turn 1 (nthD sums ((l.2 + 1) % 5) 0))

/-- Lane 0 stays; the others go round one cycle of places, the t-th of it turned by the t-th triangular number. -/
def cycleLanes (a : List Nat) : Nat → Nat → Nat → Nat → List Nat → List Nat
  | 0, _, _, _, out => out
  | n + 1, t, x, y, out =>
    let y' := (2 * x + 3 * y) % 5
    cycleLanes a n (t + 1) y y' (out.set (y + 5 * y') (turn (t * (t + 1) / 2 % 64) (nthD a (x + 5 * y) 0)))

/-- A lane takes what its right neighbour leaves out of the one after it. -/
def foldRows (a : List Nat) : List Nat :=
  a.zipIdx.map (fun l =>
    let beside (k : Nat) : Nat := nthD a (l.2 / 5 * 5 + (l.2 + k) % 5) 0
    l.1 ^^^ ((2 ^ 64 - 1 - beside 1) &&& beside 2))

/-- Rounds of the permutation, with the register of the constants. -/
def keccakRounds : Nat → Nat → List Nat → List Nat
  | 0, _, a => a
  | n + 1, r, a =>
    let m := mixColumns a
    let b := foldRows (cycleLanes m 24 1 1 0 m)
    let w := roundWord r
    keccakRounds n w.2 (b.set 0 (nthD b 0 0 ^^^ w.1))

/-- Take a block of 136 bytes into the lanes. -/
def absorb (a : List Nat) (block : List Byte) : List Nat :=
  keccakRounds 24 1 (a.zipIdx.map (fun l => l.1 ^^^ (if l.2 < 17 then leNat ((block.drop (8 * l.2)).take 8) else 0)))

/-- A message with its padding: 01, then 10*1, to whole blocks of 136 bytes. -/
def padded (m : List Byte) : List Byte :=
  let z := 135 - m.length % 136
  if z == 0 then m ++ [0x86] else m ++ 0x06 :: List.replicate (z - 1) 0 ++ [0x80]

/-- Absorb whole blocks. -/
def absorbAll : Nat → List Nat → List Byte → List Nat
  | 0, a, _ => a
  | n + 1, a, m => absorbAll n (absorb a (m.take 136)) (m.drop 136)

/-- SHA3-256. -/
def sha3 (m : List Byte) : List Byte :=
  let p := padded m
  ((absorbAll (p.length / 136) (List.replicate 25 0) p).take 4).flatMap (fun l => leBytes 8 l)

end Sys2Proof.Machine
end

