-- ==== Sys2Proof/Machine/Host.lean ====
section
/-!
DEFINITION. The host side: commands, registers of the management region, power, and bring-up
(R17 to R21, R453 to R470).
-/
namespace Sys2Proof.Machine

/-! ### Status and identity words (R19, R454, R455) -/

/-- Some thread is resident, or some chain admitted, or Ductus is awake ahead of a strip (R17, R18). -/
def deviceActive (s : State) : Bool :=
  s.threads.any (fun p => !p.2.evicted) || !s.chains.isEmpty || s.dev.power.early

/-- The power-state code (R17). -/
def powerCode (s : State) : Nat := if s.dev.power.state != 0 then s.dev.power.state else if deviceActive s then 0 else 1

/-- ACLKF: steps 2 of R20 in force lower it by 100 MHz each. -/
def aclkf (p : Power) : Nat := 330 - 10 * Nat.min 9 (p.level - 1)

/-- PWRLIM as read (R19). -/
def pwrlim (s : State) : Nat := b2n s.dev.power.stby * 2 ^ 31 + s.dev.power.limit

/-- PWRSTAT as read (R19). -/
def pwrstat (s : State) : Nat :=
  let p := s.dev.power
  powerCode s * 2 ^ 29 + b2n (decide (0 < p.level)) * 2 ^ 28 + aclkf p * 2 ^ 16 + b2n (decide (12 ≤ p.level)) * 2 ^ 12 + sat p.pkgw 4095

/-- FWVER, FAIL and STAGE (R455). -/
def stageWord (s : State) : Nat := s.dev.fwver % 2 ^ 16 * 2 ^ 16 + s.dev.fail % 16 * 2 ^ 8 + s.dev.stage % 16

/-- CMDFREE (R455). -/
def cmdfree (s : State) : Nat := 64 - s.dev.commands.length

/-! ### Carrying out commands (R456, R457) -/

/-- OP of a command. -/
def cmdOp (c : List Byte) : Nat := bfld c 0 1
/-- FLAGS of a command. -/
def cmdFlags (c : List Byte) : Nat := bfld c 1 1
/-- TAG of a command. -/
def cmdTag (c : List Byte) : Nat := bfld c 2 2

/-- Write a command's record; a VALUE its entry does not state is a free value. -/
def record (s : State) (c : List Byte) (code : Nat) (value : Option Nat) : State :=
  match value with
  | some v => statusRecord s (cmdTag c) (cmdOp c) code v
  | none =>
    let (d, s) := draw s 1
    statusRecord s (cmdTag c) (cmdOp c) code (Config.freeWord d).toNat

/-- Take command `i` off the list as carried out. -/
def retireCmd (s : State) (i : Nat) : State :=
  modDev s (fun d => { d with commands := d.commands.eraseIdx i, carried := (d.carried + 1) % 2 ^ 32
                              begun := if i == 0 then false else d.begun })

/-- Commands whose OP names none are answered as they reach the front. -/
def answerUnknown : Nat → State → State
  | 0, s => s
  | fuel + 1, s =>
    match s.dev.commands with
    | [] => s
    | c :: _ =>
      if 1 ≤ cmdOp c && cmdOp c ≤ 9 then s
      else
        let s := if s.dev.power.state == 3 then record s c codeRefused none else record s c codeBadCmd (some 0)
        answerUnknown fuel (retireCmd s 0)

/-- A command's single record, and its end. -/
def answer (s : State) (i : Nat) (c : List Byte) (code : Nat) (value : Option Nat) : State :=
  answerUnknown 64 (retireCmd (record s c code value) i)

/-- The command is held (R21). -/
def cmdHeld (s : State) (c : List Byte) : Bool := standbyHolds s && s.dev.power.state != 3 && (cmdOp c == 2 || cmdOp c == 4)

/-- RESYNC, TIMESET, ATTEST and ABORT pass a held command. -/
def cmdPasses (c : List Byte) : Bool := [3, 6, 7, 9].contains (cmdOp c)

/-- The command to be carried out next, with its place in the list. -/
def nextCommand (s : State) : Option (Nat × List Byte) :=
  match s.dev.commands with
  | [] => none
  | c :: cs => if cmdHeld s c then ((cs.zipIdx).find? (fun p => cmdPasses p.1)).map (fun p => (p.2 + 1, p.1)) else some (0, c)

/-- Carry out the next command where it has that OP and flags; the boot ROM in RECOVERY refuses all but FWLOAD and
RESYNC (R469). -/
def carryOut (s : State) (op : Nat) (ok : List Byte → Bool) (f : State → Nat → List Byte → State) : State :=
  match nextCommand s with
  | none => s
  | some (i, c) =>
    if cmdOp c != op || !ok c || s.dev.power.state == 4 then s
    else if s.dev.power.state == 3 && !(op == 3 || op == 8) then answer s i c codeRefused none
    else f s i c

/-- Commands are carried out from the end of bring-up on, and by the boot ROM in RECOVERY; those accepted before wait. -/
def serveCommands (s : State) : State := if s.dev.power.state == 4 then s else answerUnknown 64 s

/-- COMMAND_WRITE (R456). -/
def execCommandWrite (bytes : List Byte) (s : State) : Host.Outcome State Fault Refusal :=
  .next (if bytes.length != 64 then s
    else if 64 ≤ s.dev.commands.length then record s bytes codeOverrun none
    else serveCommands (modDev s (fun d => { d with commands := d.commands ++ [bytes] })))

/-! ### UPLOAD (R458, R460) -/

/-- First bad field of an UPLOAD. -/
def uploadBad (c : List Byte) : Option Nat :=
  firstBad [(6, decide (bfld c 6 2 ≤ 4095) || bfld c 6 2 == 0xFFFF),
    (8, bfld c 8 8 % 64 == 0 && decide (bfld c 8 8 + bfld c 20 4 ≤ 2 ^ 39)), (16, bfld c 16 4 % 64 == 0),
    (20, bfld c 20 4 % 64 == 0 && decide (64 ≤ bfld c 20 4) && decide (bfld c 20 4 ≤ 2 ^ 20))]

/-- The range touches a running graph or the template of an armed output. -/
def uploadBusy (s : State) (off n g : Nat) : Bool :=
  s.dev.graphs.any (fun p => p.2.run.isSome && (p.1 == g || overlaps p.2.off p.2.len off n))
    || s.outputs.any (fun p => p.2.armed && (match p.2.video, p.2.tpl with
        | some v, some t => overlaps (64 * v.chain) t.size off n
        | _, _ => false))

/-- The bytes of LPDDR a device address names, as strong reads at their slices. -/
def readDevice (s : State) (pa n sealId : Nat) : List Byte × State :=
  let a : Access := { loc := .glob pa, len := n, strong := true, cattr := 0, pageW := false, pageSeal := sealId }
  let (bs, _, s) := loadRange s 0 (topTime s) sealId [a]
  (bs, s)

/-- Store an upload, tagged, and define its graph. -/
def storeUpload (s : State) (off sealId g : Nat) (bs : List Byte) : State :=
  let s := { s with sched := Memory.writeBytes s.sched off bs
                    schedTags := (range (off / 64) (bs.length / 64)).foldl (fun m e => kset m e sealId) s.schedTags }
  if g == 0xFFFF then s
  else modDev s (fun d => { d with graphs := kset d.graphs g { sealId := sealId, off := off, len := bs.length } })

/-- Some entry of scheduler memory in a range is withheld (R420). -/
def schedLost (s : State) (off n : Nat) : Bool :=
  s.errors.quarantined.any (fun q => q.1 == 0x13 && decide (off / 64 ≤ q.2.2) && decide (q.2.2 < (off + n) / 64))

/-- UPLOAD of a command whose fields are within their limits. A range with a withheld entry has no space for it (R420; log
180). -/
def upload (s : State) (i : Nat) (c : List Byte) : State :=
  let sl := bfld c 4 2; let g := bfld c 6 2; let off := bfld c 16 4; let n := bfld c 20 4
  let foreign := (range (off / 64) (n / 64)).any (fun e => match kget? s.schedTags e with | some x => x != sl | none => false)
  if !sealLive s sl || foreign then answer s i c codeBadSeal none
  else if 2 ^ 24 < off + n || schedLost s off n then answer s i c codeNoSpace none
  else if uploadBusy s off n g then answer s i c codeBusy none
  else
    let (bs, s') := readDevice s (bfld c 8 8) n sl
    match (if g == 0xFFFF then none else imageBad (Memory.writeBytes s.sched off bs) off n sl) with
    | some o => answer s i c codeBadCmd (some o)
    | none => answer (storeUpload s' off sl g bs) i c codeDone none

/-- UPLOAD (R458). -/
def execUpload (s : State) : Host.Outcome State Fault Refusal :=
  .next (carryOut s 1 (fun _ => true) (fun s i c => match uploadBad c with
    | some b => answer s i c codeBadCmd (some b)
    | none => upload s i c))

/-! ### TRIGGER (R462) -/

/-- First bad field of a TRIGGER. -/
def triggerBad (s : State) (c : List Byte) : Option Nat :=
  firstBad [(4, (kget? s.dev.graphs (bfld c 4 2)).isSome), (8, decide (bfld c 8 1 ≤ 6))]

/-- Slot and value of patch `j`. -/
def patchOf (c : List Byte) (j : Nat) : Nat × Nat := (bfld c (16 + 8 * j) 2, bfld c (16 + 8 * j + 2) 6)

/-- Apply patch `j`: bits [47:0] of its slot. -/
def applyPatch (c : List Byte) (off : Nat) (s : State) (j : Nat) : State :=
  let (k, v) := patchOf c j
  { s with sched := Memory.writeBytes s.sched (off + 64 + 8 * k) (leBytes 6 v) }

/-- Start a run of a graph. -/
def startRun (s : State) (g : Nat) (c : List Byte) : State :=
  let (id, s) := fresh s
  modGraph s g (fun x => { x with run := some { id := id, tag := cmdTag c, notify := flag (cmdFlags c) 0 } })

/-- TRIGGER of a defined graph, after the checks of its fields. -/
def trigger (s : State) (i : Nat) (c : List Byte) (g : Nat) (x : Graph) : State :=
  let np := bfld c 8 1
  if bfld c 6 2 % 1024 != x.sealId || !sealLive s x.sealId then answer s i c codeBadSeal none
  else if x.run.isSome then answer s i c codeBusy none
  else match (List.range np).find? (fun j => decide (imgParams s.sched x.off ≤ (patchOf c j).1)) with
  | some j => answer s i c codeBadCmd (some (16 + 8 * j))
  | none =>
    let s := (List.range np).foldl (applyPatch c x.off) s
    let s := record (startRun s g c) c codeAccepted none
    answerUnknown 64 (retireCmd (advanceGraph s g) i)

/-- TRIGGER (R462). -/
def execTrigger (s : State) : Host.Outcome State Fault Refusal :=
  .next (carryOut s 2 (fun _ => true) (fun s i c => match triggerBad s c, kget? s.dev.graphs (bfld c 4 2) with
    | some b, _ => answer s i c codeBadCmd (some b)
    | none, some x => trigger s i c (bfld c 4 2) x
    | none, none => s))

/-! ### SEALNEW, SEALEND, ABORT (R418, R458, R459) -/

/-- First bad field of a SEALNEW. -/
def sealnewBad (c : List Byte) : Option Nat :=
  let at_ (off al : Nat) : Bool := bfld c off 8 % al == 0 && decide (bfld c off 8 < 2 ^ 39)
  firstBad [(4, decide (bfld c 4 2 ≤ 1023)), (6, bfld c 6 2 == 0), (8, at_ 8 16384), (16, at_ 16 1024), (24, at_ 24 65536),
    (32, bfld c 32 4 != 0 && decide (bfld c 24 8 + 65536 * bfld c 32 4 ≤ 2 ^ 39))]

/-- The seal a SEALNEW names. -/
def newSeal (s : State) (x : Nat) : Option Nat :=
  if x == 0 then (range 1 1023).find? (fun i => (sealOf s i).state == 0)
  else if (sealOf s x).state == 0 then some x else none

/-- Make a seal LIVE. -/
def makeSeal (s : State) (x : Nat) (c : List Byte) : State :=
  let s := if flag (cmdFlags c) 0 then s else dropSched s x
  modSeal s x (fun e =>
    { state := 1, ptroot := bfld c 8 8, vbase := bfld c 16 8, pool := bfld c 24 8, poolsz := bfld c 32 4
      events := e.events, latest := e.latest })

/-- SEALNEW (R459). -/
def execSealnew (s : State) : Host.Outcome State Fault Refusal :=
  .next (carryOut s 4 (fun _ => true) (fun s i c => match sealnewBad c, newSeal s (bfld c 4 2) with
    | some b, _ => answer s i c codeBadCmd (some b)
    | none, none => answer s i c codeBadSeal none
    | none, some x => answer (makeSeal s x c) i c codeDone (some x)))

/-- SEALEND of a seal: begun once, it waits until the seal is FREE. -/
def sealendStep (s : State) (i : Nat) (c : List Byte) (x : Nat) : State :=
  let st := (sealOf s x).state
  if x == 0 || (st == 0 && !s.dev.begun) then answer s i c codeBadSeal none
  else if st == 0 then answer (dropSched s x) i c codeDone none
  else
    let s := if st == 1 then sealEndOnly s x 0 1 else s
    modDev s (fun d => { d with begun := true })

/-- SEALEND (R458). -/
def execSealend (s : State) : Host.Outcome State Fault Refusal :=
  .next (carryOut s 5 (fun _ => true) (fun s i c => sealendStep s i c (bfld c 4 2)))

/-- ABORT (R458). -/
def execAbort (s : State) : Host.Outcome State Fault Refusal :=
  .next (carryOut s 6 (fun _ => true) (fun s i c =>
    let x := bfld c 4 2
    if x == 0 || (sealOf s x).state == 0 then answer s i c codeBadSeal none
    else answer (sealEndOnly s x 0 2) i c codeDone none))

/-! ### TIMESET (R464) -/

/-- Step the counter: a forward step wakes the waits it reaches. -/
def stepTime (s : State) (v : Nat) : State :=
  let fwd := decide (s.tnow < v)
  { s with tnow := v, dev := { s.dev with frameAt := frameOf v }, threads := s.threads.map (fun p => match p.2.wait with
      | .time t => if fwd && decide (t ≤ v) then (p.1, p.2.wake) else p
      | _ => p) }

/-- Configure the discipline: it restarts in ACQUIRE. -/
def configTime (s : State) (c : List Byte) : State :=
  modTlock s (fun t => { t with domain := bfld c 16 1, prof := flag (bfld c 17 1) 0, state := 1, good := 0, lastStamp := s.dev.mono })

/-- TIMESET_STEP (R464): a TIMESET with STEP, and with CONFIG after it where that is set too. -/
def execTimesetStep (s : State) : Host.Outcome State Fault Refusal :=
  .next (carryOut s 7 (fun c => flag (cmdFlags c) 0) (fun s i c =>
    if s.outputs.any (fun p => p.2.armed) then answer s i c codeRefused none
    else
      let s := stepTime s (bfld c 8 8)
      answer (if flag (cmdFlags c) 1 then configTime s c else s) i c codeDone none))

/-- TIMESET_CONFIG (R464): a TIMESET without STEP. -/
def execTimesetConfig (s : State) : Host.Outcome State Fault Refusal :=
  .next (carryOut s 7 (fun c => !flag (cmdFlags c) 0) (fun s i c =>
    answer (if flag (cmdFlags c) 1 then configTime s c else s) i c codeDone none))

/-! ### RESYNC (R463) -/

/-- Bytes of bits, eight a byte. -/
def bitBytes (n : Nat) (f : Nat → Bool) : List Byte :=
  (List.range n).map (fun i => BitVec.ofNat 8 ((List.range 8).foldl (fun v j => v + b2n (f (8 * i + j)) * 2 ^ j) 0))

/-- Two-bit states of the seals. -/
def sealBytes (s : State) : List Byte :=
  (List.range 256).map (fun i => BitVec.ofNat 8 ((List.range 4).foldl (fun v j =>
    let x := 4 * i + j
    v + (if x == 0 then 1 else (sealOf s x).state % 4) * 4 ^ j) 0))

/-- The watchdog step a launch queue has reached. -/
def queueStep (s : State) (q : Nat) : Nat :=
  let ended := s.seals.filter (fun p => p.2.state == 2 && p.2.wdAt.isSome && p.2.wdQueue == q)
  let fenced := ended.any (fun p => s.teams.any (fun t => t.2.sealId == p.1 && (core s t.2.core).fenced))
  if fenced then 3 else if !ended.isEmpty then 2
  else s.grids.foldl (fun m p => if p.2.lr.queue == q && !p.2.hidden then Nat.max m p.2.wdStep else m) 0

/-- A launch queue's word: grids with teams still to place. -/
def queueWord (s : State) (q : Nat) : Nat :=
  let n := (s.grids.filter (fun p => p.2.lr.queue == q && !p.2.hidden && decide (p.2.placed < p.2.lr.teams))).length
  sat n 255 + queueStep s q % 4 * 2 ^ 8 + fld (wdog s q) 31 1 * 2 ^ 31

/-- The latest 38 event records, oldest first. -/
def latestEvents (s : State) : List Byte :=
  let n := Nat.min 38 s.rings.log.length
  let bs := (List.range n).flatMap (fun i => kgetD s.rings.log ((s.rings.logSeq + 2 ^ 32 - n + i) % 256) [])
  bs ++ List.replicate (1216 - bs.length) 0

/-- An output's eight bytes. -/
def outputBytes (s : State) (o : Nat) : List Byte :=
  let x := output s o
  leBytes 2 (b2n x.armed) ++ leBytes 2 (Nat.min x.misses 65535) ++ leBytes 4 x.frame

/-- The summary in RECOVERY: STAGE and FAIL only. -/
def recoverySummary (s : State) : List Byte := List.replicate 32 0 ++ leBytes 4 (stageWord s % 2 ^ 16) ++ List.replicate 4060 0

/-- The summary (R463). -/
def summaryBytes (s : State) : List Byte :=
  sha3 s.dev.firmware ++ leBytes 4 (stageWord s) ++ leBytes 4 (pwrstat s) ++ leBytes 8 s.tnow ++ leBytes 4 (tlockWord s)
    ++ leBytes 4 (errstat s) ++ leBytes 4 s.rings.logSeq ++ leBytes 4 s.dev.carried ++ sealBytes s
    ++ bitBytes 512 (fun g => (kget? s.dev.graphs g).isSome)
    ++ bitBytes 512 (fun g => ((kget? s.dev.graphs g).bind (·.run)).isSome)
    ++ (List.range 64).flatMap (fun q => leBytes 4 (queueWord s q))
    ++ (List.range 128).flatMap (fun f => leBytes 8 (fibreUp s f).toNat)
    ++ (List.range 36).flatMap (fun c => leBytes 4 (xbstatWord (channel s c) (queueDepth s c)))
    ++ (List.range 8).flatMap (outputBytes s) ++ leBytes 4 (domcfg s) ++ List.replicate 12 0 ++ latestEvents s
    ++ List.replicate 32 0

/-- RESYNC (R463). -/
def execResync (s : State) : Host.Outcome State Fault Refusal :=
  .next (carryOut s 3 (fun _ => true) (fun s i c =>
    let bs := if s.dev.power.state == 3 then recoverySummary s else summaryBytes s
    answer (modDev s (fun d => { d with summary := bs })) i c codeDone none))

/-! ### ATTEST (R428, R466) -/

/-- A decode table as the 2 KiB image DTLOAD takes. -/
def tableImage (s : State) (t : DecodeTable) : List Byte :=
  (List.range 1024).flatMap (fun i => leBytes 2 (if i == 0 || i == 0x3FF then 0 else tableEntry s t i))

/-- Digests of the distinct tables that contexts ran under, in order. -/
def measurements (s : State) : List (List Byte) :=
  ((s.measured.map (tableImage s)).foldl (fun l b => if l.contains b then l else l ++ [b]) []).map sha3

/-- The 128 entries of the measurement log. -/
def measureLog (ds : List (List Byte)) : List Byte :=
  let last := (ds.drop 128).foldl (fun e d => sha3 (e ++ d)) (nthD ds 127 [])
  let bs := (ds.take 127).flatten ++ last
  bs ++ List.replicate (4096 - bs.length) 0

/-- Bytes 0 to 4,175 of the report. -/
def reportHead (s : State) (nonce : List Byte) : List Byte :=
  let ds := measurements s
  nonce ++ sha3 s.dev.firmware ++ leBytes 4 (Nat.min 128 ds.length) ++ leBytes 4 s.dev.reports ++ leBytes 8 s.tnow ++ measureLog ds

/-- The report (R466); its signature's bytes are free values from draw `n` on. -/
def reportBytes (s : State) (nonce : List Byte) (n : Nat) : List Byte :=
  reportHead s nonce ++ (List.range 2420).map (fun i => BitVec.ofNat 8 (Config.freeNat (n + i))) ++ List.replicate 1596 0

/-- ATTEST (R466). -/
def execAttest (s : State) : Host.Outcome State Fault Refusal :=
  .next (carryOut s 9 (fun _ => true) (fun s i c =>
    let (n, s) := draw s 2420
    let s := modDev s (fun d => { d with reports := d.reports + 1 })
    answer (modDev s (fun d => { d with report := reportBytes s ((c.drop 4).take 32) n })) i c codeDone none))

/-! ### Bring-up (R17, R469, R470) -/

/-- RESET (R17): the machine as after reset; the firmware slot keeps its image. -/
def resetTo (s : State) : State :=
  { State.reset with agenda := s.agenda, nextId := s.nextId, draws := s.draws, dev := { firmware := s.dev.firmware } }

/-- RESET (R17). -/
def execReset (s : State) : Host.Outcome State Fault Refusal := .next (resetTo s)

/-- Bring-up restarts at stage 1 (R470): the memories, the counter and the rings towards the host stand, and what stands in
the staging window. -/
def restart (s : State) : State :=
  { resetTo s with mem := s.mem, weight := s.weight, tnow := s.tnow, aclk := s.aclk, rings := s.rings
                   dev := { firmware := s.dev.firmware, staging := stagingWindow s, mono := s.dev.mono, carried := s.dev.carried
                            commands := s.dev.commands, frameAt := s.dev.frameAt } }

/-- FWLOAD is refused outside RECOVERY while a seal is LIVE or an output armed. -/
def fwloadRefused (s : State) : Bool :=
  s.dev.power.state != 3 && (s.seals.any (fun p => p.1 != 0 && p.2.state == 1) || s.outputs.any (fun p => p.2.armed))

/-- FWLOAD (R470): whether the image's signature verifies comes from outside. -/
def execFwload (ok : Bool) (s : State) : Host.Outcome State Fault Refusal :=
  .next (carryOut s 8 (fun _ => true) (fun s i c =>
    let n := bfld c 8 4
    if n == 0 || decide (2 ^ 25 < n) then answer s i c codeBadCmd (some 8)
    else if fwloadRefused s then answer s i c codeRefused none
    else if !ok then answer s i c codeBadImage none
    else
      let s := modDev s (fun d => { d with firmware := Memory.readBytes (stagingWindow s) 0 n })
      restart (retireCmd (record s c codeDone none) i)))

/-- Bring-up is at a stage and has not stopped there. -/
def atStage (s : State) (n : Nat) : Bool := s.dev.power.state == 4 && s.dev.stage == n && (s.dev.fail == 0 || n == 2)

/-- Go on to a stage. -/
def toStage (s : State) (n : Nat) : State := modDev s (fun d => { d with stage := n, fail := 0, stageAt := d.mono })

/-- A stage fails. -/
def stageFails (s : State) (code : Nat) : State := modDev s (fun d => { d with fail := code })

/-- The decode tables a firmware image installs under numbers 0 to 2: those that pass R47 (R45, R428). -/
def installed (maps : List (List Nat)) : KMap (List Nat) :=
  ((maps.take 3).zipIdx).filterMap (fun p => if p.1.length == 1024 && (tableCheckFrom 0 p.1).isNone then some (p.2, p.1) else none)

/-- FIRMWARE_VERIFICATION (R469): the firmware's version and its decode tables come from the image. On failure the boot ROM
trains UCIe next, at STAGE 1 with FAIL 1. -/
def execFirmwareVerification (found : Option (List (List Nat))) (s : State) : Host.Outcome State Fault Refusal :=
  .next (if !atStage s 1 then s
    else match found with
    | some maps =>
      let (d, s) := draw s 1
      modDev (toStage s 2) (fun x => { x with fwver := (Config.freeWord d).toNat % 2 ^ 16, maps := installed maps })
    | none => stageFails s 1)

/-- Verification has failed, and the boot ROM trains UCIe (R469). -/
def romTraining (s : State) : Bool := s.dev.power.state == 4 && s.dev.stage == 1 && s.dev.fail == 1

/-- UCIE_TRAINING (R469): retried without end. After a failed verification the boot ROM trains, and then enters RECOVERY with
STAGE 1 and FAIL 1. -/
def execUcieTraining (ok : Bool) (s : State) : Host.Outcome State Fault Refusal :=
  .next (if romTraining s then
      (if ok then serveCommands (modDev s (fun d => { d with power := { d.power with state := 3 } })) else s)
    else if !atStage s 2 then s else if ok then toStage s 3 else stageFails s 2)

/-- LPDDR_TRAINING (R469) with the lowest failing channel. -/
def execLpddrTraining (failed : Option Nat) (s : State) : Host.Outcome State Fault Refusal :=
  .next (if !atStage s 3 then s else match failed with
    | none => toStage s 4
    | some c => modDev (stageFails s 3) (fun d => { d with fwver := c % 2 ^ 16 }))

/-- DAMLAN_RING_TUNING (R469). -/
def execDamlanRingTuning (ok : Bool) (s : State) : Host.Outcome State Fault Refusal :=
  .next (if !atStage s 4 then s else if ok then toStage s 5 else stageFails s 4)

/-- TSUXUS_TRAINING (R452, R469) with the wavelengths that came up on each fibre. -/
def execTsuxusTraining (masks : List DWord) (s : State) : Host.Outcome State Fault Refusal :=
  .next (if !atStage s 5 then s
    else
      let w := ((masks.take 128).zipIdx).foldl (fun (m : KMap DWord) x => if x.1 == 0 then m else kset m x.2 x.1) []
      toStage (modDomain s (fun d => { d with waves := w, checks := [] })) 6)

/-- The registers the host writes, the ring heads and the counts take their Reset values as the device leaves bring-up; those
that show what bring-up found stand (R6, DEDUCED, log entry 176). -/
def leaveBringup (s : State) : State :=
  { s with
    outputs := [], reservoir := [], errors := { s.errors with corr := 0, uncorr := 0 }
    rings := { s.rings with stHead := 0, logSeq := 0, fltHead := 0 }
    domain := { s.domain with en := false, pkg := 0 }
    dev := { s.dev with power := { state := 0 }, wdog := [], valo := 0, vahi := 0, tlbRun := none, carried := 0, reports := 0 } }

/-- PTP_LOCK (R469): LOCKED, or 10 s have passed; the device is READY. -/
def execPtpLock (s : State) : Host.Outcome State Fault Refusal :=
  .next (if atStage s 6 && (s.dev.tlock.state == 2 || decide (s.dev.stageAt + 10 * 2 ^ 30 ≤ s.dev.mono)) then
    serveCommands (leaveBringup (toStage s 7)) else s)

/-! ### Power (R18 to R21) -/

/-- A write of PWRLIM; clearing STBY leaves STANDBY and lets held launches go. -/
def writePwrlim (s : State) (w : Word) : State :=
  let on := flag w.toNat 31
  let lim := Nat.max 1200 (Nat.min 2900 (fld w.toNat 0 12))
  let s := modDev s (fun d => { d with power :=
    { d.power with stby := on, limit := lim, state := if !on && d.power.state == 2 then 0 else d.power.state } })
  if on then s else advanceGraphs s

/-- STANDBY_REQUEST (R19): a host write of PWRLIM with STBY = 1. -/
def execStandbyRequest (w : Word) (s : State) : Host.Outcome State Fault Refusal :=
  .next (if flag w.toNat 31 then writePwrlim s w else s)

/-- STANDBY_CLEAR (R19): a host write of PWRLIM with STBY = 0. -/
def execStandbyClear (w : Word) (s : State) : Host.Outcome State Fault Refusal :=
  .next (if flag w.toNat 31 then s else writePwrlim s w)

/-- POWER_LIMIT_WRITE (R19): a host write of PWRLIM. -/
def execPowerLimitWrite (w : Word) (s : State) : Host.Outcome State Fault Refusal := .next (writePwrlim s w)

/-- STANDBY_ENTRY (R18): requested, the device IDLE, and no output armed. -/
def execStandbyEntry (s : State) : Host.Outcome State Fault Refusal :=
  .next (if s.dev.power.stby && s.dev.power.state == 0 && !deviceActive s && !s.outputs.any (fun p => p.2.armed) then
    modDev s (fun d => { d with power := { d.power with state := 2 } }) else s)

/-- POWER_WINDOW (R20) with the average of the last 10 ms: one step more or less is in force. -/
def execPowerWindow (avg : Nat) (s : State) : Host.Outcome State Fault Refusal :=
  .next (modDev s (fun d =>
    let p := d.power
    { d with power := { p with level := if p.limit < avg then Nat.min 12 (p.level + 1) else p.level - 1
                               pkgw := Nat.min avg p.limit } }))

/-! ### Page faults acknowledged (R182, R467) -/

/-- The walk that is made once more for a fault entry's threads. -/
def walkAgain (s : State) (st : Nat) (e : FaultEntry) : State :=
  modStation s st (fun x =>
    let id := x.walks.foldl (fun m w => Nat.max m (w.id + 1)) 0
    { x with faults := x.faults.filter (fun f => f.idx != e.idx)
             walks := x.walks ++ [{ id := id, sealId := e.sealId, va := e.va, threads := e.threads, stale := false, kind := e.kind }] })

/-- Completion words that wait for the host are tried again, and runs held by a page go on. -/
def retryWaiting (s : State) : State :=
  let ids := (s.grids.filter (fun p => p.2.waiting)).map (·.1)
  advanceGraphs (ids.foldl (fun s g => finishGrid (modGrid s g (fun x => { x with waiting := false })) g) s)

/-- A write of FAULTACK: the page's waiters try it again, those of other packages among them (R182, R220). -/
def acknowledge (s : State) (i : Nat) : State :=
  match s.stations.findSome? (fun p => (p.2.faults.find? (fun f => f.ringIdx == i)).map (fun f => (p.1, f))) with
  | some (st, e) => retryRequests (retryWaiting (walkAgain s st e))
  | none => s

/-- FAULTACK (R467). -/
def execFaultack (w : Word) (s : State) : Host.Outcome State Fault Refusal := .next (acknowledge s (fld w.toNat 0 11))

/-! ### Registers of the management region (R6, R448, R454, R455) -/

/-- A write of DOMCFG; PKG keeps its value while EN = 1. -/
def writeDomcfg (s : State) (w : Word) : State :=
  modDomain s (fun d => { d with en := flag w.toNat 31, pkg := if d.en then d.pkg else fld w.toNat 0 12 })

/-- DOMCFG_WRITE (R455). -/
def execDomcfgWrite (w : Word) (s : State) : Host.Outcome State Fault Refusal := .next (writeDomcfg s w)

/-- A write of four entries of DOMTAB. -/
def writeDomtab (s : State) (n : Nat) (w : Word) : State :=
  modDomain s (fun d => { d with table := (List.range 4).foldl (fun m i => kset m (n / 4 * 4 + i) (fld w.toNat (8 * i) 8)) d.table })

/-- A host write of a system register of device scope (R415): zero fields stay zero. -/
def writeHostReg (s : State) (n : Nat) (w : Word) : State :=
  let r := sysReg n
  let v := w &&& ~~~ (wordN (sysZero r))
  match r with
  | .host => if n == 0x5C then writeDbgctl s w else writeTlbctl s n w
  | .wdog q => writeWdog s q v
  | .out o off => outWriteFree s o off v.toNat
  | .ring g off => ringWrite s g off v.toNat
  | _ => s

/-- A host write to the management region; offsets not listed and read-only words ignore it. -/
def writeRegion (s : State) (n : Nat) (w : Word) : State :=
  if n == 0x18 then acknowledge s (fld w.toNat 0 11)
  else if n == 0x1C then writeDomcfg s w
  else if n == 0x100 then writePwrlim s w
  else if 0xD000 ≤ n && n < 0xE000 then writeDomtab s (n - 0xD000) w
  else if 0x10000 ≤ n && n < 0x20000 then writeHostReg s (n - 0x10000) w
  else s

/-- REGISTER_WRITE (R6, R454): a host write at an offset of the management region. -/
def execRegisterWrite (number : Nat) (w : Word) (s : State) : Host.Outcome State Fault Refusal := .next (writeRegion s number w)

/-- BAR2_STAGING_WRITE (R470): the window is writable only while no ring is enabled. -/
def execBar2StagingWrite (off : Nat) (bytes : List Byte) (s : State) : Host.Outcome State Fault Refusal :=
  .next (if s.reservoir.any (fun p => p.2.en) || decide (2 ^ 25 < off + bytes.length) then s
    else modDev s (fun d => { d with staging := Memory.writeBytes (stagingWindow s) off bytes, remnants := [] }))

/-- What a read of a device-scope system register gives the host; write-only ones read 0 (R6, R415). -/
def readHostReg (s : State) (n : Nat) : Nat :=
  match sysReg n with
  | .rebasecnt => s.lines.rebases
  | .tlock => tlockWord s
  | .errstat => errstat s
  | .wdog q => wdog s q
  | .out o off => outRead s o off
  | .ring r off => ringRead s r off
  | .host => if n == 0x60 then s.dev.valo else if n == 0x64 then s.dev.vahi else if n == 0x6C then b2n s.dev.tlbRun.isSome else 0
  | _ => 0

/-- A word of a ring of records of `size` bytes; a record not written yet reads 0. -/
def ringRecord (m : KMap (List Byte)) (size off : Nat) : Nat := bfld (kgetD m (off / size) []) (off % size) 4

/-- An identity or status register (R455). -/
def statusReg (s : State) (n : Nat) : Nat :=
  match n with
  | 0x00 => 0x0810 * 2 ^ 16 + 0x0001
  | 0x04 => stageWord s
  | 0x08 => cmdfree s
  | 0x0C => s.rings.stHead
  | 0x10 => s.rings.logSeq
  | 0x14 => s.rings.fltHead
  | 0x1C => domcfg s
  | 0x100 => pwrlim s
  | 0x108 => pwrstat s
  | _ => 0

/-- The word a host read at an offset of the management region gives; offsets not listed, the command window and PTPIN read 0
(R454; log entry 177). -/
def readRegion (s : State) (n : Nat) : Word :=
  wordN (if n < 0x1000 then statusReg s n
    else if n < 0x2000 then 0
    else if n < 0x3000 then ringRecord s.rings.status 16 (n - 0x2000)
    else if n < 0x4000 then bfld s.dev.summary (n - 0x3000) 4
    else if n < 0x6000 then ringRecord s.rings.log 32 (n - 0x4000)
    else if n < 0x8000 then bfld s.dev.report (n - 0x6000) 4
    else if n < 0xD000 then ringRecord s.rings.faults 16 (n - 0x8000)
    else if n < 0xE000 then leNat ((List.range 4).map (fun i => BitVec.ofNat 8 (domtab s (n - 0xD000 + i))))
    else if n < 0xE000 + 1312 then leNat ((List.range 4).map (fun i => Config.identityKey (n - 0xE000 + i)))
    else if 0x10000 ≤ n && n < 0x20000 then readHostReg s (n - 0x10000)
    else 0)

/-- HEAD_REGISTER_READ (R468): 0 STHEAD, 1 LOGHEAD, 2 FLTHEAD. The read gives the register's word, and the vector's next
record sends a message again. -/
def execHeadRegisterRead (which : Nat) (s : State) : Host.Outcome State Fault Refusal :=
  .next { s with rings := { s.rings with msiOpen := s.rings.msiOpen.filter (· != which) }
                 dev := { s.dev with answer := if which < 3 then (readRegion s (0x0C + 4 * which)).toNat else 0 } }

/-! ### Host accesses over CXL.mem (R195, R453) -/

/-- The largest timestamp a slice holds. -/
def sliceTime (s : State) (sl : Nat) : Nat :=
  (s.lines.wts ++ s.lines.rts).foldl (fun m p => if homeSlice (128 * p.1) == sl then Nat.max m p.2 else m) 0

/-- One line's part of a host access: performed at its home slice, strong, at the slice's largest timestamp. -/
def hostPart (s : State) (a : Access) (bs : List Byte) (store : Bool) : State :=
  match a.loc with
  | .glob pa =>
    let t := sliceTime s (homeSlice pa)
    if store then (storeAt s a bs t 0).2 else (loadAt s 0 a t 0 none).2.2
  | _ => s

/-- HOST_CXL_MEM_ACCESS (R195): a load, or a store of `data`. DESIGN CHOICE (log 194): an access past the last byte, which R453
says the device does not receive, changes nothing. -/
def execHostCxlMemAccess (pa len : Nat) (data : Option (List Byte)) (s : State) : Host.Outcome State Fault Refusal :=
  let n := match data with | some bs => bs.length | none => len
  let a : Access := { loc := .glob pa, len := n, strong := true, cattr := 0, pageW := true, pageSeal := 0 }
  .next (if 2 ^ 39 < pa + n then s
    else (a.lines.foldl (fun (r : List Byte × State) x =>
      (r.1.drop x.len, hostPart r.2 x (r.1.take x.len) data.isSome)) (data.getD [], s)).2)

end Sys2Proof.Machine
end

