-- ==== Sys2Proof/Machine/Strip.lean ====
section
/-!
DEFINITION. The strip and time words (R392 to R400).
-/
namespace Sys2Proof.Machine

/-- TNOW (R393). -/
def execTnow (sw : Bool) (d : BitVec 6) (s : State) : Host.Outcome State Fault Refusal :=
  issue (.tnow sw d) [] (fun k => ret64 k d k.s.tnow) s

/-- TWAIT (R394). -/
def execTwait (sw : Bool) (a : BitVec 6) (x : Bool) (s : State) : Host.Outcome State Fault Refusal :=
  issue (.twait sw a x) [srcPair a x]
    (fun k => if k.g64 a ≤ k.s.tnow then .ok { st := k.s } else .ok { st := k.s, flow := .wait (.time (k.g64 a)) }) s

/-- TIME_WAIT_EXPIRY (R394). -/
def execTimeWaitExpiry (t : Nat) (s : State) : Host.Outcome State Fault Refusal :=
  .next (modThread s t (fun th => match th.wait with
    | .time v => if v ≤ s.tnow then th.wake else th
    | _ => th))

/-! ### The slice and the chain of a thread -/

/-- The job slice of the thread's team. -/
def Ctx.job (k : Ctx) : Option (Nat × Job) :=
  (k.team.bind (·.slice)).bind (fun j => (kget? k.s.jobs j).map (fun x => (j, x)))

/-- The chain of the thread's slice. -/
def Ctx.chain (k : Ctx) : Option Chain := (k.team.bind (·.chain)).bind (fun c => kget? k.s.chains c)

/-- First output strip a low-resolution strip feeds: jR (R388). -/
def firstFed (s : State) (v : Video) (j : Nat) : Nat := j * loRatio s v

/-- TDEAD's value; none where the selector traps (R395). -/
def deadValue (k : Ctx) (sel : Nat) : Option Nat :=
  let lo (f : Video → Nat → Nat → Nat) : Option Nat :=
    k.chain.bind (fun c => c.lo.map (fun j => f c.video c.frame (firstFed k.s c.video j)))
  match sel with
  | 0 => some ((k.job.map (·.2.shown)).getD (2 ^ 64 - 1))
  | 1 => k.chain.map (·.t)
  | 2 => k.chain.map (·.f)
  | 3 => k.chain.map (·.s)
  | 4 => lo Video.timeT
  | 5 => lo Video.timeF
  | 6 => lo Video.timeS
  | _ => none

/-- TDEAD (R395). -/
def execTdead (sw : Bool) (d b : BitVec 6) (y : Bool) (s : State) : Host.Outcome State Fault Refusal :=
  issue (.tdead sw d b y) [src b y]
    (fun k => match deadValue k (k.g b).toNat with
      | some v => ret64 k d v
      | none => .error (k.illegal 3)) s

/-- TBUDG's value (R396). -/
def budgetLeft (j : Option (Nat × Job)) : Nat :=
  match j with
  | none => 0xFFFFFFFF
  | some (_, j) => if j.budget == 0 then 0xFFFFFFFF else Nat.min (j.budget - j.count) 0xFFFFFFFE

/-- TBUDG (R396). -/
def execTbudg (sw : Bool) (d : BitVec 6) (s : State) : Host.Outcome State Fault Refusal :=
  issue (.tbudg sw d) [] (fun k => ret k d (wordN (budgetLeft k.job))) s

/-! ### SCOMMIT (R397) -/

/-- The strip of a chain on the ring a register names. -/
def stripOn (k : Ctx) (c : Chain) (g : Nat) : Option StripOn :=
  let v := c.video
  if g == v.ring then
    if c.k < 0 then none
    else some ⟨g, slotNo k.s g v.strips c.frame c.k.toNat, c.k.toNat, c.t, true⟩
  else if v.factor != 0 && g == v.loring then
    c.lo.map (fun j => ⟨g, slotNo k.s g v.loStrips c.frame j, j, v.timeT c.frame (firstFed k.s v j), false⟩)
  else none

/-- The buffer a pair names, of at least `n` bytes. -/
def stripBuffer (k : Ctx) (v n : Nat) : Except Stop Buffer :=
  match k.team with
  | none => .error (.held k.s)
  | some tm =>
    match matchBuffer tm v k.iw with
    | .error e => .error e
    | .ok b => if b.extent < n then .error (badBuffer tm b k.iw) else .ok b

/-- A slot's pixels set from the bytes of a buffer (R377, R397). -/
def Slot.load (x : Slot) (n : Nat) (bs : List Byte) : Slot :=
  { x with px := (List.range n).filterMap (fun i =>
      let v := bfld bs (4 * i) 4 % 2 ^ 30
      if v == x.fill then none else some (i, v)) }

/-- The commit itself: of what a thread of a team committed at a logical time, from a buffer where one is named. -/
def commitStrip (s : State) (t tm out pts : Nat) (σ : StripOn) (buf : Option Buffer) : State :=
  let g := ringOf s σ.ring
  let n := g.width * g.rsh
  let s := match buf with
    | none => s
    | some b =>
      let e : End := .spad tm b.base
      let bs := peek s (.spad tm b.base) (4 * n)
      let s := beginRead (met s (.spad tm b.base) (4 * n)) e (2 ^ 63 + t)
      endRead (modSlot s σ.ring σ.slot (fun x => x.load n bs)) tm b.idx (2 ^ 63 + t)
  let s := modSlot s σ.ring σ.slot (fun x => { x with state := 2, pts := pts })
  if σ.output then modOutput s out (fun x => { x with lastCmt := s.tnow }) else s

/-- What keeps a strip from being committed: its slot is not held for it, or is COMMITTED, or its time has passed. -/
def commitRefused (s : State) (frame : Nat) (σ : StripOn) : Option Nat :=
  let y := slotOf s σ.ring σ.slot
  if !y.holds frame σ.strip || !(y.state == 1 || y.state == 2) then some 3
  else if y.state == 2 then some 2
  else if σ.t ≤ s.tnow then some 1
  else none

/-- A commit from a buffer that was not ready: refused by now, or performed once the buffer is FULL or DRAINING, as an engine's
read; its result is then written. One whose thread has ended is dropped. -/
def serveCommit (s : State) (p : Nat × Commit) : State :=
  let c := p.2
  let over_ (s : State) : State := { s with commits := kdel s.commits p.1 }
  match unitFlight s c.th p.1, (team? s c.team).bind (fun tm => tm.buffer? c.buf) with
  | some f, some b =>
    let answer (s : State) (n : Nat) : State :=
      modThread (over_ s) c.th (fun th => th.modFlight f.seq (fun f => { f with got := some [wordN n] }))
    (match commitRefused s c.frame c.strip with
    | some n => answer s n
    | none => if b.state < 2 then s else answer (commitStrip s c.th c.team c.out c.pts c.strip (some b)) 0)
  | _, _ => over_ s

/-- Commits that wait for their buffers, oldest first. -/
def settleCommits (s : State) : State := s.commits.foldl serveCommit s

/-- SCOMMIT's outcome in a published state. A copy from a buffer that is EMPTY or FILLING waits on ec4, and the thread goes
on. -/
def commitBody (k : Ctx) (s : State) (d : BitVec 6) (c : Chain) (σ : StripOn) (buf : Option Buffer) : Except Stop Eff :=
  match commitRefused s c.frame σ with
  | some n => inState s (retLater k 4 d [wordN n])
  | none =>
    match buf with
    | some b =>
      if 2 ≤ b.state then inState (commitStrip s k.t k.th.team c.out (ptsOf s k.t) σ buf) (retLater k 4 d [wordN 0])
      else
        let (id, s) := fresh s
        let w : Commit := { th := k.t, team := k.th.team, out := c.out, frame := c.frame, strip := σ, buf := b.idx, pts := ptsOf s k.t }
        .ok { st := { s with commits := kset s.commits id w }, launch := some { ec := 4, dests := [d.toNat], op := .unit id } }
    | none => inState (commitStrip s k.t k.th.team c.out (ptsOf s k.t) σ none) (retLater k 4 d [wordN 0])

/-- SCOMMIT (R397). -/
def execScommit (sw : Bool) (d a b : BitVec 6) (x y m : Bool) (s : State) : Host.Outcome State Fault Refusal :=
  issue (.scommit sw d a b x y m) (src a x :: (if m then [srcPair b y] else []))
    (fun k => match k.chain with
      | none => .error (k.illegal 3)
      | some c =>
        match stripOn k c (k.g a).toNat with
        | none => .error (k.illegal 3)
        | some σ =>
          if !m then k.publish.bind (fun s => commitBody k s d c σ none)
          else
            let g := ringOf k.s σ.ring
            match stripBuffer k (k.g64 b) (4 * (g.width * g.rsh)) with
            | .error e => .error e
            | .ok bf => k.publish.bind (fun s => commitBody k s d c σ (some bf))) s

/-! ### SHALO (R398) -/

/-- The low-resolution lines a chain's output strip needs. -/
structure Halo where
  j : Nat
  y0 : Nat
  y1 : Nat
  rsh : Nat
  width : Nat

/-- Lines copied. -/
def Halo.lines (h : Halo) : Nat := h.y1 + 1 - h.y0

/-- The halo of output strip `k`. -/
def haloOf (s : State) (v : Video) (k : Nat) : Halo :=
  let g := ringOf s v.loring
  let j := k / loRatio s v
  { j := j, y0 := j * g.rsh - v.halo, y1 := Nat.min (v.vactLo - 1) ((j + 1) * g.rsh + v.halo - 1), rsh := g.rsh, width := g.width }

/-- The slot of a low-resolution line, where its strip is COMMITTED. -/
def loSlot (s : State) (v : Video) (f y : Nat) : Option Slot :=
  let j := y / (ringOf s v.loring).rsh
  let sl := slotOf s v.loring (slotNo s v.loring v.loStrips f j)
  if sl.state == 2 && sl.holds f j then some sl else none

/-- A line of the low-resolution frame: none where its strip is not COMMITTED. -/
def loLine (s : State) (v : Video) (f y : Nat) : Option (List Byte) :=
  let g := ringOf s v.loring
  (loSlot s v f y).map (fun sl => (List.range g.width).flatMap (fun i => leBytes 4 (sl.pixel (g.width * (y % g.rsh) + i))))

/-- The bytes of a halo, and whether a line was written as zero. -/
def haloBytes (s : State) (v : Video) (f : Nat) (h : Halo) : List Byte × Bool :=
  (range h.y0 h.lines).foldl (fun r y => match loLine s v f y with
    | some bs => (r.1 ++ bs, r.2)
    | none => (r.1 ++ List.replicate (4 * h.width) 0, true)) ([], false)

/-- Logical time of a halo's copy: its issuer's, and those of the commits whose lines it reads (R205, R397, R398). -/
def haloPts (s : State) (v : Video) (f pts : Nat) (h : Halo) : Nat :=
  (range h.y0 h.lines).foldl (fun n y => Nat.max n (((loSlot s v f y).map (·.pts)).getD 0)) pts

/-- The bursts' arrival updates: 128 bytes each, the last one shorter (R268). -/
def haloArrive (s : State) (tm off pts : Nat) : Nat → Nat → State
  | 0, _ => s
  | fuel + 1, n => if n == 0 then s else haloArrive (arrivalAdd s tm off (Nat.min n 128) pts) tm off pts fuel (n - Nat.min n 128)

/-- SHALO's copy and results in a published state. -/
def haloCopy (k : Ctx) (s : State) (d : BitVec 6) (c : Chain) (h : Halo) (b : Buffer) (arr : Option Nat) : Except Stop Eff :=
  let (bs, zero) := haloBytes s c.video c.frame h
  let pts := Nat.max (haloPts s c.video c.frame (ptsOf s k.t) h) (bufferTime s (.spad k.th.team b.base))
  let s := poke (beginWrite s (.spad k.th.team b.base)) (.spad k.th.team b.base) bs
  let s := match arr with
    | some off => haloArrive s k.th.team off pts (bs.length / 128 + 1) bs.length
    | none => s
  let above := h.j * h.rsh - h.y0
  let below := h.y1 + 1 - (h.j + 1) * h.rsh
  inState s ((retLater k 4 d [wordN h.y0, wordN h.lines, wordN (above + below * 2 ^ 8 + b2n zero * 2 ^ 16),
    wordN (h.j % 2 ^ 16 + h.width * 4 % 2 ^ 16 * 2 ^ 16)]).map (·.bringing pts))

/-- SHALO (R398). -/
def execShalo (sw : Bool) (d a b : BitVec 6) (x y : Bool) (s : State) : Host.Outcome State Fault Refusal :=
  issue (.shalo sw d a b x y) [srcPair a x, src b y]
    (fun k => match k.chain, k.team with
      | some c, some tm =>
        if c.video.factor == 0 || decide (c.k < 0) then .error (k.illegal 3)
        else
          let h := haloOf k.s c.video c.k.toNat
          let w := (k.g b).toNat
          let arr := tm.arrivals.find? (fun r => r.idx == w % 32)
          if (if flag w 5 then arr.isNone else w % 32 != 0) then .error (k.illegal 3)
          else match stripBuffer k (k.g64 a) (4 * h.width * h.lines) with
          | .error e => .error e
          | .ok bf =>
            if 2 ≤ bf.state then .error (.held (holdAt k.s k.t))
            else k.publish.bind (fun s => haloCopy k s d c h bf (if flag w 5 then arr.map (·.off) else none))
      | _, _ => .error (k.illegal 3)) s

/-! ### JOBEND and SRATE (R399, R400) -/

/-- End a slice: its issuing thread and every other thread of its team. -/
def endSlice (s : State) (t tm : Nat) : State := endTeam (endThread s t) tm

/-- JOBEND (R399). -/
def execJobend (sw : Bool) (s : State) : Host.Outcome State Fault Refusal :=
  issue (.jobend sw) []
    (fun k => match k.job with
      | none => .error (k.illegal 3)
      | some _ =>
        if orderWaits k.s k.th then .error (.held (holdAt k.s k.t))
        else .ok { st := k.s, flow := .done, after := fun s => endSlice s k.t k.th.team }) s

/-- The ring and strip SRATE names: none where the chain has no such strip. -/
def rateStrip (c : Chain) (lo : Bool) : Option (Nat × Nat) :=
  let v := c.video
  if lo then (if v.factor == 0 then none else c.lo.map (fun j => (v.loring, j)))
  else if c.k < 0 then none else some (v.ring, c.k.toNat)

/-- The word SRATE.rd gives. -/
def Ladder.word (l : Ladder) : Nat := l.rung + l.floor * 2 ^ 4 + l.base * 2 ^ 8 + sat l.done 65535 * 2 ^ 16

/-- SRATE on a strip: OP 0 or 1. -/
def rateBody (k : Ctx) (d : BitVec 6) (c : Chain) (r n op a : Nat) : Except Stop Eff :=
  match ladder? k.s r c.frame n with
  | none => .error (k.illegal 3)
  | some l =>
    if op == 0 then ret k d (wordN l.word)
    else
      let rung := Nat.min (Nat.max l.rung a) l.floor
      inState (modLadder k.s r c.frame n (fun l => { l with rung := rung })) (ret k d (wordN rung))

/-- SRATE.base: CTL.BASE for later frames. -/
def rateBase (k : Ctx) (d : BitVec 6) (c : Chain) (a : Nat) : Except Stop Eff :=
  let v := Nat.min a ((output k.s c.out).setFor c.arm c.frame).floor
  let s := modOutput k.s c.out (fun x =>
    { x with regs := kset x.regs 0x1C (x.reg 0x1C - fld (x.reg 0x1C) 1 3 * 2 + v * 2) })
  inState s (ret k d (wordN v))

/-- SRATE (R400). -/
def execSrate (sw : Bool) (d a : BitVec 6) (n : Bool) (o : BitVec 2) (x : Bool) (s : State) : Host.Outcome State Fault Refusal :=
  issue (.srate sw d a n o x) (if o.toNat == 0 then [] else [src a x])
    (fun k =>
      let op := o.toNat
      let v := (k.g a).toNat
      match k.chain with
      | none => .error (k.illegal 3)
      | some c =>
        if op == 3 || (op != 0 && decide (4 < v)) || (op == 2 && n) then .error (k.illegal 3)
        else if op == 2 then rateBase k d c v
        else match rateStrip c n with
          | none => .error (k.illegal 3)
          | some (r, i) => rateBody k d c r i op v) s

end Sys2Proof.Machine
end

