-- ==== Sys2Proof/Machine/Dispatch.lean ====
section
/-!
DEFINITION. The instruction dispatch: one arm per constructor, each one call of that instruction's meaning.
-/
namespace Sys2Proof.Machine

/-- What an instruction does: a thread word for the current thread, an access-slice word for the current feed context, a
unit's step for the unit it names. -/
def exec (i : Instr) (s : State) : Host.Outcome State Fault Refusal :=
  match i with
  | .nop sw => Sys2Proof.Machine.execNop sw s
  | .extControlForm p n e r t c l => Sys2Proof.Machine.execExtControlForm p n e r t c l s
  | .extImmediateForm im => Sys2Proof.Machine.execExtImmediateForm im s
  | .mov sw d a x => Sys2Proof.Machine.execMov sw d a x s
  | .movi sw d im => Sys2Proof.Machine.execMovi sw d im s
  | .movh sw d im => Sys2Proof.Machine.execMovh sw d im s
  | .movs sw d im => Sys2Proof.Machine.execMovs sw d im s
  | .iadd sw d a b x y m => Sys2Proof.Machine.execIadd sw d a b x y m s
  | .isub sw d a b x y m => Sys2Proof.Machine.execIsub sw d a b x y m s
  | .iaddc sw d a b x y m => Sys2Proof.Machine.execIaddc sw d a b x y m s
  | .imul sw d a b x y => Sys2Proof.Machine.execImul sw d a b x y s
  | .imulh sw d a b x y m => Sys2Proof.Machine.execImulh sw d a b x y m s
  | .imad sw d a b x y m => Sys2Proof.Machine.execImad sw d a b x y m s
  | .idiv sw d a b x y m => Sys2Proof.Machine.execIdiv sw d a b x y m s
  | .irem sw d a b x y m => Sys2Proof.Machine.execIrem sw d a b x y m s
  | .ineg sw d a x => Sys2Proof.Machine.execIneg sw d a x s
  | .iabs sw d a x => Sys2Proof.Machine.execIabs sw d a x s
  | .imin sw d a b x y m => Sys2Proof.Machine.execImin sw d a b x y m s
  | .imax sw d a b x y m => Sys2Proof.Machine.execImax sw d a b x y m s
  | .and sw d a b x y => Sys2Proof.Machine.execAnd sw d a b x y s
  | .or sw d a b x y => Sys2Proof.Machine.execOr sw d a b x y s
  | .xor sw d a b x y => Sys2Proof.Machine.execXor sw d a b x y s
  | .not sw d a x => Sys2Proof.Machine.execNot sw d a x s
  | .andn sw d a b x y => Sys2Proof.Machine.execAndn sw d a b x y s
  | .shl sw d a b x y => Sys2Proof.Machine.execShl sw d a b x y s
  | .shr sw d a b x y => Sys2Proof.Machine.execShr sw d a b x y s
  | .sar sw d a b x y => Sys2Proof.Machine.execSar sw d a b x y s
  | .rot sw d a b x y m => Sys2Proof.Machine.execRot sw d a b x y m s
  | .bfx sw d a b x y m => Sys2Proof.Machine.execBfx sw d a b x y m s
  | .bfi sw d a b x y => Sys2Proof.Machine.execBfi sw d a b x y s
  | .popc sw d a x => Sys2Proof.Machine.execPopc sw d a x s
  | .clz sw d a x => Sys2Proof.Machine.execClz sw d a x s
  | .brev sw d a x => Sys2Proof.Machine.execBrev sw d a x s
  | .isetp sw c p a b x y m => Sys2Proof.Machine.execIsetp sw c p a b x y m s
  | .sel sw d a b x y m => Sys2Proof.Machine.execSel sw d a b x y m s
  | .plop sw o p q r m => Sys2Proof.Machine.execPlop sw o p q r m s
  | .lea sw d a b x y m => Sys2Proof.Machine.execLea sw d a b x y m s
  | .add64 sw d a b x y m => Sys2Proof.Machine.execAdd64 sw d a b x y m s
  | .idp4 sw d a b x y m => Sys2Proof.Machine.execIdp4 sw d a b x y m s
  | .mix32 sw d a b x y => Sys2Proof.Machine.execMix32 sw d a b x y s
  | .iaddi sw d a im x m => Sys2Proof.Machine.execIaddi sw d a im x m s
  | .andi sw d a im x => Sys2Proof.Machine.execAndi sw d a im x s
  | .ori sw d a im x => Sys2Proof.Machine.execOri sw d a im x s
  | .xori sw d a im x => Sys2Proof.Machine.execXori sw d a im x s
  | .shli sw d a im x => Sys2Proof.Machine.execShli sw d a im x s
  | .shri sw d a im x => Sys2Proof.Machine.execShri sw d a im x s
  | .sari sw d a im x => Sys2Proof.Machine.execSari sw d a im x s
  | .isetpi sw c p a im x m => Sys2Proof.Machine.execIsetpi sw c p a im x m s
  | .fadd sw d a b x y => Sys2Proof.Machine.execFadd sw d a b x y s
  | .fsub sw d a b x y => Sys2Proof.Machine.execFsub sw d a b x y s
  | .fmul sw d a b x y => Sys2Proof.Machine.execFmul sw d a b x y s
  | .fmad sw d a b x y m => Sys2Proof.Machine.execFmad sw d a b x y m s
  | .fmin sw d a b x y => Sys2Proof.Machine.execFmin sw d a b x y s
  | .fmax sw d a b x y => Sys2Proof.Machine.execFmax sw d a b x y s
  | .fneg sw d a x => Sys2Proof.Machine.execFneg sw d a x s
  | .fabs sw d a x => Sys2Proof.Machine.execFabs sw d a x s
  | .fsetp sw c p a b x y m => Sys2Proof.Machine.execFsetp sw c p a b x y m s
  | .fdiv sw d a b x y => Sys2Proof.Machine.execFdiv sw d a b x y s
  | .frcp sw d a x => Sys2Proof.Machine.execFrcp sw d a x s
  | .fsqrt sw d a x => Sys2Proof.Machine.execFsqrt sw d a x s
  | .frsq sw d a x => Sys2Proof.Machine.execFrsq sw d a x s
  | .fexp2 sw d a x => Sys2Proof.Machine.execFexp2 sw d a x s
  | .flog2 sw d a x => Sys2Proof.Machine.execFlog2 sw d a x s
  | .fsinpi sw d a x => Sys2Proof.Machine.execFsinpi sw d a x s
  | .fcospi sw d a x => Sys2Proof.Machine.execFcospi sw d a x s
  | .frnd sw d a x m => Sys2Proof.Machine.execFrnd sw d a x m s
  | .fclass sw d a x => Sys2Proof.Machine.execFclass sw d a x s
  | .fscale sw d a b x y => Sys2Proof.Machine.execFscale sw d a b x y s
  | .fexpo sw d a x => Sys2Proof.Machine.execFexpo sw d a x s
  | .twosum sw d a b x y => Sys2Proof.Machine.execTwosum sw d a b x y s
  | .padd sw d a b x y => Sys2Proof.Machine.execPadd sw d a b x y s
  | .prd sw d a x => Sys2Proof.Machine.execPrd sw d a x s
  | .hadd2 sw d a b x y m => Sys2Proof.Machine.execHadd2 sw d a b x y m s
  | .hmul2 sw d a b x y m => Sys2Proof.Machine.execHmul2 sw d a b x y m s
  | .hfma2 sw d a b x y m => Sys2Proof.Machine.execHfma2 sw d a b x y m s
  | .cvtfi sw d a b x y m => Sys2Proof.Machine.execCvtfi sw d a b x y m s
  | .cvtif sw d a b x y m => Sys2Proof.Machine.execCvtif sw d a b x y m s
  | .cvtff sw d a b x y => Sys2Proof.Machine.execCvtff sw d a b x y s
  | .nxel sw d a b x y => Sys2Proof.Machine.execNxel sw d a b x y s
  | .mxel sw d a b x y => Sys2Proof.Machine.execMxel sw d a b x y s
  | .fmtchk sw d a x => Sys2Proof.Machine.execFmtchk sw d a x s
  | .bra sw o => Sys2Proof.Machine.execBra sw o s
  | .brp sw p n o => Sys2Proof.Machine.execBrp sw p n o s
  | .brx sw a x => Sys2Proof.Machine.execBrx sw a x s
  | .call sw o => Sys2Proof.Machine.execCall sw o s
  | .callx sw a x => Sys2Proof.Machine.execCallx sw a x s
  | .ret sw => Sys2Proof.Machine.execRet sw s
  | .lgjoin sw a im x => Sys2Proof.Machine.execLgjoin sw a im x s
  | .lgwait sw a x => Sys2Proof.Machine.execLgwait sw a x s
  | .lgdrop sw a x => Sys2Proof.Machine.execLgdrop sw a x s
  | .lgread sw d a im x => Sys2Proof.Machine.execLgread sw d a im x s
  | .meetset sw o => Sys2Proof.Machine.execMeetset sw o s
  | .regroup sw a b x y => Sys2Proof.Machine.execRegroup sw a b x y s
  | .regroupCompletion team => Sys2Proof.Machine.execRegroupCompletion team s
  | .yield sw => Sys2Proof.Machine.execYield sw s
  | .pause sw im => Sys2Proof.Machine.execPause sw im s
  | .pauseExpiry th => Sys2Proof.Machine.execPauseExpiry th s
  | .exit sw => Sys2Proof.Machine.execExit sw s
  | .launch sw d a x => Sys2Proof.Machine.execLaunch sw d a x s
  | .rxch sw d a b x y m => Sys2Proof.Machine.execRxch sw d a b x y m s
  | .rbcast sw d a b x y m => Sys2Proof.Machine.execRbcast sw d a b x y m s
  | .rred sw d a b x y m => Sys2Proof.Machine.execRred sw d a b x y m s
  | .rvote sw d a b x y m => Sys2Proof.Machine.execRvote sw d a b x y m s
  | .clauseIssue th => Sys2Proof.Machine.execClauseIssue th s
  | .parkEnd th => Sys2Proof.Machine.execParkEnd th s
  | .resultWritten th seq peer way => Sys2Proof.Machine.execResultWritten th seq peer way s
  | .asynchronousTrapDelivery th => Sys2Proof.Machine.execAsynchronousTrapDelivery th s
  | .ldg sw t a z g e x => Sys2Proof.Machine.execLdg sw t a z g e x s
  | .stg sw t a z g x => Sys2Proof.Machine.execStg sw t a z g x s
  | .lds sw t a z g e x => Sys2Proof.Machine.execLds sw t a z g e x s
  | .sts sw t a z g x => Sys2Proof.Machine.execSts sw t a z g x s
  | .ldp sw t a z g e x => Sys2Proof.Machine.execLdp sw t a z g e x s
  | .stp sw t a z g x => Sys2Proof.Machine.execStp sw t a z g x s
  | .ldc sw t a z g e x => Sys2Proof.Machine.execLdc sw t a z g e x s
  | .stc sw t a z g x => Sys2Proof.Machine.execStc sw t a z g x s
  | .ldw sw t a z e x => Sys2Proof.Machine.execLdw sw t a z e x s
  | .pref sw a z x => Sys2Proof.Machine.execPref sw a z x s
  | .pin sw t a z x => Sys2Proof.Machine.execPin sw t a z x s
  | .unpin sw t a z x => Sys2Proof.Machine.execUnpin sw t a z x s
  | .storePerformed th seq way => Sys2Proof.Machine.execStorePerformed th seq way s
  | .ptsSelfAdvance th => Sys2Proof.Machine.execPtsSelfAdvance th s
  | .leaseExpiry place line => Sys2Proof.Machine.execLeaseExpiry place line s
  | .pageWalkComplete station walk => Sys2Proof.Machine.execPageWalkComplete station walk s
  | .atom sw d a b x y m => Sys2Proof.Machine.execAtom sw d a b x y m s
  | .atomc sw d a b x y m => Sys2Proof.Machine.execAtomc sw d a b x y m s
  | .atomf sw d a b x y m => Sys2Proof.Machine.execAtomf sw d a b x y m s
  | .xacc sw a b x y => Sys2Proof.Machine.execXacc sw a b x y s
  | .xaccp sw a b x y => Sys2Proof.Machine.execXaccp sw a b x y s
  | .xrd sw d a x m => Sys2Proof.Machine.execXrd sw d a x m s
  | .xclr sw a x => Sys2Proof.Machine.execXclr sw a x s
  | .atomicPerformed th seq => Sys2Proof.Machine.execAtomicPerformed th seq s
  | .fence sw => Sys2Proof.Machine.execFence sw s
  | .fencew sw => Sys2Proof.Machine.execFencew sw s
  | .bar sw im r => Sys2Proof.Machine.execBar sw im r s
  | .bara sw d im r => Sys2Proof.Machine.execBara sw d im r s
  | .barw sw a im x => Sys2Proof.Machine.execBarw sw a im x s
  | .arm sw d a b x y m => Sys2Proof.Machine.execArm sw d a b x y m s
  | .arrv sw a b x y => Sys2Proof.Machine.execArrv sw a b x y s
  | .arwait sw d a b x y => Sys2Proof.Machine.execArwait sw d a b x y s
  | .arread sw d a x => Sys2Proof.Machine.execArread sw d a x s
  | .qpush sw d a b x y => Sys2Proof.Machine.execQpush sw d a b x y s
  | .qpop sw d a x => Sys2Proof.Machine.execQpop sw d a x s
  | .qtry sw d a x => Sys2Proof.Machine.execQtry sw d a x s
  | .qlen sw d a x => Sys2Proof.Machine.execQlen sw d a x s
  | .dist sw d a x m => Sys2Proof.Machine.execDist sw d a x m s
  | .distributorAnswerStore th seq => Sys2Proof.Machine.execDistributorAnswerStore th seq s
  | .sbset sw d a im x => Sys2Proof.Machine.execSbset sw d a im x s
  | .sbqry sw d a x => Sys2Proof.Machine.execSbqry sw d a x s
  | .cpy sw a x => Sys2Proof.Machine.execCpy sw a x s
  | .cpy2d sw a x => Sys2Proof.Machine.execCpy2d sw a x s
  | .cpym sw a x => Sys2Proof.Machine.execCpym sw a x s
  | .cpyr sw a x => Sys2Proof.Machine.execCpyr sw a x s
  | .cpyq sw d a x => Sys2Proof.Machine.execCpyq sw d a x s
  | .cpyx sw d a x => Sys2Proof.Machine.execCpyx sw d a x s
  | .cpyf sw a x => Sys2Proof.Machine.execCpyf sw a x s
  | .rlqry sw d a x => Sys2Proof.Machine.execRlqry sw d a x s
  | .copyRegistration cmd => Sys2Proof.Machine.execCopyRegistration cmd s
  | .rangeLockEntryTaken cmd core => Sys2Proof.Machine.execRangeLockEntryTaken cmd core s
  | .copyCommandStart cmd => Sys2Proof.Machine.execCopyCommandStart cmd s
  | .copyBurst burst => Sys2Proof.Machine.execCopyBurst burst s
  | .copyCommandEnd cmd => Sys2Proof.Machine.execCopyCommandEnd cmd s
  | .fdstart sw d a x => Sys2Proof.Machine.execFdstart sw d a x s
  | .fdstop sw d c => Sys2Proof.Machine.execFdstop sw d c s
  | .fdstat sw d a x => Sys2Proof.Machine.execFdstat sw d a x s
  | .floop src p c => Sys2Proof.Machine.execFloop src p c s
  | .fend => Sys2Proof.Machine.execFend s
  | .faddr src l k w => Sys2Proof.Machine.execFaddr src l k w s
  | .fpush src q z e n => Sys2Proof.Machine.execFpush src q z e n s
  | .fpushk src k r => Sys2Proof.Machine.execFpushk src k r s
  | .fpermitQueue q n => Sys2Proof.Machine.execFpermitQueue q n s
  | .fpermitBuffer b => Sys2Proof.Machine.execFpermitBuffer b s
  | .fsync r b => Sys2Proof.Machine.execFsync r b s
  | .fstop => Sys2Proof.Machine.execFstop s
  | .kld sw t a x => Sys2Proof.Machine.execKld sw t a x s
  | .kst sw t a x => Sys2Proof.Machine.execKst sw t a x s
  | .kzero sw d n m => Sys2Proof.Machine.execKzero sw d n m s
  | .kcvt sw d a b y m => Sys2Proof.Machine.execKcvt sw d a b y m s
  | .kbmp sw d a b y m => Sys2Proof.Machine.execKbmp sw d a b y m s
  | .kbld sw t a x => Sys2Proof.Machine.execKbld sw t a x s
  | .kbst sw t a x => Sys2Proof.Machine.execKbst sw t a x s
  | .mmae sw a x m => Sys2Proof.Machine.execMmae sw a x m s
  | .mmac sw d a b x y m => Sys2Proof.Machine.execMmac sw d a b x y m s
  | .matrixOpCompletion core op => Sys2Proof.Machine.execMatrixOpCompletion core op s
  | .mtxOperationComplete core op => Sys2Proof.Machine.execMtxOperationComplete core op s
  | .bankSpill core set => Sys2Proof.Machine.execBankSpill core set s
  | .accz sw k => Sys2Proof.Machine.execAccz sw k s
  | .accrd sw d a b x y m => Sys2Proof.Machine.execAccrd sw d a b x y m s
  | .accspl sw a k x => Sys2Proof.Machine.execAccspl sw a k x s
  | .accfil sw a k x => Sys2Proof.Machine.execAccfil sw a k x s
  | .mqry sw d a x => Sys2Proof.Machine.execMqry sw d a x s
  | .pbin sw d a b x y => Sys2Proof.Machine.execPbin sw d a b x y s
  | .pbend sw => Sys2Proof.Machine.execPbend sw s
  | .primitiveBinning pass => Sys2Proof.Machine.execPrimitiveBinning pass s
  | .hsrTileResolution pass strip tile => Sys2Proof.Machine.execHsrTileResolution pass strip tile s
  | .hsrnext sw d a b x y => Sys2Proof.Machine.execHsrnext sw d a b x y s
  | .ipa sw d a b x y m => Sys2Proof.Machine.execIpa sw d a b x y m s
  | .fragw sw a b x y => Sys2Proof.Machine.execFragw sw a b x y s
  | .splat sw d a b x y => Sys2Proof.Machine.execSplat sw d a b x y s
  | .splatend sw => Sys2Proof.Machine.execSplatend sw s
  | .stiprun sw d a b x y => Sys2Proof.Machine.execStiprun sw d a b x y s
  | .stiprd sw d a x => Sys2Proof.Machine.execStiprd sw d a x s
  | .raynew sw d a x => Sys2Proof.Machine.execRaynew sw d a x s
  | .rayset sw d a b x y => Sys2Proof.Machine.execRayset sw d a b x y s
  | .raygo sw a x => Sys2Proof.Machine.execRaygo sw a x s
  | .rayTraversalStep ray => Sys2Proof.Machine.execRayTraversalStep ray s
  | .callbackStart ray => Sys2Proof.Machine.execCallbackStart ray s
  | .raywait sw d a x => Sys2Proof.Machine.execRaywait sw d a x s
  | .rayget sw d a b x y => Sys2Proof.Machine.execRayget sw d a b x y s
  | .rayfree sw a x => Sys2Proof.Machine.execRayfree sw a x s
  | .verdict sw a b x y => Sys2Proof.Machine.execVerdict sw a b x y s
  | .raycb sw d a x => Sys2Proof.Machine.execRaycb sw d a x s
  | .tnow sw d => Sys2Proof.Machine.execTnow sw d s
  | .twait sw a x => Sys2Proof.Machine.execTwait sw a x s
  | .timeWaitExpiry th => Sys2Proof.Machine.execTimeWaitExpiry th s
  | .tdead sw d b y => Sys2Proof.Machine.execTdead sw d b y s
  | .tbudg sw d => Sys2Proof.Machine.execTbudg sw d s
  | .scommit sw d a b x y m => Sys2Proof.Machine.execScommit sw d a b x y m s
  | .shalo sw d a b x y => Sys2Proof.Machine.execShalo sw d a b x y s
  | .jobend sw => Sys2Proof.Machine.execJobend sw s
  | .srate sw d a n o x => Sys2Proof.Machine.execSrate sw d a n o x s
  | .trap sw d im => Sys2Proof.Machine.execTrap sw d im s
  | .rte sw => Sys2Proof.Machine.execRte sw s
  | .srd sw d im => Sys2Proof.Machine.execSrd sw d im s
  | .swr sw d im => Sys2Proof.Machine.execSwr sw d im s
  | .dtload sw d a x m => Sys2Proof.Machine.execDtload sw d a x m s
  | .sealq sw d a x => Sys2Proof.Machine.execSealq sw d a x s
  | .halt sw => Sys2Proof.Machine.execHalt sw s
  | .errinj sw a b x y => Sys2Proof.Machine.execErrinj sw a b x y s
  | .tlbinv sw d a b x y => Sys2Proof.Machine.execTlbinv sw d a b x y s
  | .xbpark sw d a b x y => Sys2Proof.Machine.execXbpark sw d a b x y s
  | .xbwake sw d a x => Sys2Proof.Machine.execXbwake sw d a x s
  | .xbstat sw d a x => Sys2Proof.Machine.execXbstat sw d a x s
  | .lkstat sw d a x => Sys2Proof.Machine.execLkstat sw d a x s
  | .teamPlacement cluster => Sys2Proof.Machine.execTeamPlacement cluster s
  | .teamRetirement team => Sys2Proof.Machine.execTeamRetirement team s
  | .evictionRequest cluster teams => Sys2Proof.Machine.execEvictionRequest cluster teams s
  | .eviction th => Sys2Proof.Machine.execEviction th s
  | .restore th core => Sys2Proof.Machine.execRestore th core s
  | .memoryTokenGrant core group => Sys2Proof.Machine.execMemoryTokenGrant core group s
  | .memoryTokenPass core group => Sys2Proof.Machine.execMemoryTokenPass core group s
  | .localityWindowEnd core => Sys2Proof.Machine.execLocalityWindowEnd core s
  | .stripAdmission out => Sys2Proof.Machine.execStripAdmission out s
  | .chainForcedEnd chain => Sys2Proof.Machine.execChainForcedEnd chain s
  | .budgetExpiry slice => Sys2Proof.Machine.execBudgetExpiry slice s
  | .deadlineMiss slice => Sys2Proof.Machine.execDeadlineMiss slice s
  | .stripScan out => Sys2Proof.Machine.execStripScan out s
  | .slotRelease ring slot => Sys2Proof.Machine.execSlotRelease ring slot s
  | .ductusIdleExit => Sys2Proof.Machine.execDuctusIdleExit s
  | .ductusWake out => Sys2Proof.Machine.execDuctusWake out s
  | .encodeTileRow pipe => Sys2Proof.Machine.execEncodeTileRow pipe s
  | .temporalUnitWrite pipe => Sys2Proof.Machine.execTemporalUnitWrite pipe s
  | .headLinkLoss head => Sys2Proof.Machine.execHeadLinkLoss head s
  | .linkRetrain head => Sys2Proof.Machine.execLinkRetrain head s
  | .outputArm out rateOk linkOk => Sys2Proof.Machine.execOutputArm out rateOk linkOk s
  | .outputDisarm out => Sys2Proof.Machine.execOutputDisarm out s
  | .ringEnable ring w => Sys2Proof.Machine.execRingEnable ring w s
  | .ringDisable ring w => Sys2Proof.Machine.execRingDisable ring w s
  | .ppsEdge offset => Sys2Proof.Machine.execPpsEdge offset s
  | .ptpin t1 t2 t3 t4 => Sys2Proof.Machine.execPtpin t1 t2 t3 t4 s
  | .tlockHoldover => Sys2Proof.Machine.execTlockHoldover s
  | .qosFrameBoundary => Sys2Proof.Machine.execQosFrameBoundary s
  | .refreshWindowStart bank => Sys2Proof.Machine.execRefreshWindowStart bank s
  | .refreshWindowEnd bank => Sys2Proof.Machine.execRefreshWindowEnd bank s
  | .opticalToken ch => Sys2Proof.Machine.execOpticalToken ch s
  | .automaticWake ch => Sys2Proof.Machine.execAutomaticWake ch s
  | .retuneEnd ch => Sys2Proof.Machine.execRetuneEnd ch s
  | .remoteRequestArrival req => Sys2Proof.Machine.execRemoteRequestArrival req s
  | .acknowledgement package slice seq => Sys2Proof.Machine.execAcknowledgement package slice seq s
  | .retransmissionTimeout package slice seq => Sys2Proof.Machine.execRetransmissionTimeout package slice seq s
  | .busyResend package slice seq => Sys2Proof.Machine.execBusyResend package slice seq s
  | .wavelengthRetrain fibre mask => Sys2Proof.Machine.execWavelengthRetrain fibre mask s
  | .watchdogW1 grid => Sys2Proof.Machine.execWatchdogW1 grid s
  | .watchdogW2 grid => Sys2Proof.Machine.execWatchdogW2 grid s
  | .watchdogW3 core => Sys2Proof.Machine.execWatchdogW3 core s
  | .coreReturn core => Sys2Proof.Machine.execCoreReturn core s
  | .uncorrectableError unit => Sys2Proof.Machine.execUncorrectableError unit s
  | .correctableError unit => Sys2Proof.Machine.execCorrectableError unit s
  | .sealFree sealId => Sys2Proof.Machine.execSealFree sealId s
  | .commandWrite bytes => Sys2Proof.Machine.execCommandWrite bytes s
  | .upload => Sys2Proof.Machine.execUpload s
  | .trigger => Sys2Proof.Machine.execTrigger s
  | .resync => Sys2Proof.Machine.execResync s
  | .sealnew => Sys2Proof.Machine.execSealnew s
  | .sealend => Sys2Proof.Machine.execSealend s
  | .abort => Sys2Proof.Machine.execAbort s
  | .timesetStep => Sys2Proof.Machine.execTimesetStep s
  | .timesetConfig => Sys2Proof.Machine.execTimesetConfig s
  | .fwload ok => Sys2Proof.Machine.execFwload ok s
  | .attest => Sys2Proof.Machine.execAttest s
  | .reset => Sys2Proof.Machine.execReset s
  | .firmwareVerification found => Sys2Proof.Machine.execFirmwareVerification found s
  | .ucieTraining ok => Sys2Proof.Machine.execUcieTraining ok s
  | .lpddrTraining failed => Sys2Proof.Machine.execLpddrTraining failed s
  | .damlanRingTuning ok => Sys2Proof.Machine.execDamlanRingTuning ok s
  | .tsuxusTraining masks => Sys2Proof.Machine.execTsuxusTraining masks s
  | .ptpLock => Sys2Proof.Machine.execPtpLock s
  | .powerWindow avg => Sys2Proof.Machine.execPowerWindow avg s
  | .standbyRequest w => Sys2Proof.Machine.execStandbyRequest w s
  | .standbyEntry => Sys2Proof.Machine.execStandbyEntry s
  | .standbyClear w => Sys2Proof.Machine.execStandbyClear w s
  | .powerLimitWrite w => Sys2Proof.Machine.execPowerLimitWrite w s
  | .tpcWrite hi w => Sys2Proof.Machine.execTpcWrite hi w s
  | .meetWrite hi w => Sys2Proof.Machine.execMeetWrite hi w s
  | .tstatWrite w => Sys2Proof.Machine.execTstatWrite w s
  | .fmtWrite w => Sys2Proof.Machine.execFmtWrite w s
  | .memgroupsWrite core w => Sys2Proof.Machine.execMemgroupsWrite core w s
  | .leasecfgWrite core w => Sys2Proof.Machine.execLeasecfgWrite core w s
  | .qcfgWrite cluster queue w => Sys2Proof.Machine.execQcfgWrite cluster queue w s
  | .wdogWrite queue w => Sys2Proof.Machine.execWdogWrite queue w s
  | .dbgctl w => Sys2Proof.Machine.execDbgctl w s
  | .tlbctl number w => Sys2Proof.Machine.execTlbctl number w s
  | .tlbInvalidationComplete => Sys2Proof.Machine.execTlbInvalidationComplete s
  | .faultack w => Sys2Proof.Machine.execFaultack w s
  | .domcfgWrite w => Sys2Proof.Machine.execDomcfgWrite w s
  | .bar2StagingWrite off bytes => Sys2Proof.Machine.execBar2StagingWrite off bytes s
  | .registerWrite number w => Sys2Proof.Machine.execRegisterWrite number w s
  | .hostCxlMemAccess pa len data => Sys2Proof.Machine.execHostCxlMemAccess pa len data s
  | .timeSliceExpiry core th => Sys2Proof.Machine.execTimeSliceExpiry core th s
  | .ppsLoss => Sys2Proof.Machine.execPpsLoss s
  | .tsuxusForwarding dest hops => Sys2Proof.Machine.execTsuxusForwarding dest hops s
  | .remoteReplyArrival package slice seq data => Sys2Proof.Machine.execRemoteReplyArrival package slice seq data s
  | .headRegisterRead which => Sys2Proof.Machine.execHeadRegisterRead which s

end Sys2Proof.Machine
end

