-- ==== Sys2Proof/Machine/Schedule.lean ====
section
/-!
DEFINITION. Who acts: a thread's next word under its decode table, a feed context's next word, the passing of time with
what falls due in it, and the model's own choice where nothing is on the agenda.
-/
namespace Sys2Proof.Machine

/-! ### A thread's next word (R23, R44 to R50) -/

/-- A word with another opcode: the internal operation its decode entry names (R44). -/
def withOpcode (w iop : Nat) : Nat := w / 2 ^ 31 % 2 * 2 ^ 31 + iop % 2 ^ 10 * 2 ^ 21 + w % 2 ^ 21

/-- A word the predicate turns off (R42). -/
def skipWord (s : State) (t : Nat) (th : Thread) (w : Nat) : State :=
  setThread s t (({ th with wait := .ready } : Thread).advance.afterWord (flag w 31))

/-- NOP and EXT words are fixed in hardware (R44): one that no row takes meets its fate. -/
def fixedWord (s : State) (t : Nat) (th : Thread) (k : Ctx) (w : Nat) : Host.Outcome State Fault Refusal :=
  match decodeWord w with
  | .ok i => exec i s
  | .error .extForm => .next (stopped s t (k.extFault (wordN w)))
  | .error e =>
    .next (if k.imm.isSome then stopped s t (k.extFault (wordN (k.imm.getD 0)))
      else if !k.predOn then skipWord s t th w else stopped s t (k.illegal e.reason))

/-- What steps 6 to 9 of R48 find in the decode entry of a word. -/
def entryStop (k : Ctx) (e : Nat) : Option Stop :=
  let iop := entryIop e
  if entryUnmapped e then some (k.illegal 1)
  else match k.classFault (entryClass e) (!entryEmu e && isBranch iop) with
  | some r => some (k.clauseForm r)
  | none =>
    if (entryPriv e || (!entryEmu e && isPriv iop)) && !k.th.system then some (privTrap k.iw)
    else if entryEmu e then some (k.illegal 5)
    else none

/-- The word at a thread's index: the predicate, the decode entry, and its internal operation (R48). -/
def issueWord (s : State) (t : Nat) (th : Thread) : Host.Outcome State Fault Refusal :=
  let w := th.rawWord.toNat
  let k := ctxOf s t th
  let opc := opcOf w
  if opc == 0 || opc == 0x3FF then fixedWord s t th k w
  else if !k.predOn then .next (skipWord s t th w)
  else match entryStop k (k.entry opc) with
  | some st => .next (stopped s t st)
  | none =>
    match decodeWord (withOpcode w (entryIop (k.entry opc))) with
    | .ok i => exec i s
    | .error e => .next (stopped s t (k.illegal e.reason))

/-- A word that has issued counts for the threads that yielded to it; one held for a resource has not issued. -/
def issued (t : Nat) (s : State) : State :=
  match thread? s t with
  | some th => if th.wait == .hold || th.wait == .walk then s else noteIssue s t
  | none => noteIssue s t

/-- The thread stands between clauses, or must fetch the rest of its clause. -/
def atHeader (th : Thread) : Bool :=
  match th.clause with
  | none => true
  | some c => th.word == 0 || c.lacks th.word

/-- The next clause or word of a thread. -/
def issueNext (t : Nat) (th : Thread) (s : State) : Host.Outcome State Fault Refusal :=
  if atHeader th then execClauseIssue t s
  else match issueWord (modThread s t (fun th => { th with yields := [], waited := 0 })) t th with
    | .next s' => .next (issued t s')
    | r => r

/-! ### The order of job slices (R384) -/

/-- A thread's place in the order of job slices, part by part: slices with a deadline, those without one, and contexts that
are no slice; grids' slices count as output 8. -/
def sliceKey (s : State) (th : Thread) : List Int :=
  match ((team? s th.team).bind (·.slice)).bind (kget? s.jobs) with
  | none => [2]
  | some j =>
    let rest : List Int := [(j.out : Int), (j.frame : Int), j.strip, (j.idx : Int)]
    match j.deadline with
    | some d => 0 :: (d : Int) :: rest
    | none => 1 :: rest

/-- The first of two keys comes before the second. -/
def earlier : List Int → List Int → Bool
  | a :: as, b :: bs => decide (a < b) || (a == b && earlier as bs)
  | _, _ => false

/-- A thread that is picked now issues: it goes on, and is not held. -/
def wouldIssue (s : State) (t : Nat) (th : Thread) : Bool :=
  mayStep s th && th.due.isNone && (match issueNext t th { s with cur := some t, curFeed := none } with
    | .next s' => (match thread? s' t with
      | some th' => th' != th && th'.wait != .hold && th'.wait != .walk
      | none => true)
    | _ => true)

/-- A thread of an earlier slice on the same quadrant would issue, and R80 does not require this one to (R384). -/
def outranked (s : State) (t : Nat) (th : Thread) : Bool :=
  !s.jobs.isEmpty && !th.overdue
    && s.threads.any (fun p => p.1 != t && coreOf s p.2 == coreOf s th && p.2.quadrant == th.quadrant
      && earlier (sliceKey s p.2) (sliceKey s th) && wouldIssue s p.1 p.2)

/-! ### Holds at issue (R79, R314) -/

/-- A thread's hold at issue has ended: its next word or clause would not be held now. -/
def holdEnded (s : State) (t : Nat) (th : Thread) : Bool :=
  th.wait == .hold && (match issueNext t { th with active := true } { setThread s t { th with active := true } with cur := some t, curFeed := none } with
    | .next s' => (match thread? s' t with
      | some th' => th'.wait != .hold
      | none => true)
    | _ => true)

/-- Holds at issue that have ended no longer show: the threads are ready (R79). -/
def endHolds (s : State) : State :=
  { s with threads := s.threads.map (fun p => if holdEnded s p.1 p.2 then (p.1, { p.2 with wait := .ready }) else p) }

/-- What holds a thread is judged again: holds at issue, the rendezvous of MMAC words that wait for a counter, and commits that
wait for their buffers (R74, R79, R314, R397). -/
def settleHolds (s : State) : State := endHolds ((settleCommits s).threads.foldl (fun s p => rejudge s p.1) (settleCommits s))

/-- A thread's step: a trap due to it, an asynchronous trap, the next clause, or the next word. -/
def stepThread (t : Nat) (s : State) : Host.Outcome State Fault Refusal :=
  let s := settleHolds { s with cur := some t, curFeed := none }
  match thread? s t with
  | none => .next s
  | some th =>
    if th.suspended && !th.evicted && th.clause.isNone && th.due.isNone && th.atIssue && atMeet s th then .next (reachMeet s t th)
    else if th.suspended || th.evicted || !th.active then .next s
    else match th.due with
    | some h => .next (trapDue s t h)
    | none =>
      if !mayStep s th then .next s
      else if asyncReady th then execAsynchronousTrapDelivery t s
      else if outranked s t th then .next s
      else issueNext t th s

/-! ### A feed context's next word (R283 to R285) -/

/-- A feed context's step. DESIGN CHOICE (log 187): the words of a loop body that a count of 0 skips are fetched and judged. -/
def stepFeed (c x : Nat) (s : State) : Host.Outcome State Fault Refusal :=
  let s := { s with curFeed := some (c, x) }
  match feedFetch s c x with
  | (none, s) => .next s
  | (some w, s) =>
    match decodeAccess w, kget? s.feeds (feedKey c x) with
    | some i, _ => exec i s
    | none, some f => .next (badWord s (feedKey c x) f)
    | none, none => .next s

/-! ### Time -/

/-- A step of the device. -/
abbrev Act := State → Host.Outcome State Fault Refusal

/-- A step with the time that is left until it is due; 0 where it is due. -/
abbrev Due := Nat × Act

/-- The scan of an output's next strip (R379). -/
def dueScan (s : State) (o : Nat) (x : Output) : List Due :=
  match x.scans with
  | [] => []
  | c :: _ => [(c.video.timeT c.next.1 c.next.2 - s.tnow, execStripScan o)]

/-- The admission of an output's next chain, and before it Ductus's wake and its leaving IDLE (R18, R382). -/
def dueChain (s : State) (o : Nat) (x : Output) : List Due :=
  match x.video with
  | none => []
  | some v =>
    let start := (chainStart v x.nextChain.1 x.nextChain.2).toNat
    if !x.armed then []
    else [(start - idleLead - s.tnow, execDuctusIdleExit), (start - s.tnow, execStripAdmission o), (start - wakeLead - s.tnow, execDuctusWake o)]

/-- Slots being scanned. -/
def dueSlots (s : State) : List Due :=
  s.reservoir.flatMap (fun r => r.2.slots.filterMap (fun q =>
    if q.2.state == 3 then some (q.2.until_ - s.tnow, execSlotRelease r.1 q.1) else none))

/-- Waits for a time (R394). -/
def dueWaits (s : State) : List Due :=
  s.threads.filterMap (fun p => match p.2.wait with
    | .time v => some (v - s.tnow, execTimeWaitExpiry p.1)
    | _ => none)

/-- Retunes of channels (R447). -/
def dueRetunes (s : State) : List Due :=
  s.dev.channels.filterMap (fun p =>
    if p.2.state == 2 && !p.2.tuned then some (p.2.since + 2577 - s.dev.mono, execRetuneEnd p.1) else none)

/-- Units until the next boundary of a quality-of-service frame: a whole second, or a whole number of 256 FCLK cycles
after one (R443). -/
def frameLeft (now : Nat) : Nat :=
  Nat.min (2 ^ 30) (ceilDiv (((frameOf now).2 + 1) * (256 * 2 ^ 30)) 1650000000) - now % 2 ^ 30

/-- A channel waits for a frame boundary, or may once its retune ends (R446, R447). -/
def awaitsFrame (s : State) : Bool := s.dev.channels.any (fun p => p.2.state == 3 || p.2.state == 2)

/-- The frame boundary, where a channel waits for it. -/
def dueFrames (s : State) : List Due :=
  if awaitsFrame s then [(if frameOf s.tnow == s.dev.frameAt then frameLeft s.tnow else 0, execQosFrameBoundary)] else []

/-- Automatic wakes of channels whose wavelengths are parked or to be parked (R447). -/
def dueWakes (s : State) : List Due :=
  s.dev.channels.filterMap (fun p => if p.2.state == 1 || p.2.state == 3 then some (0, execAutomaticWake p.1) else none)

/-- Frames begun between two values of the time counter (R443). -/
def framesBetween (a b : Nat) : Nat :=
  let n (x : Nat) : Nat := 6445313 * (frameOf x).1 + (frameOf x).2
  n b - n a

/-- Frame boundaries that no channel waits for pass with the time. -/
def passFrames (s : State) (now : Nat) (d : Device) : Device :=
  if awaitsFrame s then d else { d with qframe := d.qframe + framesBetween s.tnow now, frameAt := frameOf now }

/-- What falls due in units of the time counter; at one instant forced ends come first, then scans, releases and
admissions. -/
def dueUnits (s : State) : List Due :=
  s.chains.map (fun p => (p.2.t - s.tnow, execChainForcedEnd p.1))
    ++ s.outputs.flatMap (fun p => dueScan s p.1 p.2)
    ++ dueSlots s
    ++ s.outputs.flatMap (fun p => dueChain s p.1 p.2)
    ++ s.jobs.filterMap (fun p => if p.2.deadlineTold then none else p.2.deadline.map (fun d => (d - s.tnow, execDeadlineMiss p.1)))
    ++ s.dev.refresh.map (fun b => (b2n (inWindow s.tnow b), execRefreshWindowEnd b))
    ++ dueWaits s ++ dueRetunes s ++ dueWakes s ++ dueFrames s
    ++ (if s.dev.tlock.state == 1 || s.dev.tlock.state == 2 then [(s.dev.tlock.lastStamp + 3 * 2 ^ 30 - s.dev.mono, execTlockHoldover)] else [])
    ++ (if s.dev.tlock.pps then [(s.dev.tlock.lastPps + 3 * 2 ^ 29 - s.dev.mono, execPpsLoss)] else [])

/-- A thread's residence counts for its slice's budget (R385). -/
def countsForJob (th : Thread) : Bool := th.active && !th.suspended && !th.evicted

/-- The slice's budget is running. -/
def jobRuns (s : State) (j : Job) : Bool := s.threads.any (fun p => p.2.team == j.team && countsForJob p.2)

/-- The watchdog counts a grid's cycles (R426). -/
def gridRuns (s : State) (gid : Nat) (g : Grid) : Bool :=
  !g.hidden && flag (wdog s g.lr.queue) 31 && s.threads.any (fun p =>
    !p.2.suspended && !p.2.evicted && (wakeOf p.2).isNone
      && (((team? s p.2.team).map (fun tm => tm.grid == gid && tm.slice.isNone)).getD false))

/-- Issue of a thread is duty-cycled under R20, and the time does not count for R80. -/
def dutyCycled (s : State) (th : Thread) : Bool :=
  decide ((if ((team? s th.team).bind (·.chain)).isSome then 12 else 11) ≤ s.dev.power.level)

/-- A thread held by throttling alone at a MEM-class header: it counts as ready (R82). -/
def throttled (th : Thread) : Bool :=
  th.wait == .hold && th.word == 0 && (match th.clause with
    | some c => c.cls == 2 && waitsMet th c.header
    | none => false)

/-- A thread after `a` cycles: those in which it is ready and does not issue count (R74, R80). -/
def waitTime (s : State) (a : Nat) (th : Thread) : Thread :=
  if !(th.ready || throttled th) then { th with waited := 0 }
  else if dutyCycled s th then th
  else { th with waited := th.waited + a }

/-- A ready thread that has waited as long as R80 allows enters the active set, and issues. -/
def issueDue (t : Nat) (s : State) : Host.Outcome State Fault Refusal :=
  match thread? s t with
  | none => .next s
  | some th => if th.active then stepThread t s else execTimeSliceExpiry (coreOf s th) t s

/-- Steps of cores and threads that fall due in ACLK cycles. -/
def dueThreads (s : State) : List Due :=
  s.threads.flatMap (fun p =>
    (if p.2.evicted then [] else [(p.2.selfAt + 64 - s.aclk, execPtsSelfAdvance p.1)])
      ++ (if p.2.ready && !dutyCycled s p.2 && s.dev.power.state == 0 then [(16384 - p.2.waited, issueDue p.1)] else [])
      ++ (match p.2.wait with | .pause u => [(u - s.aclk, execPauseExpiry p.1)] | _ => []))

/-- Locality windows and tokens of the cores in use (R82). -/
def dueCores (s : State) : List Due :=
  s.cores.flatMap (fun p =>
    (p.2.windowAt + 4096 - s.aclk, execLocalityWindowEnd p.1)
      :: (if p.2.waiting.isEmpty then [] else p.2.tokens.map (fun t => (t.2 + 1024 - s.aclk, execMemoryTokenPass p.1 t.1))))

/-- The watchdog's steps (R426). -/
def dueWatchdog (s : State) : List Due :=
  s.grids.flatMap (fun p =>
      if gridRuns s p.1 p.2 && p.2.wdStep == 0 then [(wdogCycles s p.2.lr.queue 0 - p.2.wdCount, execWatchdogW1 p.1)]
      else if p.2.wdStep == 1 then [(wdogCycles s p.2.lr.queue 1 - p.2.wdSince, execWatchdogW2 p.1)] else [])
    ++ s.seals.flatMap (fun p => match p.2.wdAt with
      | some t => (s.teams.filter (fun q => q.2.sealId == p.1 && !q.2.evicted)).map (fun q =>
          (t + wdogCycles s p.2.wdQueue 2 - s.aclk, execWatchdogW3 q.2.core))
      | none => [])

/-- What falls due in ACLK cycles. -/
def dueCycles (s : State) : List Due :=
  s.jobs.filterMap (fun p => if p.2.budget != 0 && !p.2.budgetTold && jobRuns s p.2 then
      some (p.2.budget - p.2.count, execBudgetExpiry p.1) else none)
    ++ s.lines.copies.map (fun c => (c.expiry - s.aclk, execLeaseExpiry c.place c.line))
    ++ dueThreads s ++ dueCores s ++ dueWatchdog s

/-- A step takes the machine to another state. -/
def changes (s : State) (f : Act) : Bool :=
  match f s with
  | .next s' => s' != s
  | _ => false

/-- The first step that is due now. -/
def dueNow (s : State) : Option Act :=
  ((dueUnits s ++ dueCycles s).find? (fun d => d.1 == 0 && changes s d.2)).map (·.2)

/-- The least time that is left and not 0, at most `n`. -/
def nextDue (n : Nat) (ds : List Due) : Nat := ds.foldl (fun m d => if d.1 == 0 then m else Nat.min m d.1) n

/-- Every resident thread of a grid is suspended by a claim: the time does not count towards its queue's watchdog
intervals (R22, R74). -/
def gridSuspended (s : State) (gid : Nat) : Bool :=
  let ths := s.threads.filter (fun p => !p.2.evicted && ((team? s p.2.team).map (·.grid)) == some gid)
  !ths.isEmpty && ths.all (fun p => p.2.suspended)

/-- A grid's watchdog counts after `a` cycles. -/
def gridTime (s : State) (a gid : Nat) (g : Grid) : Grid :=
  { g with wdCount := if gridRuns s gid g then g.wdCount + a else g.wdCount
           wdSince := if 1 ≤ g.wdStep && !gridSuspended s gid then g.wdSince + a else g.wdSince }

/-- Time passes. -/
def pass (s : State) (u a : Nat) : State :=
  { s with
    tnow := (s.tnow + u) % 2 ^ 64
    aclk := s.aclk + a
    dev := passFrames s ((s.tnow + u) % 2 ^ 64) { s.dev with mono := s.dev.mono + u }
    threads := s.threads.map (fun p => (p.1, waitTime s a p.2))
    jobs := s.jobs.map (fun p => (p.1, if jobRuns s p.2 then { p.2 with count := p.2.count + a } else p.2))
    grids := s.grids.map (fun p => (p.1, gridTime s a p.1 p.2)) }

/-- The part of `u` units and `a` cycles up to the next step that falls due in them. -/
def cut (s : State) (u a : Nat) : Nat × Nat :=
  let na := nextDue a (dueCycles s)
  let u1 := if na < a then u * na / a else u
  let nu := nextDue u (dueUnits s)
  if nu < u1 then (nu, a * nu / u) else (u1, na)

/-- `u` units and `a` cycles pass: what is due is done first, and time stops at each next step that falls due. -/
def stepTick (u a : Nat) (rest : List Pick) (s : State) : Host.Outcome State Fault Refusal :=
  let s := settleHolds s
  match dueNow s with
  | some f => f { s with agenda := .tick u a :: rest }
  | none =>
    let (u', a') := cut s u a
    let s := { pass s u' a' with cur := none, curFeed := none }
    .next { s with agenda := if u' == u && a' == a then rest else .tick (u - u') (a - a') :: rest }

/-! ### The model's own choice -/

/-- Bring-up's next step, with every outcome that comes from outside a success (R469). -/
def bringUp (s : State) : Option Act :=
  if s.dev.power.state != 4 then none
  else if romTraining s || (s.dev.stage == 2 && s.dev.fail == 2) then some (execUcieTraining true)
  else if s.dev.fail != 0 then none
  else match s.dev.stage with
  | 1 => some (execFirmwareVerification (some []))
  | 2 => some (execUcieTraining true)
  | 3 => some (execLpddrTraining none)
  | 4 => some (execDamlanRingTuning true)
  | 5 => some (execTsuxusTraining [])
  | _ => if s.dev.stageAt + 10 * 2 ^ 30 ≤ s.dev.mono then some execPtpLock else some (stepTick (10 * 2 ^ 30) 0 [])

/-- The step that carries out the next command. -/
def commandStep (s : State) : List Act :=
  match nextCommand s with
  | none => []
  | some (_, c) => match cmdOp c with
    | 1 => [execUpload]
    | 2 => [execTrigger]
    | 3 => [execResync]
    | 4 => [execSealnew]
    | 5 => [execSealend]
    | 6 => [execAbort]
    | 7 => [execTimesetStep, execTimesetConfig]
    | 8 => [execFwload true]
    | _ => [execAttest]

/-- Steps an outstanding operation of a thread may take. -/
def flightSteps (t : Nat) (f : Flight) : List Act :=
  [execStorePerformed t f.seq .whole, execAtomicPerformed t f.seq, execDistributorAnswerStore t f.seq, execResultWritten t f.seq none .whole]

/-- Steps of memory and of the threads' waits. -/
def memorySteps (s : State) : List Act :=
  s.stations.flatMap (fun p => p.2.walks.map (fun w => execPageWalkComplete p.1 w.id))
    ++ s.threads.flatMap (fun p => p.2.flights.flatMap (flightSteps p.1))
    ++ s.threads.map (fun p => execParkEnd p.1)
    ++ s.teams.map (fun p => execRegroupCompletion p.1)
    ++ [execTlbInvalidationComplete]

/-- The first tile of a strip that still has fragments to hand out or follows, and is not resolved. -/
def nextUnresolved (p : Pass) (strip : Nat) : Option Nat :=
  let t := (kgetD p.next strip (0, 0)).1
  (range t (p.r.tps - t)).find? (fun t => (kget? p.tiles (p.r.key strip t)).isNone)

/-- Steps of a copy command: its entries in every core's table, its start, the bursts of its window, and its end. -/
def copySteps (s : State) (cmd : Nat) (c : CopyCmd) : List Act :=
  execCopyRegistration cmd :: (missingEntries s c).filterMap (fun e => (entryCore s c e).map (fun k => execRangeLockEntryTaken cmd k))
    ++ execCopyCommandStart cmd :: (List.range 8).map (fun k => execCopyBurst ⟨cmd, k⟩) ++ [execCopyCommandEnd cmd]

/-- Steps of the copy engine, the matrix units, the ray units, and the raster and stipple units. -/
def unitSteps (s : State) : List Act :=
  s.copies.flatMap (fun p => copySteps s p.1 p.2)
    ++ s.mtx.flatMap (fun p => match team? s p.2.team with
      | some tm => [execMtxOperationComplete tm.core p.1, execMatrixOpCompletion tm.core p.1, execBankSpill tm.core 0, execBankSpill tm.core 1]
      | none => [])
    ++ s.rays.flatMap (fun p => [execRayTraversalStep p.1, execCallbackStart p.1])
    ++ s.passes.flatMap (fun p => execPrimitiveBinning p.1
      :: p.2.waits.filterMap (fun w => (nextUnresolved p.2 w.1).map (execHsrTileResolution p.1 w.1)))
    ++ s.pipes.flatMap (fun p => [execEncodeTileRow (p.1 % 4), execTemporalUnitWrite (p.1 % 4)])

/-- The restores of an evicted thread: no team comes back before a waiting grid of higher priority, and no thread of a team
that is asked to leave before its wake condition holds. -/
def restoreSteps (s : State) (t : Nat) (th : Thread) : List Act :=
  match team? s th.team with
  | none => []
  | some tm =>
    if !tm.evicted then (if tm.evictReq && (wakeOf th).isSome then [] else [execRestore t tm.core])
    else if ((teamPrio s tm).map (fun p => decide (p + 1 < pressure s tm.cluster))).getD false then []
    else (range (160 * tm.cluster) 160).map (fun c => execRestore t c)

/-- Steps that place, retire, evict and restore, and those of seals, cores and power. -/
def placeSteps (s : State) : List Act :=
  s.teams.map (fun p => execTeamRetirement p.1)
    ++ (s.threads.filter (fun p => ((team? s p.2.team).map (·.evictReq)).getD false)).map (fun p => execEviction p.1)
    ++ [execTeamPlacement 0, execTeamPlacement 1]
    ++ (if s.dev.power.state == 0 then [0, 1].map (fun k s => execEvictionRequest k (preempted s k) s) else [])
    ++ (s.threads.filter (·.2.evicted)).flatMap (fun p => restoreSteps s p.1 p.2)
    ++ (s.seals.filter (fun p => p.2.state == 2)).map (fun p => execSealFree p.1)
    ++ (s.cores.filter (fun p => p.2.fenced)).map (fun p => execCoreReturn p.1)
    ++ [execStandbyEntry]

/-- The first step of the device that changes something: in RECOVERY the boot ROM alone acts, and in STANDBY no unit (R17). -/
def deviceStep (s : State) : Option Act :=
  (commandStep s
    ++ (if s.dev.power.state == 3 then [] else memorySteps s ++ (if s.dev.power.state == 2 then [] else unitSteps s) ++ placeSteps s)).find?
    (changes s)

/-- A context's step takes the machine to another state than picking it alone does. -/
def moves (s : State) (f : Act) : Bool :=
  match f s with
  | .next s' => { s' with cur := s.cur, curFeed := s.curFeed } != s
  | _ => true

/-- Contexts in the order they take turns: feed contexts, then the threads after the one that stepped last. -/
def contexts (s : State) : List Act :=
  if s.dev.power.state != 0 then [] else (s.feeds.filter (fun p => p.2.running)).map (fun p => stepFeed (p.1 / 8) (p.1 % 8))
    ++ (s.threads.filter (fun p => decide (s.cur.getD 0 < p.1))).map (fun p => stepThread p.1)

/-- The active sets turn: one of the ready threads of the slow files enters its quadrant's (R71, R80). -/
def rotateSets (s : State) : State :=
  let ts := s.threads.filter (fun p => !p.2.active && !p.2.evicted && !p.2.suspended && p.2.wait == .ready)
  match ts[s.aclk / 3 % ts.length]? with
  | none => s
  | some p => (match execTimeSliceExpiry (coreOf s p.2) p.1 s with | .next s' => s' | _ => s)

/-- The step taken where the agenda is empty: bring-up, the device, each context in turn, and after the last one a unit of
time. -/
def defaultStep (s : State) : Host.Outcome State Fault Refusal :=
  match bringUp s with
  | some f => f s
  | none => match deviceStep s with
    | some f => f s
    | none => match (contexts s).find? (moves s) with
      | some f => f s
      | none => stepTick 1 3 [] (rotateSets s)

/-! ### One pick -/

/-- The row is a word of a thread or of a feed context, which acts only where its context steps. -/
def isWord (i : Instr) : Bool := !(encode i).isEmpty

/-- A step of a unit, an encode pipe, or the service of another package's request: none takes place in STANDBY or in RECOVERY
(R17, DEDUCED, log 181). -/
def unitStep : Instr → Bool
  | .copyRegistration .. | .copyCommandStart .. | .copyBurst .. | .copyCommandEnd .. | .rangeLockEntryTaken .. | .mtxOperationComplete ..
  | .matrixOpCompletion .. | .bankSpill .. | .rayTraversalStep .. | .callbackStart .. | .primitiveBinning .. | .hsrTileResolution ..
  | .encodeTileRow .. | .temporalUnitWrite .. | .remoteRequestArrival .. => true
  | _ => false

/-- A step of cores, threads or memory, or of Ductus's admission and placement: none takes place in RECOVERY, where the boot ROM
and UCIe alone run (R17, DEDUCED, log 181). -/
def coreStep : Instr → Bool
  | .clauseIssue .. | .parkEnd .. | .pauseExpiry .. | .resultWritten .. | .asynchronousTrapDelivery .. | .storePerformed ..
  | .atomicPerformed .. | .pageWalkComplete .. | .distributorAnswerStore .. | .timeWaitExpiry .. | .timeSliceExpiry ..
  | .regroupCompletion .. | .ptsSelfAdvance .. | .teamPlacement .. | .evictionRequest .. | .eviction .. | .restore ..
  | .memoryTokenGrant .. | .memoryTokenPass .. | .stripAdmission .. | .ductusIdleExit | .ductusWake .. => true
  | _ => false

/-- The power state lets a step take place (R17): every one but in STANDBY and RECOVERY. -/
def powerLets (s : State) (i : Instr) : Bool :=
  match s.dev.power.state with
  | 2 => !unitStep i
  | 3 => !unitStep i && !coreStep i
  | _ => true

/-- Contexts step in STANDBY and RECOVERY no more than units do. -/
def contextsRun (s : State) : Bool := s.dev.power.state != 2 && s.dev.power.state != 3

/-- Do a pick, with what follows it on the agenda. -/
def runPick (p : Pick) (rest : List Pick) (s : State) : Host.Outcome State Fault Refusal :=
  match p with
  | .thread t => if contextsRun s then stepThread t { s with agenda := rest } else .next { s with agenda := rest }
  | .feed c x => if contextsRun s then stepFeed c x { s with agenda := rest } else .next { s with agenda := rest }
  | .event i =>
    if isWord i || !powerLets s i then .next { s with agenda := rest } else exec i { s with agenda := rest }
  | .tick u a => stepTick u a rest s

/-! ### Errors (R420, R422) -/

/-- Of the errors detected and not handled, the one of the lowest structure code. -/
def firstDue : List (ErrUnit × Bool × Bool) → Option (ErrUnit × Bool × Bool)
  | [] => none
  | d :: ds => match firstDue ds with
    | none => some d
    | some e => if e.1.struct < d.1.struct then some e else some d

/-- The step a detected error takes. -/
def errorStep (d : ErrUnit × Bool × Bool) : Act := if d.2.1 then execUncorrectableError d.1 else execCorrectableError d.1

/-! ### A word put where the next step fetches it -/

/-- A team for a word that is put in place: one thread of seal 0 on core 0. -/
def probeTeam : Team :=
  { grid := 0, index := 0, x := 0, y := 0, z := 0, core := 0, cluster := 0, sealId := 0, groups := 1, nthreads := 1, spord := 8
    base := 0, tiles := 8, quad := false, privKb := 1, handle := some 0, roles := [0], buffers := [], arrivals := [] }

/-- The clause a word is put in: itself alone, or, for an EXT word, before a NOP. -/
def probeClause (w : Nat) : Clause :=
  { header := 0, cls := classOf (opcOf w), n := if opcOf w == 0x3FF then 2 else 1, words := if opcOf w == 0x3FF then [w, 0] else [w]
    resumed := false }

/-- A thread at a word put in place. -/
def probeThread (team w : Nat) : Thread :=
  { team := team, tid := 0, gid := 0, mid := 0, role := 0, sealId := 0, budget := 64, pc := 0, word := 1, clause := some (probeClause w) }

/-- A feed context at a word put in place. -/
def probeFeed (team : Nat) : Feed :=
  { id := 0, team := team, gid := 0, sealId := 0, prog := 0x8000, bases := [0, 0, 0, 0], prms := [0, 0, 0, 0, 0, 0, 0, 0], pts := 0 }

/-- Seal 0's page tables for a feed context's fetch: one page of 1 GiB at physical address 0, and the word at 0x8000. -/
def probeMemory (m : Memory) (w : Nat) : Memory :=
  Memory.writeBytes (Memory.writeBytes (Memory.writeBytes m 0 (leBytes 8 0x4001)) 0x4000 (leBytes 8 (2 ^ 49 + 0x2F))) 0x8000 (leBytes 4 w)

/-- The word is an access-slice word: map 3 leaves its opcode unassigned, and R52 lists it. -/
def isAccessWord (w : Nat) : Bool :=
  match decodeWord w with
  | .error .unassigned => (decodeAccess w).isSome
  | _ => false

end Sys2Proof.Machine
end

