-- ==== Sys2Proof/Machine/Step.lean ====
section
/-!
DEFINITION. One step of the machine, and a word put where the next step fetches it.
-/
namespace Sys2Proof.Machine

/-- One step: time is rebased (R198), or a detected error takes effect, or a seal ends that read poison, or the next pick is
done. -/
def step (s : State) : Host.Outcome State Fault Refusal :=
  if rebaseDue s then .next (rebase s)
  else match firstDue s.errors.due with
  | some d => errorStep d s
  | none =>
    match s.errors.poisonEnds with
    | x :: xs => .next (sealEndOnly (modErrors s (fun e => { e with poisonEnds := xs })) x causeSealedErr 1)
    | [] =>
      match s.agenda with
      | p :: ps => runPick p ps s
      | [] => defaultStep s

/-- A word stands at the index of a new thread of seal 0 (an access-slice word: at the start of a new feed context's
program), and that context steps next. -/
def State.withFetchWord (s : State) (_nbits w : Nat) : State :=
  let n := s.nextId
  let s := { s with nextId := n + 2, teams := kset s.teams (n + 1) probeTeam }
  if isAccessWord w then
    { s with feeds := kset s.feeds 0 (probeFeed (n + 1)), mem := probeMemory s.mem w, seals := kset s.seals 0 {}
             agenda := [.feed 0 0] }
  else { s with threads := kset s.threads n (probeThread (n + 1) w), agenda := [.thread n] }

end Sys2Proof.Machine
end

