-- ==== Sys2Proof/Safety.lean ====
section
/-!
DEFINITION. The words the statements are written in: canonical memories, a word at issue that meets every check of R48,
and what completing a word leaves.
-/
namespace Sys2Proof.Machine

/-! ### Runs and memories -/

/-- The machine has a next step: it neither faults nor refuses. -/
def Goes (s : State) : Prop := ∃ s', step s = .next s'

/-- LPDDR, the weight store and scheduler memory are in canonical form: addresses rise, and no byte is listed that reads
as an unlisted one. -/
def Canonical (s : State) : Prop := s.mem.wf = true ∧ s.weight.wf = true ∧ s.sched.wf = true

/-- A result leaves canonical memories. -/
def KeepsCanonical (r : Host.Outcome State Fault Refusal) : Prop := ∀ s', r = .next s' → Canonical s'

/-- An address outside the backing places of private-window lines: the first lines of every window, which a touch places
in a private slice, and the lines the slices hold, which it may drop (R189). -/
def offBacking (s : State) (a : Nat) : Prop :=
  ∀ u th b line, thread? s u = some th → th.backing = some b →
    (line < 8 ∨ ∃ c lane, (u, line) ∈ kgetD (core s c).lanes lane []) → a < b + 128 * line ∨ b + 128 * line + 128 ≤ a

/-! ### A word at issue (R48) -/

/-- What the entry of a word at issue reads: the state and the thread, which is ready. -/
def entryCtx (s : State) (t : Nat) (th : Thread) : Ctx :=
  ctxOf (modThread s t (fun th => { th with wait := .ready })) t th

/-- Steps 4 to 11 of R48 find nothing wrong for thread `t` and the word `i` with the register sources `srcs`: no stray EXT
immediate, the predicate is 1, the clause has the word's class and a branch stands last, the mode may run it, the operands
and EXT fields are legal, and no source is pending. -/
def passes (i : Instr) (srcs : List Src) (s : State) (t : Nat) (th : Thread) : Bool :=
  let k := entryCtx s t th
  let opc := opcOf' i
  s.cur == some t && thread? s t == some th
    && !(opc == 0 && k.imm.isSome)
    && k.predOn
    && (opc == 0 || k.classFault (classOf opc) (isBranch opc) == none)
    && (!(isPriv opc || entryPriv (k.entry (fld k.iw.toNat 21 10))) || k.th.system)
    && !reservedOperand i && operandsOk i && k.cReg % cWidth i == 0
    && k.rnd != 7 && !k.ctlMisuse opc && !k.immMisuse opc
    && !(k.imm.isSome && isFormatC opc && fld k.imm20 17 3 != 0)
    && k.pendingSrc (k.allSrcs i opc srcs) == none

/-- Steps 4 to 7 of R48 find nothing wrong, and the thread runs in user mode. -/
def passesInUserMode (i : Instr) (s : State) (t : Nat) (th : Thread) : Bool :=
  let k := entryCtx s t th
  let opc := opcOf' i
  s.cur == some t && thread? s t == some th && k.predOn && k.classFault (classOf opc) (isBranch opc) == none && !k.th.system

/-- Registers the word's last-read bits free, and further ones (R43, R151). -/
def freed (i : Instr) (srcs : List Src) (k : Ctx) (more : List Nat) : List Nat :=
  freesOf (k.allSrcs i (opcOf' i) srcs) ++ more

/-- The results fit the thread's register budget (R72). -/
def fits (k : Ctx) (frees dests : List Nat) : Bool :=
  dests.isEmpty || decide (footprintAfter k.th frees dests ≤ k.th.budget)

/-- The thread after a word that writes `ws` at once: the freed registers are unmapped, the results written in order, and
the next word stands at issue; with the switch marker it parks while a register is pending. -/
def wrote (i : Instr) (k : Ctx) (frees : List Nat) (ws : List (Nat × Word)) : Thread :=
  (((k.th.unmap frees).setRegs ws).advance).afterWord (switchMarker i)

/-- The word runs wherever its checks pass and its results fit: it writes the results the context gives and changes nothing
but its thread. -/
def Writes (i : Instr) (srcs : List Src) (ws : Ctx → List (Nat × Word)) : Prop :=
  ∀ s t th, passes i srcs s t th = true →
    fits (entryCtx s t th) (freed i srcs (entryCtx s t th) []) ((ws (entryCtx s t th)).map (·.1)) = true →
    exec i s = .next (setThread s t (wrote i (entryCtx s t th) (freed i srcs (entryCtx s t th) []) (ws (entryCtx s t th))))

/-- The word runs wherever its checks pass, `pre` holds of the context, its destinations fit and its event counter is
not full, and leaves what the effect says. -/
def Runs (i : Instr) (srcs : List Src) (pre : Ctx → Prop) (eff : Ctx → Eff) : Prop :=
  ∀ s t th, passes i srcs s t th = true → pre (entryCtx s t th) →
    fits (entryCtx s t th) (freed i srcs (entryCtx s t th) (eff (entryCtx s t th)).moreFrees) (eff (entryCtx s t th)).dests = true →
    counterFull (entryCtx s t th) (eff (entryCtx s t th)) = false →
    exec i s = .next (complete (entryCtx s t th) (switchMarker i)
      (freed i srcs (entryCtx s t th) (eff (entryCtx s t th)).moreFrees) (eff (entryCtx s t th)))

/-- The word traps wherever its checks pass and `pre` holds of the context: the thread takes the exception. -/
def Traps (i : Instr) (srcs : List Src) (pre : Ctx → Prop) (cause : Nat) (infos : Ctx → Word × Word × Word × Word) : Prop :=
  ∀ s t th, passes i srcs s t th = true → pre (entryCtx s t th) →
    exec i s = .next (trapSync (modThread s t (fun th => { th with wait := .ready })) t cause
      (infos (entryCtx s t th)).1 (infos (entryCtx s t th)).2.1 (infos (entryCtx s t th)).2.2.1 (infos (entryCtx s t th)).2.2.2)

/-- The word is held wherever its checks pass and `pre` holds of the context: it does not complete, and leaves a state. -/
def Holds (i : Instr) (srcs : List Src) (pre : Ctx → Prop) (st : Ctx → State) : Prop :=
  ∀ s t th, passes i srcs s t th = true → pre (entryCtx s t th) → exec i s = .next (st (entryCtx s t th))

/-- The trap information of ILLEGAL_OP at a word (R49). -/
def illegalInfos (reason : Nat) (k : Ctx) : Word × Word × Word × Word :=
  (wordN (k.entry (fld k.iw.toNat 21 10) * 2 ^ 16 + reason), k.iw, wordN (k.ctl.getD 0), wordN (k.imm.getD 0))

/-- A result known at issue that its unit writes later to `d` and the registers after it, on an event counter. -/
def answerOn (ec : Nat) (d : BitVec 6) (vs : List Word) : Option Launch :=
  some { ec := ec, dests := range d.toNat vs.length, op := .result vs, got := some vs }

/-- The registers a float operation writes and the conditions it gathers. -/
def floatEff (k : Ctx) (ws : List (Nat × Word)) (c : Cond) : Eff :=
  { st := setThread k.s k.t { k.th with fmt := gather k.th.fmt c }, writes := ws }

/-- A float word: while %fmt.NANTRAP is 1 and the result is a NaN it traps FP_NAN with the element, the word and the bits
reported for its operands; else it writes its registers and gathers its conditions. -/
def FloatGives (i : Instr) (srcs : List Src) (ws : Ctx → List (Nat × Word)) (nan : Ctx → Option (Nat × Word × Word))
    (c : Ctx → Cond) : Prop :=
  Runs i srcs (fun k => fmtNanTrap k.th.fmt = false ∨ nan k = none) (fun k => floatEff k (ws k) (c k))
    ∧ ∀ e a b, Traps i srcs (fun k => fmtNanTrap k.th.fmt = true ∧ nan k = some (e, a, b)) causeFpNan
        (fun k => (wordN e, k.iw, a, b))

/-- A float word with one FP32 result. -/
def Float32 (i : Instr) (srcs : List Src) (d : BitVec 6) (r : Ctx → FRes) (a b : Ctx → Word) : Prop :=
  FloatGives i srcs (fun k => [(d.toNat, wordN (r k).1)])
    (fun k => if (rd32 (r k).1).isNan then some (0, a k, b k) else none) (fun k => (r k).2)

end Sys2Proof.Machine
end

