-- ==== Sys2Proof/Certificates/Slice0/Obligations.lean ====
section
/-!
DEFINITION. The statements for the provers.
-/
open Sys2Proof Sys2Proof.Machine

/-! ### Integer words -/

/-- R38, R112: NOP writes nothing; MOV, MOVI and MOVH write what R112 says, with an EXT immediate and without one.
R111, R113: MOVS of a listed source gives its value; %pts is read after every earlier access of the thread and latches
its high word for the next MOVS; a feed port gives its oldest entry, and holds the thread where it is empty; a number
that is not listed is ILLEGAL_OP, reason 3. -/
def Obligations.MovesGiveTheirOperands : Prop :=
  ((∀ sw, Writes (.nop sw) [] (fun _ => []))
  ∧ (∀ sw d a x, Writes (.mov sw d a x) [⟨a.toNat, 1, x⟩] (fun k => [(d.toNat, k.th.reg a.toNat)]))
  ∧ (∀ sw d i, Writes (.movi sw d i) [] (fun k =>
      [(d.toNat, match k.imm with
        | none => word i.toInt
        | some w => wordN (w % 2 ^ 17 * 2 ^ 15 + i.toNat))]))
  ∧ (∀ sw d i, Writes (.movh sw d i) [] (fun k =>
      [(d.toNat, 0), (d.toNat + 1, match k.imm with
        | none => wordN (i.toNat * 2 ^ 17)
        | some w => wordN (w % 2 ^ 17 * 2 ^ 15 + i.toNat))])))
  ∧ (let num := fun (k : Ctx) (i : BitVec 15) => match k.imm with
    | none => i.toNat
    | some w => w % 2 ^ 17 * 2 ^ 15 + i.toNat
  (∀ sw d i v, Runs (.movs sw d i) []
      (fun k => movsSource k.s k.th (num k i) = some v) (fun k =>
      { st := setThread k.s k.t (if 0x018 ≤ num k i ∧ num k i ≤ 0x01D then
          (k.th.latch none none).acquireBelow (num k i - 0x018)
          else k.th.latch none none), writes := [(d.toNat, v)] }))
  ∧ (∀ sw d i th, Runs (.movs sw d i) []
      (fun k => num k i = 0x013 ∧ orderWaits k.s k.th = false ∧ thread? (flush k.s k.t) k.t = some th) (fun k =>
      { st := setThread (flush k.s k.t) k.t (th.latch (some (th.pts / 2 ^ 32)) none)
        writes := [(d.toNat, wordN (th.pts % 2 ^ 32))] }))
  ∧ (∀ sw d i th, Runs (.movs sw d i) []
      (fun k => num k i = 0x014 ∧ orderWaits k.s k.th = false ∧ thread? (flush k.s k.t) k.t = some th) (fun k =>
      { st := setThread (flush k.s k.t) k.t (th.latch none none)
        writes := [(d.toNat, wordN (th.ptsHi.getD (th.pts / 2 ^ 32) % 2 ^ 32))] }))
  ∧ (∀ sw d i q tm v vs, Runs (.movs sw d i) []
      (fun k => num k i = 0x040 + q ∧ q < 8 ∧ team? k.s k.th.team = some tm ∧ tm.port k.th.gid q = v :: vs) (fun k =>
      { st := modTeam (setThread k.s k.t (k.th.latch none none)) k.th.team
          (fun tm => { tm with ports := kset tm.ports (gkey k.th.gid q) vs }), writes := [(d.toNat, v)] }))
  ∧ (∀ sw d i q tm, Runs (.movs sw d i) []
      (fun k => num k i = 0x040 + q ∧ q < 8 ∧ team? k.s k.th.team = some tm ∧ tm.port k.th.gid q = []) (fun k =>
      { st := modTeam (setThread k.s k.t (k.th.latch none none)) k.th.team (fun tm => { tm with
          portWait := kset tm.portWait (gkey k.th.gid q) (kgetD tm.portWait (gkey k.th.gid q) [] ++ [k.t]) })
        later := [d.toNat], flow := .wait (.port q d.toNat) }))
  ∧ (∀ sw d i, Traps (.movs sw d i) [] (fun k => num k i ∈ [0x015, 0x017, 0x01E, 0x027, 0x029, 0x048] ∨ 0x049 ≤ num k i) 0x01
      (illegalInfos 3))
  ∧ (∀ s th, movsSource s th 0x000 = some (wordN th.tid) ∧ movsSource s th 0x001 = some (wordN th.gid)
      ∧ movsSource s th 0x002 = some (wordN th.mid) ∧ movsSource s th 0x003 = some (wordN th.lane)
      ∧ movsSource s th 0x004 = some (wordN th.quadrant) ∧ movsSource s th 0x00E = some (wordN th.role)
      ∧ movsSource s th 0x00F = some (wordN th.sealId) ∧ movsSource s th 0x012 = some (wordN (th.preds % 256))
      ∧ (∀ e < 6, movsSource s th (0x018 + e) = some (wordN (th.counter e)))
      ∧ movsSource s th 0x020 = some (wordN th.trap.cause) ∧ movsSource s th 0x023 = some th.trap.info0
      ∧ movsSource s th 0x024 = some th.trap.info1 ∧ movsSource s th 0x025 = some th.trap.info2
      ∧ movsSource s th 0x026 = some th.trap.info3 ∧ movsSource s th 0x028 = some th.fmt
      ∧ movsSource s th 0x030 = some (refSched s.tnow))
  ∧ (∀ s th tm g, team? s th.team = some tm → grid? s tm.grid = some g →
      movsSource s th 0x005 = some (wordN tm.core) ∧ movsSource s th 0x006 = some (wordN (stationOf tm.core))
      ∧ movsSource s th 0x007 = some (wordN tm.cluster) ∧ movsSource s th 0x008 = some (wordN tm.x)
      ∧ movsSource s th 0x009 = some (wordN tm.y) ∧ movsSource s th 0x00A = some (wordN tm.z)
      ∧ movsSource s th 0x00B = some (wordN g.lr.gx) ∧ movsSource s th 0x00C = some (wordN g.lr.gy)
      ∧ movsSource s th 0x00D = some (wordN g.lr.gz) ∧ movsSource s th 0x010 = some (wordN (g.lr.args % 2 ^ 32))
      ∧ movsSource s th 0x011 = some (wordN (g.lr.args / 2 ^ 32))))

/-- R114: IADD, ISUB and IADDI, saturated under SAT to the range m names. -/
def Obligations.SumsAndDifferences : Prop :=
  (∀ sw d a b x y m, Writes (.iadd sw d a b x y m) [⟨a.toNat, 1, x⟩, ⟨b.toNat, 1, y⟩] (fun k =>
      [(d.toNat, word (saturate k.sat m (typed m (k.th.reg a.toNat) + typed m (k.th.reg b.toNat))))]))
  ∧ (∀ sw d a b x y m, Writes (.isub sw d a b x y m) [⟨a.toNat, 1, x⟩, ⟨b.toNat, 1, y⟩] (fun k =>
      [(d.toNat, word (saturate k.sat m (typed m (k.th.reg a.toNat) - typed m (k.th.reg b.toNat))))]))
  ∧ (∀ sw d a i x m, Writes (.iaddi sw d a i x m) [⟨a.toNat, 1, x⟩] (fun k =>
      [(d.toNat, word (saturate k.sat m (typed m (k.th.reg a.toNat) + k.immB i)))]))

/-- R115: IADDC takes its carry from bit 0 of g[d+1] and leaves the carry out there; SAT replaces the sum. -/
def Obligations.CarryChains : Prop :=
  ∀ sw d a b x y m, Writes (.iaddc sw d a b x y m) [⟨a.toNat, 1, x⟩, ⟨b.toNat, 1, y⟩, ⟨d.toNat + 1, 1, false⟩] (fun k =>
    let cin := (k.th.reg (d.toNat + 1)).toNat % 2
    let ga := (k.th.reg a.toNat).toNat
    let gb := (k.th.reg b.toNat).toNat
    if m then
      if ga < gb + cin then [(d.toNat, if k.sat then 0 else word ((ga : Int) - gb - cin)), (d.toNat + 1, 1)]
      else [(d.toNat, wordN (ga - gb - cin)), (d.toNat + 1, 0)]
    else
      if 2 ^ 32 ≤ ga + gb + cin then [(d.toNat, if k.sat then 0xFFFFFFFF#32 else wordN (ga + gb + cin)), (d.toNat + 1, 1)]
      else [(d.toNat, wordN (ga + gb + cin)), (d.toNat + 1, 0)])

/-- R116: the products. R117: the quotient rounds towards zero and the remainder takes the dividend's sign; a zero
divisor gives the stated corner results and never traps. -/
def Obligations.ProductsAndQuotients : Prop :=
  ((∀ sw d a b x y, Writes (.imul sw d a b x y) [⟨a.toNat, 1, x⟩, ⟨b.toNat, 1, y⟩] (fun k =>
      [(d.toNat, wordN ((k.th.reg a.toNat).toNat * (k.th.reg b.toNat).toNat))]))
  ∧ (∀ sw d a b x y m, Writes (.imulh sw d a b x y m) [⟨a.toNat, 1, x⟩, ⟨b.toNat, 1, y⟩] (fun k =>
      [(d.toNat, word (typed m (k.th.reg a.toNat) * typed m (k.th.reg b.toNat) / 2 ^ 32))]))
  ∧ (∀ sw d a b x y m, Writes (.imad sw d a b x y m) [⟨a.toNat, 1, x⟩, ⟨b.toNat, 1, y⟩] (fun k =>
      [(d.toNat, word (saturate k.sat m
        (typed m (k.th.reg a.toNat) * typed m (k.th.reg b.toNat) + typed m (k.th.reg k.cReg))))])))
  ∧ ((∀ sw d a b x y m, Writes (.idiv sw d a b x y m) [⟨a.toNat, 1, x⟩, ⟨b.toNat, 1, y⟩] (fun k =>
      let u := typed m (k.th.reg a.toNat)
      let v := typed m (k.th.reg b.toNat)
      [(d.toNat, if v = 0 then (if m then 0xFFFFFFFF#32 else if 0 ≤ u then 0x7FFFFFFF#32 else 0x80000000#32)
        else if !m ∧ u = -2 ^ 31 ∧ v = -1 then 0x80000000#32 else word (u.tdiv v))]))
  ∧ (∀ sw d a b x y m, Writes (.irem sw d a b x y m) [⟨a.toNat, 1, x⟩, ⟨b.toNat, 1, y⟩] (fun k =>
      let u := typed m (k.th.reg a.toNat)
      let v := typed m (k.th.reg b.toNat)
      [(d.toNat, if v = 0 then k.th.reg a.toNat else if !m ∧ u = -2 ^ 31 ∧ v = -1 then 0 else word (u - u.tdiv v * v))])))

/-- R118, R119: sign, minimum, maximum and logic. R120: shifts and rotations by any count; an immediate shift with
IMM20 other than 0 is no legal operand. -/
def Obligations.LogicAndShifts : Prop :=
  ((∀ sw d a x, Writes (.ineg sw d a x) [⟨a.toNat, 1, x⟩] (fun k => [(d.toNat, -k.th.reg a.toNat)]))
  ∧ (∀ sw d a x, Writes (.iabs sw d a x) [⟨a.toNat, 1, x⟩] (fun k =>
      [(d.toNat, if (k.th.reg a.toNat).toInt < 0 then -k.th.reg a.toNat else k.th.reg a.toNat)]))
  ∧ (∀ sw d a b x y m, Writes (.imin sw d a b x y m) [⟨a.toNat, 1, x⟩, ⟨b.toNat, 1, y⟩] (fun k =>
      [(d.toNat, if typed m (k.th.reg a.toNat) ≤ typed m (k.th.reg b.toNat) then k.th.reg a.toNat else k.th.reg b.toNat)]))
  ∧ (∀ sw d a b x y m, Writes (.imax sw d a b x y m) [⟨a.toNat, 1, x⟩, ⟨b.toNat, 1, y⟩] (fun k =>
      [(d.toNat, if typed m (k.th.reg b.toNat) ≤ typed m (k.th.reg a.toNat) then k.th.reg a.toNat else k.th.reg b.toNat)]))
  ∧ (∀ sw d a b x y, Writes (.and sw d a b x y) [⟨a.toNat, 1, x⟩, ⟨b.toNat, 1, y⟩] (fun k =>
      [(d.toNat, k.th.reg a.toNat &&& k.th.reg b.toNat)]))
  ∧ (∀ sw d a b x y, Writes (.or sw d a b x y) [⟨a.toNat, 1, x⟩, ⟨b.toNat, 1, y⟩] (fun k =>
      [(d.toNat, k.th.reg a.toNat ||| k.th.reg b.toNat)]))
  ∧ (∀ sw d a b x y, Writes (.xor sw d a b x y) [⟨a.toNat, 1, x⟩, ⟨b.toNat, 1, y⟩] (fun k =>
      [(d.toNat, k.th.reg a.toNat ^^^ k.th.reg b.toNat)]))
  ∧ (∀ sw d a x, Writes (.not sw d a x) [⟨a.toNat, 1, x⟩] (fun k => [(d.toNat, ~~~k.th.reg a.toNat)]))
  ∧ (∀ sw d a b x y, Writes (.andn sw d a b x y) [⟨a.toNat, 1, x⟩, ⟨b.toNat, 1, y⟩] (fun k =>
      [(d.toNat, k.th.reg a.toNat &&& ~~~k.th.reg b.toNat)]))
  ∧ (∀ sw d a i x, Writes (.andi sw d a i x) [⟨a.toNat, 1, x⟩] (fun k => [(d.toNat, k.th.reg a.toNat &&& word (k.immB i))]))
  ∧ (∀ sw d a i x, Writes (.ori sw d a i x) [⟨a.toNat, 1, x⟩] (fun k => [(d.toNat, k.th.reg a.toNat ||| word (k.immB i))]))
  ∧ (∀ sw d a i x, Writes (.xori sw d a i x) [⟨a.toNat, 1, x⟩] (fun k => [(d.toNat, k.th.reg a.toNat ^^^ word (k.immB i))])))
  ∧ ((∀ sw d a b x y, Writes (.shl sw d a b x y) [⟨a.toNat, 1, x⟩, ⟨b.toNat, 1, y⟩] (fun k =>
      let n := (k.th.reg b.toNat).toNat
      [(d.toNat, if 32 ≤ n then 0 else k.th.reg a.toNat <<< n)]))
  ∧ (∀ sw d a b x y, Writes (.shr sw d a b x y) [⟨a.toNat, 1, x⟩, ⟨b.toNat, 1, y⟩] (fun k =>
      let n := (k.th.reg b.toNat).toNat
      [(d.toNat, if 32 ≤ n then 0 else k.th.reg a.toNat >>> n)]))
  ∧ (∀ sw d a b x y, Writes (.sar sw d a b x y) [⟨a.toNat, 1, x⟩, ⟨b.toNat, 1, y⟩] (fun k =>
      let n := (k.th.reg b.toNat).toNat
      [(d.toNat, (k.th.reg a.toNat).sshiftRight n)]))
  ∧ (∀ sw d a b x y m, Writes (.rot sw d a b x y m) [⟨a.toNat, 1, x⟩, ⟨b.toNat, 1, y⟩] (fun k =>
      let n := (k.th.reg b.toNat).toNat
      [(d.toNat, if m then (k.th.reg a.toNat).rotateRight n else (k.th.reg a.toNat).rotateLeft n)]))
  ∧ (∀ sw d a i x, Runs (.shli sw d a i x) [⟨a.toNat, 1, x⟩] (fun k => k.imm20 = 0) (fun k =>
      { st := k.s, writes := [(d.toNat, if 32 ≤ i.toNat then 0 else k.th.reg a.toNat <<< i.toNat)] }))
  ∧ (∀ sw d a i x, Runs (.shri sw d a i x) [⟨a.toNat, 1, x⟩] (fun k => k.imm20 = 0) (fun k =>
      { st := k.s, writes := [(d.toNat, if 32 ≤ i.toNat then 0 else k.th.reg a.toNat >>> i.toNat)] }))
  ∧ (∀ sw d a i x, Runs (.sari sw d a i x) [⟨a.toNat, 1, x⟩] (fun k => k.imm20 = 0) (fun k =>
      { st := k.s, writes := [(d.toNat, (k.th.reg a.toNat).sshiftRight i.toNat)] }))
  ∧ (∀ sw d a i x, Traps (.shli sw d a i x) [⟨a.toNat, 1, x⟩] (fun k => k.imm20 ≠ 0) causeIllegalOp
      (illegalInfos 3)))

/-- R121: the bits of a word that a position and a length name, cut at bit 31, are extracted and inserted. R122, R124:
counts of bits, the reversed word, and the selection on g[d]. R126, R127: LEA leaves the window selector alone, and
ADD64 wraps modulo 2^64. R128, R129: the dot product of four bytes added to g[c], and the mix of two words. -/
def Obligations.BitFieldsCountsAndPairs : Prop :=
  ((∀ sw d a b x y m, Writes (.bfx sw d a b x y m) [⟨a.toNat, 1, x⟩, ⟨b.toNat, 1, y⟩] (fun k =>
      let pos := (k.th.reg b.toNat).toNat % 256
      let len := (k.th.reg b.toNat).toNat / 256 % 256
      let w := if 32 ≤ pos then 0 else min len (32 - pos)
      let f := (k.th.reg a.toNat).toNat / 2 ^ pos % 2 ^ w
      [(d.toNat, if w = 0 then 0 else if m then word (sx f w) else wordN f)]))
  ∧ (∀ sw d a b x y, ∀ s t th,
      let k := entryCtx s t th
      let pos := (k.th.reg b.toNat).toNat % 256
      let len := (k.th.reg b.toNat).toNat / 256 % 256
      passes (.bfi sw d a b x y) [⟨a.toNat, 1, x⟩, ⟨b.toNat, 1, y⟩] s t th = true →
      fits k (freed (.bfi sw d a b x y) [⟨a.toNat, 1, x⟩, ⟨b.toNat, 1, y⟩] k []) [d.toNat] = true →
      ∃ v : Word, exec (.bfi sw d a b x y) s = .next (setThread s t (wrote (.bfi sw d a b x y) k
          (freed (.bfi sw d a b x y) [⟨a.toNat, 1, x⟩, ⟨b.toNat, 1, y⟩] k []) [(d.toNat, v)]))
        ∧ ∀ j < 32, v.getLsbD j = if pos ≤ j ∧ j < pos + len then (k.th.reg a.toNat).getLsbD (j - pos) else (k.th.reg k.cReg).getLsbD j))
  ∧ ((∀ sw d a x, Writes (.popc sw d a x) [⟨a.toNat, 1, x⟩] (fun k =>
      [(d.toNat, wordN ((List.range 32).countP (fun i => (k.th.reg a.toNat).getLsbD i)))]))
  ∧ (∀ sw d a x, Writes (.clz sw d a x) [⟨a.toNat, 1, x⟩] (fun k =>
      [(d.toNat, wordN (if k.th.reg a.toNat = 0 then 32 else 31 - Nat.log2 (k.th.reg a.toNat).toNat))]))
  ∧ (∀ sw d a x, Writes (.brev sw d a x) [⟨a.toNat, 1, x⟩] (fun k => [(d.toNat, (k.th.reg a.toNat).reverse)]))
  ∧ (∀ sw d a b x y m, Writes (.sel sw d a b x y m) [⟨a.toNat, 1, x⟩, ⟨b.toNat, 1, y⟩, ⟨d.toNat, 1, false⟩] (fun k =>
      let c := if m then (k.th.reg d.toNat).msb else k.th.reg d.toNat != 0
      [(d.toNat, if c then k.th.reg a.toNat else k.th.reg b.toNat)])))
  ∧ ((∀ sw d a b x y m, Writes (.lea sw d a b x y m) [⟨a.toNat, 2, x⟩, ⟨b.toNat, 1, y⟩] (fun k =>
      let base := k.th.reg64 a.toNat
      let sum := base / 2 ^ 56 * 2 ^ 56 + (((base : Int) + typed m (k.th.reg b.toNat)) % 2 ^ 56).toNat
      [(d.toNat, wordN sum), (d.toNat + 1, wordN (sum / 2 ^ 32))]))
  ∧ (∀ sw d a b x y m, Writes (.add64 sw d a b x y m) [⟨a.toNat, 2, x⟩, ⟨b.toNat, 2, y⟩] (fun k =>
      let u := (k.th.reg64 a.toNat : Int)
      let v := (k.th.reg64 b.toNat : Int)
      let sum := ((if m then u - v else u + v) % 2 ^ 64).toNat
      [(d.toNat, wordN sum), (d.toNat + 1, wordN (sum / 2 ^ 32))])))
  ∧ ((∀ sw d a b x y m, Writes (.idp4 sw d a b x y m) [⟨a.toNat, 1, x⟩, ⟨b.toNat, 1, y⟩] (fun k =>
      let p := fun i : Nat =>
        let u := (k.th.reg a.toNat).toNat / 2 ^ (8 * i) % 256
        let v := (k.th.reg b.toNat).toNat / 2 ^ (8 * i) % 256
        if m then (u : Int) * v else (BitVec.ofNat 8 u).toInt * (BitVec.ofNat 8 v).toInt
      [(d.toNat, word (saturate k.sat m (typed m (k.th.reg k.cReg) + (p 0 + p 1 + p 2 + p 3))))]))
  ∧ (∀ sw d a b x y, Writes (.mix32 sw d a b x y) [⟨a.toNat, 1, x⟩, ⟨b.toNat, 1, y⟩] (fun k =>
      [(d.toNat, mix32 (k.th.reg a.toNat) (k.th.reg b.toNat))])))

/-- R123, R125, R165: ISETP, ISETPI, PLOP and FSETP write the one predicate PD, and FSETP gathers NV for an SNaN, or
for any NaN in its signalling form. -/
def Obligations.PredicateWords : Prop :=
  (∀ sw c p a b x y m, Runs (.isetp sw c p a b x y m) [⟨a.toNat, 1, x⟩, ⟨b.toNat, 1, y⟩] (fun _ => True) (fun k =>
      { st := setThread k.s k.t (k.th.setPred p.toNat
          (cmpTest c.toNat (typed m (k.th.reg a.toNat)) (typed m (k.th.reg b.toNat)))) }))
  ∧ (∀ sw c p a i x m, Runs (.isetpi sw c p a i x m) [⟨a.toNat, 1, x⟩] (fun _ => True) (fun k =>
      { st := setThread k.s k.t (k.th.setPred p.toNat
          (cmpTest c.toNat (typed m (k.th.reg a.toNat)) (if m then (k.immBu i : Int) else k.immB i))) }))
  ∧ (∀ sw o p q r m, Runs (.plop sw o p q r m) [] (fun _ => True) (fun k =>
      let a := k.th.pred q.toNat
      let b := k.th.pred r.toNat
      { st := setThread k.s k.t (k.th.setPred p.toNat (match o.toNat with
        | 0 => a && b | 1 => a || b | 2 => a ^^ b | 3 => a && !b | 4 => a || !b | 5 => a | 6 => !a | _ => m)) }))
  ∧ (∀ sw c p a b x y m, Runs (.fsetp sw c p a b x y m) [⟨a.toNat, 1, x⟩, ⟨b.toNat, 1, y⟩] (fun _ => True) (fun k =>
      let u := rd32 (k.th.reg a.toNat).toNat
      let v := rd32 (k.th.reg b.toNat).toNat
      let nv := if m then u.isNan || v.isNan else u.isSnan || v.isSnan
      { st := setThread k.s k.t
          (({ k.th with fmt := gather k.th.fmt { nv := nv } } : Thread).setPred p.toNat (fltTest c.toNat u v)) }))
  ∧ (∀ (th : Thread) (i j : Nat) (v : Bool), (th.setPred i v).pred j = if j = i then v else th.pred j)

/-! ### Floating-point and conversion words -/

/-- R161, R162, R159: FADD, FSUB, FMUL and FMAD round the exact sum or product once in the mode of R156, gather their
conditions into %fmt, and trap FP_NAN instead of delivering a NaN while %fmt.NANTRAP is 1. R163, R164, R168: FNEG and
FABS change the sign bit alone; FCLASS writes a one-hot mask; FMIN and FMAX answer the other operand's bits for one
NaN, the canonical NaN for two, and take −0 as less than +0. -/
def Obligations.FloatArithmetic : Prop :=
  ((∀ sw d a b x y, Float32 (.fadd sw d a b x y) [⟨a.toNat, 1, x⟩, ⟨b.toNat, 1, y⟩] d
      (fun k => fAdd fp32 k.fmode (rd32 (k.th.reg a.toNat).toNat) (rd32 (k.th.reg b.toNat).toNat))
      (fun k => k.th.reg a.toNat) (fun k => k.th.reg b.toNat))
  ∧ (∀ sw d a b x y, Float32 (.fsub sw d a b x y) [⟨a.toNat, 1, x⟩, ⟨b.toNat, 1, y⟩] d
      (fun k => fAdd fp32 k.fmode (rd32 (k.th.reg a.toNat).toNat) (rd32 (k.th.reg b.toNat).toNat).negate)
      (fun k => k.th.reg a.toNat) (fun k => k.th.reg b.toNat))
  ∧ (∀ sw d a b x y, Float32 (.fmul sw d a b x y) [⟨a.toNat, 1, x⟩, ⟨b.toNat, 1, y⟩] d
      (fun k => fMul fp32 k.fmode (rd32 (k.th.reg a.toNat).toNat) (rd32 (k.th.reg b.toNat).toNat))
      (fun k => k.th.reg a.toNat) (fun k => k.th.reg b.toNat))
  ∧ (∀ sw d a b x y m, Float32 (.fmad sw d a b x y m) [⟨a.toNat, 1, x⟩, ⟨b.toNat, 1, y⟩] d
      (fun k => fMad fp32 k.fmode m (rd32 (k.th.reg a.toNat).toNat) (rd32 (k.th.reg b.toNat).toNat)
        (rd32 (k.th.reg k.cReg).toNat))
      (fun k => k.th.reg a.toNat) (fun k => k.th.reg b.toNat)))
  ∧ ((∀ sw d a x, Writes (.fneg sw d a x) [⟨a.toNat, 1, x⟩] (fun k => [(d.toNat, k.th.reg a.toNat ^^^ 0x80000000#32)]))
  ∧ (∀ sw d a x, Writes (.fabs sw d a x) [⟨a.toNat, 1, x⟩] (fun k => [(d.toNat, k.th.reg a.toNat &&& 0x7FFFFFFF#32)]))
  ∧ (∀ sw d a x, Writes (.fclass sw d a x) [⟨a.toNat, 1, x⟩] (fun k => [(d.toNat, wordN (2 ^ fClass (k.th.reg a.toNat).toNat))]))
  ∧ (∀ sw d a b x y, Float32 (.fmin sw d a b x y) [⟨a.toNat, 1, x⟩, ⟨b.toNat, 1, y⟩] d
      (fun k => fMinMax false (k.th.reg a.toNat).toNat (k.th.reg b.toNat).toNat)
      (fun k => k.th.reg a.toNat) (fun k => k.th.reg b.toNat))
  ∧ (∀ sw d a b x y, Float32 (.fmax sw d a b x y) [⟨a.toNat, 1, x⟩, ⟨b.toNat, 1, y⟩] d
      (fun k => fMinMax true (k.th.reg a.toNat).toNat (k.th.reg b.toNat).toNat)
      (fun k => k.th.reg a.toNat) (fun k => k.th.reg b.toNat))
  ∧ (∀ hi a b, (rd32 a).isNan = true → (rd32 b).isNan = false → (fMinMax hi a b).1 = b ∧ (fMinMax hi b a).1 = b)
  ∧ (∀ hi a b, (rd32 a).isNan = true → (rd32 b).isNan = true → (fMinMax hi a b).1 = 0x7FC00000)
  ∧ (fMinMax false 0x80000000 0).1 = 0x80000000 ∧ (fMinMax false 0 0x80000000).1 = 0x80000000
  ∧ (fMinMax true 0x80000000 0).1 = 0 ∧ (fMinMax true 0 0x80000000).1 = 0)

/-- R166: FDIV, FRCP, FSQRT, FRSQ, FEXP2, FLOG2, FSINPI and FCOSPI, and the special cases of the rule's table. R167,
R169, R170, R173: FRND, FSCALE, FEXPO and PRD. FEXPO is exempt from the NaN trap. -/
def Obligations.FloatFunctionsAndRounding : Prop :=
  ((∀ sw d a b x y, Float32 (.fdiv sw d a b x y) [⟨a.toNat, 1, x⟩, ⟨b.toNat, 1, y⟩] d
      (fun k => fDiv k.fmode (rd32 (k.th.reg a.toNat).toNat) (rd32 (k.th.reg b.toNat).toNat))
      (fun k => k.th.reg a.toNat) (fun k => k.th.reg b.toNat))
  ∧ (∀ sw d a x, Float32 (.frcp sw d a x) [⟨a.toNat, 1, x⟩] d
      (fun k => fDiv k.fmode (.fin false 1 0) (rd32 (k.th.reg a.toNat).toNat)) (fun k => k.th.reg a.toNat) (fun _ => 0))
  ∧ (∀ sw d a x, Float32 (.fsqrt sw d a x) [⟨a.toNat, 1, x⟩] d
      (fun k => fSqrt k.fmode (k.th.reg a.toNat).toNat) (fun k => k.th.reg a.toNat) (fun _ => 0))
  ∧ (∀ sw d a x, Float32 (.frsq sw d a x) [⟨a.toNat, 1, x⟩] d
      (fun k => fRsqrt k.fmode (k.th.reg a.toNat).toNat) (fun k => k.th.reg a.toNat) (fun _ => 0))
  ∧ (∀ sw d a x, Float32 (.fexp2 sw d a x) [⟨a.toNat, 1, x⟩] d
      (fun k => fExp2 k.fmode (k.th.reg a.toNat).toNat) (fun k => k.th.reg a.toNat) (fun _ => 0))
  ∧ (∀ sw d a x, Float32 (.flog2 sw d a x) [⟨a.toNat, 1, x⟩] d
      (fun k => fLog2 k.fmode (k.th.reg a.toNat).toNat) (fun k => k.th.reg a.toNat) (fun _ => 0))
  ∧ (∀ sw d a x, Float32 (.fsinpi sw d a x) [⟨a.toNat, 1, x⟩] d
      (fun k => fSinPi k.fmode (k.th.reg a.toNat).toNat) (fun k => k.th.reg a.toNat) (fun _ => 0))
  ∧ (∀ sw d a x, Float32 (.fcospi sw d a x) [⟨a.toNat, 1, x⟩] d
      (fun k => fCosPi k.fmode (k.th.reg a.toNat).toNat) (fun k => k.th.reg a.toNat) (fun _ => 0))
  ∧ (∀ mode n k m e, m ≠ 0 → fDiv mode (.fin n m e) (.fin k 0 (-149)) = (fp32.inf (n != k), { dz := true }))
  ∧ (∀ mode n k, fDiv mode (.fin n 0 (-149)) (.fin k 0 (-149)) = (fp32.nan, { nv := true })
      ∧ fDiv mode (.inf n) (.inf k) = (fp32.nan, { nv := true }))
  ∧ (∀ mode n k m e, fDiv mode (.fin n m e) (.inf k) = (if n != k then 0x80000000 else 0, {}))
  ∧ (∀ mode bits, (rd32 bits).isZero = true → fSqrt mode bits = (bits, {}) ∧ fSinPi mode bits = (bits, {})
      ∧ fRsqrt mode bits = (fp32.inf (rd32 bits).neg, { dz := true }) ∧ fLog2 mode bits = (fp32.inf true, { dz := true })
      ∧ fExp2 mode bits = (0x3F800000, {}) ∧ fCosPi mode bits = (0x3F800000, {}))
  ∧ (∀ mode bits, (rd32 bits).isNan = false → (rd32 bits).isZero = false → (rd32 bits).neg = true →
      fSqrt mode bits = (fp32.nan, { nv := true }) ∧ fRsqrt mode bits = (fp32.nan, { nv := true })
      ∧ fLog2 mode bits = (fp32.nan, { nv := true }))
  ∧ (∀ mode, fLog2 mode 0x3F800000 = (0, {}) ∧ fSqrt mode 0x7F800000 = (0x7F800000, {}) ∧ fRsqrt mode 0x7F800000 = (0, {})
      ∧ fExp2 mode 0xFF800000 = (0, {}) ∧ fExp2 mode 0x7F800000 = (0x7F800000, {})
      ∧ fSinPi mode 0x7F800000 = (fp32.nan, { nv := true }) ∧ fCosPi mode 0x7F800000 = (fp32.nan, { nv := true })))
  ∧ ((∀ sw d a x m, Float32 (.frnd sw d a x m) [⟨a.toNat, 1, x⟩] d
      (fun k => fRound k.fmode m (k.th.reg a.toNat).toNat) (fun k => k.th.reg a.toNat) (fun _ => 0))
  ∧ (∀ sw d a b x y, Float32 (.fscale sw d a b x y) [⟨a.toNat, 1, x⟩, ⟨b.toNat, 1, y⟩] d
      (fun k => fScale k.fmode (k.th.reg a.toNat).toNat (k.th.reg b.toNat).toInt)
      (fun k => k.th.reg a.toNat) (fun k => k.th.reg b.toNat))
  ∧ (∀ sw d a x, Runs (.fexpo sw d a x) [⟨a.toNat, 1, x⟩] (fun _ => True) (fun k =>
      floatEff k [(d.toNat, (fExpo (k.th.reg a.toNat).toNat).1)] (fExpo (k.th.reg a.toNat).toNat).2))
  ∧ (∀ sw d a x, Float32 (.prd sw d a x) [⟨a.toNat, 2, x⟩] d
      (fun k => readPair (k.th.reg a.toNat).toNat (k.th.reg (a.toNat + 1)).toNat 9 k.fmode false 0 {})
      (fun k => k.th.reg a.toNat) (fun _ => 0))
  ∧ fExpo 0 = (0x80000000#32, { nv := true }) ∧ fExpo 0x7F800000 = (0x7FFFFFFF#32, { nv := true })
  ∧ fExpo 0x7FC00000 = (0x80000000#32, { nv := true }) ∧ (fExpo 1).1 = word (-149)
  ∧ (∀ mode exact bits, (rd32 bits).isInf = true ∨ (rd32 bits).isZero = true → fRound mode exact bits = (bits, {})))

/-- R171, R172, R174: TWOSUM writes a rounded sum and its error, the exact rest for every finite sum (DEDUCED, log 168), PADD a
pair (which NaN operands raise invalid beside infinities: DESIGN CHOICE, log 169), and HADD2, HMUL2 and HFMA2 two halves; the NaN
trap names the lower NaN element. -/
def Obligations.FloatPairsAndHalves : Prop :=
  (∀ sw d a b x y,
    let res := fun k : Ctx => fAdd fp32 modeRNE (rd32 (k.th.reg a.toNat).toNat) (rd32 (k.th.reg b.toNat).toNat)
    let err := fun k : Ctx => if special32 (res k).1 then 0
      else (fp32.round modeRNE false false (dySub (dyAdd (rd32 (k.th.reg a.toNat).toNat).dy (rd32 (k.th.reg b.toNat).toNat).dy)
        (rd32 (res k).1).dy) {}).1
    Runs (.twosum sw d a b x y) [⟨a.toNat, 1, x⟩, ⟨b.toNat, 1, y⟩]
        (fun k => k.cReg ≠ d.toNat ∧ (fmtNanTrap k.th.fmt = false ∨ (rd32 (res k).1).isNan = false)) (fun k =>
      floatEff k [(d.toNat, wordN (res k).1), (k.cReg, wordN (err k))]
        { nv := (res k).2.nv, of_ := (res k).2.of_, nx := (res k).2.of_, dz := (res k).2.dz })
      ∧ Traps (.twosum sw d a b x y) [⟨a.toNat, 1, x⟩, ⟨b.toNat, 1, y⟩]
        (fun k => k.cReg ≠ d.toNat ∧ fmtNanTrap k.th.fmt = true ∧ (rd32 (res k).1).isNan = true) causeFpNan
        (fun k => (0, k.iw, k.th.reg a.toNat, k.th.reg b.toNat))
      ∧ Traps (.twosum sw d a b x y) [⟨a.toNat, 1, x⟩, ⟨b.toNat, 1, y⟩] (fun k => k.cReg = d.toNat) causeIllegalOp
        (illegalInfos 3))
  ∧ (∀ sw d a b x y,
    let v := fun (k : Ctx) (r : Nat) => rd32 (k.th.reg r).toNat
    let res := fun k : Ctx => pairAdd k.fmode [v k a.toNat, v k (a.toNat + 1), v k b.toNat, v k (b.toNat + 1)]
    FloatGives (.padd sw d a b x y) [⟨a.toNat, 2, x⟩, ⟨b.toNat, 2, y⟩]
      (fun k => [(d.toNat, wordN (res k).1), (d.toNat + 1, wordN (res k).2.1)])
      (fun k => if (rd32 (res k).1).isNan then some (0, k.th.reg a.toNat, k.th.reg b.toNat) else none) (fun k => (res k).2.2))
  ∧ (∀ sw d a b x y m,
    let f := if m then bf16 else fp16
    let h := fun (k : Ctx) (r i : Nat) => (k.th.reg r).toNat / 2 ^ (16 * i) % 2 ^ 16
    let put := fun (k : Ctx) (r : Ctx → Nat → FRes) => [(d.toNat, wordN ((r k 0).1 + 2 ^ 16 * (r k 1).1))]
    let nan := fun (k : Ctx) (r : Ctx → Nat → FRes) =>
      if (f.read (r k 0).1).isNan then some (0, wordN (h k a.toNat 0), wordN (h k b.toNat 0))
      else if (f.read (r k 1).1).isNan then some (1, wordN (h k a.toNat 1), wordN (h k b.toNat 1)) else none
    let add := fun (k : Ctx) (i : Nat) => fAdd f k.fmode (f.read (h k a.toNat i)) (f.read (h k b.toNat i))
    let mul := fun (k : Ctx) (i : Nat) => fMul f k.fmode (f.read (h k a.toNat i)) (f.read (h k b.toNat i))
    let fma := fun (k : Ctx) (i : Nat) => fMad f k.fmode false (f.read (h k a.toNat i)) (f.read (h k b.toNat i)) (f.read (h k k.cReg i))
    FloatGives (.hadd2 sw d a b x y m) [⟨a.toNat, 1, x⟩, ⟨b.toNat, 1, y⟩] (fun k => put k add) (fun k => nan k add)
        (fun k => (add k 0).2.or (add k 1).2)
      ∧ FloatGives (.hmul2 sw d a b x y m) [⟨a.toNat, 1, x⟩, ⟨b.toNat, 1, y⟩] (fun k => put k mul) (fun k => nan k mul)
        (fun k => (mul k 0).2.or (mul k 1).2)
      ∧ FloatGives (.hfma2 sw d a b x y m) [⟨a.toNat, 1, x⟩, ⟨b.toNat, 1, y⟩] (fun k => put k fma) (fun k => nan k fma)
        (fun k => (fma k 0).2.or (fma k 1).2))

/-- R148, R149, R152 to R154: CVTFI, CVTIF, NXEL, MXEL and FMTCHK. CVTFI writes no NaN; NXEL and MXEL report g[b] for a NaN
(DEDUCED, log 22). R151: a valid CVTFF rounds
every element of the source group to the result format of its format word, in order; a format word CVTFF does not
take, or a register number its group's alignment forbids, traps ILLEGAL_OP, reason 3. -/
def Obligations.Conversions : Prop :=
  ((∀ sw d a b x y m, Runs (.cvtfi sw d a b x y m) [⟨a.toNat, 1, x⟩, ⟨b.toNat, 1, y⟩] (fun _ => True) (fun k =>
      let r := cvtFloatInt k.fmode k.sat m (rd32 (k.th.reg a.toNat).toNat) (k.th.reg b.toNat).toInt ⟨k.seed, 0⟩
      floatEff k [(d.toNat, word r.1)] r.2))
  ∧ (∀ sw d a b x y m, Float32 (.cvtif sw d a b x y m) [⟨a.toNat, 1, x⟩, ⟨b.toNat, 1, y⟩] d
      (fun k => fp32.round k.fmode k.sat false ⟨typed m (k.th.reg a.toNat), clampExp (k.th.reg b.toNat).toInt⟩ ⟨k.seed, 0⟩)
      (fun k => k.th.reg a.toNat) (fun _ => 0))
  ∧ (∀ sw d a b x y,
      let h := fun k : Ctx => (k.th.reg a.toNat).toNat
      let el := fun k : Ctx => (k.th.reg b.toNat).toNat
      let mw := fun k : Ctx => nxM (h k / 2 ^ 20 % 16)
      let ok := fun k : Ctx => 4 ≤ h k / 2 ^ 20 % 16 ∧ h k / 2 ^ 20 % 16 ≤ 6
      let res := fun k : Ctx => fp32.roundVal modeRNE false 0
        (nxElement (mw k) (h k % 256) (h k / 2 ^ 8 % 256) (h k / 2 ^ 16 % 16) (el k / 2 ^ mw k % 2 == 1) (el k % 2 ^ mw k)) {}
      Runs (.nxel sw d a b x y) [⟨a.toNat, 1, x⟩, ⟨b.toNat, 1, y⟩]
          (fun k => ok k ∧ (fmtNanTrap k.th.fmt = false ∨ (rd32 (res k).1).isNan = false)) (fun k =>
        floatEff k [(d.toNat, wordN (res k).1)] (res k).2)
      ∧ Traps (.nxel sw d a b x y) [⟨a.toNat, 1, x⟩, ⟨b.toNat, 1, y⟩]
        (fun k => ok k ∧ fmtNanTrap k.th.fmt = true ∧ (rd32 (res k).1).isNan = true) causeFpNan
        (fun k => (0, k.iw, k.th.reg b.toNat, 0))
      ∧ Traps (.nxel sw d a b x y) [⟨a.toNat, 1, x⟩, ⟨b.toNat, 1, y⟩] (fun k => ¬ ok k) causeIllegalOp
        (illegalInfos 3))
  ∧ (∀ sw d a b x y, Float32 (.mxel sw d a b x y) [⟨a.toNat, 1, x⟩, ⟨b.toNat, 1, y⟩] d
      (fun k => fp32.roundVal modeRNE false 0 (mxElement ((k.th.reg a.toNat).toNat % 256)
        ((k.th.reg b.toNat).toNat / 2 ^ (4 * ((k.th.reg a.toNat).toNat / 2 ^ 8 % 8)) % 16)) {})
      (fun k => k.th.reg b.toNat) (fun _ => 0))
  ∧ (∀ sw d a x, Writes (.fmtchk sw d a x) [⟨a.toNat, 1, x⟩] (fun k =>
      let w := (k.th.reg a.toNat).toNat
      [(d.toNat, wordN (fmtCheck w + if fmtCheck w = 0 then kOf (w % 16) * 2 ^ 16 else 0))])))
  ∧ (∀ sw d a b x y,
    let w := fun k : Ctx => (k.th.reg b.toNat).toNat
    let ws := fun k : Ctx => widthOfCode (w k % 16)
    let wd := fun k : Ctx => widthOfCode (w k / 2 ^ 8 % 16)
    let n := fun k : Ctx => 32 / min (ws k) (wd k)
    let ok := fun k : Ctx => cvtWordOk (w k) = true ∧ a.toNat % (n k * ws k / 32) = 0 ∧ d.toNat % (n k * wd k / 32) = 0
    let el := fun (k : Ctx) (i : Nat) =>
      let e := k.th.groupBits a.toNat (n k * ws k / 32) / 2 ^ (ws k * i) % 2 ^ ws k
      roundCode (w k / 2 ^ 8 % 16) (k.mode (w k / 2 ^ 12 % 16)) k.sat (fwBias (w k)) (readCode (w k % 16) e) ⟨k.seed, i⟩
    Traps (.cvtff sw d a b x y) [⟨a.toNat, 1, x⟩, ⟨b.toNat, 1, y⟩] (fun k => ¬ ok k) causeIllegalOp
        (illegalInfos 3)
    ∧ ∀ s t th,
      let k := entryCtx s t th
      let more := if x then range a.toNat (n k * ws k / 32) else []
      let frees := freed (.cvtff sw d a b x y) [⟨a.toNat, 1, x⟩, ⟨b.toNat, 1, y⟩] k more
      let bits := (List.range (n k)).foldl (fun v i => v + (el k i).1 * 2 ^ (wd k * i)) 0
      let conds := (List.range (n k)).foldl (fun c i => c.or (el k i).2) {}
      passes (.cvtff sw d a b x y) [⟨a.toNat, 1, x⟩, ⟨b.toNat, 1, y⟩] s t th = true → ok k →
      k.pendingSrc [⟨a.toNat, n k * ws k / 32, x⟩] = none →
      (fmtNanTrap k.th.fmt = false ∨ ∀ i < n k, codeNan (w k / 2 ^ 8 % 16) (el k i).1 = false) →
      fits k frees (range d.toNat (n k * wd k / 32)) = true →
      exec (.cvtff sw d a b x y) s = .next (complete k sw frees (floatEff k
        ((List.range (n k * wd k / 32)).map (fun j => (d.toNat + j, wordN (bits / 2 ^ (32 * j) % 2 ^ 32)))) conds)))

/-- R141, R143: on the grid of 2^q a magnitude m · 2^e off the grid goes to one of its two neighbours, and which one
is the mode's: the nearest with ties to even, towards zero, down, up, the nearest with ties away from zero, or the
draw's choice. R130, R142: in every scalar format a finite pattern reads to a value that rounds back to the same
pattern in every mode, with no condition. -/
def Obligations.RoundingIsToANeighbour : Prop :=
  (∀ (neg : Bool) (m : Nat) (e q : Int) (d : Draw), e < q →
    let den := 2 ^ (q - e).toNat
    let lo := m / den
    let r := fun mode => (roundAt mode neg m e q d).1
    (∀ mode, (roundAt mode neg m e q d).2 = decide (m % den = 0))
    ∧ (∀ mode, m % den = 0 → r mode * den = m)
    ∧ (∀ mode, m % den ≠ 0 → r mode = lo ∨ r mode = lo + 1)
    ∧ (m % den ≠ 0 → r modeRNE = if 2 * (m % den) < den ∨ (2 * (m % den) = den ∧ lo % 2 = 0) then lo else lo + 1)
    ∧ (m % den ≠ 0 → r modeRZ = lo)
    ∧ (m % den ≠ 0 → r modeRD = if neg then lo + 1 else lo)
    ∧ (m % den ≠ 0 → r modeRU = if neg then lo else lo + 1)
    ∧ (m % den ≠ 0 → r modeRNA = if 2 * (m % den) < den then lo else lo + 1)
    ∧ (m % den ≠ 0 → r modeSRH = if d.bits * den < (m % den) * 2 ^ 32 then lo + 1 else lo))
  ∧ (∀ f ∈ [fp32, fp16, bf16, e4m3, e5m2, e2m1], ∀ bits < 2 ^ f.width, ∀ n m e, f.read bits = .fin n m e →
    ∀ mode sat d, f.roundFin mode sat n m e d = (bits, {}))

/-! ### Control -/

/-- R39, R40: an EXT word of a form not seen yet, not the clause's last word, is latched for the next word with the
index of the first EXT word; a second one of the same form is ILLEGAL_OP, reason 4 (and is judged before the place, DESIGN
CHOICE, log 182), and one that is the last word CLAUSE_FORM, reason 6. R25, R29, R85: a thread between clauses that stands at
its meet arrives there, before it fetches the clause at it (DEDUCED, log 18); else it fetches its next clause, whose first word
is next where its waits hold and, for a MEM-class clause, where its group holds a memory token; else the thread is held at
issue; a thread that may not run stays. -/
def Obligations.ExtWordsAndClauses : Prop :=
  (let at_ := fun (i : Instr) (s : State) (t : Nat) (th : Thread) => s.cur = some t ∧ thread? s t = some th
    ∧ th.rawWord.toNat = (encode i).headD 0
  let first := fun th : Thread => if th.ext.ctl.isSome || th.ext.imm.isSome then th.ext.first else th.word
  (∀ p n e r x c l s t th c', at_ (.extControlForm p n e r x c l) s t th → th.ext.ctl = none → th.clause = some c' →
      th.word < c'.n →
      exec (.extControlForm p n e r x c l) s = .next (setThread s t { th with
        ext := { th.ext with ctl := some th.rawWord.toNat, first := first th }, word := th.word + 1, wait := .ready }))
  ∧ (∀ i s t th c', at_ (.extImmediateForm i) s t th → th.ext.imm = none → th.clause = some c' → th.word < c'.n →
      exec (.extImmediateForm i) s = .next (setThread s t { th with
        ext := { th.ext with imm := some th.rawWord.toNat, first := first th }, word := th.word + 1, wait := .ready }))
  ∧ (∀ p n e r x c l s t th w, at_ (.extControlForm p n e r x c l) s t th → th.ext.ctl = some w →
      exec (.extControlForm p n e r x c l) s = .next (trapSync s t 0x01 4 th.rawWord (wordN w) (wordN (th.ext.imm.getD 0))))
  ∧ (∀ p n e r x c l s t th c', at_ (.extControlForm p n e r x c l) s t th → th.ext.ctl = none → th.clause = some c' →
      th.word = c'.n →
      exec (.extControlForm p n e r x c l) s = .next (trapSync s t 0x02 6 c'.headerWord (wordN th.word) th.rawWord))
  ∧ (∀ i s t th w, at_ (.extImmediateForm i) s t th → th.ext.imm = some w →
      exec (.extImmediateForm i) s = .next (trapSync s t 0x01 4 th.rawWord (wordN (th.ext.ctl.getD 0)) (wordN w)))
  ∧ (∀ i s t th c', at_ (.extImmediateForm i) s t th → th.ext.imm = none → th.clause = some c' → th.word = c'.n →
      exec (.extImmediateForm i) s = .next (trapSync s t 0x02 6 c'.headerWord (wordN th.word) th.rawWord)))
  ∧ ((∀ s t th c s', thread? s t = some th → th.runnable = true → th.clause = none → atMeet s th = false →
      fetchClause s t th = .ok (c, s') → exec (.clauseIssue t) s = .next (startClause s' t c))
  ∧ (∀ s t th c, thread? s t = some th → waitsMet { th with clause := some c, wait := .ready, table := th.nextTable.getD th.table, nextTable := none } c.header = true →
      c.cls ≠ 2 → (thread? (startClause s t c) t).map (fun h => (h.word, h.clause, h.wait, h.nextTable)) = some (1, some c, .ready, none))
  ∧ (∀ s t th c, thread? s t = some th → waitsMet { th with clause := some c, wait := .ready, table := th.nextTable.getD th.table, nextTable := none } c.header = false →
      (thread? (startClause s t c) t).map (fun h => (h.word, h.clause, h.wait)) = some (th.word, some c, .hold))
  ∧ (∀ s t th c, thread? s t = some th → waitsMet { th with clause := some c, wait := .ready, table := th.nextTable.getD th.table, nextTable := none } c.header = true →
      c.cls = 2 → let asked := askToken s (coreOf s th) (groupKey th)
      (thread? (startClause s t c) t).map (fun h => (h.word, h.clause, h.wait)) =
        some (if hasToken asked (coreOf s th) (groupKey th) then (1, some c, .ready) else (th.word, some c, .hold)))
  ∧ (∀ s t th, thread? s t = some th → th.runnable = true → th.clause = none → atMeet s th = true →
      exec (.clauseIssue t) s = .next (if orderWaits s th then holdAt s t else arriveLig s t th (fld th.meet.toNat 52 4) .meet))
  ∧ (∀ s t th, thread? s t = some th → th.runnable = false → exec (.clauseIssue t) s = .next s)
  ∧ (∀ th h, waitsMet th h = true ↔ ∀ i < 6, fld h (3 * i) 3 = 7 ∨ th.counter i ≤ fld h (3 * i) 3)
  ∧ (∀ h, headerFault h = 0 ↔ fld h 28 4 = 0xC ∧ fld h 24 4 ≠ 0 ∧ fld h 18 2 = 0))

/-- R91 to R93: BRA and BRX go to their targets; BRP goes to its target where p[PRED] ⊕ NEG is 1, else to the next
clause header. The thread stands between clauses at the target. R94 to R96: CALL and CALLX push the address of the
next clause header, a full hardware stack first spilling its oldest entry to the private window, and trap
ACCESS_VIOLATION where the spill slot lies outside it; RET pops the newest entry, from the spill area where the
hardware stack is empty, and traps RET_EMPTY on an empty stack. -/
def Obligations.BranchesAndCalls : Prop :=
  ((∀ sw o, Runs (.bra sw o) [] (fun _ => True) (fun k => { st := k.s, flow := .branch (k.target o.toNat 21) }))
  ∧ (∀ sw p n o, Runs (.brp sw p n o) [] (fun _ => True) (fun k =>
      { st := k.s, flow := .branch (if (k.th.pred p.toNat ^^ n) = true then k.target o.toNat 17 else nextHeader k.th) }))
  ∧ (∀ sw a x, Runs (.brx sw a x) [⟨a.toNat, 2, x⟩] (fun _ => True) (fun k =>
      { st := k.s, flow := .branch (k.th.reg64 a.toNat) }))
  ∧ (∀ (k : Ctx) (o n : Nat), n ≠ 0 → o < 2 ^ n → k.imm = none →
      k.target o n = (((nextHeader k.th : Int) + 4 * (if o < 2 ^ (n - 1) then (o : Int) else o - 2 ^ n)) % 2 ^ 64).toNat)
  ∧ (∀ (k : Ctx) sw frees target, thread? k.s k.t = some k.th →
      (thread? (complete k sw frees { st := k.s, flow := .branch target }) k.t).map (fun th => (th.pc, th.word, th.clause)) =
        some (target % 2 ^ 64, 0, none)))
  ∧ (let room := fun k : Ctx => 1024 * (((team? k.s k.th.team).map (·.privKb)).getD 0)
  let slot := fun (k : Ctx) (j : Nat) => (.own k.t (room k - 8 * j) : Loc)
  let spill := fun (k : Ctx) (s1 : State) => modThread
    (poke (touchOwn s1 (slot k (k.th.spilled + 1)) 8) (slot k (k.th.spilled + 1)) (leBytes 8 (k.th.stack.getLast?.getD 0))) k.t
    (fun th => { th with stack := nextHeader k.th % 2 ^ 64 :: th.stack.dropLast, spilled := th.spilled + 1 })
  let full := fun k : Ctx => 16 ≤ k.th.stack.length ∧ 8 * (k.th.spilled + 1) ≤ room k
  let push := fun k : Ctx => setThread k.s k.t { k.th with stack := nextHeader k.th % 2 ^ 64 :: k.th.stack }
  (∀ sw o, Runs (.call sw o) [] (fun k => k.th.stack.length < 16) (fun k =>
      { st := push k, flow := .branch (k.target o.toNat 21) }))
  ∧ (∀ sw a x, Runs (.callx sw a x) [⟨a.toNat, 2, x⟩] (fun k => k.th.stack.length < 16) (fun k =>
      { st := push k, flow := .branch (k.th.reg64 a.toNat) }))
  ∧ (∀ sw o s1, Runs (.call sw o) [] (fun k => full k ∧ k.before (k.spillSlot k.th.spilled) = .ok s1) (fun k =>
      { st := spill k s1, flow := .branch (k.target o.toNat 21) }))
  ∧ (∀ sw a x s1, Runs (.callx sw a x) [⟨a.toNat, 2, x⟩] (fun k => full k ∧ k.before (k.spillSlot k.th.spilled) = .ok s1)
      (fun k => { st := spill k s1, flow := .branch (k.th.reg64 a.toNat) }))
  ∧ (∀ (k : Ctx) j, k.spillSlot j = { loc := slot k (j + 1), len := 8, strong := false, cattr := 0, pageW := true, pageSeal := k.th.sealId })
  ∧ (∀ (k : Ctx) a, thread? k.s k.t = some k.th → (∀ f ∈ k.th.flights, f.got.isSome) → k.before a = .ok k.s)
  ∧ (∀ sw o, Traps (.call sw o) [] (fun k => 16 ≤ k.th.stack.length ∧ room k < 8 * (k.th.spilled + 1)) 0x11
      (fun k => (0xF2, wordN (room k), 0, k.iw)))
  ∧ (∀ sw a x, Traps (.callx sw a x) [⟨a.toNat, 2, x⟩] (fun k => 16 ≤ k.th.stack.length ∧ room k < 8 * (k.th.spilled + 1)) 0x11
      (fun k => (0xF2, wordN (room k), 0, k.iw)))
  ∧ (∀ sw, Runs (.ret sw) [] (fun k => k.th.stack ≠ []) (fun k =>
      { st := setThread k.s k.t { k.th with stack := k.th.stack.tail }, flow := .branch (k.th.stack.headD 0) }))
  ∧ (∀ sw s1, Runs (.ret sw) [] (fun k => k.th.stack = [] ∧ k.th.spilled ≠ 0 ∧ k.before (k.spillSlot (k.th.spilled - 1)) = .ok s1) (fun k =>
      let s2 := met s1 (slot k k.th.spilled) 8
      { st := modThread (touchOwn s2 (slot k k.th.spilled) 8) k.t (fun th => { th with spilled := th.spilled - 1 })
        flow := .branch (leNat (peek s2 (slot k k.th.spilled) 8)) }))
  ∧ (∀ sw, Traps (.ret sw) [] (fun k => k.th.stack = [] ∧ k.th.spilled = 0) 0x05 (fun _ => (0, 0, 0, 0))))

/-- R97 to R101, R88: LGJOIN makes the thread a member and sets its meet; LGWAIT lets a non-member go on and holds a
member; LGDROP takes a member out and clears the meet of that ligature; LGREAD reads a mask; MEETSET moves a member's
meet and traps LIGATURE, reason 1, for another thread. R87, R107, R108: RXCH, RBCAST, RRED and RVOTE hold their thread
at the ligature with its values until every member has arrived, and trap LIGATURE, reason 1, for a thread that is no member; the
participants' results are the value exchanged, the value of the lowest or highest participant, the reduction of all or of those
up to the thread, by every code, and the mask or the count of values that are not 0. R85, R87, R314: a ligature whose members have all arrived with one rendezvous word
gives each participant its results and takes it past its word; one whose members wait at LGWAIT releases them past
theirs. -/
def Obligations.LigaturesAndRendezvous : Prop :=
  (let meet := fun (l target : Nat) => BitVec.ofNat 64 (2 ^ 63 + l * 2 ^ 52 + target % 2 ^ 52)
  (∀ sw a i x, Runs (.lgjoin sw a i x) [] (fun _ => True) (fun k =>
      { st := modLig (setThread k.s k.t { k.th with meet := meet a.toNat (k.target i.toNat 7) }) k.th.team k.th.gid a.toNat
          (fun g => { g with members := setBit g.members k.th.mid }) }))
  ∧ (∀ sw a x, Runs (.lgwait sw a x) [] (fun k => k.member a.toNat = false) (fun k => { st := k.s }))
  ∧ (∀ sw a x, Runs (.lgwait sw a x) [] (fun k => k.member a.toNat = true ∧ orderWaits k.s k.th = false) (fun k =>
      { st := k.s, flow := .done, after := fun s => arriveLig s k.t k.th a.toNat (.ligature a.toNat) }))
  ∧ (∀ sw a x, Runs (.lgdrop sw a x) [] (fun k => k.member a.toNat = false) (fun k => { st := k.s }))
  ∧ (∀ sw a x, Runs (.lgdrop sw a x) [] (fun k => k.member a.toNat = true) (fun k =>
      { st := setThread k.s k.t (if fld k.th.meet.toNat 52 4 = a.toNat
          then { k.th with meet := clearBit k.th.meet 63 } else k.th)
        after := fun s => leaveLig s k.th a.toNat }))
  ∧ (∀ sw d a i x, Runs (.lgread sw d a i x) [] (fun k => k.immBu i ≤ 1) (fun k =>
      let g := k.lig a.toNat
      let v := if k.immBu i = 0 then g.members else g.arrived
      { st := k.s, writes := [(d.toNat, v.setWidth 32), (d.toNat + 1, (v >>> 32).setWidth 32)] }))
  ∧ (∀ sw d a i x, Traps (.lgread sw d a i x) [] (fun k => 2 ≤ k.immBu i) 0x01
      (illegalInfos 3))
  ∧ (∀ sw o, Runs (.meetset sw o) [] (fun k => k.member (fld k.th.meet.toNat 52 4) = true) (fun k =>
      { st := setThread k.s k.t
          { k.th with meet := meet (fld k.th.meet.toNat 52 4) (k.target o.toNat 21) } }))
  ∧ (∀ sw o, Traps (.meetset sw o) [] (fun k => k.member (fld k.th.meet.toNat 52 4) = false) 0x06
      (fun k => (1, wordN (fld k.th.meet.toNat 52 4), 0, 0))))
  ∧ (let arrives := fun (k : Ctx) (l opc d : Nat) (a : Nat) (m : Bool) (dests frees : List Nat) =>
    ({ st := k.s, later := dests, flow := .done
       after := fun s => arriveLig s k.t k.th l (.rendezvous l opc d (k.th.reg d) (k.th.reg a) m [] frees) } : Eff)
  let ready := fun (k : Ctx) (l : Nat) => k.member l = true ∧ orderWaits k.s k.th = false
  (∀ sw d a b x y m, Runs (.rxch sw d a b x y m) [⟨a.toNat, 1, x⟩, ⟨d.toNat, 1, false⟩] (fun k => ready k b.toNat) (fun k =>
      arrives k b.toNat 0x110 d.toNat a.toNat m [d.toNat] (if x then [a.toNat] else [])))
  ∧ (∀ sw d a b x y m, Runs (.rbcast sw d a b x y m) [⟨a.toNat, 1, x⟩] (fun k => ready k b.toNat) (fun k =>
      arrives k b.toNat 0x111 d.toNat a.toNat m [d.toNat] (if x then [a.toNat] else [])))
  ∧ (∀ sw d a b x y m, Runs (.rred sw d a b x y m) [⟨a.toNat, 1, x⟩, ⟨d.toNat, 1, false⟩]
      (fun k => ready k b.toNat ∧ (k.th.reg d.toNat).toNat ≤ 10) (fun k =>
      arrives k b.toNat 0x112 d.toNat a.toNat m [d.toNat] (if x then [a.toNat] else [])))
  ∧ (∀ sw d a b x y m, Runs (.rvote sw d a b x y m) [⟨a.toNat, 1, x⟩] (fun k => ready k b.toNat) (fun k =>
      arrives k b.toNat 0x113 d.toNat a.toNat m (if m then [d.toNat] else [d.toNat, d.toNat + 1]) (if x then [a.toNat] else [])))
  ∧ (∀ sw d a b x y m, Traps (.rxch sw d a b x y m) [⟨a.toNat, 1, x⟩, ⟨d.toNat, 1, false⟩] (fun k => k.member b.toNat = false) 0x06
      (fun _ => (1, wordN b.toNat, 0, 0)))
  ∧ (∀ sw d a b x y m, Traps (.rbcast sw d a b x y m) [⟨a.toNat, 1, x⟩] (fun k => k.member b.toNat = false) 0x06
      (fun _ => (1, wordN b.toNat, 0, 0)))
  ∧ (∀ sw d a b x y m, Traps (.rred sw d a b x y m) [⟨a.toNat, 1, x⟩, ⟨d.toNat, 1, false⟩]
      (fun k => k.member b.toNat = false ∧ (k.th.reg d.toNat).toNat ≤ 10) 0x06 (fun _ => (1, wordN b.toNat, 0, 0)))
  ∧ (∀ sw d a b x y m, Traps (.rvote sw d a b x y m) [⟨a.toNat, 1, x⟩] (fun k => k.member b.toNat = false) 0x06
      (fun _ => (1, wordN b.toNat, 0, 0)))
  ∧ (∀ sw d a b x y m, Traps (.rred sw d a b x y m) [⟨a.toNat, 1, x⟩, ⟨d.toNat, 1, false⟩]
      (fun k => k.member b.toNat = true ∧ 10 < (k.th.reg d.toNat).toNat) 0x01 (illegalInfos 3))
  ∧ (∀ ps p, p.opc = 0x110 → p.m = false → ∀ q, ps.find? (fun q : Part => q.mid == p.dv.toNat % 64) = some q →
      rendezvousResult ps p = [(p.d, q.av)])
  ∧ (∀ ps p, p.opc = 0x110 → p.m = true → ∀ q, ps.find? (fun q : Part => q.mid == p.mid ^^^ p.dv.toNat % 64) = some q →
      rendezvousResult ps p = [(p.d, q.av)])
  ∧ (∀ ps p, p.opc = 0x111 → ∀ q qs, ps = q :: qs → p.m = false → rendezvousResult ps p = [(p.d, q.av)])
  ∧ (∀ ps p, p.opc = 0x111 → ∀ q qs, ps = qs ++ [q] → p.m = true → rendezvousResult ps p = [(p.d, q.av)])
  ∧ (∀ ps p, p.opc = 0x112 → p.m = false → rendezvousResult ps p = [(p.d, redAll (p.dv.toNat % 16) (ps.map (·.av)))])
  ∧ (∀ ps p, p.opc = 0x112 → p.m = true → rendezvousResult ps p =
      [(p.d, redAll (p.dv.toNat % 16) ((ps.filter (fun q => q.mid ≤ p.mid)).map (·.av)))])
  ∧ (∀ vs, redAll 0 vs = vs.foldl (· + ·) 0)
  ∧ (∀ v vs, (redAll 1 (v :: vs)).toInt = (vs.map BitVec.toInt).foldl min v.toInt
      ∧ (redAll 2 (v :: vs)).toInt = (vs.map BitVec.toInt).foldl max v.toInt
      ∧ (redAll 3 (v :: vs)).toNat = (vs.map BitVec.toNat).foldl min v.toNat
      ∧ (redAll 4 (v :: vs)).toNat = (vs.map BitVec.toNat).foldl max v.toNat
      ∧ redAll 5 (v :: vs) = vs.foldl (· &&& ·) v ∧ redAll 6 (v :: vs) = vs.foldl (· ||| ·) v
      ∧ redAll 7 (v :: vs) = vs.foldl (· ^^^ ·) v
      ∧ redAll 8 (v :: vs) = vs.foldl (fun a b => wordN (add32 a.toNat b.toNat)) v
      ∧ redAll 9 (v :: vs) = vs.foldl (fun a b => wordN (fMinMax false a.toNat b.toNat).1) v
      ∧ redAll 10 (v :: vs) = vs.foldl (fun a b => wordN (fMinMax true a.toNat b.toNat).1) v)
  ∧ (∀ ps p, p.opc = 0x113 → p.m = true → rendezvousResult ps p = [(p.d, wordN (ps.countP (fun q => q.av != 0)))])
  ∧ (∀ ps p, p.opc = 0x113 → p.m = false → (ps.map (·.mid)).Nodup → (∀ q ∈ ps, q.mid < 64) → ∃ lo hi : Word,
      rendezvousResult ps p = [(p.d, lo), (p.d + 1, hi)]
        ∧ (∀ i < 32, lo.getLsbD i = ps.any (fun q => q.mid == i && q.av != 0))
        ∧ ∀ i < 32, hi.getLsbD i = ps.any (fun q => q.mid == 32 + i && q.av != 0)))
  ∧ ((∀ s tm gid l ps, meetingOf s tm gid l = .rendezvous ps → (∀ p ∈ ps, p.opc ≠ 0x308) →
      ligCheck s tm gid l = completeParts (modLig s tm gid l (fun g => { g with arrived := 0 })) ps
        (maxPts (groupThreads s tm gid (((team? s tm).map (fun t => (t.lig gid l).arrived)).getD 0))))
  ∧ (∀ s tm gid l ps s', meetingOf s tm gid l = .rendezvous ps → (∃ p ∈ ps, p.opc = 0x308) → mmacVote s ps = .go s' →
      ligCheck s tm gid l = completeParts (modLig s' tm gid l (fun g => { g with arrived := 0 })) ps
        (maxPts (groupThreads s tm gid (((team? s tm).map (fun t => (t.lig gid l).arrived)).getD 0))))
  ∧ (∀ s ps pts p th, p ∈ ps → (ps.map (·.t)).Nodup → thread? s p.t = some th →
      thread? (completeParts s ps pts) p.t =
        some ((((th.unmap p.frees).setRegs (rendezvousResult ps p)).takePts pts).completeHeld))
  ∧ (∀ s tm gid l, meetingOf s tm gid l = .release → ligCheck s tm gid l = releaseLig s tm gid l)
  ∧ (∀ s t th tm l, thread? s t = some th → risingFrom 0 s.threads = true → th.wait = .ligature l → team? s th.team = some tm →
      (tm.lig th.gid l).members.getLsbD th.mid = true →
      (thread? (releaseLig s th.team th.gid l) t).map (fun h => (h.wait, h.word, h.pc, h.regs)) =
        some (th.completeHeld.wait, th.completeHeld.word, th.completeHeld.pc, th.regs)))

/-- R102: REGROUP holds its thread at the kern unit with its key and live mask; when every live thread of the team has
arrived and no ligature has a member, the thread at place i of the order by (key, %tid) takes %gid i div sz and %mid i
mod sz, and keeps the registers its live mask names. -/
def Obligations.RegroupMovesThreads : Prop :=
  (∀ sw a b x y, Runs (.regroup sw a b x y) [⟨a.toNat, 1, x⟩, ⟨b.toNat, 2, y⟩] (fun k => k.th.pend = [] ∧ orderWaits k.s k.th = false)
    (fun k =>
      let frees := (if x then [a.toNat] else []) ++ (if y then [b.toNat, b.toNat + 1] else [])
      let w : Wait := .regroup ((k.th.reg a.toNat).toNat % 2 ^ 16) (k.th.reg64 b.toNat) frees
      { st := modThread (flush k.s k.t) k.t (fun th => { th with wait := w }), flow := .done }))
  ∧ (∀ s team tm, team? s team = some tm → firstLigature tm = none → teamThreads s team ≠ [] →
      ((teamThreads s team).filterMap kernOf).length = (teamThreads s team).length →
      let order := ((teamThreads s team).filterMap kernOf).foldr insertKern []
      let sz := (order.length + tm.groups - 1) / tm.groups
      ∃ s', exec (.regroupCompletion team) s = .next s'
        ∧ (risingFrom 0 s.threads = true → ∀ i (h : i < order.length), (thread? s' order[i].t).map (fun th => (th.gid, th.mid)) = some (i / sz, i % sz))
        ∧ ∀ u, u ∉ order.map (·.t) →
            (thread? s' u).map (fun h => (h.regs, h.preds, h.gid, h.mid)) = (thread? s u).map (fun h => (h.regs, h.preds, h.gid, h.mid)))
  ∧ (∀ ks : List Kern, (ks.foldr insertKern []).Perm ks
      ∧ (ks.foldr insertKern []).Pairwise (fun p q => p.key < q.key ∨ (p.key = q.key ∧ p.th.tid ≤ q.th.tid)))
  ∧ (∀ (th : Thread) live frees r, risingFrom 0 th.regs = true →
      (th.keepLive live frees).mapped r = (th.mapped r && live.testBit r && !frees.contains r))

/-- R103, R104, R32: YIELD waits for the other ready threads of its quadrant's active set (DEDUCED, log 34); PAUSE is not ready
for 32 × max(1, c) ACLK cycles from its issue (DEDUCED, log 35); a pause ends when its time has come, and a park when no
register is pending. R105, R99: EXIT ends its thread: the thread is gone; a thread that leaves a ligature, as one that ends
leaves each, has no member and no arrived bit there. -/
def Obligations.PausesAndExit : Prop :=
  ((∀ sw, Runs (.yield sw) [] (fun _ => True) (fun k =>
      { st := setThread k.s k.t { k.th with yields := ((quadThreads k.s (coreOf k.s k.th) k.th.quadrant).filter
          (fun p => p.1 != k.t && p.2.active && p.2.ready)).map (·.1) }
        after := fun s => rotateActive s k.t k.th }))
  ∧ (∀ sw i, Runs (.pause sw i) [] (fun _ => True) (fun k =>
      { st := k.s, flow := .wait (.pause (k.s.aclk + 32 * max 1 (k.immBu i))) }))
  ∧ (∀ s t th u, thread? s t = some th → th.wait = .pause u → u ≤ s.aclk →
      exec (.pauseExpiry t) s = .next (setThread s t th.wake))
  ∧ (∀ s t th u, thread? s t = some th → th.wait = .pause u → s.aclk < u →
      ∃ s', exec (.pauseExpiry t) s = .next s' ∧ thread? s' t = some th)
  ∧ (∀ s t th, thread? s t = some th → th.wait = .park → th.pend = [] →
      exec (.parkEnd t) s = .next (setThread s t { th with wait := .ready }))
  ∧ (∀ s t th, thread? s t = some th → th.wait = .park → th.pend ≠ [] →
      ∃ s', exec (.parkEnd t) s = .next s' ∧ thread? s' t = some th))
  ∧ ((∀ sw, Runs (.exit sw) [] (fun k => remoteWrites k.s k.th = false) (fun k =>
      { st := k.s, flow := .done, after := fun s => endThread s k.t }))
  ∧ (∀ s t, risingFrom 0 s.threads = true → thread? (endThread s t) t = none)
  ∧ ∀ s th l tm, team? (leaveLig s th l) th.team = some tm →
      (tm.lig th.gid l).members.getLsbD th.mid = false ∧ (tm.lig th.gid l).arrived.getLsbD th.mid = false)

/-- R106, R64, R62, R63: LAUNCH reads its record, the declarations and the table image, and judges them in the order of R64
(DEDUCED, log 27): a bad field of the record or of a declaration writes status 1 and its offset, a seal that is not LIVE 5, a
refused image 2 and a full queue 3, and none of them enters a grid; a record that passes writes status 0, and its grid, with its
buffers, arrivals, image and the launcher's logical time, stands in the queue. A user-mode thread may name no other seal. -/
def Obligations.LaunchEntersGrids : Prop :=
  ∀ sw d a x,
    let block := fun k : Ctx => k.readBlock k.s (k.th.reg64 a.toNat) 128 64 [0x00, 0xF0] true
    let reads := fun (k : Ctx) (bs : List Byte) (s' : State) => orderWaits k.s k.th = false ∧ k.s.dev.power.stby = false
      ∧ block k = .ok (bs, s')
    let allowed := fun (k : Ctx) (bs : List Byte) => k.th.system = true ∨ (parseRecord bs).sealId % 1024 = k.th.sealId
    let declared := fun (k : Ctx) (bs : List Byte) (s' : State) (ds : List Byte) (s1 : State) => reads k bs s' ∧ allowed k bs
      ∧ badField (recordChecks (parseRecord bs) bs) = none
      ∧ (if (parseRecord bs).nbuf + (parseRecord bs).narr = 0 then ds = [] ∧ s1 = s'
          else k.readBlock s' (parseRecord bs).decl (8 * ((parseRecord bs).nbuf + (parseRecord bs).narr)) 8 [0x00] false = .ok (ds, s1))
    let imaged := fun (k : Ctx) (bs : List Byte) (s1 : State) (im : List Byte) (s2 : State) => sealLive s1 (parseRecord bs).sealId = true
      ∧ (if (parseRecord bs).map = 0xFF then k.readBlock s1 (parseRecord bs).mapimg 2048 64 [0x00] false = .ok (im, s2)
          else im = [] ∧ s2 = s1)
    let answers := fun (s : State) (w : Nat) => ({ st := s, writes := [(d.toNat, wordN w)] } : Eff)
    (∀ bs s' ds s1 bufs arrs im s2, Runs (.launch sw d a x) [⟨a.toNat, 2, x⟩] (fun k => declared k bs s' ds s1
        ∧ parseDecls (parseRecord bs) ds = .ok (bufs, arrs) ∧ imaged k bs s1 im s2
        ∧ ((parseRecord bs).map = 0xFF → tableCheckFrom 0 (imageEntries im) = none)
        ∧ queueCount s2 (parseRecord bs).queue < 256) (fun k =>
      let g : Grid :=
        { lr := parseRecord bs, buffers := bufs, arrivals := arrs
          image := if (parseRecord bs).map = 0xFF then some (imageEntries im) else none
          pts := ((thread? s2 k.t).map (·.pts)).getD 0 }
      answers ({ s2 with nextId := s2.nextId + 1, grids := kset s2.grids s2.nextId g }) 0))
    ∧ (∀ bs s' ds s1 bufs arrs im s2, Runs (.launch sw d a x) [⟨a.toNat, 2, x⟩] (fun k => declared k bs s' ds s1
        ∧ parseDecls (parseRecord bs) ds = .ok (bufs, arrs) ∧ imaged k bs s1 im s2
        ∧ ((parseRecord bs).map = 0xFF → tableCheckFrom 0 (imageEntries im) = none)
        ∧ 256 ≤ queueCount s2 (parseRecord bs).queue) (fun _ => answers s2 3))
    ∧ (∀ bs s' ds s1 bufs arrs im s2, Runs (.launch sw d a x) [⟨a.toNat, 2, x⟩] (fun k => declared k bs s' ds s1
        ∧ parseDecls (parseRecord bs) ds = .ok (bufs, arrs) ∧ imaged k bs s1 im s2 ∧ (parseRecord bs).map = 0xFF
        ∧ tableCheckFrom 0 (imageEntries im) ≠ none) (fun _ => answers s2 2))
    ∧ (∀ bs s' ds s1 bufs arrs, Runs (.launch sw d a x) [⟨a.toNat, 2, x⟩] (fun k => declared k bs s' ds s1
        ∧ parseDecls (parseRecord bs) ds = .ok (bufs, arrs) ∧ sealLive s1 (parseRecord bs).sealId = false) (fun _ =>
      answers s1 (5 + 84 * 2 ^ 8)))
    ∧ (∀ bs s' ds s1 off, Runs (.launch sw d a x) [⟨a.toNat, 2, x⟩] (fun k => declared k bs s' ds s1
        ∧ parseDecls (parseRecord bs) ds = .error off ∧ off < 2 ^ 16) (fun _ => answers s1 (1 + off * 2 ^ 8)))
    ∧ (∀ bs s' off, Runs (.launch sw d a x) [⟨a.toNat, 2, x⟩] (fun k => reads k bs s' ∧ allowed k bs
        ∧ badField (recordChecks (parseRecord bs) bs) = some off ∧ off < 2 ^ 16) (fun _ => answers s' (1 + off * 2 ^ 8)))
    ∧ (∀ bs s', Traps (.launch sw d a x) [⟨a.toNat, 2, x⟩] (fun k => reads k bs s' ∧ ¬ allowed k bs) 0x03 (fun _ => (0, 0, 0, 0)))

/-! ### Traps and system words -/

/-- R409 to R411: delivery saves g0–g3, the predicates and the mode, unmaps g0–g3, clears the predicates, enters
system mode at the handler's address and records cause, information and resume point; an empty entry takes the default
action; a trap in a handler, or an unreadable or misaligned entry, is a double trap, whose record has the new cause and the
resume point (DEDUCED, log 24). A trap that is ignored leaves the trap registers (DEDUCED, log 23). R406: where a trap is held, no
handler runs and the thread stands at an instruction boundary, the first trap held is delivered; otherwise the step
changes nothing. -/
def Obligations.DeliveryEntersTheHandler : Prop :=
  (∀ s t th cause i0 i1 i2 i3 words, thread? s t = some th →
    (∀ v, th.trap.tactive = false → readVector s th.sealId cause = some v → v ≠ 0 →
      ∃ h, deliver s t cause i0 i1 i2 i3 words = setThread s t h
        ∧ h.trap.save0 = th.reg 0 ∧ h.trap.save1 = th.reg 1 ∧ h.trap.save2 = th.reg 2 ∧ h.trap.save3 = th.reg 3
        ∧ (∀ r < 4, h.trap.tsmap.testBit r = th.mapped r)
        ∧ (∀ r < 4, h.mapped r = false) ∧ (∀ r, 4 ≤ r → kget? h.regs r = kget? th.regs r)
        ∧ h.trap.tpred = th.preds % 256 ∧ h.preds = 0
        ∧ h.trap.pmode = th.system ∧ h.system = true ∧ h.trap.tactive = true
        ∧ h.trap.cause = cause ∧ h.trap.info0 = i0 ∧ h.trap.info1 = i1 ∧ h.trap.info2 = i2 ∧ h.trap.info3 = i3
        ∧ h.trap.tpc = (th.pc + 4 * th.word) % 2 ^ 64 ∧ h.trap.tword = th.word
        ∧ (∀ c, th.clause = some c → th.word ≠ 0 → h.trap.tcls = c.cls ∧ h.trap.tn = c.n)
        ∧ h.pc = v % 2 ^ 64 ∧ h.word = 0 ∧ h.clause = none
        ∧ h.ec = th.ec ∧ h.meet = th.meet ∧ h.stack = th.stack ∧ h.fmt = th.fmt ∧ h.pts = th.pts ∧ h.flights = th.flights)
    ∧ (th.trap.tactive = false → readVector s th.sealId cause = some 0 →
        cause ∈ [0x61, 0x17, 0x21, 0x30, 0x31, 0x32] →
        deliver s t cause i0 i1 i2 i3 words = setThread s t { th with due := none })
    ∧ (th.trap.tactive = false → readVector s th.sealId cause = some 0 →
        cause ∉ [0x61, 0x17, 0x21, 0x30, 0x31, 0x32] →
        deliver s t cause i0 i1 i2 i3 words = endThread (logUnhandled s th cause th.resumeAddr false) t)
    ∧ (th.trap.tactive = true ∨ readVector s th.sealId cause = none →
        deliver s t cause i0 i1 i2 i3 words = endThread (logUnhandled s th cause th.resumeAddr true) t))
  ∧ ((∀ s t th h hs, thread? s t = some th → asyncReady th = true → th.held = h :: hs →
    exec (.asynchronousTrapDelivery t) s = .next (deliver (setThread s t { th with held := hs, wait := .ready }) t h.cause
      (nthD h.infos 0 0) (nthD h.infos 1 0) (nthD h.infos 2 0) (nthD h.infos 3 0) 0))
  ∧ (∀ s t th, thread? s t = some th → asyncReady th = false → exec (.asynchronousTrapDelivery t) s = .next s)
  ∧ (∀ s t th cause infos, thread? s t = some th → th.held.length < 15 →
      raiseAsync s t cause infos = setThread s t { th with held := th.held ++ [{ cause := cause, infos := infos }] })
  ∧ (∀ s t th cause infos, thread? s t = some th → 15 ≤ th.held.length →
      raiseAsync s t cause infos = setThread s t { th with trap := { th.trap with alost := true } }))

/-- R406, R408: a synchronous trap's resume point is the trapping word, or its first EXT word. R430: TRAP goes past
itself and takes the exception TRAP_INSN or BREAK with its code, from either mode. -/
def Obligations.SynchronousTraps : Prop :=
  (∀ s t th cause i0 i1 i2 i3 v, thread? s t = some th → th.trap.tactive = false →
    readVector (setThread s t th.atResume) th.sealId cause = some v → v ≠ 0 →
    let at_ := if th.ext.ctl.isSome || th.ext.imm.isSome then th.ext.first else th.word
    (thread? (trapSync s t cause i0 i1 i2 i3) t).map (fun h => (h.trap.tpc, h.trap.tword, h.trap.cause)) =
      some ((th.pc + 4 * at_) % 2 ^ 64, at_, cause))
  ∧ ((∀ sw d i, Runs (.trap sw d i) [] (fun _ => True) (fun k =>
    { st := k.s, flow := .done
      after := fun s => deliver (modThread s k.t (fun th => th.advance.afterWord sw)) k.t
        (if d = 0 then 0x60 else 0x61) (wordN i.toNat) 0 0 0 0 }))
  ∧ ∀ (th : Thread) (c : Clause), th.clause = some c →
      (th.word < c.n → (th.advance).resumeAddr = (th.pc + 4 * (th.word + 1)) % 2 ^ 64)
      ∧ (c.n ≤ th.word → (th.advance).resumeAddr = (th.pc + 4 * (c.n + 1)) % 2 ^ 64 ∧ (th.advance).word = 0))

/-- R431, R412: RTE in a handler restores g0–g3 as TSMAP says, the predicates and the mode, and goes to the resume
point; outside a handler it is no legal word, and where the program would not fit its budget it is a double trap, recorded
with %tcause and %tpc (R411, R423; DEDUCED, log 24). R409, R431: a handler that returns at once gives the program back as it was: its registers, predicates, mode and
place. -/
def Obligations.ReturnsFromHandlers : Prop :=
  ((∀ sw, Runs (.rte sw) [] (fun k => k.th.trap.tactive = true ∧ k.th.rteFootprint ≤ k.th.budget) (fun k =>
      { st := setThread k.s k.t (k.th.rte.afterWord sw), flow := .done }))
  ∧ (∀ sw, Traps (.rte sw) [] (fun k => k.th.trap.tactive = false) 0x01
      (illegalInfos 3))
  ∧ (∀ sw s t th, passes (.rte sw) [] s t th = true → (entryCtx s t th).th.trap.tactive = true →
      (entryCtx s t th).th.budget < (entryCtx s t th).th.rteFootprint →
      exec (.rte sw) s = .next (endThread (logUnhandled (entryCtx s t th).s (entryCtx s t th).th
        (entryCtx s t th).th.trap.cause (entryCtx s t th).th.trap.tpc true) t))
  ∧ (∀ th : Thread, risingFrom 0 th.regs = true →
      (∀ r < 4, kget? th.rte.regs r = if th.trap.tsmap.testBit r
        then some (if r = 0 then th.trap.save0 else if r = 1 then th.trap.save1 else if r = 2 then th.trap.save2 else th.trap.save3)
        else none)
      ∧ (∀ r, 4 ≤ r → kget? th.rte.regs r = kget? th.regs r)
      ∧ th.rte.preds = th.trap.tpred % 256 ∧ th.rte.sysMode = th.trap.pmode ∧ th.rte.trap.tactive = false
      ∧ (th.trap.tword = 0 → th.rte.pc = th.trap.tpc % 2 ^ 64 ∧ th.rte.word = 0 ∧ th.rte.clause = none)
      ∧ (th.trap.tword ≠ 0 → th.rte.pc = ((th.trap.tpc : Int) - 4 * th.trap.tword).emod (2 ^ 64) ∧ th.rte.word = th.trap.tword)))
  ∧ (∀ (th : Thread) cause i0 i1 i2 i3 words v, risingFrom 0 th.regs = true → th.trap.tactive = false →
    th.preds < 256 → th.pc < 2 ^ 64 → (th.clause = none → th.word = 0) →
    let r := (th.enterHandler cause i0 i1 i2 i3 words v).rte
    (∀ g, kget? r.regs g = kget? th.regs g) ∧ r.preds = th.preds ∧ r.system = th.system
    ∧ r.pc = th.pc ∧ r.word = th.word
    ∧ (∀ c, th.clause = some c → th.word ≠ 0 → r.clause = some { header := 0, cls := c.cls, n := c.n, words := [], resumed := true }))

/-- R46, R407: every privileged word in user mode takes the exception PRIV with the word in %tinfo1, whatever its
operands. -/
def Obligations.PrivilegedWordsTrapInUserMode : Prop :=
  ∀ i, ((∃ sw, i = .rte sw) ∨ (∃ sw d n, i = .srd sw d n) ∨ (∃ sw d n, i = .swr sw d n) ∨ (∃ sw d a x m, i = .dtload sw d a x m)
      ∨ (∃ sw, i = .halt sw) ∨ (∃ sw a b x y, i = .errinj sw a b x y) ∨ (∃ sw d a b x y, i = .tlbinv sw d a b x y)
      ∨ (∃ sw d a b x y, i = .xbpark sw d a b x y) ∨ (∃ sw d a x, i = .xbwake sw d a x)) →
    ∀ s t th, passesInUserMode i s t th = true →
      exec i s = .next (trapSync (modThread s t (fun th => { th with wait := .ready })) t 0x03 0 (entryCtx s t th).iw 0 0)

/-- R415, R432: SRD reads the register its number names and SWR writes it; a number that is not listed, or a value
with a zero field set, is ILLEGAL_OP, reason 3, and a host register is PRIV. -/
def Obligations.SystemRegisterWords : Prop :=
  let bad := illegalInfos 3
  (∀ sw d i, sysReg i.toNat ≠ .unlisted → sysReg i.toNat ≠ .host → Runs (.srd sw d i) [] (fun _ => True) (fun k =>
      { st := setThread k.s k.t (k.th.seeRing k.s (sysReg i.toNat)), writes := [(d.toNat, wordN (sysRead k.s k.th (sysReg i.toNat)))] }))
  ∧ (∀ sw d i, sysReg i.toNat ≠ .unlisted → sysReg i.toNat ≠ .host → Runs (.swr sw d i) [⟨d.toNat, 1, false⟩]
      (fun k => (k.th.reg d.toNat).toNat &&& sysZero (sysReg i.toNat) = 0) (fun k =>
      { st := sysWrite k.s k.t k.th (sysReg i.toNat) (k.th.reg d.toNat) }))
  ∧ (∀ sw d i, sysReg i.toNat ≠ .unlisted → sysReg i.toNat ≠ .host → Traps (.swr sw d i) [⟨d.toNat, 1, false⟩]
      (fun k => (k.th.reg d.toNat).toNat &&& sysZero (sysReg i.toNat) ≠ 0) 0x01 bad)
  ∧ (∀ sw d i, sysReg i.toNat = .unlisted → Traps (.srd sw d i) [] (fun _ => True) 0x01 bad
      ∧ Traps (.swr sw d i) [⟨d.toNat, 1, false⟩] (fun _ => True) 0x01 bad)
  ∧ (∀ sw d i, sysReg i.toNat = .host → Traps (.srd sw d i) [] (fun _ => True) 0x03 (fun k => (0, k.iw, 0, 0))
      ∧ Traps (.swr sw d i) [⟨d.toNat, 1, false⟩] (fun _ => True) 0x03 (fun k => (0, k.iw, 0, 0)))
  ∧ sysReg 0x00 = .thread 0 ∧ sysReg 0x3C = .thread 0x3C ∧ sysReg 0x02 = .unlisted ∧ sysReg 0x40 = .memgroups ∧ sysReg 0x44 = .fmt
  ∧ sysReg 0x48 = .bypass ∧ sysReg 0x4C = .leasecfg ∧ sysReg 0x50 = .rebasecnt ∧ sysReg 0x54 = .tlock ∧ sysReg 0x58 = .errstat
  ∧ sysReg 0x5C = .host ∧ sysReg 0x6C = .host ∧ sysReg 0x70 = .unlisted ∧ sysReg 0xFF = .unlisted ∧ sysReg 0x100 = .qcfg 0
  ∧ sysReg 0x1FF = .qcfg 255 ∧ sysReg 0x200 = .wdog 0 ∧ sysReg 0x23F = .wdog 63 ∧ sysReg 0x240 = .unlisted
  ∧ sysReg 0x400 = .out 0 0 ∧ sysReg 0x5FC = .out 7 0x3C ∧ sysReg 0x600 = .ring 0 0 ∧ sysReg 0x67C = .ring 7 0xC ∧ sysReg 0x680 = .unlisted

/-- R413, R414, R84, R157: what a write of the trap registers, MEET and %fmt leaves for the next read, and SKIP. R413,
R414, R157, R81, R197, R247, R425: the register writes of the opcode table, for the thread that runs. A write of MEMGROUPS that
clears AUTO takes its own LIMIT (DEDUCED, log 74); a queue may be bound to seal 0 (DESIGN CHOICE, log 175), and one whose storage
is withheld is not bound (R420; DESIGN CHOICE, log 180). -/
def Obligations.ThreadRegisterWrites : Prop :=
  (∀ s t th, thread? s t = some th → ∀ w : Word,
    let after := fun r => thread? (sysWrite s t th r w) t
    (∀ n ∈ [0x0C, 0x10, 0x14, 0x18, 0x1C, 0x20, 0x24, 0x28, 0x04], (after (.thread n)).map (fun h => readTrapReg s h n) = some w.toNat)
    ∧ (∀ r < 4, (after (.thread (0x1C + 4 * r))).map (fun h => h.trap.tsmap.testBit r) = some true)
    ∧ (∀ n ∈ [0x00, 0x38, 0x3C], sysWrite s t th (.thread n) w = s)
    ∧ ((after (.thread 0x04)).map (fun h => h.trap.tword) = some 0)
    ∧ ((after (.thread 0x30)).map (fun h => h.meet.setWidth 32) = some w)
    ∧ ((after .fmt).map (fun h => h.fmt) = some (wordN (w.toNat / 2 ^ 12 % 2 * 2 ^ 12 + (if 5 ≤ w.toNat / 2 ^ 8 % 8 then 0
        else w.toNat / 2 ^ 8 % 8) * 2 ^ 8) ||| (th.fmt &&& 0x1F#32 &&& ~~~w)))
    ∧ (w.toNat / 2 ^ 25 % 2 = 0 → (after (.thread 0x2C)).map (fun h => (h.trap.tpc, h.trap.tword, h.trap.pmode, h.trap.tsmap, h.trap.tpred)) =
        some (th.trap.tpc, th.trap.tword, w.toNat / 2 ^ 12 % 2 == 1, w.toNat / 2 ^ 8 % 16, w.toNat % 256))
    ∧ (w.toNat / 2 ^ 25 % 2 = 1 → th.trap.skippable = true →
        (after (.thread 0x2C)).map (fun h => (h.trap.tpc, h.trap.tword, h.trap.skippable)) =
        some ((th.trap.tpc + 4 * th.trap.words) % 2 ^ 64,
          (if th.trap.tn < th.trap.tword + th.trap.words then 0 else th.trap.tword + th.trap.words), false)))
  ∧ ((∀ s t th w, s.cur = some t → thread? s t = some th →
      exec (.tpcWrite false w) s = .next (sysWrite s t th (.thread 0x04) w)
      ∧ (w.toNat &&& 0xFFF00000 = 0 → exec (.tpcWrite true w) s = .next (sysWrite s t th (.thread 0x08) w))
      ∧ exec (.meetWrite false w) s = .next (sysWrite s t th (.thread 0x30) w)
      ∧ (w.toNat &&& 0x7F000000 = 0 → exec (.meetWrite true w) s = .next (sysWrite s t th (.thread 0x34) w))
      ∧ (w.toNat &&& 0xF8000000 = 0 → exec (.tstatWrite w) s = .next (sysWrite s t th (.thread 0x2C) w))
      ∧ (w.toNat &&& 0xFFFFE8E0 = 0 → exec (.fmtWrite w) s = .next (sysWrite s t th .fmt w)))
  ∧ (∀ s c w, w.toNat &&& 0x7F000000 = 0 → ∃ s', exec (.memgroupsWrite c w) s = .next s'
      ∧ (core s' c).auto = (w.toNat / 2 ^ 31 % 2 == 1)
      ∧ (core s' c).limit = if w.toNat / 2 ^ 31 % 2 = 1 then (core s c).limit else max 1 (min 128 (w.toNat / 2 ^ 16 % 2 ^ 8)))
  ∧ (∀ s c w, w.toNat &&& 0xFFFFE000 = 0 → ∃ s', exec (.leasecfgWrite c w) s = .next s'
      ∧ (core s' c).lease = max 1 (min 4096 (w.toNat % 2 ^ 13)))
  ∧ (∀ s cluster q w, q < 256 → w.toNat &&& 0x7FFFFC00 = 0 → (queueOf s (256 * cluster + q)).entries = [] →
      (queueOf s (256 * cluster + q)).waiters = [] → ∃ s', exec (.qcfgWrite cluster q w) s = .next s'
      ∧ (queueOf s' (256 * cluster + q)).en = (w.toNat / 2 ^ 31 % 2 == 1 && !s.errors.quarantined.contains (0x0D, cluster, q)) ∧ (queueOf s' (256 * cluster + q)).sealId = w.toNat % 1024)
  ∧ (∀ s cluster q w, w.toNat &&& 0x7FFFFC00 = 0 → ((queueOf s (256 * cluster + q)).entries ≠ [] ∨ (queueOf s (256 * cluster + q)).waiters ≠ []) →
      exec (.qcfgWrite cluster q w) s = .next s)
  ∧ (∀ s q w, q < 64 → w.toNat &&& 0x40000000 = 0 → ∃ s', exec (.wdogWrite q w) s = .next s'
      ∧ wdog s' q = w.toNat / 2 ^ 31 % 2 * 2 ^ 31 + max 1 (w.toNat % 2 ^ 10) + max 1 (w.toNat / 2 ^ 10 % 2 ^ 10) * 2 ^ 10
          + max 1 (w.toNat / 2 ^ 20 % 2 ^ 10) * 2 ^ 20))

/-- R433, R47: DTLOAD stores the current table, or takes an image that passes R47 for the clauses that follow, or
leaves the table and writes the failing check's code and entry. R434: SEALQ reads the state, cause, thread count,
event count or latest record of the caller's seal, and of any seal in system mode; another seal is PRIV in user mode,
and an undefined selector is ILLEGAL_OP, reason 3, judged after PRIV (DEDUCED, log 121). -/
def Obligations.TablesAndSealQueries : Prop :=
  (∀ sw d a x,
    let block := fun (k : Ctx) (m : Bool) =>
      checkRange k.s k.t k.th k.iw (k.th.reg64 a.toNat) 2048 64 (if m then .store else .load) false [0x00, 0xF0] true
    (∀ as_, Runs (.dtload sw d a x true) [⟨a.toNat, 2, x⟩] (fun k => orderWaits k.s k.th = false ∧ block k true = .ok as_) (fun k =>
      { st := writeNow k.s k.t as_ (storedTable k.s k.th), writes := [(d.toNat, 0)] }))
    ∧ (∀ as_, Runs (.dtload sw d a x false) [⟨a.toNat, 2, x⟩] (fun k => orderWaits k.s k.th = false ∧ block k false = .ok as_
        ∧ tableCheckFrom 0 (imageEntries (readNow k.s k.t as_).1) = none) (fun k =>
      let es := imageEntries (readNow k.s k.t as_).1
      { st := modThread (measure (readNow k.s k.t as_).2 (.image es)) k.t (fun th => { th with nextTable := some (.image es) })
        writes := [(d.toNat, 0)] }))
    ∧ (∀ as_ c i, Runs (.dtload sw d a x false) [⟨a.toNat, 2, x⟩] (fun k => orderWaits k.s k.th = false ∧ block k false = .ok as_
        ∧ tableCheckFrom 0 (imageEntries (readNow k.s k.t as_).1) = some (c, i)) (fun k =>
      { st := (readNow k.s k.t as_).2, writes := [(d.toNat, wordN (c + i * 2 ^ 16))] })))
  ∧ (∀ sw d a x,
    let v := fun k : Ctx => (k.th.reg a.toNat).toNat
    let which := fun k : Ctx => if v k / 2 ^ 16 % 2 ^ 10 = 0 then k.th.sealId else v k / 2 ^ 16 % 2 ^ 10
    let ok := fun k : Ctx => k.th.system = true ∨ which k = k.th.sealId
    Runs (.sealq sw d a x) [⟨a.toNat, 1, x⟩] (fun k => ok k ∧ v k &&& 0xFC00FFF0 = 0 ∧ v k % 16 < 10) (fun k =>
      let val := wordN (sealqWord k.s (which k) (v k % 16))
      { st := k.s, launch := answerOn 5 d [val] })
    ∧ Traps (.sealq sw d a x) [⟨a.toNat, 1, x⟩] (fun k => ¬ ok k) 0x03 (fun k => (0, k.iw, 0, 0))
    ∧ Traps (.sealq sw d a x) [⟨a.toNat, 1, x⟩] (fun k => ok k ∧ (v k &&& 0xFC00FFF0 ≠ 0 ∨ 10 ≤ v k % 16)) 0x01
        (illegalInfos 3))

/-- R435, R436: HALT logs its event and holds the thread; a DBGCTL write with GO lets every halted thread of the seal
go on and touches no other. R437, R420, R422: ERRINJ detects an error in the entry its address names, now or at the
entry's next read. R438, R439, R181: TLBINV drops its seal's translations of one address or all at every station; a
TLBCTL GO write makes the device busy, and its completion drops what the write named and ends the busy state. -/
def Obligations.HaltsInjectionsAndInvalidations : Prop :=
  ((∀ sw, Runs (.halt sw) [] (fun _ => True) (fun k =>
      { st := logEvent k.s { kind := 6, sealId := k.th.sealId, index := coreOf k.s k.th * 2 ^ 22, syndrome := k.th.trap.cause }
        flow := .wait .halt }))
  ∧ (∀ s t th w, thread? s t = some th → ∃ s', exec (.dbgctl w) s = .next s'
      ∧ (w.toNat / 2 ^ 31 % 2 = 1 → th.wait = .halt → th.sealId = w.toNat % 1024 → thread? s' t = some th.wake)
      ∧ (w.toNat / 2 ^ 31 % 2 = 0 ∨ th.wait ≠ .halt ∨ th.sealId ≠ w.toNat % 1024 → thread? s' t = some th)))
  ∧ (∀ sw a b x y,
    let v := fun k : Ctx => (k.th.reg b.toNat).toNat
    let addr := fun k : Ctx => k.th.reg64 a.toNat
    ∀ u, Runs (.errinj sw a b x y) [⟨a.toNat, 2, x⟩, ⟨b.toNat, 1, y⟩]
      (fun k => (injWindows (v k % 32)).contains (selector (addr k)) = true ∧ v k < 2 ^ 7 ∧ (v k % 32 = 6 → addr k % 2 ^ 20 < 1024)
        ∧ injUnit k (v k % 32) (addr k) = .ok u
        ∧ (k.th.sealId = 0 ∨ unitSeal k.s u = 0 ∨ unitSeal k.s u = k.th.sealId)) (fun k =>
      { st := broughtIn u k.s
        after := fun s => if v k / 2 ^ 6 % 2 = 1
          then modErrors s (fun e => { e with deferred := e.deferred ++ [(u, v k / 2 ^ 5 % 2 == 1)] })
          else handleError s u (v k / 2 ^ 5 % 2 == 1) true }))
  ∧ ((∀ sw d a b x y s',
    let v := fun k : Ctx => (k.th.reg b.toNat).toNat
    let addr := fun k : Ctx => k.th.reg64 a.toNat
    let sl := fun k : Ctx => if v k / 2 ^ 16 % 2 ^ 10 = 0 then k.th.sealId else v k / 2 ^ 16 % 2 ^ 10
    Runs (.tlbinv sw d a b x y) [⟨a.toNat, 2, x⟩, ⟨b.toNat, 1, y⟩]
      (fun k => (sl k = k.th.sealId ∨ k.th.sealId = 0) ∧ v k % 4 < 2 ∧ v k &&& 0xFC00FFFC = 0
        ∧ (v k % 4 = 0 → windowFault (addr k) = none ∧ selector (addr k) = 0) ∧ k.publish = .ok s') (fun k =>
      { st := dropSealTlb s' (sl k) (if v k % 4 = 0 then some (addr k) else none)
        launch := answerOn 5 d [0] }))
  ∧ (∀ s x va sid e, e ∈ (station (dropSealTlb s x va) sid).tlb ↔ e ∈ (station s sid).tlb
      ∧ (e.sealId ≠ x ∨ ∃ a, va = some a ∧ e.page ≠ a / 2 ^ levelLo e.level))
  ∧ (∀ s (w : Word), w.toNat / 2 ^ 31 = 1 → w.toNat / 2 ^ 10 % 4 ≠ 3 → w.toNat / 2 ^ 12 % 2 ^ 19 = 0 → s.dev.tlbRun = none →
      ∃ s', exec (.tlbctl 0x68 w) s = .next s'
        ∧ s'.dev.tlbRun = some ⟨w.toNat / 2 ^ 10 % 4, w.toNat % 2 ^ 10, s.dev.valo + s.dev.vahi * 2 ^ 32⟩)
  ∧ (∀ s (w : Word), ∃ s₁ s₂, exec (.tlbctl 0x60 w) s = .next s₁ ∧ s₁.dev.valo = w.toNat
      ∧ exec (.tlbctl 0x64 w) s = .next s₂ ∧ s₂.dev.vahi = w.toNat % 2 ^ 20)
  ∧ (∀ s r, s.dev.tlbRun = some r → ∃ s', exec .tlbInvalidationComplete s = .next s' ∧ s'.dev.tlbRun = none
      ∧ ∀ sid e, e ∈ (station s' sid).tlb ↔ e ∈ (station s sid).tlb ∧ r.scope ≠ 2
          ∧ (e.sealId ≠ r.sealId ∨ (r.scope = 0 ∧ e.page ≠ r.va / 2 ^ levelLo e.level))))

/-- R23, R43, R72, R155: a word that only writes registers leaves each result in its register, the last one where a
register is written twice, unmaps the freed registers it does not write, keeps every other register and all else of
its thread, goes past itself, and changes no other thread, no memory and no unit. -/
def Obligations.RegisterWordsFrame : Prop :=
  ∀ (i : Instr) (k : Ctx) (frees : List Nat) (ws : List (Nat × Word)) (s : State) (t : Nat), thread? s t = some k.th →
    let h := wrote i k frees ws
    let s' := setThread s t h
    (∀ r, r ∉ ws.map (·.1) → r ∉ frees → kget? h.regs r = kget? k.th.regs r)
    ∧ (∀ r, r ∉ ws.map (·.1) → r ∈ frees → h.mapped r = false ∧ h.reg r = 0)
    ∧ (∀ pre r v post, ws = pre ++ (r, v) :: post → r ∉ post.map (·.1) → kget? h.regs r = some v)
    ∧ h.preds = k.th.preds ∧ h.ec = k.th.ec ∧ h.pend = k.th.pend ∧ h.meet = k.th.meet ∧ h.stack = k.th.stack ∧ h.fmt = k.th.fmt
    ∧ h.pts = k.th.pts ∧ h.trap = k.th.trap ∧ h.sysMode = k.th.sysMode ∧ h.flights = k.th.flights ∧ h.own = k.th.own
    ∧ h.held = k.th.held ∧ h.table = k.th.table ∧ h.callVals = k.th.callVals
    ∧ h.ext = {} ∧ h.wait = (if switchMarker i && !k.th.pend.isEmpty then .park else .ready)
    ∧ (∀ c, k.th.clause = some c → k.th.word < c.n → h.word = k.th.word + 1 ∧ h.clause = some c ∧ h.pc = k.th.pc)
    ∧ (∀ c, k.th.clause = some c → c.n ≤ k.th.word →
        h.word = 0 ∧ h.clause = none ∧ h.pc = (k.th.pc + 4 * (c.n + 1)) % 2 ^ 64)
    ∧ (∀ u, u ≠ t → thread? s' u = thread? s u) ∧ thread? s' t = some h
    ∧ s' = { s with threads := s'.threads }

/-- R26, R32, R72: a long-latency operation joins its thread's outstanding ones; its destinations are mapped and
pending and keep their values, its event counter rises by one, and no memory changes. -/
def Obligations.IssuedOperationsFrame : Prop :=
  ∀ (k : Ctx) (sw : Bool) (frees : List Nat) (l : Launch), thread? k.s k.t = some k.th →
    let s' := complete k sw frees { st := k.s, launch := some l }
    ∃ h, thread? s' k.t = some h
      ∧ (∀ r ∈ l.dests, h.mapped r = true ∧ h.pend.contains r = true)
      ∧ (∀ r, r ∉ frees → h.reg r = k.th.reg r)
      ∧ (∀ r, r ∉ l.dests → h.pend.contains r = k.th.pend.contains r)
      ∧ (l.ec < 6 → h.counter l.ec = k.th.counter l.ec + 1)
      ∧ (∀ c, c ≠ l.ec → h.counter c = k.th.counter c)
      ∧ (6 ≤ l.ec → h.ec = k.th.ec)
      ∧ h.flights = k.th.flights ++ [{ seq := k.th.seq, ec := l.ec, dests := l.dests, op := l.op, got := l.got, clauseNo := k.th.clauseNo, level := if l.ec < 6 then k.th.counter l.ec + 1 else 0, brings := l.brings }]
      ∧ h.preds = k.th.preds ∧ h.meet = k.th.meet ∧ h.fmt = k.th.fmt ∧ h.pts = k.th.pts ∧ h.trap = k.th.trap
      ∧ s'.mem = k.s.mem ∧ s'.weight = k.s.weight ∧ s'.teams = k.s.teams
      ∧ ∀ u, u ≠ k.t → thread? s' u = thread? k.s u

/-! ### Memory -/

/-- R208, R210, R211: a load or store that passes its checks, on this package, is issued on ec0 or ec1 with the
registers its size names; a generic word takes every window and the others their own. R210, R32: a load's result is
its bytes, low byte first, zero- or sign-extended below 32 bits; writing it ends the destinations' pending state and
lowers ec0, and no memory byte changes but what a private slice writes back to the backing areas of windows (R189). -/
def Obligations.LoadsAndStores : Prop :=
  (let here := fun a : Access => ∀ p o, a.loc ≠ .remote p o
  let loads := fun (i : Instr) (wins : List Nat) (t a : BitVec 6) (z : BitVec 3) (g e x : Bool) => ∀ acc, here acc →
    Runs i [⟨a.toNat, 2, x⟩] (fun k => memHeld k.th = false
        ∧ checkAccess k.s k.t k.th k.iw (k.addrM a) (2 ^ z.toNat) (2 ^ z.toNat) .load g wins true = .ok acc) (fun k =>
      { st := noteRegion k.s k.th acc
        launch := some { ec := 0, dests := range t.toNat (sizeRegs z), op := .load acc e } })
  let stores := fun (i : Instr) (wins : List Nat) (t a : BitVec 6) (z : BitVec 3) (g x : Bool) => ∀ acc, here acc →
    Runs i [⟨a.toNat, 2, x⟩, ⟨t.toNat, sizeRegs z, false⟩] (fun k => memHeld k.th = false
        ∧ checkAccess k.s k.t k.th k.iw (k.addrM a) (2 ^ z.toNat) (2 ^ z.toNat) .store g wins true = .ok acc) (fun k =>
      { st := noteRegion k.s k.th acc, launch := some { ec := 1, dests := [], op := .store acc (k.th.storeBytes t z) } })
  (∀ sw t a z g e x, loads (.ldg sw t a z g e x) [0x00, 0xE0, 0xF0, 0xF1, 0xF2, 0xF3] t a z g e x)
  ∧ (∀ sw t a z g e x, loads (.lds sw t a z g e x) [0xF0] t a z g e x)
  ∧ (∀ sw t a z g e x, loads (.ldp sw t a z g e x) [0xF2] t a z g e x)
  ∧ (∀ sw t a z g e x, loads (.ldc sw t a z g e x) [0xF1] t a z g e x)
  ∧ (∀ sw t a z e x, loads (.ldw sw t a z e x) [0xF3] t a z false e x)
  ∧ (∀ sw t a z g x, stores (.stg sw t a z g x) [0x00, 0xE0, 0xF0, 0xF1, 0xF2, 0xF3] t a z g x)
  ∧ (∀ sw t a z g x, stores (.sts sw t a z g x) [0xF0] t a z g x)
  ∧ (∀ sw t a z g x, stores (.stp sw t a z g x) [0xF2] t a z g x)
  ∧ (∀ sw t a z g x, stores (.stc sw t a z g x) [0xF1] t a z g x))
  ∧ ((∀ b : Byte, loadWords 1 true [b] = [b.signExtend 32] ∧ loadWords 1 false [b] = [b.setWidth 32])
  ∧ (∀ b c : Byte, loadWords 2 true [b, c] = [(c ++ b).signExtend 32] ∧ loadWords 2 false [b, c] = [(c ++ b).setWidth 32])
  ∧ (∀ (b c d e : Byte) sg, loadWords 4 sg [b, c, d, e] = [e ++ d ++ c ++ b])
  ∧ (∀ s t seq th f vs, flight? s t seq = some (th, f) → f.got = some vs → f.dests ≠ [] → f.dests.length = vs.length →
      th.evicted = false → f.dests.Nodup →
      ∃ s' h, exec (.resultWritten t seq none .whole) s = .next s' ∧ thread? s' t = some h
        ∧ (∀ j (p : j < f.dests.length) (q : j < vs.length), h.reg f.dests[j] = vs[j])
        ∧ (∀ r, r ∉ f.dests → h.reg r = th.reg r)
        ∧ (∀ r ∈ f.dests, (∀ g ∈ h.flights, r ∉ g.dests) → h.pend.contains r = false)
        ∧ (f.ec < 6 → h.counter f.ec = th.counter f.ec - 1)
        ∧ s'.mem = s.mem ∧ s'.weight = s.weight ∧ s'.teams = s.teams)
  ∧ (∀ s t seq th f acc sg off, flight? s t seq = some (th, f) → f.op = .load acc sg → f.parts = [] → acc.loc = .own t off → f.got = none →
      mayPerform th f = true → f.dests ≠ [] → f.dests.Nodup → th.evicted = false → s.errors.deferred = [] →
      f.dests.length = (loadWords acc.len sg (th.own.readBytes off acc.len)).length →
      ∃ s' h, exec (.resultWritten t seq none .whole) s = .next s' ∧ thread? s' t = some h
        ∧ f.dests.map h.reg = loadWords acc.len sg (th.own.readBytes off acc.len) ∧ h.own = th.own
        ∧ (∀ a, offBacking s a → s'.mem.read a = s.mem.read a) ∧ s'.weight = s.weight ∧ s'.teams = s.teams))

/-- R175 to R177, R209: the first check of an access that fails names the trap: the selector, the offset's reserved
bits, the weight store's write protection, the word's windows, alignment, and the extent of the allocation or the
private window. -/
def Obligations.AccessChecksInOrder : Prop :=
  ∀ s t th iw addr len align kind strong wins locks tm, team? s th.team = some tm →
    let go := checkAccess s t th iw addr len align kind strong wins locks
    let sel := addr / 2 ^ 56 % 256
    let lo := wordN (addr % 2 ^ 32)
    let hi := wordN (addr / 2 ^ 32 % 2 ^ 32)
    let violation := fun reason : Nat => (.error (.trap 0x11 (wordN (reason * 256 + sel)) lo hi iw) : Except Stop Access)
    (sel ∉ [0x00, 0xE0, 0xF0, 0xF1, 0xF2, 0xF3] → go = violation 1)
    ∧ (sel = 0xF0 → addr / 2 ^ 18 % 2 ^ 38 ≠ 0 → go = violation 2)
    ∧ (sel = 0xF3 → addr / 2 ^ 30 % 2 ^ 26 = 0 → kind = .store → go = .error (.trap 0x16 lo hi 0 iw))
    ∧ (windowFault addr = none → sel ∉ wins → ¬ (sel = 0xF3 ∧ (kind = .store ∨ kind = .atomic)) → go = violation 3)
    ∧ (windowFault addr = none → sel ∈ wins → ¬ (sel = 0xF3 ∧ (kind = .store ∨ kind = .atomic)) → align ≠ 0 → addr % align ≠ 0 →
        go = .error (.trap 0x12 lo hi (wordN align) iw))
    ∧ (windowFault addr = none → sel ∈ wins → addr % align = 0 → align ≠ 0 → sel = 0xF2 → 1024 * tm.privKb < addr % 2 ^ 20 + len →
        go = violation 6)
    ∧ (windowFault addr = none → sel ∈ wins → addr % align = 0 → align ≠ 0 → sel = 0xF2 → addr % 2 ^ 20 + len ≤ 1024 * tm.privKb →
        go = .ok { loc := .own t (addr % 2 ^ 20), len := len, strong := strong, cattr := 0, pageW := true, pageSeal := th.sealId })
    ∧ (windowFault addr = none → sel ∈ wins → addr % align = 0 → align ≠ 0 → sel = 0xF0 → tm.spadSize < addr % 2 ^ 18 + len →
        go = .error (.trap 0x13 (wordN (max (addr % 2 ^ 18) tm.spadSize % 2 ^ 18)) (wordN tm.spadSize) (wordN len) iw))

/-- R211, R194, R3: a store performed whole at its physical address puts its bytes there, low byte first in ascending order,
and changes no other byte of LPDDR, nothing of the weight store or of any team, and lowers the thread's store counter.
R211, R189: a store performed in the thread's private window changes its bytes there, and no memory but what the private
slices write back to the backing areas of windows. -/
def Obligations.PerformedStores : Prop :=
  (∀ s t seq th f acc bs pa, flight? s t seq = some (th, f) → f.op = .store acc bs → acc.loc = .glob pa → acc.len = bs.length →
    f.parts = [] → f.got = none → mayPerform th f = true → inRefresh s f = false → s.mem.wf = true →
    ∃ s', exec (.storePerformed t seq .whole) s = .next s'
      ∧ (∀ j (h : j < bs.length), s'.mem.read (pa + j) = bs[j])
      ∧ (∀ a, a < pa ∨ pa + bs.length ≤ a → s'.mem.read a = s.mem.read a)
      ∧ s'.weight = s.weight ∧ s'.sched = s.sched ∧ s'.teams = s.teams
      ∧ (∀ h, thread? s' t = some h → (f.ec < 6 → h.counter f.ec = th.counter f.ec - 1) ∧ h.regs = th.regs
          ∧ h.own = th.own ∧ ∀ g ∈ h.flights, g.seq ≠ f.seq))
  ∧ (∀ s t seq th f acc bs off, flight? s t seq = some (th, f) → f.op = .store acc bs → acc.loc = .own t off → acc.len = bs.length →
    f.parts = [] → f.got = none → mayPerform th f = true → th.own.wf = true →
    ∃ s' h, exec (.storePerformed t seq .whole) s = .next s' ∧ thread? s' t = some h
      ∧ (∀ j (q : j < bs.length), h.own.read (off + j) = bs[j])
      ∧ (∀ a, a < off ∨ off + bs.length ≤ a → h.own.read a = th.own.read a)
      ∧ h.regs = th.regs ∧ (∀ a, offBacking s a → s'.mem.read a = s.mem.read a) ∧ s'.weight = s.weight ∧ s'.teams = s.teams
      ∧ ∀ u, u ≠ t → thread? s' u = thread? s u)

/-- R217 to R230: ATOM, ATOMC, ATOMF, XACC, XACCP, XRD and XCLR issue one update at its home on ec0 or ec1, and what
the update leaves and answers. R217, R222 to R224, R227, R228, R230: one performed on LPDDR leaves the new bytes at its address,
answers the old value, and changes no other byte; ATOMC stores its new value where the old one equals the compare value, ATOMF
the sum, XACC the cell with the addends, and XCLR zeros. R229: XRD answers the cell's value and changes no byte. -/
def Obligations.AtomicsPerformOnce : Prop :=
  (let here := fun a : Access => ∀ p o, a.loc ≠ .remote p o
  let send := fun (i : Instr) (srcs : List Src) (pre : Ctx → Prop) (wins : List Nat) (a : BitVec 6) (len : Nat) (kind : AccKind)
      (ec : Nat) (dests : List Nat) (op : Ctx → AtomOp) => ∀ acc, here acc →
    Runs i srcs (fun k => pre k ∧ memHeld k.th = false
        ∧ checkAccess k.s k.t k.th k.iw (k.th.reg64 a.toNat) len len kind true wins true = .ok acc) (fun k =>
      { st := noteRegion k.s k.th acc, launch := some { ec := ec, dests := dests, op := .atom acc (op k) } })
  (∀ sw d a b x y m, send (.atom sw d a b x y m) [⟨a.toNat, 2, x⟩, ⟨b.toNat, if m then 2 else 1, y⟩, ⟨d.toNat, 1, false⟩]
      (fun k => (k.th.reg d.toNat).toNat ≤ 10) [0x00, 0xE0, 0xF0, 0xF1, 0xF2] a (if m then 8 else 4) .atomic 0
      (if m then [d.toNat, d.toNat + 1] else [d.toNat])
      (fun k => .int (k.th.reg d.toNat).toNat (if m then 64 else 32) (if m then k.th.reg64 b.toNat else (k.th.reg b.toNat).toNat)))
  ∧ (∀ sw d a b x y, send (.atomc sw d a b x y false) [⟨a.toNat, 2, x⟩, ⟨b.toNat, 1, y⟩] (fun _ => True)
      [0x00, 0xE0, 0xF0, 0xF1, 0xF2] a 4 .atomic 0 [d.toNat]
      (fun k => .cas 32 (k.th.reg b.toNat).toNat (k.th.reg k.cReg).toNat))
  ∧ (∀ sw d a b x y acc, here acc → Runs (.atomc sw d a b x y true) [⟨a.toNat, 2, x⟩, ⟨b.toNat, 2, y⟩]
      (fun k => k.cReg % 2 = 0 ∧ k.pendingSrc [⟨k.cReg, 2, false⟩] = none ∧ memHeld k.th = false
        ∧ checkAccess k.s k.t k.th k.iw (k.th.reg64 a.toNat) 8 8 .atomic true [0x00, 0xE0, 0xF0, 0xF1, 0xF2] true = .ok acc) (fun k =>
      { st := noteRegion k.s k.th acc, moreFrees := if k.lc then [k.cReg + 1] else []
        launch := some { ec := 0, dests := [d.toNat, d.toNat + 1], op := .atom acc (.cas 64 (k.th.reg64 b.toNat) (k.th.reg64 k.cReg)) } }))
  ∧ (∀ sw d a b x y m, send (.atomf sw d a b x y m) [⟨a.toNat, 2, x⟩, ⟨b.toNat, 1, y⟩] (fun _ => True)
      [0x00, 0xE0, 0xF0, 0xF1, 0xF2] a 4 .atomic 0 [d.toNat] (fun k => .fadd m (k.th.reg b.toNat).toNat))
  ∧ (∀ sw a b x y, send (.xacc sw a b x y) [⟨a.toNat, 2, x⟩, ⟨b.toNat, 1, y⟩] (fun _ => True) [0x00, 0xE0, 0xF0] a 64 .update 1 []
      (fun k => .xacc [(k.th.reg b.toNat).toNat]))
  ∧ (∀ sw a b x y, send (.xaccp sw a b x y) [⟨a.toNat, 2, x⟩, ⟨b.toNat, 2, y⟩] (fun _ => True) [0x00, 0xE0, 0xF0] a 64 .update 1 []
      (fun k => .xacc [(k.th.reg b.toNat).toNat, (k.th.reg (b.toNat + 1)).toNat]))
  ∧ (∀ sw d a x m, send (.xrd sw d a x m) [⟨a.toNat, 2, x⟩] (fun _ => True) [0x00, 0xE0, 0xF0] a 64 .load 0
      (if m then [d.toNat, d.toNat + 1] else [d.toNat]) (fun k => .xrd k.fmode m))
  ∧ (∀ sw a x, send (.xclr sw a x) [⟨a.toNat, 2, x⟩] (fun _ => True) [0x00, 0xE0, 0xF0] a 64 .put 1 [] (fun _ => .xclr))
  ∧ (∀ w old v, old < 2 ^ w → v < 2 ^ w → atomNew 0 w old v = (old + v) % 2 ^ w
      ∧ (atomNew 1 w old v = if sx old w ≤ sx v w then old else v) ∧ (atomNew 2 w old v = if sx v w ≤ sx old w then old else v)
      ∧ atomNew 3 w old v = min old v
      ∧ atomNew 4 w old v = max old v ∧ atomNew 5 w old v = old &&& v ∧ atomNew 6 w old v = old ||| v
      ∧ atomNew 7 w old v = old ^^^ v ∧ atomNew 8 w old v = v ∧ (atomNew 9 w old v = if v ≤ old then 0 else old + 1)
      ∧ (atomNew 10 w old v = if old = 0 ∨ v < old then v else old - 1)))
  ∧ (∀ s t seq th f acc op w v pa, flight? s t seq = some (th, f) → f.op = .atom acc (.int op w v) → acc.loc = .glob pa → w = 8 * acc.len →
    f.got = none → f.dests ≠ [] → mayPerform th f = true → inRefresh s f = false → s.mem.wf = true →
    let old := leNat (s.mem.readBytes pa acc.len)
    ∃ s' h, exec (.atomicPerformed t seq) s = .next s' ∧ thread? s' t = some h
      ∧ s'.mem.readBytes pa acc.len = leBytes acc.len (atomNew op w old v)
      ∧ (∀ a, a < pa ∨ pa + acc.len ≤ a → s'.mem.read a = s.mem.read a)
      ∧ (∀ g ∈ h.flights, g.seq = seq → g.got = some (natWords (w / 32) old)) ∧ h.regs = th.regs)
  ∧ (∀ s t seq th f acc op pa, flight? s t seq = some (th, f) → f.op = .atom acc op → op.loads = false → acc.loc = .glob pa →
    f.got = none → mayPerform th f = true → inRefresh s f = false → s.mem.wf = true →
    let r := atomStep op (s.mem.readBytes pa acc.len)
    r.1.length = acc.len → ∃ s' h, exec (.atomicPerformed t seq) s = .next s' ∧ thread? s' t = some h
      ∧ s'.mem.readBytes pa acc.len = r.1 ∧ (∀ a, a < pa ∨ pa + acc.len ≤ a → s'.mem.read a = s.mem.read a)
      ∧ (f.dests ≠ [] → ∀ g ∈ h.flights, g.seq = seq → g.got = some r.2)
      ∧ (f.dests = [] → ∀ g ∈ h.flights, g.seq ≠ seq) ∧ h.regs = th.regs)
  ∧ (∀ s t seq th f acc mode pair pa, flight? s t seq = some (th, f) → f.op = .atom acc (.xrd mode pair) → acc.loc = .glob pa →
    f.got = none → f.dests ≠ [] → mayPerform th f = true → inRefresh s f = false →
    ∃ s' h, exec (.atomicPerformed t seq) s = .next s' ∧ thread? s' t = some h ∧ s'.mem = s.mem ∧ h.regs = th.regs
      ∧ ∀ g ∈ h.flights, g.seq = seq → g.got = some (xrdResult mode pair (cellValue (cellOf (s.mem.readBytes pa acc.len)))))
  ∧ (∀ w cmp new bs, atomStep (.cas w cmp new) bs =
      (leBytes (w / 8) (if leNat bs = cmp then new else leNat bs), natWords (w / 32) (leNat bs)))
  ∧ (∀ v bs, atomStep (.fadd false v) bs =
      (leBytes 4 (fAdd fp32 modeRNE (rd32 (leNat bs)) (rd32 v)).1, natWords 1 (leNat bs)))
  ∧ (∀ v bs, let half := fun i => (fAdd bf16 modeRNE (bf16.read (leNat bs / 2 ^ (16 * i) % 2 ^ 16)) (bf16.read (v / 2 ^ (16 * i) % 2 ^ 16))).1
      atomStep (.fadd true v) bs = (leBytes 4 (half 0 + 2 ^ 16 * half 1), natWords 1 (leNat bs)))
  ∧ (∀ vs bs, atomStep (.xacc vs) bs = (cellBytes (vs.foldl cellAdd (cellOf bs)), []))
  ∧ (∀ bs, atomStep .xclr bs = (List.replicate 64 0, []))

/-- R225, R226, R145, R229: an exact cell adds every finite FP32 value exactly, in any order, until it overflows; it flags
NaN and the infinities and never rounds. XRD rounds the cell's value once in its mode, and the pair form gives the nearest value
and the rounded rest, whose exact zero is −0 under RD (DESIGN CHOICE, log 59). -/
def Obligations.ExactCellsAddExactly : Prop :=
  (∀ c x n m e, rd32 x = .fin n m e → -(2 ^ 319) ≤ c.x + (if n then -(m : Int) else m) * 2 ^ (e + 149).toNat →
      c.x + (if n then -(m : Int) else m) * 2 ^ (e + 149).toNat < 2 ^ 319 →
      cellAdd c x = { c with x := c.x + (if n then -(m : Int) else m) * 2 ^ (e + 149).toNat })
  ∧ (∀ c x s, rd32 x = .nan s → cellAdd c x = { c with flags := c.flags ||| 1 })
  ∧ (∀ c x, rd32 x = .inf false → cellAdd c x = { c with flags := c.flags ||| 2 })
  ∧ (∀ c x, rd32 x = .inf true → cellAdd c x = { c with flags := c.flags ||| 4 })
  ∧ (∀ x f, -(2 ^ 319) ≤ x → x < 2 ^ 319 → f < 16 → cellOf (cellBytes ⟨x, f⟩) = ⟨x, f⟩)
  ∧ (∀ mode pair, xrdResult mode pair (.nan false) = if pair then [0x7FC00000#32, 0] else [0x7FC00000#32])
  ∧ (∀ x, cellValue ⟨x, 1⟩ = .nan false ∧ cellValue ⟨x, 2⟩ = .inf false ∧ cellValue ⟨x, 4⟩ = .inf true ∧ cellValue ⟨x, 6⟩ = .nan false
      ∧ cellValue ⟨x, 8⟩ = .nan false)
  ∧ (∀ mode n, xrdResult mode false (.inf n) = [wordN (fp32.inf n)] ∧ xrdResult mode true (.inf n) = [wordN (fp32.inf n), 0])
  ∧ (∀ mode x, xrdResult mode false (cellValue ⟨x, 0⟩) = [wordN (fp32.round mode false false ⟨x, -149⟩ {}).1])
  ∧ (∀ mode x, let near := (fp32.round modeRNE false (decide (x < 0)) ⟨x, -149⟩ {}).1
      xrdResult mode true (cellValue ⟨x, 0⟩) = [wordN near,
        if (rd32 near).isInf then 0 else wordN (fp32.round mode false (mode == modeRD) (dySub ⟨x, -149⟩ (rd32 near).dy) {}).1])

/-- R231, R232: after FENCEW no later access is performed while one before it is not, and FENCE also holds its thread until its
commands are registered. R213 to R216: PREF issues a prefetch on ec1 for any address of its windows that may be named;
PIN and UNPIN answer 0 and change the line's pin, or the code of the reason why not (the alignment they ask is DEDUCED, log 46,
and the set of a line PRESUMED, log 40). R181, R182, R194, R195: a walk
that ends at a leaf enters its translation and wakes the threads attached to it; an expired copy is dropped; a
resident thread's logical time moves on by one in 64 ACLK cycles. -/
def Obligations.FencesPinsAndMemoryEvents : Prop :=
  ((∀ sw, Runs (.fencew sw) [] (fun _ => True) (fun k => { st := setThread k.s k.t { k.th with fencew := k.th.seq } }))
  ∧ (∀ th f g, g ∈ th.flights → g.open_ = true → g.seq < th.fencew → th.fencew ≤ f.seq → mayPerform th f = false)
  ∧ (∀ sw, Runs (.fence sw) [] (fun k => k.th.unreg = []) (fun k => { st := setThread k.s k.t { k.th with fencew := k.th.seq } }))
  ∧ (∀ sw, Runs (.fence sw) [] (fun k => k.th.unreg ≠ []) (fun k =>
      { st := setThread k.s k.t { k.th with fencew := k.th.seq }, flow := .wait (.fence k.th.unreg) }))
  ∧ (∀ s t th cmd, thread? s t = some th → th.wait = .fence [cmd] → (thread? (registered s t cmd) t).map (·.wait) =
      some (if th.parkAfter && !th.pend.isEmpty then .park else .ready)))
  ∧ (let answer := fun (t : BitVec 6) (v : Word) => answerOn 0 t [v]
  let nothing : Access := { loc := .remote 0 0, len := 1, strong := false, cattr := 1, pageW := false, pageSeal := 0 }
  let here := fun (k : Ctx) (a : BitVec 6) => windowFault (k.addrM a) = none
    ∧ (selector (k.addrM a) = 0x00 ∨ (selector (k.addrM a) = 0xE0 ∧ domPkg (k.addrM a) = k.s.domain.pkg))
  let away := fun (k : Ctx) (a : BitVec 6) (m : Bool) => selector (k.addrM a) = 0xE0 ∧ domPkg (k.addrM a) ≠ k.s.domain.pkg
    ∧ memberPackage k.s (domPkg (k.addrM a)) = m
  let st := fun k : Ctx => stationOf (coreOf k.s k.th)
  let pin := fun (k : Ctx) (z : BitVec 3) (l : Nat) => pinOf k.s z.toNat (st k) l
  let may := fun (k : Ctx) (e : TlbEntry) => leafDenies e.entry k.th.sealId .load = none ∧ ptePinOk e.entry = true
  let denied := fun (k : Ctx) (a : BitVec 6) (r : Nat) => (wordN (r * 2 ^ 8), wordN (k.addrM a % 2 ^ 32), wordN (k.addrM a / 2 ^ 32 % 2 ^ 32), k.iw)
  (∀ sw a z x acc s', Runs (.pref sw a z x) [⟨a.toNat, 2, x⟩]
      (fun k => here k a ∧ prefAccess k.s k.th (k.addrM a) z.toNat = some (acc, s')) (fun _ =>
      { st := s', launch := some { ec := 1, dests := [], op := .prefetch acc z.toNat } }))
  ∧ (∀ sw a z x, Runs (.pref sw a z x) [⟨a.toNat, 2, x⟩]
      (fun k => (here k a ∧ prefAccess k.s k.th (k.addrM a) z.toNat = none) ∨ away k a false) (fun k =>
      { st := k.s, launch := some { ec := 1, dests := [], op := .prefetch nothing z.toNat } }))
  ∧ (∀ sw a z x, Runs (.pref sw a z x) [⟨a.toNat, 2, x⟩] (fun k => away k a true) (fun k =>
      let off := domOff (k.addrM a) / 128 * 128
      { st := (openRemote k.s (.prefetch k.t k.th.gen k.th.seq z.toNat) k.th.sealId (domPkg (k.addrM a)) off 128 k.th.pts [] none false).2
        launch := some { ec := 1, dests := [], op := .prefetch { nothing with loc := .remote (domPkg (k.addrM a)) off, len := 128 } z.toNat } }))
  ∧ (∀ sw t a z x e, Runs (.pin sw t a z x) [⟨a.toNat, 2, x⟩]
      (fun k => pinEntry k (k.addrM a) = .ok e ∧ may k e ∧ pin k z (e.line (k.addrM a)) = none
        ∧ setFull k.s z.toNat (st k) (e.line (k.addrM a)) = false) (fun k =>
      let l := e.line (k.addrM a)
      { st := pinLine (modLines k.s (fun v => { v with pins := v.pins ++ [{ level := z.toNat, station := st k, line := l, sealId := k.th.sealId }] }))
          k z.toNat l (pteCattr e.entry)
        launch := answer t 0 }))
  ∧ (∀ s (k : Ctx) l, (∃ c ∈ (pinLine s k 0 l 0).lines.copies, c.place = 320 + stationOf (coreOf s k.th) ∧ c.line = l
        ∧ c.data = s.mem.readBytes (128 * l) 128) ∧ (pinLine s k 0 l 0).mem = s.mem ∧ (pinLine s k 0 l 0).threads = s.threads)
  ∧ (∀ sw t a z x e, Runs (.pin sw t a z x) [⟨a.toNat, 2, x⟩]
      (fun k => pinEntry k (k.addrM a) = .ok e ∧ may k e ∧ pin k z (e.line (k.addrM a)) = none
        ∧ setFull k.s z.toNat (st k) (e.line (k.addrM a)) = true) (fun k => { st := k.s, launch := answer t 3 }))
  ∧ (∀ sw t a z x e p, Runs (.pin sw t a z x) [⟨a.toNat, 2, x⟩]
      (fun k => pinEntry k (k.addrM a) = .ok e ∧ may k e ∧ pin k z (e.line (k.addrM a)) = some p) (fun k =>
      { st := k.s, launch := answer t (if p.sealId = k.th.sealId then 1 else 2) }))
  ∧ (∀ sw t a z x e r, Traps (.pin sw t a z x) [⟨a.toNat, 2, x⟩]
      (fun k => pinEntry k (k.addrM a) = .ok e ∧ leafDenies e.entry k.th.sealId .load = some r) 0x11 (fun k => denied k a r))
  ∧ (∀ sw t a z x e, Traps (.pin sw t a z x) [⟨a.toNat, 2, x⟩]
      (fun k => pinEntry k (k.addrM a) = .ok e ∧ leafDenies e.entry k.th.sealId .load = none ∧ ptePinOk e.entry = false) 0x11
      (fun k => denied k a 4))
  ∧ (∀ sw t a z x e p, Runs (.unpin sw t a z x) [⟨a.toNat, 2, x⟩]
      (fun k => pinEntry k (k.addrM a) = .ok e ∧ pin k z (e.line (k.addrM a)) = some p ∧ p.sealId = k.th.sealId) (fun k =>
      { st := modLines k.s (fun v => { v with pins := v.pins.filter (· != p) }), launch := answer t 0 }))
  ∧ (∀ sw t a z x e p, Runs (.unpin sw t a z x) [⟨a.toNat, 2, x⟩]
      (fun k => pinEntry k (k.addrM a) = .ok e ∧ pin k z (e.line (k.addrM a)) = some p ∧ p.sealId ≠ k.th.sealId) (fun k =>
      { st := k.s, launch := answer t 2 }))
  ∧ (∀ sw t a z x e, Runs (.unpin sw t a z x) [⟨a.toNat, 2, x⟩]
      (fun k => pinEntry k (k.addrM a) = .ok e ∧ pin k z (e.line (k.addrM a)) = none) (fun k =>
      { st := k.s, launch := answer t 1 })))
  ∧ ((∀ s st walk w level e pa, (station s st).walks.find? (fun v => v.id == walk) = some w → w.stale = false →
      walkTables s w.sealId w.va = .leaf level e pa → lostEntries s 0x12 st < 4096 → ∃ s', exec (.pageWalkComplete st walk) s = .next s'
        ∧ ({ sealId := w.sealId, level := level, page := w.va / 2 ^ levelLo level, entry := e } : TlbEntry) ∈ (station s' st).tlb
        ∧ (∀ v ∈ (station s' st).walks, v.id ≠ w.id)
        ∧ (risingFrom 0 s.threads = true → ∀ x ∈ w.threads, ∀ th, thread? s x.1 = some th →
            (thread? s' x.1).map (fun h => (h.wait, h.word, h.regs)) = some (.ready, th.word, th.regs)))
  ∧ (∀ s place line cp, s.lines.copies.find? (fun c => c.place == place && c.line == line) = some cp →
      (cp.expiry ≤ s.aclk ∨ pinnedAt s place line = false) → ∃ s', exec (.leaseExpiry place line) s = .next s' ∧ s'.mem = s.mem ∧ s'.threads = s.threads
        ∧ ∀ c, c ∈ s'.lines.copies ↔ c ∈ s.lines.copies ∧ ¬ (c.place = place ∧ c.line = line))
  ∧ (∀ s place line cp, s.lines.copies.find? (fun c => c.place == place && c.line == line) = some cp → s.aclk < cp.expiry →
      pinnedAt s place line = true → exec (.leaseExpiry place line) s = .next s)
  ∧ (∀ s t th, thread? s t = some th → th.evicted = false → th.selfAt + 64 ≤ s.aclk →
      exec (.ptsSelfAdvance t) s = .next (setThread s t { th with pts := th.pts + 1, selfAt := th.selfAt + 64 }))
  ∧ (∀ s t th, thread? s t = some th → s.aclk < th.selfAt + 64 → exec (.ptsSelfAdvance t) s = .next s))

/-! ### Synchronisation -/

/-- R235 to R238: BAR and BARA arrive at their barrier in its current generation, BAR waiting for the next one and
BARA writing the generation's number; BARW waits for a generation that is current and takes the logical time of one
that has passed; an arrival that R236 refuses is ILLEGAL_OP, reason 3, and a full generation advances and lets its
waiters go on. The last arrival lets a thread that waits at BAR go on, with the largest logical time the generation
brought. -/
def Obligations.TeamBarriers : Prop :=
  ((∀ sw i r tm s', Runs (.bar sw i r) [] (fun k => team? k.s k.th.team = some tm ∧ barrierRefuses tm k.th k.t i.toNat r.toNat = false
        ∧ k.publish = .ok s') (fun k =>
      { st := s', flow := .wait (.barrier i.toNat (tm.barrier i.toNat).gen)
        after := fun s => barrierArrive s k.t { k.th with pts := ptsOf s k.t } i.toNat r.toNat }))
  ∧ (∀ sw d i r tm s', Runs (.bara sw d i r) [] (fun k => team? k.s k.th.team = some tm
        ∧ barrierRefuses tm k.th k.t i.toNat r.toNat = false ∧ k.publish = .ok s') (fun k =>
      { st := s', writes := [(d.toNat, wordN (tm.barrier i.toNat).gen)]
        after := fun s => barrierArrive s k.t { k.th with pts := ptsOf s k.t } i.toNat r.toNat }))
  ∧ (∀ sw i r tm, Traps (.bar sw i r) [] (fun k => team? k.s k.th.team = some tm
        ∧ barrierRefuses tm k.th k.t i.toNat r.toNat = true) 0x01 (illegalInfos 3))
  ∧ (∀ sw a i x tm s', Runs (.barw sw a i x) [⟨a.toNat, 1, x⟩] (fun k => team? k.s k.th.team = some tm
        ∧ (tm.barrier i.toNat).gen = (k.th.reg a.toNat).toNat ∧ k.publish = .ok s') (fun k =>
      { st := s', flow := .wait (.barrier i.toNat (k.th.reg a.toNat).toNat) }))
  ∧ (∀ sw a i x tm s', Runs (.barw sw a i x) [⟨a.toNat, 1, x⟩] (fun k => team? k.s k.th.team = some tm
        ∧ (tm.barrier i.toNat).gen ≠ (k.th.reg a.toNat).toNat ∧ genPassed (tm.barrier i.toNat).gen (k.th.reg a.toNat).toNat = true
        ∧ k.publish = .ok s') (fun k => { st := modThread s' k.t (fun th => th.takePts (tm.barrier i.toNat).donePts) }))
  ∧ (∀ sw a i x tm, Runs (.barw sw a i x) [⟨a.toNat, 1, x⟩] (fun k => team? k.s k.th.team = some tm
        ∧ (tm.barrier i.toNat).gen ≠ (k.th.reg a.toNat).toNat ∧ genPassed (tm.barrier i.toNat).gen (k.th.reg a.toNat).toNat = false)
      (fun k => { st := k.s }))
  ∧ (∀ k : Ctx, orderWaits k.s k.th = false → k.publish = .ok (flush k.s k.t))
  ∧ (∀ s t th tm id roles, team? s th.team = some tm → risingFrom 0 s.teams = true →
      ∃ s', barrierArrive s t th id roles = s' ∧
        let b := tm.barrier id
        let full := (teamThreads s th.team).all (fun p => !(tm.maskOf roles).testBit p.2.role || (b.arrived ++ [t]).contains p.1)
        (team? s' th.team).map (fun x => ((x.barrier id).gen, (x.barrier id).arrived)) =
          some (if full then ((b.gen + 1) % 2 ^ 32, []) else (b.gen, b.arrived ++ [t]))
        ∧ ((∀ p ∈ s.threads, p.2.evicted = false) → s'.mem = s.mem)))
  ∧ (∀ s t th h tm id roles, team? s th.team = some tm → thread? s t = some h → h.team = th.team →
      h.wait = .barrier id (tm.barrier id).gen →
      (teamThreads s th.team).all (fun p => !(tm.maskOf roles).testBit p.2.role || ((tm.barrier id).arrived ++ [t]).contains p.1) = true →
      thread? (barrierArrive s t th id roles) t =
        some (h.wake.takePts (max (max (tm.barrier id).pts th.pts) (tm.barrier id).donePts)))

/-- R239 to R246: ARM sets a word's target, or clears ARMED, and answers 1 where its count is not 0; ARRV adds to the
word; ARWAIT waits for a generation that is current, else writes the current one; ARREAD reads the word's four fields.
R240, R241: an addition to an armed word that reaches its target advances the generation and empties the count; one
below the target, or to a word that is not armed, only counts. -/
def Obligations.Arrivals : Prop :=
  ((∀ sw d a b x y id tm w s', Runs (.arm sw d a b x y false) [⟨a.toNat, 2, x⟩, ⟨b.toNat, 1, y⟩]
      (fun k => k.th.reg b.toNat ≠ 0 ∧ arrivalOf k (k.th.reg64 a.toNat) = .ok (id, tm, w) ∧ k.publish = .ok s') (fun k =>
      let r := armStep (arrRead tm w.off) false (k.th.reg b.toNat).toNat k.th.tid
      { st := armWord s' k.t id w.off r.2, launch := answerOn 5 d [wordN r.1] }))
  ∧ (∀ sw d a b x y id tm w s', Runs (.arm sw d a b x y true) [⟨a.toNat, 2, x⟩]
      (fun k => arrivalOf k (k.th.reg64 a.toNat) = .ok (id, tm, w) ∧ k.publish = .ok s') (fun k =>
      let r := armStep (arrRead tm w.off) true (k.th.reg b.toNat).toNat k.th.tid
      { st := armWord s' k.t id w.off r.2, launch := answerOn 5 d [wordN r.1] }))
  ∧ (∀ s t tmid off w tm, team? s tmid = some tm → s.errors.deferred = [] → tm.spad.wf = true →
      (team? (armWord s t tmid off w) tmid).map (fun x => x.spad.readBytes off 16) =
        some (leBytes 4 w.target ++ leBytes 4 w.count ++ leBytes 4 w.gen ++ leBytes 4 w.flags))
  ∧ (∀ w target tid, w.count ≠ 0 → armStep w false target tid = (1, w))
  ∧ (∀ w target tid, w.count = 0 → tid < 2 ^ 10 → w.flags < 2 ^ 32 → (armStep w false target tid).1 = 0
      ∧ (armStep w false target tid).2.target = target ∧ (armStep w false target tid).2.armed = true
      ∧ (armStep w false target tid).2.armTid = tid ∧ (armStep w false target tid).2.gen = w.gen)
  ∧ (∀ sw a b x y id tm w s', Runs (.arrv sw a b x y) [⟨a.toNat, 2, x⟩, ⟨b.toNat, 1, y⟩]
      (fun k => k.th.reg b.toNat ≠ 0 ∧ arrivalOf k (k.th.reg64 a.toNat) = .ok (id, tm, w) ∧ k.publish = .ok s') (fun k =>
      { st := s', after := fun s => arrvWord s k.t id w.off (k.th.reg b.toNat).toNat }))
  ∧ (∀ sw a b x y id tm w s', Runs (.arrv sw a b x y) [⟨a.toNat, 2, x⟩, ⟨b.toNat, 1, y⟩]
      (fun k => k.th.reg b.toNat = 0 ∧ arrivalOf k (k.th.reg64 a.toNat) = .ok (id, tm, w) ∧ k.publish = .ok s') (fun _ => { st := s' }))
  ∧ (∀ sw d a b x y id tm w s', Runs (.arwait sw d a b x y) [⟨a.toNat, 2, x⟩, ⟨b.toNat, 1, y⟩]
      (fun k => arrivalOf k (k.th.reg64 a.toNat) = .ok (id, tm, w) ∧ (arrRead tm w.off).gen = (k.th.reg b.toNat).toNat
        ∧ k.publish = .ok s') (fun k =>
      { st := met s' (.spad id w.off) 16, later := [d.toNat]
        flow := .wait (.arrival id w.off (k.th.reg b.toNat).toNat d.toNat (k.th.reg64 a.toNat)) }))
  ∧ (∀ sw d a b x y id tm w s', Runs (.arwait sw d a b x y) [⟨a.toNat, 2, x⟩, ⟨b.toNat, 1, y⟩]
      (fun k => arrivalOf k (k.th.reg64 a.toNat) = .ok (id, tm, w) ∧ (arrRead tm w.off).gen ≠ (k.th.reg b.toNat).toNat
        ∧ genPassed (arrRead tm w.off).gen (k.th.reg b.toNat).toNat = true ∧ k.publish = .ok s') (fun k =>
      { st := modThread (met s' (.spad id w.off) 16) k.t (fun th => th.takePts (arrTime tm w.off))
        writes := [(d.toNat, wordN (arrRead tm w.off).gen)] }))
  ∧ (∀ sw d a b x y id tm w, Runs (.arwait sw d a b x y) [⟨a.toNat, 2, x⟩, ⟨b.toNat, 1, y⟩]
      (fun k => arrivalOf k (k.th.reg64 a.toNat) = .ok (id, tm, w) ∧ (arrRead tm w.off).gen ≠ (k.th.reg b.toNat).toNat
        ∧ genPassed (arrRead tm w.off).gen (k.th.reg b.toNat).toNat = false) (fun k =>
      { st := met k.s (.spad id w.off) 16
        writes := [(d.toNat, wordN (arrRead tm w.off).gen)] }))
  ∧ (∀ sw d a x id tm w s', Runs (.arread sw d a x) [⟨a.toNat, 2, x⟩]
      (fun k => arrivalOf k (k.th.reg64 a.toNat) = .ok (id, tm, w) ∧ k.publish = .ok s') (fun k =>
      let r := arrRead tm w.off
      { st := modThread (met s' (.spad id w.off) 16) k.t
          (fun th => th.takePts (max (arrTime tm w.off) (syncTime s' (arrAccess id w.off))))
        launch := answerOn 5 d [wordN r.target, wordN r.count, wordN r.gen, wordN r.flags] })))
  ∧ (∀ s tmid tm off n pts a, team? s tmid = some tm → tm.arrivals.find? (fun a => a.off == off) = some a →
    (arrRead tm off).count + n < 2 ^ 32 → (arrRead tm off).target < 2 ^ 32 → tm.spad.wf = true →
    let w := arrRead tm off
    ∃ tm', team? (arrivalAdd s tmid off n pts) tmid = some tm' ∧
      (w.armed = false → arrRead tm' off = { w with count := w.count + n })
      ∧ (w.armed = true → w.count + n < w.target → arrRead tm' off = { w with count := w.count + n })
      ∧ (w.armed = true → w.count + n = w.target → arrRead tm' off = { w with count := 0, gen := (w.gen + 1) % 2 ^ 32 })
      ∧ (w.armed = true → w.target < w.count + n → (arrRead tm' off).gen = (w.gen + 1) % 2 ^ 32 ∧ (arrRead tm' off).count = 0
          ∧ (arrRead tm' off).flags.testBit 1 = true)
      ∧ (∀ o, o < off ∨ off + 16 ≤ o → tm'.spad.read o = tm.spad.read o))

/-- R247 to R250: a queue holds at most 64 entries and gives them out in the order they came, first to the threads
that wait in theirs; QTRY takes one only where no thread waits, and QLEN answers both lengths. R251 to R253: DIST
answers the next chunk of its grid's range, to its registers or to its slot, where its own event stores what was taken at issue
(DEDUCED, log 63); the chunks in turn cover the range once
and in the order asked for, and after the last one the answer is END. R254, R255: SBSET takes EMPTY to FULL and FULL
to EMPTY and refuses other transitions with the old state; a buffer made FULL completes the arrival words linked to
it; SBQRY answers state, index and the registered commands that use it. -/
def Obligations.QueuesDistributorsAndBuffers : Prop :=
  ((∀ sw d a b x y q, Runs (.qpush sw d a b x y) [⟨a.toNat, 1, x⟩, ⟨b.toNat, 2, y⟩]
      (fun k => queueFor k (k.th.reg a.toNat) = .ok q ∧ 64 ≤ q.entries.length) (fun k => { st := k.s, launch := answerOn 5 d [1] }))
  ∧ (∀ sw d a b x y q s', Runs (.qpush sw d a b x y) [⟨a.toNat, 1, x⟩, ⟨b.toNat, 2, y⟩]
      (fun k => queueFor k (k.th.reg a.toNat) = .ok q ∧ q.entries.length < 64 ∧ k.publish = .ok s') (fun k =>
      { st := s', launch := answerOn 5 d [0]
        after := fun s => queuePush s (k.th.reg a.toNat).toNat (BitVec.ofNat 64 (k.th.reg64 b.toNat)) (ptsOf s k.t) }))
  ∧ (∀ sw d a x q e es s', Runs (.qpop sw d a x) [⟨a.toNat, 1, x⟩]
      (fun k => queueFor k (k.th.reg a.toNat) = .ok q ∧ q.waiters = [] ∧ q.entries = e :: es ∧ k.publish = .ok s') (fun k =>
      { st := modThread (setQueue s' (k.th.reg a.toNat).toNat { q with entries := es, pts := q.pts.drop 1 }) k.t
          (fun th => th.takePts (q.pts.head?.getD 0))
        writes := [(d.toNat, e.setWidth 32), (d.toNat + 1, (e >>> 32).setWidth 32)] }))
  ∧ (∀ sw d a x q s', Runs (.qpop sw d a x) [⟨a.toNat, 1, x⟩]
      (fun k => queueFor k (k.th.reg a.toNat) = .ok q ∧ (q.waiters ≠ [] ∨ q.entries = []) ∧ k.publish = .ok s') (fun k =>
      { st := setQueue s' (k.th.reg a.toNat).toNat { q with waiters := q.waiters ++ [k.t] }, later := [d.toNat, d.toNat + 1]
        flow := .wait (.queue (k.th.reg a.toNat).toNat d.toNat) }))
  ∧ (∀ sw d a x q e es s', Runs (.qtry sw d a x) [⟨a.toNat, 1, x⟩]
      (fun k => queueFor k (k.th.reg a.toNat) = .ok q ∧ q.waiters = [] ∧ q.entries = e :: es ∧ k.publish = .ok s') (fun k =>
      { st := modThread (setQueue s' (k.th.reg a.toNat).toNat { q with entries := es, pts := q.pts.drop 1 }) k.t
          (fun th => th.takePts (q.pts.head?.getD 0))
        launch := answerOn 5 d [e.setWidth 32, (e >>> 32).setWidth 32, 0, 0] }))
  ∧ (∀ sw d a x q, Runs (.qtry sw d a x) [⟨a.toNat, 1, x⟩]
      (fun k => queueFor k (k.th.reg a.toNat) = .ok q ∧ (q.waiters ≠ [] ∨ q.entries = [])) (fun k =>
      { st := k.s, launch := answerOn 5 d [0, 0, 1, 0] }))
  ∧ (∀ sw d a x q, Runs (.qlen sw d a x) [⟨a.toNat, 1, x⟩] (fun k => queueFor k (k.th.reg a.toNat) = .ok q) (fun k =>
      { st := k.s, launch := answerOn 5 d [wordN (q.entries.length + min q.waiters.length 255 * 2 ^ 16)] }))
  ∧ (∀ (k : Ctx) (h : Word), h.toNat < 512 → (queueOf k.s h.toNat).en = true → (queueOf k.s h.toNat).sealId = k.th.sealId →
      queueFor k h = .ok (queueOf k.s h.toNat))
  ∧ (∀ (k : Ctx) (h : Word), h.toNat < 512 → ((queueOf k.s h.toNat).en = false ∨ (queueOf k.s h.toNat).sealId ≠ k.th.sealId) →
      queueFor k h = .error (.trap 0x11 0x500 h 0 k.iw))
  ∧ (∀ s h e pts, (queueOf s h).waiters = [] → (queueOf (queuePush s h e pts) h).entries = (queueOf s h).entries ++ [e])
  ∧ (∀ s h e pts t ws, (queueOf s h).waiters = t :: ws → (queueOf (queuePush s h e pts) h).waiters = ws
      ∧ (queueOf (queuePush s h e pts) h).entries = (queueOf s h).entries))
  ∧ ((∀ sw d a x, Runs (.dist sw d a x false) [] (fun _ => True) (fun k =>
      let r := nextAnswer k.s k.th.team
      { st := r.2, launch := answerOn 5 d [wordN (r.1 % 2 ^ 32), wordN (r.1 / 2 ^ 32 % 2 ^ 32)] }))
  ∧ (∀ sw d a x acc tm off, acc.loc = .spad tm off → Runs (.dist sw d a x true) [⟨a.toNat, 2, x⟩]
      (fun k => checkAccess k.s k.t k.th k.iw (k.th.reg64 a.toNat) 8 8 .store true [0xF0] false = .ok acc) (fun k =>
      let r := nextAnswer k.s k.th.team
      { st := r.2, launch := some { ec := 5, dests := [], op := .answer tm off (leBytes 8 r.1) } }))
  ∧ (∀ s t seq th f tm tmid off bs, flight? s t seq = some (th, f) → f.op = .answer tmid off bs → team? s tmid = some tm →
      tm.spad.wf = true → ∃ s' tm', exec (.distributorAnswerStore t seq) s = .next s' ∧ team? s' tmid = some tm'
        ∧ (∀ j (h : j < bs.length), tm'.spad.read (off + j) = bs[j])
        ∧ (∀ o, o < off ∨ off + bs.length ≤ o → tm'.spad.read o = tm.spad.read o)
        ∧ (f.ec < 6 → (thread? s' t).map (fun h => h.counter f.ec) = some (th.counter f.ec - 1)))
  ∧ (∀ r c, r.dorder ≠ 1 → r.dbegin + c * r.dchunk < r.dend → r.dchunk ≠ 0 →
      chunkAnswer r c = min r.dchunk (r.dend - (r.dbegin + c * r.dchunk)) * 2 ^ 32 + (r.dbegin + c * r.dchunk))
  ∧ (∀ r c, r.dorder = 1 → r.dbegin + c * r.dchunk < r.dend → r.dchunk ≠ 0 →
      chunkAnswer r c = min r.dchunk (r.dend - r.dbegin - c * r.dchunk) * 2 ^ 32 + (r.dend - 1 - c * r.dchunk))
  ∧ (∀ r c, r.dend ≤ r.dbegin + c * r.dchunk → chunkAnswer r c = 2 ^ 63 + r.dend)
  ∧ (∀ s tmid tm g, team? s tmid = some tm → grid? s tm.grid = some g → g.lr.dorder ≠ 2 →
      (nextAnswer s tmid).1 = chunkAnswer g.lr g.chunk
      ∧ (grid? (nextAnswer s tmid).2 tm.grid).map (·.chunk) = some (min (g.chunk + 1) g.lr.chunks)))
  ∧ ((∀ sw d a i x b s', Runs (.sbset sw d a i x) [⟨a.toNat, 2, x⟩]
      (fun k => bufferFor k (k.th.reg64 a.toNat) = .ok b ∧ k.publish = .ok s') (fun k =>
      let r := sbStep b.state i.toNat
      let p := if r.1 == 0 && r.2 == 0 then ptsOf s' k.t else 0
      { st := modTeam s' k.th.team (fun tm => tm.modBuffer b.idx (fun b => { b with state := r.2, pts := max b.pts p }))
        launch := answerOn 5 d [wordN (r.1 + b.state * 16)]
        after := fun s => if r.1 == 0 && r.2 == 2 then fillBuffer s k.th.team b.idx (ptsOf s k.t) else s }))
  ∧ sbStep 0 2 = (0, 2) ∧ sbStep 2 0 = (0, 0) ∧ sbStep 0 0 = (1, 0) ∧ sbStep 2 2 = (1, 2)
  ∧ (∀ t, sbStep 1 t = (2, 1) ∧ sbStep 3 t = (2, 3))
  ∧ (∀ sw d a x b, Runs (.sbqry sw d a x) [⟨a.toNat, 2, x⟩] (fun k => bufferFor k (k.th.reg64 a.toNat) = .ok b) (fun k =>
      let n := (k.s.copies.filter (fun p => p.2.usesBuffer k.th.team b.idx)).length
      { st := k.s, launch := answerOn 5 d [wordN (b.state + b.idx * 2 ^ 8 + min n 255 * 2 ^ 16)] })))

/-! ### Engines -/

/-- R265, R269 to R271: a copy word whose record, endpoints and places are legal enters its command, with its range-
lock entries of the issuing core, on the event counter the record names; a record that is declared or live already, or
whose fields are not legal, is ILLEGAL_OP, reason 3, and the command does not enter. R279 to R281: CPYQ answers a live
command's cursor, or, after its thread's earlier accesses to it, the cursor and status its record was left with; CPYX ends a live
command with status 2 and answers 0, or 1 or 2 where none is live; while a burst of the command is in flight CPYX holds, and the
command starts no other; RLQRY counts the entries of the issuing core's table. R232, R260, R266, R272,
R277: a command whose entries stand is registered; the oldest waiting command of an engine with fewer than 16 active
ones starts; a burst ends at the row's end and at the destination's next multiple of 128, and moves the cursor on by
its length; a command at its end is taken out, its record holds status 1 and the cursor, and its thread's counter is one less.
RANGE_LOCK_ENTRY_TAKEN puts an entry that is missing into the first free place of its core's table. The model's readings: how the
bursts of the window are started and performed (DEDUCED, log 75), a receiver whose team has ended (DEDUCED, log 77), the stop that
waits for what is under way (DEDUCED, log 78), and a command's end as one step (DEDUCED, log 80). -/
def Obligations.CopyCommands : Prop :=
  (let rec_ := fun (s : State) (k : Ctx) (off : Nat) => parseCopy (peek s (.spad k.th.team off) 32)
  let numbered := fun (s : State) (k : Ctx) (off : Nat) => fresh (met s (.spad k.th.team off) 32)
  let mine := fun (s : State) (c : CopyCmd) => c.entries.filter (fun e => entryCore s c e == some c.core)
  let command := fun (opc : Nat) (i : Instr) (a : BitVec 6) (x : Bool) =>
    (∀ off tm s' sh c, Runs i [⟨a.toNat, 2, x⟩] (fun k => recordOf k (k.th.reg64 a.toNat) = .ok (off, tm)
        ∧ touchesDeclared tm off 32 = false ∧ copyAt k.s k.th.team off = none ∧ k.publish = .ok s'
        ∧ shapeOf opc (rec_ s' k off).shape = some sh ∧ recordOk opc (rec_ s' k off) = true
        ∧ makeCopy k (numbered s' k off).2 opc off tm (rec_ s' k off) sh (numbered s' k off).1 = .ok c
        ∧ (core (numbered s' k off).2 c.core).locks.length + (mine (numbered s' k off).2 c).length ≤ 32
        ∧ engineRoom (numbered s' k off).2 c.engine = true) (fun k =>
      let id := (numbered s' k off).1
      let s₀ := (numbered s' k off).2
      let s₁ := { s₀ with copies := kset s₀.copies id { c with accepted := id } }
      { st := modThread ((mine s₀ c).foldl (fun s e => takeEntry s c.core e) s₁) k.t
          (fun th => { th with unreg := th.unreg ++ [id] })
        launch := some { ec := (rec_ s' k off).ec, dests := [], op := .unit id } }))
    ∧ (∀ off tm, Traps i [⟨a.toNat, 2, x⟩] (fun k => recordOf k (k.th.reg64 a.toNat) = .ok (off, tm)
        ∧ (touchesDeclared tm off 32 = true ∨ (copyAt k.s k.th.team off).isSome = true)) 0x01 (illegalInfos 3))
    ∧ (∀ off tm s', Traps i [⟨a.toNat, 2, x⟩] (fun k => recordOf k (k.th.reg64 a.toNat) = .ok (off, tm)
        ∧ touchesDeclared tm off 32 = false ∧ copyAt k.s k.th.team off = none ∧ k.publish = .ok s'
        ∧ recordOk opc (rec_ s' k off) = false) 0x01 (illegalInfos 3))
  (∀ sw a x, command 0x280 (.cpy sw a x) a x)
  ∧ (∀ sw a x, command 0x281 (.cpy2d sw a x) a x)
  ∧ (∀ sw a x, command 0x282 (.cpym sw a x) a x)
  ∧ (∀ sw a x, command 0x283 (.cpyr sw a x) a x)
  ∧ (∀ sw a x, command 0x286 (.cpyf sw a x) a x)
  ∧ (∀ k addr, windowFault addr = none → selector addr ≠ 0xF0 → recordOf k addr = .error (accessViolation 3 addr k.iw))
  ∧ (∀ k addr, windowFault addr = none → selector addr = 0xF0 → addr % 32 ≠ 0 → recordOf k addr = .error (misaligned addr 32 k.iw))
  ∧ (∀ s e, engineRoom s e = true ↔ (s.copies.filter (fun p => p.2.engine == e && !p.2.stopped)).length
      + (s.errors.quarantined.filter (fun q => q.1 == 0x0B && q.2.1 == e / 2 && q.2.2 / 64 == e % 2)).length < 64)
  ∧ (∀ opc r, recordOk opc r = true → fld r.ctrl 28 4 = 0 ∧ r.cursor = 0 ∧ r.ec ≠ 6 ∧ (r.mcast ≠ 0 ↔ opc = 0x282)))
  ∧ ((∀ sw d a x off tm id c, Runs (.cpyq sw d a x) [⟨a.toNat, 2, x⟩]
      (fun k => recordOf k (k.th.reg64 a.toNat) = .ok (off, tm) ∧ copyAt k.s k.th.team off = some (id, c)) (fun k =>
      { st := k.s, launch := answerOn 2 d [wordN c.cursor, 0] }))
  ∧ (∀ sw d a x off tm s', Runs (.cpyq sw d a x) [⟨a.toNat, 2, x⟩]
      (fun k => recordOf k (k.th.reg64 a.toNat) = .ok (off, tm) ∧ copyAt k.s k.th.team off = none
        ∧ k.before { loc := .spad k.th.team off, len := 32, strong := false, cattr := 0, pageW := true, pageSeal := tm.sealId } = .ok s')
      (fun k =>
      let bs := peek s' (.spad k.th.team off) 32
      let st := fld (bfld bs 24 4) 28 4
      let s₁ := met s' (.spad k.th.team off) 32
      { st := if st = 1 then modThread s₁ k.t (fun th => th.takePts (kgetD tm.records off 0)) else s₁
        launch := answerOn 2 d [wordN (bfld bs 28 4), wordN st] }))
  ∧ (∀ sw d a x off tm id c, Runs (.cpyx sw d a x) [⟨a.toNat, 2, x⟩]
      (fun k => recordOf k (k.th.reg64 a.toNat) = .ok (off, tm) ∧ copyAt k.s k.th.team off = some (id, c)
        ∧ (∀ b ∈ c.flying, b.remote = none ∧ b.begun = false)) (fun k =>
      { st := endCopy k.s id 2, launch := answerOn 2 d [0] }))
  ∧ (∀ sw d a x off tm id c, Holds (.cpyx sw d a x) [⟨a.toNat, 2, x⟩]
      (fun k => recordOf k (k.th.reg64 a.toNat) = .ok (off, tm) ∧ copyAt k.s k.th.team off = some (id, c)
        ∧ ∃ b ∈ c.flying, b.remote ≠ none ∨ b.begun = true) (fun k =>
      holdAt (modCopy k.s id (fun c => { c with cancel := some (k.t, k.th.pc, k.th.word) })) k.t))
  ∧ (∀ s c t th, c.cancel = some (t, th.pc, th.word) → thread? s t = some th → th.evicted = false → mayStart s c = false)
  ∧ (∀ sw d a x off tm, Runs (.cpyx sw d a x) [⟨a.toNat, 2, x⟩]
      (fun k => recordOf k (k.th.reg64 a.toNat) = .ok (off, tm) ∧ copyAt k.s k.th.team off = none) (fun k =>
      { st := k.s, launch := answerOn 2 d [if (kget? tm.records off).isSome then 1 else 2] }))
  ∧ (∀ sw d a x tm, Runs (.rlqry sw d a x) [⟨a.toNat, 2, x⟩] (fun k => k.team = some tm
        ∧ windowFault (k.th.reg64 a.toNat) = none ∧ selector (k.th.reg64 a.toNat) = 0xF2
        ∧ fld (k.th.reg64 a.toNat) 0 20 < 1024 * tm.privKb) (fun k =>
      { st := k.s, launch := answerOn 2 d [wordN (core k.s tm.core).locks.length] }))
  ∧ (∀ sw d a x tm t o, Runs (.rlqry sw d a x) [⟨a.toNat, 2, x⟩] (fun k => k.team = some tm
        ∧ ¬ (windowFault (k.th.reg64 a.toNat) = none ∧ selector (k.th.reg64 a.toNat) = 0xF2)
        ∧ endpointOf k tm (k.th.reg64 a.toNat) 1 1 allWindows = .ok (.spad t o)) (fun k =>
      let c := core k.s tm.core
      { st := k.s, launch := answerOn 2 d [wordN (c.locks.length + lockCount c (some t) k.th.sealId o false * 2 ^ 8
          + lockCount c (some t) k.th.sealId o true * 2 ^ 16)] }))
  ∧ (∀ sw d a x tm g, Runs (.rlqry sw d a x) [⟨a.toNat, 2, x⟩] (fun k => k.team = some tm
        ∧ ¬ (windowFault (k.th.reg64 a.toNat) = none ∧ selector (k.th.reg64 a.toNat) = 0xF2)
        ∧ endpointOf k tm (k.th.reg64 a.toNat) 1 1 allWindows = .ok (.glob g)) (fun k =>
      let c := core k.s tm.core
      { st := k.s, launch := answerOn 2 d [wordN (c.locks.length + lockCount c none k.th.sealId g false * 2 ^ 8
          + lockCount c none k.th.sealId g true * 2 ^ 16)] })))
  ∧ ((∀ s id c, kget? s.copies id = some c → c.registered = false → missingEntries s c = [] →
      exec (.copyRegistration id) s = .next (registered (modCopy s id (fun c => { c with registered := true })) c.th id))
  ∧ (∀ s id c, kget? s.copies id = some c → missingEntries s c ≠ [] → exec (.copyRegistration id) s = .next s)
  ∧ (∀ s id x, ∃ s', exec (.rangeLockEntryTaken id x) s = .next s' ∧ s'.mem = s.mem
        ∧ s'.copies = s.copies ∧ s'.threads = s.threads ∧ s'.teams = s.teams)
  ∧ (∀ s id c x e i, kget? s.copies id = some c → (missingEntries s c).filter (fun e => entryCore s c e == some x) = [e] →
      freeEntry (core s x) = some i →
      exec (.rangeLockEntryTaken id x) s = .next (modCore s x (fun k => { k with locks := kset k.locks i e })))
  ∧ (∀ s id c x, kget? s.copies id = some c → freeEntry (core s x) = none → exec (.rangeLockEntryTaken id x) s = .next s)
  ∧ (∀ s c e, e ∈ missingEntries s c ↔ e ∈ c.entries ∧ (∀ t, e.team = some t → team? s t ≠ none)
      ∧ ∀ p ∈ s.cores, ∀ l ∈ p.2.locks, l.2 ≠ e)
  ∧ (∀ k i, freeEntry k = some i → i < 32 ∧ kget? k.locks i = none ∧ ∀ j < i, kget? k.locks j ≠ none)
  ∧ (∀ s id c, kget? s.copies id = some c → copyAway s c = false → c.stopped = false → c.started = false →
      (∀ p ∈ s.copies, p.2.engine = c.engine → p.2.stopped = false → p.2.accepted < c.accepted → p.2.started = true) →
      (s.copies.filter (fun p => p.2.engine == c.engine && !p.2.stopped && p.2.started)).length < 16 →
      exec (.copyCommandStart id) s = .next (modCopy s id (fun c => { c with started := true })))
  ∧ (∀ (c : CopyCmd) x, c.rowLen ≠ 0 → (c.burst x).2.2 = min (c.rowLen - x % c.rowLen) (128 - (c.burst x).2.1.low % 128)
      ∧ 0 < (c.burst x).2.2 ∧ (c.burst x).2.2 ≤ 128)
  ∧ (∀ s id c b n, kget? s.copies id = some c → c.started = true → c.stopped = false → copyAway s c = false → n < 8 →
      (c.opc ≠ 0x286 ∨ c.marked = true ∨ c.ending.isSome = true) → c.flying[n]? = some b → (n = 0 ∨ c.opc ≠ 0x283) →
      exec (.copyBurst ⟨id, n⟩) s = .next (performBurst s id c b))
  ∧ (∀ s id c b, b.remote = none → b.got = none → b.dsts = [] → performBurst s id c b = advanceCopy s id)
  ∧ (∀ s id c b bs, b.remote = none → b.got = some bs → performBurst s id c b = advanceCopy (writeDests s id b.at_ b.len bs b.dsts) id)
  ∧ (∀ s id c ts os td od n tm tn, kget? s.copies id = some c → c.burst c.nextAt = (.spad ts os, .spad td od, n) → c.opc ≠ 0x282 →
      team? s ts = some tm → team? s td = some tn →
      let acc := fun (t o : Nat) (tm : Team) => ([{ loc := .spad t o, len := n, strong := false, cattr := 0, pageW := true, pageSeal := tm.sealId }] : List Access)
      startBurst s id c = modCopy s id (fun y => { y with flying := y.flying ++
        [{ at_ := c.nextAt, len := n, src := .spad ts os, srcAcc := acc ts os tm, dsts := [(.spad td od, acc td od tn)] }] }))
  ∧ (∀ s id c x n d, kget? s.copies id = some c → c.arrs = [] → (kget? (delivered s id x n d).copies id).map (·.flying) =
      some (c.flying.map (fun b => if b.at_ == x then { b with begun := true, dsts := b.dsts.filter (fun e => e.1 != d) } else b)))
  ∧ (∀ s id c, kget? s.copies id = some c → (kget? (advanceCopy s id).copies id).map (fun c => (c.cursor, c.flying)) =
      some (popDone c.cursor c.flying))
  ∧ (∀ x b bs, b.dsts = [] → b.remote = none → popDone x (b :: bs) = popDone (b.at_ + b.len) bs)
  ∧ (∀ x b bs, ¬ (b.dsts = [] ∧ b.remote = none) → popDone x (b :: bs) = (x, b :: bs))
  ∧ (∀ s id c, kget? s.copies id = some c → c.started = true → c.stopped = false → c.ending = none →
      c.total ≤ c.cursor → exec (.copyCommandEnd id) s = .next (endCopy s id 1))
  ∧ (∀ s id c st, kget? s.copies id = some c → c.stopped = false → c.ending = some st → st ≠ 7 → c.flying = [] →
      exec (.copyCommandEnd id) s = .next (endCopy s id st))
  ∧ (∀ s id c, kget? s.copies id = some c → c.stopped = false → c.ending = some 7 → (∀ b ∈ c.flying, b.remote = none ∧ b.begun = false) →
      exec (.copyCommandEnd id) s = .next (endCopy s id 7))
  ∧ (∀ s id c tm th f, kget? s.copies id = some c → team? s c.team = some tm → tm.spad.wf = true → thread? s c.th = some th →
      th.evicted = false → th.flights.find? (fun f => f.op == .unit id) = some f → f.ec < 6 →
      (team? (endCopy s id 1) c.team).map (fun tm => tm.spad.readBytes (c.rec_ + 24) 8) =
        some (leBytes 4 (fld c.ctrl 0 28 + 1 * 2 ^ 28) ++ leBytes 4 c.cursor)
      ∧ (thread? (endCopy s id 1) c.th).map (fun h => h.counter f.ec) = some (th.counter f.ec - 1))
  ∧ (∀ s id c st, kget? s.copies id = some c → risingFrom 0 s.copies = true → kget? (endCopy s id st).copies id = none
      ∧ ∀ p ∈ (endCopy s id st).cores, ∀ l ∈ p.2.locks, l.2.cmd ≠ id))

/-- R289 to R291: FDSTART starts a context of the core at its record's program, or answers 0x100 where none is free;
FDSTOP ends one of the team's running contexts, and FDSTAT reads its state, depth and place. R285 to R287: FLOOP and
FEND count their loop, a count of 0 skipping to the matching FEND; FADDR sets a stride; FPUSH appends one element
after the other, holding at a full queue; FPUSHK writes a tile's row; FPERMIT and FSYNC pass, hold and release; FSTOP
ends the context. The model's choices: a reservation an FPERMIT replaces (log 186), the words of a loop that is skipped (log
187) and g[d+1] of another team's context (log 188), each DESIGN CHOICE. -/
def Obligations.FeedContexts : Prop :=
  (let bytes := fun (s : State) (acc : Access) => peek s acc.loc 64
  (∀ sw d a x acc s' tm n, Runs (.fdstart sw d a x) [⟨a.toNat, 2, x⟩]
      (fun k => checkAccess k.s k.t k.th k.iw (k.th.reg64 a.toNat) 64 64 .load false [0xF0] false = .ok acc ∧ k.publish = .ok s'
        ∧ k.team = some tm ∧ bfld (bytes s' acc) 56 1 < tm.groups ∧ bfld (bytes s' acc) 57 7 = 0 ∧ freeFeed (met s' acc.loc 64) tm.core = some n) (fun k =>
      let s₁ := met s' acc.loc 64
      let bs := bytes s' acc
      let f : Feed :=
        { id := (fresh s₁).1, team := k.th.team, gid := bfld bs 56 1, sealId := k.th.sealId, prog := bfld bs 0 8
          bases := (List.range 4).map (fun i => bfld bs (8 + 8 * i) 8), prms := (List.range 4).map (fun i => bfld bs (40 + 4 * i) 4)
          pts := ptsOf (fresh s₁).2 k.t }
      { st := { (fresh s₁).2 with feeds := kset (fresh s₁).2.feeds (feedKey tm.core n) f }, launch := answerOn 2 d [wordN n] }))
  ∧ (∀ sw d a x acc s' tm, Runs (.fdstart sw d a x) [⟨a.toNat, 2, x⟩]
      (fun k => checkAccess k.s k.t k.th k.iw (k.th.reg64 a.toNat) 64 64 .load false [0xF0] false = .ok acc ∧ k.publish = .ok s'
        ∧ k.team = some tm ∧ bfld (bytes s' acc) 56 1 < tm.groups ∧ bfld (bytes s' acc) 57 7 = 0 ∧ freeFeed (met s' acc.loc 64) tm.core = none) (fun _ =>
      { st := met s' acc.loc 64, launch := answerOn 2 d [0x100] }))
  ∧ (∀ sw d a x acc s' tm, Traps (.fdstart sw d a x) [⟨a.toNat, 2, x⟩]
      (fun k => checkAccess k.s k.t k.th k.iw (k.th.reg64 a.toNat) 64 64 .load false [0xF0] false = .ok acc ∧ k.publish = .ok s'
        ∧ k.team = some tm ∧ (tm.groups ≤ bfld (bytes s' acc) 56 1 ∨ bfld (bytes s' acc) 57 7 ≠ 0)) 0x01 (illegalInfos 3))
  ∧ (∀ sw d c f, Runs (.fdstop sw d c) [] (fun k => kget? k.s.feeds (8 * coreOf k.s k.th + c.toNat) = some f
        ∧ f.team = k.th.team ∧ f.running = true ∧ f.remote = none) (fun k =>
      { st := endFeed k.s (8 * coreOf k.s k.th + c.toNat) f 5, launch := answerOn 2 d [0] }))
  ∧ (∀ sw d c f, Runs (.fdstop sw d c) [] (fun k => kget? k.s.feeds (8 * coreOf k.s k.th + c.toNat) = some f
        ∧ f.team ≠ k.th.team) (fun k => { st := k.s, launch := answerOn 2 d [2] }))
  ∧ (∀ sw d c, Runs (.fdstop sw d c) [] (fun k => kget? k.s.feeds (8 * coreOf k.s k.th + c.toNat) = none) (fun k =>
      { st := k.s, launch := answerOn 2 d [1] }))
  ∧ (∀ sw d a x f, Runs (.fdstat sw d a x) [⟨a.toNat, 1, x⟩] (fun k => (k.th.reg a.toNat).toNat < 8
        ∧ kget? k.s.feeds (8 * coreOf k.s k.th + (k.th.reg a.toNat).toNat) = some f ∧ f.team = k.th.team) (fun k =>
      { st := if f.state = 4 then setThread k.s k.t (k.th.takePts f.pts) else k.s
        launch := answerOn 2 d [wordN (f.state + f.loops.length * 2 ^ 8), wordN f.at_] }))
  ∧ (∀ sw d a x f, Runs (.fdstat sw d a x) [⟨a.toNat, 1, x⟩] (fun k => (k.th.reg a.toNat).toNat < 8
        ∧ kget? k.s.feeds (8 * coreOf k.s k.th + (k.th.reg a.toNat).toNat) = some f ∧ f.team ≠ k.th.team) (fun k =>
      { st := k.s, launch := answerOn 2 d [15, 0] }))
  ∧ (∀ sw d a x, Traps (.fdstat sw d a x) [⟨a.toNat, 1, x⟩] (fun k => 8 ≤ (k.th.reg a.toNat).toNat) 0x01 (illegalInfos 3)))
  ∧ (let at_ := fun (s : State) (c x : Nat) (f : Feed) => s.curFeed = some (c, x) ∧ kget? s.feeds (8 * c + x) = some f
    ∧ f.running = true ∧ f.remote = none ∧ f.skip = 0
  let put := fun (s : State) (c x : Nat) (g : Feed → Feed) => modFeed s (8 * c + x) g
  let count := fun (src p : BitVec 2) (n : BitVec 20) (f : Feed) => if src = 0 then n.toNat else nthD f.prms p.toNat 0
  (∀ src p n s c x f, at_ s c x f → f.loops.length < 4 → count src p n f ≠ 0 →
      exec (.floop src p n) s = .next (put s c x (fun f => { f.next with loops := ⟨f.at_ + 1, 0, count src p n f⟩ :: f.loops })))
  ∧ (∀ src p n s c x f, at_ s c x f → f.loops.length < 4 → count src p n f = 0 →
      exec (.floop src p n) s = .next (put s c x (fun f => { f.next with skip := 1 })))
  ∧ (∀ src p n s c x f, at_ s c x f → 4 ≤ f.loops.length → exec (.floop src p n) s = .next (endFeed s (8 * c + x) f 6))
  ∧ (∀ s c x f l ls, at_ s c x f → f.loops = l :: ls → l.i + 1 < l.n →
      exec .fend s = .next (put s c x (fun f => { f.next with at_ := l.start, loops := { l with i := l.i + 1 } :: ls })))
  ∧ (∀ s c x f l ls, at_ s c x f → f.loops = l :: ls → l.n ≤ l.i + 1 →
      exec .fend s = .next (put s c x (fun f => { f.next with loops := ls })))
  ∧ (∀ s c x f, at_ s c x f → f.loops = [] → exec .fend s = .next (endFeed s (8 * c + x) f 6))
  ∧ (∀ st l sc w s c x f, at_ s c x f → exec (.faddr st l sc w) s = .next (put s c x (fun f =>
      { f.next with strides := kset f.strides (4 * st.toNat + l.toNat) (sx w.toNat 16 * (4 ^ sc.toNat : Nat)) })))
  ∧ (∀ st q z e n s c x f tm bs s', at_ s c x f → team? s f.team = some tm → pushRoom tm f q.toNat = true →
      feedRead s c (8 * c + x) f ((f.addr st.toNat + f.elem * 2 ^ z.toNat) % 2 ^ 64) (2 ^ z.toNat) = (some bs, s') →
      exec (.fpush st q z e n) s = .next (put (feedPush s' (8 * c + x) f q.toNat
        (if e then word (sx (leNat bs) (8 * 2 ^ z.toNat)) else wordN (leNat bs))) c x
        (fun f => if f.elem < n.toNat then { f with elem := f.elem + 1, state := 1 } else f.next)))
  ∧ (∀ st q z e n s c x f tm, at_ s c x f → team? s f.team = some tm → pushRoom tm f q.toNat = false →
      exec (.fpush st q z e n) s = .next (put s c x (fun f => { f with state := 2 })))
  ∧ (∀ st t r s c x f tm bs s', at_ s c x f → team? s f.team = some tm → t.toNat < tm.granted f.gid →
      rowFree s f tm t.toNat (((openFill tm f t.toNat).map (·.order)).getD s.nextId) = true →
      feedRead s c (8 * c + x) f (f.addr st.toNat) 128 = (some bs, s') →
      exec (.fpushk st t r) s = .next (put (writeRow s' f tm t.toNat r.toNat bs) c x Feed.next))
  ∧ (∀ s f tm n row bs,
      let rowOf := fun s => modTeam s f.team (fun tm => tm.setTile f.gid n (Memory.writeBytes (tm.tile f.gid n) (128 * row) bs))
      ((openFill tm f n).isSome = true → writeRow s f tm n row bs = rowOf s)
      ∧ ((openFill tm f n).isSome = false → writeRow s f tm n row bs =
          rowOf (modTeam (fresh s).2 f.team (fun tm => { tm with openFills := tm.openFills ++ [⟨f.id, f.gid, n, (fresh s).1⟩] }))))
  ∧ (∀ st t r s c x f tm, at_ s c x f → team? s f.team = some tm → tm.granted f.gid ≤ t.toNat →
      exec (.fpushk st t r) s = .next (endFeed s (8 * c + x) f 6))
  ∧ (∀ q n s c x f tm, at_ s c x f → team? s f.team = some tm →
      let own := kgetD f.reserved q.toNat 0
      let others := kgetD tm.portReserved (gkey f.gid q.toNat) 0 - own
      exec (.fpermitQueue q n) s = .next (if (tm.port f.gid q.toNat).length + others + n.toNat ≤ 16
        then put (modTeam s f.team (fun tm => { tm with portReserved := kset tm.portReserved (gkey f.gid q.toNat) (others + n.toNat) })) c x
          (fun f => { f.next with reserved := kset f.reserved q.toNat n.toNat })
        else put s c x (fun f => { f with state := 2 })))
  ∧ (∀ b s c x f tm y, at_ s c x f → team? s f.team = some tm → tm.buffer? b.toNat = some y →
      exec (.fpermitBuffer b) s = .next (put s c x (fun f => if 2 ≤ y.state then f.next else { f with state := 2 })))
  ∧ (∀ r b s c x f, at_ s c x f → (r = false ∨ (f.team, b.toNat) ∉ f.reads) →
      exec (.fsync r b) s = .next (put (modTeam s f.team (fun tm =>
        { tm with openFills := tm.openFills.filter (fun x => x.feed != f.id) })) c x Feed.next))
  ∧ (∀ b s c x f, at_ s c x f → (f.team, b.toNat) ∈ f.reads →
      exec (.fsync true b) s = .next (put (endRead (modTeam s f.team (fun tm =>
        { tm with openFills := tm.openFills.filter (fun x => x.feed != f.id) })) f.team b.toNat f.id) c x
        (fun f => { f.next with reads := f.reads.filter (· != (f.team, b.toNat)) })))
  ∧ (∀ s c x f, at_ s c x f → exec .fstop s = .next (endFeed s (8 * c + x) f 4)))

/-- R296, R308 to R318: a tile or matrix word that passes its checks enters its operation on the core's sequencer
while it holds fewer than 32, with the registers it reads and writes; a register beyond the group's tiles is
TILE_FORMAT. R296, R302, R303, R309, R313, R315: an operation whose turn has come does its effect on its team, leaves
the sequencer and lowers its threads' counters; a matrix op writes its bank's image and seed, counts at its arrival
word where its block names one, and with NANTRAP raises MATRIX_NAN for its first NaN in its first thread; ACCRD writes the four
threads' images, or one register; a bank set is spilled for the oldest operation that waits for it (the set it waits for is
DEDUCED, log 82). ACCRD, ACCZ, the spill words and MQRY run in a team without QUAD too (DESIGN CHOICE, log 189). -/
def Obligations.TileAndMatrixOperations : Prop :=
  (let room := fun (s : State) (k : Ctx) => (coreMtx s (coreOf s k.th)).length < 32
  let enters := fun (s : State) (o : MtxOp) (ec : Nat) (dests : List Nat) (op : Nat → FlightOp) =>
    ({ st := (enterMtx s o).2, launch := some { ec := ec, dests := dests, op := op (enterMtx s o).1 } } : Eff)
  let noted := fun (k : Ctx) (as_ : List Access) => as_.foldl (fun s a => noteRegion s k.th a) k.s
  let load := fun (i : Instr) (bmp : Bool) (t a : BitVec 6) (x : Bool) =>
    (∀ as_, Runs i [⟨a.toNat, 2, x⟩] (fun k => stepsOneTwo k (k.addrM a) false [0x00, 0xE0, 0xF0, 0xF1, 0xF2, 0xF3] = none
        ∧ t.toNat < k.granted ∧ checkRange k.s k.t k.th k.iw (k.addrM a) (if bmp then 1024 else 2048) 128 .load false
            [0x00, 0xE0, 0xF0, 0xF1, 0xF2, 0xF3] true = .ok as_
        ∧ memHeld k.th = false ∧ rangeRemote as_ = false ∧ remoteSpan as_ = none ∧ room (noted k as_) k) (fun k =>
      enters (noted k as_) { k.mtx (.load bmp k.th.gid t.toNat) [] [k.regRes bmp t.toNat] with accs := as_ } 3 [] (.mload as_)))
    ∧ Traps i [⟨a.toNat, 2, x⟩] (fun k => stepsOneTwo k (k.addrM a) false [0x00, 0xE0, 0xF0, 0xF1, 0xF2, 0xF3] = none
        ∧ k.granted ≤ t.toNat) 0x22 (fun k =>
        (wordN (max t.toNat k.granted % 8 + k.th.gid % 4 * 16 + 4 * 256), 1, 0, k.iw))
  let store := fun (i : Instr) (bmp : Bool) (t a : BitVec 6) (x : Bool) => ∀ as_,
    Runs i [⟨a.toNat, 2, x⟩] (fun k => stepsOneTwo k (k.addrM a) true [0x00, 0xE0, 0xF0, 0xF1, 0xF2] = none
        ∧ t.toNat < k.granted ∧ checkRange k.s k.t k.th k.iw (k.addrM a) (if bmp then 1024 else 2048) 128 .store false
            [0x00, 0xE0, 0xF0, 0xF1, 0xF2] true = .ok as_
        ∧ memHeld k.th = false ∧ rangeRemote as_ = false ∧ remoteSpan as_ = none ∧ room (noted k as_) k) (fun k =>
      enters (noted k as_) { k.mtx (.store bmp k.th.gid t.toNat) [k.regRes bmp t.toNat] [] with accs := as_ } 3 [] (.mstore as_))
  (∀ sw t a x, load (.kld sw t a x) false t a x) ∧ (∀ sw t a x, load (.kbld sw t a x) true t a x)
  ∧ (∀ sw t a x, store (.kst sw t a x) false t a x) ∧ (∀ sw t a x, store (.kbst sw t a x) true t a x)
  ∧ (∀ sw a kb x as_, Runs (.accspl sw a kb x) [⟨a.toNat, 2, x⟩]
      (fun k => checkRange k.s k.t k.th k.iw (k.th.reg64 a.toNat) 32768 128 .put false [0x00, 0xF0] true = .ok as_
        ∧ memHeld k.th = false ∧ rangeRemote as_ = false ∧ remoteSpan as_ = none ∧ room (noted k as_) k) (fun k =>
      enters (noted k as_) { k.mtx (.spill (b2n kb)) [.bank (k.th.gid / 4) (b2n kb)] [] with accs := as_ } 3 [] (.mstore as_)))
  ∧ (∀ sw a kb x as_, Runs (.accfil sw a kb x) [⟨a.toNat, 2, x⟩]
      (fun k => checkRange k.s k.t k.th k.iw (k.th.reg64 a.toNat) 32768 128 .load false [0x00, 0xF0] true = .ok as_
        ∧ memHeld k.th = false ∧ rangeRemote as_ = false ∧ remoteSpan as_ = none ∧ room (noted k as_) k) (fun k =>
      enters (noted k as_) { k.mtx (.fill (b2n kb)) [] [.bank (k.th.gid / 4) (b2n kb)] with accs := as_ } 3 [] (.mload as_)))
  ∧ (∀ sw d n, Runs (.kzero sw d n false) [] (fun k => d.toNat + (n.toNat + 1) ≤ k.granted ∧ room k.s k) (fun k =>
      enters k.s (k.mtx (.zero false k.th.gid d.toNat (n.toNat + 1)) [] (tileRes k.th.gid d.toNat (n.toNat + 1))) 3 [] .unit))
  ∧ (∀ sw d, Runs (.kzero sw d 0 true) [] (fun k => d.toNat < k.granted ∧ room k.s k) (fun k =>
      enters k.s (k.mtx (.zero true k.th.gid d.toNat 1) [] [.bmp k.th.gid d.toNat]) 3 [] .unit))
  ∧ (∀ sw d n, n ≠ 0 → Traps (.kzero sw d n true) [] (fun _ => True) 0x01 (illegalInfos 3))
  ∧ (∀ sw d a b y m,
      let w := fun k : Ctx => (k.th.reg b.toNat).toNat
      let kc := fun k : Ctx => max (kFor (fwA (w k))) (kFor (fwR (w k)))
      let sn := fun k : Ctx => spanOf (imageSize (fwA (w k)) (kc k) m)
      let dn := fun k : Ctx => spanOf (imageSize (fwR (w k)) (kc k) m)
      Runs (.kcvt sw d a b y m) [⟨b.toNat, 2, y⟩] (fun k => kcvtOk (w k) = true ∧ a.toNat + sn k ≤ k.granted
          ∧ d.toNat + dn k ≤ k.granted ∧ spanOverlap a.toNat (sn k) d.toNat (dn k) = none ∧ room k.s k) (fun k =>
        enters k.s (k.mtx (.cvt k.th.gid d.toNat a.toNat m (w k) (k.th.reg (b.toNat + 1)) (k.mode (fwMode (w k))))
          (tileRes k.th.gid a.toNat (sn k)) (tileRes k.th.gid d.toNat (dn k))) 3 [] .unit)
      ∧ Traps (.kcvt sw d a b y m) [⟨b.toNat, 2, y⟩] (fun k => kcvtOk (w k) = false) 0x01 (illegalInfos 3))
  ∧ (∀ sw d a b y m,
      let c := fun k : Ctx => (k.th.reg b.toNat).toNat
      let sn := fun k : Ctx => spanOf (imageSize (c k) (kFor (c k)) m)
      Runs (.kbmp sw d a b y m) [⟨b.toNat, 1, y⟩] (fun k => c k ≤ 8 ∧ a.toNat + sn k ≤ k.granted ∧ d.toNat < k.granted ∧ room k.s k)
        (fun k => enters k.s (k.mtx (.bmp k.th.gid d.toNat a.toNat m (c k)) (tileRes k.th.gid a.toNat (sn k)) [.bmp k.th.gid d.toNat]) 3 [] .unit)
      ∧ Traps (.kbmp sw d a b y m) [⟨b.toNat, 1, y⟩] (fun k => 8 < c k) 0x01 (illegalInfos 3))
  ∧ (∀ sw a x tm b, Runs (.mmae sw a x false) [⟨a.toNat, 8, x⟩] (fun k => k.team = some tm ∧ tm.quad = true
        ∧ blockCheck k tm (k.th.octet a.toNat) = .ok b ∧ room k.s k) (fun k =>
      enters k.s { k.mtx (.mma b) (mmaReads (k.th.gid / 4) b) [.bank (k.th.gid / 4) b.bank] with pts := ptsOf k.s k.t } b.ec [] .unit))
  ∧ (∀ sw a x tm b acc bs s', Runs (.mmae sw a x true) [⟨a.toNat, 2, x⟩] (fun k => k.team = some tm ∧ tm.quad = true
        ∧ orderWaits k.s k.th = false ∧ checkAccess k.s k.t k.th k.iw (k.th.reg64 a.toNat) 32 32 .load false [0xF0] false = .ok acc
        ∧ readNow k.s k.t [acc] = (bs, s') ∧ blockCheck k tm bs = .ok b ∧ room s' k) (fun k =>
      enters s' { k.mtx (.mma b) (mmaReads (k.th.gid / 4) b) [.bank (k.th.gid / 4) b.bank] with pts := ptsOf s' k.t } b.ec [] .unit))
  ∧ (∀ sw d a b x y m, Runs (.mmac sw d a b x y m) [⟨a.toNat, 1, x⟩, ⟨b.toNat, if m then 2 else 8, y⟩]
      (fun k => k.member d.toNat = true ∧ orderWaits k.s k.th = false) (fun k =>
      let more := (List.range (if m then 2 else 8)).map (fun i => k.th.reg (b.toNat + i))
      let w : Wait := .rendezvous d.toNat 0x308 0 0 (k.th.reg a.toNat) m more (freesOf [⟨a.toNat, 1, x⟩, ⟨b.toNat, if m then 2 else 8, y⟩])
      { st := k.s, flow := .done, after := fun s => arriveLig s k.t k.th d.toNat w }))
  ∧ (∀ sw d a b x y m, Traps (.mmac sw d a b x y m) [⟨a.toNat, 1, x⟩, ⟨b.toNat, if m then 2 else 8, y⟩]
      (fun k => k.member d.toNat = false) 0x06 (fun _ => (1, wordN d.toNat, 0, 0)))
  ∧ (∀ sw kb, Runs (.accz sw kb) [] (fun k => room k.s k) (fun k =>
      enters k.s (k.mtx (.accz (b2n kb)) [] [.bank (k.th.gid / 4) (b2n kb)]) 3 [] .unit))
  ∧ (∀ sw d a b x y, Runs (.accrd sw d a b x y true) [⟨a.toNat, 1, x⟩, ⟨b.toNat, 1, y⟩]
      (fun k => accrdOk (k.th.reg a.toNat).toNat (k.th.reg b.toNat).toNat true = true ∧ room k.s k) (fun k =>
      let w := (k.th.reg a.toNat).toNat
      let c := (k.th.reg b.toNat).toNat
      enters k.s (k.mtx (.accrdReg (fld c 8 6) (fld c 16 6) w (flag c 3) (fld c 0 1) (k.mode (fwMode w)))
        [.bank (k.th.gid / 4) (fld c 0 1)] []) 3 [d.toNat] .unit))
  ∧ (∀ sw d a b x y tm,
      let w := fun k : Ctx => (k.th.reg a.toNat).toNat
      let c := fun k : Ctx => (k.th.reg b.toNat).toNat
      let n := fun k : Ctx => fld (c k) 1 2 + 1
      let sn := fun k : Ctx => spanOf (256 * n k * (widthOfCode (fwR (w k)) / 8))
      Runs (.accrd sw d a b x y false) [⟨a.toNat, 1, x⟩, ⟨b.toNat, 1, y⟩] (fun k => accrdOk (w k) (c k) false = true
          ∧ k.team = some tm ∧ (∀ i < 4, d.toNat + sn k ≤ tm.granted (4 * (k.th.gid / 4) + i)) ∧ room k.s k) (fun k =>
        let q := k.th.gid / 4
        enters k.s (k.mtx (.accrd d.toNat (w k) (n k) (flag (c k) 3) (fld (c k) 0 1) (k.mode (fwMode (w k))))
          [.bank q (fld (c k) 0 1)] ((List.range 4).flatMap (fun i => tileRes (4 * q + i) d.toNat (sn k)))) 3 [] .unit))
  ∧ (∀ sw d a b x y m, Traps (.accrd sw d a b x y m) [⟨a.toNat, 1, x⟩, ⟨b.toNat, 1, y⟩]
      (fun k => accrdOk (k.th.reg a.toNat).toNat (k.th.reg b.toNat).toNat m = false) 0x01 (illegalInfos 3))
  ∧ (∀ sw d a x tm, Runs (.mqry sw d a x) [⟨a.toNat, 1, x⟩] (fun k => k.team = some tm ∧ k.th.reg a.toNat = 0 ∧ room k.s k) (fun k =>
      { st := k.s, launch := answerOn 3 d [wordN (mqryWord k.s k.th tm)] }))
  ∧ (∀ sw d a x tm, Runs (.mqry sw d a x) [⟨a.toNat, 1, x⟩] (fun k => k.team = some tm ∧ (k.th.reg a.toNat).toNat = 1 ∧ room k.s k) (fun k =>
      { st := k.s, launch := answerOn 3 d [(tm.bank (k.th.gid / 4) 0).seed] }))
  ∧ (∀ sw d a x tm, Runs (.mqry sw d a x) [⟨a.toNat, 1, x⟩] (fun k => k.team = some tm ∧ (k.th.reg a.toNat).toNat = 17 ∧ room k.s k) (fun k =>
      { st := k.s, launch := answerOn 3 d [(tm.bank (k.th.gid / 4) 1).seed] })))
  ∧ ((∀ s c id o tm gid k span, readyOp s c id = some (o, tm) → o.kind = .zero false gid k span →
      exec (.mtxOperationComplete c id) s =
        .next (finishMtx (modTeam s o.team (fun tm => (range k span).foldl (fun tm i => tm.setTile gid i []) tm)) id o))
  ∧ (∀ s c id o tm gid k, readyOp s c id = some (o, tm) → o.kind = .zero true gid k 1 →
      exec (.mtxOperationComplete c id) s =
        .next (finishMtx (modTeam s o.team (fun tm => tm.setBmp gid k (memOf 0 (List.replicate 1024 255)))) id o))
  ∧ (∀ s c id o tm l, readyOp s c id = some (o, tm) → o.kind = .accz l →
      exec (.mtxOperationComplete c id) s =
        .next (finishMtx (modTeam s o.team (fun tm => tm.modBank o.quad l (fun b => { b with img := [], seed := 0 }))) id o))
  ∧ (∀ s c id o tm gid k bs, readyOp s c id = some (o, tm) → o.kind = .load false gid k → o.data = some bs →
      exec (.mtxOperationComplete c id) s =
        .next (finishMtx (modTeam s o.team (fun tm => tm.setTile gid k (memOf 0 bs))) id o))
  ∧ (∀ s c id o tm row col fmt sat l mode t f, readyOp s c id = some (o, tm) → o.kind = .accrdReg row col fmt sat l mode →
      o.parts = [t] → unitFlight s t id = some f →
      exec (.mtxOperationComplete c id) s = .next (finishMtx (deliverFlight s t f
        [if fwR fmt = 8 then word (sx (accRead (tm.bank o.quad l) row col fmt sat mode) 8)
          else wordN (accRead (tm.bank o.quad l) row col fmt sat mode)]) id o))
  ∧ (∀ s c id o tm d fmt n sat l mode, readyOp s c id = some (o, tm) → o.kind = .accrd d fmt n sat l mode →
      exec (.mtxOperationComplete c id) s = .next (finishMtx (modTeam s o.team (fun x => (List.range 4).foldl (fun x q =>
        x.setImage (4 * o.quad + q) d (accImage (tm.bank o.quad l) q fmt n sat mode)) x)) id o))
  ∧ (∀ s id o t th f, o.parts = [t] → thread? s t = some th → th.evicted = false → unitFlight s t id = some f → s.heirs = [] →
      (∀ p ∈ s.threads, ∀ l d dv av m more frees, p.2.wait ≠ .rendezvous l 0x308 d dv av m more frees) →
      finishMtx s id o = modThread { s with mtx := kdel s.mtx id } t (fun th => th.unitDone f o.pts)
      ∧ (f.ec < 6 → (thread? (finishMtx s id o) t).map (fun h => h.counter f.ec) = some (th.counter f.ec - 1)))
  ∧ (∀ s c id, readyOp s c id = none → exec (.mtxOperationComplete c id) s = .next s
      ∧ exec (.matrixOpCompletion c id) s = .next s)
  ∧ (∀ s c id o tm b, readyOp s c id = some (o, tm) → o.kind = .mma b →
      exec (.matrixOpCompletion c id) s = .next (completeMma s id o tm b))
  ∧ (∀ s id o tm b, b.aen = false → fwNanTrap b.fmt = false →
      completeMma s id o tm b = finishMtx (modTeam s o.team (fun x => x.modBank o.quad b.bank (fun k =>
        { k with img := mmaImage k.img (mmaOutputs tm o.quad b), seed := b.seed }))) id o)
  ∧ (∀ s id o tm b a, b.aen = true → tm.arrivals.find? (fun a => a.idx == b.aidx) = some a → fwNanTrap b.fmt = false →
      completeMma s id o tm b = finishMtx (arrivalAdd (modTeam s o.team (fun x => x.modBank o.quad b.bank (fun k =>
        { k with img := mmaImage k.img (mmaOutputs tm o.quad b), seed := b.seed }))) o.team a.off 1 o.pts) id o)
  ∧ (∀ s id o tm b k n m t ts, b.aen = false → fwNanTrap b.fmt = true → firstNan (mmaOutputs tm o.quad b) = some (k, n, m) →
      let s₁ := finishMtx (modTeam s o.team (fun x => x.modBank o.quad b.bank (fun k =>
        { k with img := mmaImage k.img (mmaOutputs tm o.quad b), seed := b.seed }))) id o
      o.parts = t :: ts → thread? s₁ t ≠ none → completeMma s id o tm b = raiseAsync s₁ t 0x21
        [wordN (m / 16 * 2 ^ 16 + m * 2 ^ 8 + n), wordN k, wordN b.fmt, wordN b.tag])
  ∧ (∀ (tm : Team) gid k bs, risingFrom 0 tm.tileMem = true → ∀ g j, (tm.setTile gid k bs).tile g j = if gkey g j = gkey gid k then bs else tm.tile g j)
  ∧ (∀ s c set, waitingBank s c (set % 2 == 1) = none → exec (.bankSpill c set) s = .next s)
  ∧ (∀ s c set t key, ((core s c).bankSet (set % 2 == 1)).holder = some (t, key) →
      (∃ p ∈ s.mtx, p.2.team = t ∧ p.2.bank? = some key) → exec (.bankSpill c set) s = .next s)
  ∧ (∀ s c set t key w, let one := set % 2 == 1
      ((core s c).bankSet one).holder = some (t, key) → waitingBank s c one = some w →
      (∀ p ∈ s.mtx, ¬ (p.2.team = t ∧ p.2.bank? = some key)) →
      exec (.bankSpill c set) s =
        .next (serveSet (modCore (spillBank s t key) c (fun k => k.modSet one (fun b => { b with holder := none }))) c one))
  ∧ (∀ s c one id team key, ((core s c).bankSet one).holder = none → waitingBank s c one = some (id, team, key) →
      setLost s c one = false → serveSet s c one = assignSet s c one team key id)
  ∧ (∀ s c one team key id, ((core (assignSet s c one team key id) c).bankSet one).holder = some (team, key))
  ∧ (∀ s t key tm, team? s t = some tm → ∃ tm', team? (spillBank s t key) t = some tm' ∧ (tm'.bank (key / 2) (key % 2)).spilled = true))

/-- R322, R323, R337, R338: PBIN and SPLAT submit a primitive to the pass their pair names, opening it where it is not
live, and answer its status; a submission with a zero field set or too many attributes is ILLEGAL_OP, reason 3; PBEND
and SPLATEND end the thread's binding. R324, R327, R339 to R343: the words that take fragments, attributes and stipple
results, and the unit's steps; a pixel's owner covers it with the least (z, PRIM) of its tile's bin, and a pixel that
no triangle covers has none. The model's readings: STIPRD holds while a run of its thread is open (DEDUCED, log 92),
PRIMITIVE_BINNING performs all the unit's writes (DEDUCED, log 93), the words of empty bins are written before the pass closes
(DEDUCED, log 164), and IPA's planes are aligned to 4 (DESIGN CHOICE, log 191). -/
def Obligations.PassesFragmentsAndTiles : Prop :=
  (let submits := fun (i : Instr) (kind : Nat) (d a b : BitVec 6) (x y : Bool) =>
    let srcs : List Src := [⟨a.toNat, 2, x⟩, ⟨b.toNat, 2, y⟩]
    let prim := fun k : Ctx => checkRange k.s k.t k.th k.iw (k.th.reg64 a.toNat) 64 64 .load false [0x00, 0xF0] false
    (∀ as_ bs s₁ n s₂ p, Runs i srcs (fun k => prim k = .ok as_ ∧ recordAddr k b = none ∧ readNow k.s k.t as_ = (bs, s₁)
        ∧ primBad kind bs = false ∧ passFor k s₁ b kind = .ok (n + 8, s₂) ∧ kget? s₂.passes n = some p) (fun k =>
      { st := (submit s₂ k n p kind bs).2, launch := answerOn 4 d [wordN (submit s₂ k n p kind bs).1] }))
    ∧ (∀ as_ bs s₁ n s₂, n < 8 → Runs i srcs (fun k => prim k = .ok as_ ∧ recordAddr k b = none ∧ readNow k.s k.t as_ = (bs, s₁)
        ∧ primBad kind bs = false ∧ passFor k s₁ b kind = .ok (n, s₂)) (fun _ => { st := s₂, launch := answerOn 4 d [wordN n] }))
    ∧ (∀ as_ bs s₁, Traps i srcs (fun k => prim k = .ok as_ ∧ recordAddr k b = none ∧ readNow k.s k.t as_ = (bs, s₁)
        ∧ primBad kind bs = true) 0x01 (illegalInfos 3))
  (∀ sw d a b x y, submits (.pbin sw d a b x y) 0 d a b x y)
  ∧ (∀ sw d a b x y, submits (.splat sw d a b x y) 1 d a b x y)
  ∧ (∀ s k id p kind bs, p.sealId ≠ k.th.sealId → submit s k id p kind bs = (6, s))
  ∧ (∀ s k id p kind bs o, p.sealId = k.th.sealId → k.th.binding kind = some o → o ≠ id → submit s k id p kind bs = (7, s))
  ∧ (∀ s k id p kind bs, p.sealId = k.th.sealId → k.th.binding kind = none → p.closed = true → submit s k id p kind bs = (3, s))
  ∧ (∀ s k id p bs, p.sealId = k.th.sealId → k.th.binding 0 = none → p.closed = false → p.closing = false →
      p.ended.contains k.t = false → triCulled bs = true →
      submit s k id p 0 bs = (1, modThread s k.t (fun th => th.bind 0 (some id))))
  ∧ (∀ sw, Runs (.pbend sw) [] (fun _ => True) (fun k =>
      { st := setThread (endBinding k.s k.t k.th.rasterPass) k.t { k.th with rasterPass := none } }))
  ∧ (∀ sw, Runs (.splatend sw) [] (fun _ => True) (fun k =>
      { st := setThread (endBinding k.s k.t k.th.stipplePass) k.t { k.th with stipplePass := none } })))
  ∧ ((∀ sw d a b x y id p, Runs (.hsrnext sw d a b x y) [⟨a.toNat, 2, x⟩, ⟨b.toNat, 1, y⟩]
      (fun k => passOfSeal k a 0 = .ok (id, p) ∧ (k.th.reg b.toNat).toNat < p.r.nstrip ∧ p.finished = false) (fun k =>
      let strip := (k.th.reg b.toNat).toNat
      { st := k.s, launch := some { ec := 4, dests := range d.toNat 4, op := .unit id }
        after := fun s => serve (modPass s id (fun p => { p with waits := kset p.waits strip (kgetD p.waits strip [] ++ [⟨k.t, k.th.seq⟩]) })) id strip }))
  ∧ (∀ sw d a b x y id p, Runs (.hsrnext sw d a b x y) [⟨a.toNat, 2, x⟩, ⟨b.toNat, 1, y⟩]
      (fun k => passOfSeal k a 0 = .ok (id, p) ∧ (k.th.reg b.toNat).toNat < p.r.nstrip ∧ p.finished = true) (fun k =>
      { st := modThread k.s k.t (fun th => th.takePts p.pts)
        launch := answerOn 4 d [0, 0, wordN (2 ^ 31 + b2n p.fault * 2 ^ 30), 0] }))
  ∧ (∀ sw d a b x y id p, Traps (.hsrnext sw d a b x y) [⟨a.toNat, 2, x⟩, ⟨b.toNat, 1, y⟩]
      (fun k => passOfSeal k a 0 = .ok (id, p) ∧ p.r.nstrip ≤ (k.th.reg b.toNat).toNat) 0x01 (illegalInfos 3))
  ∧ (∀ sw d a b x y m id p key f n as_ c s', Runs (.ipa sw d a b x y m) [⟨a.toNat, 1, x⟩, ⟨b.toNat, 1, y⟩]
      (fun k => handleOf k.s (k.th.reg a.toNat).toNat = some (id, p, key, f, n) ∧ p.sealId = k.th.sealId
        ∧ (k.th.reg b.toNat).toNat < bfld (nthD p.prims f.prim []) 48 1 ∧ p.asksBefore k.t k.th.seq = false
        ∧ checkRange k.s k.t k.th k.iw ((bfld (nthD p.prims f.prim []) 40 8 + 12 * (k.th.reg b.toNat).toNat) % 2 ^ 64) 12 4 .load false
            [0x00] true = .ok as_ ∧ readNow k.s k.t as_ = (c, s')) (fun _ =>
      let v := planeAt (bfld c 0 4) (bfld c 4 4) (bfld c 8 4) (2 * f.x + (rungSize f.rung).1) (2 * f.y + (rungSize f.rung).2)
      { st := s', launch := answerOn 4 d (if m then [wordN v, wordN (bfld c 0 4), wordN (bfld c 4 4), 0] else [wordN v]) }))
  ∧ (∀ sw d a b x y m, Traps (.ipa sw d a b x y m) [⟨a.toNat, 1, x⟩, ⟨b.toNat, 1, y⟩]
      (fun k => handleOf k.s (k.th.reg a.toNat).toNat = none) 0x01 (illegalInfos 3))
  ∧ (∀ sw a b x y id p key f n, Runs (.fragw sw a b x y) [⟨a.toNat, 1, x⟩, ⟨b.toNat, 1, y⟩]
      (fun k => handleOf k.s (k.th.reg a.toNat).toNat = some (id, p, key, f, n) ∧ p.sealId = k.th.sealId
        ∧ (k.th.reg b.toNat).toNat < 2 ^ 30 ∧ p.asksBefore k.t k.th.seq = false) (fun k =>
      { st := endHandle (modPass k.s id (fun p => paintFrag p key f (k.th.reg b.toNat).toNat)) id key f.tile }))
  ∧ (∀ sw d a b x y id p, Runs (.stiprun sw d a b x y) [⟨a.toNat, 2, x⟩, ⟨b.toNat, 1, y⟩]
      (fun k => passOfSeal k a 1 = .ok (id, p) ∧ (k.th.reg b.toNat).toNat < 2 ^ 22
        ∧ fld (k.th.reg b.toNat).toNat 0 16 < p.r.tps ∧ fld (k.th.reg b.toNat).toNat 16 6 < p.r.nstrip ∧ p.finished = false
        ∧ stipUsed k.s p.station k.t < 64) (fun k =>
      let key := p.r.key (fld (k.th.reg b.toNat).toNat 16 6) (fld (k.th.reg b.toNat).toNat 0 16)
      { st := k.s, launch := some { ec := 4, dests := [d.toNat], op := .unit id }
        after := fun s => serveRuns (modPass s id (fun p => { p with runs := p.runs ++ [(k.t, k.th.seq, key)] })) id }))
  ∧ (∀ sw d a x r v, Runs (.stiprd sw d a x) [⟨a.toNat, 1, x⟩]
      (fun k => k.s.passes.any (fun p => p.2.runs.any (fun r => r.1 == k.t)) = false ∧ kget? k.s.stips k.t = some r
        ∧ r.px[(k.th.reg a.toNat).toNat]? = some v) (fun k =>
      { st := k.s, launch := answerOn 4 d [wordN v.1, wordN v.2.1, wordN v.2.2.1, wordN v.2.2.2] }))
  ∧ (∀ sw d a x, Traps (.stiprd sw d a x) [⟨a.toNat, 1, x⟩]
      (fun k => k.s.passes.any (fun p => p.2.runs.any (fun r => r.1 == k.t)) = false ∧ kget? k.s.stips k.t = none) 0x01 (illegalInfos 3))
  ∧ (∀ s id p, kget? s.passes id = some p → risingFrom 0 s.passes = true → p.writes = [] → p.closing = false → p.closed = false →
      p.waits = [] → exec (.primitiveBinning id) s = .next s)
  ∧ (∀ s id p, kget? s.passes id = some p → let q := p.zeroEmpty
      exec (.primitiveBinning id) s = .next (finishPass (serveRuns ((List.range q.r.nstrip).foldl (fun s i => serve s id i)
        (closePass (flushPass id q.writes.length (modPass s id (fun _ => q))) id)) id) id))
  ∧ (∀ (p : Pass), p.closing = true → p.zeroed = false → p.fault = false → ∀ k < p.r.nstrip * p.r.tps,
      kgetD p.bins k [] = [] → (p.r.bins + 8 * k, leBytes 8 0) ∈ p.zeroEmpty.writes)
  ∧ (∀ s id p strip tile, kget? s.passes id = some p → p.r.kind = 0 → p.closed = true → strip < p.r.nstrip → tile < p.r.tps →
      kget? p.tiles (p.r.key strip tile) = none → tileIntact (draw s 1024).2 p (p.r.key strip tile) = true →
      exec (.hsrTileResolution id strip tile) s = .next (serve (modPass (draw s 1024).2 id (fun p =>
        { p with tiles := kset p.tiles (p.r.key strip tile) { own := ownersOf p (p.r.key strip tile) (draw s 1024).1 } })) id strip))
  ∧ (∀ p k d i, i < 32 * p.r.th →
      let x := p.r.tileX (k % p.r.tps) + i % 32
      let y := p.r.stripY (k / p.r.tps) + p.r.tileY (k % p.r.tps) + i / 32
      let at_ := fun n => nthD p.prims n []
      let meets := fun n => triCovers (at_ n) x y = true ∧ (rd32 (triDepth (at_ n) x y)).isNan = false
      let o := nthD (ownersOf p k d) i 0
      (o = 0 ↔ ∀ n ∈ kgetD p.bins k [], ¬ meets n)
      ∧ (o ≠ 0 → o - 1 ∈ kgetD p.bins k [] ∧ meets (o - 1) ∧ ∀ n ∈ kgetD p.bins k [], meets n →
          less32 (triDepth (at_ n) x y) (triDepth (at_ (o - 1)) x y) = false
          ∧ (less32 (triDepth (at_ (o - 1)) x y) (triDepth (at_ n) x y) = false → triPrim (at_ (o - 1)) ≤ triPrim (at_ n)))))

/-- R345, R352 to R367: RAYNEW makes a ray in the thread's lowest free slot with a new generation, or answers 0;
RAYSET and RAYGET write and read its words and results; RAYGO runs a valid ray from its root; RAYWAIT waits for a ray
that runs and takes its time; RAYFREE frees it; VERDICT acts once for its callback, whose values RAYCB reads. A handle
that names no live ray of the thread is ILLEGAL_OP, reason 3. R352, R354, R355: a traversal step of a ray that does
not run changes nothing; one with nothing left to visit ends its ray, with status 0 where it holds a hit and 1 else; a
callback starts for a ray that waits for one, unless its owner is away or its station already runs 256; a verdict of
ignore leaves the ray's hit, and one of terminate ends the ray. The count of callbacks and the verdict at issue are DEDUCED, log
101; the callback's core is DEDUCED, log 166; a save area's bytes are a DESIGN CHOICE, log 179. -/
def Obligations.Rays : Prop :=
  (let ray := fun (k : Ctx) (a : BitVec 6) => rayOf k.s k.t (k.th.reg a.toNat).toNat
  (∀ sw d a x as_ bs s₁ slot, Runs (.raynew sw d a x) [⟨a.toNat, 2, x⟩]
      (fun k => checkRange k.s k.t k.th k.iw (k.th.reg64 a.toNat) 64 64 .load false [0x00, 0xF0] false = .ok as_
        ∧ (List.range 32).find? (fun i => !(k.s.rays.filter (fun p => p.2.owner == k.t)).any (fun p => p.2.slot == i)) = some slot
        ∧ raysAt k.s (stationOf (coreOf k.s k.th)) + lostEntries k.s 0x0E (stationOf (coreOf k.s k.th)) < 4096 ∧ readNow k.s k.t as_ = (bs, s₁)) (fun k =>
      let gen := kgetD k.th.rayGens slot 0 % 255 + 1
      let s₂ := (draw (fresh s₁).2 16).2
      let r : Ray := { owner := k.t, slot := slot, gen := gen, draw := (draw (fresh s₁).2 16).1
                       words := (List.range 16).map (fun i => wordN (bfld bs (4 * i) 4)) }
      { st := { modThread s₂ k.t (fun th => { th with rayGens := kset th.rayGens slot gen }) with
          rays := kset (modThread s₂ k.t (fun th => { th with rayGens := kset th.rayGens slot gen })).rays (fresh s₁).1 r }
        launch := answerOn 4 d [wordN (gen * 2 ^ 8 + slot)] }))
  ∧ (∀ sw d a x as_, Runs (.raynew sw d a x) [⟨a.toNat, 2, x⟩]
      (fun k => checkRange k.s k.t k.th k.iw (k.th.reg64 a.toNat) 64 64 .load false [0x00, 0xF0] false = .ok as_
        ∧ ∀ i < 32, (k.s.rays.filter (fun p => p.2.owner == k.t)).any (fun p => p.2.slot == i) = true) (fun k =>
      { st := (readNow k.s k.t as_).2, launch := answerOn 4 d [0] }))
  ∧ (∀ sw d a b x y id r, Runs (.rayset sw d a b x y) [⟨a.toNat, 1, x⟩, ⟨b.toNat, 1, y⟩]
      (fun k => ray k a = some (id, r) ∧ (r.state = 0 ∨ r.state = 3)) (fun k =>
      { st := modRay k.s id (fun r => { r with words := r.words.set d.toNat (k.th.reg b.toNat) }) }))
  ∧ (∀ sw a x id r s', Runs (.raygo sw a x) [⟨a.toNat, 1, x⟩]
      (fun k => ray k a = some (id, r) ∧ (r.state = 0 ∨ r.state = 3) ∧ r.recordBad = false ∧ k.publish = .ok s'
        ∧ invalidRay (r.words.map (·.toNat)) = none) (fun k =>
      let root := fun r : Ray => { r with
        status := 0, hit := none, calls := 0, tb := r.w 7, call := none, draw := (draw s' 16).1, pts := ptsOf (draw s' 16).2 k.t
        stack := [{ kind := 1, addr := r.w 8 + 2 ^ 32 * r.w 9, count := 0, te := none, depth := 1, space := none }] }
      { st := modRay (modRay (draw s' 16).2 id root) id (fun r => { r with state := 1 }) }))
  ∧ (∀ sw a x id r, Traps (.raygo sw a x) [⟨a.toNat, 1, x⟩]
      (fun k => ray k a = some (id, r) ∧ (r.state = 1 ∨ r.state = 2 ∨ r.recordBad = true)) 0x01 (illegalInfos 3))
  ∧ (∀ sw d a x id r, Runs (.raywait sw d a x) [⟨a.toNat, 1, x⟩]
      (fun k => ray k a = some (id, r) ∧ r.state = 3) (fun k =>
      { st := setThread k.s k.t (k.th.takePts r.pts), writes := [(d.toNat, wordN r.statusWord)] }))
  ∧ (∀ sw d a x id r, Runs (.raywait sw d a x) [⟨a.toNat, 1, x⟩]
      (fun k => ray k a = some (id, r) ∧ (r.state = 1 ∨ r.state = 2)) (fun k =>
      { st := k.s, later := [d.toNat], flow := .wait (.ray r.handle d.toNat) }))
  ∧ (∀ sw d a b x y id r, Runs (.rayget sw d a b x y) [⟨a.toNat, 1, x⟩, ⟨b.toNat, 1, y⟩]
      (fun k => ray k a = some (id, r) ∧ ((k.th.reg b.toNat).toNat ≤ 9 ∨ 16 ≤ (k.th.reg b.toNat).toNat ∧ (k.th.reg b.toNat).toNat ≤ 31)) (fun k =>
      { st := if (k.th.reg b.toNat).toNat = 8 ∧ r.state = 3 then setThread k.s k.t (k.th.takePts r.pts) else k.s
        launch := answerOn 4 d [r.field (k.th.reg b.toNat).toNat] }))
  ∧ (∀ (r : Ray) (h : RayHit), r.state = 3 → r.hit = some h → r.field 0 = wordN h.t ∧ r.field 1 = wordN h.u ∧ r.field 2 = wordN h.v
      ∧ r.field 3 = wordN h.prim ∧ r.field 4 = wordN h.instId)
  ∧ (∀ sw a x id r, Runs (.rayfree sw a x) [⟨a.toNat, 1, x⟩] (fun k => ray k a = some (id, r)) (fun k =>
      { st := { k.s with rays := kdel k.s.rays id } }))
  ∧ (∀ sw a x, Traps (.rayfree sw a x) [⟨a.toNat, 1, x⟩] (fun k => ray k a = none) 0x01 (illegalInfos 3))
  ∧ (∀ sw a b x y id s', Runs (.verdict sw a b x y) [⟨a.toNat, 1, x⟩, ⟨b.toNat, 1, y⟩]
      (fun k => k.th.callback = some id ∧ k.th.verdict = false ∧ (k.th.reg a.toNat).toNat < 3 ∧ k.publish = .ok s') (fun k =>
      { st := applyVerdict (modRay (modThread s' k.t (fun th => { th with verdict := true })) id (fun r =>
          { r with pts := max r.pts (ptsOf s' k.t) })) id k.t
          (k.th.reg a.toNat).toNat (k.th.reg b.toNat).toNat }))
  ∧ (∀ sw a b x y, Traps (.verdict sw a b x y) [⟨a.toNat, 1, x⟩, ⟨b.toNat, 1, y⟩]
      (fun k => k.th.callback = none ∨ k.th.verdict = true ∨ 3 ≤ (k.th.reg a.toNat).toNat) 0x01 (illegalInfos 3))
  ∧ (∀ sw d a x, Runs (.raycb sw d a x) [⟨a.toNat, 1, x⟩]
      (fun k => k.th.callback.isSome = true ∧ (k.th.reg a.toNat).toNat < 12) (fun k =>
      { st := k.s, launch := answerOn 4 d [nthD k.th.callVals (k.th.reg a.toNat).toNat 0] }))
  ∧ (∀ sw d a x, Traps (.raycb sw d a x) [⟨a.toNat, 1, x⟩]
      (fun k => k.th.callback = none ∨ 12 ≤ (k.th.reg a.toNat).toNat) 0x01 (illegalInfos 3)))
  ∧ ((∀ s id r, kget? s.rays id = some r → r.state ≠ 1 → exec (.rayTraversalStep id) s = .next s)
  ∧ (∀ s id r th, kget? s.rays id = some r → r.state = 1 → thread? s r.owner = some th → th.evicted = false → r.stack = [] →
      ∃ s' r', exec (.rayTraversalStep id) s = .next s' ∧ kget? s'.rays id = some r' ∧ r'.state = 3
        ∧ r'.status = (if r.hit.isSome then 0 else 1) ∧ r'.hit = r.hit ∧ s'.mem = s.mem)
  ∧ (∀ s id r, kget? s.rays id = some r → r.call = none → exec (.callbackStart id) s = .next s)
  ∧ (∀ s id r c th tm, kget? s.rays id = some r → r.call = some c → c.th = none → thread? s r.owner = some th →
      team? s th.team = some tm → (th.evicted = true ∨ 256 ≤ callbacksAt s (stationOf tm.core)) → exec (.callbackStart id) s = .next s)
  ∧ (∀ s id r c th tm co, kget? s.rays id = some r → r.call = some c → c.th = none → thread? s r.owner = some th → th.evicted = false →
      team? s th.team = some tm → callbacksAt s (stationOf tm.core) < 256 → callbackCore s c tm.cluster = some co →
      (∀ p ∈ s.threads, p.2.team ≠ s.nextId + 1) →
      ∃ s' h, exec (.callbackStart id) s = .next s' ∧ kget? s'.rays id = some { r with calls := r.calls + 1, call := some { c with th := some (s.nextId + 2) } }
        ∧ thread? s' (s.nextId + 2) = some h ∧ h.callback = some id ∧ h.callVals = callVals r c ∧ h.regs = callRegs r c ∧ h.pc = c.code
        ∧ h.pts = r.pts ∧ h.budget = c.budget ∧ h.team = s.nextId + 1 ∧ (team? s' h.team).map (·.core) = some co ∧ s'.mem = s.mem)
  ∧ (∀ s id r c t tval, kget? s.rays id = some r → r.call = some c → c.th = some t →
      kget? (applyVerdict s id t 1 tval).rays id = some { r with state := 1, call := none })
  ∧ (∀ s id r c t tval, kget? s.rays id = some r → r.call = some c → c.th = some t → c.isect = false →
      ∃ r', kget? (applyVerdict s id t 2 tval).rays id = some r' ∧ r'.state = 3 ∧ r'.status = 0 ∧ r'.hit = some c.hit ∧ r'.tb = c.hit.t))

/-- R393 to R396: TNOW gives the time counter; TWAIT waits for it, and the wait ends once it is reached; TDEAD gives
the instant its selector names, and TBUDG what is left of the slice's budget. R397 to R400: SCOMMIT answers 3 for a
slot that does not hold its strip, 2 for a committed one, 1 after the strip's instant and 0 where it commits; from a buffer that
is not full its commit waits, counted on ec4, and is made once the buffer is; SHALO's copy and results; JOBEND ends its slice's
threads; SRATE reads and raises the strip's rung, and sets the base within the floor. Outside a slice or a chain of its own SCOMMIT, SHALO, JOBEND,
SRATE and TDEAD's selectors above 0 are ILLEGAL_OP, reason 3, and TDEAD 0 and TBUDG give all ones. SHALO's checks of the arrival
word (log 111), the bytes at the commit (log 112) and the instant of a low-resolution strip (log 113) are DEDUCED. -/
def Obligations.TimeAndStripWords : Prop :=
  ((∀ sw d, Writes (.tnow sw d) [] (fun k => [(d.toNat, wordN (k.s.tnow % 2 ^ 32)), (d.toNat + 1, wordN (k.s.tnow / 2 ^ 32 % 2 ^ 32))]))
  ∧ (∀ sw a x, Runs (.twait sw a x) [⟨a.toNat, 2, x⟩] (fun k => k.th.reg64 a.toNat ≤ k.s.tnow) (fun k => { st := k.s }))
  ∧ (∀ sw a x, Runs (.twait sw a x) [⟨a.toNat, 2, x⟩] (fun k => k.s.tnow < k.th.reg64 a.toNat) (fun k =>
      { st := k.s, flow := .wait (.time (k.th.reg64 a.toNat)) }))
  ∧ (∀ s t th v, thread? s t = some th → th.wait = .time v → v ≤ s.tnow →
      exec (.timeWaitExpiry t) s = .next (setThread s t th.wake))
  ∧ (∀ s t th v, thread? s t = some th → th.wait = .time v → s.tnow < v →
      ∃ s', exec (.timeWaitExpiry t) s = .next s' ∧ thread? s' t = some th)
  ∧ (∀ sw d b y v, Runs (.tdead sw d b y) [⟨b.toNat, 1, y⟩] (fun k => deadValue k (k.th.reg b.toNat).toNat = some v) (fun k =>
      { st := k.s, writes := [(d.toNat, wordN (v % 2 ^ 32)), (d.toNat + 1, wordN (v / 2 ^ 32 % 2 ^ 32))] }))
  ∧ (∀ sw d b y, Traps (.tdead sw d b y) [⟨b.toNat, 1, y⟩] (fun k => deadValue k (k.th.reg b.toNat).toNat = none) 0x01
      (illegalInfos 3))
  ∧ (∀ k : Ctx, k.job = none → deadValue k 0 = some (2 ^ 64 - 1))
  ∧ (∀ (k : Ctx) c, k.chain = some c → deadValue k 1 = some c.t ∧ deadValue k 2 = some c.f ∧ deadValue k 3 = some c.s)
  ∧ (∀ (k : Ctx) n, k.chain = none → 1 ≤ n → deadValue k n = none)
  ∧ (∀ (k : Ctx) n, 7 ≤ n → deadValue k n = none)
  ∧ (∀ sw d, Writes (.tbudg sw d) [] (fun k => [(d.toNat, wordN (budgetLeft k.job))]))
  ∧ budgetLeft none = 0xFFFFFFFF
  ∧ (∀ n j, j.budget = 0 → budgetLeft (some (n, j)) = 0xFFFFFFFF)
  ∧ (∀ n j, j.budget ≠ 0 → budgetLeft (some (n, j)) = min (j.budget - j.count) 0xFFFFFFFE))
  ∧ ((∀ sw d a b x y c σ s', Runs (.scommit sw d a b x y false) [⟨a.toNat, 1, x⟩]
      (fun k => k.chain = some c ∧ stripOn k c (k.th.reg a.toNat).toNat = some σ ∧ k.publish = .ok s'
        ∧ ¬ ((slotOf s' σ.ring σ.slot).holds c.frame σ.strip = true ∧ (slotOf s' σ.ring σ.slot).state ∈ [1, 2])) (fun _ =>
      { st := s', launch := answerOn 4 d [3] }))
  ∧ (∀ sw d a b x y c σ s', Runs (.scommit sw d a b x y false) [⟨a.toNat, 1, x⟩]
      (fun k => k.chain = some c ∧ stripOn k c (k.th.reg a.toNat).toNat = some σ ∧ k.publish = .ok s'
        ∧ (slotOf s' σ.ring σ.slot).holds c.frame σ.strip = true ∧ (slotOf s' σ.ring σ.slot).state = 2) (fun _ =>
      { st := s', launch := answerOn 4 d [2] }))
  ∧ (∀ sw d a b x y c σ s', Runs (.scommit sw d a b x y false) [⟨a.toNat, 1, x⟩]
      (fun k => k.chain = some c ∧ stripOn k c (k.th.reg a.toNat).toNat = some σ ∧ k.publish = .ok s'
        ∧ (slotOf s' σ.ring σ.slot).holds c.frame σ.strip = true ∧ (slotOf s' σ.ring σ.slot).state = 1 ∧ σ.t ≤ s'.tnow) (fun _ =>
      { st := s', launch := answerOn 4 d [1] }))
  ∧ (∀ sw d a b x y c σ s', Runs (.scommit sw d a b x y false) [⟨a.toNat, 1, x⟩]
      (fun k => k.chain = some c ∧ stripOn k c (k.th.reg a.toNat).toNat = some σ ∧ k.publish = .ok s'
        ∧ (slotOf s' σ.ring σ.slot).holds c.frame σ.strip = true ∧ (slotOf s' σ.ring σ.slot).state = 1 ∧ s'.tnow < σ.t) (fun k =>
      { st := commitStrip s' k.t k.th.team c.out (ptsOf s' k.t) σ none, launch := answerOn 4 d [0] }))
  ∧ (∀ sw d a b x y c σ s' bf, Runs (.scommit sw d a b x y true) [⟨a.toNat, 1, x⟩, ⟨b.toNat, 2, y⟩]
      (fun k => k.chain = some c ∧ stripOn k c (k.th.reg a.toNat).toNat = some σ ∧ k.publish = .ok s'
        ∧ stripBuffer k (k.th.reg64 b.toNat) (4 * ((ringOf k.s σ.ring).width * (ringOf k.s σ.ring).rsh)) = .ok bf ∧ 2 ≤ bf.state
        ∧ (slotOf s' σ.ring σ.slot).holds c.frame σ.strip = true ∧ (slotOf s' σ.ring σ.slot).state = 1 ∧ s'.tnow < σ.t) (fun k =>
      { st := commitStrip s' k.t k.th.team c.out (ptsOf s' k.t) σ (some bf), launch := answerOn 4 d [0] }))
  ∧ (∀ sw d a b x y c σ s' bf, Runs (.scommit sw d a b x y true) [⟨a.toNat, 1, x⟩, ⟨b.toNat, 2, y⟩]
      (fun k => k.chain = some c ∧ stripOn k c (k.th.reg a.toNat).toNat = some σ ∧ k.publish = .ok s'
        ∧ stripBuffer k (k.th.reg64 b.toNat) (4 * ((ringOf k.s σ.ring).width * (ringOf k.s σ.ring).rsh)) = .ok bf ∧ bf.state < 2
        ∧ (slotOf s' σ.ring σ.slot).holds c.frame σ.strip = true ∧ (slotOf s' σ.ring σ.slot).state = 1 ∧ s'.tnow < σ.t) (fun k =>
      let w : Commit := { th := k.t, team := k.th.team, out := c.out, frame := c.frame, strip := σ, buf := bf.idx, pts := ptsOf s' k.t }
      { st := { (fresh s').2 with commits := kset (fresh s').2.commits (fresh s').1 w }
        launch := some { ec := 4, dests := [d.toNat], op := .unit (fresh s').1 } }))
  ∧ (∀ s id c f tm b, unitFlight s c.th id = some f → team? s c.team = some tm → tm.buffer? c.buf = some b → b.state < 2 →
      (slotOf s c.strip.ring c.strip.slot).holds c.frame c.strip.strip = true → (slotOf s c.strip.ring c.strip.slot).state = 1 →
      s.tnow < c.strip.t → serveCommit s (id, c) = s)
  ∧ (∀ s id c f tm b, unitFlight s c.th id = some f → team? s c.team = some tm → tm.buffer? c.buf = some b → 2 ≤ b.state →
      (slotOf s c.strip.ring c.strip.slot).holds c.frame c.strip.strip = true → (slotOf s c.strip.ring c.strip.slot).state = 1 →
      s.tnow < c.strip.t → ∃ s₁, s₁ = commitStrip s c.th c.team c.out c.pts c.strip (some b) ∧ serveCommit s (id, c) =
        modThread { s₁ with commits := kdel s₁.commits id } c.th (fun th => th.modFlight f.seq (fun f => { f with got := some [0] })))
  ∧ (∀ sw d a b x y m, Traps (.scommit sw d a b x y m) (⟨a.toNat, 1, x⟩ :: if m then [⟨b.toNat, 2, y⟩] else [])
      (fun k => k.chain = none) 0x01 (illegalInfos 3))
  ∧ (∀ sw d a b x y c tm bf s', Runs (.shalo sw d a b x y) [⟨a.toNat, 2, x⟩, ⟨b.toNat, 1, y⟩]
      (fun k => k.chain = some c ∧ k.team = some tm ∧ c.video.factor ≠ 0 ∧ 0 ≤ c.k ∧ (k.th.reg b.toNat).toNat % 64 = 0
        ∧ stripBuffer k (k.th.reg64 a.toNat) (4 * (haloOf k.s c.video c.k.toNat).width * (haloOf k.s c.video c.k.toNat).lines) = .ok bf
        ∧ bf.state < 2 ∧ k.publish = .ok s') (fun k =>
      let h := haloOf k.s c.video c.k.toNat
      let r := haloBytes s' c.video c.frame h
      { st := poke (beginWrite s' (.spad k.th.team bf.base)) (.spad k.th.team bf.base) r.1
        launch := (answerOn 4 d [wordN h.y0, wordN h.lines,
          wordN (h.j * h.rsh - h.y0 + (h.y1 + 1 - (h.j + 1) * h.rsh) * 2 ^ 8 + b2n r.2 * 2 ^ 16),
          wordN (h.j % 2 ^ 16 + h.width * 4 % 2 ^ 16 * 2 ^ 16)]).map (fun l =>
            { l with brings := some (max (haloPts s' c.video c.frame (ptsOf s' k.t) h) (bufferTime s' (.spad k.th.team bf.base))) }) }))
  ∧ (∀ sw d a b x y, Traps (.shalo sw d a b x y) [⟨a.toNat, 2, x⟩, ⟨b.toNat, 1, y⟩] (fun k => k.chain = none) 0x01 (illegalInfos 3))
  ∧ (∀ sw, Runs (.jobend sw) [] (fun k => k.job.isSome = true ∧ orderWaits k.s k.th = false) (fun k =>
      { st := k.s, flow := .done, after := fun s => endTeam (endThread s k.t) k.th.team }))
  ∧ (∀ sw, Traps (.jobend sw) [] (fun k => k.job = none) 0x01 (illegalInfos 3))
  ∧ (∀ sw d a n x c r i l, Runs (.srate sw d a n 0 x) []
      (fun k => k.chain = some c ∧ rateStrip c n = some (r, i) ∧ ladder? k.s r c.frame i = some l) (fun k =>
      { st := k.s, writes := [(d.toNat, wordN (l.rung + l.floor * 2 ^ 4 + l.base * 2 ^ 8 + min l.done 65535 * 2 ^ 16))] }))
  ∧ (∀ sw d a n x c r i l, Runs (.srate sw d a n 1 x) [⟨a.toNat, 1, x⟩]
      (fun k => k.chain = some c ∧ rateStrip c n = some (r, i) ∧ ladder? k.s r c.frame i = some l
        ∧ (k.th.reg a.toNat).toNat ≤ 4) (fun k =>
      let g := min (max l.rung (k.th.reg a.toNat).toNat) l.floor
      { st := modLadder k.s r c.frame i (fun l => { l with rung := g }), writes := [(d.toNat, wordN g)] }))
  ∧ (∀ sw d a x c, Runs (.srate sw d a false 2 x) [⟨a.toNat, 1, x⟩]
      (fun k => k.chain = some c ∧ (k.th.reg a.toNat).toNat ≤ 4) (fun k =>
      let v := min (k.th.reg a.toNat).toNat ((output k.s c.out).setFor c.arm c.frame).floor
      { st := modOutput k.s c.out (fun x => { x with regs := kset x.regs 0x1C (x.reg 0x1C - fld (x.reg 0x1C) 1 3 * 2 + v * 2) })
        writes := [(d.toNat, wordN v)] }))
  ∧ (∀ sw d a n x o, Traps (.srate sw d a n o x) (if o = 0 then [] else [⟨a.toNat, 1, x⟩])
      (fun k => k.chain = none) 0x01 (illegalInfos 3))
  ∧ (∀ sw d a n x o, o ≠ 0 → Traps (.srate sw d a n o x) [⟨a.toNat, 1, x⟩]
      (fun k => k.chain.isSome = true ∧ 4 < (k.th.reg a.toNat).toNat) 0x01 (illegalInfos 3)))

/-! ### The device around the cores -/

/-- R65 to R67, R71, R76 to R78: no team is placed while the package is not READY; a team with nothing left retires
and no thread waits for it any more; an eviction is requested of the cluster's teams only; a requested thread at a
blocking point leaves with its record written, and one that waits for nothing is restored on its team's core, where the
station's ray table has room; a thread whose store is out, or whose areas the pool cannot hold, stays (DEDUCED, log 42, and DESIGN
CHOICE, log 160); a team evicted whole comes back where the core can take it (DEDUCED, log 69, and log 70 for its rays); a thread
of the slow file enters the active set. R81, R82: a waiting group gets a token while fewer than EFFECTIVE are held; a
token held for 1,024 cycles passes on where another group waits; a locality window takes the score, and LIMIT moves by
one as AUTO lets it. -/
def Obligations.PlacementAndTokens : Prop :=
  ((∀ s c, s.dev.power.state = 0 → c < 2 → exec (.teamPlacement c) s = .next (placeInCluster s c))
  ∧ (∀ s c, s.dev.power.state ≠ 0 → exec (.teamPlacement c) s = .next s)
  ∧ (∀ s id tm, team? s id = some tm → teamOver s id = true → exec (.teamRetirement id) s = .next (retireTeam s id tm))
  ∧ (∀ s id, teamOver s id = false → exec (.teamRetirement id) s = .next s)
  ∧ (∀ s id tm, risingFrom 0 s.teams = true → team? (releaseTeam s id tm) id = none
      ∧ ∀ p ∈ (releaseTeam s id tm).threads, p.2.wait ≠ .away id)
  ∧ (∀ s c id tm, team? s id = some tm → tm.cluster = c →
      exec (.evictionRequest c [id]) s = .next (modTeam s id (fun t => { t with evictReq := true })))
  ∧ (∀ s c id tm, team? s id = some tm → tm.cluster ≠ c → exec (.evictionRequest c [id]) s = .next s)
  ∧ (∀ s t th tm, thread? s t = some th → team? s th.team = some tm → tm.evicted = false → tm.evictReq = true → th.evicted = false →
      mayLeave (evictThread s t th) th.team = false → exec (.eviction t) s = .next (evictThread s t th))
  ∧ (∀ s t th, wakeOf th = none → evictThread s t th = s)
  ∧ (∀ s t th h, thread? (leaveLane (flush s t) t) t = some h → storesOut (leaveLane (flush s t) t) h = true → evictThread s t th = s)
  ∧ (∀ s t th h, thread? (leaveLane (flush s t) t) t = some h → takeAreas (leaveLane (flush s t) t) t h = none → evictThread s t th = s)
  ∧ (∀ s t th h th₁ s₁, (wakeOf th).isSome = true → thread? (leaveLane (flush s t) t) t = some h →
      storesOut (leaveLane (flush s t) t) h = false → takeAreas (leaveLane (flush s t) t) t h = some (th₁, s₁) →
      let w := { th₁ with evicted := true, active := false, slowSince := s.aclk }
      evictThread s t th = setThread (saveRays (saveRecord s₁ w) t) t w)
  ∧ (∀ s t th tm, thread? s t = some th → team? s th.team = some tm → tm.evicted = false → tm.evictReq = false →
      mayLeave s th.team = false → exec (.eviction t) s = .next s)
  ∧ (∀ s t c th, thread? s t = some th → th.evicted = false → exec (.restore t c) s = .next s)
  ∧ (∀ s t c th tm, thread? s t = some th → team? s th.team = some tm → th.evicted = true → mayWake s t th = true → s.dev.power.state = 0 →
      tm.evicted = false → tm.core = c → (core s c).fenced = false → rayRoom s t (stationOf c) = true → residents s c < 2048 →
      slowUsed s c + th.budget ≤ 131072 →
      exec (.restore t c) s = .next (restoreThread s t c))
  ∧ (∀ s t c th tm base, thread? s t = some th → team? s th.team = some tm → th.evicted = true → s.dev.power.state = 0 →
      tm.evicted = true → canReturn s th.team tm c = some base → exec (.restore t c) s = .next (restoreOn (returnTeam s th.team c base) t))
  ∧ (∀ s t c th tm, thread? s t = some th → team? s th.team = some tm → tm.evicted = true → canReturn s th.team tm c = none →
      exec (.restore t c) s = .next s)
  ∧ (∀ s t c th, thread? s t = some th → th.active = false → th.evicted = false → th.suspended = false → coreOf s th = c →
      ∃ s', exec (.timeSliceExpiry c t) s = .next s' ∧ (thread? s' t).map (·.active) = some true)
  ∧ (∀ s t c th, thread? s t = some th → th.active = true → exec (.timeSliceExpiry c t) s = .next s))
  ∧ ((∀ s c g, (core s c).nextGroup = some g → (core s c).tokens.length < (core s c).effective →
      ∃ s', exec (.memoryTokenGrant c g) s = .next s' ∧ hasToken s' c g = true ∧ g ∉ (core s' c).waiting ∧ s'.threads = s.threads)
  ∧ (∀ s c g, (core s c).effective ≤ (core s c).tokens.length → exec (.memoryTokenGrant c g) s = .next s)
  ∧ (∀ s c g since, kget? (core s c).tokens g = some since → s.aclk < since + 1024 → exec (.memoryTokenPass c g) s = .next s)
  ∧ (∀ s c g since, kget? (core s c).tokens g = some since → (core s c).waiting ≠ [] → since + 1024 ≤ s.aclk →
      exec (.memoryTokenPass c g) s =
        .next (modCore s c (fun k => ({ k with tokens := kdel k.tokens g } : Core).grantAll s.aclk 130)))
  ∧ (∀ s c, s.aclk < (core s c).windowAt + 4096 → exec (.localityWindowEnd c) s = .next s)
  ∧ (∀ s c, (core s c).windowAt + 4096 ≤ s.aclk → ∃ s', exec (.localityWindowEnd c) s = .next s'
      ∧ (core s' c).score = min 255 ((core s c).missHits / 16) ∧ (core s' c).missHits = 0
      ∧ (core s' c).windowAt = (core s c).windowAt + 4096
      ∧ (core s' c).limit = newLimit (core s c).auto (core s c).limit (min 255 ((core s c).missHits / 16)))
  ∧ (∀ l sc, newLimit false l sc = l) ∧ (∀ l sc, 64 ≤ sc → newLimit true l sc = max 1 (l - 1))
  ∧ (∀ l sc, sc ≤ 16 → newLimit true l sc = min 128 (l + 1)) ∧ (∀ l sc, 16 < sc → sc < 64 → newLimit true l sc = l))

/-- R377, R385, R386, R379, R389, R390: an instant that has come ends its chain, tells a slice's threads once that its
budget or its deadline is past, frees a scanned slot, and codes a tile row; a slot scanned in time is taken and one
that is not committed counts as missed; one whose instant has not come changes nothing. R382: a chain that none of the
causes misses is admitted, with its strip's slot rendering. R390: a frame whose rows are all coded goes to its ring as one
temporal unit, or is dropped and counted where the ring has no room, the seal is not LIVE or a page is not there; the
coded bytes in it rest on functions of Config without a body (DESIGN CHOICE, log 114), and the unit is put together as log 163
says (PRESUMED). Chain -1 comes first (DEDUCED, log 103) with the set of log 162 (DESIGN CHOICE), a disarmed output ends its frame
(DEDUCED, log 109), a link event's seal is the template's (DEDUCED, log 110), a BUDGET trap without a deadline shows all ones
(DEDUCED, log 117), and a disabled ring's pages keep what stands in them (DESIGN CHOICE, log 193). R375 to R377: arming an output
that fails a check writes the check's code and leaves it disarmed; a ring that no armed output is bound to is enabled
where its pages fit, with every slot FREE, and disabled; the link of an armed head is lost and comes back with an
event each. -/
def Obligations.OutputsRingsAndChains : Prop :=
  ((∀ s id c, kget? s.chains id = some c → c.t ≤ s.tnow → exec (.chainForcedEnd id) s = .next (killChain s id))
  ∧ (∀ s id c, kget? s.chains id = some c → s.tnow < c.t → exec (.chainForcedEnd id) s = .next s)
  ∧ (∀ s id j, kget? s.jobs id = some j → j.budget ≠ 0 → j.budgetTold = false → j.budget ≤ j.count →
      exec (.budgetExpiry id) s = .next (raiseTeam (modJob s id (fun j => { j with budgetTold := true })) j.team 0x30
        [wordN j.count, loW (j.deadline.getD (2 ^ 64 - 1)), hiW (j.deadline.getD (2 ^ 64 - 1))]))
  ∧ (∀ s id j, kget? s.jobs id = some j → (j.budget = 0 ∨ j.budgetTold = true ∨ j.count < j.budget) →
      exec (.budgetExpiry id) s = .next s)
  ∧ (∀ s id j d, kget? s.jobs id = some j → j.deadline = some d → j.deadlineTold = false → d ≤ s.tnow →
      exec (.deadlineMiss id) s = .next (raiseTeam (modJob s id (fun j => { j with deadlineTold := true })) j.team 0x31
        [loW s.tnow, hiW s.tnow, loW d, hiW d]))
  ∧ (∀ s id j d, kget? s.jobs id = some j → j.deadline = some d → (j.deadlineTold = true ∨ s.tnow < d) →
      exec (.deadlineMiss id) s = .next s)
  ∧ (∀ s o, (output s o).video = none → exec (.stripAdmission o) s = .next s)
  ∧ (∀ s o, (output s o).scans = [] → exec (.stripScan o) s = .next s)
  ∧ (∀ s o v t, (output s o).video = some v → (output s o).tpl = some t → (output s o).armed = true →
      chainStart v (output s o).nextChain.1 (output s o).nextChain.2 ≤ s.tnow → sealLive s t.sealId = false →
      ∃ s', exec (.stripAdmission o) s = .next s' ∧ s'.chains = s.chains
        ∧ (output s' o).nextChain = v.nextOf (output s o).nextChain.1 (output s o).nextChain.2)
  ∧ (∀ s o v t f j, (output s o).video = some v → (output s o).tpl = some t → (output s o).armed = true →
      (output s o).nextChain = (f, j) → chainStart v f j ≤ s.tnow → sealLive s t.sealId = true → s.dev.power.state = 0 →
      let s₁ := modOutput s o (fun x => { latchFrame x f j with nextChain := v.nextOf f j })
      let x := output s₁ o
      let c := newChain s₁ o x v t f j
      admitMissed s₁ o v t f j c = false →
      exec (.stripAdmission o) s = .next (settleEarly (admitChain s₁ o v (x.setFor x.arming f) f j c))
        ∧ (output (admitChain s₁ o v (x.setFor x.arming f) f j c) o).frame = f
        ∧ (v.factor = 0 → j ≠ 0 → let y := slotOf (admitChain s₁ o v (x.setFor x.arming f) f j c) v.ring (slotNo s v.ring v.strips f (j - 1))
          y.state = 1 ∧ y.frame = f ∧ y.strip = j - 1))
  ∧ (∀ s o (c : Scan) cs, (output s o).scans = c :: cs → c.video.factor = 0 → s.dev.power.state ≠ 2 →
      c.video.timeT c.next.1 c.next.2 ≤ s.tnow → chainOf s o c.arm c.next.1 c.next.2 = none →
      (c.next.2 = 0 → chainOf s o c.arm c.next.1 (-1) = none) → exec (.stripScan o) s = .next (takeStrip s o (output s o) c))
  ∧ (∀ s o (c : Scan) y, let v := c.video
      let i := slotNo s v.ring v.strips c.next.1 c.next.2
      slotOf s v.ring i = y → y.holds c.next.1 c.next.2 = true → y.state = 2 → sealLive s c.sealId = true → s.errors.fatal = false →
      let s' := takeStrip s o (output s o) c
      (output s' o).misses = (output s o).misses ∧ (slotOf s' v.ring i).state = 3
        ∧ ∀ d ∈ (output s' o).scans, d.arm = c.arm → d.next = v.nextStrip c.next.1 c.next.2)
  ∧ (∀ s o (c : Scan) y, let v := c.video
      let i := slotNo s v.ring v.strips c.next.1 c.next.2
      slotOf s v.ring i = y → y.holds c.next.1 c.next.2 = true → y.state = 1 →
      let s' := takeStrip s o (output s o) c
      (output s' o).misses = (output s o).misses + 1 ∧ (slotOf s' v.ring i).state = 0
        ∧ ∀ d ∈ (output s' o).scans, d.arm = c.arm → d.next = v.nextStrip c.next.1 c.next.2)
  ∧ (∀ s o (c : Scan) f, c.stop = some f → f < (c.video.nextStrip c.next.1 c.next.2).1 →
      ∀ d ∈ (output (takeStrip s o (output s o) c) o).scans, d.arm ≠ c.arm)
  ∧ (∀ s r i, (slotOf s r i).state = 3 → (slotOf s r i).until_ ≤ s.tnow →
      exec (.slotRelease r i) s = .next (modSlot s r i (fun y => { y with state := 0 })))
  ∧ (∀ s r i, (slotOf s r i).state ≠ 3 ∨ s.tnow < (slotOf s r i).until_ → exec (.slotRelease r i) s = .next s)
  ∧ (∀ s i key p, pipeOf s i = some (key, p) → rowReady p = true →
      ∃ s', exec (.encodeTileRow i) s = .next s' ∧ (kget? s'.pipes key).map (·.rows) = some (p.rows + 1)
        ∧ (kget? s'.pipes key).map (·.buf) = some (p.buf.drop p.rowPixels) ∧ s'.mem = s.mem)
  ∧ (∀ s i key p, pipeOf s i = some (key, p) → unitReady p = true →
      (p.tpl.bssize < ringFill (ringOf s p.video.ring) + (temporalUnit p).length ∨ sealLive s p.tpl.sealId = false
        ∨ unitAccess s p.tpl (ringOf s p.video.ring).bswr (temporalUnit p).length = none) →
      ∃ s', exec (.temporalUnitWrite i) s = .next s' ∧ (output s' (4 + i)).drops = (output s (4 + i)).drops + 1
        ∧ (p.closing = false → (kget? s'.pipes key).map (·.forceKey) = some true) ∧ s'.mem = s.mem)
  ∧ (∀ s i key p as_ s₁, let bs := temporalUnit p
      pipeOf s i = some (key, p) → unitReady p = true → ringFill (ringOf s p.video.ring) + bs.length ≤ p.tpl.bssize →
      sealLive s p.tpl.sealId = true → unitAccess s p.tpl (ringOf s p.video.ring).bswr bs.length = some (as_, s₁) →
      ∃ s', exec (.temporalUnitWrite i) s = .next s' ∧ s'.mem = (storeRange s₁ 0 p.tpl.sealId as_ bs).2.mem
        ∧ (ringOf s' p.video.ring).bswr = ((ringOf s p.video.ring).bswr + bs.length) % 2 ^ 32
        ∧ (p.closing = false → kget? s'.pipes key = some (nextUnit p false)))
  ∧ (∀ s i key p, pipeOf s i = some (key, p) → unitReady p = false → exec (.temporalUnitWrite i) s = .next s)
  ∧ (∀ s i, pipeOf s i = none → exec (.encodeTileRow i) s = .next s ∧ exec (.temporalUnitWrite i) s = .next s))
  ∧ ((∀ s o r l e, o < 8 → (output s o).armed = false → armChecks s o (output s o).params r l = .error e →
      exec (.outputArm o r l) s = .next (modOutput s o (fun x => { x with err := e })))
  ∧ (∀ s o r l s' t, o < 8 → (output s o).armed = false → armChecks s o (output s o).params r l = .ok (s', t) →
      ∃ s'', exec (.outputArm o r l) s = .next s'' ∧ (output s'' o).armed = true ∧ (output s'' o).err = 0
        ∧ (output s'' o).tpl = some t ∧ (output s'' o).arming = (output s' o).arming + 1
        ∧ (output s'' o).video = some { (output s o).params with
            loStrips := if (output s o).params.factor = 0 then 0 else (output s o).params.vactLo / (ringOf s' (output s o).params.loring).rsh }
        ∧ ∃ f, (output s'' o).nextChain = (f, (output s o).params.firstChain)
          ∧ ∃ c ∈ (output s'' o).scans, c.arm = (output s'' o).arming ∧ c.next = (f, 0))
  ∧ (∀ s o r l, (output s o).armed = true → exec (.outputArm o r l) s = .next s)
  ∧ (∀ s o, o < 8 → (output s o).armed = true → exec (.outputDisarm o) s = .next (disarmOutput s o))
  ∧ (∀ s o v, (output s o).video = some v → (output (disarmOutput s o) o).armed = false
      ∧ (output (disarmOutput s o) o).scans = (output s o).stopped v)
  ∧ (∀ s o, (output s o).armed = false → exec (.outputDisarm o) s = .next s)
  ∧ (∀ s r w, r < 8 → w.toNat.testBit 31 = true → ringBound s r = false → (ringOf s r).en = false →
      let g := { ringOf s r with w0 := w.toNat % 2 ^ 14 + w.toNat / 2 ^ 16 % 2 ^ 8 * 2 ^ 16 }
      exec (.ringEnable r w) s = .next (if ringFits s r g then modRing s r (fun x => { x with en := true, w0 := g.w0, slots := [] }) else s))
  ∧ (∀ s r w, r < 8 → w.toNat.testBit 31 = false → ringBound s r = false → (ringOf s r).en = true →
      exec (.ringDisable r w) s = .next (leavePages (modRing s r (fun g => { g with en := false })) (ringOf s r).remnants))
  ∧ (∀ s r w, r < 8 → ringBound s r = true → exec (.ringEnable r w) s = .next s ∧ exec (.ringDisable r w) s = .next s)
  ∧ (∀ s o, o < 4 → (output s o).armed = true → (output s o).link = true →
      exec (.headLinkLoss o) s = .next (logLink (modOutput s o (fun x => { x with link := false })) o false))
  ∧ (∀ s o (c : Scan), o < 4 → (output s o).armed = true → (output s o).link = false →
      (output s o).scans.find? (fun c => c.arm == (output s o).arming) = some c →
      exec (.linkRetrain o) s = .next (logLink (modOutput s o (fun x =>
        { x with link := true, resumeAt := some (if c.next.2 = 0 then c.next.1 else c.next.1 + 1) })) o true))
  ∧ (∀ s o, (output s o).armed = false → exec (.headLinkLoss o) s = .next s ∧ exec (.linkRetrain o) s = .next s))

/-- R191, R369, R370, R443, R445 to R447, R18: the discipline's edges, timestamps and losses, the refresh windows, and
the channels' boundaries, wakes and retunes; a channel whose queue is deeper than THR wakes by itself. R471 to R475: XBPARK answers
3 for a channel a chain needs or a wake of Ductus is pending for, 0 where it goes to sleep, 2 where it retunes and 1 where it sleeps
already; XBWAKE wakes one that sleeps; XBSTAT gives state and threshold around the flits that wait for the channel; LKSTAT reads a
fibre's wavelengths, its pair's partner and check failures, the resends at a pair, and the domain's word. A channel or selector that
is not one, or a threshold of 0 or above 1,023, is ILLEGAL_OP, reason 3. The discipline's changes of state are DEDUCED (log 119);
the wiring and the check failures (log 148), and the order and the packets of a queue (log 178), are DESIGN CHOICE. -/
def Obligations.TimeLinksAndChannels : Prop :=
  ((∀ s o, s.dev.tlock.state = 1 ∨ s.dev.tlock.state = 2 → ∃ s', exec (.ppsEdge o) s = .next s'
      ∧ s'.dev.tlock.pps = true ∧ s'.dev.tlock.lastPps = s.dev.mono ∧ s'.dev.tlock.offs = max (-32767) (min 32767 o)
      ∧ (let n := if o.natAbs ≤ 20 then s.dev.tlock.good + 1 else 0
        s'.dev.tlock.good = n ∧ s'.dev.tlock.state = if 16 ≤ n then 2 else 1))
  ∧ (∀ s a b c d, ∃ s', exec (.ptpin a b c d) s = .next s' ∧ s'.dev.tlock.lastStamp = s.dev.mono
      ∧ s'.dev.tlock.stamps = [a, b, c, d]
      ∧ s'.dev.tlock.state = if s.dev.tlock.state = 0 ∨ s.dev.tlock.state = 3 then 1 else s.dev.tlock.state)
  ∧ (∀ s, s.dev.tlock.state = 1 ∨ s.dev.tlock.state = 2 → s.dev.tlock.lastStamp + 3 * 2 ^ 30 ≤ s.dev.mono →
      ∃ s', exec .tlockHoldover s = .next s' ∧ s'.dev.tlock.state = 3 ∧ s'.tnow = s.tnow)
  ∧ (∀ s, s.dev.mono < s.dev.tlock.lastStamp + 3 * 2 ^ 30 → exec .tlockHoldover s = .next s)
  ∧ (∀ s, s.dev.tlock.pps = true → s.dev.tlock.lastPps + 3 * 2 ^ 29 ≤ s.dev.mono →
      ∃ s', exec .ppsLoss s = .next s' ∧ s'.dev.tlock.pps = false)
  ∧ (∀ s b, b < 32 → inWindow s.tnow b = true → ∃ s', exec (.refreshWindowStart b) s = .next s' ∧ b ∈ s'.dev.refresh)
  ∧ (∀ s b, inWindow s.tnow b = false → ∃ s', exec (.refreshWindowEnd b) s = .next s' ∧ b ∉ s'.dev.refresh)
  ∧ (∀ now b, inWindow now b = true ↔ 1000 * b ≤ now % 2 ^ 30 * 10 ^ 9 / 2 ^ 30 % 32000
      ∧ now % 2 ^ 30 * 10 ^ 9 / 2 ^ 30 % 32000 < 1000 * b + 512)
  ∧ (∀ s, frameOf s.tnow = s.dev.frameAt → exec .qosFrameBoundary s = .next s)
  ∧ (∀ s, frameOf s.tnow ≠ s.dev.frameAt → ∃ s', exec .qosFrameBoundary s = .next s' ∧ s'.dev.qframe = s.dev.qframe + 1
      ∧ s'.dev.frameAt = frameOf s.tnow ∧ s'.dev.channels = s.dev.channels.map (fun p => (p.1, p.2.boundary)))
  ∧ (∀ x : Channel, (x.state = 3 → x.boundary = { x with state := 1 }) ∧ (x.state = 2 → x.tuned = true → x.boundary = { x with state := 0 })
      ∧ (x.state = 2 → x.tuned = false → x.boundary = x) ∧ (x.state < 2 → x.boundary = x))
  ∧ (∀ s c, c < 36 → (channel s c).thr < queueDepth s c →
      ∃ s', exec (.automaticWake c) s = .next s' ∧ channel s' c = (channel s c).wake s.dev.mono)
  ∧ (∀ s c, queueDepth s c ≤ (channel s c).thr → exec (.automaticWake c) s = .next s)
  ∧ (∀ (x : Channel) now, (x.state = 1 → x.wake now = { x with state := 2, since := now, tuned := false })
      ∧ (x.state = 3 → x.wake now = { x with state := 0 }) ∧ (x.state = 0 ∨ x.state = 2 → x.wake now = x))
  ∧ (∀ s c, (channel s c).state = 2 → (channel s c).since + 2577 ≤ s.dev.mono →
      ∃ s', exec (.retuneEnd c) s = .next s' ∧ channel s' c = { channel s c with tuned := true })
  ∧ (∀ s c, s.dev.mono < (channel s c).since + 2577 → exec (.retuneEnd c) s = .next s)
  ∧ (∀ s o, (output s o).armed = false → exec (.ductusWake o) s = .next s)
  ∧ (∀ s o v t, (output s o).video = some v → (output s o).tpl = some t → (output s o).armed = true →
      (output s o).woken ≠ some (output s o).nextChain → t.claims = [] →
      chainStart v (output s o).nextChain.1 (output s o).nextChain.2 ≤ s.tnow + 3222 →
      exec (.ductusWake o) s = .next (modOutput s o (fun x => { x with woken := some x.nextChain })))
  ∧ (∀ s o v t, (output s o).video = some v → (output s o).tpl = some t → (output s o).armed = true →
      (output s o).woken ≠ some (output s o).nextChain → chainStart v (output s o).nextChain.1 (output s o).nextChain.2 ≤ s.tnow + 3222 →
      ∃ s', exec (.ductusWake o) s = .next s' ∧ (output s' o).woken = some (output s o).nextChain
        ∧ (∀ cl ∈ t.claims, let c := 16 + cl.1 / 16
          (channel s' c).state = ((channel s c).wake s.dev.mono).state
          ∧ (o, (output s o).arming, (output s o).nextChain.1, (output s o).nextChain.2) ∈ (channel s' c).wakes)
        ∧ (∀ c, (∀ cl ∈ t.claims, c ≠ 16 + cl.1 / 16) → channel s' c = channel s c))
  ∧ (∀ s o v, (output s o).video = some v → s.tnow + 3222 < chainStart v (output s o).nextChain.1 (output s o).nextChain.2 →
      exec (.ductusWake o) s = .next s)
  ∧ (∀ s, chainNear s = false → exec .ductusIdleExit s = .next s)
  ∧ (∀ s, s.dev.power.state = 0 → chainNear s = true →
      ∃ s', exec .ductusIdleExit s = .next s' ∧ s'.dev.power.early = true)
  ∧ (∀ s c, c < 36 → ∃ s', exec (.opticalToken c) s = .next s'
      ∧ channel s' c = { channel s c with token := (channel s c).token + 1 } ∧ s'.tnow = s.tnow
      ∧ s'.threads = (tokenVisit s c (channel s c).token).threads ∧ s'.mem = s.mem)
  ∧ (∀ s c n, waitingAt s c = [] → tokenVisit s c n = s ∧ queueDepth s c = 0)
  ∧ (∀ c sender n p ps s, p.flits ≤ n → sendUpTo c sender n (p :: ps) s = sendUpTo c sender (n - p.flits) ps (sendPacket s c sender p))
  ∧ (∀ c sender n p ps s, n < p.flits → sendUpTo c sender n (p :: ps) s = s)
  ∧ (∀ s c, 36 ≤ c → exec (.opticalToken c) s = .next s))
  ∧ ((∀ sw d a b x y, Runs (.xbpark sw d a b x y) [⟨a.toNat, 1, x⟩, ⟨b.toNat, 1, y⟩]
      (fun k => (k.th.reg a.toNat).toNat < 36 ∧ 1 ≤ (k.th.reg b.toNat).toNat ∧ (k.th.reg b.toNat).toNat ≤ 1023) (fun k =>
      let r := parkChannel k.s (k.th.reg a.toNat).toNat (k.th.reg b.toNat).toNat
      { st := modChannel k.s (k.th.reg a.toNat).toNat (fun _ => r.2), launch := answerOn 5 d [wordN r.1] }))
  ∧ (∀ sw d a b x y, Traps (.xbpark sw d a b x y) [⟨a.toNat, 1, x⟩, ⟨b.toNat, 1, y⟩]
      (fun k => 36 ≤ (k.th.reg a.toNat).toNat ∨ (k.th.reg b.toNat).toNat = 0 ∨ 1024 ≤ (k.th.reg b.toNat).toNat) 0x01 (illegalInfos 3))
  ∧ (∀ s c thr, (chainClaims s c = true ∨ (channel s c).wakes.any (wakePending s) = true) → parkChannel s c thr = (3, channel s c))
  ∧ (∀ s c thr, chainClaims s c = false → (channel s c).wakes.any (wakePending s) = false →
      parkChannel s c thr = if (channel s c).state = 0 then (0, { channel s c with state := 3, thr := thr })
        else if (channel s c).state = 2 then (2, channel s c) else (1, { channel s c with thr := thr }))
  ∧ (∀ sw d a x, Runs (.xbwake sw d a x) [⟨a.toNat, 1, x⟩]
      (fun k => (k.th.reg a.toNat).toNat < 36 ∧ ((channel k.s (k.th.reg a.toNat).toNat).state = 1
        ∨ (channel k.s (k.th.reg a.toNat).toNat).state = 3)) (fun k =>
      { st := modChannel k.s (k.th.reg a.toNat).toNat (fun x => x.wake k.s.dev.mono), launch := answerOn 5 d [0] }))
  ∧ (∀ sw d a x, Runs (.xbwake sw d a x) [⟨a.toNat, 1, x⟩]
      (fun k => (k.th.reg a.toNat).toNat < 36 ∧ ((channel k.s (k.th.reg a.toNat).toNat).state = 0
        ∨ (channel k.s (k.th.reg a.toNat).toNat).state = 2)) (fun k => { st := k.s, launch := answerOn 5 d [1] }))
  ∧ (∀ sw d a x, Runs (.xbstat sw d a x) [⟨a.toNat, 1, x⟩] (fun k => (k.th.reg a.toNat).toNat < 36) (fun k =>
      let c := (k.th.reg a.toNat).toNat
      { st := k.s, launch := answerOn 5 d [wordN (xbstatWord (channel k.s c) (queueDepth k.s c))] }))
  ∧ (∀ sw d a x, Traps (.xbwake sw d a x) [⟨a.toNat, 1, x⟩] (fun k => 36 ≤ (k.th.reg a.toNat).toNat) 0x01 (illegalInfos 3))
  ∧ (∀ sw d a x, Traps (.xbstat sw d a x) [⟨a.toNat, 1, x⟩] (fun k => 36 ≤ (k.th.reg a.toNat).toNat) 0x01 (illegalInfos 3))
  ∧ (∀ x n, xbstatWord x n / 2 ^ 6 % 4 = x.state % 4 ∧ xbstatWord x n / 2 ^ 22 = x.thr % 2 ^ 10
      ∧ xbstatWord x n / 2 ^ 12 % 2 ^ 10 = min 1023 n)
  ∧ (∀ sw d a x, Runs (.lkstat sw d a x) [⟨a.toNat, 1, x⟩] (fun k => (k.th.reg a.toNat).toNat < 128) (fun k =>
      let w := fibreUp k.s (k.th.reg a.toNat).toNat
      { st := k.s, launch := answerOn 5 d [w.setWidth 32, (w >>> 32).setWidth 32] }))
  ∧ (∀ sw d a x f, f < 128 → Runs (.lkstat sw d a x) [⟨a.toNat, 1, x⟩] (fun k => (k.th.reg a.toNat).toNat = 0x100 + f) (fun k =>
      let n := Config.freeNat (draw k.s 1).1
      { st := countChecks (draw k.s 1).2 f n
        launch := answerOn 5 d [wordN (Config.partner (f % 64) % 2 ^ 12 + b2n (pairUp k.s (f % 64)) * 2 ^ 12
            + popcount64 (fibreUp k.s f) * 2 ^ 16), wordN (min (kgetD k.s.domain.checks f 0 + n) (2 ^ 32 - 1))] }))
  ∧ (∀ sw d a x f, f < 128 → Runs (.lkstat sw d a x) [⟨a.toNat, 1, x⟩] (fun k => (k.th.reg a.toNat).toNat = 0x200 + f) (fun k =>
      let n := kgetD k.s.domain.resends (f % 64) 0
      { st := k.s, launch := answerOn 5 d [wordN (n % 2 ^ 32), wordN (n / 2 ^ 32 % 2 ^ 32)] }))
  ∧ (∀ sw d a x, Runs (.lkstat sw d a x) [⟨a.toNat, 1, x⟩] (fun k => (k.th.reg a.toNat).toNat = 0x300) (fun k =>
      { st := k.s
        launch := answerOn 5 d [wordN (b2n k.s.domain.en * 2 ^ 31 + k.s.domain.pkg % 2 ^ 12), wordN (min k.s.domain.unreachable.length (2 ^ 32 - 1))] }))
  ∧ (∀ sw d a x, Traps (.lkstat sw d a x) [⟨a.toNat, 1, x⟩]
      (fun k => (k.th.reg a.toNat).toNat &&& 0xFFFFFC80 ≠ 0 ∨ (0x300 < (k.th.reg a.toNat).toNat ∧ (k.th.reg a.toNat).toNat < 0x380)) 0x01 (illegalInfos 3)))

/-- R220, R448 to R452: a numbered request is entered, performed at most once and its reply kept, and one whose page waits for the
host stays entered to be performed; an acknowledged reply leaves
the table; a reply that names no request is discarded, and one that names a thread's load gives it its bytes; a
request without a reply is sent again at most 8 times before its package is unreachable; a wavelength that fails stays
down. -/
def Obligations.RequestsBetweenPackages : Prop :=
  (∀ s r, s.domain.en = false → exec (.remoteRequestArrival r) s = .next s)
  ∧ (∀ s r, s.domain.en = true → requestNumbered r = true → (dedupOf s r.slice).any (fun e => e.src == r.src && e.num == r.seq) = true →
      exec (.remoteRequestArrival r) s = .next s)
  ∧ (∀ s r bs s', s.domain.en = true → requestNumbered r = true →
      (dedupOf s r.slice).any (fun e => e.src == r.src && e.num == r.seq) = false →
      seqBelow r.seq (lowMarkOf s r.src r.slice) = false → (dedupOf s r.slice).length < 256 →
      let e : Dedup := { src := r.src, num := r.seq, reply := none }
      performRequest (modDomain s (fun d => { d with dedup := kset d.dedup r.slice (dedupOf s r.slice ++ [e]) })) r = (some bs, s') →
      dedupOf s' r.slice = dedupOf s r.slice ++ [e] →
      ∃ s'', exec (.remoteRequestArrival r) s = .next s'' ∧ s''.mem = s'.mem
        ∧ (dedupOf s'' r.slice) = dedupOf s r.slice ++ [{ e with reply := some bs }])
  ∧ (∀ s r s', s.domain.en = true → requestNumbered r = true →
      (dedupOf s r.slice).any (fun e => e.src == r.src && e.num == r.seq) = false →
      seqBelow r.seq (lowMarkOf s r.src r.slice) = false → (dedupOf s r.slice).length < 256 →
      let e : Dedup := { src := r.src, num := r.seq, reply := none }
      performRequest (modDomain s (fun d => { d with dedup := kset d.dedup r.slice (dedupOf s r.slice ++ [e]) })) r = (none, s') →
      dedupOf s' r.slice = dedupOf s r.slice ++ [e] →
      ∃ s'', exec (.remoteRequestArrival r) s = .next s'' ∧ s''.mem = s'.mem
        ∧ (dedupOf s'' r.slice) = dedupOf s r.slice ++ [{ e with waiting := some r }])
  ∧ (∀ s r, sealLive s r.sealId = false → performRequest s r = (some [5], s))
  ∧ (∀ s r, s.domain.en = true → requestNumbered r = false → exec (.remoteRequestArrival r) s = .next (performRequest s r).2)
  ∧ (∀ s p sl n, (dedupOf s sl).any (fun e => e.src == p && e.num == n && !e.acked) = false →
      exec (.acknowledgement p sl n) s = .next (modDomain s (fun d => { d with toAck := d.toAck.erase (p, sl, n) })))
  ∧ (∀ s p sl, dedupOf s sl = [{ src := p, num := lowMarkOf s p sl, reply := none, acked := false }] →
      ∃ s', exec (.acknowledgement p sl (lowMarkOf s p sl)) s = .next s' ∧ dedupOf s' sl = []
        ∧ lowMarkOf s' p sl = (lowMarkOf s p sl + 1) % 2 ^ 32)
  ∧ (∀ s, s.heirs = [] → settleHeirs s = s)
  ∧ (∀ s p sl n data, reqOf s p sl n = none → exec (.remoteReplyArrival p sl n data) s = .next (settleHeirs s)
      ∧ exec (.retransmissionTimeout p sl n) s = .next s ∧ exec (.busyResend p sl n) s = .next s)
  ∧ (∀ s p sl n id r c t seq bs b0 b1 rest, reqOf s p sl n = some (id, r) → r.by_ = .thread t c seq → bs = b0 :: b1 :: rest →
      ∃ s₁, s₁.threads = s.threads ∧ s₁.mem = s.mem
        ∧ exec (.remoteReplyArrival p sl n bs) s = .next (settleHeirs (threadReply s₁ id r t seq (leNat (bs.take 8)) (bs.drop 8))))
  ∧ (∀ s p sl n id r, reqOf s p sl n = some (id, r) → r.sends < 8 → ∃ s', exec (.retransmissionTimeout p sl n) s = .next s'
      ∧ (kget? s'.domain.reqs id).map (·.sends) = some (r.sends + 1) ∧ s'.threads = s.threads ∧ s'.mem = s.mem)
  ∧ (∀ s p sl n id r, reqOf s p sl n = some (id, r) → 8 ≤ r.sends → exec (.retransmissionTimeout p sl n) s = .next (unreachable s p))
  ∧ (∀ s p sl n id r, reqOf s p sl n = some (id, r) → ∃ s', exec (.busyResend p sl n) s = .next s'
      ∧ (kget? s'.domain.reqs id).map (·.sends) = some (max 1 r.sends) ∧ s'.mem = s.mem)
  ∧ (∀ s f m, f < 128 → ∃ s', exec (.wavelengthRetrain f m) s = .next s' ∧ fibreUp s' f = fibreUp s f &&& m)
  ∧ (∀ s d h, d ≠ s.domain.pkg → h < 16 → domtab s d < 64 → ∃ s', exec (.tsuxusForwarding d h) s = .next s'
      ∧ s'.domain.forwarded = s.domain.forwarded + 1 ∧ s'.domain.dropped = s.domain.dropped ∧ s'.mem = s.mem)
  ∧ (∀ s d h, d ≠ s.domain.pkg → 16 ≤ h → ∃ s', exec (.tsuxusForwarding d h) s = .next s' ∧ s'.domain.dropped = s.domain.dropped + 1)

/-- R418, R420 to R424: a detected error that is corrected only counts; one in an entry that can be had again drops
the entry and is logged as such; one in an entry of a seal ends that seal; a seal that is ENDING and holds nothing
becomes FREE. R425 to R427: with EN set a grid whose count has reached W1 is pre-empted and told; W1 + W2 ends its
seal with a record; after W3 the core is fenced; each changes nothing before its time, and a fenced core with no team
left comes back. -/
def Obligations.ErrorsAndWatchdog : Prop :=
  ((∀ s u, s.errors.due = [] → exec (.correctableError u) s =
      .next (modErrors s (fun e => { e with corr := min (e.corr + 1) 65535 })))
  ∧ (∀ s u, s.errors.due = [] → (u.struct = 0x14 → u.both = false) → refetched s u = true → (unitSeal s u = 0 ∨ (sealOf s (unitSeal s u)).state ≠ 2) →
      exec (.uncorrectableError u) s =
        .next (logError (settleAfter (loseEntry (quarantine s u) u) u) u 2 (unitSeal s u) (unitIndex s u) 0 false))
  ∧ (∀ s u, s.errors.due = [] → (u.struct = 0x14 → u.both = false) → refetched s u = false → unitSeal s u ≠ 0 →
      (sealOf s (unitSeal s u)).state ≠ 2 →
      let r := sealEnd (settleAfter (loseEntry (quarantine s u) u) u) (unitSeal s u) causeSealedErr 1
      exec (.uncorrectableError u) s =
        .next (logError r.2.2 u 1 (unitSeal s u) (unitIndex s u) (endCounts r.1 r.2.1) false))
  ∧ (∀ s u, s.errors.due = [] → u.struct = 0x14 → u.both = true →
      exec (.uncorrectableError u) s = .next (fatal (logError s u 7 0 (unitIndex s u) 0 false)))
  ∧ (∀ s, (fatal s).dev.power.state = 3 ∧ (fatal s).errors.fatal = true)
  ∧ (∀ s, errstat s = min s.errors.corr 65535 * 2 ^ 16 + min s.errors.uncorr 255 * 2 ^ 8 + min s.errors.quarantined.length 255)
  ∧ (∀ s x, (sealOf s x).state = 2 → sealDrained s x = true → ∃ s', exec (.sealFree x) s = .next s' ∧ (sealOf s' x).state = 0
      ∧ (∀ p ∈ s'.regions, p.2.sealId ≠ x) ∧ (∀ p ∈ s'.lines.pins, p.sealId ≠ x)
      ∧ ((sealOf s x).rayAreas = [] → s'.mem = s.mem) ∧ (sealOf s' x).rayAreas = [])
  ∧ (∀ s x, (sealOf s x).state ≠ 2 ∨ sealDrained s x = false → exec (.sealFree x) s = .next s))
  ∧ ((∀ s gid g, grid? s gid = some g → g.hidden = false → g.wdStep = 0 → flag (wdog s g.lr.queue) 31 = true →
      fld (wdog s g.lr.queue) 0 10 * 2 ^ 20 ≤ g.wdCount → exec (.watchdogW1 gid) s = .next (watchdog1 s gid g.lr.queue))
  ∧ (∀ s gid g, grid? s gid = some g → (flag (wdog s g.lr.queue) 31 = false ∨ g.wdCount < fld (wdog s g.lr.queue) 0 10 * 2 ^ 20) →
      exec (.watchdogW1 gid) s = .next s)
  ∧ (∀ s gid g, grid? s gid = some g → g.wdStep = 1 → fld (wdog s g.lr.queue) 10 10 * 2 ^ 20 ≤ g.wdSince →
      (sealOf s (g.lr.sealId % 1024)).state = 1 → (gridTeams s gid).any (fun p => !p.2.evicted) = true →
      let x := g.lr.sealId % 1024
      let r := sealEnd (modGrid s gid (fun g => { g with wdStep := 2 })) x causeWatchdog 1
      exec (.watchdogW2 gid) s = .next (logEvent
        (modSeal r.2.2 x (fun e => { e with wdAt := some r.2.2.aclk, wdQueue := g.lr.queue }))
        { kind := 3, sealId := x, index := g.lr.queue, syndrome := causeWatchdog, extra := endCounts r.1 r.2.1 }))
  ∧ (∀ s gid g, grid? s gid = some g → g.wdSince < fld (wdog s g.lr.queue) 10 10 * 2 ^ 20 → exec (.watchdogW2 gid) s = .next s)
  ∧ (∀ s c x q, overdueSeal s c = some (x, q) → (core s c).fenced = false → exec (.watchdogW3 c) s =
      .next (logEvent (fenceCore s c x) { kind := 4, sealId := x, index := c % 2 ^ 10 * 2 ^ 22, syndrome := causeWatchdog }))
  ∧ (∀ s c, overdueSeal s c = none → exec (.watchdogW3 c) s = .next s)
  ∧ (∀ s c, (core s c).fenced = true → coreTeams s c = [] → exec (.coreReturn c) s =
      .next (remakeReserves (selfTest (modCore s c (fun k => { k with fenced := false })) c)))
  ∧ (∀ s c, (core s c).fenced = false ∨ coreTeams s c ≠ [] → exec (.coreReturn c) s = .next s))

/-- R456: a command of 64 bytes is accepted where an entry is free and answered OVERRUN where none is; a command's
record is written at STHEAD, and the command leaves the list; one accepted during bring-up waits for its end (the
model's reading, log 176). R457 to R462: UPLOAD, TRIGGER, SEALNEW, SEALEND and
ABORT while the package runs: a bad field is BADCMD with its offset (the first in byte order, DEDUCED, log 125), a bad graph image
BADCMD with the offset of its first bad field (DESIGN CHOICE, log 124), a seal that is not the command's to use BADSEAL, a range past scheduler
memory or with a lost line (DESIGN CHOICE, log 180) NOSPACE, a range or a graph in use BUSY, in that order (DEDUCED, log 126), and else the command
has its effect and is answered. -/
def Obligations.GraphAndSealCommands : Prop :=
  ((∀ s bs, bs.length = 64 → 64 ≤ s.dev.commands.length →
      exec (.commandWrite bs) s = .next (record s bs 5 none))
  ∧ (∀ s bs, bs.length ≠ 64 → exec (.commandWrite bs) s = .next s)
  ∧ (∀ s bs, bs.length = 64 → s.dev.power.state = 4 → s.dev.commands.length < 64 →
      exec (.commandWrite bs) s = .next (modDev s (fun d => { d with commands := d.commands ++ [bs] })))
  ∧ (∀ s bs, bs.length = 64 → s.dev.commands.length < 64 → 1 ≤ cmdOp bs → cmdOp bs ≤ 9 →
      (∀ c, s.dev.commands.head? = some c → 1 ≤ cmdOp c ∧ cmdOp c ≤ 9) →
      exec (.commandWrite bs) s = .next (modDev s (fun d => { d with commands := d.commands ++ [bs] })))
  ∧ (∀ s bs, s.dev.commands = [] → bs.length = 64 → s.dev.power.state = 0 → (cmdOp bs = 0 ∨ 9 < cmdOp bs) →
      ∃ s', exec (.commandWrite bs) s = .next s' ∧ s'.dev.commands = []
        ∧ kget? s'.rings.status s.rings.stHead = some (statusBytes (cmdTag bs) (cmdOp bs) 1 0 s.tnow))
  ∧ (∀ s i c code v, (∀ c', (s.dev.commands.eraseIdx i).head? = some c' → 1 ≤ cmdOp c' ∧ cmdOp c' ≤ 9) →
      let s' := answer s i c code (some v)
      kget? s'.rings.status s.rings.stHead = some (statusBytes (cmdTag c) (cmdOp c) code v s.tnow)
        ∧ s'.rings.stHead = (s.rings.stHead + 1) % 256 ∧ s'.dev.commands = s.dev.commands.eraseIdx i
        ∧ s'.dev.carried = (s.dev.carried + 1) % 2 ^ 32 ∧ s'.mem = s.mem ∧ s'.threads = s.threads))
  ∧ ((∀ s i c b, nextCommand s = some (i, c) → s.dev.power.state = 0 → cmdOp c = 1 → uploadBad c = some b →
      exec .upload s = .next (answer s i c 1 (some b)))
  ∧ (∀ s i c bs s', nextCommand s = some (i, c) → s.dev.power.state = 0 → cmdOp c = 1 → uploadBad c = none →
      sealLive s (bfld c 4 2) = true →
      (∀ e ∈ range (bfld c 16 4 / 64) (bfld c 20 4 / 64), ∀ x, kget? s.schedTags e = some x → x = bfld c 4 2) →
      bfld c 16 4 + bfld c 20 4 ≤ 2 ^ 24 → schedLost s (bfld c 16 4) (bfld c 20 4) = false →
      uploadBusy s (bfld c 16 4) (bfld c 20 4) (bfld c 6 2) = false →
      readDevice s (bfld c 8 8) (bfld c 20 4) (bfld c 4 2) = (bs, s') →
      (bfld c 6 2 = 0xFFFF ∨ imageBad (Memory.writeBytes s.sched (bfld c 16 4) bs) (bfld c 16 4) (bfld c 20 4) (bfld c 4 2) = none) →
      exec .upload s = .next (answer (storeUpload s' (bfld c 16 4) (bfld c 4 2) (bfld c 6 2) bs) i c 0 none))
  ∧ (∀ s i c bs s' o, nextCommand s = some (i, c) → s.dev.power.state = 0 → cmdOp c = 1 → uploadBad c = none →
      sealLive s (bfld c 4 2) = true →
      (∀ e ∈ range (bfld c 16 4 / 64) (bfld c 20 4 / 64), ∀ x, kget? s.schedTags e = some x → x = bfld c 4 2) →
      bfld c 16 4 + bfld c 20 4 ≤ 2 ^ 24 → schedLost s (bfld c 16 4) (bfld c 20 4) = false →
      uploadBusy s (bfld c 16 4) (bfld c 20 4) (bfld c 6 2) = false →
      readDevice s (bfld c 8 8) (bfld c 20 4) (bfld c 4 2) = (bs, s') → bfld c 6 2 ≠ 0xFFFF →
      imageBad (Memory.writeBytes s.sched (bfld c 16 4) bs) (bfld c 16 4) (bfld c 20 4) (bfld c 4 2) = some o →
      exec .upload s = .next (answer s i c 1 (some o)))
  ∧ (∀ s i c, nextCommand s = some (i, c) → s.dev.power.state = 0 → cmdOp c = 1 → uploadBad c = none →
      (sealLive s (bfld c 4 2) = false
        ∨ ∃ e ∈ range (bfld c 16 4 / 64) (bfld c 20 4 / 64), ∃ x, kget? s.schedTags e = some x ∧ x ≠ bfld c 4 2) →
      exec .upload s = .next (answer s i c 2 none))
  ∧ (∀ s i c, nextCommand s = some (i, c) → s.dev.power.state = 0 → cmdOp c = 1 → uploadBad c = none → sealLive s (bfld c 4 2) = true →
      (∀ e ∈ range (bfld c 16 4 / 64) (bfld c 20 4 / 64), ∀ x, kget? s.schedTags e = some x → x = bfld c 4 2) →
      (2 ^ 24 < bfld c 16 4 + bfld c 20 4 ∨ schedLost s (bfld c 16 4) (bfld c 20 4) = true) →
      exec .upload s = .next (answer s i c 4 none))
  ∧ (∀ s i c, nextCommand s = some (i, c) → s.dev.power.state = 0 → cmdOp c = 1 → uploadBad c = none → sealLive s (bfld c 4 2) = true →
      (∀ e ∈ range (bfld c 16 4 / 64) (bfld c 20 4 / 64), ∀ x, kget? s.schedTags e = some x → x = bfld c 4 2) →
      bfld c 16 4 + bfld c 20 4 ≤ 2 ^ 24 → schedLost s (bfld c 16 4) (bfld c 20 4) = false →
      uploadBusy s (bfld c 16 4) (bfld c 20 4) (bfld c 6 2) = true → exec .upload s = .next (answer s i c 3 none))
  ∧ (∀ s i c x, nextCommand s = some (i, c) → s.dev.power.state = 0 → cmdOp c = 2 → triggerBad s c = none →
      kget? s.dev.graphs (bfld c 4 2) = some x → (bfld c 6 2 % 1024 ≠ x.sealId ∨ sealLive s x.sealId = false) →
      exec .trigger s = .next (answer s i c 2 none))
  ∧ (∀ s i c b, nextCommand s = some (i, c) → s.dev.power.state = 0 → cmdOp c = 2 → triggerBad s c = some b →
      exec .trigger s = .next (answer s i c 1 (some b)))
  ∧ (∀ s i c x, nextCommand s = some (i, c) → s.dev.power.state = 0 → cmdOp c = 2 → triggerBad s c = none →
      kget? s.dev.graphs (bfld c 4 2) = some x → bfld c 6 2 % 1024 = x.sealId → sealLive s x.sealId = true → x.run = none → bfld c 8 1 = 0 →
      exec .trigger s = .next (answerUnknown 64 (retireCmd (advanceGraph (record (startRun s (bfld c 4 2) c) c 8 none) (bfld c 4 2)) i)))
  ∧ (∀ s i c x r, nextCommand s = some (i, c) → s.dev.power.state = 0 → cmdOp c = 2 → triggerBad s c = none →
      kget? s.dev.graphs (bfld c 4 2) = some x → bfld c 6 2 % 1024 = x.sealId → sealLive s x.sealId = true → x.run = some r →
      exec .trigger s = .next (answer s i c 3 none))
  ∧ (∀ s i c x, nextCommand s = some (i, c) → s.dev.power.state = 0 → cmdOp c = 4 → sealnewBad c = none →
      newSeal s (bfld c 4 2) = some x → exec .sealnew s = .next (answer (makeSeal s x c) i c 0 (some x)))
  ∧ (∀ s x c, (sealOf (makeSeal s x c) x).state = 1 ∧ (sealOf (makeSeal s x c) x).ptroot = bfld c 8 8
      ∧ (sealOf (makeSeal s x c) x).vbase = bfld c 16 8 ∧ (sealOf (makeSeal s x c) x).pool = bfld c 24 8
      ∧ (sealOf (makeSeal s x c) x).poolsz = bfld c 32 4)
  ∧ (∀ s i c, nextCommand s = some (i, c) → s.dev.power.state = 0 → cmdOp c = 4 → sealnewBad c = none →
      newSeal s (bfld c 4 2) = none → exec .sealnew s = .next (answer s i c 2 none))
  ∧ (∀ s i c, nextCommand s = some (i, c) → s.dev.power.state = 0 → cmdOp c = 5 → bfld c 4 2 ≠ 0 →
      (sealOf s (bfld c 4 2)).state = 1 → exec .sealend s =
        .next (modDev (sealEndOnly s (bfld c 4 2) 0 1) (fun d => { d with begun := true })))
  ∧ (∀ s i c, nextCommand s = some (i, c) → s.dev.power.state = 0 → cmdOp c = 5 → bfld c 4 2 ≠ 0 →
      (sealOf s (bfld c 4 2)).state = 0 → s.dev.begun = true → exec .sealend s = .next (answer (dropSched s (bfld c 4 2)) i c 0 none))
  ∧ (∀ s i c, nextCommand s = some (i, c) → s.dev.power.state = 0 → cmdOp c = 6 → bfld c 4 2 ≠ 0 →
      (sealOf s (bfld c 4 2)).state ≠ 0 → exec .abort s = .next (answer (sealEndOnly s (bfld c 4 2) 0 2) i c 0 none))
  ∧ (∀ s i c, nextCommand s = some (i, c) → s.dev.power.state = 0 → cmdOp c = 6 →
      (bfld c 4 2 = 0 ∨ (sealOf s (bfld c 4 2)).state = 0) → exec .abort s = .next (answer s i c 2 none)))

/-- R463 to R466, R470: RESYNC writes the summary, TIMESET steps the counter while no output is armed or configures
the discipline, ATTEST writes its report, whose count includes it (DEDUCED, log 132), and FWLOAD takes the image in the staging
window (DESIGN CHOICE, log 193) and restarts bring-up where nothing is in use or the package is in RECOVERY; what a restart keeps,
LPDDR among it, is DEDUCED (log 134). -/
def Obligations.DeviceCommands : Prop :=
  (∀ s i c, nextCommand s = some (i, c) → s.dev.power.state = 0 → cmdOp c = 3 →
      exec .resync s = .next (answer (modDev s (fun d => { d with summary := summaryBytes s })) i c 0 none))
  ∧ (∀ s i c, nextCommand s = some (i, c) → s.dev.power.state = 0 → cmdOp c = 7 → flag (cmdFlags c) 0 = true → flag (cmdFlags c) 1 = false →
      s.outputs.any (fun p => p.2.armed) = false → exec .timesetStep s = .next (answer (stepTime s (bfld c 8 8)) i c 0 none))
  ∧ (∀ s v, (stepTime s v).tnow = v ∧ (stepTime s v).mem = s.mem)
  ∧ (∀ s i c, nextCommand s = some (i, c) → s.dev.power.state = 0 → cmdOp c = 7 → flag (cmdFlags c) 0 = true →
      s.outputs.any (fun p => p.2.armed) = true → exec .timesetStep s = .next (answer s i c 9 none))
  ∧ (∀ s i c, nextCommand s = some (i, c) → s.dev.power.state = 0 → cmdOp c = 7 → flag (cmdFlags c) 0 = false → flag (cmdFlags c) 1 = true →
      exec .timesetConfig s = .next (answer (configTime s c) i c 0 none))
  ∧ (∀ s c, (configTime s c).dev.tlock.domain = bfld c 16 1 ∧ (configTime s c).dev.tlock.state = 1 ∧ (configTime s c).tnow = s.tnow)
  ∧ (∀ s i c, nextCommand s = some (i, c) → s.dev.power.state = 0 → cmdOp c = 9 →
      exec .attest s = .next (let s1 := modDev (draw s 2420).2 (fun d => { d with reports := d.reports + 1 })
        answer (modDev s1 (fun d => { d with report := reportBytes s1 ((c.drop 4).take 32) s.draws })) i c 0 none))
  ∧ (∀ s i c, nextCommand s = some (i, c) → s.dev.power.state = 0 → cmdOp c = 8 → bfld c 8 4 ≠ 0 → bfld c 8 4 ≤ 2 ^ 25 →
      s.seals.any (fun p => p.1 != 0 && p.2.state == 1) = false → s.outputs.any (fun p => p.2.armed) = false →
      exec (.fwload true) s = .next (restart (retireCmd
        (record (modDev s (fun d => { d with firmware := Memory.readBytes (stagingWindow s) 0 (bfld c 8 4) })) c 0 none) i)))
  ∧ (∀ s i c, nextCommand s = some (i, c) → s.dev.power.state = 3 → cmdOp c = 8 → bfld c 8 4 ≠ 0 → bfld c 8 4 ≤ 2 ^ 25 →
      exec (.fwload true) s = .next (restart (retireCmd
        (record (modDev s (fun d => { d with firmware := Memory.readBytes (stagingWindow s) 0 (bfld c 8 4) })) c 0 none) i))
      ∧ exec (.fwload false) s = .next (answer s i c 10 none))
  ∧ (∀ s i c, nextCommand s = some (i, c) → s.dev.power.state ≠ 4 → cmdOp c = 8 → (bfld c 8 4 = 0 ∨ 2 ^ 25 < bfld c 8 4) →
      exec (.fwload true) s = .next (answer s i c 1 (some 8)))
  ∧ (∀ s, (restart s).dev.stage = 1 ∧ (restart s).dev.power.state = 4 ∧ (restart s).mem = s.mem ∧ (restart s).threads = []
      ∧ (restart s).dev.firmware = s.dev.firmware)
  ∧ (∀ s i c, nextCommand s = some (i, c) → s.dev.power.state = 0 → cmdOp c = 8 → bfld c 8 4 ≠ 0 → bfld c 8 4 ≤ 2 ^ 25 →
      (s.seals.any (fun p => p.1 != 0 && p.2.state == 1) = true ∨ s.outputs.any (fun p => p.2.armed) = true) →
      exec (.fwload true) s = .next (answer s i c 9 none))
  ∧ (∀ s i c, nextCommand s = some (i, c) → s.dev.power.state = 0 → cmdOp c = 8 → bfld c 8 4 ≠ 0 → bfld c 8 4 ≤ 2 ^ 25 →
      fwloadRefused s = false → exec (.fwload false) s = .next (answer s i c 10 none))
  ∧ (∀ s i c, nextCommand s = some (i, c) → s.dev.power.state = 3 →
      (cmdOp c = 1 → exec .upload s = .next (answer s i c 9 none)) ∧ (cmdOp c = 2 → exec .trigger s = .next (answer s i c 9 none))
      ∧ (cmdOp c = 4 → exec .sealnew s = .next (answer s i c 9 none)) ∧ (cmdOp c = 5 → exec .sealend s = .next (answer s i c 9 none))
      ∧ (cmdOp c = 6 → exec .abort s = .next (answer s i c 9 none)) ∧ (cmdOp c = 9 → exec .attest s = .next (answer s i c 9 none)))

/-- R17, R469: reset leaves the firmware slot, with memory and the time counter as logs 1, 3 (DESIGN CHOICE) and 134 (DEDUCED) say;
each stage of bring-up that ends well leads to the next, a failed verification to RECOVERY once the boot ROM has trained UCIe, and READY comes with LOCKED or after 10 s, with every register of the region at its Reset (R6;
the model's reading, log 176); a stage's end out of turn changes nothing. R18 to
R21: PWRLIM takes STBY and its limit held to 1,200 to 2,900 W; STANDBY is entered where the package is idle with no
output armed, and left when STBY is cleared; one power step more or less comes into force in each window. -/
def Obligations.BringUpAndPower : Prop :=
  ((∀ s, ∃ s', exec .reset s = .next s' ∧ s'.threads = [] ∧ s'.mem = [] ∧ s'.seals = [] ∧ s'.tnow = 0 ∧ s'.dev.stage = 1
      ∧ s'.dev.power.state = 4 ∧ s'.dev.commands = [] ∧ s'.dev.firmware = s.dev.firmware)
  ∧ (∀ s maps, s.dev.power.state = 4 → s.dev.stage = 1 → s.dev.fail = 0 → ∃ s', exec (.firmwareVerification (some maps)) s = .next s'
      ∧ s'.dev.stage = 2 ∧ s'.dev.power.state = 4 ∧ s'.dev.maps = installed maps)
  ∧ (∀ s, s.dev.power.state = 4 → s.dev.stage = 1 → s.dev.fail = 0 → ∃ s', exec (.firmwareVerification none) s = .next s'
      ∧ s'.dev.stage = 1 ∧ s'.dev.fail = 1 ∧ s'.dev.power.state = 4)
  ∧ (∀ s, s.dev.power.state = 4 → s.dev.stage = 1 → s.dev.fail = 1 → exec (.ucieTraining false) s = .next s
      ∧ ∃ s', exec (.ucieTraining true) s = .next s' ∧ s'.dev.power.state = 3 ∧ s'.dev.stage = 1 ∧ s'.dev.fail = 1)
  ∧ (∀ s, s.dev.power.state = 4 → s.dev.stage = 2 → (∃ s', exec (.ucieTraining true) s = .next s' ∧ s'.dev.stage = 3)
      ∧ ∃ s', exec (.ucieTraining false) s = .next s' ∧ s'.dev.stage = 2 ∧ s'.dev.fail = 2)
  ∧ (∀ s c, s.dev.power.state = 4 → s.dev.stage = 3 → s.dev.fail = 0 → (∃ s', exec (.lpddrTraining none) s = .next s' ∧ s'.dev.stage = 4)
      ∧ ∃ s', exec (.lpddrTraining (some c)) s = .next s' ∧ s'.dev.stage = 3 ∧ s'.dev.fail = 3)
  ∧ (∀ s, s.dev.power.state = 4 → s.dev.stage = 4 → s.dev.fail = 0 → (∃ s', exec (.damlanRingTuning true) s = .next s' ∧ s'.dev.stage = 5)
      ∧ ∃ s', exec (.damlanRingTuning false) s = .next s' ∧ s'.dev.stage = 4 ∧ s'.dev.fail = 4)
  ∧ (∀ s ms, s.dev.power.state = 4 → s.dev.stage = 5 → s.dev.fail = 0 → ∃ s', exec (.tsuxusTraining ms) s = .next s' ∧ s'.dev.stage = 6)
  ∧ (∀ s, s.dev.power.state = 4 → s.dev.stage = 6 → s.dev.fail = 0 →
      (s.dev.tlock.state = 2 ∨ s.dev.stageAt + 10 * 2 ^ 30 ≤ s.dev.mono) →
      ∃ s', exec .ptpLock s = .next s' ∧ s'.dev.stage = 7 ∧ s'.dev.power.state = 0 ∧ pwrlim s' = 2900 ∧ domcfg s' = 0 ∧ s'.outputs = []
        ∧ s'.reservoir = [] ∧ s'.dev.wdog = [])
  ∧ (∀ s, s.dev.power.state = 4 → s.dev.stage = 6 → s.dev.tlock.state ≠ 2 → s.dev.mono < s.dev.stageAt + 10 * 2 ^ 30 →
      exec .ptpLock s = .next s)
  ∧ (∀ s b maps ms, s.dev.power.state ≠ 4 → exec (.firmwareVerification maps) s = .next s ∧ exec (.ucieTraining b) s = .next s
      ∧ exec (.damlanRingTuning b) s = .next s ∧ exec (.tsuxusTraining ms) s = .next s ∧ exec .ptpLock s = .next s))
  ∧ ((∀ s w, w.toNat.testBit 31 = true → ∃ s', exec (.standbyRequest w) s = .next s' ∧ s'.dev.power.stby = true
      ∧ s'.dev.power.limit = max 1200 (min 2900 (w.toNat % 2 ^ 12)) ∧ s'.dev.power.state = s.dev.power.state)
  ∧ (∀ s w, w.toNat.testBit 31 = false → exec (.standbyRequest w) s = .next s)
  ∧ (∀ s w, w.toNat.testBit 31 = false → s.dev.graphs = [] → ∃ s', exec (.standbyClear w) s = .next s' ∧ s'.dev.power.stby = false
      ∧ s'.dev.power.limit = max 1200 (min 2900 (w.toNat % 2 ^ 12)) ∧ (s.dev.power.state = 2 → s'.dev.power.state = 0))
  ∧ (∀ s w, w.toNat.testBit 31 = false →
      let s₁ := modDev s (fun d => { d with power := { d.power with
        stby := false, limit := max 1200 (min 2900 (w.toNat % 2 ^ 12)), state := if d.power.state = 2 then 0 else d.power.state } })
      exec (.standbyClear w) s = .next (advanceGraphs s₁) ∧ exec (.powerLimitWrite w) s = .next (advanceGraphs s₁))
  ∧ (∀ s w, w.toNat.testBit 31 = true → exec (.powerLimitWrite w) s = .next (modDev s (fun d => { d with power := { d.power with
        stby := true, limit := max 1200 (min 2900 (w.toNat % 2 ^ 12)) } })))
  ∧ (∀ s w, w.toNat.testBit 31 = true → exec (.standbyClear w) s = .next s)
  ∧ (∀ s w, s.dev.graphs = [] → ∃ s', exec (.powerLimitWrite w) s = .next s' ∧ pwrlim s' = w.toNat / 2 ^ 31 * 2 ^ 31
      + max 1200 (min 2900 (w.toNat % 2 ^ 12)))
  ∧ (∀ s, s.dev.power.stby = true → s.dev.power.state = 0 → deviceActive s = false → s.outputs.any (fun p => p.2.armed) = false →
      ∃ s', exec .standbyEntry s = .next s' ∧ s'.dev.power.state = 2 ∧ powerCode s' = 2)
  ∧ (∀ s, s.dev.power.stby = false ∨ deviceActive s = true ∨ s.outputs.any (fun p => p.2.armed) = true →
      exec .standbyEntry s = .next s)
  ∧ (∀ s a, ∃ s', exec (.powerWindow a) s = .next s' ∧ s'.dev.power.pkgw ≤ s.dev.power.limit
      ∧ (s.dev.power.limit < a → s'.dev.power.level = min 12 (s.dev.power.level + 1))
      ∧ (a ≤ s.dev.power.limit → s'.dev.power.level = s.dev.power.level - 1) ∧ s'.threads = s.threads ∧ s'.tnow = s.tnow))

/-- R6, R195, R448, R454, R455, R467, R468, R470: an acknowledged fault's threads get a new walk; DOMCFG keeps PKG
while EN is 1; staging takes bytes while no ring is enabled; offsets that no register has ignore a write; a head read
lets the next message go and answers the head; a read of the register region gives the fields of the registers there
and 0 elsewhere (what the command window reads as is log 177's choice); and a host store changes its bytes of LPDDR
alone. A staging write is ignored while a ring is enabled (DEDUCED, log 136), the window is the reservoir's first 32 MiB (DESIGN
CHOICE, log 193), the new walk takes no place (DEDUCED, log 138), and a host access past 2^39, which R453 says is not received,
changes nothing (DESIGN CHOICE, log 194). -/
def Obligations.HostRegistersAndStores : Prop :=
  (∀ s w, (∀ p ∈ s.stations, ∀ f ∈ p.2.faults, f.ringIdx ≠ w.toNat % 2 ^ 11) → exec (.faultack w) s = .next s)
  ∧ (∀ s w st e, s.stations.findSome? (fun p => (p.2.faults.find? (fun f => f.ringIdx == w.toNat % 2 ^ 11)).map (fun f => (p.1, f)))
        = some (st, e) → exec (.faultack w) s = .next (retryRequests (retryWaiting (walkAgain s st e))))
  ∧ (∀ s st e, (∀ f ∈ (station (walkAgain s st e) st).faults, f.idx ≠ e.idx)
      ∧ ∃ v ∈ (station (walkAgain s st e) st).walks, v.sealId = e.sealId ∧ v.va = e.va ∧ v.threads = e.threads ∧ v.stale = false
          ∧ v.kind = e.kind)
  ∧ (∀ s w, ∃ s', exec (.domcfgWrite w) s = .next s' ∧ s'.domain.en = w.toNat.testBit 31
      ∧ s'.domain.pkg = if s.domain.en then s.domain.pkg else w.toNat % 2 ^ 12)
  ∧ (∀ s off bs, s.reservoir.any (fun p => p.2.en) = false → off + bs.length ≤ 2 ^ 25 → s.dev.staging.wf = true →
      ∃ s', exec (.bar2StagingWrite off bs) s = .next s' ∧ (∀ j (h : j < bs.length), s'.dev.staging.read (off + j) = bs[j])
        ∧ (∀ a, a < off ∨ off + bs.length ≤ a → s'.dev.staging.read a = (stagingWindow s).read a) ∧ stagingWindow s' = s'.dev.staging)
  ∧ (∀ s off bs, s.reservoir.any (fun p => p.2.en) = true → exec (.bar2StagingWrite off bs) s = .next s)
  ∧ (∀ s w, exec (.registerWrite 0x1C w) s = exec (.domcfgWrite w) s ∧ exec (.registerWrite 0x100 w) s = exec (.powerLimitWrite w) s
      ∧ exec (.registerWrite 0x18 w) s = exec (.faultack w) s)
  ∧ (∀ s n w, n < 0x18 ∨ (0x1C < n ∧ n < 0x100) ∨ (0x100 < n ∧ n < 0xD000) ∨ (0xE000 ≤ n ∧ n < 0x10000) ∨ 0x20000 ≤ n →
      exec (.registerWrite n w) s = .next s)
  ∧ (∀ s v, ∃ s', exec (.headRegisterRead v) s = .next s' ∧ v ∉ s'.rings.msiOpen ∧ s'.rings.status = s.rings.status
      ∧ (v < 3 → s'.dev.answer = (readRegion s (12 + 4 * v)).toNat))
  ∧ (∀ s, readRegion s 0 = 0x08100001 ∧ readRegion s 4 = wordN (stageWord s) ∧ readRegion s 8 = wordN (cmdfree s)
      ∧ readRegion s 0x100 = wordN (pwrlim s) ∧ readRegion s 0x108 = wordN (pwrstat s) ∧ readRegion s 0x1C = wordN (domcfg s)
      ∧ readRegion s 0x18 = 0 ∧ ∀ n, 0x20 ≤ n → n < 0x100 → readRegion s n = 0)
  ∧ (∀ s pa n bs, bs ≠ [] → pa % 128 + bs.length ≤ 128 → pa + bs.length ≤ 2 ^ 39 → s.mem.wf = true →
      ∃ s', exec (.hostCxlMemAccess pa n (some bs)) s = .next s' ∧ (∀ j (h : j < bs.length), s'.mem.read (pa + j) = bs[j])
        ∧ (∀ a, a < pa ∨ pa + bs.length ≤ a → s'.mem.read a = s.mem.read a) ∧ s'.weight = s.weight ∧ s'.teams = s.teams)
  ∧ (∀ s pa n, pa % 128 + n ≤ 128 → pa + n ≤ 2 ^ 39 → ∃ s', exec (.hostCxlMemAccess pa n none) s = .next s' ∧ s'.mem = s.mem)
  ∧ (∀ s pa n d, 2 ^ 39 < pa + (match d with | some bs => bs.length | none => n) → exec (.hostCxlMemAccess pa n d) s = .next s)

/-! ### The machine as a whole -/

/-- R17, R19, R81, R197, R198, R247, R370, R371, R377, R424, R425, R455: the values the spec gives for reset. -/
def Obligations.ResetHoldsTheStatedValues : Prop :=
  let s := State.reset
  (s.threads = [] ∧ s.teams = [] ∧ s.grids = [] ∧ s.copies = [] ∧ s.chains = [] ∧ s.dev.commands = [])
  ∧ (powerCode s = 4 ∧ pwrlim s = 2900 ∧ pwrstat s = 4 * 2 ^ 29 + 330 * 2 ^ 16)
  ∧ (stageWord s = 1 ∧ cmdfree s = 64 ∧ s.rings.stHead = 0 ∧ s.rings.logSeq = 0 ∧ s.rings.fltHead = 0 ∧ domcfg s = 0)
  ∧ (∀ c, memgroups (core s c) = 2 ^ 31 + 128 * 2 ^ 16 + 128 * 2 ^ 8 ∧ (core s c).lease = 64 ∧ (core s c).fenced = false)
  ∧ (s.lines.rebases = 0 ∧ tlockWord s = 0 ∧ errstat s = 0)
  ∧ (∀ q, wdog s q = 0x84010040 ∧ (queueOf s q).en = false ∧ (queueOf s q).sealId = 0)
  ∧ (∀ o off, outRead s o off = 0) ∧ (∀ r off, ringRead s r off = 0)

/-- Reset memories are canonical. -/
def Obligations.ResetIsCanonical : Prop :=
  Canonical State.reset

/-- Every step, whatever it is, keeps the three memories of the device in canonical form: a store of the value an
unlisted byte reads as takes the byte off the list. -/
def Obligations.EveryStepKeepsCanonicalMemories : Prop :=
  ∀ s, Canonical s → KeepsCanonical (step s)

/-- Every state has a next state: no word, unit step, link step or host step stops the machine. -/
def Obligations.EveryStateHasANextState : Prop :=
  ∀ s, Goes s

/-- R23, R44 to R50, R284: with no error due and a thread's step next on the agenda, the thread fit to issue and its
index inside a clause, the step runs the instruction its word decodes to under the thread's table, from the state in
which it is the current thread, the holds that are over have ended (R79), and it has yielded to none, and counts the issue for the
threads that yielded to it; R384: a thread does not issue while one of an earlier slice would issue on its quadrant (log 154 says
when); R198: a rebase that is due is the next step (log 158); a feed context's step runs the access-slice word it fetches; a step of
a unit, link or host on the agenda runs as it is; what R17's power states keep from running (DEDUCED, log 181) leaves the state. -/
def Obligations.StepRunsTheDecodedInstruction : Prop :=
  (∀ s t rest th i, rebaseDue s = false → s.errors.due = [] → s.errors.poisonEnds = [] → s.agenda = .thread t :: rest → contextsRun s = true →
      let s0 := settleHolds { s with agenda := rest, cur := some t, curFeed := none }
      thread? s0 t = some th →
      th.suspended = false → th.evicted = false → th.active = true → th.due = none → asyncReady th = false → atHeader th = false →
      let s1 := modThread s0 t (fun th => { th with yields := [], waited := 0 })
      let w := th.rawWord.toNat
      let e := tableEntry s1 th.table (opcOf w)
      mayStep s0 th = true → outranked s0 t th = false → opcOf w ≠ 0 → opcOf w ≠ 0x3FF → (ctxOf s1 t th).predOn = true →
      entryStop (ctxOf s1 t th) e = none → decodeWord (withOpcode w (entryIop e)) = .ok i →
      step s = match exec i s1 with
        | .next s' => .next (issued t s')
        | r => r)
  ∧ (∀ s t rest th, rebaseDue s = false → s.errors.due = [] → s.errors.poisonEnds = [] → s.agenda = .thread t :: rest → contextsRun s = true →
      let s0 := settleHolds { s with agenda := rest, cur := some t, curFeed := none }
      thread? s0 t = some th →
      th.suspended = false → th.evicted = false → th.active = true → th.due = none → asyncReady th = false →
      mayStep s0 th = true → outranked s0 t th = true → step s = .next s0)
  ∧ (∀ s, s.commits = [] → (∀ p ∈ s.threads, p.2.wait ≠ .hold
        ∧ ∀ l d dv av m more frees, p.2.wait ≠ .rendezvous l 0x308 d dv av m more frees) → settleHolds s = s)
  ∧ (∀ s w i, w < 2 ^ 32 → opcOf w ≠ 0 → opcOf w ≠ 0x3FF → decodeWord w = .ok i →
      decodeWord (withOpcode w (entryIop (tableEntry s (.map 3) (opcOf w)))) = .ok i)
  ∧ (∀ s c x rest w s' i, rebaseDue s = false → s.errors.due = [] → s.errors.poisonEnds = [] → s.agenda = .feed c x :: rest → contextsRun s = true →
      feedFetch { s with agenda := rest, curFeed := some (c, x) } c x = (some w, s') → decodeAccess w = some i → step s = exec i s')
  ∧ (∀ s, rebaseDue s = true → step s = .next (rebase s))
  ∧ (∀ s i rest, rebaseDue s = false → s.errors.due = [] → s.errors.poisonEnds = [] → s.agenda = .event i :: rest → encode i = [] →
      powerLets s i = true → step s = exec i { s with agenda := rest })
  ∧ (∀ s i rest, rebaseDue s = false → s.errors.due = [] → s.errors.poisonEnds = [] → s.agenda = .event i :: rest →
      powerLets s i = false → step s = .next { s with agenda := rest })
  ∧ (∀ s i, s.dev.power.state ≠ 2 → s.dev.power.state ≠ 3 → powerLets s i = true ∧ contextsRun s = true)

/-- R31, R50 to R52: words written out from the encoding tables decode to their instructions. -/
def Obligations.WrittenOutWordsDecode : Prop :=
  decodeWord 0x00A18212 = .ok (.iadd false 3 1 2 false true false)
  ∧ decodeWord 0x81420618 = .ok (.imad true 4 3 3 false false false)
  ∧ decodeWord 0x12A20210 = .ok (.twosum false 4 1 2 false false)
  ∧ decodeWord 0x13A19020 = .ok (.cvtff false 3 8 4 false false)
  ∧ decodeWord 0x20240004 = .ok (.brp false 1 false 4)
  ∧ decodeWord 0x22418404 = .ok (.rred false 3 2 0 true false false)
  ∧ decodeWord 0x30031080 = .ok (.ldg false 6 8 2 false false false)
  ∧ decodeWord 0x302310A0 = .ok (.stg false 6 8 2 true false)
  ∧ decodeWord 0x31869C62 = .ok (.atom false 13 14 12 false true false)
  ∧ decodeWord 0x4000001C = .ok (.bar false 0 7)
  ∧ decodeWord 0x50201804 = .ok (.cpy2d false 12 true)
  ∧ decodeWord 0x60E02000 = .ok (.mmae false 16 false false)
  ∧ decodeWord 0x70071444 = .ok (.pbin false 14 10 8 true false)
  ∧ decodeWord 0x71600C00 = .ok (.raygo false 6 false)
  ∧ decodeWord 0x78020000 = .ok (.tnow false 4)
  ∧ decodeWord 0x7C000001 = .ok (.trap false 0 1)
  ∧ decodeWord 0x7C200000 = .ok (.rte false)
  ∧ decodeAccess 0x08000000 = some .fstop
  ∧ decodeAccess 0x03000020 = some (.faddr 0 0 0 32)
  ∧ decodeAccess 0x01000004 = some (.floop 0 0 4)
  ∧ decodeWord 0xFFF00000 = .error .extForm
  ∧ decodeAccess 0x0A000000 = none

/-- R31 to R52: encoding a well-formed word and decoding it gives it back, for thread words and for access-slice
words, with every operand at every value; and a word that decodes is the one encoding of its instruction. -/
def Obligations.DecodeAndEncodeAgree : Prop :=
  (∀ i w, WellFormed i = true → encode i = [w] → opcode? i ≠ none → w < 2 ^ 32 ∧ decodeWord w = .ok i)
  ∧ (∀ i w, WellFormed i = true → encode i = [w] → opcode? i = none → w < 2 ^ 32 ∧ decodeAccess w = some i)
  ∧ (∀ i w, w < 2 ^ 32 → decodeWord w = .ok i → WellFormed i = true ∧ encode i = [w])
end

