-- ==== Sys2Proof/Laws/KMap.lean ====
section
/-!
SUPPORT. Laws of keyed lists and of byte stores: read after write, what a write leaves alone, and the canonical form.
-/
namespace Sys2Proof

set_option Elab.async false

variable {α : Type}

/-! ### Keyed lists -/

/-- A key reads what was put under it, and every other key what it read before. -/
theorem kget_kset (m : KMap α) (i j : Nat) (v : α) :
    kget? (kset m i v) j = if j = i then some v else kget? m j := by
  induction m with
  | nil => by_cases h : j = i <;> simp [kset, kget?, h]
  | cons p m ih =>
    obtain ⟨k, w⟩ := p
    simp only [kset]
    by_cases h1 : i < k
    · by_cases h : j = i <;> simp [h1, kget?, h]
    · by_cases h2 : i = k
      · subst h2
        by_cases h : j = i <;> simp [kget?, h]
      · by_cases h3 : j = k
        · subst h3
          simp [h1, h2, kget?, Ne.symm h2]
        · simp [h1, h2, kget?, ih, h3]

@[simp] theorem kget_kset_same (m : KMap α) (i : Nat) (v : α) : kget? (kset m i v) i = some v := by simp [kget_kset]

theorem kget_kset_ne (m : KMap α) {i j : Nat} (v : α) (h : j ≠ i) : kget? (kset m i v) j = kget? m j := by
  simp [kget_kset, h]

/-- The second of two writes under one key stands. -/
@[simp] theorem kset_kset (m : KMap α) (i : Nat) (v w : α) : kset (kset m i v) i w = kset m i w := by
  induction m with
  | nil => simp [kset]
  | cons p m ih =>
    obtain ⟨k, x⟩ := p
    simp only [kset]
    by_cases h1 : i < k
    · simp [h1, kset]
    · by_cases h2 : i = k
      · subst h2; simp [kset]
      · simp [h1, h2, kset, ih]

theorem kmod_eq {m : KMap α} {i : Nat} {v : α} (f : α → α) (h : kget? m i = some v) : kmod m i f = kset m i (f v) := by
  simp [kmod, h]

theorem kmod_none {m : KMap α} {i : Nat} (f : α → α) (h : kget? m i = none) : kmod m i f = m := by
  simp [kmod, h]

/-- Putting back what a key holds changes nothing. -/
theorem kset_same {m : KMap α} {i b : Nat} {v : α} (hr : risingFrom b m = true) (h : kget? m i = some v) : kset m i v = m := by
  induction m generalizing b with
  | nil => simp [kget?] at h
  | cons p m ih =>
    obtain ⟨k, x⟩ := p
    simp only [risingFrom, Bool.and_eq_true, decide_eq_true_eq] at hr
    simp only [kget?] at h
    by_cases h2 : i = k
    · subst h2
      simp at h
      simp [kset, h]
    · simp [h2] at h
      have h1 : ¬ i < k := by
        intro hlt
        have : ∀ (l : KMap α) (c : Nat), risingFrom c l = true → i < c → kget? l i = none := by
          intro l
          induction l with
          | nil => intros; rfl
          | cons q l ihl =>
            obtain ⟨k', y⟩ := q
            intro c hc hi
            simp only [risingFrom, Bool.and_eq_true, decide_eq_true_eq] at hc
            have : i ≠ k' := by omega
            simp only [kget?, beq_iff_eq, this, if_false]
            exact ihl (k' + 1) hc.2 (by omega)
        rw [this m (k + 1) hr.2 (by omega)] at h
        exact absurd h (by simp)
      simp [kset, h1, h2, ih hr.2 h]

/-- A key below all listed ones is not listed. -/
theorem kget_below {m : KMap α} {b i : Nat} (h : risingFrom b m = true) (hi : i < b) : kget? m i = none := by
  induction m generalizing b with
  | nil => rfl
  | cons p m ih =>
    obtain ⟨k, x⟩ := p
    simp only [risingFrom, Bool.and_eq_true, decide_eq_true_eq] at h
    have : i ≠ k := by omega
    simp only [kget?, beq_iff_eq, this, if_false]
    exact ih h.2 (by omega)

/-- A key that is taken out is not listed, and every other key stands. -/
theorem kget_kdel {m : KMap α} {b : Nat} (h : risingFrom b m = true) (i j : Nat) :
    kget? (kdel m i) j = if j = i then none else kget? m j := by
  induction m generalizing b with
  | nil => simp [kdel, kget?]
  | cons p m ih =>
    obtain ⟨k, x⟩ := p
    simp only [risingFrom, Bool.and_eq_true, decide_eq_true_eq] at h
    by_cases hk : i = k
    · subst hk
      by_cases hj : j = i
      · subst hj; simp [kdel, kget_below h.2 (Nat.lt_succ_self j)]
      · simp [kdel, kget?, hj]
    · by_cases hj : j = k
      · subst hj
        simp [kdel, hk, kget?, Ne.symm hk]
      · simp only [kdel, beq_iff_eq, hk, if_false, kget?, hj]
        exact ih h.2

theorem kget_kdel_ne (m : KMap α) {i j : Nat} (h : j ≠ i) : kget? (kdel m i) j = kget? m j := by
  induction m with
  | nil => rfl
  | cons p m ih =>
    obtain ⟨k, x⟩ := p
    by_cases hk : i = k
    · subst hk; simp [kdel, kget?, h]
    · by_cases hj : j = k <;> simp [kdel, hk, kget?, hj, ih]

/-! ### Rising keys -/

theorem rising_le {m : KMap α} {b c : Nat} (h : risingFrom b m = true) (hc : c ≤ b) : risingFrom c m = true := by
  cases m with
  | nil => rfl
  | cons p m =>
    obtain ⟨k, x⟩ := p
    simp only [risingFrom, Bool.and_eq_true, decide_eq_true_eq] at h ⊢
    exact ⟨by omega, h.2⟩

theorem rising_kset {m : KMap α} {b i : Nat} (v : α) (h : risingFrom b m = true) (hi : b ≤ i) :
    risingFrom b (kset m i v) = true := by
  induction m generalizing b with
  | nil => simp [kset, risingFrom, hi]
  | cons p m ih =>
    obtain ⟨k, x⟩ := p
    simp only [risingFrom, Bool.and_eq_true, decide_eq_true_eq] at h
    simp only [kset]
    by_cases h1 : i < k
    · simp only [h1, if_true, risingFrom, Bool.and_eq_true, decide_eq_true_eq]
      exact ⟨hi, by omega, h.2⟩
    · by_cases h2 : i = k
      · subst h2; simp [risingFrom, hi, h.2]
      · simp only [h1, if_false, beq_iff_eq, h2, risingFrom, Bool.and_eq_true, decide_eq_true_eq]
        exact ⟨h.1, ih h.2 (by omega)⟩

theorem rising_kdel {m : KMap α} {b : Nat} (i : Nat) (h : risingFrom b m = true) : risingFrom b (kdel m i) = true := by
  induction m generalizing b with
  | nil => rfl
  | cons p m ih =>
    obtain ⟨k, x⟩ := p
    simp only [risingFrom, Bool.and_eq_true, decide_eq_true_eq] at h
    by_cases hk : i = k
    · subst hk
      simp only [kdel, beq_self_eq_true, if_true]
      exact rising_le h.2 (by omega)
    · simp only [kdel, beq_iff_eq, hk, if_false, risingFrom, Bool.and_eq_true, decide_eq_true_eq]
      exact ⟨h.1, ih h.2⟩

theorem rising_filter {m : KMap α} {b : Nat} (p : Nat × α → Bool) (h : risingFrom b m = true) :
    risingFrom b (m.filter p) = true := by
  induction m generalizing b with
  | nil => rfl
  | cons q m ih =>
    obtain ⟨k, x⟩ := q
    simp only [risingFrom, Bool.and_eq_true, decide_eq_true_eq] at h
    by_cases hp : p (k, x) = true
    · simp only [List.filter_cons, hp, if_true, risingFrom, Bool.and_eq_true, decide_eq_true_eq]
      exact ⟨h.1, ih h.2⟩
    · simp only [List.filter_cons, hp]
      exact rising_le (ih h.2) (by omega)

/-! ### Entries -/

theorem all_kset {m : KMap α} {p : Nat × α → Bool} {i : Nat} {v : α} (h : m.all p = true) (hv : p (i, v) = true) :
    (kset m i v).all p = true := by
  induction m with
  | nil => simp [kset, hv]
  | cons q m ih =>
    obtain ⟨k, x⟩ := q
    simp only [List.all_cons, Bool.and_eq_true] at h
    simp only [kset]
    by_cases h1 : i < k
    · simp only [h1, if_true, List.all_cons, Bool.and_eq_true]; exact ⟨hv, h⟩
    · by_cases h2 : i = k
      · subst h2; simp only [Nat.lt_irrefl, if_false, beq_self_eq_true, if_true, List.all_cons, Bool.and_eq_true]; exact ⟨hv, h.2⟩
      · simp only [h1, if_false, beq_iff_eq, h2, List.all_cons, Bool.and_eq_true]; exact ⟨h.1, ih h.2⟩

theorem all_kdel {m : KMap α} {p : Nat × α → Bool} (i : Nat) (h : m.all p = true) : (kdel m i).all p = true := by
  induction m with
  | nil => rfl
  | cons q m ih =>
    obtain ⟨k, x⟩ := q
    simp only [List.all_cons, Bool.and_eq_true] at h
    by_cases hk : i = k
    · subst hk; simp only [kdel, beq_self_eq_true, if_true]; exact h.2
    · simp only [kdel, beq_iff_eq, hk, if_false, List.all_cons, Bool.and_eq_true]; exact ⟨h.1, ih h.2⟩

/-! ### Byte stores (MEMORY) -/

theorem Memory.wf_iff (m : Memory) : m.wf = true ↔ risingFrom 0 m = true ∧ m.all (fun c => c.2 != 0) = true := by
  simp [Memory.wf]

/-- The empty store is canonical. -/
theorem Memory.wf_nil : Memory.wf [] = true := rfl

/-- A write of one byte keeps the canonical form. -/
theorem Memory.wf_write {m : Memory} (a : Nat) (b : Byte) (h : m.wf = true) : (m.write a b).wf = true := by
  rw [Memory.wf_iff] at h ⊢
  unfold Memory.write
  by_cases hb : b = 0
  · simp only [hb, if_true]
    exact ⟨rising_kdel a h.1, all_kdel a h.2⟩
  · simp only [hb, if_false]
    exact ⟨rising_kset b h.1 (Nat.zero_le a), all_kset h.2 (by simpa using hb)⟩

/-- A write of bytes keeps the canonical form. -/
theorem Memory.wf_writeBytes (bs : List Byte) : ∀ {m : Memory} (a : Nat), m.wf = true → (m.writeBytes a bs).wf = true := by
  induction bs with
  | nil => intro m a h; exact h
  | cons b bs ih => intro m a h; exact ih (a + 1) (Memory.wf_write a b h)

/-- Taking entries out keeps the canonical form. -/
theorem Memory.wf_filter {m : Memory} (p : Host.Cell → Bool) (h : m.wf = true) : Memory.wf (m.filter p) = true := by
  rw [Memory.wf_iff] at h ⊢
  refine ⟨rising_filter p h.1, ?_⟩
  rw [List.all_eq_true] at h ⊢
  intro x hx
  exact h.2 x (List.mem_of_mem_filter hx)

/-- A byte reads what was written to it. -/
theorem Memory.read_write {m : Memory} (h : m.wf = true) (a a' : Nat) (b : Byte) :
    (m.write a b).read a' = if a' = a then b else m.read a' := by
  rw [Memory.wf_iff] at h
  unfold Memory.read Memory.write kgetD
  by_cases hb : b = 0
  · rw [if_pos hb, kget_kdel h.1]
    by_cases ha : a' = a <;> simp [hb, ha]
  · rw [if_neg hb, kget_kset]
    by_cases ha : a' = a <;> simp [ha]

/-- A write leaves every other byte alone, in any store. -/
theorem Memory.read_write_ne (m : Memory) {a a' : Nat} (b : Byte) (h : a' ≠ a) : (m.write a b).read a' = m.read a' := by
  unfold Memory.read Memory.write kgetD
  by_cases hb : b = 0
  · rw [if_pos hb, kget_kdel_ne m h]
  · rw [if_neg hb, kget_kset_ne m b h]

/-- A write of bytes leaves every byte outside them alone. -/
theorem Memory.read_writeBytes_out (bs : List Byte) : ∀ (m : Memory) (a a' : Nat), a' < a ∨ a + bs.length ≤ a' →
    (m.writeBytes a bs).read a' = m.read a' := by
  induction bs with
  | nil => intro m a a' _; rfl
  | cons b bs ih =>
    intro m a a' h
    simp only [List.length_cons] at h
    simp only [Memory.writeBytes]
    rw [ih (m.write a b) (a + 1) a' (by omega), Memory.read_write_ne m b (by omega)]

/-- Bytes read as they were written. -/
theorem Memory.readBytes_writeBytes (bs : List Byte) : ∀ {m : Memory} (a : Nat), m.wf = true →
    (m.writeBytes a bs).readBytes a bs.length = bs := by
  induction bs with
  | nil => intro m a _; rfl
  | cons b bs ih =>
    intro m a h
    simp only [List.length_cons, Memory.readBytes, Memory.writeBytes]
    rw [ih (a + 1) (Memory.wf_write a b h), Memory.read_writeBytes_out bs _ (a + 1) a (Or.inl (by omega)), Memory.read_write h]
    simp

end Sys2Proof
end

