-- ==== Sys2Proof/Laws/Issue.lean ====
section
/-!
SUPPORT. What issuing a word does, said once: the checks that pass, the effect that follows, and the trap.
-/
namespace Sys2Proof.Machine

set_option Elab.async false

/-! ### Thread records -/

theorem thread_setThread (s : State) (t : Nat) (th : Thread) : thread? (setThread s t th) t = some th := by
  simp [thread?, setThread]

theorem thread_setThread_ne (s : State) {t u : Nat} (th : Thread) (h : u ≠ t) : thread? (setThread s t th) u = thread? s u := by
  simp [thread?, setThread, kget_kset_ne _ _ h]

theorem kset_kset (m : KMap α) (i : Nat) (v w : α) : kset (kset m i v) i w = kset m i w := by
  induction m with
  | nil => simp [kset]
  | cons p m ih =>
    obtain ⟨k, x⟩ := p
    by_cases h1 : i < k
    · simp [kset, h1]
    · by_cases h2 : i = k
      · subst h2; simp [kset]
      · simp [kset, h1, h2, ih]

theorem setThread_setThread (s : State) (t : Nat) (a b : Thread) : setThread (setThread s t a) t b = setThread s t b := by
  simp [setThread]

theorem modThread_eq {s : State} {t : Nat} {th : Thread} (f : Thread → Thread) (h : thread? s t = some th) :
    modThread s t f = setThread s t (f th) := by
  simp only [modThread, setThread]
  rw [kmod_eq f h]

theorem modThread_none {s : State} {t : Nat} (f : Thread → Thread) (h : thread? s t = none) : modThread s t f = s := by
  simp only [modThread]
  rw [kmod_none f h]

theorem modThread_setThread (s : State) (t : Nat) (a : Thread) (f : Thread → Thread) :
    modThread (setThread s t a) t f = setThread s t (f a) := by
  rw [modThread_eq f (thread_setThread s t a), setThread_setThread]

/-! ### A word at issue -/

theorem entryCtx_s {s : State} {t : Nat} {th : Thread} (h : thread? s t = some th) :
    (entryCtx s t th).s = setThread s t { th with wait := .ready } := by
  simp only [entryCtx, ctxOf]
  rw [modThread_eq _ h]

/-- The thread of an entry's context stands in its state. -/
theorem entryCtx_thread {s : State} {t : Nat} {th : Thread} (h : thread? s t = some th) :
    thread? (entryCtx s t th).s t = some (entryCtx s t th).th := by
  rw [entryCtx_s h, thread_setThread]; rfl

theorem passes_cur {i : Instr} {srcs : List Src} {s : State} {t : Nat} {th : Thread} (h : passes i srcs s t th = true) :
    s.cur = some t ∧ thread? s t = some th := by
  simp only [passes, Bool.and_eq_true, beq_iff_eq] at h
  tauto

/-- Where the checks pass, the gate is open. -/
theorem gate_of_passes {i : Instr} {srcs : List Src} {s : State} {t : Nat} {th : Thread} (h : passes i srcs s t th = true) :
    (entryCtx s t th).gate i (opcOf' i) srcs = .go := by
  simp only [passes, Bool.and_eq_true] at h
  obtain ⟨⟨⟨⟨⟨⟨⟨⟨⟨⟨⟨⟨_, h1⟩, h2⟩, h3⟩, h4⟩, h5⟩, h6⟩, hc⟩, h7⟩, h8⟩, h9⟩, h10⟩, h11⟩ := h
  generalize entryCtx s t th = k at *
  generalize opcOf' i = opc at *
  have hl : k.legality i opc = none := by
    simp only [Bool.not_eq_true'] at h5 h8 h9 h10
    simp only [bne_iff_ne, ne_eq] at h7
    simp only [beq_iff_eq] at hc
    simp [Ctx.legality, h5, h6, hc, h7, h8, h9]
    simpa using h10
  have h3' : (if opc == 0 then none else k.classFault (classOf opc) (isBranch opc)) = none := by
    by_cases h0 : opc = 0
    · simp [h0]
    · simpa [h0] using h3
  have h4' : ((isPriv opc || entryPriv (k.entry (fld k.iw.toNat 21 10))) && !k.th.system) = false := by
    revert h4; cases (isPriv opc || entryPriv (k.entry (fld k.iw.toNat 21 10))) <;> cases k.th.system <;> simp
  simp only [Bool.not_eq_true'] at h1
  simp only [beq_iff_eq] at h11
  simp only [Ctx.gate, h1, h2, h3', h4', hl, h11, Bool.not_true, if_false, Bool.false_eq_true]

/-- A word whose checks pass and whose entry answers an effect completes, where its results fit and its counter is not
full. -/
theorem issue_completes {i : Instr} {srcs : List Src} {body : Ctx → Except Stop Eff} {s : State} {t : Nat} {th : Thread} {e : Eff}
    (h : passes i srcs s t th = true) (hb : body (entryCtx s t th) = .ok e)
    (hf : fits (entryCtx s t th) (freed i srcs (entryCtx s t th) e.moreFrees) e.dests = true)
    (hc : counterFull (entryCtx s t th) e = false) :
    issue i srcs body s = .next (complete (entryCtx s t th) (switchMarker i) (freed i srcs (entryCtx s t th) e.moreFrees) e) := by
  obtain ⟨hcur, ht⟩ := passes_cur h
  have hg := gate_of_passes h
  have hbud : (entryCtx s t th).budget (freed i srcs (entryCtx s t th) e.moreFrees) e.dests = none := by
    simp only [fits] at hf
    simp only [Ctx.budget]
    rw [if_pos]
    simpa using hf
  simp only [issue, hcur, ht, issueAt]
  simp only [entryCtx] at hg hb hbud hc ⊢
  simp only [hg, hb]
  simp only [freed] at hbud
  simp only [hbud, finish, hc, freed, Bool.false_eq_true, if_false]

/-- A word whose checks pass and whose entry traps takes the exception. -/
theorem issue_traps {i : Instr} {srcs : List Src} {body : Ctx → Except Stop Eff} {s : State} {t : Nat} {th : Thread}
    {c : Nat} {i0 i1 i2 i3 : Word} (h : passes i srcs s t th = true)
    (hb : body (entryCtx s t th) = .error (.trap c i0 i1 i2 i3)) :
    issue i srcs body s = .next (trapSync (modThread s t (fun th => { th with wait := .ready })) t c i0 i1 i2 i3) := by
  obtain ⟨hcur, ht⟩ := passes_cur h
  have hg := gate_of_passes h
  simp only [issue, hcur, ht, issueAt]
  simp only [entryCtx] at hg hb
  simp only [hg, hb, stopped]

/-- An effect that only writes registers of the context's own thread. -/
theorem complete_writes {s : State} {t : Nat} {th : Thread} (i : Instr) (frees : List Nat) (ws : List (Nat × Word))
    (ht : thread? s t = some th) :
    complete (entryCtx s t th) (switchMarker i) frees { st := (entryCtx s t th).s, writes := ws }
      = setThread s t (wrote i (entryCtx s t th) frees ws) := by
  simp only [complete, id]
  have hk : (entryCtx s t th).t = t := rfl
  rw [hk, modThread_eq _ (entryCtx_thread ht), entryCtx_s ht, setThread_setThread]
  rfl

/-- Words that only write registers: one lemma from their entries. -/
theorem writes_of {i : Instr} {srcs : List Src} {body : Ctx → Except Stop Eff} {ws : Ctx → List (Nat × Word)}
    (hx : ∀ s, exec i s = issue i srcs body s) (hb : ∀ k, body k = .ok { st := k.s, writes := ws k }) : Writes i srcs ws := by
  intro s t th hp hf
  rw [hx, issue_completes hp (hb _) (by simpa [Eff.dests] using hf) rfl, complete_writes i _ _ (passes_cur hp).2]

/-- Words that run where `pre` holds: one lemma from their entries. -/
theorem runs_of {i : Instr} {srcs : List Src} {body : Ctx → Except Stop Eff} {pre : Ctx → Prop} {eff : Ctx → Eff}
    (hx : ∀ s, exec i s = issue i srcs body s) (hb : ∀ k, pre k → body k = .ok (eff k)) : Runs i srcs pre eff := by
  intro s t th hp hpre hf hc
  rw [hx, issue_completes hp (hb _ hpre) hf hc]

/-- Words that trap where `pre` holds: one lemma from their entries. -/
theorem traps_of {i : Instr} {srcs : List Src} {body : Ctx → Except Stop Eff} {pre : Ctx → Prop} {c : Nat}
    {infos : Ctx → Word × Word × Word × Word} (hx : ∀ s, exec i s = issue i srcs body s)
    (hb : ∀ k, pre k → body k = .error (.trap c (infos k).1 (infos k).2.1 (infos k).2.2.1 (infos k).2.2.2)) :
    Traps i srcs pre c infos := by
  intro s t th hp hpre
  rw [hx, issue_traps hp (hb _ hpre)]

/-! ### Float results -/

/-- A float result that is no NaN, or with the trap off, is written. -/
theorem floatWrites_ok {k : Ctx} {ws : List (Nat × Word)} {nan : Option (Nat × Word × Word)} {c : Cond}
    (h : fmtNanTrap k.th.fmt = false ∨ nan = none) : floatWrites k ws nan c = .ok (floatEff k ws c) := by
  rcases h with h | h <;> simp [floatWrites, h, floatEff]

/-- A NaN result traps while the trap is on. -/
theorem floatWrites_nan {k : Ctx} {ws : List (Nat × Word)} {c : Cond} {e : Nat} {a b : Word} (h : fmtNanTrap k.th.fmt = true) :
    floatWrites k ws (some (e, a, b)) c = .error (.trap causeFpNan (wordN e) k.iw a b) := by
  simp [floatWrites, h]

/-- Float words: one lemma from their entries. -/
theorem floatGives_of {i : Instr} {srcs : List Src} {ws : Ctx → List (Nat × Word)} {nan : Ctx → Option (Nat × Word × Word)}
    {c : Ctx → Cond} {body : Ctx → Except Stop Eff} (hx : ∀ s, exec i s = issue i srcs body s)
    (hb : ∀ k, body k = floatWrites k (ws k) (nan k) (c k)) : FloatGives i srcs ws nan c := by
  refine ⟨runs_of hx (fun k h => by rw [hb]; exact floatWrites_ok h), fun e a b => traps_of hx (fun k h => ?_)⟩
  rw [hb, h.2, floatWrites_nan h.1]

/-- Float words with one FP32 result: one lemma from their entries. -/
theorem float32_of {i : Instr} {srcs : List Src} {d : BitVec 6} {r : Ctx → FRes} {a b : Ctx → Word}
    (hx : ∀ s, exec i s = issue i srcs (fun k => floatRet k d (r k) (a k) (b k)) s) : Float32 i srcs d r a b :=
  floatGives_of hx (fun _ => rfl)

end Sys2Proof.Machine
end

