-- ==== Sys2Proof/Laws/State.lean ====
section
/-!
SUPPORT. What each named update of the state leaves in every field: one lemma for each field and update.
-/
namespace Sys2Proof.Machine

set_option Elab.async false

/-! ### setThread changes `threads` alone -/

section
variable (s : State) (t : Nat) (th : Thread)
@[simp] theorem setThread_agenda : (setThread s t th).agenda = s.agenda := rfl
@[simp] theorem setThread_cur : (setThread s t th).cur = s.cur := rfl
@[simp] theorem setThread_curFeed : (setThread s t th).curFeed = s.curFeed := rfl
@[simp] theorem setThread_tnow : (setThread s t th).tnow = s.tnow := rfl
@[simp] theorem setThread_aclk : (setThread s t th).aclk = s.aclk := rfl
@[simp] theorem setThread_nextId : (setThread s t th).nextId = s.nextId := rfl
@[simp] theorem setThread_mem : (setThread s t th).mem = s.mem := rfl
@[simp] theorem setThread_weight : (setThread s t th).weight = s.weight := rfl
@[simp] theorem setThread_lines : (setThread s t th).lines = s.lines := rfl
@[simp] theorem setThread_threads : (setThread s t th).threads = kset s.threads t th := rfl
@[simp] theorem setThread_teams : (setThread s t th).teams = s.teams := rfl
@[simp] theorem setThread_grids : (setThread s t th).grids = s.grids := rfl
@[simp] theorem setThread_cores : (setThread s t th).cores = s.cores := rfl
@[simp] theorem setThread_stations : (setThread s t th).stations = s.stations := rfl
@[simp] theorem setThread_dispatch : (setThread s t th).dispatch = s.dispatch := rfl
@[simp] theorem setThread_queues : (setThread s t th).queues = s.queues := rfl
@[simp] theorem setThread_copies : (setThread s t th).copies = s.copies := rfl
@[simp] theorem setThread_mtx : (setThread s t th).mtx = s.mtx := rfl
@[simp] theorem setThread_heirs : (setThread s t th).heirs = s.heirs := rfl
@[simp] theorem setThread_feeds : (setThread s t th).feeds = s.feeds := rfl
@[simp] theorem setThread_measured : (setThread s t th).measured = s.measured := rfl
@[simp] theorem setThread_reserves : (setThread s t th).reserves = s.reserves := rfl
@[simp] theorem setThread_tasksDone : (setThread s t th).tasksDone = s.tasksDone := rfl
@[simp] theorem setThread_rays : (setThread s t th).rays = s.rays := rfl
@[simp] theorem setThread_passes : (setThread s t th).passes = s.passes := rfl
@[simp] theorem setThread_stips : (setThread s t th).stips = s.stips := rfl
@[simp] theorem setThread_outputs : (setThread s t th).outputs = s.outputs := rfl
@[simp] theorem setThread_reservoir : (setThread s t th).reservoir = s.reservoir := rfl
@[simp] theorem setThread_chains : (setThread s t th).chains = s.chains := rfl
@[simp] theorem setThread_jobs : (setThread s t th).jobs = s.jobs := rfl
@[simp] theorem setThread_ladders : (setThread s t th).ladders = s.ladders := rfl
@[simp] theorem setThread_commits : (setThread s t th).commits = s.commits := rfl
@[simp] theorem setThread_pipes : (setThread s t th).pipes = s.pipes := rfl
@[simp] theorem setThread_sched : (setThread s t th).sched = s.sched := rfl
@[simp] theorem setThread_schedTags : (setThread s t th).schedTags = s.schedTags := rfl
@[simp] theorem setThread_draws : (setThread s t th).draws = s.draws := rfl
@[simp] theorem setThread_seals : (setThread s t th).seals = s.seals := rfl
@[simp] theorem setThread_rings : (setThread s t th).rings = s.rings := rfl
@[simp] theorem setThread_domain : (setThread s t th).domain = s.domain := rfl
@[simp] theorem setThread_regions : (setThread s t th).regions = s.regions := rfl
@[simp] theorem setThread_errors : (setThread s t th).errors = s.errors := rfl
@[simp] theorem setThread_dev : (setThread s t th).dev = s.dev := rfl
end

/-! ### modThread changes `threads` alone -/

section
variable (s : State) (t : Nat) (f : Thread → Thread)
@[simp] theorem modThread_agenda : (modThread s t f).agenda = s.agenda := rfl
@[simp] theorem modThread_cur : (modThread s t f).cur = s.cur := rfl
@[simp] theorem modThread_curFeed : (modThread s t f).curFeed = s.curFeed := rfl
@[simp] theorem modThread_tnow : (modThread s t f).tnow = s.tnow := rfl
@[simp] theorem modThread_aclk : (modThread s t f).aclk = s.aclk := rfl
@[simp] theorem modThread_nextId : (modThread s t f).nextId = s.nextId := rfl
@[simp] theorem modThread_mem : (modThread s t f).mem = s.mem := rfl
@[simp] theorem modThread_weight : (modThread s t f).weight = s.weight := rfl
@[simp] theorem modThread_lines : (modThread s t f).lines = s.lines := rfl
@[simp] theorem modThread_threads : (modThread s t f).threads = kmod s.threads t f := rfl
@[simp] theorem modThread_teams : (modThread s t f).teams = s.teams := rfl
@[simp] theorem modThread_grids : (modThread s t f).grids = s.grids := rfl
@[simp] theorem modThread_cores : (modThread s t f).cores = s.cores := rfl
@[simp] theorem modThread_stations : (modThread s t f).stations = s.stations := rfl
@[simp] theorem modThread_dispatch : (modThread s t f).dispatch = s.dispatch := rfl
@[simp] theorem modThread_queues : (modThread s t f).queues = s.queues := rfl
@[simp] theorem modThread_copies : (modThread s t f).copies = s.copies := rfl
@[simp] theorem modThread_mtx : (modThread s t f).mtx = s.mtx := rfl
@[simp] theorem modThread_heirs : (modThread s t f).heirs = s.heirs := rfl
@[simp] theorem modThread_feeds : (modThread s t f).feeds = s.feeds := rfl
@[simp] theorem modThread_measured : (modThread s t f).measured = s.measured := rfl
@[simp] theorem modThread_reserves : (modThread s t f).reserves = s.reserves := rfl
@[simp] theorem modThread_tasksDone : (modThread s t f).tasksDone = s.tasksDone := rfl
@[simp] theorem modThread_rays : (modThread s t f).rays = s.rays := rfl
@[simp] theorem modThread_passes : (modThread s t f).passes = s.passes := rfl
@[simp] theorem modThread_stips : (modThread s t f).stips = s.stips := rfl
@[simp] theorem modThread_outputs : (modThread s t f).outputs = s.outputs := rfl
@[simp] theorem modThread_reservoir : (modThread s t f).reservoir = s.reservoir := rfl
@[simp] theorem modThread_chains : (modThread s t f).chains = s.chains := rfl
@[simp] theorem modThread_jobs : (modThread s t f).jobs = s.jobs := rfl
@[simp] theorem modThread_ladders : (modThread s t f).ladders = s.ladders := rfl
@[simp] theorem modThread_commits : (modThread s t f).commits = s.commits := rfl
@[simp] theorem modThread_pipes : (modThread s t f).pipes = s.pipes := rfl
@[simp] theorem modThread_sched : (modThread s t f).sched = s.sched := rfl
@[simp] theorem modThread_schedTags : (modThread s t f).schedTags = s.schedTags := rfl
@[simp] theorem modThread_draws : (modThread s t f).draws = s.draws := rfl
@[simp] theorem modThread_seals : (modThread s t f).seals = s.seals := rfl
@[simp] theorem modThread_rings : (modThread s t f).rings = s.rings := rfl
@[simp] theorem modThread_domain : (modThread s t f).domain = s.domain := rfl
@[simp] theorem modThread_regions : (modThread s t f).regions = s.regions := rfl
@[simp] theorem modThread_errors : (modThread s t f).errors = s.errors := rfl
@[simp] theorem modThread_dev : (modThread s t f).dev = s.dev := rfl
end

/-! ### modTeam changes `teams` alone -/

section
variable (s : State) (i : Nat) (f : Team → Team)
@[simp] theorem modTeam_agenda : (modTeam s i f).agenda = s.agenda := rfl
@[simp] theorem modTeam_cur : (modTeam s i f).cur = s.cur := rfl
@[simp] theorem modTeam_curFeed : (modTeam s i f).curFeed = s.curFeed := rfl
@[simp] theorem modTeam_tnow : (modTeam s i f).tnow = s.tnow := rfl
@[simp] theorem modTeam_aclk : (modTeam s i f).aclk = s.aclk := rfl
@[simp] theorem modTeam_nextId : (modTeam s i f).nextId = s.nextId := rfl
@[simp] theorem modTeam_mem : (modTeam s i f).mem = s.mem := rfl
@[simp] theorem modTeam_weight : (modTeam s i f).weight = s.weight := rfl
@[simp] theorem modTeam_lines : (modTeam s i f).lines = s.lines := rfl
@[simp] theorem modTeam_threads : (modTeam s i f).threads = s.threads := rfl
@[simp] theorem modTeam_teams : (modTeam s i f).teams = kmod s.teams i f := rfl
@[simp] theorem modTeam_grids : (modTeam s i f).grids = s.grids := rfl
@[simp] theorem modTeam_cores : (modTeam s i f).cores = s.cores := rfl
@[simp] theorem modTeam_stations : (modTeam s i f).stations = s.stations := rfl
@[simp] theorem modTeam_dispatch : (modTeam s i f).dispatch = s.dispatch := rfl
@[simp] theorem modTeam_queues : (modTeam s i f).queues = s.queues := rfl
@[simp] theorem modTeam_copies : (modTeam s i f).copies = s.copies := rfl
@[simp] theorem modTeam_mtx : (modTeam s i f).mtx = s.mtx := rfl
@[simp] theorem modTeam_heirs : (modTeam s i f).heirs = s.heirs := rfl
@[simp] theorem modTeam_feeds : (modTeam s i f).feeds = s.feeds := rfl
@[simp] theorem modTeam_measured : (modTeam s i f).measured = s.measured := rfl
@[simp] theorem modTeam_reserves : (modTeam s i f).reserves = s.reserves := rfl
@[simp] theorem modTeam_tasksDone : (modTeam s i f).tasksDone = s.tasksDone := rfl
@[simp] theorem modTeam_rays : (modTeam s i f).rays = s.rays := rfl
@[simp] theorem modTeam_passes : (modTeam s i f).passes = s.passes := rfl
@[simp] theorem modTeam_stips : (modTeam s i f).stips = s.stips := rfl
@[simp] theorem modTeam_outputs : (modTeam s i f).outputs = s.outputs := rfl
@[simp] theorem modTeam_reservoir : (modTeam s i f).reservoir = s.reservoir := rfl
@[simp] theorem modTeam_chains : (modTeam s i f).chains = s.chains := rfl
@[simp] theorem modTeam_jobs : (modTeam s i f).jobs = s.jobs := rfl
@[simp] theorem modTeam_ladders : (modTeam s i f).ladders = s.ladders := rfl
@[simp] theorem modTeam_commits : (modTeam s i f).commits = s.commits := rfl
@[simp] theorem modTeam_pipes : (modTeam s i f).pipes = s.pipes := rfl
@[simp] theorem modTeam_sched : (modTeam s i f).sched = s.sched := rfl
@[simp] theorem modTeam_schedTags : (modTeam s i f).schedTags = s.schedTags := rfl
@[simp] theorem modTeam_draws : (modTeam s i f).draws = s.draws := rfl
@[simp] theorem modTeam_seals : (modTeam s i f).seals = s.seals := rfl
@[simp] theorem modTeam_rings : (modTeam s i f).rings = s.rings := rfl
@[simp] theorem modTeam_domain : (modTeam s i f).domain = s.domain := rfl
@[simp] theorem modTeam_regions : (modTeam s i f).regions = s.regions := rfl
@[simp] theorem modTeam_errors : (modTeam s i f).errors = s.errors := rfl
@[simp] theorem modTeam_dev : (modTeam s i f).dev = s.dev := rfl
end

/-! ### modGrid changes `grids` alone -/

section
variable (s : State) (i : Nat) (f : Grid → Grid)
@[simp] theorem modGrid_agenda : (modGrid s i f).agenda = s.agenda := rfl
@[simp] theorem modGrid_cur : (modGrid s i f).cur = s.cur := rfl
@[simp] theorem modGrid_curFeed : (modGrid s i f).curFeed = s.curFeed := rfl
@[simp] theorem modGrid_tnow : (modGrid s i f).tnow = s.tnow := rfl
@[simp] theorem modGrid_aclk : (modGrid s i f).aclk = s.aclk := rfl
@[simp] theorem modGrid_nextId : (modGrid s i f).nextId = s.nextId := rfl
@[simp] theorem modGrid_mem : (modGrid s i f).mem = s.mem := rfl
@[simp] theorem modGrid_weight : (modGrid s i f).weight = s.weight := rfl
@[simp] theorem modGrid_lines : (modGrid s i f).lines = s.lines := rfl
@[simp] theorem modGrid_threads : (modGrid s i f).threads = s.threads := rfl
@[simp] theorem modGrid_teams : (modGrid s i f).teams = s.teams := rfl
@[simp] theorem modGrid_grids : (modGrid s i f).grids = kmod s.grids i f := rfl
@[simp] theorem modGrid_cores : (modGrid s i f).cores = s.cores := rfl
@[simp] theorem modGrid_stations : (modGrid s i f).stations = s.stations := rfl
@[simp] theorem modGrid_dispatch : (modGrid s i f).dispatch = s.dispatch := rfl
@[simp] theorem modGrid_queues : (modGrid s i f).queues = s.queues := rfl
@[simp] theorem modGrid_copies : (modGrid s i f).copies = s.copies := rfl
@[simp] theorem modGrid_mtx : (modGrid s i f).mtx = s.mtx := rfl
@[simp] theorem modGrid_heirs : (modGrid s i f).heirs = s.heirs := rfl
@[simp] theorem modGrid_feeds : (modGrid s i f).feeds = s.feeds := rfl
@[simp] theorem modGrid_measured : (modGrid s i f).measured = s.measured := rfl
@[simp] theorem modGrid_reserves : (modGrid s i f).reserves = s.reserves := rfl
@[simp] theorem modGrid_tasksDone : (modGrid s i f).tasksDone = s.tasksDone := rfl
@[simp] theorem modGrid_rays : (modGrid s i f).rays = s.rays := rfl
@[simp] theorem modGrid_passes : (modGrid s i f).passes = s.passes := rfl
@[simp] theorem modGrid_stips : (modGrid s i f).stips = s.stips := rfl
@[simp] theorem modGrid_outputs : (modGrid s i f).outputs = s.outputs := rfl
@[simp] theorem modGrid_reservoir : (modGrid s i f).reservoir = s.reservoir := rfl
@[simp] theorem modGrid_chains : (modGrid s i f).chains = s.chains := rfl
@[simp] theorem modGrid_jobs : (modGrid s i f).jobs = s.jobs := rfl
@[simp] theorem modGrid_ladders : (modGrid s i f).ladders = s.ladders := rfl
@[simp] theorem modGrid_commits : (modGrid s i f).commits = s.commits := rfl
@[simp] theorem modGrid_pipes : (modGrid s i f).pipes = s.pipes := rfl
@[simp] theorem modGrid_sched : (modGrid s i f).sched = s.sched := rfl
@[simp] theorem modGrid_schedTags : (modGrid s i f).schedTags = s.schedTags := rfl
@[simp] theorem modGrid_draws : (modGrid s i f).draws = s.draws := rfl
@[simp] theorem modGrid_seals : (modGrid s i f).seals = s.seals := rfl
@[simp] theorem modGrid_rings : (modGrid s i f).rings = s.rings := rfl
@[simp] theorem modGrid_domain : (modGrid s i f).domain = s.domain := rfl
@[simp] theorem modGrid_regions : (modGrid s i f).regions = s.regions := rfl
@[simp] theorem modGrid_errors : (modGrid s i f).errors = s.errors := rfl
@[simp] theorem modGrid_dev : (modGrid s i f).dev = s.dev := rfl
end

/-! ### modCore changes `cores` alone -/

section
variable (s : State) (c : Nat) (f : Core → Core)
@[simp] theorem modCore_agenda : (modCore s c f).agenda = s.agenda := rfl
@[simp] theorem modCore_cur : (modCore s c f).cur = s.cur := rfl
@[simp] theorem modCore_curFeed : (modCore s c f).curFeed = s.curFeed := rfl
@[simp] theorem modCore_tnow : (modCore s c f).tnow = s.tnow := rfl
@[simp] theorem modCore_aclk : (modCore s c f).aclk = s.aclk := rfl
@[simp] theorem modCore_nextId : (modCore s c f).nextId = s.nextId := rfl
@[simp] theorem modCore_mem : (modCore s c f).mem = s.mem := rfl
@[simp] theorem modCore_weight : (modCore s c f).weight = s.weight := rfl
@[simp] theorem modCore_lines : (modCore s c f).lines = s.lines := rfl
@[simp] theorem modCore_threads : (modCore s c f).threads = s.threads := rfl
@[simp] theorem modCore_teams : (modCore s c f).teams = s.teams := rfl
@[simp] theorem modCore_grids : (modCore s c f).grids = s.grids := rfl
@[simp] theorem modCore_cores : (modCore s c f).cores = kset s.cores c (f (core s c)) := rfl
@[simp] theorem modCore_stations : (modCore s c f).stations = s.stations := rfl
@[simp] theorem modCore_dispatch : (modCore s c f).dispatch = s.dispatch := rfl
@[simp] theorem modCore_queues : (modCore s c f).queues = s.queues := rfl
@[simp] theorem modCore_copies : (modCore s c f).copies = s.copies := rfl
@[simp] theorem modCore_mtx : (modCore s c f).mtx = s.mtx := rfl
@[simp] theorem modCore_heirs : (modCore s c f).heirs = s.heirs := rfl
@[simp] theorem modCore_feeds : (modCore s c f).feeds = s.feeds := rfl
@[simp] theorem modCore_measured : (modCore s c f).measured = s.measured := rfl
@[simp] theorem modCore_reserves : (modCore s c f).reserves = s.reserves := rfl
@[simp] theorem modCore_tasksDone : (modCore s c f).tasksDone = s.tasksDone := rfl
@[simp] theorem modCore_rays : (modCore s c f).rays = s.rays := rfl
@[simp] theorem modCore_passes : (modCore s c f).passes = s.passes := rfl
@[simp] theorem modCore_stips : (modCore s c f).stips = s.stips := rfl
@[simp] theorem modCore_outputs : (modCore s c f).outputs = s.outputs := rfl
@[simp] theorem modCore_reservoir : (modCore s c f).reservoir = s.reservoir := rfl
@[simp] theorem modCore_chains : (modCore s c f).chains = s.chains := rfl
@[simp] theorem modCore_jobs : (modCore s c f).jobs = s.jobs := rfl
@[simp] theorem modCore_ladders : (modCore s c f).ladders = s.ladders := rfl
@[simp] theorem modCore_commits : (modCore s c f).commits = s.commits := rfl
@[simp] theorem modCore_pipes : (modCore s c f).pipes = s.pipes := rfl
@[simp] theorem modCore_sched : (modCore s c f).sched = s.sched := rfl
@[simp] theorem modCore_schedTags : (modCore s c f).schedTags = s.schedTags := rfl
@[simp] theorem modCore_draws : (modCore s c f).draws = s.draws := rfl
@[simp] theorem modCore_seals : (modCore s c f).seals = s.seals := rfl
@[simp] theorem modCore_rings : (modCore s c f).rings = s.rings := rfl
@[simp] theorem modCore_domain : (modCore s c f).domain = s.domain := rfl
@[simp] theorem modCore_regions : (modCore s c f).regions = s.regions := rfl
@[simp] theorem modCore_errors : (modCore s c f).errors = s.errors := rfl
@[simp] theorem modCore_dev : (modCore s c f).dev = s.dev := rfl
end

/-! ### modStation changes `stations` alone -/

section
variable (s : State) (i : Nat) (f : Station → Station)
@[simp] theorem modStation_agenda : (modStation s i f).agenda = s.agenda := rfl
@[simp] theorem modStation_cur : (modStation s i f).cur = s.cur := rfl
@[simp] theorem modStation_curFeed : (modStation s i f).curFeed = s.curFeed := rfl
@[simp] theorem modStation_tnow : (modStation s i f).tnow = s.tnow := rfl
@[simp] theorem modStation_aclk : (modStation s i f).aclk = s.aclk := rfl
@[simp] theorem modStation_nextId : (modStation s i f).nextId = s.nextId := rfl
@[simp] theorem modStation_mem : (modStation s i f).mem = s.mem := rfl
@[simp] theorem modStation_weight : (modStation s i f).weight = s.weight := rfl
@[simp] theorem modStation_lines : (modStation s i f).lines = s.lines := rfl
@[simp] theorem modStation_threads : (modStation s i f).threads = s.threads := rfl
@[simp] theorem modStation_teams : (modStation s i f).teams = s.teams := rfl
@[simp] theorem modStation_grids : (modStation s i f).grids = s.grids := rfl
@[simp] theorem modStation_cores : (modStation s i f).cores = s.cores := rfl
@[simp] theorem modStation_stations : (modStation s i f).stations = kset s.stations i (f (station s i)) := rfl
@[simp] theorem modStation_dispatch : (modStation s i f).dispatch = s.dispatch := rfl
@[simp] theorem modStation_queues : (modStation s i f).queues = s.queues := rfl
@[simp] theorem modStation_copies : (modStation s i f).copies = s.copies := rfl
@[simp] theorem modStation_mtx : (modStation s i f).mtx = s.mtx := rfl
@[simp] theorem modStation_heirs : (modStation s i f).heirs = s.heirs := rfl
@[simp] theorem modStation_feeds : (modStation s i f).feeds = s.feeds := rfl
@[simp] theorem modStation_measured : (modStation s i f).measured = s.measured := rfl
@[simp] theorem modStation_reserves : (modStation s i f).reserves = s.reserves := rfl
@[simp] theorem modStation_tasksDone : (modStation s i f).tasksDone = s.tasksDone := rfl
@[simp] theorem modStation_rays : (modStation s i f).rays = s.rays := rfl
@[simp] theorem modStation_passes : (modStation s i f).passes = s.passes := rfl
@[simp] theorem modStation_stips : (modStation s i f).stips = s.stips := rfl
@[simp] theorem modStation_outputs : (modStation s i f).outputs = s.outputs := rfl
@[simp] theorem modStation_reservoir : (modStation s i f).reservoir = s.reservoir := rfl
@[simp] theorem modStation_chains : (modStation s i f).chains = s.chains := rfl
@[simp] theorem modStation_jobs : (modStation s i f).jobs = s.jobs := rfl
@[simp] theorem modStation_ladders : (modStation s i f).ladders = s.ladders := rfl
@[simp] theorem modStation_commits : (modStation s i f).commits = s.commits := rfl
@[simp] theorem modStation_pipes : (modStation s i f).pipes = s.pipes := rfl
@[simp] theorem modStation_sched : (modStation s i f).sched = s.sched := rfl
@[simp] theorem modStation_schedTags : (modStation s i f).schedTags = s.schedTags := rfl
@[simp] theorem modStation_draws : (modStation s i f).draws = s.draws := rfl
@[simp] theorem modStation_seals : (modStation s i f).seals = s.seals := rfl
@[simp] theorem modStation_rings : (modStation s i f).rings = s.rings := rfl
@[simp] theorem modStation_domain : (modStation s i f).domain = s.domain := rfl
@[simp] theorem modStation_regions : (modStation s i f).regions = s.regions := rfl
@[simp] theorem modStation_errors : (modStation s i f).errors = s.errors := rfl
@[simp] theorem modStation_dev : (modStation s i f).dev = s.dev := rfl
end

/-! ### modSeal changes `seals` alone -/

section
variable (s : State) (i : Nat) (f : SealEntry → SealEntry)
@[simp] theorem modSeal_agenda : (modSeal s i f).agenda = s.agenda := rfl
@[simp] theorem modSeal_cur : (modSeal s i f).cur = s.cur := rfl
@[simp] theorem modSeal_curFeed : (modSeal s i f).curFeed = s.curFeed := rfl
@[simp] theorem modSeal_tnow : (modSeal s i f).tnow = s.tnow := rfl
@[simp] theorem modSeal_aclk : (modSeal s i f).aclk = s.aclk := rfl
@[simp] theorem modSeal_nextId : (modSeal s i f).nextId = s.nextId := rfl
@[simp] theorem modSeal_mem : (modSeal s i f).mem = s.mem := rfl
@[simp] theorem modSeal_weight : (modSeal s i f).weight = s.weight := rfl
@[simp] theorem modSeal_lines : (modSeal s i f).lines = s.lines := rfl
@[simp] theorem modSeal_threads : (modSeal s i f).threads = s.threads := rfl
@[simp] theorem modSeal_teams : (modSeal s i f).teams = s.teams := rfl
@[simp] theorem modSeal_grids : (modSeal s i f).grids = s.grids := rfl
@[simp] theorem modSeal_cores : (modSeal s i f).cores = s.cores := rfl
@[simp] theorem modSeal_stations : (modSeal s i f).stations = s.stations := rfl
@[simp] theorem modSeal_dispatch : (modSeal s i f).dispatch = s.dispatch := rfl
@[simp] theorem modSeal_queues : (modSeal s i f).queues = s.queues := rfl
@[simp] theorem modSeal_copies : (modSeal s i f).copies = s.copies := rfl
@[simp] theorem modSeal_mtx : (modSeal s i f).mtx = s.mtx := rfl
@[simp] theorem modSeal_heirs : (modSeal s i f).heirs = s.heirs := rfl
@[simp] theorem modSeal_feeds : (modSeal s i f).feeds = s.feeds := rfl
@[simp] theorem modSeal_measured : (modSeal s i f).measured = s.measured := rfl
@[simp] theorem modSeal_reserves : (modSeal s i f).reserves = s.reserves := rfl
@[simp] theorem modSeal_tasksDone : (modSeal s i f).tasksDone = s.tasksDone := rfl
@[simp] theorem modSeal_rays : (modSeal s i f).rays = s.rays := rfl
@[simp] theorem modSeal_passes : (modSeal s i f).passes = s.passes := rfl
@[simp] theorem modSeal_stips : (modSeal s i f).stips = s.stips := rfl
@[simp] theorem modSeal_outputs : (modSeal s i f).outputs = s.outputs := rfl
@[simp] theorem modSeal_reservoir : (modSeal s i f).reservoir = s.reservoir := rfl
@[simp] theorem modSeal_chains : (modSeal s i f).chains = s.chains := rfl
@[simp] theorem modSeal_jobs : (modSeal s i f).jobs = s.jobs := rfl
@[simp] theorem modSeal_ladders : (modSeal s i f).ladders = s.ladders := rfl
@[simp] theorem modSeal_commits : (modSeal s i f).commits = s.commits := rfl
@[simp] theorem modSeal_pipes : (modSeal s i f).pipes = s.pipes := rfl
@[simp] theorem modSeal_sched : (modSeal s i f).sched = s.sched := rfl
@[simp] theorem modSeal_schedTags : (modSeal s i f).schedTags = s.schedTags := rfl
@[simp] theorem modSeal_draws : (modSeal s i f).draws = s.draws := rfl
@[simp] theorem modSeal_seals : (modSeal s i f).seals = kset s.seals i (f (sealOf s i)) := rfl
@[simp] theorem modSeal_rings : (modSeal s i f).rings = s.rings := rfl
@[simp] theorem modSeal_domain : (modSeal s i f).domain = s.domain := rfl
@[simp] theorem modSeal_regions : (modSeal s i f).regions = s.regions := rfl
@[simp] theorem modSeal_errors : (modSeal s i f).errors = s.errors := rfl
@[simp] theorem modSeal_dev : (modSeal s i f).dev = s.dev := rfl
end

/-! ### modMtx changes `mtx` alone -/

section
variable (s : State) (i : Nat) (f : MtxOp → MtxOp)
@[simp] theorem modMtx_agenda : (modMtx s i f).agenda = s.agenda := rfl
@[simp] theorem modMtx_cur : (modMtx s i f).cur = s.cur := rfl
@[simp] theorem modMtx_curFeed : (modMtx s i f).curFeed = s.curFeed := rfl
@[simp] theorem modMtx_tnow : (modMtx s i f).tnow = s.tnow := rfl
@[simp] theorem modMtx_aclk : (modMtx s i f).aclk = s.aclk := rfl
@[simp] theorem modMtx_nextId : (modMtx s i f).nextId = s.nextId := rfl
@[simp] theorem modMtx_mem : (modMtx s i f).mem = s.mem := rfl
@[simp] theorem modMtx_weight : (modMtx s i f).weight = s.weight := rfl
@[simp] theorem modMtx_lines : (modMtx s i f).lines = s.lines := rfl
@[simp] theorem modMtx_threads : (modMtx s i f).threads = s.threads := rfl
@[simp] theorem modMtx_teams : (modMtx s i f).teams = s.teams := rfl
@[simp] theorem modMtx_grids : (modMtx s i f).grids = s.grids := rfl
@[simp] theorem modMtx_cores : (modMtx s i f).cores = s.cores := rfl
@[simp] theorem modMtx_stations : (modMtx s i f).stations = s.stations := rfl
@[simp] theorem modMtx_dispatch : (modMtx s i f).dispatch = s.dispatch := rfl
@[simp] theorem modMtx_queues : (modMtx s i f).queues = s.queues := rfl
@[simp] theorem modMtx_copies : (modMtx s i f).copies = s.copies := rfl
@[simp] theorem modMtx_mtx : (modMtx s i f).mtx = kmod s.mtx i f := rfl
@[simp] theorem modMtx_heirs : (modMtx s i f).heirs = s.heirs := rfl
@[simp] theorem modMtx_feeds : (modMtx s i f).feeds = s.feeds := rfl
@[simp] theorem modMtx_measured : (modMtx s i f).measured = s.measured := rfl
@[simp] theorem modMtx_reserves : (modMtx s i f).reserves = s.reserves := rfl
@[simp] theorem modMtx_tasksDone : (modMtx s i f).tasksDone = s.tasksDone := rfl
@[simp] theorem modMtx_rays : (modMtx s i f).rays = s.rays := rfl
@[simp] theorem modMtx_passes : (modMtx s i f).passes = s.passes := rfl
@[simp] theorem modMtx_stips : (modMtx s i f).stips = s.stips := rfl
@[simp] theorem modMtx_outputs : (modMtx s i f).outputs = s.outputs := rfl
@[simp] theorem modMtx_reservoir : (modMtx s i f).reservoir = s.reservoir := rfl
@[simp] theorem modMtx_chains : (modMtx s i f).chains = s.chains := rfl
@[simp] theorem modMtx_jobs : (modMtx s i f).jobs = s.jobs := rfl
@[simp] theorem modMtx_ladders : (modMtx s i f).ladders = s.ladders := rfl
@[simp] theorem modMtx_commits : (modMtx s i f).commits = s.commits := rfl
@[simp] theorem modMtx_pipes : (modMtx s i f).pipes = s.pipes := rfl
@[simp] theorem modMtx_sched : (modMtx s i f).sched = s.sched := rfl
@[simp] theorem modMtx_schedTags : (modMtx s i f).schedTags = s.schedTags := rfl
@[simp] theorem modMtx_draws : (modMtx s i f).draws = s.draws := rfl
@[simp] theorem modMtx_seals : (modMtx s i f).seals = s.seals := rfl
@[simp] theorem modMtx_rings : (modMtx s i f).rings = s.rings := rfl
@[simp] theorem modMtx_domain : (modMtx s i f).domain = s.domain := rfl
@[simp] theorem modMtx_regions : (modMtx s i f).regions = s.regions := rfl
@[simp] theorem modMtx_errors : (modMtx s i f).errors = s.errors := rfl
@[simp] theorem modMtx_dev : (modMtx s i f).dev = s.dev := rfl
end

/-! ### modRay changes `rays` alone -/

section
variable (s : State) (i : Nat) (f : Ray → Ray)
@[simp] theorem modRay_agenda : (modRay s i f).agenda = s.agenda := rfl
@[simp] theorem modRay_cur : (modRay s i f).cur = s.cur := rfl
@[simp] theorem modRay_curFeed : (modRay s i f).curFeed = s.curFeed := rfl
@[simp] theorem modRay_tnow : (modRay s i f).tnow = s.tnow := rfl
@[simp] theorem modRay_aclk : (modRay s i f).aclk = s.aclk := rfl
@[simp] theorem modRay_nextId : (modRay s i f).nextId = s.nextId := rfl
@[simp] theorem modRay_mem : (modRay s i f).mem = s.mem := rfl
@[simp] theorem modRay_weight : (modRay s i f).weight = s.weight := rfl
@[simp] theorem modRay_lines : (modRay s i f).lines = s.lines := rfl
@[simp] theorem modRay_threads : (modRay s i f).threads = s.threads := rfl
@[simp] theorem modRay_teams : (modRay s i f).teams = s.teams := rfl
@[simp] theorem modRay_grids : (modRay s i f).grids = s.grids := rfl
@[simp] theorem modRay_cores : (modRay s i f).cores = s.cores := rfl
@[simp] theorem modRay_stations : (modRay s i f).stations = s.stations := rfl
@[simp] theorem modRay_dispatch : (modRay s i f).dispatch = s.dispatch := rfl
@[simp] theorem modRay_queues : (modRay s i f).queues = s.queues := rfl
@[simp] theorem modRay_copies : (modRay s i f).copies = s.copies := rfl
@[simp] theorem modRay_mtx : (modRay s i f).mtx = s.mtx := rfl
@[simp] theorem modRay_heirs : (modRay s i f).heirs = s.heirs := rfl
@[simp] theorem modRay_feeds : (modRay s i f).feeds = s.feeds := rfl
@[simp] theorem modRay_measured : (modRay s i f).measured = s.measured := rfl
@[simp] theorem modRay_reserves : (modRay s i f).reserves = s.reserves := rfl
@[simp] theorem modRay_tasksDone : (modRay s i f).tasksDone = s.tasksDone := rfl
@[simp] theorem modRay_rays : (modRay s i f).rays = kmod s.rays i f := rfl
@[simp] theorem modRay_passes : (modRay s i f).passes = s.passes := rfl
@[simp] theorem modRay_stips : (modRay s i f).stips = s.stips := rfl
@[simp] theorem modRay_outputs : (modRay s i f).outputs = s.outputs := rfl
@[simp] theorem modRay_reservoir : (modRay s i f).reservoir = s.reservoir := rfl
@[simp] theorem modRay_chains : (modRay s i f).chains = s.chains := rfl
@[simp] theorem modRay_jobs : (modRay s i f).jobs = s.jobs := rfl
@[simp] theorem modRay_ladders : (modRay s i f).ladders = s.ladders := rfl
@[simp] theorem modRay_commits : (modRay s i f).commits = s.commits := rfl
@[simp] theorem modRay_pipes : (modRay s i f).pipes = s.pipes := rfl
@[simp] theorem modRay_sched : (modRay s i f).sched = s.sched := rfl
@[simp] theorem modRay_schedTags : (modRay s i f).schedTags = s.schedTags := rfl
@[simp] theorem modRay_draws : (modRay s i f).draws = s.draws := rfl
@[simp] theorem modRay_seals : (modRay s i f).seals = s.seals := rfl
@[simp] theorem modRay_rings : (modRay s i f).rings = s.rings := rfl
@[simp] theorem modRay_domain : (modRay s i f).domain = s.domain := rfl
@[simp] theorem modRay_regions : (modRay s i f).regions = s.regions := rfl
@[simp] theorem modRay_errors : (modRay s i f).errors = s.errors := rfl
@[simp] theorem modRay_dev : (modRay s i f).dev = s.dev := rfl
end

/-! ### modPass changes `passes` alone -/

section
variable (s : State) (i : Nat) (f : Pass → Pass)
@[simp] theorem modPass_agenda : (modPass s i f).agenda = s.agenda := rfl
@[simp] theorem modPass_cur : (modPass s i f).cur = s.cur := rfl
@[simp] theorem modPass_curFeed : (modPass s i f).curFeed = s.curFeed := rfl
@[simp] theorem modPass_tnow : (modPass s i f).tnow = s.tnow := rfl
@[simp] theorem modPass_aclk : (modPass s i f).aclk = s.aclk := rfl
@[simp] theorem modPass_nextId : (modPass s i f).nextId = s.nextId := rfl
@[simp] theorem modPass_mem : (modPass s i f).mem = s.mem := rfl
@[simp] theorem modPass_weight : (modPass s i f).weight = s.weight := rfl
@[simp] theorem modPass_lines : (modPass s i f).lines = s.lines := rfl
@[simp] theorem modPass_threads : (modPass s i f).threads = s.threads := rfl
@[simp] theorem modPass_teams : (modPass s i f).teams = s.teams := rfl
@[simp] theorem modPass_grids : (modPass s i f).grids = s.grids := rfl
@[simp] theorem modPass_cores : (modPass s i f).cores = s.cores := rfl
@[simp] theorem modPass_stations : (modPass s i f).stations = s.stations := rfl
@[simp] theorem modPass_dispatch : (modPass s i f).dispatch = s.dispatch := rfl
@[simp] theorem modPass_queues : (modPass s i f).queues = s.queues := rfl
@[simp] theorem modPass_copies : (modPass s i f).copies = s.copies := rfl
@[simp] theorem modPass_mtx : (modPass s i f).mtx = s.mtx := rfl
@[simp] theorem modPass_heirs : (modPass s i f).heirs = s.heirs := rfl
@[simp] theorem modPass_feeds : (modPass s i f).feeds = s.feeds := rfl
@[simp] theorem modPass_measured : (modPass s i f).measured = s.measured := rfl
@[simp] theorem modPass_reserves : (modPass s i f).reserves = s.reserves := rfl
@[simp] theorem modPass_tasksDone : (modPass s i f).tasksDone = s.tasksDone := rfl
@[simp] theorem modPass_rays : (modPass s i f).rays = s.rays := rfl
@[simp] theorem modPass_passes : (modPass s i f).passes = kmod s.passes i f := rfl
@[simp] theorem modPass_stips : (modPass s i f).stips = s.stips := rfl
@[simp] theorem modPass_outputs : (modPass s i f).outputs = s.outputs := rfl
@[simp] theorem modPass_reservoir : (modPass s i f).reservoir = s.reservoir := rfl
@[simp] theorem modPass_chains : (modPass s i f).chains = s.chains := rfl
@[simp] theorem modPass_jobs : (modPass s i f).jobs = s.jobs := rfl
@[simp] theorem modPass_ladders : (modPass s i f).ladders = s.ladders := rfl
@[simp] theorem modPass_commits : (modPass s i f).commits = s.commits := rfl
@[simp] theorem modPass_pipes : (modPass s i f).pipes = s.pipes := rfl
@[simp] theorem modPass_sched : (modPass s i f).sched = s.sched := rfl
@[simp] theorem modPass_schedTags : (modPass s i f).schedTags = s.schedTags := rfl
@[simp] theorem modPass_draws : (modPass s i f).draws = s.draws := rfl
@[simp] theorem modPass_seals : (modPass s i f).seals = s.seals := rfl
@[simp] theorem modPass_rings : (modPass s i f).rings = s.rings := rfl
@[simp] theorem modPass_domain : (modPass s i f).domain = s.domain := rfl
@[simp] theorem modPass_regions : (modPass s i f).regions = s.regions := rfl
@[simp] theorem modPass_errors : (modPass s i f).errors = s.errors := rfl
@[simp] theorem modPass_dev : (modPass s i f).dev = s.dev := rfl
end

/-! ### modOutput changes `outputs` alone -/

section
variable (s : State) (o : Nat) (f : Output → Output)
@[simp] theorem modOutput_agenda : (modOutput s o f).agenda = s.agenda := rfl
@[simp] theorem modOutput_cur : (modOutput s o f).cur = s.cur := rfl
@[simp] theorem modOutput_curFeed : (modOutput s o f).curFeed = s.curFeed := rfl
@[simp] theorem modOutput_tnow : (modOutput s o f).tnow = s.tnow := rfl
@[simp] theorem modOutput_aclk : (modOutput s o f).aclk = s.aclk := rfl
@[simp] theorem modOutput_nextId : (modOutput s o f).nextId = s.nextId := rfl
@[simp] theorem modOutput_mem : (modOutput s o f).mem = s.mem := rfl
@[simp] theorem modOutput_weight : (modOutput s o f).weight = s.weight := rfl
@[simp] theorem modOutput_lines : (modOutput s o f).lines = s.lines := rfl
@[simp] theorem modOutput_threads : (modOutput s o f).threads = s.threads := rfl
@[simp] theorem modOutput_teams : (modOutput s o f).teams = s.teams := rfl
@[simp] theorem modOutput_grids : (modOutput s o f).grids = s.grids := rfl
@[simp] theorem modOutput_cores : (modOutput s o f).cores = s.cores := rfl
@[simp] theorem modOutput_stations : (modOutput s o f).stations = s.stations := rfl
@[simp] theorem modOutput_dispatch : (modOutput s o f).dispatch = s.dispatch := rfl
@[simp] theorem modOutput_queues : (modOutput s o f).queues = s.queues := rfl
@[simp] theorem modOutput_copies : (modOutput s o f).copies = s.copies := rfl
@[simp] theorem modOutput_mtx : (modOutput s o f).mtx = s.mtx := rfl
@[simp] theorem modOutput_heirs : (modOutput s o f).heirs = s.heirs := rfl
@[simp] theorem modOutput_feeds : (modOutput s o f).feeds = s.feeds := rfl
@[simp] theorem modOutput_measured : (modOutput s o f).measured = s.measured := rfl
@[simp] theorem modOutput_reserves : (modOutput s o f).reserves = s.reserves := rfl
@[simp] theorem modOutput_tasksDone : (modOutput s o f).tasksDone = s.tasksDone := rfl
@[simp] theorem modOutput_rays : (modOutput s o f).rays = s.rays := rfl
@[simp] theorem modOutput_passes : (modOutput s o f).passes = s.passes := rfl
@[simp] theorem modOutput_stips : (modOutput s o f).stips = s.stips := rfl
@[simp] theorem modOutput_outputs : (modOutput s o f).outputs = kset s.outputs o (f (output s o)) := rfl
@[simp] theorem modOutput_reservoir : (modOutput s o f).reservoir = s.reservoir := rfl
@[simp] theorem modOutput_chains : (modOutput s o f).chains = s.chains := rfl
@[simp] theorem modOutput_jobs : (modOutput s o f).jobs = s.jobs := rfl
@[simp] theorem modOutput_ladders : (modOutput s o f).ladders = s.ladders := rfl
@[simp] theorem modOutput_commits : (modOutput s o f).commits = s.commits := rfl
@[simp] theorem modOutput_pipes : (modOutput s o f).pipes = s.pipes := rfl
@[simp] theorem modOutput_sched : (modOutput s o f).sched = s.sched := rfl
@[simp] theorem modOutput_schedTags : (modOutput s o f).schedTags = s.schedTags := rfl
@[simp] theorem modOutput_draws : (modOutput s o f).draws = s.draws := rfl
@[simp] theorem modOutput_seals : (modOutput s o f).seals = s.seals := rfl
@[simp] theorem modOutput_rings : (modOutput s o f).rings = s.rings := rfl
@[simp] theorem modOutput_domain : (modOutput s o f).domain = s.domain := rfl
@[simp] theorem modOutput_regions : (modOutput s o f).regions = s.regions := rfl
@[simp] theorem modOutput_errors : (modOutput s o f).errors = s.errors := rfl
@[simp] theorem modOutput_dev : (modOutput s o f).dev = s.dev := rfl
end

/-! ### modRing changes `reservoir` alone -/

section
variable (s : State) (r : Nat) (f : Ring → Ring)
@[simp] theorem modRing_agenda : (modRing s r f).agenda = s.agenda := rfl
@[simp] theorem modRing_cur : (modRing s r f).cur = s.cur := rfl
@[simp] theorem modRing_curFeed : (modRing s r f).curFeed = s.curFeed := rfl
@[simp] theorem modRing_tnow : (modRing s r f).tnow = s.tnow := rfl
@[simp] theorem modRing_aclk : (modRing s r f).aclk = s.aclk := rfl
@[simp] theorem modRing_nextId : (modRing s r f).nextId = s.nextId := rfl
@[simp] theorem modRing_mem : (modRing s r f).mem = s.mem := rfl
@[simp] theorem modRing_weight : (modRing s r f).weight = s.weight := rfl
@[simp] theorem modRing_lines : (modRing s r f).lines = s.lines := rfl
@[simp] theorem modRing_threads : (modRing s r f).threads = s.threads := rfl
@[simp] theorem modRing_teams : (modRing s r f).teams = s.teams := rfl
@[simp] theorem modRing_grids : (modRing s r f).grids = s.grids := rfl
@[simp] theorem modRing_cores : (modRing s r f).cores = s.cores := rfl
@[simp] theorem modRing_stations : (modRing s r f).stations = s.stations := rfl
@[simp] theorem modRing_dispatch : (modRing s r f).dispatch = s.dispatch := rfl
@[simp] theorem modRing_queues : (modRing s r f).queues = s.queues := rfl
@[simp] theorem modRing_copies : (modRing s r f).copies = s.copies := rfl
@[simp] theorem modRing_mtx : (modRing s r f).mtx = s.mtx := rfl
@[simp] theorem modRing_heirs : (modRing s r f).heirs = s.heirs := rfl
@[simp] theorem modRing_feeds : (modRing s r f).feeds = s.feeds := rfl
@[simp] theorem modRing_measured : (modRing s r f).measured = s.measured := rfl
@[simp] theorem modRing_reserves : (modRing s r f).reserves = s.reserves := rfl
@[simp] theorem modRing_tasksDone : (modRing s r f).tasksDone = s.tasksDone := rfl
@[simp] theorem modRing_rays : (modRing s r f).rays = s.rays := rfl
@[simp] theorem modRing_passes : (modRing s r f).passes = s.passes := rfl
@[simp] theorem modRing_stips : (modRing s r f).stips = s.stips := rfl
@[simp] theorem modRing_outputs : (modRing s r f).outputs = s.outputs := rfl
@[simp] theorem modRing_reservoir : (modRing s r f).reservoir = kset s.reservoir r (f (ringOf s r)) := rfl
@[simp] theorem modRing_chains : (modRing s r f).chains = s.chains := rfl
@[simp] theorem modRing_jobs : (modRing s r f).jobs = s.jobs := rfl
@[simp] theorem modRing_ladders : (modRing s r f).ladders = s.ladders := rfl
@[simp] theorem modRing_commits : (modRing s r f).commits = s.commits := rfl
@[simp] theorem modRing_pipes : (modRing s r f).pipes = s.pipes := rfl
@[simp] theorem modRing_sched : (modRing s r f).sched = s.sched := rfl
@[simp] theorem modRing_schedTags : (modRing s r f).schedTags = s.schedTags := rfl
@[simp] theorem modRing_draws : (modRing s r f).draws = s.draws := rfl
@[simp] theorem modRing_seals : (modRing s r f).seals = s.seals := rfl
@[simp] theorem modRing_rings : (modRing s r f).rings = s.rings := rfl
@[simp] theorem modRing_domain : (modRing s r f).domain = s.domain := rfl
@[simp] theorem modRing_regions : (modRing s r f).regions = s.regions := rfl
@[simp] theorem modRing_errors : (modRing s r f).errors = s.errors := rfl
@[simp] theorem modRing_dev : (modRing s r f).dev = s.dev := rfl
end

/-! ### modJob changes `jobs` alone -/

section
variable (s : State) (i : Nat) (f : Job → Job)
@[simp] theorem modJob_agenda : (modJob s i f).agenda = s.agenda := rfl
@[simp] theorem modJob_cur : (modJob s i f).cur = s.cur := rfl
@[simp] theorem modJob_curFeed : (modJob s i f).curFeed = s.curFeed := rfl
@[simp] theorem modJob_tnow : (modJob s i f).tnow = s.tnow := rfl
@[simp] theorem modJob_aclk : (modJob s i f).aclk = s.aclk := rfl
@[simp] theorem modJob_nextId : (modJob s i f).nextId = s.nextId := rfl
@[simp] theorem modJob_mem : (modJob s i f).mem = s.mem := rfl
@[simp] theorem modJob_weight : (modJob s i f).weight = s.weight := rfl
@[simp] theorem modJob_lines : (modJob s i f).lines = s.lines := rfl
@[simp] theorem modJob_threads : (modJob s i f).threads = s.threads := rfl
@[simp] theorem modJob_teams : (modJob s i f).teams = s.teams := rfl
@[simp] theorem modJob_grids : (modJob s i f).grids = s.grids := rfl
@[simp] theorem modJob_cores : (modJob s i f).cores = s.cores := rfl
@[simp] theorem modJob_stations : (modJob s i f).stations = s.stations := rfl
@[simp] theorem modJob_dispatch : (modJob s i f).dispatch = s.dispatch := rfl
@[simp] theorem modJob_queues : (modJob s i f).queues = s.queues := rfl
@[simp] theorem modJob_copies : (modJob s i f).copies = s.copies := rfl
@[simp] theorem modJob_mtx : (modJob s i f).mtx = s.mtx := rfl
@[simp] theorem modJob_heirs : (modJob s i f).heirs = s.heirs := rfl
@[simp] theorem modJob_feeds : (modJob s i f).feeds = s.feeds := rfl
@[simp] theorem modJob_measured : (modJob s i f).measured = s.measured := rfl
@[simp] theorem modJob_reserves : (modJob s i f).reserves = s.reserves := rfl
@[simp] theorem modJob_tasksDone : (modJob s i f).tasksDone = s.tasksDone := rfl
@[simp] theorem modJob_rays : (modJob s i f).rays = s.rays := rfl
@[simp] theorem modJob_passes : (modJob s i f).passes = s.passes := rfl
@[simp] theorem modJob_stips : (modJob s i f).stips = s.stips := rfl
@[simp] theorem modJob_outputs : (modJob s i f).outputs = s.outputs := rfl
@[simp] theorem modJob_reservoir : (modJob s i f).reservoir = s.reservoir := rfl
@[simp] theorem modJob_chains : (modJob s i f).chains = s.chains := rfl
@[simp] theorem modJob_jobs : (modJob s i f).jobs = kmod s.jobs i f := rfl
@[simp] theorem modJob_ladders : (modJob s i f).ladders = s.ladders := rfl
@[simp] theorem modJob_commits : (modJob s i f).commits = s.commits := rfl
@[simp] theorem modJob_pipes : (modJob s i f).pipes = s.pipes := rfl
@[simp] theorem modJob_sched : (modJob s i f).sched = s.sched := rfl
@[simp] theorem modJob_schedTags : (modJob s i f).schedTags = s.schedTags := rfl
@[simp] theorem modJob_draws : (modJob s i f).draws = s.draws := rfl
@[simp] theorem modJob_seals : (modJob s i f).seals = s.seals := rfl
@[simp] theorem modJob_rings : (modJob s i f).rings = s.rings := rfl
@[simp] theorem modJob_domain : (modJob s i f).domain = s.domain := rfl
@[simp] theorem modJob_regions : (modJob s i f).regions = s.regions := rfl
@[simp] theorem modJob_errors : (modJob s i f).errors = s.errors := rfl
@[simp] theorem modJob_dev : (modJob s i f).dev = s.dev := rfl
end

/-! ### modLines changes `lines` alone -/

section
variable (s : State) (f : Lines → Lines)
@[simp] theorem modLines_agenda : (modLines s f).agenda = s.agenda := rfl
@[simp] theorem modLines_cur : (modLines s f).cur = s.cur := rfl
@[simp] theorem modLines_curFeed : (modLines s f).curFeed = s.curFeed := rfl
@[simp] theorem modLines_tnow : (modLines s f).tnow = s.tnow := rfl
@[simp] theorem modLines_aclk : (modLines s f).aclk = s.aclk := rfl
@[simp] theorem modLines_nextId : (modLines s f).nextId = s.nextId := rfl
@[simp] theorem modLines_mem : (modLines s f).mem = s.mem := rfl
@[simp] theorem modLines_weight : (modLines s f).weight = s.weight := rfl
@[simp] theorem modLines_lines : (modLines s f).lines = f s.lines := rfl
@[simp] theorem modLines_threads : (modLines s f).threads = s.threads := rfl
@[simp] theorem modLines_teams : (modLines s f).teams = s.teams := rfl
@[simp] theorem modLines_grids : (modLines s f).grids = s.grids := rfl
@[simp] theorem modLines_cores : (modLines s f).cores = s.cores := rfl
@[simp] theorem modLines_stations : (modLines s f).stations = s.stations := rfl
@[simp] theorem modLines_dispatch : (modLines s f).dispatch = s.dispatch := rfl
@[simp] theorem modLines_queues : (modLines s f).queues = s.queues := rfl
@[simp] theorem modLines_copies : (modLines s f).copies = s.copies := rfl
@[simp] theorem modLines_mtx : (modLines s f).mtx = s.mtx := rfl
@[simp] theorem modLines_heirs : (modLines s f).heirs = s.heirs := rfl
@[simp] theorem modLines_feeds : (modLines s f).feeds = s.feeds := rfl
@[simp] theorem modLines_measured : (modLines s f).measured = s.measured := rfl
@[simp] theorem modLines_reserves : (modLines s f).reserves = s.reserves := rfl
@[simp] theorem modLines_tasksDone : (modLines s f).tasksDone = s.tasksDone := rfl
@[simp] theorem modLines_rays : (modLines s f).rays = s.rays := rfl
@[simp] theorem modLines_passes : (modLines s f).passes = s.passes := rfl
@[simp] theorem modLines_stips : (modLines s f).stips = s.stips := rfl
@[simp] theorem modLines_outputs : (modLines s f).outputs = s.outputs := rfl
@[simp] theorem modLines_reservoir : (modLines s f).reservoir = s.reservoir := rfl
@[simp] theorem modLines_chains : (modLines s f).chains = s.chains := rfl
@[simp] theorem modLines_jobs : (modLines s f).jobs = s.jobs := rfl
@[simp] theorem modLines_ladders : (modLines s f).ladders = s.ladders := rfl
@[simp] theorem modLines_commits : (modLines s f).commits = s.commits := rfl
@[simp] theorem modLines_pipes : (modLines s f).pipes = s.pipes := rfl
@[simp] theorem modLines_sched : (modLines s f).sched = s.sched := rfl
@[simp] theorem modLines_schedTags : (modLines s f).schedTags = s.schedTags := rfl
@[simp] theorem modLines_draws : (modLines s f).draws = s.draws := rfl
@[simp] theorem modLines_seals : (modLines s f).seals = s.seals := rfl
@[simp] theorem modLines_rings : (modLines s f).rings = s.rings := rfl
@[simp] theorem modLines_domain : (modLines s f).domain = s.domain := rfl
@[simp] theorem modLines_regions : (modLines s f).regions = s.regions := rfl
@[simp] theorem modLines_errors : (modLines s f).errors = s.errors := rfl
@[simp] theorem modLines_dev : (modLines s f).dev = s.dev := rfl
end

/-! ### modErrors changes `errors` alone -/

section
variable (s : State) (f : ErrorState → ErrorState)
@[simp] theorem modErrors_agenda : (modErrors s f).agenda = s.agenda := rfl
@[simp] theorem modErrors_cur : (modErrors s f).cur = s.cur := rfl
@[simp] theorem modErrors_curFeed : (modErrors s f).curFeed = s.curFeed := rfl
@[simp] theorem modErrors_tnow : (modErrors s f).tnow = s.tnow := rfl
@[simp] theorem modErrors_aclk : (modErrors s f).aclk = s.aclk := rfl
@[simp] theorem modErrors_nextId : (modErrors s f).nextId = s.nextId := rfl
@[simp] theorem modErrors_mem : (modErrors s f).mem = s.mem := rfl
@[simp] theorem modErrors_weight : (modErrors s f).weight = s.weight := rfl
@[simp] theorem modErrors_lines : (modErrors s f).lines = s.lines := rfl
@[simp] theorem modErrors_threads : (modErrors s f).threads = s.threads := rfl
@[simp] theorem modErrors_teams : (modErrors s f).teams = s.teams := rfl
@[simp] theorem modErrors_grids : (modErrors s f).grids = s.grids := rfl
@[simp] theorem modErrors_cores : (modErrors s f).cores = s.cores := rfl
@[simp] theorem modErrors_stations : (modErrors s f).stations = s.stations := rfl
@[simp] theorem modErrors_dispatch : (modErrors s f).dispatch = s.dispatch := rfl
@[simp] theorem modErrors_queues : (modErrors s f).queues = s.queues := rfl
@[simp] theorem modErrors_copies : (modErrors s f).copies = s.copies := rfl
@[simp] theorem modErrors_mtx : (modErrors s f).mtx = s.mtx := rfl
@[simp] theorem modErrors_heirs : (modErrors s f).heirs = s.heirs := rfl
@[simp] theorem modErrors_feeds : (modErrors s f).feeds = s.feeds := rfl
@[simp] theorem modErrors_measured : (modErrors s f).measured = s.measured := rfl
@[simp] theorem modErrors_reserves : (modErrors s f).reserves = s.reserves := rfl
@[simp] theorem modErrors_tasksDone : (modErrors s f).tasksDone = s.tasksDone := rfl
@[simp] theorem modErrors_rays : (modErrors s f).rays = s.rays := rfl
@[simp] theorem modErrors_passes : (modErrors s f).passes = s.passes := rfl
@[simp] theorem modErrors_stips : (modErrors s f).stips = s.stips := rfl
@[simp] theorem modErrors_outputs : (modErrors s f).outputs = s.outputs := rfl
@[simp] theorem modErrors_reservoir : (modErrors s f).reservoir = s.reservoir := rfl
@[simp] theorem modErrors_chains : (modErrors s f).chains = s.chains := rfl
@[simp] theorem modErrors_jobs : (modErrors s f).jobs = s.jobs := rfl
@[simp] theorem modErrors_ladders : (modErrors s f).ladders = s.ladders := rfl
@[simp] theorem modErrors_commits : (modErrors s f).commits = s.commits := rfl
@[simp] theorem modErrors_pipes : (modErrors s f).pipes = s.pipes := rfl
@[simp] theorem modErrors_sched : (modErrors s f).sched = s.sched := rfl
@[simp] theorem modErrors_schedTags : (modErrors s f).schedTags = s.schedTags := rfl
@[simp] theorem modErrors_draws : (modErrors s f).draws = s.draws := rfl
@[simp] theorem modErrors_seals : (modErrors s f).seals = s.seals := rfl
@[simp] theorem modErrors_rings : (modErrors s f).rings = s.rings := rfl
@[simp] theorem modErrors_domain : (modErrors s f).domain = s.domain := rfl
@[simp] theorem modErrors_regions : (modErrors s f).regions = s.regions := rfl
@[simp] theorem modErrors_errors : (modErrors s f).errors = f s.errors := rfl
@[simp] theorem modErrors_dev : (modErrors s f).dev = s.dev := rfl
end

/-! ### modDomain changes `domain` alone -/

section
variable (s : State) (f : Domain → Domain)
@[simp] theorem modDomain_agenda : (modDomain s f).agenda = s.agenda := rfl
@[simp] theorem modDomain_cur : (modDomain s f).cur = s.cur := rfl
@[simp] theorem modDomain_curFeed : (modDomain s f).curFeed = s.curFeed := rfl
@[simp] theorem modDomain_tnow : (modDomain s f).tnow = s.tnow := rfl
@[simp] theorem modDomain_aclk : (modDomain s f).aclk = s.aclk := rfl
@[simp] theorem modDomain_nextId : (modDomain s f).nextId = s.nextId := rfl
@[simp] theorem modDomain_mem : (modDomain s f).mem = s.mem := rfl
@[simp] theorem modDomain_weight : (modDomain s f).weight = s.weight := rfl
@[simp] theorem modDomain_lines : (modDomain s f).lines = s.lines := rfl
@[simp] theorem modDomain_threads : (modDomain s f).threads = s.threads := rfl
@[simp] theorem modDomain_teams : (modDomain s f).teams = s.teams := rfl
@[simp] theorem modDomain_grids : (modDomain s f).grids = s.grids := rfl
@[simp] theorem modDomain_cores : (modDomain s f).cores = s.cores := rfl
@[simp] theorem modDomain_stations : (modDomain s f).stations = s.stations := rfl
@[simp] theorem modDomain_dispatch : (modDomain s f).dispatch = s.dispatch := rfl
@[simp] theorem modDomain_queues : (modDomain s f).queues = s.queues := rfl
@[simp] theorem modDomain_copies : (modDomain s f).copies = s.copies := rfl
@[simp] theorem modDomain_mtx : (modDomain s f).mtx = s.mtx := rfl
@[simp] theorem modDomain_heirs : (modDomain s f).heirs = s.heirs := rfl
@[simp] theorem modDomain_feeds : (modDomain s f).feeds = s.feeds := rfl
@[simp] theorem modDomain_measured : (modDomain s f).measured = s.measured := rfl
@[simp] theorem modDomain_reserves : (modDomain s f).reserves = s.reserves := rfl
@[simp] theorem modDomain_tasksDone : (modDomain s f).tasksDone = s.tasksDone := rfl
@[simp] theorem modDomain_rays : (modDomain s f).rays = s.rays := rfl
@[simp] theorem modDomain_passes : (modDomain s f).passes = s.passes := rfl
@[simp] theorem modDomain_stips : (modDomain s f).stips = s.stips := rfl
@[simp] theorem modDomain_outputs : (modDomain s f).outputs = s.outputs := rfl
@[simp] theorem modDomain_reservoir : (modDomain s f).reservoir = s.reservoir := rfl
@[simp] theorem modDomain_chains : (modDomain s f).chains = s.chains := rfl
@[simp] theorem modDomain_jobs : (modDomain s f).jobs = s.jobs := rfl
@[simp] theorem modDomain_ladders : (modDomain s f).ladders = s.ladders := rfl
@[simp] theorem modDomain_commits : (modDomain s f).commits = s.commits := rfl
@[simp] theorem modDomain_pipes : (modDomain s f).pipes = s.pipes := rfl
@[simp] theorem modDomain_sched : (modDomain s f).sched = s.sched := rfl
@[simp] theorem modDomain_schedTags : (modDomain s f).schedTags = s.schedTags := rfl
@[simp] theorem modDomain_draws : (modDomain s f).draws = s.draws := rfl
@[simp] theorem modDomain_seals : (modDomain s f).seals = s.seals := rfl
@[simp] theorem modDomain_rings : (modDomain s f).rings = s.rings := rfl
@[simp] theorem modDomain_domain : (modDomain s f).domain = f s.domain := rfl
@[simp] theorem modDomain_regions : (modDomain s f).regions = s.regions := rfl
@[simp] theorem modDomain_errors : (modDomain s f).errors = s.errors := rfl
@[simp] theorem modDomain_dev : (modDomain s f).dev = s.dev := rfl
end

/-! ### modDev changes `dev` alone -/

section
variable (s : State) (f : Device → Device)
@[simp] theorem modDev_agenda : (modDev s f).agenda = s.agenda := rfl
@[simp] theorem modDev_cur : (modDev s f).cur = s.cur := rfl
@[simp] theorem modDev_curFeed : (modDev s f).curFeed = s.curFeed := rfl
@[simp] theorem modDev_tnow : (modDev s f).tnow = s.tnow := rfl
@[simp] theorem modDev_aclk : (modDev s f).aclk = s.aclk := rfl
@[simp] theorem modDev_nextId : (modDev s f).nextId = s.nextId := rfl
@[simp] theorem modDev_mem : (modDev s f).mem = s.mem := rfl
@[simp] theorem modDev_weight : (modDev s f).weight = s.weight := rfl
@[simp] theorem modDev_lines : (modDev s f).lines = s.lines := rfl
@[simp] theorem modDev_threads : (modDev s f).threads = s.threads := rfl
@[simp] theorem modDev_teams : (modDev s f).teams = s.teams := rfl
@[simp] theorem modDev_grids : (modDev s f).grids = s.grids := rfl
@[simp] theorem modDev_cores : (modDev s f).cores = s.cores := rfl
@[simp] theorem modDev_stations : (modDev s f).stations = s.stations := rfl
@[simp] theorem modDev_dispatch : (modDev s f).dispatch = s.dispatch := rfl
@[simp] theorem modDev_queues : (modDev s f).queues = s.queues := rfl
@[simp] theorem modDev_copies : (modDev s f).copies = s.copies := rfl
@[simp] theorem modDev_mtx : (modDev s f).mtx = s.mtx := rfl
@[simp] theorem modDev_heirs : (modDev s f).heirs = s.heirs := rfl
@[simp] theorem modDev_feeds : (modDev s f).feeds = s.feeds := rfl
@[simp] theorem modDev_measured : (modDev s f).measured = s.measured := rfl
@[simp] theorem modDev_reserves : (modDev s f).reserves = s.reserves := rfl
@[simp] theorem modDev_tasksDone : (modDev s f).tasksDone = s.tasksDone := rfl
@[simp] theorem modDev_rays : (modDev s f).rays = s.rays := rfl
@[simp] theorem modDev_passes : (modDev s f).passes = s.passes := rfl
@[simp] theorem modDev_stips : (modDev s f).stips = s.stips := rfl
@[simp] theorem modDev_outputs : (modDev s f).outputs = s.outputs := rfl
@[simp] theorem modDev_reservoir : (modDev s f).reservoir = s.reservoir := rfl
@[simp] theorem modDev_chains : (modDev s f).chains = s.chains := rfl
@[simp] theorem modDev_jobs : (modDev s f).jobs = s.jobs := rfl
@[simp] theorem modDev_ladders : (modDev s f).ladders = s.ladders := rfl
@[simp] theorem modDev_commits : (modDev s f).commits = s.commits := rfl
@[simp] theorem modDev_pipes : (modDev s f).pipes = s.pipes := rfl
@[simp] theorem modDev_sched : (modDev s f).sched = s.sched := rfl
@[simp] theorem modDev_schedTags : (modDev s f).schedTags = s.schedTags := rfl
@[simp] theorem modDev_draws : (modDev s f).draws = s.draws := rfl
@[simp] theorem modDev_seals : (modDev s f).seals = s.seals := rfl
@[simp] theorem modDev_rings : (modDev s f).rings = s.rings := rfl
@[simp] theorem modDev_domain : (modDev s f).domain = s.domain := rfl
@[simp] theorem modDev_regions : (modDev s f).regions = s.regions := rfl
@[simp] theorem modDev_errors : (modDev s f).errors = s.errors := rfl
@[simp] theorem modDev_dev : (modDev s f).dev = f s.dev := rfl
end

/-! ### modCopy changes `copies` alone -/

section
variable (s : State) (i : Nat) (f : CopyCmd → CopyCmd)
@[simp] theorem modCopy_agenda : (modCopy s i f).agenda = s.agenda := rfl
@[simp] theorem modCopy_cur : (modCopy s i f).cur = s.cur := rfl
@[simp] theorem modCopy_curFeed : (modCopy s i f).curFeed = s.curFeed := rfl
@[simp] theorem modCopy_tnow : (modCopy s i f).tnow = s.tnow := rfl
@[simp] theorem modCopy_aclk : (modCopy s i f).aclk = s.aclk := rfl
@[simp] theorem modCopy_nextId : (modCopy s i f).nextId = s.nextId := rfl
@[simp] theorem modCopy_mem : (modCopy s i f).mem = s.mem := rfl
@[simp] theorem modCopy_weight : (modCopy s i f).weight = s.weight := rfl
@[simp] theorem modCopy_lines : (modCopy s i f).lines = s.lines := rfl
@[simp] theorem modCopy_threads : (modCopy s i f).threads = s.threads := rfl
@[simp] theorem modCopy_teams : (modCopy s i f).teams = s.teams := rfl
@[simp] theorem modCopy_grids : (modCopy s i f).grids = s.grids := rfl
@[simp] theorem modCopy_cores : (modCopy s i f).cores = s.cores := rfl
@[simp] theorem modCopy_stations : (modCopy s i f).stations = s.stations := rfl
@[simp] theorem modCopy_dispatch : (modCopy s i f).dispatch = s.dispatch := rfl
@[simp] theorem modCopy_queues : (modCopy s i f).queues = s.queues := rfl
@[simp] theorem modCopy_copies : (modCopy s i f).copies = kmod s.copies i f := rfl
@[simp] theorem modCopy_mtx : (modCopy s i f).mtx = s.mtx := rfl
@[simp] theorem modCopy_heirs : (modCopy s i f).heirs = s.heirs := rfl
@[simp] theorem modCopy_feeds : (modCopy s i f).feeds = s.feeds := rfl
@[simp] theorem modCopy_measured : (modCopy s i f).measured = s.measured := rfl
@[simp] theorem modCopy_reserves : (modCopy s i f).reserves = s.reserves := rfl
@[simp] theorem modCopy_tasksDone : (modCopy s i f).tasksDone = s.tasksDone := rfl
@[simp] theorem modCopy_rays : (modCopy s i f).rays = s.rays := rfl
@[simp] theorem modCopy_passes : (modCopy s i f).passes = s.passes := rfl
@[simp] theorem modCopy_stips : (modCopy s i f).stips = s.stips := rfl
@[simp] theorem modCopy_outputs : (modCopy s i f).outputs = s.outputs := rfl
@[simp] theorem modCopy_reservoir : (modCopy s i f).reservoir = s.reservoir := rfl
@[simp] theorem modCopy_chains : (modCopy s i f).chains = s.chains := rfl
@[simp] theorem modCopy_jobs : (modCopy s i f).jobs = s.jobs := rfl
@[simp] theorem modCopy_ladders : (modCopy s i f).ladders = s.ladders := rfl
@[simp] theorem modCopy_commits : (modCopy s i f).commits = s.commits := rfl
@[simp] theorem modCopy_pipes : (modCopy s i f).pipes = s.pipes := rfl
@[simp] theorem modCopy_sched : (modCopy s i f).sched = s.sched := rfl
@[simp] theorem modCopy_schedTags : (modCopy s i f).schedTags = s.schedTags := rfl
@[simp] theorem modCopy_draws : (modCopy s i f).draws = s.draws := rfl
@[simp] theorem modCopy_seals : (modCopy s i f).seals = s.seals := rfl
@[simp] theorem modCopy_rings : (modCopy s i f).rings = s.rings := rfl
@[simp] theorem modCopy_domain : (modCopy s i f).domain = s.domain := rfl
@[simp] theorem modCopy_regions : (modCopy s i f).regions = s.regions := rfl
@[simp] theorem modCopy_errors : (modCopy s i f).errors = s.errors := rfl
@[simp] theorem modCopy_dev : (modCopy s i f).dev = s.dev := rfl
end

/-! ### modFeed changes `feeds` alone -/

section
variable (s : State) (k : Nat) (f : Feed → Feed)
@[simp] theorem modFeed_agenda : (modFeed s k f).agenda = s.agenda := rfl
@[simp] theorem modFeed_cur : (modFeed s k f).cur = s.cur := rfl
@[simp] theorem modFeed_curFeed : (modFeed s k f).curFeed = s.curFeed := rfl
@[simp] theorem modFeed_tnow : (modFeed s k f).tnow = s.tnow := rfl
@[simp] theorem modFeed_aclk : (modFeed s k f).aclk = s.aclk := rfl
@[simp] theorem modFeed_nextId : (modFeed s k f).nextId = s.nextId := rfl
@[simp] theorem modFeed_mem : (modFeed s k f).mem = s.mem := rfl
@[simp] theorem modFeed_weight : (modFeed s k f).weight = s.weight := rfl
@[simp] theorem modFeed_lines : (modFeed s k f).lines = s.lines := rfl
@[simp] theorem modFeed_threads : (modFeed s k f).threads = s.threads := rfl
@[simp] theorem modFeed_teams : (modFeed s k f).teams = s.teams := rfl
@[simp] theorem modFeed_grids : (modFeed s k f).grids = s.grids := rfl
@[simp] theorem modFeed_cores : (modFeed s k f).cores = s.cores := rfl
@[simp] theorem modFeed_stations : (modFeed s k f).stations = s.stations := rfl
@[simp] theorem modFeed_dispatch : (modFeed s k f).dispatch = s.dispatch := rfl
@[simp] theorem modFeed_queues : (modFeed s k f).queues = s.queues := rfl
@[simp] theorem modFeed_copies : (modFeed s k f).copies = s.copies := rfl
@[simp] theorem modFeed_mtx : (modFeed s k f).mtx = s.mtx := rfl
@[simp] theorem modFeed_heirs : (modFeed s k f).heirs = s.heirs := rfl
@[simp] theorem modFeed_feeds : (modFeed s k f).feeds = kmod s.feeds k f := rfl
@[simp] theorem modFeed_measured : (modFeed s k f).measured = s.measured := rfl
@[simp] theorem modFeed_reserves : (modFeed s k f).reserves = s.reserves := rfl
@[simp] theorem modFeed_tasksDone : (modFeed s k f).tasksDone = s.tasksDone := rfl
@[simp] theorem modFeed_rays : (modFeed s k f).rays = s.rays := rfl
@[simp] theorem modFeed_passes : (modFeed s k f).passes = s.passes := rfl
@[simp] theorem modFeed_stips : (modFeed s k f).stips = s.stips := rfl
@[simp] theorem modFeed_outputs : (modFeed s k f).outputs = s.outputs := rfl
@[simp] theorem modFeed_reservoir : (modFeed s k f).reservoir = s.reservoir := rfl
@[simp] theorem modFeed_chains : (modFeed s k f).chains = s.chains := rfl
@[simp] theorem modFeed_jobs : (modFeed s k f).jobs = s.jobs := rfl
@[simp] theorem modFeed_ladders : (modFeed s k f).ladders = s.ladders := rfl
@[simp] theorem modFeed_commits : (modFeed s k f).commits = s.commits := rfl
@[simp] theorem modFeed_pipes : (modFeed s k f).pipes = s.pipes := rfl
@[simp] theorem modFeed_sched : (modFeed s k f).sched = s.sched := rfl
@[simp] theorem modFeed_schedTags : (modFeed s k f).schedTags = s.schedTags := rfl
@[simp] theorem modFeed_draws : (modFeed s k f).draws = s.draws := rfl
@[simp] theorem modFeed_seals : (modFeed s k f).seals = s.seals := rfl
@[simp] theorem modFeed_rings : (modFeed s k f).rings = s.rings := rfl
@[simp] theorem modFeed_domain : (modFeed s k f).domain = s.domain := rfl
@[simp] theorem modFeed_regions : (modFeed s k f).regions = s.regions := rfl
@[simp] theorem modFeed_errors : (modFeed s k f).errors = s.errors := rfl
@[simp] theorem modFeed_dev : (modFeed s k f).dev = s.dev := rfl
end

/-! ### setQueue changes `queues` alone -/

section
variable (s : State) (h : Nat) (q : Queue)
@[simp] theorem setQueue_agenda : (setQueue s h q).agenda = s.agenda := rfl
@[simp] theorem setQueue_cur : (setQueue s h q).cur = s.cur := rfl
@[simp] theorem setQueue_curFeed : (setQueue s h q).curFeed = s.curFeed := rfl
@[simp] theorem setQueue_tnow : (setQueue s h q).tnow = s.tnow := rfl
@[simp] theorem setQueue_aclk : (setQueue s h q).aclk = s.aclk := rfl
@[simp] theorem setQueue_nextId : (setQueue s h q).nextId = s.nextId := rfl
@[simp] theorem setQueue_mem : (setQueue s h q).mem = s.mem := rfl
@[simp] theorem setQueue_weight : (setQueue s h q).weight = s.weight := rfl
@[simp] theorem setQueue_lines : (setQueue s h q).lines = s.lines := rfl
@[simp] theorem setQueue_threads : (setQueue s h q).threads = s.threads := rfl
@[simp] theorem setQueue_teams : (setQueue s h q).teams = s.teams := rfl
@[simp] theorem setQueue_grids : (setQueue s h q).grids = s.grids := rfl
@[simp] theorem setQueue_cores : (setQueue s h q).cores = s.cores := rfl
@[simp] theorem setQueue_stations : (setQueue s h q).stations = s.stations := rfl
@[simp] theorem setQueue_dispatch : (setQueue s h q).dispatch = s.dispatch := rfl
@[simp] theorem setQueue_queues : (setQueue s h q).queues = kset s.queues (queueKey h) q := rfl
@[simp] theorem setQueue_copies : (setQueue s h q).copies = s.copies := rfl
@[simp] theorem setQueue_mtx : (setQueue s h q).mtx = s.mtx := rfl
@[simp] theorem setQueue_heirs : (setQueue s h q).heirs = s.heirs := rfl
@[simp] theorem setQueue_feeds : (setQueue s h q).feeds = s.feeds := rfl
@[simp] theorem setQueue_measured : (setQueue s h q).measured = s.measured := rfl
@[simp] theorem setQueue_reserves : (setQueue s h q).reserves = s.reserves := rfl
@[simp] theorem setQueue_tasksDone : (setQueue s h q).tasksDone = s.tasksDone := rfl
@[simp] theorem setQueue_rays : (setQueue s h q).rays = s.rays := rfl
@[simp] theorem setQueue_passes : (setQueue s h q).passes = s.passes := rfl
@[simp] theorem setQueue_stips : (setQueue s h q).stips = s.stips := rfl
@[simp] theorem setQueue_outputs : (setQueue s h q).outputs = s.outputs := rfl
@[simp] theorem setQueue_reservoir : (setQueue s h q).reservoir = s.reservoir := rfl
@[simp] theorem setQueue_chains : (setQueue s h q).chains = s.chains := rfl
@[simp] theorem setQueue_jobs : (setQueue s h q).jobs = s.jobs := rfl
@[simp] theorem setQueue_ladders : (setQueue s h q).ladders = s.ladders := rfl
@[simp] theorem setQueue_commits : (setQueue s h q).commits = s.commits := rfl
@[simp] theorem setQueue_pipes : (setQueue s h q).pipes = s.pipes := rfl
@[simp] theorem setQueue_sched : (setQueue s h q).sched = s.sched := rfl
@[simp] theorem setQueue_schedTags : (setQueue s h q).schedTags = s.schedTags := rfl
@[simp] theorem setQueue_draws : (setQueue s h q).draws = s.draws := rfl
@[simp] theorem setQueue_seals : (setQueue s h q).seals = s.seals := rfl
@[simp] theorem setQueue_rings : (setQueue s h q).rings = s.rings := rfl
@[simp] theorem setQueue_domain : (setQueue s h q).domain = s.domain := rfl
@[simp] theorem setQueue_regions : (setQueue s h q).regions = s.regions := rfl
@[simp] theorem setQueue_errors : (setQueue s h q).errors = s.errors := rfl
@[simp] theorem setQueue_dev : (setQueue s h q).dev = s.dev := rfl
end

/-! ### Named reads after updates of other records -/

section
variable (s : State)
@[simp] theorem team_setThread (t : Nat) (th : Thread) (x : Nat) : team? (setThread s t th) x = team? s x := rfl
@[simp] theorem grid_setThread (t : Nat) (th : Thread) (x : Nat) : grid? (setThread s t th) x = grid? s x := rfl
@[simp] theorem core_setThread (t : Nat) (th : Thread) (x : Nat) : core (setThread s t th) x = core s x := rfl
@[simp] theorem station_setThread (t : Nat) (th : Thread) (x : Nat) : station (setThread s t th) x = station s x := rfl
@[simp] theorem sealOf_setThread (t : Nat) (th : Thread) (x : Nat) : sealOf (setThread s t th) x = sealOf s x := rfl
@[simp] theorem output_setThread (t : Nat) (th : Thread) (x : Nat) : output (setThread s t th) x = output s x := rfl
@[simp] theorem ringOf_setThread (t : Nat) (th : Thread) (x : Nat) : ringOf (setThread s t th) x = ringOf s x := rfl
@[simp] theorem team_modThread (t : Nat) (f : Thread → Thread) (x : Nat) : team? (modThread s t f) x = team? s x := rfl
@[simp] theorem grid_modThread (t : Nat) (f : Thread → Thread) (x : Nat) : grid? (modThread s t f) x = grid? s x := rfl
@[simp] theorem core_modThread (t : Nat) (f : Thread → Thread) (x : Nat) : core (modThread s t f) x = core s x := rfl
@[simp] theorem station_modThread (t : Nat) (f : Thread → Thread) (x : Nat) : station (modThread s t f) x = station s x := rfl
@[simp] theorem sealOf_modThread (t : Nat) (f : Thread → Thread) (x : Nat) : sealOf (modThread s t f) x = sealOf s x := rfl
@[simp] theorem output_modThread (t : Nat) (f : Thread → Thread) (x : Nat) : output (modThread s t f) x = output s x := rfl
@[simp] theorem ringOf_modThread (t : Nat) (f : Thread → Thread) (x : Nat) : ringOf (modThread s t f) x = ringOf s x := rfl
@[simp] theorem thread_modTeam (i : Nat) (f : Team → Team) (x : Nat) : thread? (modTeam s i f) x = thread? s x := rfl
@[simp] theorem grid_modTeam (i : Nat) (f : Team → Team) (x : Nat) : grid? (modTeam s i f) x = grid? s x := rfl
@[simp] theorem core_modTeam (i : Nat) (f : Team → Team) (x : Nat) : core (modTeam s i f) x = core s x := rfl
@[simp] theorem station_modTeam (i : Nat) (f : Team → Team) (x : Nat) : station (modTeam s i f) x = station s x := rfl
@[simp] theorem sealOf_modTeam (i : Nat) (f : Team → Team) (x : Nat) : sealOf (modTeam s i f) x = sealOf s x := rfl
@[simp] theorem output_modTeam (i : Nat) (f : Team → Team) (x : Nat) : output (modTeam s i f) x = output s x := rfl
@[simp] theorem ringOf_modTeam (i : Nat) (f : Team → Team) (x : Nat) : ringOf (modTeam s i f) x = ringOf s x := rfl
@[simp] theorem thread_modGrid (i : Nat) (f : Grid → Grid) (x : Nat) : thread? (modGrid s i f) x = thread? s x := rfl
@[simp] theorem team_modGrid (i : Nat) (f : Grid → Grid) (x : Nat) : team? (modGrid s i f) x = team? s x := rfl
@[simp] theorem core_modGrid (i : Nat) (f : Grid → Grid) (x : Nat) : core (modGrid s i f) x = core s x := rfl
@[simp] theorem station_modGrid (i : Nat) (f : Grid → Grid) (x : Nat) : station (modGrid s i f) x = station s x := rfl
@[simp] theorem sealOf_modGrid (i : Nat) (f : Grid → Grid) (x : Nat) : sealOf (modGrid s i f) x = sealOf s x := rfl
@[simp] theorem output_modGrid (i : Nat) (f : Grid → Grid) (x : Nat) : output (modGrid s i f) x = output s x := rfl
@[simp] theorem ringOf_modGrid (i : Nat) (f : Grid → Grid) (x : Nat) : ringOf (modGrid s i f) x = ringOf s x := rfl
@[simp] theorem thread_modCore (c : Nat) (f : Core → Core) (x : Nat) : thread? (modCore s c f) x = thread? s x := rfl
@[simp] theorem team_modCore (c : Nat) (f : Core → Core) (x : Nat) : team? (modCore s c f) x = team? s x := rfl
@[simp] theorem grid_modCore (c : Nat) (f : Core → Core) (x : Nat) : grid? (modCore s c f) x = grid? s x := rfl
@[simp] theorem station_modCore (c : Nat) (f : Core → Core) (x : Nat) : station (modCore s c f) x = station s x := rfl
@[simp] theorem sealOf_modCore (c : Nat) (f : Core → Core) (x : Nat) : sealOf (modCore s c f) x = sealOf s x := rfl
@[simp] theorem output_modCore (c : Nat) (f : Core → Core) (x : Nat) : output (modCore s c f) x = output s x := rfl
@[simp] theorem ringOf_modCore (c : Nat) (f : Core → Core) (x : Nat) : ringOf (modCore s c f) x = ringOf s x := rfl
@[simp] theorem thread_modStation (i : Nat) (f : Station → Station) (x : Nat) : thread? (modStation s i f) x = thread? s x := rfl
@[simp] theorem team_modStation (i : Nat) (f : Station → Station) (x : Nat) : team? (modStation s i f) x = team? s x := rfl
@[simp] theorem grid_modStation (i : Nat) (f : Station → Station) (x : Nat) : grid? (modStation s i f) x = grid? s x := rfl
@[simp] theorem core_modStation (i : Nat) (f : Station → Station) (x : Nat) : core (modStation s i f) x = core s x := rfl
@[simp] theorem sealOf_modStation (i : Nat) (f : Station → Station) (x : Nat) : sealOf (modStation s i f) x = sealOf s x := rfl
@[simp] theorem output_modStation (i : Nat) (f : Station → Station) (x : Nat) : output (modStation s i f) x = output s x := rfl
@[simp] theorem ringOf_modStation (i : Nat) (f : Station → Station) (x : Nat) : ringOf (modStation s i f) x = ringOf s x := rfl
@[simp] theorem thread_modSeal (i : Nat) (f : SealEntry → SealEntry) (x : Nat) : thread? (modSeal s i f) x = thread? s x := rfl
@[simp] theorem team_modSeal (i : Nat) (f : SealEntry → SealEntry) (x : Nat) : team? (modSeal s i f) x = team? s x := rfl
@[simp] theorem grid_modSeal (i : Nat) (f : SealEntry → SealEntry) (x : Nat) : grid? (modSeal s i f) x = grid? s x := rfl
@[simp] theorem core_modSeal (i : Nat) (f : SealEntry → SealEntry) (x : Nat) : core (modSeal s i f) x = core s x := rfl
@[simp] theorem station_modSeal (i : Nat) (f : SealEntry → SealEntry) (x : Nat) : station (modSeal s i f) x = station s x := rfl
@[simp] theorem output_modSeal (i : Nat) (f : SealEntry → SealEntry) (x : Nat) : output (modSeal s i f) x = output s x := rfl
@[simp] theorem ringOf_modSeal (i : Nat) (f : SealEntry → SealEntry) (x : Nat) : ringOf (modSeal s i f) x = ringOf s x := rfl
@[simp] theorem thread_modMtx (i : Nat) (f : MtxOp → MtxOp) (x : Nat) : thread? (modMtx s i f) x = thread? s x := rfl
@[simp] theorem team_modMtx (i : Nat) (f : MtxOp → MtxOp) (x : Nat) : team? (modMtx s i f) x = team? s x := rfl
@[simp] theorem grid_modMtx (i : Nat) (f : MtxOp → MtxOp) (x : Nat) : grid? (modMtx s i f) x = grid? s x := rfl
@[simp] theorem core_modMtx (i : Nat) (f : MtxOp → MtxOp) (x : Nat) : core (modMtx s i f) x = core s x := rfl
@[simp] theorem station_modMtx (i : Nat) (f : MtxOp → MtxOp) (x : Nat) : station (modMtx s i f) x = station s x := rfl
@[simp] theorem sealOf_modMtx (i : Nat) (f : MtxOp → MtxOp) (x : Nat) : sealOf (modMtx s i f) x = sealOf s x := rfl
@[simp] theorem output_modMtx (i : Nat) (f : MtxOp → MtxOp) (x : Nat) : output (modMtx s i f) x = output s x := rfl
@[simp] theorem ringOf_modMtx (i : Nat) (f : MtxOp → MtxOp) (x : Nat) : ringOf (modMtx s i f) x = ringOf s x := rfl
@[simp] theorem thread_modRay (i : Nat) (f : Ray → Ray) (x : Nat) : thread? (modRay s i f) x = thread? s x := rfl
@[simp] theorem team_modRay (i : Nat) (f : Ray → Ray) (x : Nat) : team? (modRay s i f) x = team? s x := rfl
@[simp] theorem grid_modRay (i : Nat) (f : Ray → Ray) (x : Nat) : grid? (modRay s i f) x = grid? s x := rfl
@[simp] theorem core_modRay (i : Nat) (f : Ray → Ray) (x : Nat) : core (modRay s i f) x = core s x := rfl
@[simp] theorem station_modRay (i : Nat) (f : Ray → Ray) (x : Nat) : station (modRay s i f) x = station s x := rfl
@[simp] theorem sealOf_modRay (i : Nat) (f : Ray → Ray) (x : Nat) : sealOf (modRay s i f) x = sealOf s x := rfl
@[simp] theorem output_modRay (i : Nat) (f : Ray → Ray) (x : Nat) : output (modRay s i f) x = output s x := rfl
@[simp] theorem ringOf_modRay (i : Nat) (f : Ray → Ray) (x : Nat) : ringOf (modRay s i f) x = ringOf s x := rfl
@[simp] theorem thread_modPass (i : Nat) (f : Pass → Pass) (x : Nat) : thread? (modPass s i f) x = thread? s x := rfl
@[simp] theorem team_modPass (i : Nat) (f : Pass → Pass) (x : Nat) : team? (modPass s i f) x = team? s x := rfl
@[simp] theorem grid_modPass (i : Nat) (f : Pass → Pass) (x : Nat) : grid? (modPass s i f) x = grid? s x := rfl
@[simp] theorem core_modPass (i : Nat) (f : Pass → Pass) (x : Nat) : core (modPass s i f) x = core s x := rfl
@[simp] theorem station_modPass (i : Nat) (f : Pass → Pass) (x : Nat) : station (modPass s i f) x = station s x := rfl
@[simp] theorem sealOf_modPass (i : Nat) (f : Pass → Pass) (x : Nat) : sealOf (modPass s i f) x = sealOf s x := rfl
@[simp] theorem output_modPass (i : Nat) (f : Pass → Pass) (x : Nat) : output (modPass s i f) x = output s x := rfl
@[simp] theorem ringOf_modPass (i : Nat) (f : Pass → Pass) (x : Nat) : ringOf (modPass s i f) x = ringOf s x := rfl
@[simp] theorem thread_modOutput (o : Nat) (f : Output → Output) (x : Nat) : thread? (modOutput s o f) x = thread? s x := rfl
@[simp] theorem team_modOutput (o : Nat) (f : Output → Output) (x : Nat) : team? (modOutput s o f) x = team? s x := rfl
@[simp] theorem grid_modOutput (o : Nat) (f : Output → Output) (x : Nat) : grid? (modOutput s o f) x = grid? s x := rfl
@[simp] theorem core_modOutput (o : Nat) (f : Output → Output) (x : Nat) : core (modOutput s o f) x = core s x := rfl
@[simp] theorem station_modOutput (o : Nat) (f : Output → Output) (x : Nat) : station (modOutput s o f) x = station s x := rfl
@[simp] theorem sealOf_modOutput (o : Nat) (f : Output → Output) (x : Nat) : sealOf (modOutput s o f) x = sealOf s x := rfl
@[simp] theorem ringOf_modOutput (o : Nat) (f : Output → Output) (x : Nat) : ringOf (modOutput s o f) x = ringOf s x := rfl
@[simp] theorem thread_modRing (r : Nat) (f : Ring → Ring) (x : Nat) : thread? (modRing s r f) x = thread? s x := rfl
@[simp] theorem team_modRing (r : Nat) (f : Ring → Ring) (x : Nat) : team? (modRing s r f) x = team? s x := rfl
@[simp] theorem grid_modRing (r : Nat) (f : Ring → Ring) (x : Nat) : grid? (modRing s r f) x = grid? s x := rfl
@[simp] theorem core_modRing (r : Nat) (f : Ring → Ring) (x : Nat) : core (modRing s r f) x = core s x := rfl
@[simp] theorem station_modRing (r : Nat) (f : Ring → Ring) (x : Nat) : station (modRing s r f) x = station s x := rfl
@[simp] theorem sealOf_modRing (r : Nat) (f : Ring → Ring) (x : Nat) : sealOf (modRing s r f) x = sealOf s x := rfl
@[simp] theorem output_modRing (r : Nat) (f : Ring → Ring) (x : Nat) : output (modRing s r f) x = output s x := rfl
@[simp] theorem thread_modJob (i : Nat) (f : Job → Job) (x : Nat) : thread? (modJob s i f) x = thread? s x := rfl
@[simp] theorem team_modJob (i : Nat) (f : Job → Job) (x : Nat) : team? (modJob s i f) x = team? s x := rfl
@[simp] theorem grid_modJob (i : Nat) (f : Job → Job) (x : Nat) : grid? (modJob s i f) x = grid? s x := rfl
@[simp] theorem core_modJob (i : Nat) (f : Job → Job) (x : Nat) : core (modJob s i f) x = core s x := rfl
@[simp] theorem station_modJob (i : Nat) (f : Job → Job) (x : Nat) : station (modJob s i f) x = station s x := rfl
@[simp] theorem sealOf_modJob (i : Nat) (f : Job → Job) (x : Nat) : sealOf (modJob s i f) x = sealOf s x := rfl
@[simp] theorem output_modJob (i : Nat) (f : Job → Job) (x : Nat) : output (modJob s i f) x = output s x := rfl
@[simp] theorem ringOf_modJob (i : Nat) (f : Job → Job) (x : Nat) : ringOf (modJob s i f) x = ringOf s x := rfl
@[simp] theorem thread_modLines (f : Lines → Lines) (x : Nat) : thread? (modLines s f) x = thread? s x := rfl
@[simp] theorem team_modLines (f : Lines → Lines) (x : Nat) : team? (modLines s f) x = team? s x := rfl
@[simp] theorem grid_modLines (f : Lines → Lines) (x : Nat) : grid? (modLines s f) x = grid? s x := rfl
@[simp] theorem core_modLines (f : Lines → Lines) (x : Nat) : core (modLines s f) x = core s x := rfl
@[simp] theorem station_modLines (f : Lines → Lines) (x : Nat) : station (modLines s f) x = station s x := rfl
@[simp] theorem sealOf_modLines (f : Lines → Lines) (x : Nat) : sealOf (modLines s f) x = sealOf s x := rfl
@[simp] theorem output_modLines (f : Lines → Lines) (x : Nat) : output (modLines s f) x = output s x := rfl
@[simp] theorem ringOf_modLines (f : Lines → Lines) (x : Nat) : ringOf (modLines s f) x = ringOf s x := rfl
@[simp] theorem thread_modErrors (f : ErrorState → ErrorState) (x : Nat) : thread? (modErrors s f) x = thread? s x := rfl
@[simp] theorem team_modErrors (f : ErrorState → ErrorState) (x : Nat) : team? (modErrors s f) x = team? s x := rfl
@[simp] theorem grid_modErrors (f : ErrorState → ErrorState) (x : Nat) : grid? (modErrors s f) x = grid? s x := rfl
@[simp] theorem core_modErrors (f : ErrorState → ErrorState) (x : Nat) : core (modErrors s f) x = core s x := rfl
@[simp] theorem station_modErrors (f : ErrorState → ErrorState) (x : Nat) : station (modErrors s f) x = station s x := rfl
@[simp] theorem sealOf_modErrors (f : ErrorState → ErrorState) (x : Nat) : sealOf (modErrors s f) x = sealOf s x := rfl
@[simp] theorem output_modErrors (f : ErrorState → ErrorState) (x : Nat) : output (modErrors s f) x = output s x := rfl
@[simp] theorem ringOf_modErrors (f : ErrorState → ErrorState) (x : Nat) : ringOf (modErrors s f) x = ringOf s x := rfl
@[simp] theorem thread_modDomain (f : Domain → Domain) (x : Nat) : thread? (modDomain s f) x = thread? s x := rfl
@[simp] theorem team_modDomain (f : Domain → Domain) (x : Nat) : team? (modDomain s f) x = team? s x := rfl
@[simp] theorem grid_modDomain (f : Domain → Domain) (x : Nat) : grid? (modDomain s f) x = grid? s x := rfl
@[simp] theorem core_modDomain (f : Domain → Domain) (x : Nat) : core (modDomain s f) x = core s x := rfl
@[simp] theorem station_modDomain (f : Domain → Domain) (x : Nat) : station (modDomain s f) x = station s x := rfl
@[simp] theorem sealOf_modDomain (f : Domain → Domain) (x : Nat) : sealOf (modDomain s f) x = sealOf s x := rfl
@[simp] theorem output_modDomain (f : Domain → Domain) (x : Nat) : output (modDomain s f) x = output s x := rfl
@[simp] theorem ringOf_modDomain (f : Domain → Domain) (x : Nat) : ringOf (modDomain s f) x = ringOf s x := rfl
@[simp] theorem thread_modDev (f : Device → Device) (x : Nat) : thread? (modDev s f) x = thread? s x := rfl
@[simp] theorem team_modDev (f : Device → Device) (x : Nat) : team? (modDev s f) x = team? s x := rfl
@[simp] theorem grid_modDev (f : Device → Device) (x : Nat) : grid? (modDev s f) x = grid? s x := rfl
@[simp] theorem core_modDev (f : Device → Device) (x : Nat) : core (modDev s f) x = core s x := rfl
@[simp] theorem station_modDev (f : Device → Device) (x : Nat) : station (modDev s f) x = station s x := rfl
@[simp] theorem sealOf_modDev (f : Device → Device) (x : Nat) : sealOf (modDev s f) x = sealOf s x := rfl
@[simp] theorem output_modDev (f : Device → Device) (x : Nat) : output (modDev s f) x = output s x := rfl
@[simp] theorem ringOf_modDev (f : Device → Device) (x : Nat) : ringOf (modDev s f) x = ringOf s x := rfl
@[simp] theorem thread_modCopy (i : Nat) (f : CopyCmd → CopyCmd) (x : Nat) : thread? (modCopy s i f) x = thread? s x := rfl
@[simp] theorem team_modCopy (i : Nat) (f : CopyCmd → CopyCmd) (x : Nat) : team? (modCopy s i f) x = team? s x := rfl
@[simp] theorem grid_modCopy (i : Nat) (f : CopyCmd → CopyCmd) (x : Nat) : grid? (modCopy s i f) x = grid? s x := rfl
@[simp] theorem core_modCopy (i : Nat) (f : CopyCmd → CopyCmd) (x : Nat) : core (modCopy s i f) x = core s x := rfl
@[simp] theorem station_modCopy (i : Nat) (f : CopyCmd → CopyCmd) (x : Nat) : station (modCopy s i f) x = station s x := rfl
@[simp] theorem sealOf_modCopy (i : Nat) (f : CopyCmd → CopyCmd) (x : Nat) : sealOf (modCopy s i f) x = sealOf s x := rfl
@[simp] theorem output_modCopy (i : Nat) (f : CopyCmd → CopyCmd) (x : Nat) : output (modCopy s i f) x = output s x := rfl
@[simp] theorem ringOf_modCopy (i : Nat) (f : CopyCmd → CopyCmd) (x : Nat) : ringOf (modCopy s i f) x = ringOf s x := rfl
@[simp] theorem thread_modFeed (k : Nat) (f : Feed → Feed) (x : Nat) : thread? (modFeed s k f) x = thread? s x := rfl
@[simp] theorem team_modFeed (k : Nat) (f : Feed → Feed) (x : Nat) : team? (modFeed s k f) x = team? s x := rfl
@[simp] theorem grid_modFeed (k : Nat) (f : Feed → Feed) (x : Nat) : grid? (modFeed s k f) x = grid? s x := rfl
@[simp] theorem core_modFeed (k : Nat) (f : Feed → Feed) (x : Nat) : core (modFeed s k f) x = core s x := rfl
@[simp] theorem station_modFeed (k : Nat) (f : Feed → Feed) (x : Nat) : station (modFeed s k f) x = station s x := rfl
@[simp] theorem sealOf_modFeed (k : Nat) (f : Feed → Feed) (x : Nat) : sealOf (modFeed s k f) x = sealOf s x := rfl
@[simp] theorem output_modFeed (k : Nat) (f : Feed → Feed) (x : Nat) : output (modFeed s k f) x = output s x := rfl
@[simp] theorem ringOf_modFeed (k : Nat) (f : Feed → Feed) (x : Nat) : ringOf (modFeed s k f) x = ringOf s x := rfl
@[simp] theorem thread_setQueue (h : Nat) (q : Queue) (x : Nat) : thread? (setQueue s h q) x = thread? s x := rfl
@[simp] theorem team_setQueue (h : Nat) (q : Queue) (x : Nat) : team? (setQueue s h q) x = team? s x := rfl
@[simp] theorem grid_setQueue (h : Nat) (q : Queue) (x : Nat) : grid? (setQueue s h q) x = grid? s x := rfl
@[simp] theorem core_setQueue (h : Nat) (q : Queue) (x : Nat) : core (setQueue s h q) x = core s x := rfl
@[simp] theorem station_setQueue (h : Nat) (q : Queue) (x : Nat) : station (setQueue s h q) x = station s x := rfl
@[simp] theorem sealOf_setQueue (h : Nat) (q : Queue) (x : Nat) : sealOf (setQueue s h q) x = sealOf s x := rfl
@[simp] theorem output_setQueue (h : Nat) (q : Queue) (x : Nat) : output (setQueue s h q) x = output s x := rfl
@[simp] theorem ringOf_setQueue (h : Nat) (q : Queue) (x : Nat) : ringOf (setQueue s h q) x = ringOf s x := rfl
end

/-! ### Registers of a thread -/

section
variable (th : Thread) (r : Nat) (v : Word)

theorem reg_setReg (q : Nat) : (th.setReg r v).reg q = if q = r then v else th.reg q := by
  unfold Thread.setReg Thread.reg kgetD
  by_cases h : q = r
  · subst h; simp
  · simp [h, kget_kset_ne _ _ h]

@[simp] theorem reg_setReg_same : (th.setReg r v).reg r = v := by simp [reg_setReg]

theorem reg_setReg_ne {q : Nat} (h : q ≠ r) : (th.setReg r v).reg q = th.reg q := by simp [reg_setReg, h]
@[simp] theorem setReg_team : (th.setReg r v).team = th.team := rfl
@[simp] theorem setReg_tid : (th.setReg r v).tid = th.tid := rfl
@[simp] theorem setReg_gid : (th.setReg r v).gid = th.gid := rfl
@[simp] theorem setReg_mid : (th.setReg r v).mid = th.mid := rfl
@[simp] theorem setReg_role : (th.setReg r v).role = th.role := rfl
@[simp] theorem setReg_sealId : (th.setReg r v).sealId = th.sealId := rfl
@[simp] theorem setReg_budget : (th.setReg r v).budget = th.budget := rfl
@[simp] theorem setReg_pc : (th.setReg r v).pc = th.pc := rfl
@[simp] theorem setReg_word : (th.setReg r v).word = th.word := rfl
@[simp] theorem setReg_clause : (th.setReg r v).clause = th.clause := rfl
@[simp] theorem setReg_ext : (th.setReg r v).ext = th.ext := rfl
@[simp] theorem setReg_pend : (th.setReg r v).pend = th.pend := rfl
@[simp] theorem setReg_preds : (th.setReg r v).preds = th.preds := rfl
@[simp] theorem setReg_ec : (th.setReg r v).ec = th.ec := rfl
@[simp] theorem setReg_meet : (th.setReg r v).meet = th.meet := rfl
@[simp] theorem setReg_stack : (th.setReg r v).stack = th.stack := rfl
@[simp] theorem setReg_spilled : (th.setReg r v).spilled = th.spilled := rfl
@[simp] theorem setReg_pts : (th.setReg r v).pts = th.pts := rfl
@[simp] theorem setReg_fmt : (th.setReg r v).fmt = th.fmt := rfl
@[simp] theorem setReg_table : (th.setReg r v).table = th.table := rfl
@[simp] theorem setReg_nextTable : (th.setReg r v).nextTable = th.nextTable := rfl
@[simp] theorem setReg_trap : (th.setReg r v).trap = th.trap := rfl
@[simp] theorem setReg_held : (th.setReg r v).held = th.held := rfl
@[simp] theorem setReg_wait : (th.setReg r v).wait = th.wait := rfl
@[simp] theorem setReg_sysMode : (th.setReg r v).sysMode = th.sysMode := rfl
@[simp] theorem setReg_parkAfter : (th.setReg r v).parkAfter = th.parkAfter := rfl
@[simp] theorem setReg_due : (th.setReg r v).due = th.due := rfl
@[simp] theorem setReg_suspended : (th.setReg r v).suspended = th.suspended := rfl
@[simp] theorem setReg_evicted : (th.setReg r v).evicted = th.evicted := rfl
@[simp] theorem setReg_active : (th.setReg r v).active = th.active := rfl
@[simp] theorem setReg_yields : (th.setReg r v).yields = th.yields := rfl
@[simp] theorem setReg_flights : (th.setReg r v).flights = th.flights := rfl
@[simp] theorem setReg_seq : (th.setReg r v).seq = th.seq := rfl
@[simp] theorem setReg_ptsHi : (th.setReg r v).ptsHi = th.ptsHi := rfl
@[simp] theorem setReg_tpcHi : (th.setReg r v).tpcHi = th.tpcHi := rfl
@[simp] theorem setReg_own : (th.setReg r v).own = th.own := rfl
@[simp] theorem setReg_gen : (th.setReg r v).gen = th.gen := rfl
@[simp] theorem setReg_rasterPass : (th.setReg r v).rasterPass = th.rasterPass := rfl
@[simp] theorem setReg_stipplePass : (th.setReg r v).stipplePass = th.stipplePass := rfl
@[simp] theorem setReg_rayGens : (th.setReg r v).rayGens = th.rayGens := rfl
@[simp] theorem setReg_callback : (th.setReg r v).callback = th.callback := rfl
@[simp] theorem setReg_callVals : (th.setReg r v).callVals = th.callVals := rfl
@[simp] theorem setReg_verdict : (th.setReg r v).verdict = th.verdict := rfl
@[simp] theorem setReg_fencew : (th.setReg r v).fencew = th.fencew := rfl
@[simp] theorem setReg_unreg : (th.setReg r v).unreg = th.unreg := rfl
@[simp] theorem setReg_selfAt : (th.setReg r v).selfAt = th.selfAt := rfl
@[simp] theorem setReg_slowSince : (th.setReg r v).slowSince = th.slowSince := rfl
@[simp] theorem setReg_waited : (th.setReg r v).waited = th.waited := rfl
@[simp] theorem setReg_backing : (th.setReg r v).backing = th.backing := rfl
@[simp] theorem setReg_record : (th.setReg r v).record = th.record := rfl
@[simp] theorem setReg_image : (th.setReg r v).image = th.image := rfl
@[simp] theorem setReg_acq : (th.setReg r v).acq = th.acq := rfl
@[simp] theorem setReg_clauseNo : (th.setReg r v).clauseNo = th.clauseNo := rfl
@[simp] theorem setReg_recent : (th.setReg r v).recent = th.recent := rfl
@[simp] theorem setReg_lastMem : (th.setReg r v).lastMem = th.lastMem := rfl
end

section
variable (th : Thread) (rs : List Nat)
@[simp] theorem unmap_team : (th.unmap rs).team = th.team := rfl
@[simp] theorem unmap_tid : (th.unmap rs).tid = th.tid := rfl
@[simp] theorem unmap_gid : (th.unmap rs).gid = th.gid := rfl
@[simp] theorem unmap_mid : (th.unmap rs).mid = th.mid := rfl
@[simp] theorem unmap_role : (th.unmap rs).role = th.role := rfl
@[simp] theorem unmap_sealId : (th.unmap rs).sealId = th.sealId := rfl
@[simp] theorem unmap_budget : (th.unmap rs).budget = th.budget := rfl
@[simp] theorem unmap_pc : (th.unmap rs).pc = th.pc := rfl
@[simp] theorem unmap_word : (th.unmap rs).word = th.word := rfl
@[simp] theorem unmap_clause : (th.unmap rs).clause = th.clause := rfl
@[simp] theorem unmap_ext : (th.unmap rs).ext = th.ext := rfl
@[simp] theorem unmap_pend : (th.unmap rs).pend = th.pend := rfl
@[simp] theorem unmap_preds : (th.unmap rs).preds = th.preds := rfl
@[simp] theorem unmap_ec : (th.unmap rs).ec = th.ec := rfl
@[simp] theorem unmap_meet : (th.unmap rs).meet = th.meet := rfl
@[simp] theorem unmap_stack : (th.unmap rs).stack = th.stack := rfl
@[simp] theorem unmap_spilled : (th.unmap rs).spilled = th.spilled := rfl
@[simp] theorem unmap_pts : (th.unmap rs).pts = th.pts := rfl
@[simp] theorem unmap_fmt : (th.unmap rs).fmt = th.fmt := rfl
@[simp] theorem unmap_table : (th.unmap rs).table = th.table := rfl
@[simp] theorem unmap_nextTable : (th.unmap rs).nextTable = th.nextTable := rfl
@[simp] theorem unmap_trap : (th.unmap rs).trap = th.trap := rfl
@[simp] theorem unmap_held : (th.unmap rs).held = th.held := rfl
@[simp] theorem unmap_wait : (th.unmap rs).wait = th.wait := rfl
@[simp] theorem unmap_sysMode : (th.unmap rs).sysMode = th.sysMode := rfl
@[simp] theorem unmap_parkAfter : (th.unmap rs).parkAfter = th.parkAfter := rfl
@[simp] theorem unmap_due : (th.unmap rs).due = th.due := rfl
@[simp] theorem unmap_suspended : (th.unmap rs).suspended = th.suspended := rfl
@[simp] theorem unmap_evicted : (th.unmap rs).evicted = th.evicted := rfl
@[simp] theorem unmap_active : (th.unmap rs).active = th.active := rfl
@[simp] theorem unmap_yields : (th.unmap rs).yields = th.yields := rfl
@[simp] theorem unmap_flights : (th.unmap rs).flights = th.flights := rfl
@[simp] theorem unmap_seq : (th.unmap rs).seq = th.seq := rfl
@[simp] theorem unmap_ptsHi : (th.unmap rs).ptsHi = th.ptsHi := rfl
@[simp] theorem unmap_tpcHi : (th.unmap rs).tpcHi = th.tpcHi := rfl
@[simp] theorem unmap_own : (th.unmap rs).own = th.own := rfl
@[simp] theorem unmap_gen : (th.unmap rs).gen = th.gen := rfl
@[simp] theorem unmap_rasterPass : (th.unmap rs).rasterPass = th.rasterPass := rfl
@[simp] theorem unmap_stipplePass : (th.unmap rs).stipplePass = th.stipplePass := rfl
@[simp] theorem unmap_rayGens : (th.unmap rs).rayGens = th.rayGens := rfl
@[simp] theorem unmap_callback : (th.unmap rs).callback = th.callback := rfl
@[simp] theorem unmap_callVals : (th.unmap rs).callVals = th.callVals := rfl
@[simp] theorem unmap_verdict : (th.unmap rs).verdict = th.verdict := rfl
@[simp] theorem unmap_fencew : (th.unmap rs).fencew = th.fencew := rfl
@[simp] theorem unmap_unreg : (th.unmap rs).unreg = th.unreg := rfl
@[simp] theorem unmap_selfAt : (th.unmap rs).selfAt = th.selfAt := rfl
@[simp] theorem unmap_slowSince : (th.unmap rs).slowSince = th.slowSince := rfl
@[simp] theorem unmap_waited : (th.unmap rs).waited = th.waited := rfl
@[simp] theorem unmap_backing : (th.unmap rs).backing = th.backing := rfl
@[simp] theorem unmap_record : (th.unmap rs).record = th.record := rfl
@[simp] theorem unmap_image : (th.unmap rs).image = th.image := rfl
@[simp] theorem unmap_acq : (th.unmap rs).acq = th.acq := rfl
@[simp] theorem unmap_clauseNo : (th.unmap rs).clauseNo = th.clauseNo := rfl
@[simp] theorem unmap_recent : (th.unmap rs).recent = th.recent := rfl
@[simp] theorem unmap_lastMem : (th.unmap rs).lastMem = th.lastMem := rfl
end

section
variable (th : Thread) (i : Nat) (b : Bool)
@[simp] theorem setPred_team : (th.setPred i b).team = th.team := rfl
@[simp] theorem setPred_tid : (th.setPred i b).tid = th.tid := rfl
@[simp] theorem setPred_gid : (th.setPred i b).gid = th.gid := rfl
@[simp] theorem setPred_mid : (th.setPred i b).mid = th.mid := rfl
@[simp] theorem setPred_role : (th.setPred i b).role = th.role := rfl
@[simp] theorem setPred_sealId : (th.setPred i b).sealId = th.sealId := rfl
@[simp] theorem setPred_budget : (th.setPred i b).budget = th.budget := rfl
@[simp] theorem setPred_pc : (th.setPred i b).pc = th.pc := rfl
@[simp] theorem setPred_word : (th.setPred i b).word = th.word := rfl
@[simp] theorem setPred_clause : (th.setPred i b).clause = th.clause := rfl
@[simp] theorem setPred_ext : (th.setPred i b).ext = th.ext := rfl
@[simp] theorem setPred_regs : (th.setPred i b).regs = th.regs := rfl
@[simp] theorem setPred_pend : (th.setPred i b).pend = th.pend := rfl
@[simp] theorem setPred_ec : (th.setPred i b).ec = th.ec := rfl
@[simp] theorem setPred_meet : (th.setPred i b).meet = th.meet := rfl
@[simp] theorem setPred_stack : (th.setPred i b).stack = th.stack := rfl
@[simp] theorem setPred_spilled : (th.setPred i b).spilled = th.spilled := rfl
@[simp] theorem setPred_pts : (th.setPred i b).pts = th.pts := rfl
@[simp] theorem setPred_fmt : (th.setPred i b).fmt = th.fmt := rfl
@[simp] theorem setPred_table : (th.setPred i b).table = th.table := rfl
@[simp] theorem setPred_nextTable : (th.setPred i b).nextTable = th.nextTable := rfl
@[simp] theorem setPred_trap : (th.setPred i b).trap = th.trap := rfl
@[simp] theorem setPred_held : (th.setPred i b).held = th.held := rfl
@[simp] theorem setPred_wait : (th.setPred i b).wait = th.wait := rfl
@[simp] theorem setPred_sysMode : (th.setPred i b).sysMode = th.sysMode := rfl
@[simp] theorem setPred_parkAfter : (th.setPred i b).parkAfter = th.parkAfter := rfl
@[simp] theorem setPred_due : (th.setPred i b).due = th.due := rfl
@[simp] theorem setPred_suspended : (th.setPred i b).suspended = th.suspended := rfl
@[simp] theorem setPred_evicted : (th.setPred i b).evicted = th.evicted := rfl
@[simp] theorem setPred_active : (th.setPred i b).active = th.active := rfl
@[simp] theorem setPred_yields : (th.setPred i b).yields = th.yields := rfl
@[simp] theorem setPred_flights : (th.setPred i b).flights = th.flights := rfl
@[simp] theorem setPred_seq : (th.setPred i b).seq = th.seq := rfl
@[simp] theorem setPred_ptsHi : (th.setPred i b).ptsHi = th.ptsHi := rfl
@[simp] theorem setPred_tpcHi : (th.setPred i b).tpcHi = th.tpcHi := rfl
@[simp] theorem setPred_own : (th.setPred i b).own = th.own := rfl
@[simp] theorem setPred_gen : (th.setPred i b).gen = th.gen := rfl
@[simp] theorem setPred_rasterPass : (th.setPred i b).rasterPass = th.rasterPass := rfl
@[simp] theorem setPred_stipplePass : (th.setPred i b).stipplePass = th.stipplePass := rfl
@[simp] theorem setPred_rayGens : (th.setPred i b).rayGens = th.rayGens := rfl
@[simp] theorem setPred_callback : (th.setPred i b).callback = th.callback := rfl
@[simp] theorem setPred_callVals : (th.setPred i b).callVals = th.callVals := rfl
@[simp] theorem setPred_verdict : (th.setPred i b).verdict = th.verdict := rfl
@[simp] theorem setPred_fencew : (th.setPred i b).fencew = th.fencew := rfl
@[simp] theorem setPred_unreg : (th.setPred i b).unreg = th.unreg := rfl
@[simp] theorem setPred_selfAt : (th.setPred i b).selfAt = th.selfAt := rfl
@[simp] theorem setPred_slowSince : (th.setPred i b).slowSince = th.slowSince := rfl
@[simp] theorem setPred_waited : (th.setPred i b).waited = th.waited := rfl
@[simp] theorem setPred_backing : (th.setPred i b).backing = th.backing := rfl
@[simp] theorem setPred_record : (th.setPred i b).record = th.record := rfl
@[simp] theorem setPred_image : (th.setPred i b).image = th.image := rfl
@[simp] theorem setPred_acq : (th.setPred i b).acq = th.acq := rfl
@[simp] theorem setPred_clauseNo : (th.setPred i b).clauseNo = th.clauseNo := rfl
@[simp] theorem setPred_recent : (th.setPred i b).recent = th.recent := rfl
@[simp] theorem setPred_lastMem : (th.setPred i b).lastMem = th.lastMem := rfl
end

section
variable (th : Thread) (p : Nat)
@[simp] theorem takePts_team : (th.takePts p).team = th.team := rfl
@[simp] theorem takePts_tid : (th.takePts p).tid = th.tid := rfl
@[simp] theorem takePts_gid : (th.takePts p).gid = th.gid := rfl
@[simp] theorem takePts_mid : (th.takePts p).mid = th.mid := rfl
@[simp] theorem takePts_role : (th.takePts p).role = th.role := rfl
@[simp] theorem takePts_sealId : (th.takePts p).sealId = th.sealId := rfl
@[simp] theorem takePts_budget : (th.takePts p).budget = th.budget := rfl
@[simp] theorem takePts_pc : (th.takePts p).pc = th.pc := rfl
@[simp] theorem takePts_word : (th.takePts p).word = th.word := rfl
@[simp] theorem takePts_clause : (th.takePts p).clause = th.clause := rfl
@[simp] theorem takePts_ext : (th.takePts p).ext = th.ext := rfl
@[simp] theorem takePts_regs : (th.takePts p).regs = th.regs := rfl
@[simp] theorem takePts_pend : (th.takePts p).pend = th.pend := rfl
@[simp] theorem takePts_preds : (th.takePts p).preds = th.preds := rfl
@[simp] theorem takePts_ec : (th.takePts p).ec = th.ec := rfl
@[simp] theorem takePts_meet : (th.takePts p).meet = th.meet := rfl
@[simp] theorem takePts_stack : (th.takePts p).stack = th.stack := rfl
@[simp] theorem takePts_spilled : (th.takePts p).spilled = th.spilled := rfl
@[simp] theorem takePts_fmt : (th.takePts p).fmt = th.fmt := rfl
@[simp] theorem takePts_table : (th.takePts p).table = th.table := rfl
@[simp] theorem takePts_nextTable : (th.takePts p).nextTable = th.nextTable := rfl
@[simp] theorem takePts_trap : (th.takePts p).trap = th.trap := rfl
@[simp] theorem takePts_held : (th.takePts p).held = th.held := rfl
@[simp] theorem takePts_wait : (th.takePts p).wait = th.wait := rfl
@[simp] theorem takePts_sysMode : (th.takePts p).sysMode = th.sysMode := rfl
@[simp] theorem takePts_parkAfter : (th.takePts p).parkAfter = th.parkAfter := rfl
@[simp] theorem takePts_due : (th.takePts p).due = th.due := rfl
@[simp] theorem takePts_suspended : (th.takePts p).suspended = th.suspended := rfl
@[simp] theorem takePts_evicted : (th.takePts p).evicted = th.evicted := rfl
@[simp] theorem takePts_active : (th.takePts p).active = th.active := rfl
@[simp] theorem takePts_yields : (th.takePts p).yields = th.yields := rfl
@[simp] theorem takePts_flights : (th.takePts p).flights = th.flights := rfl
@[simp] theorem takePts_seq : (th.takePts p).seq = th.seq := rfl
@[simp] theorem takePts_ptsHi : (th.takePts p).ptsHi = th.ptsHi := rfl
@[simp] theorem takePts_tpcHi : (th.takePts p).tpcHi = th.tpcHi := rfl
@[simp] theorem takePts_own : (th.takePts p).own = th.own := rfl
@[simp] theorem takePts_gen : (th.takePts p).gen = th.gen := rfl
@[simp] theorem takePts_rasterPass : (th.takePts p).rasterPass = th.rasterPass := rfl
@[simp] theorem takePts_stipplePass : (th.takePts p).stipplePass = th.stipplePass := rfl
@[simp] theorem takePts_rayGens : (th.takePts p).rayGens = th.rayGens := rfl
@[simp] theorem takePts_callback : (th.takePts p).callback = th.callback := rfl
@[simp] theorem takePts_callVals : (th.takePts p).callVals = th.callVals := rfl
@[simp] theorem takePts_verdict : (th.takePts p).verdict = th.verdict := rfl
@[simp] theorem takePts_fencew : (th.takePts p).fencew = th.fencew := rfl
@[simp] theorem takePts_unreg : (th.takePts p).unreg = th.unreg := rfl
@[simp] theorem takePts_selfAt : (th.takePts p).selfAt = th.selfAt := rfl
@[simp] theorem takePts_slowSince : (th.takePts p).slowSince = th.slowSince := rfl
@[simp] theorem takePts_waited : (th.takePts p).waited = th.waited := rfl
@[simp] theorem takePts_backing : (th.takePts p).backing = th.backing := rfl
@[simp] theorem takePts_record : (th.takePts p).record = th.record := rfl
@[simp] theorem takePts_image : (th.takePts p).image = th.image := rfl
@[simp] theorem takePts_acq : (th.takePts p).acq = th.acq := rfl
@[simp] theorem takePts_clauseNo : (th.takePts p).clauseNo = th.clauseNo := rfl
@[simp] theorem takePts_recent : (th.takePts p).recent = th.recent := rfl
@[simp] theorem takePts_lastMem : (th.takePts p).lastMem = th.lastMem := rfl
end

end Sys2Proof.Machine
end

