-- ==== Sys2Proof/Laws/Memory.lean ====
section
/-!
SUPPORT. What the operations over memory do: each keeps the canonical form, loads leave every byte as it is, and stores
change the bytes stored to alone.
-/
namespace Sys2Proof.Machine

set_option Elab.async false

/-! ### The canonical form -/

/-- LPDDR, the weight store and scheduler memory. -/
def mems (s : State) : Memory × Memory × Memory := (s.mem, s.weight, s.sched)

/-- Only the three memories count for the canonical form. -/
theorem canonical_congr {s s' : State} (h : Canonical s) (e : mems s' = mems s) : Canonical s' := by
  simp only [mems, Prod.mk.injEq] at e
  unfold Canonical
  rw [e.1, e.2.1, e.2.2]
  exact h

/-- A fold whose steps keep the form keeps it. -/
theorem foldl_canonical {α : Type} (f : State → α → State) (hf : ∀ s a, Canonical s → Canonical (f s a)) (l : List α) :
    ∀ s, Canonical s → Canonical (l.foldl f s) := by
  induction l with
  | nil => intro s h; exact h
  | cons a l ih => intro s h; exact ih _ (hf s a h)

/-- A fold whose steps leave the memories leaves them. -/
theorem foldl_mems {α : Type} (f : State → α → State) (hf : ∀ s a, mems (f s a) = mems s) (l : List α) :
    ∀ s, mems (l.foldl f s) = mems s := by
  induction l with
  | nil => intro s; rfl
  | cons a l ih => intro s; exact (ih _).trans (hf s a)

/-- Putting bytes at a place keeps the form. -/
theorem poke_canonical {s : State} (h : Canonical s) (l : Loc) (bs : List Byte) : Canonical (poke s l bs) := by
  obtain ⟨h1, h2, h3⟩ := h
  cases l with
  | glob pa => exact ⟨Memory.wf_writeBytes bs pa h1, h2, h3⟩
  | weight off => exact ⟨h1, Memory.wf_writeBytes bs off h2, h3⟩
  | spad tm off => exact ⟨h1, h2, h3⟩
  | own th off => exact ⟨h1, h2, h3⟩
  | remote => exact ⟨h1, h2, h3⟩

/-! ### What the parts of an access leave -/

@[simp] theorem mems_modLines (s : State) (f : Lines → Lines) : mems (modLines s f) = mems s := rfl
@[simp] theorem mems_modCore (s : State) (c : Nat) (f : Core → Core) : mems (modCore s c f) = mems s := rfl
@[simp] theorem mems_modStation (s : State) (c : Nat) (f : Station → Station) : mems (modStation s c f) = mems s := rfl
@[simp] theorem mems_modTeam (s : State) (c : Nat) (f : Team → Team) : mems (modTeam s c f) = mems s := rfl
@[simp] theorem mems_modThread (s : State) (c : Nat) (f : Thread → Thread) : mems (modThread s c f) = mems s := rfl
@[simp] theorem mems_errors (s : State) (e : ErrorState) : mems { s with errors := e } = mems s := rfl
@[simp] theorem mems_sliceVisit (s : State) (l : Nat) : mems (sliceVisit s l) = mems s := by unfold sliceVisit; split <;> rfl
@[simp] theorem mems_homeLoad (s : State) (l p n : Nat) : mems (homeLoad s l p n) = mems s := rfl
@[simp] theorem mems_tagVictims (s : State) (p : Nat) (ls : List Nat) : mems (tagVictims s p ls) = mems s := by
  unfold tagVictims; split <;> rfl
@[simp] theorem mems_putCopy (s : State) (c : Copy) : mems (putCopy s c) = mems s := by unfold putCopy; simp
@[simp] theorem mems_countMiss (s : State) (c l : Nat) : mems (countMiss s c l) = mems s := by unfold countMiss; split <;> rfl
@[simp] theorem mems_storeTime (s : State) (l p : Nat) : mems (storeTime s l p).2 = mems s := rfl
@[simp] theorem mems_meetErrors (s : State) (us : List ErrUnit) : mems (meetErrors s us) = mems s := by
  unfold meetErrors; split <;> rfl
@[simp] theorem mems_met (s : State) (l : Loc) (n : Nat) : mems (met s l n) = mems s := by unfold met; split <;> simp
@[simp] theorem mems_noteSync (s : State) (a : Access) (p : Nat) : mems (noteSync s a p) = mems s := by
  unfold noteSync
  split
  · rfl
  · cases a.loc with
    | glob pa => simp only []; split <;> rfl
    | _ => rfl

/-- A read notes errors, and leaves the memories. -/
@[simp] theorem mems_noteRead (s : State) (a : Access) (r : Nat) : mems (noteRead s a r) = mems s := by
  unfold noteRead
  cases a.loc with
  | glob pa => simp only []; split <;> simp
  | _ => simp

/-! ### Private slices -/

/-- A line written back keeps the form. -/
theorem writeBack_canonical {s : State} (h : Canonical s) (t line : Nat) : Canonical (writeBack s t line) := by
  unfold writeBack
  cases thread? s t with
  | none => exact h
  | some th =>
    cases hb : th.backing with
    | none => simp only [hb]; exact h
    | some b => simp only [hb]; exact ⟨Memory.wf_writeBytes _ _ h.1, h.2.1, h.2.2⟩

/-- A line touched keeps the form. -/
theorem touchLine_canonical {s : State} (h : Canonical s) (t line : Nat) : Canonical (touchLine s t line) := by
  unfold touchLine
  cases thread? s t with
  | none => exact h
  | some th =>
    simp only []
    split
    · exact h
    · exact canonical_congr (foldl_canonical _ (fun s p h => writeBack_canonical h p.1 p.2) _ _ h) (mems_modCore _ _ _)

/-- The lines of a window access touched keep the form. -/
theorem touchOwn_canonical {s : State} (h : Canonical s) (l : Loc) (n : Nat) : Canonical (touchOwn s l n) := by
  unfold touchOwn
  cases l with
  | own t off => exact foldl_canonical _ (fun s x h => touchLine_canonical h t x) _ _ h
  | _ => exact h

/-! ### Stores keep the form -/

/-- A performed store to LPDDR leaves the three memories that putting its bytes at its place leaves. -/
theorem storeAt_mems (s : State) (a : Access) (bs : List Byte) (pts x pa : Nat) (hl : a.loc = .glob pa) :
    mems (storeAt s a bs pts x).2 = mems (poke s a.loc bs) := by
  have line : ∀ (u : State) (b : Bool), mems (if b then modLines u (fun x => { x with poison := kdel x.poison (lineOf pa) }) else u)
      = mems u := by intro u b; cases b <;> rfl
  unfold storeAt
  rw [hl]
  simp only []
  by_cases h1 : (a.cattr == 1) = true
  · rw [if_pos h1, mems_noteSync, line]
  · rw [if_neg h1]
    by_cases h2 : sliceFull (storeTime (sliceVisit (if bs.length == 128 then modLines (poke s (.glob pa) bs)
        (fun x => { x with poison := kdel x.poison (lineOf pa) }) else poke s (.glob pa) bs) (lineOf pa)) (lineOf pa) pts).2 (lineOf pa) = true
    · rw [if_pos h2, mems_storeTime, mems_sliceVisit, line]
    · rw [if_neg h2, mems_modLines, mems_storeTime, mems_sliceVisit, line]

/-- A performed store keeps the form. -/
theorem storeAt_canonical {s : State} (h : Canonical s) (a : Access) (bs : List Byte) (pts x : Nat) :
    Canonical (storeAt s a bs pts x).2 := by
  have other : ∀ l, Canonical (noteSync (poke (touchOwn s l bs.length) l bs) a pts) := fun l =>
    canonical_congr (poke_canonical (touchOwn_canonical h l _) l bs) (mems_noteSync _ _ _)
  cases hl : a.loc with
  | glob pa => exact canonical_congr (poke_canonical h a.loc bs) (storeAt_mems s a bs pts x pa hl)
  | spad t o => unfold storeAt; rw [hl]; exact other _
  | own t o => unfold storeAt; rw [hl]; exact other _
  | weight o => unfold storeAt; rw [hl]; exact other _
  | remote p v => unfold storeAt; rw [hl]; exact other _

/-- Setting a leaf's accessed bit keeps the form. -/
theorem setAccessed_canonical {s : State} (h : Canonical s) (e pa : Nat) : Canonical (setAccessed s e pa) := by
  unfold setAccessed
  split
  · exact h
  · exact storeAt_canonical h _ _ _ _

/-- A store of a checked range keeps the form. -/
theorem storeRange_canonical {s : State} (h : Canonical s) (pts x : Nat) (as_ : List Access) (bs : List Byte) :
    Canonical (storeRange s pts x as_ bs).2 := by
  unfold storeRange
  generalize as_.flatMap Access.lines = l
  have key : ∀ (l : List Access) (r : List Byte × Nat × State), Canonical r.2.2 →
      Canonical (l.foldl (fun r a => (r.1.drop a.len, (storeAt r.2.2 a (r.1.take a.len) r.2.1 x).1,
        (storeAt r.2.2 a (r.1.take a.len) r.2.1 x).2)) r).2.2 := by
    intro l
    induction l with
    | nil => intro r hr; exact hr
    | cons a l ih => intro r hr; exact ih _ (storeAt_canonical hr a _ _ x)
  exact key l _ h

/-- An upload keeps the form. -/
theorem storeUpload_canonical {s : State} (h : Canonical s) (off x g : Nat) (bs : List Byte) : Canonical (storeUpload s off x g bs) := by
  unfold storeUpload
  simp only []
  split
  · exact ⟨h.1, h.2.1, Memory.wf_writeBytes bs off h.2.2⟩
  · exact ⟨h.1, h.2.1, Memory.wf_writeBytes bs off h.2.2⟩

/-- A patch of a trigger keeps the form. -/
theorem applyPatch_canonical {s : State} (h : Canonical s) (c : List Byte) (off j : Nat) : Canonical (applyPatch c off s j) :=
  ⟨h.1, h.2.1, Memory.wf_writeBytes _ _ h.2.2⟩

/-- Scrubbing a seal's scheduler memory keeps the form. -/
theorem dropSched_canonical {s : State} (h : Canonical s) (x : Nat) : Canonical (dropSched s x) :=
  ⟨h.1, h.2.1, Memory.wf_filter _ h.2.2⟩

/-- Scrubbing a seal's weight-store regions keeps the form. -/
theorem scrubRegions_canonical {s : State} (h : Canonical s) (x : Nat) : Canonical (scrubRegions s x) :=
  ⟨h.1, Memory.wf_filter _ h.2.1, h.2.2⟩

/-- The loss of a damaged entry keeps the form. -/
theorem loseEntry_canonical {s : State} (h : Canonical s) (u : ErrUnit) : Canonical (loseEntry s u) := by
  unfold loseEntry
  simp only []
  split
  · exact h
  · split
    · exact h
    · exact h
  · exact h
  · split
    · exact h
    · exact h
  · split
    · exact h
    · exact h
  · exact ⟨h.1, Memory.wf_filter _ h.2.1, h.2.2⟩
  · exact h
  · exact h
  · exact h

/-- Bring-up's restart keeps the form: scheduler memory is empty after it. -/
theorem restart_canonical {s : State} (h : Canonical s) : Canonical (restart s) := ⟨h.1, h.2.1, rfl⟩

/-! ### Loads -/

/-- A load from LPDDR leaves every byte of the memories. -/
theorem loadGlob_mems (s : State) (c pa : Nat) (a : Access) (pts : Nat) (peer : Option Nat) :
    mems (loadGlob s c pa a pts peer).2.2 = mems s := by
  unfold loadGlob
  simp only []
  split
  · rfl
  split
  · simp
  split
  · rfl
  split
  · simp
  split
  · simp
  split
  · simp
  · simp

/-- A performed load keeps the form. -/
theorem loadAt_canonical {s : State} (h : Canonical s) (c : Nat) (a : Access) (pts r : Nat) (peer : Option Nat) :
    Canonical (loadAt s c a pts r peer).2.2 := by
  have hn : Canonical (noteRead s a r) := canonical_congr h (mems_noteRead s a r)
  unfold loadAt
  cases a.loc with
  | glob pa => exact canonical_congr hn (loadGlob_mems _ c pa a pts peer)
  | _ => exact touchOwn_canonical hn _ _

/-- A performed load from LPDDR, scratchpad or the weight store leaves every byte of the memories; one from a private window
may only write other lines of its lane back. -/
theorem loadAt_mems (s : State) (c : Nat) (a : Access) (pts r : Nat) (peer : Option Nat) (hl : ∀ t off, a.loc ≠ .own t off) :
    mems (loadAt s c a pts r peer).2.2 = mems s := by
  unfold loadAt
  cases h : a.loc with
  | glob pa => exact (loadGlob_mems _ c pa a pts peer).trans (mems_noteRead s a r)
  | own t off => exact absurd h (hl t off)
  | _ => exact mems_noteRead s a r

/-- A load of a checked range keeps the form. -/
theorem loadRange_canonical {s : State} (h : Canonical s) (c pts r : Nat) (as_ : List Access) :
    Canonical (loadRange s c pts r as_).2.2 := by
  unfold loadRange
  generalize as_.flatMap Access.lines = l
  have key : ∀ (l : List Access) (x : List Byte × Nat × State), Canonical x.2.2 →
      Canonical (l.foldl (fun x a => (x.1 ++ (loadAt x.2.2 c a x.2.1 r none).1, (loadAt x.2.2 c a x.2.1 r none).2.1,
        (loadAt x.2.2 c a x.2.1 r none).2.2)) x).2.2 := by
    intro l
    induction l with
    | nil => intro x hx; exact hx
    | cons a l ih => intro x hx; exact ih _ (loadAt_canonical hx c a _ r none)
  exact key l _ h

/-! ### Stores -/

/-- A store to LPDDR puts its bytes there, low byte first, and changes no other byte. -/
theorem storeAt_reads {s : State} (h : s.mem.wf = true) (a : Access) (bs : List Byte) (pts x pa : Nat) (hl : a.loc = .glob pa) :
    (storeAt s a bs pts x).2.mem.readBytes pa bs.length = bs
      ∧ (∀ b, b < pa ∨ pa + bs.length ≤ b → (storeAt s a bs pts x).2.mem.read b = s.mem.read b) := by
  have h1 : (storeAt s a bs pts x).2.mem = (poke s a.loc bs).mem := congrArg Prod.fst (storeAt_mems s a bs pts x pa hl)
  rw [h1, hl]
  exact ⟨Memory.readBytes_writeBytes bs pa h, fun b hb => Memory.read_writeBytes_out bs s.mem pa b hb⟩

end Sys2Proof.Machine
end

