-- ==== Sys2Proof/Laws/PerInstr.lean ====
section
/-!
SUPPORT. Facts about every instruction as syntax, one lemma for each constructor.
-/
namespace Sys2Proof.Laws.Static

set_option Elab.async false

/-- The words an instruction has agree with what it is: a step of a unit has none, an access-slice word one and no thread
opcode, a thread word one and an opcode of ten bits. -/
def agrees (ws : List Nat) (o : Option Nat) : Bool :=
  match ws, o with
  | [], none => true
  | [_], none => true
  | [_], some o => Nat.blt o 1024
  | _, _ => false

/-- The static facts of an instruction. -/
def Statement (i : Instr) : Prop := agrees (encode i) (opcode? i) = true

theorem nop (sw : Bool) : Statement (.nop sw) := rfl
theorem extControlForm (p : BitVec 3) (n e : Bool) (r : BitVec 3) (t : Bool) (c : BitVec 6) (l : Bool) : Statement (.extControlForm p n e r t c l) := rfl
theorem extImmediateForm (i : BitVec 20) : Statement (.extImmediateForm i) := rfl
theorem mov (sw : Bool) (d a : BitVec 6) (x : Bool) : Statement (.mov sw d a x) := rfl
theorem movi (sw : Bool) (d : BitVec 6) (i : BitVec 15) : Statement (.movi sw d i) := rfl
theorem movh (sw : Bool) (d : BitVec 6) (i : BitVec 15) : Statement (.movh sw d i) := rfl
theorem movs (sw : Bool) (d : BitVec 6) (i : BitVec 15) : Statement (.movs sw d i) := rfl
theorem iadd (sw : Bool) (d a b : BitVec 6) (x y m : Bool) : Statement (.iadd sw d a b x y m) := rfl
theorem isub (sw : Bool) (d a b : BitVec 6) (x y m : Bool) : Statement (.isub sw d a b x y m) := rfl
theorem iaddc (sw : Bool) (d a b : BitVec 6) (x y m : Bool) : Statement (.iaddc sw d a b x y m) := rfl
theorem imul (sw : Bool) (d a b : BitVec 6) (x y : Bool) : Statement (.imul sw d a b x y) := rfl
theorem imulh (sw : Bool) (d a b : BitVec 6) (x y m : Bool) : Statement (.imulh sw d a b x y m) := rfl
theorem imad (sw : Bool) (d a b : BitVec 6) (x y m : Bool) : Statement (.imad sw d a b x y m) := rfl
theorem idiv (sw : Bool) (d a b : BitVec 6) (x y m : Bool) : Statement (.idiv sw d a b x y m) := rfl
theorem irem (sw : Bool) (d a b : BitVec 6) (x y m : Bool) : Statement (.irem sw d a b x y m) := rfl
theorem ineg (sw : Bool) (d a : BitVec 6) (x : Bool) : Statement (.ineg sw d a x) := rfl
theorem iabs (sw : Bool) (d a : BitVec 6) (x : Bool) : Statement (.iabs sw d a x) := rfl
theorem imin (sw : Bool) (d a b : BitVec 6) (x y m : Bool) : Statement (.imin sw d a b x y m) := rfl
theorem imax (sw : Bool) (d a b : BitVec 6) (x y m : Bool) : Statement (.imax sw d a b x y m) := rfl
theorem and (sw : Bool) (d a b : BitVec 6) (x y : Bool) : Statement (.and sw d a b x y) := rfl
theorem or (sw : Bool) (d a b : BitVec 6) (x y : Bool) : Statement (.or sw d a b x y) := rfl
theorem xor (sw : Bool) (d a b : BitVec 6) (x y : Bool) : Statement (.xor sw d a b x y) := rfl
theorem not (sw : Bool) (d a : BitVec 6) (x : Bool) : Statement (.not sw d a x) := rfl
theorem andn (sw : Bool) (d a b : BitVec 6) (x y : Bool) : Statement (.andn sw d a b x y) := rfl
theorem shl (sw : Bool) (d a b : BitVec 6) (x y : Bool) : Statement (.shl sw d a b x y) := rfl
theorem shr (sw : Bool) (d a b : BitVec 6) (x y : Bool) : Statement (.shr sw d a b x y) := rfl
theorem sar (sw : Bool) (d a b : BitVec 6) (x y : Bool) : Statement (.sar sw d a b x y) := rfl
theorem rot (sw : Bool) (d a b : BitVec 6) (x y m : Bool) : Statement (.rot sw d a b x y m) := rfl
theorem bfx (sw : Bool) (d a b : BitVec 6) (x y m : Bool) : Statement (.bfx sw d a b x y m) := rfl
theorem bfi (sw : Bool) (d a b : BitVec 6) (x y : Bool) : Statement (.bfi sw d a b x y) := rfl
theorem popc (sw : Bool) (d a : BitVec 6) (x : Bool) : Statement (.popc sw d a x) := rfl
theorem clz (sw : Bool) (d a : BitVec 6) (x : Bool) : Statement (.clz sw d a x) := rfl
theorem brev (sw : Bool) (d a : BitVec 6) (x : Bool) : Statement (.brev sw d a x) := rfl
theorem isetp (sw : Bool) (c p : BitVec 3) (a b : BitVec 6) (x y m : Bool) : Statement (.isetp sw c p a b x y m) := rfl
theorem sel (sw : Bool) (d a b : BitVec 6) (x y m : Bool) : Statement (.sel sw d a b x y m) := rfl
theorem plop (sw : Bool) (o p q r : BitVec 3) (m : Bool) : Statement (.plop sw o p q r m) := rfl
theorem lea (sw : Bool) (d a b : BitVec 6) (x y m : Bool) : Statement (.lea sw d a b x y m) := rfl
theorem add64 (sw : Bool) (d a b : BitVec 6) (x y m : Bool) : Statement (.add64 sw d a b x y m) := rfl
theorem idp4 (sw : Bool) (d a b : BitVec 6) (x y m : Bool) : Statement (.idp4 sw d a b x y m) := rfl
theorem mix32 (sw : Bool) (d a b : BitVec 6) (x y : Bool) : Statement (.mix32 sw d a b x y) := rfl
theorem iaddi (sw : Bool) (d a : BitVec 6) (i : BitVec 7) (x m : Bool) : Statement (.iaddi sw d a i x m) := rfl
theorem andi (sw : Bool) (d a : BitVec 6) (i : BitVec 7) (x : Bool) : Statement (.andi sw d a i x) := rfl
theorem ori (sw : Bool) (d a : BitVec 6) (i : BitVec 7) (x : Bool) : Statement (.ori sw d a i x) := rfl
theorem xori (sw : Bool) (d a : BitVec 6) (i : BitVec 7) (x : Bool) : Statement (.xori sw d a i x) := rfl
theorem shli (sw : Bool) (d a : BitVec 6) (i : BitVec 7) (x : Bool) : Statement (.shli sw d a i x) := rfl
theorem shri (sw : Bool) (d a : BitVec 6) (i : BitVec 7) (x : Bool) : Statement (.shri sw d a i x) := rfl
theorem sari (sw : Bool) (d a : BitVec 6) (i : BitVec 7) (x : Bool) : Statement (.sari sw d a i x) := rfl
theorem isetpi (sw : Bool) (c p : BitVec 3) (a : BitVec 6) (i : BitVec 7) (x m : Bool) : Statement (.isetpi sw c p a i x m) := rfl
theorem fadd (sw : Bool) (d a b : BitVec 6) (x y : Bool) : Statement (.fadd sw d a b x y) := rfl
theorem fsub (sw : Bool) (d a b : BitVec 6) (x y : Bool) : Statement (.fsub sw d a b x y) := rfl
theorem fmul (sw : Bool) (d a b : BitVec 6) (x y : Bool) : Statement (.fmul sw d a b x y) := rfl
theorem fmad (sw : Bool) (d a b : BitVec 6) (x y m : Bool) : Statement (.fmad sw d a b x y m) := rfl
theorem fmin (sw : Bool) (d a b : BitVec 6) (x y : Bool) : Statement (.fmin sw d a b x y) := rfl
theorem fmax (sw : Bool) (d a b : BitVec 6) (x y : Bool) : Statement (.fmax sw d a b x y) := rfl
theorem fneg (sw : Bool) (d a : BitVec 6) (x : Bool) : Statement (.fneg sw d a x) := rfl
theorem fabs (sw : Bool) (d a : BitVec 6) (x : Bool) : Statement (.fabs sw d a x) := rfl
theorem fsetp (sw : Bool) (c p : BitVec 3) (a b : BitVec 6) (x y m : Bool) : Statement (.fsetp sw c p a b x y m) := rfl
theorem fdiv (sw : Bool) (d a b : BitVec 6) (x y : Bool) : Statement (.fdiv sw d a b x y) := rfl
theorem frcp (sw : Bool) (d a : BitVec 6) (x : Bool) : Statement (.frcp sw d a x) := rfl
theorem fsqrt (sw : Bool) (d a : BitVec 6) (x : Bool) : Statement (.fsqrt sw d a x) := rfl
theorem frsq (sw : Bool) (d a : BitVec 6) (x : Bool) : Statement (.frsq sw d a x) := rfl
theorem fexp2 (sw : Bool) (d a : BitVec 6) (x : Bool) : Statement (.fexp2 sw d a x) := rfl
theorem flog2 (sw : Bool) (d a : BitVec 6) (x : Bool) : Statement (.flog2 sw d a x) := rfl
theorem fsinpi (sw : Bool) (d a : BitVec 6) (x : Bool) : Statement (.fsinpi sw d a x) := rfl
theorem fcospi (sw : Bool) (d a : BitVec 6) (x : Bool) : Statement (.fcospi sw d a x) := rfl
theorem frnd (sw : Bool) (d a : BitVec 6) (x m : Bool) : Statement (.frnd sw d a x m) := rfl
theorem fclass (sw : Bool) (d a : BitVec 6) (x : Bool) : Statement (.fclass sw d a x) := rfl
theorem fscale (sw : Bool) (d a b : BitVec 6) (x y : Bool) : Statement (.fscale sw d a b x y) := rfl
theorem fexpo (sw : Bool) (d a : BitVec 6) (x : Bool) : Statement (.fexpo sw d a x) := rfl
theorem twosum (sw : Bool) (d a b : BitVec 6) (x y : Bool) : Statement (.twosum sw d a b x y) := rfl
theorem padd (sw : Bool) (d a b : BitVec 6) (x y : Bool) : Statement (.padd sw d a b x y) := rfl
theorem prd (sw : Bool) (d a : BitVec 6) (x : Bool) : Statement (.prd sw d a x) := rfl
theorem hadd2 (sw : Bool) (d a b : BitVec 6) (x y m : Bool) : Statement (.hadd2 sw d a b x y m) := rfl
theorem hmul2 (sw : Bool) (d a b : BitVec 6) (x y m : Bool) : Statement (.hmul2 sw d a b x y m) := rfl
theorem hfma2 (sw : Bool) (d a b : BitVec 6) (x y m : Bool) : Statement (.hfma2 sw d a b x y m) := rfl
theorem cvtfi (sw : Bool) (d a b : BitVec 6) (x y m : Bool) : Statement (.cvtfi sw d a b x y m) := rfl
theorem cvtif (sw : Bool) (d a b : BitVec 6) (x y m : Bool) : Statement (.cvtif sw d a b x y m) := rfl
theorem cvtff (sw : Bool) (d a b : BitVec 6) (x y : Bool) : Statement (.cvtff sw d a b x y) := rfl
theorem nxel (sw : Bool) (d a b : BitVec 6) (x y : Bool) : Statement (.nxel sw d a b x y) := rfl
theorem mxel (sw : Bool) (d a b : BitVec 6) (x y : Bool) : Statement (.mxel sw d a b x y) := rfl
theorem fmtchk (sw : Bool) (d a : BitVec 6) (x : Bool) : Statement (.fmtchk sw d a x) := rfl
theorem bra (sw : Bool) (o : BitVec 21) : Statement (.bra sw o) := rfl
theorem brp (sw : Bool) (p : BitVec 3) (n : Bool) (o : BitVec 17) : Statement (.brp sw p n o) := rfl
theorem brx (sw : Bool) (a : BitVec 6) (x : Bool) : Statement (.brx sw a x) := rfl
theorem call (sw : Bool) (o : BitVec 21) : Statement (.call sw o) := rfl
theorem callx (sw : Bool) (a : BitVec 6) (x : Bool) : Statement (.callx sw a x) := rfl
theorem ret (sw : Bool) : Statement (.ret sw) := rfl
theorem lgjoin (sw : Bool) (a : BitVec 6) (i : BitVec 7) (x : Bool) : Statement (.lgjoin sw a i x) := rfl
theorem lgwait (sw : Bool) (a : BitVec 6) (x : Bool) : Statement (.lgwait sw a x) := rfl
theorem lgdrop (sw : Bool) (a : BitVec 6) (x : Bool) : Statement (.lgdrop sw a x) := rfl
theorem lgread (sw : Bool) (d a : BitVec 6) (i : BitVec 7) (x : Bool) : Statement (.lgread sw d a i x) := rfl
theorem meetset (sw : Bool) (o : BitVec 21) : Statement (.meetset sw o) := rfl
theorem regroup (sw : Bool) (a b : BitVec 6) (x y : Bool) : Statement (.regroup sw a b x y) := rfl
theorem regroupCompletion (team : Nat) : Statement (.regroupCompletion team) := rfl
theorem yield (sw : Bool) : Statement (.yield sw) := rfl
theorem pause (sw : Bool) (i : BitVec 7) : Statement (.pause sw i) := rfl
theorem pauseExpiry (th : Nat) : Statement (.pauseExpiry th) := rfl
theorem exit (sw : Bool) : Statement (.exit sw) := rfl
theorem launch (sw : Bool) (d a : BitVec 6) (x : Bool) : Statement (.launch sw d a x) := rfl
theorem rxch (sw : Bool) (d a b : BitVec 6) (x y m : Bool) : Statement (.rxch sw d a b x y m) := rfl
theorem rbcast (sw : Bool) (d a b : BitVec 6) (x y m : Bool) : Statement (.rbcast sw d a b x y m) := rfl
theorem rred (sw : Bool) (d a b : BitVec 6) (x y m : Bool) : Statement (.rred sw d a b x y m) := rfl
theorem rvote (sw : Bool) (d a b : BitVec 6) (x y m : Bool) : Statement (.rvote sw d a b x y m) := rfl
theorem clauseIssue (th : Nat) : Statement (.clauseIssue th) := rfl
theorem parkEnd (th : Nat) : Statement (.parkEnd th) := rfl
theorem resultWritten (th seq : Nat) (peer : Option Nat) (way : Way) : Statement (.resultWritten th seq peer way) := rfl
theorem asynchronousTrapDelivery (th : Nat) : Statement (.asynchronousTrapDelivery th) := rfl
theorem ldg (sw : Bool) (t a : BitVec 6) (z : BitVec 3) (g e x : Bool) : Statement (.ldg sw t a z g e x) := rfl
theorem stg (sw : Bool) (t a : BitVec 6) (z : BitVec 3) (g x : Bool) : Statement (.stg sw t a z g x) := rfl
theorem lds (sw : Bool) (t a : BitVec 6) (z : BitVec 3) (g e x : Bool) : Statement (.lds sw t a z g e x) := rfl
theorem sts (sw : Bool) (t a : BitVec 6) (z : BitVec 3) (g x : Bool) : Statement (.sts sw t a z g x) := rfl
theorem ldp (sw : Bool) (t a : BitVec 6) (z : BitVec 3) (g e x : Bool) : Statement (.ldp sw t a z g e x) := rfl
theorem stp (sw : Bool) (t a : BitVec 6) (z : BitVec 3) (g x : Bool) : Statement (.stp sw t a z g x) := rfl
theorem ldc (sw : Bool) (t a : BitVec 6) (z : BitVec 3) (g e x : Bool) : Statement (.ldc sw t a z g e x) := rfl
theorem stc (sw : Bool) (t a : BitVec 6) (z : BitVec 3) (g x : Bool) : Statement (.stc sw t a z g x) := rfl
theorem ldw (sw : Bool) (t a : BitVec 6) (z : BitVec 3) (e x : Bool) : Statement (.ldw sw t a z e x) := rfl
theorem pref (sw : Bool) (a : BitVec 6) (z : BitVec 3) (x : Bool) : Statement (.pref sw a z x) := rfl
theorem pin (sw : Bool) (t a : BitVec 6) (z : BitVec 3) (x : Bool) : Statement (.pin sw t a z x) := rfl
theorem unpin (sw : Bool) (t a : BitVec 6) (z : BitVec 3) (x : Bool) : Statement (.unpin sw t a z x) := rfl
theorem storePerformed (th seq : Nat) (way : Way) : Statement (.storePerformed th seq way) := rfl
theorem ptsSelfAdvance (th : Nat) : Statement (.ptsSelfAdvance th) := rfl
theorem leaseExpiry (place line : Nat) : Statement (.leaseExpiry place line) := rfl
theorem pageWalkComplete (station walk : Nat) : Statement (.pageWalkComplete station walk) := rfl
theorem atom (sw : Bool) (d a b : BitVec 6) (x y m : Bool) : Statement (.atom sw d a b x y m) := rfl
theorem atomc (sw : Bool) (d a b : BitVec 6) (x y m : Bool) : Statement (.atomc sw d a b x y m) := rfl
theorem atomf (sw : Bool) (d a b : BitVec 6) (x y m : Bool) : Statement (.atomf sw d a b x y m) := rfl
theorem xacc (sw : Bool) (a b : BitVec 6) (x y : Bool) : Statement (.xacc sw a b x y) := rfl
theorem xaccp (sw : Bool) (a b : BitVec 6) (x y : Bool) : Statement (.xaccp sw a b x y) := rfl
theorem xrd (sw : Bool) (d a : BitVec 6) (x m : Bool) : Statement (.xrd sw d a x m) := rfl
theorem xclr (sw : Bool) (a : BitVec 6) (x : Bool) : Statement (.xclr sw a x) := rfl
theorem atomicPerformed (th seq : Nat) : Statement (.atomicPerformed th seq) := rfl
theorem fence (sw : Bool) : Statement (.fence sw) := rfl
theorem fencew (sw : Bool) : Statement (.fencew sw) := rfl
theorem bar (sw : Bool) (i : BitVec 4) (r : BitVec 3) : Statement (.bar sw i r) := rfl
theorem bara (sw : Bool) (d : BitVec 6) (i : BitVec 4) (r : BitVec 3) : Statement (.bara sw d i r) := rfl
theorem barw (sw : Bool) (a : BitVec 6) (i : BitVec 4) (x : Bool) : Statement (.barw sw a i x) := rfl
theorem arm (sw : Bool) (d a b : BitVec 6) (x y m : Bool) : Statement (.arm sw d a b x y m) := rfl
theorem arrv (sw : Bool) (a b : BitVec 6) (x y : Bool) : Statement (.arrv sw a b x y) := rfl
theorem arwait (sw : Bool) (d a b : BitVec 6) (x y : Bool) : Statement (.arwait sw d a b x y) := rfl
theorem arread (sw : Bool) (d a : BitVec 6) (x : Bool) : Statement (.arread sw d a x) := rfl
theorem qpush (sw : Bool) (d a b : BitVec 6) (x y : Bool) : Statement (.qpush sw d a b x y) := rfl
theorem qpop (sw : Bool) (d a : BitVec 6) (x : Bool) : Statement (.qpop sw d a x) := rfl
theorem qtry (sw : Bool) (d a : BitVec 6) (x : Bool) : Statement (.qtry sw d a x) := rfl
theorem qlen (sw : Bool) (d a : BitVec 6) (x : Bool) : Statement (.qlen sw d a x) := rfl
theorem dist (sw : Bool) (d a : BitVec 6) (x m : Bool) : Statement (.dist sw d a x m) := rfl
theorem distributorAnswerStore (th seq : Nat) : Statement (.distributorAnswerStore th seq) := rfl
theorem sbset (sw : Bool) (d a : BitVec 6) (i : BitVec 7) (x : Bool) : Statement (.sbset sw d a i x) := rfl
theorem sbqry (sw : Bool) (d a : BitVec 6) (x : Bool) : Statement (.sbqry sw d a x) := rfl
theorem cpy (sw : Bool) (a : BitVec 6) (x : Bool) : Statement (.cpy sw a x) := rfl
theorem cpy2d (sw : Bool) (a : BitVec 6) (x : Bool) : Statement (.cpy2d sw a x) := rfl
theorem cpym (sw : Bool) (a : BitVec 6) (x : Bool) : Statement (.cpym sw a x) := rfl
theorem cpyr (sw : Bool) (a : BitVec 6) (x : Bool) : Statement (.cpyr sw a x) := rfl
theorem cpyq (sw : Bool) (d a : BitVec 6) (x : Bool) : Statement (.cpyq sw d a x) := rfl
theorem cpyx (sw : Bool) (d a : BitVec 6) (x : Bool) : Statement (.cpyx sw d a x) := rfl
theorem cpyf (sw : Bool) (a : BitVec 6) (x : Bool) : Statement (.cpyf sw a x) := rfl
theorem rlqry (sw : Bool) (d a : BitVec 6) (x : Bool) : Statement (.rlqry sw d a x) := rfl
theorem copyRegistration (cmd : Nat) : Statement (.copyRegistration cmd) := rfl
theorem rangeLockEntryTaken (cmd core : Nat) : Statement (.rangeLockEntryTaken cmd core) := rfl
theorem copyCommandStart (cmd : Nat) : Statement (.copyCommandStart cmd) := rfl
theorem copyBurst (burst : BurstAt) : Statement (.copyBurst burst) := rfl
theorem copyCommandEnd (cmd : Nat) : Statement (.copyCommandEnd cmd) := rfl
theorem fdstart (sw : Bool) (d a : BitVec 6) (x : Bool) : Statement (.fdstart sw d a x) := rfl
theorem fdstop (sw : Bool) (d : BitVec 6) (c : BitVec 3) : Statement (.fdstop sw d c) := rfl
theorem fdstat (sw : Bool) (d a : BitVec 6) (x : Bool) : Statement (.fdstat sw d a x) := rfl
theorem floop (s p : BitVec 2) (c : BitVec 20) : Statement (.floop s p c) := rfl
theorem fend : Statement (.fend) := rfl
theorem faddr (s l k : BitVec 2) (w : BitVec 16) : Statement (.faddr s l k w) := rfl
theorem fpush (s : BitVec 2) (q z : BitVec 3) (e : Bool) (n : BitVec 5) : Statement (.fpush s q z e n) := rfl
theorem fpushk (s : BitVec 2) (k : BitVec 3) (r : BitVec 4) : Statement (.fpushk s k r) := rfl
theorem fpermitQueue (q : BitVec 3) (n : BitVec 5) : Statement (.fpermitQueue q n) := rfl
theorem fpermitBuffer (b : BitVec 5) : Statement (.fpermitBuffer b) := rfl
theorem fsync (r : Bool) (b : BitVec 5) : Statement (.fsync r b) := rfl
theorem fstop : Statement (.fstop) := rfl
theorem kld (sw : Bool) (t a : BitVec 6) (x : Bool) : Statement (.kld sw t a x) := rfl
theorem kst (sw : Bool) (t a : BitVec 6) (x : Bool) : Statement (.kst sw t a x) := rfl
theorem kzero (sw : Bool) (d : BitVec 6) (n : BitVec 2) (m : Bool) : Statement (.kzero sw d n m) := rfl
theorem kcvt (sw : Bool) (d a b : BitVec 6) (y m : Bool) : Statement (.kcvt sw d a b y m) := rfl
theorem kbmp (sw : Bool) (d a b : BitVec 6) (y m : Bool) : Statement (.kbmp sw d a b y m) := rfl
theorem kbld (sw : Bool) (t a : BitVec 6) (x : Bool) : Statement (.kbld sw t a x) := rfl
theorem kbst (sw : Bool) (t a : BitVec 6) (x : Bool) : Statement (.kbst sw t a x) := rfl
theorem mmae (sw : Bool) (a : BitVec 6) (x m : Bool) : Statement (.mmae sw a x m) := rfl
theorem mmac (sw : Bool) (d a b : BitVec 6) (x y m : Bool) : Statement (.mmac sw d a b x y m) := rfl
theorem matrixOpCompletion (core op : Nat) : Statement (.matrixOpCompletion core op) := rfl
theorem mtxOperationComplete (core op : Nat) : Statement (.mtxOperationComplete core op) := rfl
theorem bankSpill (core set : Nat) : Statement (.bankSpill core set) := rfl
theorem accz (sw k : Bool) : Statement (.accz sw k) := rfl
theorem accrd (sw : Bool) (d a b : BitVec 6) (x y m : Bool) : Statement (.accrd sw d a b x y m) := rfl
theorem accspl (sw : Bool) (a : BitVec 6) (k x : Bool) : Statement (.accspl sw a k x) := rfl
theorem accfil (sw : Bool) (a : BitVec 6) (k x : Bool) : Statement (.accfil sw a k x) := rfl
theorem mqry (sw : Bool) (d a : BitVec 6) (x : Bool) : Statement (.mqry sw d a x) := rfl
theorem pbin (sw : Bool) (d a b : BitVec 6) (x y : Bool) : Statement (.pbin sw d a b x y) := rfl
theorem pbend (sw : Bool) : Statement (.pbend sw) := rfl
theorem primitiveBinning (pass : Nat) : Statement (.primitiveBinning pass) := rfl
theorem hsrTileResolution (pass strip tile : Nat) : Statement (.hsrTileResolution pass strip tile) := rfl
theorem hsrnext (sw : Bool) (d a b : BitVec 6) (x y : Bool) : Statement (.hsrnext sw d a b x y) := rfl
theorem ipa (sw : Bool) (d a b : BitVec 6) (x y m : Bool) : Statement (.ipa sw d a b x y m) := rfl
theorem fragw (sw : Bool) (a b : BitVec 6) (x y : Bool) : Statement (.fragw sw a b x y) := rfl
theorem splat (sw : Bool) (d a b : BitVec 6) (x y : Bool) : Statement (.splat sw d a b x y) := rfl
theorem splatend (sw : Bool) : Statement (.splatend sw) := rfl
theorem stiprun (sw : Bool) (d a b : BitVec 6) (x y : Bool) : Statement (.stiprun sw d a b x y) := rfl
theorem stiprd (sw : Bool) (d a : BitVec 6) (x : Bool) : Statement (.stiprd sw d a x) := rfl
theorem raynew (sw : Bool) (d a : BitVec 6) (x : Bool) : Statement (.raynew sw d a x) := rfl
theorem rayset (sw : Bool) (d a b : BitVec 6) (x y : Bool) : Statement (.rayset sw d a b x y) := rfl
theorem raygo (sw : Bool) (a : BitVec 6) (x : Bool) : Statement (.raygo sw a x) := rfl
theorem rayTraversalStep (ray : Nat) : Statement (.rayTraversalStep ray) := rfl
theorem callbackStart (ray : Nat) : Statement (.callbackStart ray) := rfl
theorem raywait (sw : Bool) (d a : BitVec 6) (x : Bool) : Statement (.raywait sw d a x) := rfl
theorem rayget (sw : Bool) (d a b : BitVec 6) (x y : Bool) : Statement (.rayget sw d a b x y) := rfl
theorem rayfree (sw : Bool) (a : BitVec 6) (x : Bool) : Statement (.rayfree sw a x) := rfl
theorem verdict (sw : Bool) (a b : BitVec 6) (x y : Bool) : Statement (.verdict sw a b x y) := rfl
theorem raycb (sw : Bool) (d a : BitVec 6) (x : Bool) : Statement (.raycb sw d a x) := rfl
theorem tnow (sw : Bool) (d : BitVec 6) : Statement (.tnow sw d) := rfl
theorem twait (sw : Bool) (a : BitVec 6) (x : Bool) : Statement (.twait sw a x) := rfl
theorem timeWaitExpiry (th : Nat) : Statement (.timeWaitExpiry th) := rfl
theorem tdead (sw : Bool) (d b : BitVec 6) (y : Bool) : Statement (.tdead sw d b y) := rfl
theorem tbudg (sw : Bool) (d : BitVec 6) : Statement (.tbudg sw d) := rfl
theorem scommit (sw : Bool) (d a b : BitVec 6) (x y m : Bool) : Statement (.scommit sw d a b x y m) := rfl
theorem shalo (sw : Bool) (d a b : BitVec 6) (x y : Bool) : Statement (.shalo sw d a b x y) := rfl
theorem jobend (sw : Bool) : Statement (.jobend sw) := rfl
theorem srate (sw : Bool) (d a : BitVec 6) (n : Bool) (o : BitVec 2) (x : Bool) : Statement (.srate sw d a n o x) := rfl
theorem trap (sw : Bool) (d : BitVec 6) (i : BitVec 15) : Statement (.trap sw d i) := rfl
theorem rte (sw : Bool) : Statement (.rte sw) := rfl
theorem srd (sw : Bool) (d : BitVec 6) (i : BitVec 15) : Statement (.srd sw d i) := rfl
theorem swr (sw : Bool) (d : BitVec 6) (i : BitVec 15) : Statement (.swr sw d i) := rfl
theorem dtload (sw : Bool) (d a : BitVec 6) (x m : Bool) : Statement (.dtload sw d a x m) := rfl
theorem sealq (sw : Bool) (d a : BitVec 6) (x : Bool) : Statement (.sealq sw d a x) := rfl
theorem halt (sw : Bool) : Statement (.halt sw) := rfl
theorem errinj (sw : Bool) (a b : BitVec 6) (x y : Bool) : Statement (.errinj sw a b x y) := rfl
theorem tlbinv (sw : Bool) (d a b : BitVec 6) (x y : Bool) : Statement (.tlbinv sw d a b x y) := rfl
theorem xbpark (sw : Bool) (d a b : BitVec 6) (x y : Bool) : Statement (.xbpark sw d a b x y) := rfl
theorem xbwake (sw : Bool) (d a : BitVec 6) (x : Bool) : Statement (.xbwake sw d a x) := rfl
theorem xbstat (sw : Bool) (d a : BitVec 6) (x : Bool) : Statement (.xbstat sw d a x) := rfl
theorem lkstat (sw : Bool) (d a : BitVec 6) (x : Bool) : Statement (.lkstat sw d a x) := rfl
theorem teamPlacement (cluster : Nat) : Statement (.teamPlacement cluster) := rfl
theorem teamRetirement (team : Nat) : Statement (.teamRetirement team) := rfl
theorem evictionRequest (cluster : Nat) (teams : List Nat) : Statement (.evictionRequest cluster teams) := rfl
theorem eviction (th : Nat) : Statement (.eviction th) := rfl
theorem restore (th core : Nat) : Statement (.restore th core) := rfl
theorem memoryTokenGrant (core group : Nat) : Statement (.memoryTokenGrant core group) := rfl
theorem memoryTokenPass (core group : Nat) : Statement (.memoryTokenPass core group) := rfl
theorem localityWindowEnd (core : Nat) : Statement (.localityWindowEnd core) := rfl
theorem stripAdmission (out : Nat) : Statement (.stripAdmission out) := rfl
theorem chainForcedEnd (chain : Nat) : Statement (.chainForcedEnd chain) := rfl
theorem budgetExpiry (slice : Nat) : Statement (.budgetExpiry slice) := rfl
theorem deadlineMiss (slice : Nat) : Statement (.deadlineMiss slice) := rfl
theorem stripScan (out : Nat) : Statement (.stripScan out) := rfl
theorem slotRelease (ring slot : Nat) : Statement (.slotRelease ring slot) := rfl
theorem ductusIdleExit : Statement (.ductusIdleExit) := rfl
theorem ductusWake (out : Nat) : Statement (.ductusWake out) := rfl
theorem encodeTileRow (pipe : Nat) : Statement (.encodeTileRow pipe) := rfl
theorem temporalUnitWrite (pipe : Nat) : Statement (.temporalUnitWrite pipe) := rfl
theorem headLinkLoss (head : Nat) : Statement (.headLinkLoss head) := rfl
theorem linkRetrain (head : Nat) : Statement (.linkRetrain head) := rfl
theorem outputArm (out : Nat) (rateOk linkOk : Bool) : Statement (.outputArm out rateOk linkOk) := rfl
theorem outputDisarm (out : Nat) : Statement (.outputDisarm out) := rfl
theorem ringEnable (ring : Nat) (w : Word) : Statement (.ringEnable ring w) := rfl
theorem ringDisable (ring : Nat) (w : Word) : Statement (.ringDisable ring w) := rfl
theorem ppsEdge (offset : Int) : Statement (.ppsEdge offset) := rfl
theorem ptpin (t1 t2 t3 t4 : Nat) : Statement (.ptpin t1 t2 t3 t4) := rfl
theorem tlockHoldover : Statement (.tlockHoldover) := rfl
theorem qosFrameBoundary : Statement (.qosFrameBoundary) := rfl
theorem refreshWindowStart (bank : Nat) : Statement (.refreshWindowStart bank) := rfl
theorem refreshWindowEnd (bank : Nat) : Statement (.refreshWindowEnd bank) := rfl
theorem opticalToken (ch : Nat) : Statement (.opticalToken ch) := rfl
theorem automaticWake (ch : Nat) : Statement (.automaticWake ch) := rfl
theorem retuneEnd (ch : Nat) : Statement (.retuneEnd ch) := rfl
theorem remoteRequestArrival (req : RemoteRequest) : Statement (.remoteRequestArrival req) := rfl
theorem acknowledgement (package slice seq : Nat) : Statement (.acknowledgement package slice seq) := rfl
theorem retransmissionTimeout (package slice seq : Nat) : Statement (.retransmissionTimeout package slice seq) := rfl
theorem busyResend (package slice seq : Nat) : Statement (.busyResend package slice seq) := rfl
theorem wavelengthRetrain (fibre : Nat) (mask : DWord) : Statement (.wavelengthRetrain fibre mask) := rfl
theorem watchdogW1 (grid : Nat) : Statement (.watchdogW1 grid) := rfl
theorem watchdogW2 (grid : Nat) : Statement (.watchdogW2 grid) := rfl
theorem watchdogW3 (core : Nat) : Statement (.watchdogW3 core) := rfl
theorem coreReturn (core : Nat) : Statement (.coreReturn core) := rfl
theorem uncorrectableError (unit : ErrUnit) : Statement (.uncorrectableError unit) := rfl
theorem correctableError (unit : ErrUnit) : Statement (.correctableError unit) := rfl
theorem sealFree (sealId : Nat) : Statement (.sealFree sealId) := rfl
theorem commandWrite (bytes : List Byte) : Statement (.commandWrite bytes) := rfl
theorem upload : Statement (.upload) := rfl
theorem trigger : Statement (.trigger) := rfl
theorem resync : Statement (.resync) := rfl
theorem sealnew : Statement (.sealnew) := rfl
theorem sealend : Statement (.sealend) := rfl
theorem abort : Statement (.abort) := rfl
theorem timesetStep : Statement (.timesetStep) := rfl
theorem timesetConfig : Statement (.timesetConfig) := rfl
theorem fwload (ok : Bool) : Statement (.fwload ok) := rfl
theorem attest : Statement (.attest) := rfl
theorem reset : Statement (.reset) := rfl
theorem firmwareVerification (found : Option (List (List Nat))) : Statement (.firmwareVerification found) := rfl
theorem ucieTraining (ok : Bool) : Statement (.ucieTraining ok) := rfl
theorem lpddrTraining (failed : Option Nat) : Statement (.lpddrTraining failed) := rfl
theorem damlanRingTuning (ok : Bool) : Statement (.damlanRingTuning ok) := rfl
theorem tsuxusTraining (masks : List DWord) : Statement (.tsuxusTraining masks) := rfl
theorem ptpLock : Statement (.ptpLock) := rfl
theorem powerWindow (avg : Nat) : Statement (.powerWindow avg) := rfl
theorem standbyRequest (w : Word) : Statement (.standbyRequest w) := rfl
theorem standbyEntry : Statement (.standbyEntry) := rfl
theorem standbyClear (w : Word) : Statement (.standbyClear w) := rfl
theorem powerLimitWrite (w : Word) : Statement (.powerLimitWrite w) := rfl
theorem tpcWrite (hi : Bool) (w : Word) : Statement (.tpcWrite hi w) := rfl
theorem meetWrite (hi : Bool) (w : Word) : Statement (.meetWrite hi w) := rfl
theorem tstatWrite (w : Word) : Statement (.tstatWrite w) := rfl
theorem fmtWrite (w : Word) : Statement (.fmtWrite w) := rfl
theorem memgroupsWrite (core : Nat) (w : Word) : Statement (.memgroupsWrite core w) := rfl
theorem leasecfgWrite (core : Nat) (w : Word) : Statement (.leasecfgWrite core w) := rfl
theorem qcfgWrite (cluster queue : Nat) (w : Word) : Statement (.qcfgWrite cluster queue w) := rfl
theorem wdogWrite (queue : Nat) (w : Word) : Statement (.wdogWrite queue w) := rfl
theorem dbgctl (w : Word) : Statement (.dbgctl w) := rfl
theorem tlbctl (number : Nat) (w : Word) : Statement (.tlbctl number w) := rfl
theorem tlbInvalidationComplete : Statement (.tlbInvalidationComplete) := rfl
theorem faultack (w : Word) : Statement (.faultack w) := rfl
theorem domcfgWrite (w : Word) : Statement (.domcfgWrite w) := rfl
theorem bar2StagingWrite (off : Nat) (bytes : List Byte) : Statement (.bar2StagingWrite off bytes) := rfl
theorem registerWrite (number : Nat) (w : Word) : Statement (.registerWrite number w) := rfl
theorem hostCxlMemAccess (pa len : Nat) (data : Option (List Byte)) : Statement (.hostCxlMemAccess pa len data) := rfl
theorem timeSliceExpiry (core th : Nat) : Statement (.timeSliceExpiry core th) := rfl
theorem ppsLoss : Statement (.ppsLoss) := rfl
theorem tsuxusForwarding (dest hops : Nat) : Statement (.tsuxusForwarding dest hops) := rfl
theorem remoteReplyArrival (package slice seq : Nat) (data : List Byte) : Statement (.remoteReplyArrival package slice seq data) := rfl
theorem headRegisterRead (which : Nat) : Statement (.headRegisterRead which) := rfl

end Sys2Proof.Laws.Static
end

