-- ==== Sys2Proof/Tests/Slice0.lean ====
section
/-!
SUPPORT. Tests: ill-formed terms each check refuses, words written out from the spec's encodings, single steps on small
states, and for the statements a state and operands that meet their hypotheses.
-/
namespace Sys2Proof.Tests
open Sys2Proof.Machine

set_option Elab.async false

/-! ### Small states -/

/-- The word of an instruction. -/
def wordOf (i : Instr) : Nat := (encode i).headD 0

/-- Reset with that word before a new thread of seal 0, number 1, of team 2, which is current. -/
def at_ (i : Instr) : State := { State.reset.withFetchWord 32 (wordOf i) with cur := some 1 }

/-- Thread 1. -/
def th1 (s : State) : Thread := (thread? s 1).getD (probeThread 2 0)

/-- The context of the word thread 1 stands at. -/
def ctx1 (s : State) : Ctx := entryCtx s 1 (th1 s)

/-- The checks of R48 pass for thread 1, and results in `dests` fit. -/
def may (i : Instr) (srcs : List Src) (dests : List Nat) (s : State) : Bool :=
  passes i srcs s 1 (th1 s) && fits (ctx1 s) (freed i srcs (ctx1 s) []) dests && (th1 s).ec.isEmpty

/-- As `may`, in a changed state, with a condition on the context. -/
def goes (i : Instr) (srcs : List Src) (dests : List Nat) (f : State → State) (pre : Ctx → Bool) : Bool :=
  may i srcs dests (f (at_ i)) && pre (ctx1 (f (at_ i)))

/-- Change thread 1. -/
def up (f : Thread → Thread) (s : State) : State := modThread s 1 f

/-- Give thread 1 registers. -/
def regs (l : List (Nat × Word)) : State → State := up (fun th => { th with regs := l })

/-- Change team 2. -/
def tup (f : Team → Team) (s : State) : State := modTeam s 2 f

/-- Put bytes in team 2's scratchpad. -/
def inSpad (off : Nat) (bs : List Byte) : State → State :=
  tup (fun tm => { tm with spad := tm.spad.writeBytes off bs, granules := granulesOf off bs.length ++ tm.granules })

/-- Seal 0's page of 1 GiB at address 0, readable, writable, executable and open to pins, in memory and in station 0's TLB. -/
def paged (s : State) : State :=
  modStation { s with mem := probeMemory s.mem 0 } 0 (fun x => { x with tlb := [⟨0, 1, 0, 2 ^ 52 + 2 ^ 49 + 0x2F⟩] })

/-- One register source each, g0 and g2. -/
def ab : List Src := [⟨0, 1, false⟩, ⟨2, 1, false⟩]
/-- g0. -/
def a1 : List Src := [⟨0, 1, false⟩]
/-- The pair g0. -/
def a2 : List Src := [⟨0, 2, false⟩]

/-- A result is one. -/
def isOk {ε α : Type} : Except ε α → Bool
  | .ok _ => true
  | .error _ => false

/-- A step answers a next state that meets a test. -/
def next (r : Host.Outcome State Fault Refusal) (p : State → Bool) : Bool :=
  match r with
  | .next s => p s
  | _ => false

/-- The package runs, with commands waiting. -/
def ready (cs : List (List Byte)) (s : State) : State := { s with dev := { power := { state := 0 }, stage := 7, commands := cs } }

/-! ### Words that need nothing but their checks -/

def plain1 : List (Instr × List Src × List Nat) := [
  (.nop false, [], []), (.mov false 8 0 false, a1, [8]), (.movi false 8 0, [], [8]), (.movh false 8 0, [], [8, 9]),
  (.iadd false 8 0 2 false false false, ab, [8]), (.isub false 8 0 2 false false false, ab, [8]),
  (.iaddi false 8 0 0 false false, a1, [8]),
  (.iaddc false 8 0 2 false false false, [⟨0, 1, false⟩, ⟨2, 1, false⟩, ⟨9, 1, false⟩], [8, 9]),
  (.imul false 8 0 2 false false, ab, [8]), (.imulh false 8 0 2 false false false, ab, [8]),
   (.idiv false 8 0 2 false false false, ab, [8]),
  (.irem false 8 0 2 false false false, ab, [8]), (.ineg false 8 0 false, a1, [8]), (.iabs false 8 0 false, a1, [8]),
  (.imin false 8 0 2 false false false, ab, [8]), (.imax false 8 0 2 false false false, ab, [8]),
  (.and false 8 0 2 false false, ab, [8]), (.or false 8 0 2 false false, ab, [8]),
  (.xor false 8 0 2 false false, ab, [8]), (.not false 8 0 false, a1, [8]), (.andn false 8 0 2 false false, ab, [8])]

theorem test_plain_words_1_run : plain1.all (fun w => may w.1 w.2.1 w.2.2 (at_ w.1)) = true := by decide +kernel

def plain2 : List (Instr × List Src × List Nat) := [
  (.andi false 8 0 0 false, a1, [8]), (.ori false 8 0 0 false, a1, [8]), (.xori false 8 0 0 false, a1, [8]),
  (.shl false 8 0 2 false false, ab, [8]), (.shr false 8 0 2 false false, ab, [8]),
  (.sar false 8 0 2 false false, ab, [8]), (.rot false 8 0 2 false false false, ab, [8]),
  (.bfx false 8 0 2 false false false, ab, [8]), (.popc false 8 0 false, a1, [8]), (.clz false 8 0 false, a1, [8]),
  (.brev false 8 0 false, a1, [8]),
  (.sel false 8 0 2 false false false, [⟨0, 1, false⟩, ⟨2, 1, false⟩, ⟨8, 1, false⟩], [8]),
  (.lea false 8 0 2 false false false, [⟨0, 2, false⟩, ⟨2, 1, false⟩], [8, 9]),
  (.add64 false 8 0 2 false false false, [⟨0, 2, false⟩, ⟨2, 2, false⟩], [8, 9]),
   (.mix32 false 8 0 2 false false, ab, [8]),
  (.isetp false 0 1 0 2 false false false, ab, []), (.isetpi false 0 1 0 0 false false, a1, []),
  (.plop false 0 1 2 3 false, [], []), (.fsetp false 0 1 0 2 false false false, ab, []),
  (.fadd false 8 0 2 false false, ab, [8]), (.fsub false 8 0 2 false false, ab, [8])]

theorem test_plain_words_2_run : plain2.all (fun w => may w.1 w.2.1 w.2.2 (at_ w.1)) = true := by decide +kernel

def plain3 : List (Instr × List Src × List Nat) := [
  (.fmul false 8 0 2 false false, ab, [8]),
  (.fneg false 8 0 false, a1, [8]), (.fabs false 8 0 false, a1, [8]), (.fclass false 8 0 false, a1, [8]),
  (.fmin false 8 0 2 false false, ab, [8]), (.fmax false 8 0 2 false false, ab, [8]),
  (.fdiv false 8 0 2 false false, ab, [8]), (.frcp false 8 0 false, a1, [8]), (.fsqrt false 8 0 false, a1, [8]),
  (.frsq false 8 0 false, a1, [8]), (.fexp2 false 8 0 false, a1, [8]), (.flog2 false 8 0 false, a1, [8]),
  (.fsinpi false 8 0 false, a1, [8]), (.fcospi false 8 0 false, a1, [8]), (.frnd false 8 0 false false, a1, [8]),
  (.fscale false 8 0 2 false false, ab, [8]), (.fexpo false 8 0 false, a1, [8]),
  (.prd false 8 0 false, [⟨0, 2, false⟩], [8]),
  (.padd false 8 0 2 false false, [⟨0, 2, false⟩, ⟨2, 2, false⟩], [8, 9]),
  (.hadd2 false 8 0 2 false false false, ab, [8]), (.hmul2 false 8 0 2 false false false, ab, [8])]

theorem test_plain_words_3_run : plain3.all (fun w => may w.1 w.2.1 w.2.2 (at_ w.1)) = true := by decide +kernel

def plain4 : List (Instr × List Src × List Nat) := [
   (.cvtfi false 8 0 2 false false false, ab, [8]),
  (.cvtif false 8 0 2 false false false, ab, [8]), (.mxel false 8 0 2 false false, ab, [8]),
  (.fmtchk false 8 0 false, a1, [8]), (.bra false 0, [], []), (.brp false 1 false 0, [], []),
  (.brx false 0 false, [⟨0, 2, false⟩], []), (.lgjoin false 0 0 false, [], []), (.yield false, [], []),
  (.pause false 0, [], []), (.trap false 0 0, [], []), (.srd false 8 0x40, [], [8]), (.halt false, [], []),
  (.fencew false, [], []), (.dist false 8 0 false false, [], []), (.pbend false, [], []), (.splatend false, [], []),
  (.tnow false 8, [], [8, 9]), (.tbudg false 8, [], [8])]

theorem test_plain_words_4_run : plain4.all (fun w => may w.1 w.2.1 w.2.2 (at_ w.1)) = true := by decide +kernel

/-- With an EXT control word that names g4 as the third source. -/
def withC : State → State := up (fun th => { th with ext := { ctl := some (0x3FF * 2 ^ 21 + 4 * 2 ^ 5) } })

/-- With an EXT immediate word of 1. -/
def withImm : State → State := up (fun th => { th with ext := { imm := some (wordOf (.extImmediateForm 1)) } })

def threeSources : List (Instr × List Src × List Nat) := [
  (.imad false 8 0 2 false false false, ab, [8]), (.bfi false 8 0 2 false false, ab, [8]),
  (.idp4 false 8 0 2 false false false, ab, [8]), (.fmad false 8 0 2 false false false, ab, [8]),
  (.twosum false 8 0 2 false false, ab, [8, 4]), (.hfma2 false 8 0 2 false false false, ab, [8])]

theorem test_words_with_three_sources_run :
    threeSources.all (fun w => goes w.1 w.2.1 w.2.2 withC (fun k => k.cReg == 4)) = true
    ∧ goes (.twosum false 4 0 2 false false) ab [4] withC (fun k => k.cReg == 4) = true
    ∧ goes (.twosum false 8 0 2 false false) ab [8, 4] (fun s => up (fun th => { th with fmt := 0x1000#32, regs := [(0, 0x7FC00000#32)] }) (withC s))
        (fun k => fmtNanTrap k.th.fmt && (rd32 (fAdd fp32 modeRNE (rd32 (k.th.reg 0).toNat) (rd32 (k.th.reg 2).toNat)).1).isNan) = true := by
  decide +kernel

theorem test_extended_immediates :
    goes (.movi false 8 0) [] [8] withImm (fun k => k.imm.isSome) = true
    ∧ goes (.movh false 8 0) [] [8, 9] withImm (fun k => k.imm.isSome) = true
    ∧ goes (.shli false 8 0 3 false) a1 [8] id (fun k => k.imm20 == 0) = true
    ∧ goes (.shri false 8 0 3 false) a1 [8] id (fun k => k.imm20 == 0) = true
    ∧ goes (.sari false 8 0 3 false) a1 [8] id (fun k => k.imm20 == 0) = true
    ∧ goes (.shli false 8 0 3 false) a1 [8] withImm (fun k => k.imm20 != 0) = true
    ∧ goes (.lgread false 8 2 1 false) [] [8, 9] withImm (fun k => 2 ≤ k.immBu 1) = true := by decide +kernel

theorem test_float_words_trap_nan :
    goes (.fadd false 8 0 2 false false) ab [8] (up (fun th => { th with fmt := 0x1000#32, regs := [(0, 0x7FC00000#32)] }))
        (fun k => fmtNanTrap k.th.fmt && (rd32 (fAdd fp32 k.fmode (rd32 (k.th.reg 0).toNat) (rd32 (k.th.reg 2).toNat)).1).isNan) = true
    ∧ goes (.nxel false 8 0 2 false false) ab [8] (regs [(0, 0x500000#32)]) (fun k => (k.th.reg 0).toNat / 2 ^ 20 % 16 == 5) = true
    ∧ goes (.nxel false 8 0 2 false false) ab [8] id (fun k => (k.th.reg 0).toNat / 2 ^ 20 % 16 == 0) = true := by decide +kernel

theorem test_group_conversions :
    goes (.cvtff false 8 0 2 false false) ab [8] (regs [(2, 0x100#32)])
        (fun k => cvtWordOk (k.th.reg 2).toNat && k.pendingSrc [⟨0, 2, false⟩] == none) = true
    ∧ goes (.cvtff false 8 0 2 false false) ab [8] (regs [(2, 0xF#32)]) (fun k => !cvtWordOk (k.th.reg 2).toNat) = true := by decide +kernel

/-! ### Control -/

theorem test_ext_words_latch :
    (let s := at_ (.extControlForm 0 false false 0 false 4 false)
     (th1 s).rawWord.toNat == wordOf (.extControlForm 0 false false 0 false 4 false) && (th1 s).ext.ctl == none
       && (th1 s).clause.any (fun c => (th1 s).word < c.n)) = true
    ∧ (let s := at_ (.extImmediateForm 5)
     (th1 s).rawWord.toNat == wordOf (.extImmediateForm 5) && (th1 s).ext.imm == none && (th1 s).clause.any (fun c => (th1 s).word < c.n)) = true
    ∧ (let s := up (fun th => { th with clause := th.clause.map (fun c => { c with n := 1 }) }) (at_ (.extImmediateForm 5))
     (th1 s).rawWord.toNat == wordOf (.extImmediateForm 5) && (th1 s).clause.any (fun c => (th1 s).word == c.n)) = true
    ∧ (let s := up (fun th => { th with ext := { imm := some 7 } }) (at_ (.extImmediateForm 5))
     (th1 s).rawWord.toNat == wordOf (.extImmediateForm 5) && (th1 s).ext.imm == some 7) = true := by decide +kernel

/-- `paged`, with a clause header of one word at 0x8000. -/
def headed (s : State) : State :=
  modStation { s with mem := probeMemory s.mem 0xC103FFFF } 0 (fun x => { x with tlb := [⟨0, 1, 0, 2 ^ 52 + 2 ^ 49 + 0x2F⟩] })

/-- A thread between clauses, with a clause of one NOP before it in memory. -/
def atClause : State :=
  up (fun th => { th with pc := 0x8000, word := 0, clause := none }) (headed (at_ (.nop false)))

theorem test_clauses_start :
    ((th1 atClause).runnable && (th1 atClause).clause.isNone && !atMeet atClause (th1 atClause)
      && isOk (fetchClause atClause 1 (th1 atClause))) = true
    ∧ (waitsMet (th1 atClause) 0xC103FFFF && !waitsMet { th1 atClause with ec := [(0, 1)] } 0xC103FFF8) = true
    ∧ (let s := up (fun th => { th with meet := BitVec.ofNat 64 (2 ^ 63 + 0x8000) })
        (tup (fun tm => tm.setLig 0 0 { members := 1 }) atClause)
       atMeet s (th1 s) && (th1 s).runnable) = true
    ∧ (th1 (up (fun th => { th with wait := .halt }) atClause)).runnable = false
    ∧ headerFault 0xC103FFFF = 0 := by decide +kernel

theorem test_moves :
    goes (.movs false 8 0x13) [] [8] id (fun k => !orderWaits k.s k.th && (thread? (flush k.s k.t) k.t).isSome) = true
    ∧ goes (.movs false 8 0x14) [] [8] id (fun k => !orderWaits k.s k.th && (thread? (flush k.s k.t) k.t).isSome) = true
    ∧ goes (.movs false 8 0x18) [] [8] id (fun k => movsSource k.s k.th 0x18 == some 0) = true
    ∧ goes (.movs false 8 0x40) [] [8] (tup (fun tm => { tm with ports := [(gkey 0 0, [7])] }))
        (fun k => (team? k.s k.th.team).any (fun tm => tm.port k.th.gid 0 == [7])) = true
    ∧ goes (.movs false 8 0x40) [] [8] id (fun k => (team? k.s k.th.team).any (fun tm => tm.port k.th.gid 0 == [])) = true
    ∧ goes (.movs false 8 0x48) [] [8] id (fun k => k.imm.isNone) = true := by decide +kernel

/-- A full return stack. -/
def fullStack : State → State := up (fun th => { th with stack := List.replicate 16 64 })

theorem test_calls :
    goes (.call false 4) [] [] id (fun k => k.th.stack.length < 16) = true
    ∧ goes (.callx false 0 false) a2 [] id (fun k => k.th.stack.length < 16) = true
    ∧ goes (.call false 4) [] [] fullStack (fun k => decide (8 * (k.th.spilled + 1) ≤ 1024)) = true
    ∧ goes (.callx false 0 false) a2 [] fullStack (fun k => decide (8 * (k.th.spilled + 1) ≤ 1024)) = true
    ∧ goes (.call false 4) [] [] (fun s => up (fun th => { th with spilled := 128 }) (fullStack s))
        (fun k => decide (1024 < 8 * (k.th.spilled + 1))) = true
    ∧ goes (.ret false) [] [] fullStack (fun k => k.th.stack != []) = true
    ∧ goes (.ret false) [] [] (up (fun th => { th with spilled := 1 })) (fun k => k.th.stack == [] && k.th.spilled != 0) = true
    ∧ goes (.ret false) [] [] id (fun k => k.th.stack == [] && k.th.spilled == 0) = true := by decide +kernel

/-- Thread 1 is a member of ligature 2. -/
def member2 : State → State := tup (fun tm => tm.setLig 0 2 { members := 1 })

/-- Its meet names that ligature. -/
def meet2 (s : State) : State := up (fun th => { th with meet := BitVec.ofNat 64 (2 ^ 63 + 2 * 2 ^ 52) }) (member2 s)

theorem test_ligatures :
    goes (.lgwait false 2 false) [] [] id (fun k => !k.member 2) = true
    ∧ goes (.lgwait false 2 false) [] [] member2 (fun k => k.member 2 && !orderWaits k.s k.th) = true
    ∧ goes (.lgdrop false 2 false) [] [] id (fun k => !k.member 2) = true
    ∧ goes (.lgdrop false 2 false) [] [] member2 (fun k => k.member 2) = true
    ∧ goes (.lgread false 8 2 1 false) [] [8, 9] id (fun k => k.immBu 1 == 1) = true
    ∧ goes (.lgread false 8 2 0 false) [] [8, 9] id (fun k => k.immBu 0 == 0) = true
    ∧ goes (.meetset false 4) [] [] meet2 (fun k => k.member (fld k.th.meet.toNat 52 4)) = true
    ∧ goes (.meetset false 4) [] [] id (fun k => !k.member (fld k.th.meet.toNat 52 4)) = true := by decide +kernel

theorem test_rendezvous :
    goes (.rxch false 8 0 2 false false false) [⟨0, 1, false⟩, ⟨8, 1, false⟩] [8] member2 (fun k => k.member 2 && !orderWaits k.s k.th) = true
    ∧ goes (.rbcast false 8 0 2 false false false) a1 [8] member2 (fun k => k.member 2 && !orderWaits k.s k.th) = true
    ∧ goes (.rred false 8 0 2 false false false) [⟨0, 1, false⟩, ⟨8, 1, false⟩] [8] member2 (fun k => k.member 2 && !orderWaits k.s k.th) = true
    ∧ goes (.rvote false 8 0 2 false false false) a1 [8, 9] member2 (fun k => k.member 2 && !orderWaits k.s k.th) = true
    ∧ goes (.rxch false 8 0 2 false false false) [⟨0, 1, false⟩, ⟨8, 1, false⟩] [8] id (fun k => !k.member 2) = true := by decide +kernel

/-- Thread 1, the only member, has arrived at ligature 2 with a word. -/
def arrived2 (w : Wait) : State :=
  up (fun th => { th with wait := w }) (tup (fun tm => tm.setLig 0 2 { members := 1, arrived := 1 }) (at_ (.rvote false 8 0 2 false false true)))

theorem test_a_complete_rendezvous_gives_results :
    (match meetingOf (arrived2 (.rendezvous 2 0x113 8 0 5 true [] [])) 2 0 2 with
      | .rendezvous ps => ps.map (·.t) == [1] && ps.all (fun p => p.opc != 0x308)
      | _ => false) = true
    ∧ ((thread? (ligCheck (arrived2 (.rendezvous 2 0x113 8 0 5 true [] [])) 2 0 2) 1).map (fun th => (th.reg 8, th.wait, th.word))) =
        some (1, .ready, 0)
    ∧ meetingOf (arrived2 (.ligature 2)) 2 0 2 = .release
    ∧ ((thread? (ligCheck (arrived2 (.ligature 2)) 2 0 2) 1).map (·.wait)) = some .ready := by decide +kernel

theorem test_regroup_yields_and_exit :
    goes (.regroup false 0 2 false false) [⟨0, 1, false⟩, ⟨2, 2, false⟩] [] id (fun k => k.th.pend == [] && !orderWaits k.s k.th) = true
    ∧ (let s := up (fun th => { th with wait := .regroup 5 15 [], regs := [(0, 1)] }) (at_ (.nop false))
       ((teamThreads s 2).filterMap kernOf).length = (teamThreads s 2).length ∧ teamThreads s 2 ≠ [] ∧ risingFrom 0 s.threads = true
       ∧ next (exec (.regroupCompletion 2) s) (fun s => (thread? s 1).map (fun th => (th.gid, th.mid, th.reg 0)) == some (0, 0, 1)) = true)
    ∧ goes (.exit false) [] [] id (fun k => !orderWaits k.s k.th) = true
    ∧ next (exec (.pauseExpiry 1) (up (fun th => { th with wait := .pause 0 }) (at_ (.nop false))))
        (fun s => (th1 s).wait == .ready) = true
    ∧ next (exec (.pauseExpiry 1) (up (fun th => { th with wait := .pause 1 }) (at_ (.nop false))))
        (fun s => (th1 s).wait == .pause 1) = true
    ∧ next (exec (.parkEnd 1) (up (fun th => { th with wait := .park }) (at_ (.nop false)))) (fun s => (th1 s).wait == .ready) = true
    ∧ next (exec (.parkEnd 1) (up (fun th => { th with wait := .park, pend := [8] }) (at_ (.nop false))))
        (fun s => (th1 s).wait == .park) = true := by decide +kernel

/-! ### Traps and system words -/

/-- Seal 0's vector table at 0x1000, with 0x9000 for TRAP_INSN and 0x9002 for BREAK. -/
def vectored (s : State) : State :=
  { s with seals := [(0, { state := 1, vbase := 0x1000 })]
           mem := Memory.writeBytes (Memory.writeBytes s.mem 0x1300 (leBytes 8 0x9000)) 0x1308 (leBytes 8 0x9002) }

theorem test_deliveries :
    (let s := vectored (at_ (.nop false))
     readVector s 0 0x60 = some 0x9000 ∧ readVector s 0 0x62 = some 0 ∧ readVector s 0 0x30 = some 0 ∧ readVector s 0 0x61 = none
     ∧ (th1 s).trap.tactive = false
     ∧ readVector (setThread s 1 (th1 s).atResume) (th1 s).sealId 0x60 = some 0x9000
     ∧ (thread? (deliver s 1 0x60 1 2 3 4 1) 1).map (fun h => (h.pc, h.trap.tactive, h.trap.cause, h.trap.info1)) = some (0x9000, true, 0x60, 2)
     ∧ thread? (deliver s 1 0x61 1 2 3 4 1) 1 = none)
    ∧ (let s := up (fun th => { th with held := [⟨0x30, [5], none⟩], clause := none, word := 0 }) (at_ (.nop false))
       asyncReady (th1 s) = true ∧ next (exec (.asynchronousTrapDelivery 1) s) (fun s => (th1 s).held.isEmpty) = true)
    ∧ asyncReady (th1 (at_ (.nop false))) = false
    ∧ (th1 (raiseAsync (up (fun th => { th with held := List.replicate 15 ⟨0x30, [], none⟩ }) (at_ (.nop false))) 1 0x31 [])).trap.alost = true := by
  decide +kernel

/-- Thread 1 in a handler, with a budget and a map of saved registers. -/
def inHandler (b : Nat) : State → State := up (fun th => { th with budget := b, trap := { th.trap with tactive := true, tsmap := 5, save2 := 7 } })

theorem test_returns :
    goes (.rte false) [] [] (inHandler 64) (fun k => k.th.trap.tactive && k.th.rteFootprint ≤ k.th.budget) = true
    ∧ goes (.rte false) [] [] (inHandler 1) (fun k => k.th.trap.tactive && k.th.budget < k.th.rteFootprint) = true
    ∧ goes (.rte false) [] [] id (fun k => !k.th.trap.tactive) = true
    ∧ next (exec (.rte false) (inHandler 64 (at_ (.rte false)))) (fun s => (th1 s).regs == [(0, 0), (2, 7)]) = true
    ∧ (let th := { probeThread 2 0 with regs := [(1, 4)], preds := 3 }
       risingFrom 0 th.regs = true ∧ th.trap.tactive = false ∧ th.preds < 256 ∧ th.pc < 2 ^ 64 ∧ th.clause ≠ none
         ∧ (th.enterHandler 0x60 0 0 0 0 1 0x9000).rte.regs = [(1, 4)]) := by decide +kernel

/-- Thread 1 runs for seal 3. -/
def seal3 : State → State := up (fun th => { th with sealId := 3 })

def privileged : List Instr := [.rte false, .srd false 8 0, .swr false 8 0, .dtload false 8 0 false false, .halt false,
  .errinj false 0 2 false false, .tlbinv false 8 0 2 false false, .xbpark false 8 0 2 false false, .xbwake false 8 0 false]

theorem test_privileged_words_trap :
    privileged.all (fun i => passesInUserMode i (seal3 (at_ i)) 1 (th1 (seal3 (at_ i)))) = true := by decide +kernel

theorem test_system_registers :
    goes (.srd false 8 0x44) [] [8] id (fun _ => true) = true ∧ goes (.srd false 8 0x02) [] [8] id (fun _ => true) = true
    ∧ goes (.srd false 8 0x5C) [] [8] id (fun _ => true) = true
    ∧ goes (.swr false 8 0x30) [⟨8, 1, false⟩] [] (regs [(8, 9)]) (fun k => (k.th.reg 8).toNat &&& sysZero (sysReg 0x30) == 0) = true
    ∧ goes (.swr false 8 0x44) [⟨8, 1, false⟩] [] (regs [(8, 0x80000000#32)]) (fun k => (k.th.reg 8).toNat &&& sysZero (sysReg 0x44) != 0) = true
    ∧ goes (.swr false 8 0x02) [⟨8, 1, false⟩] [] id (fun _ => true) = true
    ∧ goes (.swr false 8 0x5C) [⟨8, 1, false⟩] [] id (fun _ => true) = true
    ∧ next (exec (.swr false 8 0x30) (regs [(8, 9)] (at_ (.swr false 8 0x30)))) (fun s => (th1 s).meet == 9) = true := by decide +kernel

theorem test_register_writes :
    next (exec (.meetWrite false 9) (at_ (.nop false))) (fun s => (th1 s).meet == 9) = true
    ∧ next (exec (.fmtWrite 0x1000#32) (at_ (.nop false))) (fun s => (th1 s).fmt == 0x1000#32) = true
    ∧ next (exec (.memgroupsWrite 5 0x00100000) State.reset) (fun s => (Machine.core s 5).limit == 16 && !(Machine.core s 5).auto) = true
    ∧ next (exec (.leasecfgWrite 5 0) State.reset) (fun s => (Machine.core s 5).lease == 1) = true
    ∧ next (exec (.qcfgWrite 1 3 0x80000007) State.reset) (fun s => (queueOf s 259).en && (queueOf s 259).sealId == 7) = true
    ∧ next (exec (.qcfgWrite 1 3 0x80000007) (setQueue State.reset 259 { entries := [0] })) (fun s => !(queueOf s 259).en) = true
    ∧ next (exec (.wdogWrite 3 0x80000000) State.reset) (fun s => wdog s 3 == 0x80100401) = true
    ∧ (let s := up (fun th => { th with trap := { th.trap with skippable := true, words := 1, tpc := 8, tn := 3, tword := 2 } }) (at_ (.nop false))
       (thread? (sysWrite s 1 (th1 s) (.thread 0x2C) 0x02000000) 1).map (fun h => (h.trap.tpc, h.trap.tword)) = some (12, 3)) := by
  decide +kernel

/-- Readable scratchpad bytes at the address in g0, g1, the first as given. -/
def tableAt (bs : List Byte) : State → State := fun s =>
  regs [(1, 0xF0000000#32)] (tup (fun tm => { tm with spad := tm.spad.writeBytes 0 bs, granules := granulesOf 0 2048 }) s)

/-- The image DTLOAD would read there passes the checks of R47, or fails as named. -/
def imageChecks (bs : List Byte) : Option (Option (Nat × Nat)) :=
  let k := ctx1 (tableAt bs (at_ (.dtload false 8 0 false false)))
  match checkRange k.s k.t k.th k.iw (k.th.reg64 0) 2048 64 .load false [0x00, 0xF0] true with
  | .ok as_ => some (tableCheckFrom 0 (imageEntries (readNow k.s k.t as_).1))
  | .error _ => none



theorem test_a_table_fails : imageChecks (leBytes 4 0xFFFFFFFF) ≠ some none ∧ imageChecks (leBytes 4 0xFFFFFFFF) ≠ none := by
  decide +kernel

theorem test_tables :
    goes (.dtload false 8 0 false false) a2 [8] (tableAt []) (fun k => !orderWaits k.s k.th) = true
    ∧ goes (.dtload false 8 0 false true) a2 [8] (tableAt []) (fun k =>
        isOk (checkRange k.s k.t k.th k.iw (k.th.reg64 0) 2048 64 .store false [0x00, 0xF0] true)) = true := by decide +kernel

theorem test_seal_queries :
    goes (.sealq false 8 0 false) a1 [8] (regs [(0, 0x00020001#32)]) (fun k => k.th.system) = true
    ∧ goes (.sealq false 8 0 false) a1 [8] (fun s => seal3 (regs [(0, 0x00020001#32)] s)) (fun k => !k.th.system) = true
    ∧ goes (.sealq false 8 0 false) a1 [8] (regs [(0, 10)]) (fun k => k.th.system) = true
    ∧ next (exec (.sealq false 8 0 false) (regs [(0, 0)] (at_ (.sealq false 8 0 false))))
        (fun s => (th1 s).flights.map (·.got) == [some [wordN (sealqWord s 0 0)]]) = true := by decide +kernel

theorem test_halts_injections_and_invalidations :
    (let s := up (fun th => { th with wait := .halt }) (at_ (.nop false))
     next (exec (.dbgctl 0x80000000) s) (fun s => (th1 s).wait == .ready) && next (exec (.dbgctl 0) s) (fun s => (th1 s).wait == .halt)
       && next (exec (.dbgctl 0x80000001) s) (fun s => (th1 s).wait == .halt)) = true
    ∧ goes (.errinj false 0 2 false false) [⟨0, 2, false⟩, ⟨2, 1, false⟩] [] (regs [(1, 0xF2000000#32), (2, 6)]) (fun k =>
        (injWindows 6).contains (selector (k.th.reg64 0)) && isOk (injUnit k 6 (k.th.reg64 0))) = true
    ∧ goes (.tlbinv false 8 0 2 false false) [⟨0, 2, false⟩, ⟨2, 1, false⟩] [8] (regs [(2, 1)]) (fun k => isOk k.publish) = true
    ∧ goes (.tlbinv false 8 0 2 false false) [⟨0, 2, false⟩, ⟨2, 1, false⟩] [8] id (fun k => isOk k.publish && windowFault (k.th.reg64 0) == none) = true
    ∧ (station (dropSealTlb (paged State.reset) 0 none) 0).tlb = []
    ∧ next (exec (.tlbctl 0x68 0x80000403) State.reset) (fun s => s.dev.tlbRun == some ⟨1, 3, 0⟩) = true
    ∧ next (exec (.tlbctl 0x60 7) State.reset) (fun s => s.dev.valo == 7) = true
    ∧ next (exec .tlbInvalidationComplete { paged State.reset with dev := { tlbRun := some ⟨2, 0, 0⟩ } })
        (fun s => s.dev.tlbRun == none && (station s 0).tlb == []) = true := by decide +kernel

theorem halves_of_pairs (es : List Nat) : ∀ i, i < es.length → (∀ e ∈ es, e < 2 ^ 16) →
    bfld (es.flatMap (leBytes 2)) (2 * i) 2 = nthD es i 0 := by
  induction es with
  | nil => intro i h; exact absurd h (Nat.not_lt_zero i)
  | cons e es ih =>
    intro i h hb
    cases i with
    | zero =>
      have he := hb e (by simp)
      simp only [bfld, leBytes, leNat, nthD, List.flatMap_cons, Nat.mul_zero, List.drop_zero, List.cons_append, List.nil_append,
        List.take_succ_cons, List.take_zero, BitVec.toNat_ofNat]
      show _ = e
      omega
    | succ j =>
      have := ih j (by simpa using h) (fun x hx => hb x (by simp [hx]))
      rw [show 2 * (j + 1) = 2 * j + 1 + 1 by omega]
      simpa [bfld, leBytes, nthD] using this

/-- A thread under an image that leaves every opcode unmapped. -/
def unmappedThread : Thread := { probeThread 2 0 with table := .image (List.replicate 1024 0xFFF) }

/-- The entries DTLOAD stores for it. -/
def mapEntries : List Nat := (List.range 1024).map (fun i => if i == 0 || i == 0x3FF then 0 else 0xFFF)

theorem test_map_entries_pass : tableCheckFrom 0 mapEntries = none ∧ mapEntries.all (· < 2 ^ 16) = true
    ∧ mapEntries.length = 1024 := by decide +kernel

theorem test_a_table_passes : tableCheckFrom 0 (imageEntries (storedTable State.reset unmappedThread)) = none := by
  have h : storedTable State.reset unmappedThread = mapEntries.flatMap (leBytes 2) := by
    simp only [storedTable, mapEntries, List.flatMap_map]
    have : ∀ i ∈ List.range 1024, leBytes 2 (if i == 0 || i == 0x3FF then 0 else tableEntry State.reset unmappedThread.table i)
        = leBytes 2 (if i == 0 || i == 0x3FF then 0 else 0xFFF) := by
      intro i hi
      have : tableEntry State.reset unmappedThread.table i = 0xFFF := by
        show nthD (List.replicate 1024 0xFFF) i 0 = 0xFFF
        rw [nthD, List.getElem?_replicate, if_pos (List.mem_range.mp hi)]; rfl
      rw [this]
    rw [List.flatMap_def, List.flatMap_def, List.map_congr_left this]
  have hl := test_map_entries_pass.2.2
  have hb : ∀ e ∈ mapEntries, e < 2 ^ 16 := by simpa using test_map_entries_pass.2.1
  have : imageEntries (storedTable State.reset unmappedThread) = mapEntries := by
    rw [h]
    apply List.ext_getElem
    · simp [imageEntries, hl]
    · intro i h1 h2
      simp only [imageEntries, List.getElem_map, List.getElem_range]
      rw [halves_of_pairs mapEntries i h2 hb, nthD]
      simp [h2]
  rw [this]
  exact test_map_entries_pass.1

/-! ### Memory -/

/-- A pointer to a window in g0, g1. -/
def ptr (hi lo : Nat) : List (Nat × Word) := [(0, wordN lo), (1, wordN (hi * 2 ^ 24))]

/-- Pages, readable scratchpad, a pointer in g0, g1 and a value in g2. -/
def pointed (hi lo : Nat) (more : List (Nat × Word)) (s : State) : State :=
  regs (ptr hi lo ++ more) (tup (fun tm => { tm with granules := granulesOf 0 64 }) (paged s))

/-- An access at the pointer passes its checks, on this package. -/
def reaches (len : Nat) (kind : AccKind) (g : Bool) (wins : List Nat) (k : Ctx) : Bool :=
  !memHeld k.th && (match checkAccess k.s k.t k.th k.iw (k.th.reg64 0) len len kind g wins true with
    | .ok a => (match a.loc with | .remote _ _ => false | _ => true)
    | .error _ => false)

theorem test_loads_pass :
    goes (.ldg false 8 0 2 false false false) a2 [8] (pointed 0 0x100 []) (reaches 4 .load false [0x00, 0xE0, 0xF0, 0xF1, 0xF2, 0xF3]) = true
    ∧ goes (.ldg false 8 0 2 false false false) a2 [8] (pointed 0xF0 0 []) (reaches 4 .load false [0x00, 0xE0, 0xF0, 0xF1, 0xF2, 0xF3]) = true
    ∧ goes (.lds false 8 0 2 false false false) a2 [8] (pointed 0xF0 0 []) (reaches 4 .load false [0xF0]) = true
    ∧ goes (.ldp false 8 0 2 false false false) a2 [8] (pointed 0xF2 0 []) (reaches 4 .load false [0xF2]) = true
    ∧ goes (.ldc false 8 0 2 false false false) a2 [8] (pointed 0xF1 0 []) (reaches 4 .load false [0xF1]) = true := by decide +kernel

theorem test_stores_pass :
    goes (.stg false 8 0 2 false false) (a2 ++ [⟨8, 1, false⟩]) [] (pointed 0 0x100 []) (reaches 4 .store false [0x00, 0xE0, 0xF0, 0xF1, 0xF2, 0xF3]) = true
    ∧ goes (.sts false 8 0 2 false false) (a2 ++ [⟨8, 1, false⟩]) [] (pointed 0xF0 0 []) (reaches 4 .store false [0xF0]) = true
    ∧ goes (.stp false 8 0 2 false false) (a2 ++ [⟨8, 1, false⟩]) [] (pointed 0xF2 0 []) (reaches 4 .store false [0xF2]) = true
    ∧ goes (.stc false 8 0 2 false false) (a2 ++ [⟨8, 1, false⟩]) [] (pointed 0xF1 0 []) (reaches 4 .store false [0xF1]) = true := by decide +kernel

theorem test_weight_loads_pass :
    goes (.ldw false 8 0 2 false false) a2 [8] (pointed 0xF3 0 []) (reaches 4 .load false [0xF3]) = true := by decide +kernel

def atomWins : List Nat := [0x00, 0xE0, 0xF0, 0xF1, 0xF2]

theorem test_atomics_pass :
    goes (.atom false 8 0 2 false false false) (a2 ++ [⟨2, 1, false⟩, ⟨8, 1, false⟩]) [8] (pointed 0 0x100 []) (reaches 4 .atomic true atomWins) = true
    ∧ goes (.atom false 8 0 2 false false true) (a2 ++ [⟨2, 2, false⟩, ⟨8, 1, false⟩]) [8, 9] (pointed 0xF2 0 []) (reaches 8 .atomic true atomWins) = true
    ∧ goes (.atomc false 8 0 2 false false false) (a2 ++ [⟨2, 1, false⟩]) [8] (fun s => withC (pointed 0 0x100 [] s)) (reaches 4 .atomic true atomWins) = true
    ∧ goes (.atomc false 8 0 2 false false true) (a2 ++ [⟨2, 2, false⟩]) [8, 9] (fun s => withC (pointed 0 0x100 [] s))
        (fun k => reaches 8 .atomic true atomWins k && k.cReg == 4) = true
    ∧ goes (.atomf false 8 0 2 false false false) (a2 ++ [⟨2, 1, false⟩]) [8] (pointed 0 0x100 []) (reaches 4 .atomic true atomWins) = true := by decide +kernel

theorem test_exact_cells_pass :
    goes (.xacc false 0 2 false false) (a2 ++ [⟨2, 1, false⟩]) [] (pointed 0 0x100 []) (reaches 64 .update true [0x00, 0xE0, 0xF0]) = true
    ∧ goes (.xaccp false 0 2 false false) (a2 ++ [⟨2, 2, false⟩]) [] (pointed 0 0x100 []) (reaches 64 .update true [0x00, 0xE0, 0xF0]) = true
    ∧ goes (.xrd false 8 0 false false) a2 [8] (pointed 0 0x100 []) (reaches 64 .load true [0x00, 0xE0, 0xF0]) = true
    ∧ goes (.xclr false 0 false) a2 [] (pointed 0 0x100 []) (reaches 64 .update true [0x00, 0xE0, 0xF0]) = true
    ∧ rd32 0x3F800000 = .fin false (2 ^ 23) (-23) ∧ cellAdd ⟨0, 0⟩ 0x3F800000 = ⟨2 ^ 149, 0⟩
    ∧ rd32 0x7FC00000 = .nan false ∧ rd32 0x7F800000 = .inf false ∧ rd32 0xFF800000 = .inf true := by decide +kernel

/-- Thread 1 with one operation outstanding. -/
def flying (ec : Nat) (dests : List Nat) (op : FlightOp) (got : Option (List Word)) : State :=
  up (fun th => { th with flights := [{ seq := 5, ec := ec, dests := dests, op := op, got := got }], seq := 6, ec := [(ec, 1)] })
    (at_ (.nop false))

/-- Thread 1's oldest operation. -/
def flight0 (s : State) : Flight := (th1 s).flights.headD { seq := 0, ec := 6, dests := [], op := .unit 0, got := none }

/-- An access of plain memory. -/
def glob (pa len : Nat) : Access := { loc := .glob pa, len := len, strong := true, cattr := 1, pageW := true, pageSeal := 0 }

theorem test_performed_accesses :
    (let s := up (fun th => { th with own := [(4, 7)] }) (flying 0 [8] (.load { glob 0 4 with loc := .own 1 4 } false) none)
     mayPerform (th1 s) (flight0 s) && (th1 s).own == [(4, 7)]
       && next (exec (.resultWritten 1 5 none .whole) s) (fun s => (th1 s).reg 8 == 7)) = true
    ∧ (let s := flying 0 [8] (.result [9]) (some [9])
       next (exec (.resultWritten 1 5 none .whole) s) (fun s => (th1 s).reg 8 == 9 && (th1 s).counter 0 == 0 && (th1 s).flights == [])) = true
    ∧ (let s := flying 1 [] (.store (glob 0x100 4) (leBytes 4 0x01020304)) none
       !inRefresh s (flight0 s)
       && next (exec (.storePerformed 1 5 .whole) s) (fun s => s.mem == [(0x100, 4), (0x101, 3), (0x102, 2), (0x103, 1)] && (th1 s).counter 1 == 0)) = true
    ∧ (let s := flying 1 [] (.store { glob 0 4 with loc := .own 1 8 } [1, 2, 3, 4]) none
       next (exec (.storePerformed 1 5 .whole) s) (fun s => (th1 s).own == [(8, 1), (9, 2), (10, 3), (11, 4)])) = true
    ∧ (let s := flying 0 [8] (.atom (glob 0x100 4) (.int 0 32 5)) none
       next (exec (.atomicPerformed 1 5) s) (fun s => s.mem == [(0x100, 5)] && (th1 s).flights.map (·.got) == [some [0]])) = true := by
  decide +kernel

/-- The trap an access check ends in. -/
def trapped (r : Except Stop Access) : Option (Nat × List Word) :=
  match r with
  | .error (.trap c a b d e) => some (c, [a, b, d, e])
  | _ => none

theorem test_access_checks :
    (let s := tup (fun tm => { tm with spord := 4 }) (at_ (.nop false))
     let go := fun addr kind => trapped (checkAccess s 1 (th1 s) 0 addr 4 4 kind false [0xF0, 0xF2] true)
     go (2 ^ 56) .load = some (0x11, [0x101, 0, 0x01000000, 0])
     ∧ go (0xF0 * 2 ^ 56 + 2 ^ 18) .load = some (0x11, [0x2F0, 0x40000, 0xF0000000, 0])
     ∧ go (0xF3 * 2 ^ 56) .store = some (0x16, [0, 0xF3000000, 0, 0])
     ∧ go (0xF1 * 2 ^ 56) .load = some (0x11, [0x3F1, 0, 0xF1000000, 0])
     ∧ go (0xF2 * 2 ^ 56 + 2) .load = some (0x12, [2, 0xF2000000, 4, 0])
     ∧ go (0xF2 * 2 ^ 56 + 1024) .load = some (0x11, [0x6F2, 1024, 0xF2000000, 0])
     ∧ go (0xF2 * 2 ^ 56 + 1020) .load = none
     ∧ (go (0xF0 * 2 ^ 56 + 2 ^ 17) .load).map (·.1) = some 0x13) := by decide +kernel

/-- PIN's checks pass at the pointer, for its line. -/
def pinned (k : Ctx) : Option (Nat × Bool) :=
  match pinEntry k (k.th.reg64 0) with
  | .ok e => some (e.line (k.th.reg64 0), leafDenies e.entry k.th.sealId .load == none && ptePinOk e.entry)
  | .error _ => none

/-- A pointer to a page whose leaf is given. -/
def leaf (e : Nat) (s : State) : State :=
  modStation (pointed 0 0x100 [] s) 0 (fun x => { x with tlb := [⟨0, 1, 0, e⟩] })

/-- The leaf of the page the pointer names. -/
def leafOf (k : Ctx) : Option Nat :=
  match pinEntry k (k.th.reg64 0) with
  | .ok e => some e.entry
  | .error _ => none

theorem test_fences_and_pins :
    goes (.fence false) [] [] id (fun k => k.th.unreg == []) = true
    ∧ goes (.fence false) [] [] (up (fun th => { th with unreg := [4] })) (fun k => k.th.unreg != []) = true
    ∧ (thread? (registered (up (fun th => { th with wait := .fence [4] }) (at_ (.nop false))) 1 4) 1).map (·.wait) = some .ready
    ∧ goes (.pref false 0 0 false) a2 [] (pointed 0 0x100 []) (fun k => windowFault (k.th.reg64 0) == none
        && (prefAccess k.s k.th (k.th.reg64 0) 0).isSome) = true
    ∧ goes (.pref false 0 0 false) a2 [] (fun s => regs [(0, 0x80000000#32)] (pointed 0 0x100 [] s)) (fun k => windowFault (k.th.reg64 0) == none
        && (prefAccess k.s k.th (k.th.reg64 0) 0).isNone) = true
    ∧ goes (.pref false 0 0 false) a2 [] (fun s => regs [(1, 0xE0005000#32)] { s with domain := { en := true, table := [(5, 2)] } })
        (fun k => selector (k.th.reg64 0) == 0xE0 && domPkg (k.th.reg64 0) == 5 && memberPackage k.s 5 && !memberPackage k.s 6) = true
    ∧ goes (.pin false 8 0 1 false) a2 [8] (pointed 0 0x100 []) (fun k => (pinned k).any (fun p => p.2 && pinOf k.s 1 0 p.1 == none && !setFull k.s 1 0 p.1)) = true
    ∧ goes (.pin false 8 0 0 false) a2 [8] (fun s => modLines (pointed 0 0x100 [] s) (fun v =>
        { v with pins := (List.range 16).map (fun i => ⟨0, 0, 2 + 2 ^ 12 * (i + 1), 0⟩) }))
        (fun k => (pinned k).any (fun p => p.2 && pinOf k.s 0 0 p.1 == none && setFull k.s 0 0 p.1)) = true
    ∧ goes (.pin false 8 0 1 false) a2 [8] (fun s => modLines (pointed 0 0x100 [] s) (fun v => { v with pins := [⟨1, 0, 2, 0⟩] }))
        (fun k => (pinned k).any (fun p => p.2 && pinOf k.s 1 0 p.1 != none)) = true
    ∧ goes (.unpin false 8 0 1 false) a2 [8] (fun s => modLines (pointed 0 0x100 [] s) (fun v => { v with pins := [⟨1, 0, 2, 0⟩] }))
        (fun k => (pinned k).any (fun p => pinOf k.s 1 0 p.1 == some ⟨1, 0, 2, 0⟩)) = true
    ∧ goes (.unpin false 8 0 1 false) a2 [8] (fun s => modLines (pointed 0 0x100 [] s) (fun v => { v with pins := [⟨1, 0, 2, 5⟩] }))
        (fun k => (pinned k).any (fun p => pinOf k.s 1 0 p.1 == some ⟨1, 0, 2, 5⟩)) = true
    ∧ goes (.unpin false 8 0 1 false) a2 [8] (pointed 0 0x100 []) (fun k => (pinned k).any (fun p => pinOf k.s 1 0 p.1 == none)) = true
    ∧ goes (.pin false 8 0 1 false) a2 [8] (leaf (2 ^ 52 + 2 ^ 49 + 0xD)) (fun k => isOk (pinEntry k (k.th.reg64 0))
        && (leafOf k).any (fun e => leafDenies e k.th.sealId .load == some 4)) = true
    ∧ goes (.pin false 8 0 1 false) a2 [8] (leaf (2 ^ 49 + 0xF)) (fun k => (leafOf k).any (fun e =>
        leafDenies e k.th.sealId .load == none && !ptePinOk e)) = true := by decide +kernel

theorem test_memory_events :
    (let s := modStation (paged State.reset) 0 (fun x => { x with tlb := [], walks := [⟨7, 0, 0x100, [], false, 0⟩] })
     (match walkTables s 0 0x100 with | .leaf 1 _ _ => true | _ => false)
       && lostEntries s 0x12 0 == 0
       && next (exec (.pageWalkComplete 0 7) s) (fun s => (station s 0).tlb.length == 1 && (station s 0).walks == [])) = true
    ∧ next (exec (.leaseExpiry 3 2) (modLines State.reset (fun v => { v with copies := [⟨3, 2, [], 0, 0, 0⟩] }))) (fun s => s.lines.copies == []) = true
    ∧ next (exec (.leaseExpiry 320 2) (modLines State.reset (fun v => { v with copies := [⟨320, 2, [], 0, 0, 1⟩], pins := [⟨0, 0, 2, 0⟩] })))
        (fun s => s.lines.copies.length == 1) = true
    ∧ next (exec (.ptsSelfAdvance 1) { at_ (.nop false) with aclk := 64 }) (fun s => (th1 s).pts == 1) = true
    ∧ next (exec (.ptsSelfAdvance 1) { at_ (.nop false) with aclk := 63 }) (fun s => (th1 s).pts == 0) = true := by decide +kernel

/-! ### Synchronisation -/

/-- Thread 1 is refused at a barrier. -/
def refused (i r : Nat) (k : Ctx) : Bool := k.team.any (fun tm => barrierRefuses tm k.th k.t i r)

theorem test_barriers :
    goes (.bar false 2 1) [] [] id (fun k => !refused 2 1 k && isOk k.publish) = true
    ∧ goes (.bara false 8 2 1) [] [8] id (fun k => !refused 2 1 k && isOk k.publish) = true
    ∧ goes (.bar false 2 6) [] [] id (refused 2 6) = true
    ∧ goes (.barw false 0 2 false) a1 [] id (fun k => k.team.any (fun tm => (tm.barrier 2).gen == (k.th.reg 0).toNat)) = true
    ∧ goes (.barw false 0 2 false) a1 [] (fun s => regs [(0, 4)] (tup (fun tm => { tm with barriers := [(2, { gen := 5 })] }) s))
        (fun k => k.team.any (fun tm => (tm.barrier 2).gen != (k.th.reg 0).toNat && genPassed (tm.barrier 2).gen (k.th.reg 0).toNat)) = true
    ∧ next (exec (.bar false 2 1) (at_ (.bar false 2 1)))
        (fun s => (th1 s).wait == .ready && (team? s 2).any (fun tm => (tm.barrier 2).gen == 1 && (tm.barrier 2).arrived == [])) = true
    ∧ (let s := up (fun th => { th with wait := .barrier 2 0 }) (at_ (.nop false))
       (thread? (barrierArrive s 1 (th1 s) 2 1) 1).map (·.wait) = some .ready) := by decide +kernel

/-- Arrival word 0 at offset 32 of team 2's scratchpad, with fields, and a pointer to it. -/
def arrival (t c g f : Nat) (more : List (Nat × Word)) (s : State) : State :=
  regs (ptr 0xF0 32 ++ more) (tup (fun tm => arrWrite { tm with arrivals := [⟨0, 32, 0⟩] } 32 ⟨t, c, g, f⟩) s)

/-- The word the pointer names. -/
def word0 (k : Ctx) : Option ArrWord :=
  match arrivalOf k (k.th.reg64 0) with
  | .ok (_, tm, w) => some (arrRead tm w.off)
  | .error _ => none

/-- Arrival word 0 of team 2. -/
def arr0 (s : State) : Option ArrWord := (team? s 2).map (fun tm => arrRead tm 32)

theorem test_arrival_words :
    goes (.arm false 8 0 2 false false false) ab [8] (arrival 0 0 0 0 [(2, 5)]) (fun k => word0 k == some ⟨0, 0, 0, 0⟩ && isOk k.publish) = true
    ∧ goes (.arm false 8 0 0 false false true) a2 [8] (arrival 0 0 0 0 []) (fun k => (word0 k).isSome && isOk k.publish) = true
    ∧ goes (.arrv false 0 2 false false) ab [] (arrival 9 0 0 1 [(2, 5)]) (fun k => (word0 k).isSome && isOk k.publish) = true
    ∧ goes (.arwait false 8 0 2 false false) ab [8] (arrival 9 0 3 1 [(2, 3)]) (fun k => (word0 k).map (·.gen) == some 3) = true
    ∧ goes (.arwait false 8 0 2 false false) ab [8] (arrival 9 0 4 1 [(2, 3)]) (fun k => (word0 k).map (·.gen) == some 4) = true
    ∧ goes (.arread false 8 0 false) a2 [8, 9, 10, 11] (arrival 9 0 4 1 []) (fun k => (word0 k).isSome && isOk k.publish) = true
    ∧ armStep ⟨0, 0, 0, 0⟩ false 5 0 = (0, ⟨5, 0, 0, 1⟩) ∧ (armStep ⟨0, 2, 0, 0⟩ false 5 0).1 = 1 := by decide +kernel

theorem test_arrivals_add_up :
    arr0 (arrivalAdd (arrival 9 2 4 0 [] (at_ (.nop false))) 2 32 5 0) = some ⟨9, 7, 4, 0⟩
    ∧ arr0 (arrivalAdd (arrival 9 2 4 1 [] (at_ (.nop false))) 2 32 5 0) = some ⟨9, 7, 4, 1⟩
    ∧ arr0 (arrivalAdd (arrival 9 2 4 1 [] (at_ (.nop false))) 2 32 7 0) = some ⟨9, 0, 5, 1⟩
    ∧ (arr0 (arrivalAdd (arrival 9 2 4 1 [] (at_ (.nop false))) 2 32 8 0)).map (fun w => (w.count, w.gen, w.flags.testBit 1)) = some (0, 5, true) := by
  decide +kernel

/-- Queue 7 is enabled for seal 0 and holds entries and waiters. -/
def queued (es : List DWord) (ws : List Nat) (s : State) : State := regs [(0, 7)] (setQueue s 7 { en := true, entries := es, waiters := ws })

/-- The queue the word names. -/
def queue0 (k : Ctx) : Option Machine.Queue :=
  match queueFor k (k.th.reg 0) with
  | .ok q => some q
  | .error _ => none

theorem test_queues :
    goes (.qpush false 8 0 2 false false) [⟨0, 1, false⟩, ⟨2, 2, false⟩] [8] (queued [] []) (fun k => (queue0 k).any (·.entries.length < 64) && isOk k.publish) = true
    ∧ goes (.qpush false 8 0 2 false false) [⟨0, 1, false⟩, ⟨2, 2, false⟩] [8] (queued (List.replicate 64 0) []) (fun k => (queue0 k).any (64 ≤ ·.entries.length)) = true
    ∧ goes (.qpop false 8 0 false) a1 [8, 9] (queued [4] []) (fun k => (queue0 k).any (·.entries == [4])) = true
    ∧ goes (.qpop false 8 0 false) a1 [8, 9] (queued [] []) (fun k => (queue0 k).any (·.entries == [])) = true
    ∧ goes (.qtry false 8 0 false) a1 [8, 9, 10, 11] (queued [4] []) (fun k => (queue0 k).any (·.entries == [4])) = true
    ∧ goes (.qtry false 8 0 false) a1 [8, 9, 10, 11] (queued [] [9]) (fun k => (queue0 k).any (·.waiters == [9])) = true
    ∧ goes (.qlen false 8 0 false) a1 [8] (queued [] [9]) (fun k => (queue0 k).isSome) = true
    ∧ (queueOf (queuePush (queued [4] [] (at_ (.nop false))) 7 6 0) 7).entries = [4, 6]
    ∧ (queueOf (queuePush (queued [] [1, 9] (at_ (.nop false))) 7 6 0) 7).waiters = [9] := by decide +kernel

/-- A launch record with a range of 10 in chunks of 4. -/
def ranged : LaunchRecord := { parseRecord [] with dbegin := 0, dend := 10, dchunk := 4, dorder := 0 }

theorem test_distributors :
    (let s := { at_ (.dist false 8 0 false false) with grids := [(0, { lr := ranged, buffers := [], arrivals := [], image := none, pts := 0 })] }
     (nextAnswer s 2).1 = 4 * 2 ^ 32 ∧ (grid? (nextAnswer s 2).2 0).map (·.chunk) = some 1)
    ∧ chunkAnswer ranged 2 = 2 * 2 ^ 32 + 8 ∧ chunkAnswer ranged 3 = 2 ^ 63 + 10
    ∧ goes (.dist false 0 0 false true) a2 [] (pointed 0xF0 0 []) (fun k =>
        isOk (checkAccess k.s k.t k.th k.iw (k.th.reg64 0) 8 8 .store true [0xF0] false)) = true
    ∧ next (exec (.distributorAnswerStore 1 5) (flying 5 [] (.answer 2 16 [1, 2]) none))
        (fun s => (team? s 2).any (fun tm => tm.spad == [(16, 1), (17, 2)]) && (th1 s).counter 5 == 0) = true := by decide +kernel

/-- Buffer 0, the first 128 bytes of the scratchpad, in a state, and its record in g0, g1. -/
def buffered (st : Nat) (s : State) : State :=
  regs [(0, 0x04000000#32)] (tup (fun tm => { tm with buffers := [⟨0, 0, 128, st, [], 0⟩] }) s)

theorem test_buffers :
    goes (.sbset false 8 0 2 false) a2 [8] (buffered 0) (fun k => isOk (bufferFor k (k.th.reg64 0)) && isOk k.publish) = true
    ∧ goes (.sbqry false 8 0 false) a2 [8] (buffered 2) (fun k => isOk (bufferFor k (k.th.reg64 0))) = true
    ∧ next (exec (.sbset false 8 0 2 false) (buffered 0 (at_ (.sbset false 8 0 2 false))))
        (fun s => (team? s 2).any (fun tm => tm.buffers.map (·.state) == [2])) = true := by decide +kernel

/-! ### Engines -/

/-- A copy record at offset 64 of the scratchpad, and a pointer to it. -/
def recorded (src dst shape ctrl : Nat) (s : State) : State :=
  regs (ptr 0xF0 64) (inSpad 64 (leBytes 8 src ++ leBytes 8 dst ++ leBytes 8 shape ++ leBytes 4 ctrl ++ leBytes 4 0) (paged s))

/-- What the copy words' statement asks for holds of the record the pointer names. -/
def copyReady (opc : Nat) (k : Ctx) : Bool :=
  match recordOf k (k.th.reg64 0), k.publish with
  | .ok (off, tm), .ok s' =>
    let r := parseCopy (peek s' (.spad k.th.team off) 32)
    !touchesDeclared tm off 32 && copyAt k.s k.th.team off == none && recordOk opc r
      && (match shapeOf opc r.shape with
        | some sh => (match makeCopy k (fresh s').2 opc off tm r sh (fresh s').1 with
          | .ok c => (Machine.core (fresh s').2 c.core).locks.length + (c.entries.filter (fun e => entryCore (fresh s').2 c e == some c.core)).length ≤ 32
              && engineRoom (fresh s').2 c.engine
          | .error _ => false)
        | none => false)
  | _, _ => false

theorem test_copy_words_enter :
    goes (.cpy false 0 false) a2 [] (recorded 0x100 (0xF0 * 2 ^ 56 + 256) 128 (2 ^ 22)) (copyReady 0x280) = true
    ∧ goes (.cpy2d false 0 false) a2 [] (recorded 0x100 (0xF0 * 2 ^ 56 + 256) (2 + 64 * 2 ^ 16 + 8 * 2 ^ 32 + 4 * 2 ^ 48) (2 ^ 22)) (copyReady 0x281) = true
    ∧ goes (.cpym false 0 false) a2 [] (recorded 0x100 (0xF0 * 2 ^ 56 + 256) 128 (2 ^ 22 + 1)) (copyReady 0x282) = true
    ∧ goes (.cpyr false 0 false) a2 [] (recorded 0x100 0x1000 128 (2 ^ 26 + 2 ^ 22)) (copyReady 0x283) = true
    ∧ goes (.cpyf false 0 false) a2 [] (recorded 0x100 (0xF3 * 2 ^ 56) 128 (2 ^ 27 + 2 ^ 22)) (copyReady 0x286) = true
    ∧ goes (.cpy false 0 false) a2 [] (recorded 0x100 (0xF0 * 2 ^ 56 + 256) 128 (6 * 2 ^ 22)) (fun k => !copyReady 0x280 k && isOk k.publish) = true := by
  decide +kernel

/-- A live command of 8 bytes from 0x100 to the scratchpad, with its record at 64. -/
def command8 : CopyCmd :=
  { th := 1, team := 2, core := 0, engine := 0, sealId := 0, opc := 0x280, rec_ := 64, ctrl := 2 ^ 22, src := .glob 0x100, dst := .spad 2 256
    recvs := [], rowLen := 8, rows := 1, spitch := 0, dpitch := 0, arrs := [], srcBuf := none, dstBufs := [], entries := [], pts := 0 }

/-- The command, with changes, numbered 7. -/
def copying (f : CopyCmd → CopyCmd) (s : State) : State := { s with copies := [(7, f command8)], nextId := 9 }

theorem test_copy_queries :
    goes (.cpyq false 8 0 false) a2 [8, 9] (fun s => copying id (recorded 0 0 0 0 s)) (fun k => (copyAt k.s k.th.team 64).isSome) = true
    ∧ goes (.cpyq false 8 0 false) a2 [8, 9] (recorded 0 0 0 (2 ^ 28)) (fun k => copyAt k.s k.th.team 64 == none && isOk (recordOf k (k.th.reg64 0))) = true
    ∧ goes (.cpyx false 8 0 false) a2 [8] (fun s => copying id (recorded 0 0 0 0 s)) (fun k =>
        (copyAt k.s k.th.team 64).any (fun p => p.2.flying.all (fun b => b.remote == none && !b.begun))) = true
    ∧ goes (.cpyx false 8 0 false) a2 [8] (recorded 0 0 0 0) (fun k => copyAt k.s k.th.team 64 == none) = true
    ∧ goes (.rlqry false 8 0 false) a2 [8] (pointed 0xF2 0 []) (fun k => k.team.any (fun tm => fld (k.th.reg64 0) 0 20 < 1024 * tm.privKb)) = true
    ∧ goes (.rlqry false 8 0 false) a2 [8] (pointed 0xF0 0 []) (fun k => k.team.any (fun tm => isOk (endpointOf k tm (k.th.reg64 0) 1 1 allWindows))) = true
    ∧ goes (.rlqry false 8 0 false) a2 [8] (pointed 0 0 []) (fun k => k.team.any (fun tm => isOk (endpointOf k tm (k.th.reg64 0) 1 1 allWindows))) = true := by
  decide +kernel

/-- Its first burst, with the source's bytes read. -/
def inFlight : Burst :=
  { at_ := 0, len := 8, src := .glob 0x100, srcAcc := [], got := some [0, 0, 0, 0, 9, 0, 0, 0]
    dsts := [(.spad 2 256, [{ loc := .spad 2 256, len := 8, strong := false, cattr := 0, pageW := true, pageSeal := 0 }])] }

theorem test_copy_commands_go_on :
    (let s := copying id (at_ (.nop false))
     missingEntries s command8 = [] ∧ copyAway s command8 = false
     ∧ next (exec (.copyRegistration 7) s) (fun s => s.copies.map (·.2.registered) == [true]) = true
     ∧ next (exec (.copyCommandStart 7) s) (fun s => s.copies.map (·.2.started) == [true]) = true)
    ∧ (let s := copying (fun c => { c with started := true, registered := true }) (paged (at_ (.nop false)))
       next (exec (.copyBurst ⟨7, 0⟩) s) (fun s => s.copies.map (fun c => (c.2.cursor, c.2.flying.length)) == [(8, 0)] && (team? s 2).any (fun tm => tm.granules.contains 16)) = true)
    ∧ (let s := copying (fun c => { c with started := true, cursor := 8 }) (at_ (.nop false))
       next (exec (.copyCommandEnd 7) s) (fun s => s.copies == [] && (team? s 2).any (fun tm => tm.spad == [(90, 0x40), (91, 0x10), (92, 8)])) = true)
    ∧ (let s := copying (fun c => { c with started := true, ending := some 2 }) (at_ (.nop false))
       next (exec (.copyCommandEnd 7) s) (fun s => s.copies == []) = true)
    ∧ next (exec (.rangeLockEntryTaken 7 0) (copying id (at_ (.nop false)))) (fun s => s.copies.length == 1) = true
    ∧ (let s := copying (fun c => { c with started := true, flying := [inFlight] }) (at_ (.nop false))
       next (exec (.copyBurst ⟨7, 0⟩) s) (fun s => s.copies.map (fun c => (c.2.cursor, c.2.flying)) == [(8, [])]
         && (team? s 2).any (fun tm => tm.spad == [(260, 9)])) = true)
    ∧ (let s := copying (fun c => { c with started := true, flying := [{ inFlight with at_ := 8, dsts := [], got := none }] }) (at_ (.nop false))
       next (exec (.copyBurst ⟨7, 0⟩) s) (fun s => s.copies.map (·.2.cursor) == [16]) = true)
    ∧ (let s := copying (fun c => { c with started := true, src := .spad 2 0 }) (at_ (.nop false))
       (startBurst s 7 { command8 with started := true, src := .spad 2 0 }).copies.map (fun c => c.2.flying.map (·.dsts.length)) = [[1]])
    ∧ (delivered (copying (fun c => { c with flying := [inFlight] }) (at_ (.nop false))) 7 0 8 (.spad 2 256)).copies.map
        (fun c => c.2.flying.map (fun b => (b.begun, b.dsts))) = [[(true, [])]]
    ∧ popDone 0 [{ inFlight with dsts := [] }, { inFlight with at_ := 8 }] = (8, [{ inFlight with at_ := 8 }])
    ∧ next (exec (.copyCommandEnd 7) (copying (fun c => { c with ending := some 7, flying := [inFlight] }) (at_ (.nop false))))
        (fun s => s.copies == []) = true
    ∧ engineRoom (copying id (at_ (.nop false))) 0 = true := by decide +kernel

/-- A feed descriptor of group `g` at offset 64, with a pointer to it. -/
def described (g : Nat) (s : State) : State :=
  regs (ptr 0xF0 64) (inSpad 64 (leBytes 56 0x8000 ++ leBytes 8 g) (paged s))

/-- A feed context of team 2, and changes to it. -/
def feeding (f : Feed → Feed) (s : State) : State := { s with feeds := [(0, f (probeFeed 2))] }

theorem test_feed_words :
    goes (.fdstart false 8 0 false) a2 [8] (described 0) (fun k => isOk k.publish && freeFeed k.s 0 == some 0
        && isOk (checkAccess k.s k.t k.th k.iw (k.th.reg64 0) 64 64 .load false [0xF0] false)) = true
    ∧ goes (.fdstart false 8 0 false) a2 [8] (described 1) (fun k => isOk k.publish) = true
    ∧ goes (.fdstart false 8 0 false) a2 [8] (fun s => { described 0 s with feeds := (List.range 8).map (fun i => (i, probeFeed 2)) })
        (fun k => freeFeed k.s 0 == none) = true
    ∧ goes (.fdstop false 8 0) [] [8] (feeding id) (fun k => (kget? k.s.feeds 0).any (fun f => f.team == 2 && f.running && f.remote == none)) = true
    ∧ goes (.fdstop false 8 0) [] [8] (feeding (fun f => { f with team := 3 })) (fun _ => true) = true
    ∧ goes (.fdstop false 8 0) [] [8] id (fun k => kget? k.s.feeds 0 == none) = true
    ∧ goes (.fdstat false 8 0 false) a1 [8, 9] (feeding id) (fun _ => true) = true
    ∧ goes (.fdstat false 8 0 false) a1 [8, 9] (feeding (fun f => { f with team := 3 })) (fun _ => true) = true
    ∧ goes (.fdstat false 8 0 false) a1 [8, 9] (regs [(0, 8)]) (fun _ => true) = true := by decide +kernel

/-- The feed context is at the word, on the core it belongs to. -/
def feedAt (f : Feed → Feed) (s : State) : State := { feeding f s with curFeed := some (0, 0) }

/-- Feed context 0. -/
def feed0 (s : State) : Feed := (kget? s.feeds 0).getD (probeFeed 0)

theorem test_feed_loops :
    next (exec (.floop 0 0 3) (feedAt id (at_ (.nop false)))) (fun s => (feed0 s).loops == [⟨1, 0, 3⟩] && (feed0 s).at_ == 1) = true
    ∧ next (exec (.floop 1 0 3) (feedAt id (at_ (.nop false)))) (fun s => (feed0 s).skip == 1) = true
    ∧ next (exec (.floop 0 0 3) (feedAt (fun f => { f with loops := List.replicate 4 ⟨1, 0, 3⟩ }) (at_ (.nop false)))) (fun s => (feed0 s).state == 6) = true
    ∧ next (exec .fend (feedAt (fun f => { f with loops := [⟨1, 0, 3⟩], at_ := 5 }) (at_ (.nop false)))) (fun s => (feed0 s).at_ == 1 && (feed0 s).loops == [⟨1, 1, 3⟩]) = true
    ∧ next (exec .fend (feedAt (fun f => { f with loops := [⟨1, 2, 3⟩], at_ := 5 }) (at_ (.nop false)))) (fun s => (feed0 s).at_ == 6 && (feed0 s).loops == []) = true
    ∧ next (exec .fend (feedAt id (at_ (.nop false)))) (fun s => (feed0 s).state == 6) = true
    ∧ next (exec (.faddr 1 2 1 0xFFFF) (feedAt id (at_ (.nop false)))) (fun s => (feed0 s).strides == [(6, -4)]) = true
    ∧ next (exec .fstop (feedAt id (at_ (.nop false)))) (fun s => (feed0 s).state == 4) = true := by decide +kernel

theorem test_feed_pushes :
    next (exec (.fpush 0 3 2 false 0) (feedAt (fun f => { f with bases := [0x8000, 0, 0, 0] }) (headed (at_ (.nop false)))))
        (fun s => (team? s 2).any (fun tm => tm.port 0 3 == [0xC103FFFF])) = true
    ∧ next (exec (.fpush 0 3 2 false 0) (feedAt id (tup (fun tm => { tm with ports := [(gkey 0 3, List.replicate 16 0)] }) (at_ (.nop false)))))
        (fun s => (feed0 s).state == 2) = true
    ∧ next (exec (.fpushk 0 0 0) (feedAt (fun f => { f with bases := [0x8000, 0, 0, 0] }) (headed (at_ (.nop false)))))
        (fun s => (team? s 2).any (fun tm => tm.tile 0 0 == memOf 0 (leBytes 4 0xC103FFFF))) = true
    ∧ next (exec (.fpermitQueue 3 4) (feedAt id (at_ (.nop false)))) (fun s => (team? s 2).any (fun tm => tm.portReserved == [(gkey 0 3, 4)])) = true
    ∧ next (exec (.fpermitBuffer 0) (feedAt id (buffered 2 (at_ (.nop false))))) (fun s => (feed0 s).at_ == 1) = true
    ∧ next (exec (.fpermitBuffer 0) (feedAt id (buffered 0 (at_ (.nop false))))) (fun s => (feed0 s).state == 2) = true
    ∧ next (exec (.fsync false 0) (feedAt id (at_ (.nop false)))) (fun s => (feed0 s).at_ == 1) = true
    ∧ next (exec (.fsync true 0) (feedAt (fun f => { f with reads := [(2, 0)] }) (buffered 2 (at_ (.nop false))))) (fun s => (feed0 s).reads == []) = true
    ∧ (match team? (tup (fun tm => { tm with openFills := [⟨0, 0, 2, 5⟩] }) (at_ (.nop false))) 2 with
        | some tm => (openFill tm { probeFeed 2 with id := 0 } 2).isSome && (openFill tm { probeFeed 2 with id := 0 } 3).isNone
        | none => false) = true := by
  decide +kernel

/-- A team of four groups whose quad is a matrix quad. -/
def quadTeam : State → State := tup (fun tm => { tm with quad := true, groups := 4 })

/-- A parameter block of one column and one step in g0 to g7. -/
def block : List (Nat × Word) := [(0, 0), (1, 0x00010001#32), (2, 0), (3, 0x04040404#32), (4, 0), (5, 0), (6, 3), (7, 0)]

/-- A range of memory at the pointer passes its checks on this package. -/
def spans (len align : Nat) (kind : AccKind) (g : Bool) (wins : List Nat) (k : Ctx) : Bool :=
  !memHeld k.th && (match checkRange k.s k.t k.th k.iw (k.th.reg64 0) len align kind g wins true with
    | .ok as_ => !rangeRemote as_ && remoteSpan as_ == none
        && (coreMtx (as_.foldl (fun s a => noteRegion s k.th a) k.s) (coreOf k.s k.th)).length < 32
    | .error _ => false)

/-- The steps of a tile load or store before its tile's check pass. -/
def early (store : Bool) (k : Ctx) : Bool := (stepsOneTwo k (k.th.reg64 0) store [0x00, 0xE0, 0xF0, 0xF1, 0xF2]).isNone

theorem test_tile_words :
    goes (.kld false 0 0 false) a2 [] (pointed 0 0x100 []) (fun k => spans 2048 128 .load false [0x00, 0xE0, 0xF0, 0xF1, 0xF2, 0xF3] k && early false k) = true
    ∧ goes (.kbld false 0 0 false) a2 [] (pointed 0 0x100 []) (fun k => spans 1024 128 .load false [0x00, 0xE0, 0xF0, 0xF1, 0xF2, 0xF3] k && early false k) = true
    ∧ goes (.kst false 0 0 false) a2 [] (pointed 0 0x100 []) (fun k => spans 2048 128 .store false [0x00, 0xE0, 0xF0, 0xF1, 0xF2] k && early true k) = true
    ∧ goes (.kbst false 0 0 false) a2 [] (pointed 0 0x100 []) (fun k => spans 1024 128 .store false [0x00, 0xE0, 0xF0, 0xF1, 0xF2] k && early true k) = true
    ∧ goes (.kld false 5 0 false) a2 [] (fun s => tup (fun tm => { tm with tiles := 4 }) (pointed 0 0x100 [] s)) (fun k => early false k && k.granted ≤ 5) = true
    ∧ goes (.accspl false 0 false false) a2 [] (pointed 0 0x100 []) (spans 32768 128 .put false [0x00, 0xF0]) = true
    ∧ goes (.accfil false 0 false false) a2 [] (pointed 0 0x100 []) (spans 32768 128 .load false [0x00, 0xF0]) = true
    ∧ goes (.kzero false 2 1 false) [] [] id (fun k => 4 ≤ k.granted) = true ∧ goes (.kzero false 2 0 true) [] [] id (fun k => 2 < k.granted) = true
    ∧ goes (.kcvt false 4 0 2 false false) [⟨2, 2, false⟩] [] id (fun k => kcvtOk (k.th.reg 2).toNat
        && spanOverlap 0 (spanOf (imageSize 0 (kFor 0) false)) 4 (spanOf (imageSize 0 (kFor 0) false)) == none
        && 4 + spanOf (imageSize 0 (kFor 0) false) ≤ k.granted) = true
    ∧ goes (.kcvt false 4 0 2 false false) [⟨2, 2, false⟩] [] (regs [(2, 0xF#32)]) (fun k => !kcvtOk (k.th.reg 2).toNat) = true
    ∧ goes (.kbmp false 0 0 2 false false) [⟨2, 1, false⟩] [] id (fun k => (k.th.reg 2).toNat ≤ 8) = true
    ∧ goes (.kbmp false 0 0 2 false false) [⟨2, 1, false⟩] [] (regs [(2, 9)]) (fun k => 8 < (k.th.reg 2).toNat) = true := by decide +kernel

theorem test_matrix_words :
    goes (.mmae false 0 false false) [⟨0, 8, false⟩] [] (fun s => regs block (quadTeam s)) (fun k =>
        k.team.any (fun tm => tm.quad && isOk (blockCheck k tm (k.th.octet 0)))) = true
    ∧ goes (.mmae false 0 false true) a2 [] (fun s => quadTeam (inSpad 64 (block.flatMap (fun p => leBytes 4 p.2.toNat)) (pointed 0xF0 64 [] s)))
        (fun k => k.team.any (fun tm => match checkAccess k.s k.t k.th k.iw (k.th.reg64 0) 32 32 .load false [0xF0] false with
          | .ok a => isOk (blockCheck k tm (readNow k.s k.t [a]).1)
          | .error _ => false)) = true
    ∧ goes (.mmac false 2 0 8 false false false) [⟨0, 1, false⟩, ⟨8, 8, false⟩] [] member2 (fun k => k.member 2 && !orderWaits k.s k.th) = true
    ∧ goes (.mmac false 2 0 8 false false false) [⟨0, 1, false⟩, ⟨8, 8, false⟩] [] id (fun k => !k.member 2) = true
    ∧ goes (.accz false false) [] [] id (fun _ => true) = true
    ∧ goes (.accrd false 8 0 2 false false true) ab [8] id (fun k => accrdOk (k.th.reg 0).toNat (k.th.reg 2).toNat true) = true
    ∧ goes (.accrd false 8 0 2 false false true) ab [8] (regs [(2, 2)]) (fun k => !accrdOk (k.th.reg 0).toNat (k.th.reg 2).toNat true) = true
    ∧ goes (.mqry false 8 0 false) a1 [8] id (fun k => k.team.isSome) = true
    ∧ goes (.mqry false 8 0 false) a1 [8] (regs [(0, 1)]) (fun k => k.team.isSome) = true
    ∧ goes (.mqry false 8 0 false) a1 [8] (regs [(0, 17)]) (fun k => k.team.isSome && (coreMtx k.s (coreOf k.s k.th)).length < 32) = true := by decide +kernel

/-- An operation numbered 7 of thread 1, whose counter 3 it holds. -/
def running (kind : MtxKind) (data : Option (List Byte)) (dests : List Nat) : State :=
  { flying 3 dests (.unit 7) none with
    mtx := [(7, { team := 2, quad := 0, kind := kind, parts := [1], reads := [], writes := [], sealId := 0, pts := 0, data := data })]
    cores := [(0, { set0 := { holder := some (2, 0) } })] }

theorem test_operations_end :
    (readyOp (running (.zero false 0 2 1) none []) 0 7).isSome = true
    ∧ next (exec (.mtxOperationComplete 0 7) (running (.load false 0 2) (some [5]) []))
        (fun s => (team? s 2).any (fun tm => tm.tile 0 2 == [(0, 5)]) && s.mtx == [] && (th1 s).counter 3 == 0) = true
    ∧ (readyOp (running (.zero true 0 2 1) none []) 0 7).isSome = true
    ∧ next (exec (.mtxOperationComplete 0 7) (running (.accz 0) none [])) (fun s => s.mtx == []) = true
    ∧ next (exec (.mtxOperationComplete 0 7) (running (.accrdReg 0 0 0 false 0 0) none [8])) (fun s => (th1 s).mapped 8 && s.mtx == []) = true
    ∧ (readyOp (running (.mma (parseBlock (block.flatMap (fun p => leBytes 4 p.2.toNat)))) none []) 0 7).isSome = true
    ∧ readyOp (at_ (.nop false)) 0 7 = none ∧ waitingBank (at_ (.nop false)) 0 false = none
    ∧ (let s := { running (.accz 0) none [] with cores := [(0, { set0 := { holder := some (3, 1) } })] }
       let s := { s with mtx := s.mtx.map (fun p => (p.1, { p.2 with onSet := some false })) }
       waitingBank s 0 false = some (7, 2, 0) ∧ setLost s 0 false = false
       ∧ next (exec (.bankSpill 0 0) s) (fun s => (Machine.core s 0).set0.holder == some (2, 0)) = true
       ∧ (let s' := { s with mtx := s.mtx.map (fun p => (8, { p.2 with team := 3, quad := 0, kind := .accz 1 })) ++ s.mtx }
          next (exec (.bankSpill 0 0) s') (fun s => (Machine.core s 0).set0.holder == some (3, 1)) = true))
    ∧ (spillBank (at_ (.nop false)) 2 1).teams.map (fun p => (p.2.bank 0 1).spilled) = [true] := by decide +kernel

/-! ### Passes -/

/-- A record of one strip of one tile. -/
def record1 (kind : Nat) : PassRecord :=
  { bins := 0x4000, pool := 0x5000, chunks := 0x6000, npool := 4, nchunk := 4, ring := 0, cmt := false, kind := kind, width := 32
    frame := 0, strip0 := 0, nstrip := 1, sh := 8, nsub := 1, clear := 0, opthr := 0x3F800000 }

/-- A live pass of seal 0 whose record stands at 0x200. -/
def pass1 (kind : Nat) : Pass := { va := 0x200, pa := 0x200, sealId := 0, station := 0, slot := 0, r := record1 kind, pts := 0 }

/-- Pass 7, with changes; g0 points to 0x100 and g2 to its record. -/
def passing (kind : Nat) (f : Pass → Pass) (more : List (Nat × Word)) (s : State) : State :=
  { pointed 0 0x100 ([(2, 0x200), (3, 0)] ++ more) s with passes := [(7, f (pass1 kind))], nextId := 9 }

/-- The submission at g0 and g2 reaches the pass with its record read. -/
def submits (kind : Nat) (k : Ctx) : Option Nat :=
  match checkRange k.s k.t k.th k.iw (k.th.reg64 0) 64 64 .load false [0x00, 0xF0] false with
  | .ok as_ =>
    let r := readNow k.s k.t as_
    if (recordAddr k 2).isSome || primBad kind r.1 then none
    else (match passFor k r.2 2 kind with
      | .ok (n, _) => some n
      | .error _ => none)
  | .error _ => none

def aabb : List Src := [⟨0, 2, false⟩, ⟨2, 2, false⟩]

theorem test_submissions :
    goes (.pbin false 8 0 2 false false) aabb [8] (passing 0 id []) (fun k => submits 0 k == some 15) = true
    ∧ goes (.splat false 8 0 2 false false) aabb [8] (passing 1 id []) (fun k => submits 1 k == some 15) = true
    ∧ goes (.pbin false 8 0 2 false false) aabb [8] (passing 1 id []) (fun k => submits 0 k == some 5) = true
    ∧ (let k := ctx1 (passing 0 id [] (at_ (.nop false)))
       (submit k.s k 7 { pass1 0 with sealId := 4 } 0 []).1 = 6 ∧ (submit k.s k 7 { pass1 0 with closed := true } 0 []).1 = 3
       ∧ (submit k.s k 7 (pass1 0) 0 (List.replicate 64 0)).1 = 1)
    ∧ (let k := ctx1 (up (fun th => { th with rasterPass := some 8 }) (passing 0 id [] (at_ (.nop false))))
       (submit k.s k 7 (pass1 0) 0 []).1 = 7)
    ∧ next (exec (.pbend false) (up (fun th => { th with rasterPass := some 7 }) (passing 0 id [] (at_ (.pbend false)))))
        (fun s => (th1 s).rasterPass == none && s.passes.map (·.2.nend) == [1]) = true
    ∧ next (exec (.splatend false) (up (fun th => { th with stipplePass := some 7 }) (passing 1 id [] (at_ (.splatend false)))))
        (fun s => (th1 s).stipplePass == none) = true := by decide +kernel

/-- The pass of g0's record is of the thread's seal. -/
def passAt0 (kind : Nat) (p : Pass → Bool) (k : Ctx) : Bool :=
  match passOfSeal k 0 kind with
  | .ok (_, q) => p q
  | .error _ => false

/-- As `passing`, with g0 pointing to the record and a value in g2. -/
def ofPass (kind : Nat) (f : Pass → Pass) (v : Nat) (s : State) : State :=
  { pointed 0 0x200 [(2, wordN v)] s with passes := [(7, f (pass1 kind))], nextId := 9 }

/-- A pass with a fragment of a triangle handed out to thread 1. -/
def handed (p : Pass) : Pass :=
  { p with closed := true, prims := [List.replicate 48 0 ++ [1] ++ List.replicate 15 0]
           tiles := [(0, { own := List.replicate 256 1, frags := some [⟨0, 0, 0, 0, 1, 0⟩], handed := 1 })], out := [(0, (⟨0, 0, 0, 0, 1, 0⟩, 1))] }

/-- Its handle is in g0 and a value in g2. -/
def handle0 (v : Nat) (s : State) : State := { pointed 0 0 [(2, wordN v)] s with passes := [(7, handed (pass1 0))], nextId := 9 }

theorem test_fragment_words :
    goes (.hsrnext false 8 0 2 false false) [⟨0, 2, false⟩, ⟨2, 1, false⟩] [8, 9, 10, 11] (ofPass 0 id 0) (passAt0 0 (fun p => !p.finished && 0 < p.r.nstrip)) = true
    ∧ goes (.hsrnext false 8 0 2 false false) [⟨0, 2, false⟩, ⟨2, 1, false⟩] [8, 9, 10, 11] (ofPass 0 (fun p => { p with finished := true }) 0) (passAt0 0 (·.finished)) = true
    ∧ goes (.hsrnext false 8 0 2 false false) [⟨0, 2, false⟩, ⟨2, 1, false⟩] [8, 9, 10, 11] (ofPass 0 id 1) (passAt0 0 (·.r.nstrip ≤ 1)) = true
    ∧ goes (.ipa false 8 0 2 false false false) ab [8] (handle0 0) (fun k => (handleOf k.s (k.th.reg 0).toNat).any (fun h =>
          !h.2.1.asksBefore k.t k.th.seq && 0 < bfld (nthD h.2.1.prims h.2.2.2.1.prim []) 48 1)
        && isOk (checkRange k.s k.t k.th k.iw 0 12 4 .load false [0x00] true)) = true
    ∧ goes (.ipa false 8 0 2 false false false) ab [8] id (fun k => (handleOf k.s (k.th.reg 0).toNat).isNone) = true
    ∧ goes (.fragw false 0 2 false false) ab [] (handle0 5) (fun k => (handleOf k.s (k.th.reg 0).toNat).any (fun h =>
        h.2.1.sealId == 0 && !h.2.1.asksBefore k.t k.th.seq)) = true
    ∧ goes (.stiprun false 8 0 2 false false) [⟨0, 2, false⟩, ⟨2, 1, false⟩] [8] (ofPass 1 id 0) (fun k => passAt0 1 (fun p => !p.finished && 0 < p.r.tps) k
        && stipUsed k.s 0 k.t < 64) = true
    ∧ goes (.stiprd false 8 0 false) a1 [8, 9, 10, 11] (fun s => { s with stips := [(1, ⟨0, [(1, 2, 3, 4)]⟩)] }) (fun k =>
        (kget? k.s.stips k.t).any (fun r => r.px[(k.th.reg 0).toNat]?.isSome)) = true
    ∧ goes (.stiprd false 8 0 false) a1 [8, 9, 10, 11] id (fun k => (kget? k.s.stips k.t).isNone) = true := by decide +kernel

theorem test_pass_units :
    next (exec (.primitiveBinning 7) (passing 0 (fun p => { p with writes := [(0x6000, [5])] }) [] (at_ (.nop false))))
        (fun s => s.passes.map (·.2.writes) == [[]]) = true
    ∧ { pass1 0 with closing := true }.zeroEmpty.writes = [(0x4000, leBytes 8 0)]
    ∧ (tileIntact (draw (passing 0 (fun p => { p with closed := true }) [] (at_ (.nop false))) 1024).2 { pass1 0 with closed := true } 0
        && next (exec (.hsrTileResolution 7 0 0) (passing 0 (fun p => { p with closed := true }) [] (at_ (.nop false))))
          (fun s => s.passes.any (fun p => (kget? p.2.tiles 0).any (fun t => t.own == List.replicate 256 0)))) = true := by decide +kernel

/-! ### Rays -/

/-- Thread 1's ray in slot 0 with generation 1, numbered 7, and its handle in g0. -/
def raying (f : Ray → Ray) (more : List (Nat × Word)) (s : State) : State :=
  { regs ([(0, 0x100)] ++ more) s with rays := [(7, f { owner := 1, slot := 0, gen := 1, words := List.replicate 16 0 })], nextId := 9 }

/-- The ray in g0 meets a test. -/
def ray0 (p : Ray → Bool) (k : Ctx) : Bool := (rayOf k.s k.t (k.th.reg 0).toNat).any (fun r => p r.2)

/-- A ray from the origin along z, to a distance of 1, at a node at 0x8000. -/
def rayWords : List Word := [0, 0, 0, 0, 0, 0x3F800000, 0, 0x3F800000, 0x8000, 0, 0, 0, 0, 0, 0, 0]

/-- A hit. -/
def hit0 : RayHit := { t := 0x3F000000, u := 0, v := 0, prim := 3, geom := 0, kind := 0, instId := 0, addr := 0x9000 }

/-- A callback for it, run by thread `t`. -/
def call0 (t : Option Nat) : RayCall :=
  { isect := false, hit := hit0, code := 0, budget := 8, privKb := 0, map := 3, arg := 0, o := [], d := [], th := t }

theorem test_ray_words :
    goes (.raynew false 8 0 false) a2 [8] (pointed 0 0x100 []) (fun k => raysAt k.s 0 + lostEntries k.s 0x0E 0 < 4096
        && isOk (checkRange k.s k.t k.th k.iw (k.th.reg64 0) 64 64 .load false [0x00, 0xF0] false)) = true
    ∧ goes (.raynew false 8 0 false) a2 [8] (fun s => { pointed 0 0x100 [] s with
        rays := (List.range 32).map (fun i => (i, { owner := 1, slot := i, gen := 1, words := [] })) }) (fun _ => true) = true
    ∧ goes (.rayset false 3 0 2 false false) ab [] (raying id []) (ray0 (·.state == 0)) = true
    ∧ goes (.raygo false 0 false) a1 [] (raying (fun r => { r with words := rayWords }) []) (fun k => ray0 (fun r => !r.recordBad && (invalidRay (r.words.map (·.toNat))).isNone) k && isOk k.publish) = true
    ∧ goes (.raygo false 0 false) a1 [] (raying (fun r => { r with state := 1 }) []) (ray0 (·.state == 1)) = true
    ∧ goes (.raywait false 8 0 false) a1 [8] (raying (fun r => { r with state := 3 }) []) (ray0 (·.state == 3)) = true
    ∧ goes (.raywait false 8 0 false) a1 [8] (raying (fun r => { r with state := 1 }) []) (ray0 (·.state == 1)) = true
    ∧ goes (.rayget false 8 0 2 false false) ab [8] (raying (fun r => { r with state := 3, hit := some hit0 }) [(2, 3)]) (ray0 (·.field 3 == 3)) = true
    ∧ goes (.rayfree false 0 false) a1 [] (raying id []) (ray0 (fun _ => true)) = true
    ∧ goes (.rayfree false 0 false) a1 [] id (fun k => (rayOf k.s k.t (k.th.reg 0).toNat).isNone) = true
    ∧ goes (.verdict false 0 2 false false) ab [] (up (fun th => { th with callback := some 7 })) (fun k => isOk k.publish) = true
    ∧ goes (.verdict false 0 2 false false) ab [] id (fun k => k.th.callback.isNone) = true
    ∧ goes (.raycb false 8 0 false) a1 [8] (up (fun th => { th with callback := some 7 })) (fun k => (k.th.reg 0).toNat < 12) = true
    ∧ goes (.raycb false 8 0 false) a1 [8] id (fun k => k.th.callback.isNone) = true := by decide +kernel

theorem test_ray_units :
    next (exec (.rayTraversalStep 7) (raying (fun r => { r with state := 1 }) [] (at_ (.nop false)))) (fun s => s.rays.map (fun p => (p.2.state, p.2.status)) == [(3, 1)]) = true
    ∧ next (exec (.rayTraversalStep 7) (raying (fun r => { r with state := 1, hit := some hit0 }) [] (at_ (.nop false))))
        (fun s => s.rays.map (fun p => (p.2.state, p.2.status)) == [(3, 0)]) = true
    ∧ next (exec (.rayTraversalStep 7) (raying id [] (at_ (.nop false)))) (fun s => s.rays.map (·.2.state) == [0]) = true
    ∧ next (exec (.callbackStart 7) (up (fun th => { th with evicted := true }) (raying (fun r => { r with state := 2, call := some (call0 none) }) [] (at_ (.nop false)))))
        (fun s => s.rays.map (fun p => p.2.call.any (·.th.isNone)) == [true]) = true
    ∧ (let s := { raying (fun r => { r with state := 2, call := some (call0 none) }) [] (at_ (.nop false)) with nextId := 20 }
       callbacksAt s 0 = 0 ∧ callbackCore s (call0 none) 0 = some 0 ∧ s.threads.all (fun p => p.2.team != 21) = true
       ∧ next (exec (.callbackStart 7) s) (fun s => (thread? s 22).any (fun h => h.callback == some 7 && h.pc == 0 && h.budget == 8
           && (h.reg 0, h.reg 2) == (0x100, 3) && h.team == 21)
         && s.rays.map (fun p => (p.2.calls, p.2.call.any (·.th == some 22))) == [(1, true)]) = true)
    ∧ (let s := raying (fun r => { r with state := 2, call := some (call0 (some 1)) }) [] (at_ (.nop false))
       (applyVerdict s 7 1 1 0).rays.map (fun p => (p.2.state, p.2.call.isSome)) = [(1, false)]
       ∧ (applyVerdict s 7 1 2 0).rays.map (fun p => (p.2.state, p.2.status, p.2.hit)) = [(3, 0, some hit0)]) := by decide +kernel

/-! ### Time and strips -/

/-- Two strips of four lines of two pixels, rendered to ring 0 (and, with a factor, from ring 1). -/
def video1 (factor : Nat) : Video :=
  { forigin := 1000, lper := 2 ^ 16, tlines := 16, vstart := 0, vact := 8, hact := 2, guard := 10, window := 100, ring := 0, sh := 4, chain := 0
    factor := factor, halo := 0, loring := 1, keyint := 0, qbase := 0, tenb := false, loStrips := 1 }

/-- A template of seal 0 with one slice. -/
def template1 : Template := { sealId := 0, map := 3, claims := [], slices := [], bsbase := 0, bssize := 0 }

/-- The chain of strip 0 of frame 0 of an output's first arming. -/
def chain1 (factor : Nat) : Chain :=
  { out := 0, arm := 1, video := video1 factor, frame := 0, k := 0, seqNo := 0, t := 1000, f := 990, s := 890, sealId := 0, tpl := template1, lo := some 0, slices := [⟨some 2, some 5, false⟩], pts := 0 }

/-- Output 0 in use, its rings of two slots, and their slots in a state. -/
def shown (factor st : Nat) (s : State) : State :=
  let slots : KMap Slot := [(0, { state := st, frame := 0, strip := 0 })]
  { s with
    outputs := [(0, { video := some (video1 factor), tpl := some template1, armed := true, link := true, arming := 1
                      nextChain := (0, 1), scans := [⟨1, video1 factor, 0, (0, 0), none⟩] })]
    reservoir := [(0, { en := true, w0 := 2 * 2 ^ 16, w4 := 4 * 2 ^ 16 + 2, slots := slots }), (1, { en := true, w0 := 2 * 2 ^ 16, w4 := 4 * 2 ^ 16 + 2, slots := slots })] }

/-- Thread 1's team is a slice of that chain. -/
def slicing (factor st : Nat) (more : List (Nat × Word)) (s : State) : State :=
  let s := shown factor st (regs more (tup (fun tm => { tm with slice := some 5, chain := some 6, buffers := [⟨0, 0, 128, 2, [], 0⟩] }) s))
  { s with
    chains := [(6, chain1 factor)]
    jobs := [(5, { team := 2, chain := some 6, idx := 0, out := 0, frame := 0, strip := 0, deadline := some 990, budget := 100 })]
    ladders := [{ ring := 0, frame := 0, strip := 0, rung := 1, base := 0, floor := 4, finish := 990, total := 1 }] }

/-- The chain's strip on the ring g0 names, in a slot that meets a test. -/
def strip0 (p : Slot → Bool) (k : Ctx) : Bool :=
  k.chain.any (fun c => (stripOn k c (k.th.reg 0).toNat).any (fun σ =>
    (slotOf k.s σ.ring σ.slot).holds c.frame σ.strip && p (slotOf k.s σ.ring σ.slot) && isOk k.publish))

theorem test_time_words :
    goes (.twait false 0 false) a2 [] id (fun k => k.th.reg64 0 ≤ k.s.tnow) = true
    ∧ goes (.twait false 0 false) a2 [] (regs [(0, 5)]) (fun k => k.s.tnow < k.th.reg64 0) = true
    ∧ next (exec (.timeWaitExpiry 1) { up (fun th => { th with wait := .time 5 }) (at_ (.nop false)) with tnow := 5 }) (fun s => (th1 s).wait == .ready) = true
    ∧ next (exec (.timeWaitExpiry 1) (up (fun th => { th with wait := .time 5 }) (at_ (.nop false)))) (fun s => (th1 s).wait == .time 5) = true
    ∧ goes (.tdead false 8 2 false) [⟨2, 1, false⟩] [8, 9] (slicing 0 1 [(2, 1)]) (fun k => deadValue k 1 == some 1000) = true
    ∧ goes (.tdead false 8 2 false) [⟨2, 1, false⟩] [8, 9] (regs [(2, 1)]) (fun k => k.chain.isNone && deadValue k 1 == none) = true
    ∧ goes (.tbudg false 8) [] [8] (slicing 0 1 []) (fun k => budgetLeft k.job == 100) = true := by decide +kernel

theorem test_strip_words :
    goes (.scommit false 8 0 0 false false false) a1 [8] (slicing 0 1 []) (strip0 (fun y => y.state == 1)) = true
    ∧ goes (.scommit false 8 0 0 false false false) a1 [8] (slicing 0 2 []) (strip0 (fun y => y.state == 2)) = true
    ∧ goes (.scommit false 8 0 0 false false false) a1 [8] (slicing 0 0 []) (strip0 (fun y => y.state == 0)) = true
    ∧ goes (.scommit false 8 0 0 false false false) a1 [8] (fun s => { slicing 0 1 [] s with tnow := 1000 }) (strip0 (fun y => y.state == 1)) = true
    ∧ goes (.scommit false 8 0 2 false false true) [⟨0, 1, false⟩, ⟨2, 2, false⟩] [8] (slicing 0 1 [(2, 0x04000000#32)])
        (fun k => strip0 (fun y => y.state == 1) k && isOk (stripBuffer k (k.th.reg64 2) 32)) = true
    ∧ goes (.scommit false 8 0 0 false false false) a1 [8] id (fun k => k.chain.isNone) = true
    ∧ goes (.shalo false 8 0 2 false false) [⟨0, 2, false⟩, ⟨2, 1, false⟩] [8, 9, 10, 11]
        (fun s => tup (fun tm => { tm with buffers := [⟨0, 0, 128, 0, [], 0⟩] }) (slicing 2 2 [(0, 0x04000000#32)] s))
        (fun k => isOk (stripBuffer k (k.th.reg64 0) 32) && (haloOf k.s (video1 2) 0).width * (haloOf k.s (video1 2) 0).lines == 8
          && isOk k.publish && k.chain.any (fun c => c.video.factor != 0 && c.k == 0)) = true
    ∧ goes (.jobend false) [] [] (slicing 0 1 []) (fun k => k.job.isSome && !orderWaits k.s k.th) = true
    ∧ goes (.jobend false) [] [] id (fun k => k.job.isNone) = true
    ∧ goes (.srate false 8 0 false 0 false) [] [8] (slicing 0 1 []) (fun k => (ladder? k.s 0 0 0).isSome
        && k.chain.any (fun c => rateStrip c false == some (0, 0))) = true
    ∧ goes (.srate false 8 0 false 1 false) a1 [8] (slicing 0 1 [(0, 3)]) (fun k => (ladder? k.s 0 0 0).isSome) = true
    ∧ goes (.srate false 8 0 false 1 false) a1 [8] (slicing 0 1 [(0, 5)]) (fun k => k.chain.isSome && 4 < (k.th.reg 0).toNat) = true := by decide +kernel

theorem test_a_strip_is_committed :
    next (exec (.scommit false 8 0 0 false false false) (slicing 0 1 [] (at_ (.scommit false 8 0 0 false false false))))
      (fun s => (slotOf s 0 0).state == 2 && (th1 s).flights.map (·.got) == [some [0]]) = true := by decide +kernel

/-! ### Outputs and chains -/

theorem test_outputs :
    (let s := slicing 0 2 [] (at_ (.nop false))
     next (exec (.chainForcedEnd 6) { s with tnow := 1000 }) (fun s => s.chains == []) = true
     ∧ next (exec (.chainForcedEnd 6) s) (fun s => s.chains.length == 1) = true
     ∧ next (exec (.budgetExpiry 5) (modJob s 5 (fun j => { j with count := 100 }))) (fun s => s.jobs.map (·.2.budgetTold) == [true] && (th1 s).held.map (·.cause) == [0x30]) = true
     ∧ next (exec (.budgetExpiry 5) s) (fun s => s.jobs.map (·.2.budgetTold) == [false]) = true
     ∧ next (exec (.deadlineMiss 5) { s with tnow := 990 }) (fun s => (th1 s).held.map (·.cause) == [0x31]) = true
     ∧ next (exec (.stripScan 0) { s with tnow := 1000, chains := [] }) (fun s => (slotOf s 0 0).state == 3 && (output s 0).scans.map (·.next) == [(0, 1)]) = true
     ∧ next (exec (.stripScan 0) { shown 0 1 s with tnow := 1000, chains := [] }) (fun s => (output s 0).misses == 1 && (slotOf s 0 0).state == 0) = true
     ∧ next (exec (.stripAdmission 0) { modOutput s 0 (fun x => { x with tpl := some { template1 with sealId := 3 } }) with tnow := 900 }) (fun s => s.chains.length == 1 && (output s 0).nextChain == (0, 2)) = true
     ∧ (let v := video1 0
        let s := { ready [] s with tnow := 900, chains := [], seals := [(0, { state := 1 })], reservoir := [(0, { ringOf s 0 with slots := [] })] }
        let s₁ := modOutput s 0 (fun x => { latchFrame x 0 1 with nextChain := v.nextOf 0 1 })
        admitMissed s₁ 0 v template1 0 1 (newChain s₁ 0 (output s₁ 0) v template1 0 1) = false
        ∧ next (exec (.stripAdmission 0) s) (fun s => (slotOf s 0 0).state == 1 && (output s 0).frame == 0) = true)
     ∧ next (exec (.slotRelease 0 0) (modSlot s 0 0 (fun y => { y with state := 3 }))) (fun s => (slotOf s 0 0).state == 0) = true
     ∧ next (exec (.slotRelease 0 0) (modSlot s 0 0 (fun y => { y with state := 3, until_ := 5 }))) (fun s => (slotOf s 0 0).state == 3) = true)
    ∧ next (exec (.outputDisarm 0) (shown 0 2 State.reset)) (fun s => !(output s 0).armed) = true
    ∧ next (exec (.headLinkLoss 0) (shown 0 2 State.reset)) (fun s => !(output s 0).link) = true
    ∧ (output (disarmOutput (shown 0 2 State.reset) 0) 0).scans = []
    ∧ (output (disarmOutput (modOutput (shown 0 2 State.reset) 0 (fun x => { x with nextChain := (0, 2) })) 0) 0).scans.map (·.stop) = [some 0]
    ∧ next (exec (.linkRetrain 0) (modOutput (shown 0 2 State.reset) 0 (fun x => { x with link := false })))
        (fun s => (output s 0).link && (output s 0).resumeAt == some 0) = true
    ∧ (let c : Scan := { arm := 1, video := video1 0, sealId := 0, next := (0, 1), stop := some 0 }
       let s := modOutput (shown 0 2 State.reset) 0 (fun x => { x with scans := [c] })
       (output (takeStrip s 0 (output s 0) c) 0).scans = []) := by
  decide +kernel

/-- An encode pipe of output 4. -/
def piping (f : Pipe → Pipe) (t : Template) : State :=
  { at_ (.nop false) with
    pipes := [(4, f { video := video1 0, tpl := t })], outputs := [(4, { video := some (video1 0), tpl := some t, armed := true, arming := 1 })] }

/-- Pages of 1 GiB for seal 0, which is LIVE, and a bitstream ring of 64 KiB in them. -/
def streaming (n : Nat) : State :=
  { piping (fun p => { p with tiles := [[1, 2]] }) { template1 with bsbase := 0x10000, bssize := n } with
    seals := [(0, { state := 1 })], mem := probeMemory [] 0 }

/-- A template of seal 3 with one claim and one slice in scheduler memory, and head 0 set up to show a ring of two slots. -/
def armable : State :=
  let t := memOf 0 (leBytes 8 0x0000000300030101 ++ leBytes 4 0x1000 ++ List.replicate 52 0
    ++ leBytes 8 0x8000 ++ leBytes 8 0 ++ leBytes 8 0xFF08000000010001 ++ leBytes 8 0)
  { State.reset with
    sched := t, schedTags := [(0, 3), (1, 3)], seals := [(3, { state := 1 })]
    reservoir := [(0, { en := true, w0 := 2 * 2 ^ 16, w4 := 8 * 2 ^ 16 + 32 })]
    outputs := [(0, { regs := [(8, 2 ^ 16), (0xC, 16 * 2 ^ 16), (0x10, 8 * 2 ^ 16 + 32)] })] }

theorem test_an_output_is_armed :
    next (exec (.outputArm 0 true true) armable) (fun s => (output s 0).armed && (output s 0).err == 0) = true
    ∧ (match armChecks armable 0 (output armable 0).params true true with | .ok _ => true | .error _ => false) = true := by decide +kernel

theorem test_pipes_and_rings :
    rowReady { video := video1 0, tpl := template1, buf := List.replicate 20 0 } = true
    ∧ next (exec (.encodeTileRow 0) (piping (fun p => { p with buf := List.replicate 20 0 }) template1))
        (fun s => s.pipes.map (fun p => (p.2.rows, p.2.buf.length)) == [(1, 4)]) = true
    ∧ (unitReady { video := video1 0, tpl := template1, tiles := [[1, 2]] }
        && ((piping id template1).pipes.head?).any (fun p => !unitReady p.2)) = true
    ∧ (temporalUnit { video := video1 0, tpl := template1, tiles := [[1, 2]], frames := 1, head := [7] }).length = 7
    ∧ (let s := streaming 65536
       (pipeOf s 0).any (fun p => decide (ringFill (ringOf s p.2.video.ring) + (temporalUnit p.2).length ≤ p.2.tpl.bssize)
         && (unitAccess s p.2.tpl 0 (temporalUnit p.2).length).isSome && sealLive s p.2.tpl.sealId && unitReady p.2) = true
       ∧ next (exec (.temporalUnitWrite 0) s) (fun s => (ringOf s 0).bswr == 8) = true)
    ∧ (let s := streaming 0
       (pipeOf s 0).any (fun p => decide (p.2.tpl.bssize < ringFill (ringOf s p.2.video.ring) + (temporalUnit p.2).length)) = true)
    ∧ next (exec (.temporalUnitWrite 0) (piping id template1)) (fun s => (output s 4).drops == 0) = true
    ∧ next (exec (.outputArm 0 0 0) State.reset) (fun s => (output s 0).err != 0 && !(output s 0).armed) = true
    ∧ (let s := { State.reset with reservoir := [(0, { w4 := 8 * 2 ^ 16 + 32 })] }
       next (exec (.ringEnable 0 0x80020000) s) (fun s => (ringOf s 0).en) = true)
    ∧ next (exec (.ringDisable 0 0) { State.reset with reservoir := [(0, { en := true })] }) (fun s => !(ringOf s 0).en) = true
    ∧ ringBound (shown 0 2 State.reset) 0 = true := by decide +kernel

/-! ### Launches and placement -/

/-- Bytes with fields at offsets. -/
def fields (n : Nat) (l : List (Nat × Nat × Nat)) : List Byte :=
  Memory.readBytes (l.foldl (fun m p => Memory.writeBytes m p.1 (leBytes p.2.1 p.2.2)) []) 0 n

/-- A launch record of one team of one thread of seal 3. -/
def launch1 : List (Nat × Nat × Nat) :=
  [(0, 8, 0x8000), (32, 2, 1), (34, 2, 1), (36, 2, 1), (38, 2, 1), (40, 1, 1), (46, 1, 3), (49, 1, 1), (53, 1, 8), (54, 2, 1), (84, 2, 3)]

/-- The record at offset 64 of the scratchpad, a pointer to it, and seal 3 LIVE. -/
def launching (l : List (Nat × Nat × Nat)) (s : State) : State :=
  { regs (ptr 0xF0 64) (inSpad 64 (fields 128 l) s) with seals := [(3, { state := 1 })] }

/-- The record the pointer names is read. -/
def launchRead (p : List Byte → State → Bool) (k : Ctx) : Bool :=
  !orderWaits k.s k.th && (match k.readBlock k.s (k.th.reg64 0) 128 64 [0x00, 0xF0] true with
    | .ok (bs, s') => p bs s'
    | .error _ => false)

theorem test_launches :
    goes (.launch false 8 0 false) a2 [8] (launching launch1) (launchRead (fun bs s' => badField (recordChecks (parseRecord bs) bs) == none
        && sealLive s' 3 && (parseRecord bs).nbuf == 0 && (parseRecord bs).map == 3)) = true
    ∧ goes (.launch false 8 0 false) a2 [8] (launching ((32, 2, 0) :: launch1.drop 2)) (launchRead (fun bs _ => (badField (recordChecks (parseRecord bs) bs)).isSome)) = true
    ∧ goes (.launch false 8 0 false) a2 [8] (fun s => up (fun th => { th with sealId := 5 }) (launching launch1 s)) (fun k =>
        !k.th.system && launchRead (fun bs _ => (parseRecord bs).sealId == 3) k) = true
    ∧ next (exec (.launch false 8 0 false) (launching launch1 (at_ (.launch false 8 0 false)))) (fun s => s.grids.length == 1 && (th1 s).reg 8 == 0) = true := by
  decide +kernel

theorem test_placement :
    (let s := launching launch1 (at_ (.launch false 8 0 false))
     next (exec (.launch false 8 0 false) s) (fun s => next (exec (.teamPlacement 0) (ready [] s)) (fun s => s.teams.length == 2 && s.threads.length == 2)) = true)
    ∧ next (exec (.teamPlacement 0) State.reset) (fun s => s == State.reset) = true
    ∧ (let s := { at_ (.nop false) with threads := [] }
       teamOver s 2 = true ∧ next (exec (.teamRetirement 2) s) (fun s => s.teams == []) = true)
    ∧ teamOver (at_ (.nop false)) 2 = false
    ∧ next (exec (.evictionRequest 0 [2]) (at_ (.nop false))) (fun s => (team? s 2).any (·.evictReq)) = true
    ∧ next (exec (.evictionRequest 1 [2]) (at_ (.nop false))) (fun s => (team? s 2).any (!·.evictReq)) = true
    ∧ (let s := up (fun th => { th with wait := .barrier 0 0 }) (tup (fun tm => { tm with evictReq := true }) (at_ (.nop false)))
       (wakeOf (th1 s)).isSome = true ∧ storesOut s (th1 s) = false ∧ ((thread? (leaveLane (flush s 1) 1) 1).bind (takeAreas (leaveLane (flush s 1) 1) 1)).isNone = true
       ∧ mayLeave (evictThread s 1 (th1 s)) 2 = false)
    ∧ (let s := ready [] (up (fun th => { th with wait := .barrier 0 0, regs := [(3, 7)] })
         { at_ (.nop false) with seals := [(0, { state := 1, pool := 2 ^ 20, poolsz := 1 })] })
       ((thread? (leaveLane (flush s 1) 1) 1).bind (takeAreas (leaveLane (flush s 1) 1) 1)).isSome = true
       ∧ (let e := evictThread s 1 (th1 s)
          (th1 e).evicted = true ∧ Memory.readBytes e.mem ((th1 e).record + 12) 4 = [7, 0, 0, 0]
          ∧ (let w := up Thread.wake e
             mayWake w 1 (th1 w) = true ∧ rayRoom w 1 0 = true ∧ residents w 0 < 2048 ∧ slowUsed w 0 + (th1 w).budget ≤ 131072
             ∧ (Machine.core w 0).fenced = false
             ∧ next (exec (.restore 1 0) w) (fun s => !(th1 s).evicted && (th1 s).reg 3 == 7 && (th1 s).word == 1) = true)))
    ∧ mayLeave (at_ (.nop false)) 2 = false
    ∧ (let s := ready [] (tup (fun tm => { tm with evicted := true }) (up (fun th => { th with evicted := true }) (at_ (.nop false))))
       (team? s 2).all (fun tm => (canReturn s 2 tm 200).isNone && (canReturn s 2 tm 5).isSome) = true
       ∧ next (exec (.restore 1 5) s) (fun s => !(th1 s).evicted && (team? s 2).any (fun tm => tm.core == 5 && !tm.evicted)) = true)
    ∧ next (exec (.timeSliceExpiry 0 1) (up (fun th => { th with active := false }) (at_ (.nop false)))) (fun s => (th1 s).active) = true := by
  decide +kernel

theorem test_tokens :
    (let s := modCore State.reset 3 (fun k => { k with waiting := [40] })
     (Machine.core s 3).nextGroup = some 40 ∧ next (exec (.memoryTokenGrant 3 40) s) (fun s => hasToken s 3 40) = true)
    ∧ next (exec (.memoryTokenGrant 3 40) (modCore State.reset 3 (fun k => { k with waiting := [40], limit := 1, auto := false, tokens := [(5, 0)] })))
        (fun s => !hasToken s 3 40) = true
    ∧ next (exec (.memoryTokenPass 3 5) { modCore State.reset 3 (fun k => { k with waiting := [40], tokens := [(5, 0)] }) with aclk := 1024 })
        (fun s => hasToken s 3 40) = true
    ∧ next (exec (.memoryTokenPass 3 5) { modCore State.reset 3 (fun k => { k with waiting := [40], tokens := [(5, 0)] }) with aclk := 1023 })
        (fun s => hasToken s 3 5) = true
    ∧ next (exec (.localityWindowEnd 3) { modCore State.reset 3 (fun k => { k with missHits := 2048 }) with aclk := 4096 })
        (fun s => (Machine.core s 3).score == 128 && (Machine.core s 3).limit == 127) = true
    ∧ next (exec (.localityWindowEnd 3) { State.reset with aclk := 4095 }) (fun s => (Machine.core s 3).windowAt == 0) = true := by decide +kernel

/-! ### Links and channels -/

theorem test_the_discipline :
    (let s := { State.reset with dev := { tlock := { state := 1, good := 15, lastStamp := 3, lastPps := 4, pps := true } } }
     next (exec (.ppsEdge 20) s) (fun s => s.dev.tlock.state == 2 && s.dev.tlock.offs == 20) = true
     ∧ next (exec (.ppsEdge (-40000)) s) (fun s => s.dev.tlock.good == 0 && s.dev.tlock.offs == -32767) = true
     ∧ next (exec .tlockHoldover { s with dev := { s.dev with mono := 3 * 2 ^ 30 + 3 } }) (fun s => s.dev.tlock.state == 3) = true
     ∧ next (exec .tlockHoldover { s with dev := { s.dev with mono := 3 * 2 ^ 30 } }) (fun s => s.dev.tlock.state == 1) = true
     ∧ next (exec .ppsLoss { s with dev := { s.dev with mono := 3 * 2 ^ 29 + 4 } }) (fun s => !s.dev.tlock.pps) = true)
    ∧ inWindow 0 0 = true ∧ inWindow 600 0 = false ∧ inWindow 1074 1 = true
    ∧ next (exec (.refreshWindowStart 0) State.reset) (fun s => s.dev.refresh == [0]) = true
    ∧ next (exec (.refreshWindowEnd 1) { State.reset with dev := { refresh := [1] } }) (fun s => s.dev.refresh == []) = true := by decide +kernel

/-- Channel 4 in a state. -/
def channel4 (st : Nat) (s : State) : State := { s with dev := { s.dev with channels := [(4, { state := st })] } }

theorem test_channels :
    next (exec .qosFrameBoundary { channel4 3 State.reset with tnow := 2 ^ 30 }) (fun s => (channel s 4).state == 1 && s.dev.qframe == 1) = true
    ∧ next (exec .qosFrameBoundary (channel4 3 State.reset)) (fun s => (channel s 4).state == 3 && s.dev.qframe == 0) = true
    ∧ (channel (channel4 1 State.reset) 4).wake 5 = { state := 2, since := 5 }
    ∧ next (exec (.retuneEnd 4) { channel4 2 State.reset with dev := { (channel4 2 State.reset).dev with mono := 2577 } }) (fun s => (channel s 4).tuned) = true
    ∧ next (exec (.retuneEnd 4) (channel4 2 State.reset)) (fun s => !(channel s 4).tuned) = true
    ∧ next (exec (.ductusWake 0) (shown 0 0 State.reset)) (fun s => (output s 0).woken == some (0, 1)) = true
    ∧ next (exec (.ductusWake 0) (modOutput { shown 0 0 State.reset with dev := { channels := [(16, { state := 1 }), (17, { state := 3 })] } } 0
        (fun x => { x with tpl := some { template1 with claims := [(0, 1)] } })))
        (fun s => (channel s 16).state == 2 && (channel s 16).wakes == [(0, 1, 0, 1)] && (channel s 17).state == 3) = true
    ∧ chainNear (shown 0 0 State.reset) = true ∧ chainNear State.reset = false
    ∧ next (exec .ductusIdleExit (ready [] (shown 0 0 State.reset))) (fun s => s.dev.power.early) = true
    ∧ goes (.xbpark false 8 0 2 false false) ab [8] (regs [(0, 4), (2, 9)]) (fun k => !chainClaims k.s 4) = true
    ∧ goes (.xbpark false 8 0 2 false false) ab [8] id (fun k => k.th.reg 2 == 0) = true
    ∧ parkChannel State.reset 4 9 = (0, { state := 3, thr := 9 }) ∧ (parkChannel (channel4 2 State.reset) 4 9).1 = 2
    ∧ (parkChannel (channel4 1 State.reset) 4 9).1 = 1
    ∧ goes (.xbwake false 8 0 false) a1 [8] (fun s => regs [(0, 4)] (channel4 1 s)) (fun k => (channel k.s 4).state == 1) = true
    ∧ goes (.xbwake false 8 0 false) a1 [8] (regs [(0, 4)]) (fun k => (channel k.s 4).state == 0) = true
    ∧ goes (.xbstat false 8 0 false) a1 [8] (regs [(0, 4)]) (fun _ => true) = true
    ∧ goes (.lkstat false 8 0 false) a1 [8, 9] (regs [(0, 4)]) (fun _ => true) = true
    ∧ goes (.lkstat false 8 0 false) a1 [8, 9] (regs [(0, 0x300)]) (fun _ => true) = true
    ∧ goes (.lkstat false 8 0 false) a1 [8, 9] (regs [(0, 0x400)]) (fun k => (k.th.reg 0).toNat &&& 0xFFFFFC80 != 0) = true := by decide +kernel

theorem test_a_channel_a_chain_needs :
    parkChannel { State.reset with chains := [(6, { chain1 0 with tpl := { template1 with claims := [(0, 1)] } })] } 4 9 = (3, {}) := by
  decide +kernel

/-! ### Requests between packages -/

/-- A store of 0xAB at 0x8100 for seal 0 from package 5, and a domain. -/
def request : RemoteRequest := { src := 5, slice := 1, seq := 0, sealId := 0, kind := 1, va := 0x8100, len := 1, op := 0, pts := 0, data := [0xAB] }

/-- A request thread 1's load of 4 bytes waits for. -/
def asking (sends : Nat) : State :=
  { flying 0 [8] (.remote 7 false (glob 0 4) 0) none with
    domain := { en := true, pkg := 1, table := [(5, 2)]
                reqs := [(7, { by_ := .thread 1 0 5, sealId := 0, dest := 5, slice := 1, num := some 9, off := 0, len := 4, pts := 0, store := [], atom := none, sends := sends })] } }

theorem test_requests :
    (let s := { headed (at_ (.nop false)) with domain := { en := true } }
     requestNumbered request = true ∧ (performRequest s request).1.isSome = true
     ∧ next (exec (.remoteRequestArrival request) s) (fun s => (dedupOf s 1).length == 1 && s.mem.read 0x8100 == 0xAB) = true
     ∧ next (exec (.remoteRequestArrival request) { s with domain := { en := true, dedup := [(1, [⟨5, 0, none, none, false⟩])] } })
        (fun s => (dedupOf s 1).length == 1 && s.mem.read 0x8100 == 0) = true
     ∧ requestNumbered { request with kind := 0 } = false)
    ∧ next (exec (.acknowledgement 5 1 0) { State.reset with domain := { dedup := [(1, [⟨5, 0, none, none, false⟩])] } })
        (fun s => dedupOf s 1 == [] && lowMarkOf s 5 1 == 1) = true
    ∧ next (exec (.remoteReplyArrival 5 1 9 ([0, 0] ++ [0, 0, 0, 0, 0, 0] ++ [1, 2, 3, 4])) (asking 1)) (fun s => (th1 s).flights.map (·.got) == [some [0x04030201]]) = true
    ∧ next (exec (.retransmissionTimeout 5 1 9) (asking 1)) (fun s => s.domain.reqs.map (·.2.sends) == [2]) = true
    ∧ next (exec (.retransmissionTimeout 5 1 9) (asking 8)) (fun s => s.domain.unreachable.contains 5) = true
    ∧ next (exec (.busyResend 5 1 9) (asking 0)) (fun s => s.domain.reqs.map (·.2.sends) == [1]) = true
    ∧ next (exec (.wavelengthRetrain 3 0xF0) State.reset) (fun s => fibreUp s 3 == fibreUp State.reset 3 &&& 0xF0) = true
    ∧ next (exec (.tsuxusForwarding 5 3) (asking 1)) (fun s => s.domain.forwarded == 1) = true
    ∧ next (exec (.tsuxusForwarding 5 16) (asking 1)) (fun s => s.domain.dropped == 1) = true := by decide +kernel

/-! ### Errors and the watchdog -/

/-- The granule of team 2's scratchpad at its offset 0, as an error unit. -/
def spadUnit : ErrUnit := ⟨0x05, 0, 0, false, 0⟩

theorem test_errors :
    next (exec (.correctableError spadUnit) State.reset) (fun s => s.errors.corr == 1) = true
    ∧ (let s := seal3 (tup (fun tm => { tm with sealId := 3 }) { at_ (.nop false) with seals := [(3, { state := 1 })] })
       let u : ErrUnit := ⟨0x06, 1, 0, false, 0⟩
       refetched s u = false ∧ unitSeal s u = 3
       ∧ next (exec (.uncorrectableError u) s) (fun s => (sealOf s 3).state == 2 && s.errors.uncorr == 1) = true)
    ∧ refetched State.reset ⟨0x07, 0, 0, false, 0⟩ = true ∧ unitSeal State.reset ⟨0x07, 0, 0, false, 0⟩ = 0
    ∧ (let u : ErrUnit := ⟨0x14, 0, 0, true, 0⟩
       next (exec (.uncorrectableError u) State.reset) (fun s => s.errors.fatal && s.dev.power.state == 3) = true)
    ∧ sealDrained { State.reset with seals := [(3, { state := 2 })] } 3 = true
    ∧ next (exec (.sealFree 3) { State.reset with seals := [(3, { state := 2 })] }) (fun s => (sealOf s 3).state == 0) = true
    ∧ next (exec (.sealFree 3) { State.reset with seals := [(3, { state := 1 })] }) (fun s => (sealOf s 3).state == 1) = true := by decide +kernel

/-- Team 2's grid, of seal 3 and queue 7, with the watchdog enabled, counted as given; seal 3 is LIVE. -/
def watched (f : Grid → Grid) (s : State) : State :=
  { tup (fun tm => { tm with sealId := 3 }) s with
    grids := [(0, f { lr := { ranged with queue := 7, sealId := 3 }, buffers := [], arrivals := [], image := none, pts := 0, placed := 1 })]
    seals := [(3, { state := 1 })], dev := { wdog := [(7, 2 ^ 31 + 1 + 2 ^ 10 + 2 ^ 20)] } }

theorem test_the_watchdog :
    next (exec (.watchdogW1 0) (watched (fun g => { g with wdCount := 2 ^ 20 }) (at_ (.nop false)))) (fun s => s.grids.map (·.2.wdStep) == [1]) = true
    ∧ next (exec (.watchdogW1 0) (watched id (at_ (.nop false)))) (fun s => s.grids.map (·.2.wdStep) == [0]) = true
    ∧ (let s := watched (fun g => { g with wdStep := 1, wdSince := 2 ^ 20 }) (at_ (.nop false))
       (gridTeams s 0).any (fun p => !p.2.evicted) = true ∧ next (exec (.watchdogW2 0) s) (fun s => (sealOf s 3).state == 2) = true)
    ∧ next (exec (.watchdogW2 0) (watched (fun g => { g with wdStep := 1 }) (at_ (.nop false)))) (fun s => (sealOf s 3).state == 1) = true
    ∧ (let s := { watched id (seal3 (at_ (.nop false))) with seals := [(3, { state := 2, wdAt := some 0, wdQueue := 7 })], aclk := 2 ^ 20 }
       overdueSeal s 0 = some (3, 7) ∧ next (exec (.watchdogW3 0) s) (fun s => (Machine.core s 0).fenced) = true)
    ∧ overdueSeal State.reset 0 = none
    ∧ next (exec (.coreReturn 0) (modCore State.reset 0 (fun k => { k with fenced := true }))) (fun s => !(Machine.core s 0).fenced) = true := by
  decide +kernel

/-! ### Commands -/

/-- A command. -/
def cmd (op : Nat) (l : List (Nat × Nat × Nat)) : List Byte := fields 64 ((0, 1, op) :: l)

/-- Code of the status record a step wrote first. -/
def code0 (s : State) : Option Nat := (kget? s.rings.status 0).map (fun bs => bfld bs 3 1)

/-- A step writes one record with that code. -/
def coded (i : Instr) (n : Nat) (s : State) : Bool := next (exec i s) (fun s => code0 s == some n && s.dev.commands.isEmpty)


/-- An image of one task that launches `launch1` and binds nothing. -/
def image1 : List Byte := fields 256 ((0, 2, 1) :: (192, 8, 2 ^ 64 - 1) :: (200, 8, 2 ^ 64 - 1) :: launch1.map (fun p => (64 + p.1, p.2.1, p.2.2)))


theorem test_command_entry :
    next (exec (.commandWrite (cmd 9 [])) (ready [] State.reset)) (fun s => s.dev.commands.length == 1) = true
    ∧ next (exec (.commandWrite (cmd 9 [])) (ready (List.replicate 64 (cmd 9 [])) State.reset)) (fun s => code0 s == some 5 && s.dev.commands.length == 64) = true
    ∧ coded (.commandWrite (cmd 0 [])) 1 (ready [] State.reset) = true
    ∧ nextCommand (ready [cmd 9 []] State.reset) = some (0, cmd 9 [])
    ∧ next (exec (.commandWrite (cmd 9 [])) State.reset) (fun s => s.dev.commands.length == 1 && s.dev.power.state == 4) = true
    ∧ next (exec .attest { State.reset with dev := { commands := [cmd 9 []] } }) (fun s => s.dev.commands.length == 1) = true := by decide +kernel

/-- Seal 3 is LIVE. -/
def live3 (s : State) : State := { s with seals := [(3, { state := 1 })] }

theorem test_uploads :
    coded .upload 1 (ready [cmd 1 [(20, 4, 0)]] State.reset) = true
    ∧ coded .upload 2 (ready [cmd 1 [(4, 2, 3), (6, 2, 0xFFFF), (20, 4, 64)]] State.reset) = true
    ∧ (let c := cmd 1 [(4, 2, 3), (6, 2, 0xFFFF), (20, 4, 64)]
       let s := live3 (ready [c] State.reset)
       uploadBad c = none ∧ uploadBusy s 0 64 0xFFFF = false ∧ coded .upload 0 s = true)
    ∧ (let c := cmd 1 [(4, 2, 3), (6, 2, 5), (20, 4, 256)]
       let s := live3 (ready [c] State.reset)
       next (exec .upload s) (fun s => code0 s == some 1 && s.dev.commands.isEmpty) = true)
    ∧ coded .upload 9 { State.reset with dev := { power := { state := 3 }, commands := [cmd 1 []] } } = true := by decide +kernel

/-- Graph 5 of seal 3, whose image stands at 0. -/
def graph5 (r : Option GraphRun) (s : State) : State :=
  { live3 s with sched := memOf 0 image1, dev := { s.dev with graphs := [(5, { sealId := 3, off := 0, len := 256, run := r })] } }

theorem test_triggers :
    coded .trigger 1 (ready [cmd 2 [(4, 2, 5)]] State.reset) = true
    ∧ (let c := cmd 2 [(4, 2, 5), (6, 2, 3)]
       let s := graph5 none (ready [c] State.reset)
       imageBad (memOf 0 image1) 0 256 3 = none ∧ imageBad (memOf 0 (fields 256 [(0, 2, 1)])) 0 256 3 ≠ none ∧ triggerBad s c = none ∧ next (exec .trigger s) (fun s => s.grids.length == 1) = true)
    ∧ (let s := graph5 (some { id := 1, tag := 0, notify := false }) (ready [cmd 2 [(4, 2, 5), (6, 2, 3)]] State.reset)
       coded .trigger 3 s = true) := by decide +kernel

theorem test_seal_commands :
    (let c := cmd 4 [(32, 4, 1)]
     sealnewBad c = none ∧ newSeal (ready [c] State.reset) 0 = some 1
     ∧ next (exec .sealnew (ready [c] State.reset)) (fun s => code0 s == some 0 && (sealOf s 1).state == 1) = true)
    ∧ coded .sealnew 2 (live3 (ready [cmd 4 [(4, 2, 3), (32, 4, 1)]] State.reset)) = true
    ∧ next (exec .sealend (live3 (ready [cmd 5 [(4, 2, 3)]] State.reset))) (fun s => s.dev.begun && (sealOf s 3).state == 2) = true
    ∧ coded .sealend 0 { ready [cmd 5 [(4, 2, 3)]] State.reset with dev := { (ready [cmd 5 [(4, 2, 3)]] State.reset).dev with begun := true } } = true
    ∧ coded .abort 0 (live3 (ready [cmd 6 [(4, 2, 3)]] State.reset)) = true
    ∧ coded .abort 2 (ready [cmd 6 [(4, 2, 3)]] State.reset) = true := by decide +kernel

theorem test_device_commands :
    coded .resync 0 (ready [cmd 3 [(4, 1, 1)]] State.reset) = true
    ∧ nextCommand (ready [cmd 3 []] State.reset) = some (0, cmd 3 [])
    ∧ next (exec .timesetStep (ready [cmd 7 [(1, 1, 1), (8, 8, 77)]] State.reset)) (fun s => s.tnow == 77 && code0 s == some 0) = true
    ∧ coded .timesetStep 9 (ready [cmd 7 [(1, 1, 1)]] (shown 0 0 State.reset)) = true
    ∧ next (exec .timesetConfig (ready [cmd 7 [(1, 1, 2), (16, 1, 4)]] State.reset)) (fun s => s.dev.tlock.domain == 4 && s.dev.tlock.state == 1) = true
    ∧ nextCommand (ready [cmd 9 [(4, 4, 7)]] State.reset) = some (0, cmd 9 [(4, 4, 7)])
    ∧ next (exec (.fwload true) (ready [cmd 8 [(8, 4, 4)]] State.reset)) (fun s => s.dev.stage == 1 && s.dev.power.state == 4 && s.dev.firmware == [0, 0, 0, 0]) = true
    ∧ coded (.fwload true) 9 (live3 (ready [cmd 8 [(8, 4, 4)]] State.reset)) = true
    ∧ coded (.fwload false) 10 (ready [cmd 8 [(8, 4, 4)]] State.reset) = true := by decide +kernel

/-! ### Bring-up, power and the host -/

/-- A stage of bring-up. -/
def stage (n : Nat) : State := { State.reset with dev := { stage := n } }

theorem test_bring_up :
    next (exec (.firmwareVerification (some [])) (stage 1)) (fun s => s.dev.stage == 2) = true
    ∧ next (exec (.firmwareVerification none) (stage 1)) (fun s => s.dev.fail == 1 && s.dev.power.state == 4) = true
    ∧ next (exec (.ucieTraining true) { State.reset with dev := { stage := 1, fail := 1 } }) (fun s => s.dev.power.state == 3 && s.dev.fail == 1) = true
    ∧ next (exec (.ucieTraining true) (stage 2)) (fun s => s.dev.stage == 3) = true
    ∧ next (exec (.lpddrTraining none) (stage 3)) (fun s => s.dev.stage == 4) = true
    ∧ next (exec (.lpddrTraining (some 2)) (stage 3)) (fun s => s.dev.fail == 3) = true
    ∧ next (exec (.damlanRingTuning true) (stage 4)) (fun s => s.dev.stage == 5) = true
    ∧ next (exec (.tsuxusTraining []) (stage 5)) (fun s => s.dev.stage == 6) = true
    ∧ next (exec .ptpLock { stage 6 with dev := { stage := 6, mono := 10 * 2 ^ 30 } }) (fun s => s.dev.stage == 7 && s.dev.power.state == 0) = true
    ∧ next (exec .ptpLock { stage 6 with dev := { stage := 6, mono := 10 * 2 ^ 30, power := { limit := 1500 } }, domain := { en := true, pkg := 5 } })
        (fun s => pwrlim s == 2900 && domcfg s == 0) = true
    ∧ next (exec .ptpLock (stage 6)) (fun s => s.dev.stage == 6) = true
    ∧ next (exec .reset (ready [] (at_ (.nop false)))) (fun s => s.threads == [] && s.dev.stage == 1) = true := by decide +kernel

theorem test_power :
    next (exec (.standbyRequest 0x80000064) (ready [] State.reset)) (fun s => s.dev.power.stby && s.dev.power.limit == 1200) = true
    ∧ next (exec (.standbyClear 0xFFF) { State.reset with dev := { power := { state := 2, stby := true } } })
        (fun s => s.dev.power.state == 0 && s.dev.power.limit == 2900) = true
    ∧ next (exec (.powerLimitWrite 0x800007D0) State.reset) (fun s => pwrlim s == 2 ^ 31 + 2000) = true
    ∧ (let s := { State.reset with dev := { power := { state := 0, stby := true } } }
       deviceActive s = false ∧ next (exec .standbyEntry s) (fun s => s.dev.power.state == 2) = true)
    ∧ next (exec .standbyEntry (ready [] State.reset)) (fun s => s.dev.power.state == 0) = true
    ∧ next (exec (.powerWindow 3000) State.reset) (fun s => s.dev.power.level == 1) = true
    ∧ next (exec (.powerWindow 100) { State.reset with dev := { power := { level := 3 } } }) (fun s => s.dev.power.level == 2) = true := by decide +kernel

theorem test_host_registers :
    (let s := modStation State.reset 4 (fun x => { x with faults := [⟨0, 3, 0x1000, 1, 9, []⟩] })
     next (exec (.faultack 9) s) (fun s => (station s 4).faults == [] && (station s 4).walks.map (·.va) == [0x1000]) = true)
    ∧ readRegion State.reset 0 = 0x08100001 ∧ readRegion State.reset 0x100 = 2900
    ∧ next (exec (.headRegisterRead 0) { State.reset with rings := { msiOpen := [0, 1], stHead := 4 } })
        (fun s => s.rings.msiOpen == [1] && s.dev.answer == 4) = true
    ∧ next (exec (.domcfgWrite 0x80000005) State.reset) (fun s => s.domain.en && s.domain.pkg == 5) = true
    ∧ next (exec (.bar2StagingWrite 6 [1, 2]) State.reset) (fun s => s.dev.staging == [(6, 1), (7, 2)]) = true
    ∧ next (exec (.bar2StagingWrite 6 [1, 2]) (shown 0 0 State.reset)) (fun s => s.dev.staging == []) = true
    ∧ next (exec (.registerWrite 0x40 5) State.reset) (fun s => s == State.reset) = true
    ∧ next (exec (.hostCxlMemAccess 0x100 2 (some [7, 8])) State.reset) (fun s => s.mem == [(0x100, 7), (0x101, 8)]) = true
    ∧ next (exec (.hostCxlMemAccess 0x100 2 none) State.reset) (fun s => s.mem == []) = true
    ∧ next (exec (.hostCxlMemAccess (2 ^ 39) 1 none) State.reset) (fun s => s == State.reset) = true := by decide +kernel

/-! ### The machine as a whole, and the encoding -/

/-- Thread 1 at an IADD, as a step finds it. -/
def atAdd : State := regs [(0, 7), (2, 0xFFFFFFFF#32)] { at_ (.iadd false 8 0 2 false false false) with cur := none }

theorem test_a_step_runs_its_word :
    atAdd.errors.due = [] ∧ atAdd.errors.poisonEnds = [] ∧ atAdd.agenda = [.thread 1]
    ∧ (th1 atAdd).suspended = false ∧ (th1 atAdd).evicted = false ∧ (th1 atAdd).active = true ∧ (th1 atAdd).due = none
    ∧ asyncReady (th1 atAdd) = false ∧ atHeader (th1 atAdd) = false
    ∧ (let s0 := settleHolds { atAdd with agenda := [], cur := some 1, curFeed := none }
       let w := (th1 atAdd).rawWord.toNat
       let s1 := modThread s0 1 (fun th => { th with yields := [], waited := 0 })
       let e := tableEntry s1 (th1 atAdd).table (opcOf w)
       rebaseDue atAdd = false ∧ contextsRun atAdd = true ∧ thread? s0 1 = some (th1 atAdd) ∧ mayStep s0 (th1 atAdd) = true ∧ outranked s0 1 (th1 atAdd) = false ∧ opcOf w ≠ 0 ∧ opcOf w ≠ 0x3FF
       ∧ (ctxOf s1 1 (th1 atAdd)).predOn = true ∧ (entryStop (ctxOf s1 1 (th1 atAdd)) e).isNone = true ∧ withOpcode w (entryIop e) = w)
    ∧ next (step atAdd) (fun s => (th1 s).reg 8 == 6) = true := by decide +kernel

theorem test_a_feed_step_runs_its_word :
    (let s := State.reset.withFetchWord 32 (wordOf .fstop)
     s.agenda = [.feed 0 0] ∧ (feedFetch { s with agenda := [], curFeed := some (0, 0) } 0 0).1 = some (wordOf .fstop)
     ∧ next (step s) (fun s => (feed0 s).state == 4) = true) := by decide +kernel

theorem test_an_event_on_the_agenda :
    encode .qosFrameBoundary = [] ∧ powerLets State.reset .qosFrameBoundary = true
    ∧ powerLets { State.reset with dev := { power := { state := 2 } } } (.encodeTileRow 0) = false
    ∧ atAdd.commits = [] ∧ (th1 atAdd).wait = .ready ∧ next (step { State.reset with tnow := 2 ^ 30, agenda := [.event .qosFrameBoundary] }) (fun s => s.dev.qframe == 1) = true := by
  decide +kernel

/-- Two threads of slices of one quadrant, thread 1's with a later deadline than thread 2's. -/
def ranked : State :=
  let j (t d : Nat) : Job := { team := t, chain := none, idx := 0, out := 8, frame := 0, strip := 0, deadline := some d, budget := 0 }
  { tup (fun tm => { tm with slice := some 5 }) { at_ (.nop false) with cur := none } with
    threads := [(1, probeThread 2 (wordOf (.nop false))), (3, probeThread 4 (wordOf (.nop false)))]
    teams := [(2, { probeTeam with slice := some 5 }), (4, { probeTeam with slice := some 6 })], jobs := [(5, j 2 20), (6, j 4 10)] }

theorem test_an_earlier_slice_goes_first :
    outranked { ranked with agenda := [], cur := some 1 } 1 (th1 ranked) = true
    ∧ next (step { ranked with agenda := [.thread 1] }) (fun s => (th1 s).word == 1) = true
    ∧ next (step { ranked with agenda := [.thread 3] }) (fun s => (thread? s 3).all (fun th => th.word != 1)) = true := by decide +kernel

theorem test_a_rebase_is_a_step :
    (let s := up (fun th => { th with pts := 2 ^ 62 + 5 }) (at_ (.nop false))
     rebaseDue s = true ∧ next (step s) (fun s => (th1 s).pts == 0 && s.lines.rebases == 1) = true) := by decide +kernel

theorem test_a_canonical_state : Canonical (headed (at_ (.nop false))) := by
  refine ⟨?_, ?_, ?_⟩ <;> decide +kernel

/-! Words written out bit by bit: opcode [30:21], d [20:15], a [14:9], b [8:3], then Lb, La and m, or an immediate. -/

theorem test_words_of_the_integer_and_float_families :
    decodeWord 0b0_0000000101_000011_000001_000010_0_1_0 = .ok (.iadd false 3 1 2 false true false)
    ∧ decodeWord 0b1_0000001010_000100_000011_000011_0_0_0 = .ok (.imad true 4 3 3 false false false)
    ∧ decodeWord 0b0_0010010101_000100_000001_000010_0_0_0 = .ok (.twosum false 4 1 2 false false)
    ∧ decodeWord 0b0_0010011101_000011_001000_000100_0_0_0 = .ok (.cvtff false 3 8 4 false false) := by decide +kernel

theorem test_words_of_the_other_families :
    decodeWord 0b0_0100000001_001_0_00000000000000100 = .ok (.brp false 1 false 4)
    ∧ decodeWord 0b0_0110000000_000110_001000_010_0000_00 = .ok (.ldg false 6 8 2 false false false)
    ∧ decodeWord 0b0_0110001100_001101_001110_001100_0_1_0 = .ok (.atom false 13 14 12 false true false)
    ∧ decodeWord 0b0_1000000000_000000_000000_0000111_0_0 = .ok (.bar false 0 7)
    ∧ decodeWord 0b0_1010000001_000000_001100_000000_1_0_0 = .ok (.cpy2d false 12 true)
    ∧ decodeWord 0b0_1100000111_000000_010000_000000_0_0_0 = .ok (.mmae false 16 false false)
    ∧ decodeWord 0b0_1110000000_001110_001010_001000_1_0_0 = .ok (.pbin false 14 10 8 true false)
    ∧ decodeWord 0b0_1111100001_000000_000000_000000_0_0_0 = .ok (.rte false)
    ∧ decodeAccess 0b00001000_000000000000000000000000 = some .fstop := by decide +kernel

theorem test_unassigned_words_are_refused :
    decodeWord 0xFFF00000 = .error .extForm ∧ decodeAccess 0x0A000000 = none
    ∧ decodeTableWord 32 0x00A18212 = some (.iadd false 3 1 2 false true false) ∧ decodeTableWord 32 0x08000000 = some .fstop := by decide +kernel

/-- Terms with a field that must be zero and is not, one for each kind of entry that has such a field. -/
def reservedTerms : List Instr := [
  .plop false 0 1 2 3 true, .plop false 5 1 2 3 false, .plop false 7 1 2 0 false, .lgjoin false 0 0 true, .lgwait false 0 true,
  .lgdrop false 0 true, .lgread false 8 0 0 true, .rxch false 8 0 2 false true false, .rbcast false 8 0 2 false true false,
  .rred false 8 0 2 false true false, .rvote false 8 0 2 false true false, .ldg false 8 0 5 false false false, .stg false 8 0 5 false false,
  .lds false 8 0 6 false false false, .sts false 8 0 6 false false, .ldp false 8 0 7 false false false, .stp false 8 0 7 false false,
  .ldc false 8 0 5 false false false, .stc false 8 0 5 false false, .ldw false 8 0 5 false false, .pref false 0 5 false,
  .arm false 8 0 2 false false true, .dist false 8 2 false false, .dist false 8 2 false true, .scommit false 8 0 2 false false false,
  .srate false 8 2 false 0 false, .srate false 8 0 true 2 false]

/-- Terms that break a register rule or a limit, one for each kind of check. -/
def brokenTerms : List Instr := [
  .movh false 7 0, .iaddc false 7 0 2 false false false, .isetp false 6 0 0 2 false false false, .lea false 8 1 2 false false false,
  .add64 false 8 0 3 false false false, .shli false 8 0 32 false, .isetpi false 7 0 0 0 false false, .padd false 9 0 2 false false,
  .prd false 8 1 false, .brx false 1 false, .callx false 1 false, .lgjoin false 16 0 false, .lgread false 8 0 2 false,
  .regroup false 0 1 false false, .launch false 8 1 false, .rxch false 8 0 16 false false false, .rvote false 9 0 2 false false false,
  .ldg false 9 0 3 false false false, .ldg false 10 0 4 false false false, .ldg false 8 0 2 false true false, .stg false 8 1 2 false false,
  .pref false 0 3 false, .pin false 8 0 2 false, .atom false 9 0 2 false false true, .atomf false 8 1 2 false false false,
  .xaccp false 0 3 false false, .xrd false 9 0 false true, .arread false 10 0 false, .qpush false 8 0 3 false false, .qtry false 10 0 false,
  .dist false 9 0 false false, .dist false 0 1 false true, .sbset false 8 0 1 false, .cpy false 1 false, .cpyq false 9 0 false,
  .floop 2 0 0, .floop 1 0 3, .fpush 0 0 3 false 0, .fpush 0 0 2 true 0, .fpermitQueue 0 0, .fpermitQueue 0 17, .fsync false 1,
  .kld false 8 0 false, .kzero false 8 0 false, .kzero false 0 1 true, .kcvt false 0 8 2 false false, .mmae false 4 false false,
  .mmae false 1 false true, .mmac false 16 0 8 false false false, .mmac false 0 0 4 false false false, .accrd false 8 0 2 false false false,
  .hsrnext false 10 0 2 false false, .ipa false 10 0 2 false false true, .rayset false 16 0 2 false false, .tnow false 9,
  .scommit false 8 0 3 false false true, .srate false 8 0 false 3 false, .trap false 2 0, .lkstat false 9 0 false]

theorem test_ill_formed_terms_are_refused :
    reservedTerms.all reservedOperand = true ∧ brokenTerms.all (fun i => !operandsOk i) = true
    ∧ (reservedTerms ++ brokenTerms).all (fun i => !WellFormed i) = true := by decide +kernel

theorem test_encodings_come_back :
    (plain1 ++ plain2 ++ plain3 ++ plain4).all (fun w => WellFormed w.1 && decodeWord (wordOf w.1) == .ok w.1) = true := by
  decide +kernel

theorem test_rendezvous_of_others :
    goes (.rbcast false 8 0 2 false false true) a1 [8] id (fun k => !k.member 2) = true
    ∧ goes (.rred false 8 0 2 false false true) [⟨0, 1, false⟩, ⟨8, 1, false⟩] [8] (regs [(8, 10)]) (fun k => !k.member 2) = true
    ∧ goes (.rvote false 8 0 2 false false false) a1 [8, 9] id (fun k => !k.member 2) = true
    ∧ goes (.rred false 8 0 2 false false true) [⟨0, 1, false⟩, ⟨8, 1, false⟩] [8] (fun s => member2 (regs [(8, 11)] s)) (fun k => k.member 2 && 10 < (k.th.reg 8).toNat) = true
    ∧ redAll 0 [5, 6, 7] = 18 ∧ redAll 2 [0xFFFFFFFF#32, 1] = 1 ∧ redAll 4 [0xFFFFFFFF#32, 1] = 0xFFFFFFFF#32 ∧ redAll 6 [5, 2] = 7 := by decide +kernel

theorem test_arrival_updates :
    arr0 (armWord (arrival 0 0 4 0 [] (at_ (.nop false))) 1 2 32 ⟨5, 0, 4, 1⟩) = some ⟨5, 0, 4, 1⟩
    ∧ (arrival 0 0 4 0 [] (at_ (.nop false))).errors.deferred = []
    ∧ chunkAnswer { ranged with dorder := 1 } 0 = 4 * 2 ^ 32 + 9 ∧ chunkAnswer { ranged with dorder := 1 } 2 = 2 * 2 ^ 32 + 1 := by decide +kernel

theorem test_copies_in_flight :
    goes (.cpyq false 8 0 false) a2 [8, 9] (recorded 0 0 0 (2 ^ 28)) (fun k =>
        isOk (k.before { loc := .spad k.th.team 64, len := 32, strong := false, cattr := 0, pageW := true, pageSeal := 0 })) = true
    ∧ goes (.cpyx false 8 0 false) a2 [8] (fun s => copying (fun c => { c with flying := [{ inFlight with begun := true }] }) (recorded 0 0 0 0 s))
        (fun k => (copyAt k.s k.th.team 64).any (fun p => p.2.flying.any (·.begun))) = true
    ∧ next (exec (.cpyx false 8 0 false) (copying (fun c => { c with flying := [{ inFlight with begun := true }] }) (recorded 0 0 0 0 (at_ (.cpyx false 8 0 false)))))
        (fun s => (th1 s).wait == .hold && s.copies.all (fun c => !mayStart s c.2)) = true
    ∧ (let e : RangeLock := { cmd := 7, dest := true, team := some 2, sealId := 0, base := 256, len := 8 }
       let s := copying (fun c => { c with entries := [e] }) (at_ (.nop false))
       (missingEntries s { command8 with entries := [e] }).filter (fun e => entryCore s command8 e == some 0) = [e]
       ∧ freeEntry (Machine.core s 0) = some 0
       ∧ next (exec (.rangeLockEntryTaken 7 0) s) (fun s => (Machine.core s 0).locks == [(0, e)]) = true
       ∧ freeEntry { (Machine.core s 0) with locks := (List.range 32).map (fun i => (i, e)) } = none)
    ∧ (let s := { copying (fun c => { c with started := true, cursor := 8 }) (flying 4 [] (.unit 7) none) with nextId := 9 }
       next (exec (.copyCommandEnd 7) s) (fun s => (th1 s).counter 4 == 0 && (team? s 2).any (fun tm => tm.spad.readBytes 88 8 == [0, 0, 0x40, 0x10, 8, 0, 0, 0])) = true) := by
  decide +kernel

theorem test_images_and_counters :
    goes (.accrd false 4 0 2 false false false) ab [] (fun s => quadTeam s) (fun k => accrdOk (k.th.reg 0).toNat (k.th.reg 2).toNat false
        && k.team.any (fun tm => (List.range 4).all (fun i => 4 + spanOf (256 * 1 * (widthOfCode (fwR 0) / 8)) ≤ tm.granted i))) = true
    ∧ (readyOp (running (.accrd 4 0 1 false 0 0) none []) 0 7).isSome = true
    ∧ (let s := running (.accz 0) none []
       s.heirs = [] ∧ s.threads.all (fun p => p.2.wait == .ready) = true ∧ (th1 s).evicted = false ∧ (unitFlight s 1 7).isSome = true
       ∧ s.mtx.all (fun o => (th1 (finishMtx s 7 o.2)).counter 3 == 0) = true) := by decide +kernel

/-- The block of `block` with an arrival word, or with NANTRAP. -/
def blockWith (w a : Nat) : MmaBlock := parseBlock (((block.set 0 (0, wordN w)).set 6 (6, wordN a)).flatMap (fun p => leBytes 4 p.2.toNat))

theorem test_matrix_arrivals_and_nans :
    (let s := tup (fun tm => { tm with arrivals := [⟨0, 32, 0⟩] }) (running (.mma (blockWith 0 11)) none [])
     (blockWith 0 11).aen = true ∧ (team? s 2).any (fun tm => (tm.arrivals.find? (fun a => a.idx == (blockWith 0 11).aidx)).isSome) = true)
    ∧ (let b := blockWith (2 ^ 18) 3
       let s := tup (fun tm => (tm.setTile 0 0 [(0, 255), (1, 255)]).setTile 0 4 [(0, 255)]) (running (.mma b) none [])
       fwNanTrap b.fmt = true ∧ b.aen = false ∧ (team? s 2).any (fun tm => (firstNan (mmaOutputs tm 0 b)).isSome) = true) := by decide +kernel

theorem test_waiting_commits :
    goes (.scommit false 8 0 2 false false true) [⟨0, 1, false⟩, ⟨2, 2, false⟩] [8]
        (fun s => tup (fun tm => { tm with buffers := [⟨0, 0, 128, 0, [], 0⟩] }) (slicing 0 1 [(2, 0x04000000#32)] s))
        (fun k => strip0 (fun y => y.state == 1) k && isOk (stripBuffer k (k.th.reg64 2) 32)) = true
    ∧ (let w : Nat × Commit := (7, { th := 1, team := 2, out := 0, frame := 0, strip := ⟨0, 0, 0, 1000, true⟩, buf := 0, pts := 0 })
       let s (st : Nat) : State := { flying 4 [8] (.unit 7) none with reservoir := (shown 0 1 State.reset).reservoir, teams := [(2, { probeTeam with buffers := [⟨0, 0, 128, st, [], 0⟩] })] }
       (unitFlight (s 0) 1 7).isSome = true ∧ (slotOf (s 0) 0 0).holds 0 0 = true ∧ (slotOf (s 0) 0 0).state = 1 ∧ (s 0).tnow < 1000
       ∧ serveCommit (s 0) w = s 0
       ∧ (th1 (serveCommit (s 2) w)).flights.map (·.got) = [some [0]] ∧ (slotOf (serveCommit (s 2) w) 0 0).state = 2)
    ∧ goes (.shalo false 8 0 2 false false) [⟨0, 2, false⟩, ⟨2, 1, false⟩] [8, 9, 10, 11] id (fun k => k.chain.isNone) = true
    ∧ goes (.srate false 8 0 false 2 false) a1 [8] (slicing 0 1 [(0, 3)]) (fun k => k.chain.isSome) = true
    ∧ goes (.srate false 8 0 false 0 false) [] [8] id (fun k => k.chain.isNone) = true
    ∧ goes (.srate false 8 0 false 1 false) a1 [8] id (fun k => k.chain.isNone) = true := by decide +kernel

theorem test_evictions_that_wait :
    (let s := up (fun th => { th with wait := .halt }) (flying 1 [] (.mstore [] 7) none)
     (thread? (leaveLane (flush s 1) 1) 1).any (storesOut (leaveLane (flush s 1) 1)) = true ∧ evictThread s 1 (th1 s) = s)
    ∧ (let s := up (fun th => { th with wait := .halt }) (at_ (.nop false))
       (thread? (leaveLane (flush s 1) 1) 1).any (fun h => (takeAreas (leaveLane (flush s 1) 1) 1 h).isNone) = true
       ∧ wakeOf (th1 (at_ (.nop false))) = none) := by decide +kernel

/-- Thread 1's load of 4 bytes from slice 2 waits for its channel. -/
def loading : State := flying 0 [8] (.load (glob 0x100 4) false) none

theorem test_queues_of_channels :
    (let s := { loading with dev := { channels := [(2, { state := 1, thr := 0 })] } }
     (channel s 2).thr < queueDepth s 2 ∧ next (exec (.automaticWake 2) s) (fun s => (channel s 2).state == 2) = true
     ∧ waitingAt State.reset 0 = [] ∧ queueDepth State.reset 0 ≤ (channel State.reset 0).thr)
    ∧ (parkChannel { shown 0 0 State.reset with dev := { channels := [(16, { state := 0, wakes := [(0, 1, 0, 1)] })] } } 16 9).1 = 3
    ∧ goes (.lkstat false 8 0 false) a1 [8, 9] (regs [(0, 0x17F)]) (fun k => (k.th.reg 0).toNat == 0x100 + 127) = true
    ∧ goes (.lkstat false 8 0 false) a1 [8, 9] (regs [(0, 0x27F)]) (fun k => (k.th.reg 0).toNat == 0x200 + 127) = true
    ∧ goes (.lkstat false 8 0 false) a1 [8, 9] (regs [(0, 0x301)]) (fun k => 0x300 < (k.th.reg 0).toNat && (k.th.reg 0).toNat < 0x380) = true
    ∧ goes (.xbwake false 8 0 false) a1 [8] (regs [(0, 36)]) (fun k => 36 ≤ (k.th.reg 0).toNat) = true
    ∧ goes (.xbstat false 8 0 false) a1 [8] (regs [(0, 36)]) (fun k => 36 ≤ (k.th.reg 0).toNat) = true := by decide +kernel

theorem test_entered_requests :
    (let s := { headed (at_ (.nop false)) with domain := { en := true } }
     let e : Dedup := { src := 5, num := 0, reply := none }
     let s1 := modDomain s (fun d => { d with dedup := kset d.dedup 1 (dedupOf s 1 ++ [e]) })
     (performRequest s1 request).1.isSome = true ∧ dedupOf (performRequest s1 request).2 1 = [e]
     ∧ (performRequest s1 { request with va := 2 ^ 40 }).1 = some [17]
     ∧ sealLive s 3 = false ∧ s.heirs = [])
    ∧ (let s := { at_ (.nop false) with mem := memOf 0 [16], domain := { en := true }, seals := [(0, { state := 1 })] }
       let e : Dedup := { src := 5, num := 0, reply := none }
       let s1 := modDomain s (fun d => { d with dedup := kset d.dedup 1 (dedupOf s 1 ++ [e]) })
       (performRequest s1 request).1 = none) := by decide +kernel

theorem test_refused_uploads :
    (let c := cmd 1 [(4, 2, 3), (6, 2, 0xFFFF), (20, 4, 64)]
     let s := live3 (ready [c] State.reset)
     coded .upload 4 { s with errors := { s.errors with quarantined := [(0x13, 0, 0)] } } = true
     ∧ schedLost { s with errors := { s.errors with quarantined := [(0x13, 0, 0)] } } 0 64 = true
     ∧ schedLost s 0 64 = false
     ∧ coded .upload 2 { s with schedTags := [(0, 5)] } = true
     ∧ uploadBusy (graph5 (some { id := 1, tag := 0, notify := false }) s) 0 64 0xFFFF = true
     ∧ coded .upload 3 (graph5 (some { id := 1, tag := 0, notify := false }) s) = true)
    ∧ (let c := cmd 1 [(4, 2, 3), (6, 2, 0xFFFF), (16, 4, 2 ^ 24), (20, 4, 64)]
       uploadBad c = none ∧ coded .upload 4 (live3 (ready [c] State.reset)) = true)
    ∧ coded .trigger 2 (graph5 none (ready [cmd 2 [(4, 2, 5), (6, 2, 4)]] State.reset)) = true := by decide +kernel

theorem test_images_in_recovery :
    (let s := { State.reset with dev := { power := { state := 3 }, commands := [cmd 8 [(8, 4, 4)]] } }
     nextCommand s = some (0, cmd 8 [(8, 4, 4)]) ∧ next (exec (.fwload true) s) (fun s => s.dev.stage == 1 && s.dev.power.state == 4) = true
     ∧ coded (.fwload false) 10 s = true)
    ∧ coded (.fwload true) 1 (ready [cmd 8 []] State.reset) = true
    ∧ stagingWindow State.reset = [] := by decide +kernel

theorem test_first_triangle_pass_is_idle :
    next (exec (.primitiveBinning 7) (passing 0 id [] (at_ (.nop false)))) (fun s => s.passes.map (·.2.waits) == [[]]) = true := by decide +kernel

/-- `launching`, with pages and memory from 0x200. -/
def launchingFrom (l : List (Nat × Nat × Nat)) (bs : List Byte) (s : State) : State :=
  launching l (let p := paged s; { p with mem := p.mem.writeBytes 0x200 bs })

/-- What a LAUNCH answers from a state. -/
def launched (s : State → State) (f : State → Nat) : Nat :=
  match exec (.launch false 8 0 false) (s (at_ (.launch false 8 0 false))) with
  | .next s => 2 ^ 32 * f s + ((th1 s).reg 8).toNat
  | _ => 99

theorem test_launch_answers :
    launched (fun s => { launching launch1 s with seals := [] }) (·.grids.length) = 5 + 84 * 2 ^ 8
    ∧ launched (launchingFrom ((24, 8, 0x200) :: (47, 1, 1) :: launch1) (leBytes 8 (2 ^ 26))) (fun s => (s.grids.map (·.2.buffers.length)).foldl (· + ·) 0) = 2 ^ 32
    ∧ launched (launchingFrom ((24, 8, 0x200) :: (47, 1, 1) :: launch1) []) (·.grids.length) = 1 + 128 * 2 ^ 8
    ∧ launched (launchingFrom ((64, 8, 0x400) :: (46, 1, 255) :: launch1.filter (fun p => p.1 != 46)) []) (·.grids.length) = 2
    ∧ (let g : Grid := { lr := parseRecord (fields 128 launch1), buffers := [], arrivals := [], image := none, pts := 0 }
       launched (fun s => { launching launch1 s with grids := (List.range 256).map (fun i => (i + 100, g)) }) (·.grids.length)) = 3 + 256 * 2 ^ 32 := by
  decide +kernel

theorem test_walks_wake :
    (let s := modStation (up (fun th => { th with wait := .walk }) (paged (at_ (.nop false)))) 0 (fun x => { x with tlb := [], walks := [⟨7, 0, 0x100, [(1, 0x100, 0)], false, 0⟩] })
     risingFrom 0 s.threads = true ∧ next (exec (.pageWalkComplete 0 7) s) (fun s => (th1 s).wait == .ready) = true) := by decide +kernel
theorem test_atomics_at_home :
    next (exec (.atomicPerformed 1 5) (flying 0 [8] (.atom (glob 0 4) (.cas 32 0 9)) none))
        (fun s => leNat (s.mem.readBytes 0 4) == 9 && (flight0 s).got == some [0]) = true
    ∧ next (exec (.atomicPerformed 1 5) (flying 1 [] (.atom (glob 0 64) .xclr) none)) (fun s => (th1 s).flights == [] || (flight0 s).got.isSome) = true
    ∧ next (exec (.atomicPerformed 1 5) (flying 0 [8] (.atom (glob 0 64) (.xrd 0 false)) none)) (fun s => (flight0 s).got == some [0] && s.mem == []) = true := by
  decide +kernel

end Sys2Proof.Tests
end

section
/-!
The canonical form of the memories is kept by every step. Each function of the model that gives a state has one lemma
here, named after it: `Canonical.f` for a state or a tuple that holds one, `Gives.f` for an answer that may be a stop,
`Yields.f` for an optional result, `KeepsCanonical.f` for an outcome, and `X.Keeps.f` for a carrier `X` of a state. A
proof follows the function's body from the outside in and cites the lemmas of the functions it calls; what only changes
other parts of the state is `Canonical.frame`. The lemmas stand in the order of the model.
-/
namespace Sys2Proof.Machine

set_option Elab.async false

/-! ### The canonical form along a computation -/

section
variable {s s' a b : State} {α β : Type}

/-- A state that differs from a canonical one outside its three memories is canonical. -/
theorem Canonical.frame (h : Canonical s) (e : mems s' = mems s := by rfl) : Canonical s' := canonical_congr h e

theorem Canonical.ite {c : Prop} [Decidable c] (ha : Canonical a) (hb : Canonical b) : Canonical (if c then a else b) :=
  iteInduction (fun _ => ha) fun _ => hb

/-- A change that is made under a condition. -/
theorem Canonical.when {c : Prop} [Decidable c] (ha : Canonical s → Canonical a) (h : Canonical s) :
    Canonical (if c then a else s) := .ite (ha h) h

/-- A change that is made where a condition fails. -/
theorem Canonical.whenNot {c : Prop} [Decidable c] (ha : Canonical s → Canonical a) (h : Canonical s) :
    Canonical (if c then s else a) := .ite h (ha h)

theorem Canonical.ite₂ {c : Prop} [Decidable c] {x y : α × State} (hx : Canonical x.2) (hy : Canonical y.2) :
    Canonical (if c then x else y).2 :=
  iteInduction (motive := fun r : α × State => Canonical r.2) (fun _ => hx) fun _ => hy

theorem Canonical.ite₃ {c : Prop} [Decidable c] {x y : α × β × State} (hx : Canonical x.2.2) (hy : Canonical y.2.2) :
    Canonical (if c then x else y).2.2 :=
  iteInduction (motive := fun r : α × β × State => Canonical r.2.2) (fun _ => hx) fun _ => hy

theorem Canonical.foldl {f : State → α → State} {l : List α} (hf : ∀ {s a}, Canonical s → Canonical (f s a))
    (h : Canonical s) : Canonical (l.foldl f s) := foldl_canonical f (fun _ _ => hf) l s h

theorem Canonical.foldl₂ {f : α × State → β → α × State} {l : List β} {r : α × State}
    (hf : ∀ {r a}, Canonical r.2 → Canonical (f r a).2) (h : Canonical r.2) : Canonical (l.foldl f r).2 :=
  List.foldlRecOn (motive := fun r => Canonical r.2) l f h fun _ h _ _ => hf h

theorem Canonical.foldl₃ {γ : Type} {f : α × β × State → γ → α × β × State} {l : List γ} {r : α × β × State}
    (hf : ∀ {r a}, Canonical r.2.2 → Canonical (f r a).2.2) (h : Canonical r.2.2) : Canonical (l.foldl f r).2.2 :=
  List.foldlRecOn (motive := fun r => Canonical r.2.2) l f h fun _ h _ _ => hf h

/-- The state of a pair that has been taken apart. -/
theorem Canonical.of_eq {x : α × State} {v : α} (h : Canonical x.2) (e : x = (v, s)) : Canonical s := by subst e; exact h

end

theorem ok_of_ite_error {ε α : Type} {c : Prop} [Decidable c] {x : ε} {b : Except ε α} {v : α}
    (e : (if c then .error x else b) = .ok v) : b = .ok v := by
  split at e
  · nomatch e
  · exact e

/-! ### Stops, effects and answers that carry a state -/

/-- The state a stop holds, where it holds one, is canonical. -/
def Stop.Keeps : Stop → Prop
  | .trap .. => True
  | .held s => Canonical s

/-- An effect's state is canonical, and what follows the thread's move keeps the form. -/
def Eff.Keeps (e : Eff) : Prop := Canonical e.st ∧ ∀ s, Canonical s → Canonical (e.after s)

/-- An answer satisfies `p`, and a stop in its place keeps the form. -/
def Gives {α : Type} (p : α → Prop) : Except Stop α → Prop
  | .ok a => p a
  | .error st => st.Keeps

section
variable {s : State} {α β : Type} {p : α → Prop} {q : β → Prop} {r : Except Stop α} {st : Stop}

theorem Gives.answer (h : Gives p r) {v : α} (e : r = .ok v) : p v := by subst e; exact h

theorem Gives.stopped (h : Gives p r) (e : r = .error st) : st.Keeps := by subst e; exact h

theorem Gives.stop (h : st.Keeps) : Gives p (.error st) := h

theorem Gives.trap {c : Nat} {i0 i1 i2 i3 : Word} : Gives p (.error (.trap c i0 i1 i2 i3)) := trivial

theorem Gives.held (h : Canonical s) : Gives p (.error (.held s)) := h

theorem Gives.value {v : α} : Gives (fun _ => True) (.ok v : Except Stop α) := trivial

theorem Gives.state (h : Canonical s) : Gives Canonical (.ok s) := h

theorem Gives.pair {v : α} (h : Canonical s) : Gives (fun r => Canonical r.2) (.ok (v, s)) := h

/-- An effect that leaves a canonical state and nothing to follow. -/
theorem Gives.eff {e : Eff} (h : Canonical e.st) (ha : e.after = id := by rfl) : Gives Eff.Keeps (.ok e) :=
  ⟨h, fun _ hs => ha ▸ hs⟩

/-- An effect that leaves a canonical state, and what follows. -/
theorem Gives.effThen {e : Eff} (h : Canonical e.st) (ha : ∀ {s}, Canonical s → Canonical (e.after s)) :
    Gives Eff.Keeps (.ok e) := ⟨h, fun _ => ha⟩

theorem Gives.ite {c : Prop} [Decidable c] {a b : Except Stop α} (ha : Gives p a) (hb : Gives p b) :
    Gives p (if c then a else b) :=
  iteInduction (fun _ => ha) fun _ => hb

theorem Gives.bind {f : α → Except Stop β} (hf : ∀ {v}, p v → Gives q (f v)) (h : Gives p r) : Gives q (r.bind f) := by
  cases r with
  | ok v => exact hf h
  | error st => exact h

theorem Gives.map {f : α → β} (hf : ∀ {v}, p v → q (f v)) (h : Gives p r) : Gives q (r.map f) := by
  cases r with
  | ok v => exact hf h
  | error st => exact h

theorem Gives.foldlM {f : β → α → Except Stop β} {l : List α} (hf : ∀ {v a}, q v → Gives q (f v a)) {v : β}
    (h : q v) :
    Gives q (l.foldlM f v) := by
  induction l generalizing v with
  | nil => exact h
  | cons a l ih => exact .bind ih (hf h)

/-- The effect of `r` in another canonical state. -/
theorem Gives.inState {r : Except Stop Eff} (h : Canonical s) (hr : Gives Eff.Keeps r) : Gives Eff.Keeps (Machine.inState s r) :=
  Gives.map (fun he => ⟨h, he.2⟩) hr
end

/-! ### Optional results and the other carriers of a state -/

/-- An optional result satisfies `p` where there is one. -/
def Yields {α : Type} (p : α → Prop) : Option α → Prop
  | none => True
  | some a => p a

section
variable {s : State} {α β : Type} {p : α → Prop} {q : β → Prop} {o : Option α}

theorem Yields.answer (h : Yields p o) {v : α} (e : o = some v) : p v := by subst e; exact h

theorem Yields.empty : Yields p none := trivial

theorem Yields.state (h : Canonical s) : Yields Canonical (some s) := h

theorem Yields.pair {v : α} (h : Canonical s) : Yields (fun r => Canonical r.2) (some (v, s)) := h

theorem Yields.stop {st : Stop} (h : st.Keeps) : Yields Stop.Keeps (some st) := h

theorem Yields.ite {c : Prop} [Decidable c] {a b : Option α} (ha : Yields p a) (hb : Yields p b) :
    Yields p (if c then a else b) :=
  iteInduction (fun _ => ha) fun _ => hb

theorem Yields.bind {f : α → Option β} (hf : ∀ {v}, p v → Yields q (f v)) (h : Yields p o) : Yields q (o.bind f) := by
  cases o with
  | none => exact h
  | some v => exact hf h

theorem Yields.map {f : α → β} (hf : ∀ {v}, p v → q (f v)) (h : Yields p o) : Yields q (o.map f) := by
  cases o with
  | none => exact h
  | some v => exact hf h

/-- A result that satisfies `p` whatever it is. -/
theorem Yields.all (h : ∀ v, p v) : Yields p o := by
  cases o with
  | none => trivial
  | some v => exact h v
end

/-- A state that may be there, else another one. -/
theorem Canonical.getD {s : State} {o : Option State} (ho : Yields Canonical o) (h : Canonical s) : Canonical (o.getD s) := by
  cases o with
  | none => exact h
  | some x => exact ho

/-- The state an engine's answer holds is canonical. -/
def EngRes.Keeps : EngRes → Prop
  | .ok _ s => Canonical s
  | .wait s => Canonical s
  | .fail _ => True
  | .drop => True

/-- The state a device's read holds is canonical. -/
def DevRead.Keeps : DevRead → Prop
  | .ok _ s => Canonical s
  | .wait s => Canonical s
  | .fail => True

/-- The state a host launch leaves is canonical. -/
def HostLaunch.Keeps : HostLaunch → Prop
  | .wait s => Canonical s
  | .status _ s => Canonical s

/-- The state a ray unit's read holds is canonical. -/
def RayRead.Keeps : RayRead → Prop
  | .bytes _ s => Canonical s
  | .hold s => Canonical s
  | .fail _ => True

/-- The state a raster unit's write holds is canonical. -/
def UnitWrite.Keeps : UnitWrite → Prop
  | .done s => Canonical s
  | .wait s => Canonical s
  | .fail => True

/-- The state a matrix vote holds is canonical. -/
def Vote.Keeps : Vote → Prop
  | .wait => True
  | .trap _ => True
  | .go s => Canonical s

/-- The stop an issue gate holds keeps the form. -/
def Gate.Keeps : Gate → Prop
  | .off => True
  | .stop st => st.Keeps
  | .go => True

section
variable {s : State}

theorem EngRes.Keeps.ok {r : EngRes} {as_ : List Access} (h : r.Keeps) (e : r = .ok as_ s) : Canonical s := by subst e; exact h

theorem EngRes.Keeps.wait {r : EngRes} (h : r.Keeps) (e : r = .wait s) : Canonical s := by subst e; exact h

theorem DevRead.Keeps.ok {r : DevRead} {bs : List Byte} (h : r.Keeps) (e : r = .ok bs s) : Canonical s := by subst e; exact h

theorem DevRead.Keeps.wait {r : DevRead} (h : r.Keeps) (e : r = .wait s) : Canonical s := by subst e; exact h

theorem HostLaunch.Keeps.wait {r : HostLaunch} (h : r.Keeps) (e : r = .wait s) : Canonical s := by subst e; exact h

theorem HostLaunch.Keeps.status {r : HostLaunch} {n : Nat} (h : r.Keeps) (e : r = .status n s) : Canonical s := by subst e; exact h

theorem RayRead.Keeps.bytes {r : RayRead} {bs : List Byte} (h : r.Keeps) (e : r = .bytes bs s) : Canonical s := by subst e; exact h

theorem RayRead.Keeps.hold {r : RayRead} (h : r.Keeps) (e : r = .hold s) : Canonical s := by subst e; exact h

theorem UnitWrite.Keeps.done {r : UnitWrite} (h : r.Keeps) (e : r = .done s) : Canonical s := by subst e; exact h

theorem UnitWrite.Keeps.wait {r : UnitWrite} (h : r.Keeps) (e : r = .wait s) : Canonical s := by subst e; exact h

theorem Vote.Keeps.go {r : Vote} (h : r.Keeps) (e : r = .go s) : Canonical s := by subst e; exact h

theorem Gate.Keeps.stop {g : Gate} {st : Stop} (h : g.Keeps) (e : g = .stop st) : st.Keeps := by subst e; exact h
end

theorem Stop.Keeps.ite {c : Prop} [Decidable c] {a b : Stop} (ha : a.Keeps) (hb : b.Keeps) : (if c then a else b).Keeps :=
  iteInduction (fun _ => ha) fun _ => hb

theorem Gate.Keeps.ite {c : Prop} [Decidable c] {a b : Gate} (ha : a.Keeps) (hb : b.Keeps) : (if c then a else b).Keeps :=
  iteInduction (fun _ => ha) fun _ => hb

theorem EngRes.Keeps.ite {c : Prop} [Decidable c] {a b : EngRes} (ha : a.Keeps) (hb : b.Keeps) : (if c then a else b).Keeps :=
  iteInduction (fun _ => ha) fun _ => hb

theorem DevRead.Keeps.ite {c : Prop} [Decidable c] {a b : DevRead} (ha : a.Keeps) (hb : b.Keeps) :
    (if c then a else b).Keeps :=
  iteInduction (fun _ => ha) fun _ => hb

theorem HostLaunch.Keeps.ite {c : Prop} [Decidable c] {a b : HostLaunch} (ha : a.Keeps) (hb : b.Keeps) :
    (if c then a else b).Keeps :=
  iteInduction (fun _ => ha) fun _ => hb

theorem RayRead.Keeps.ite {c : Prop} [Decidable c] {a b : RayRead} (ha : a.Keeps) (hb : b.Keeps) :
    (if c then a else b).Keeps :=
  iteInduction (fun _ => ha) fun _ => hb

theorem UnitWrite.Keeps.ite {c : Prop} [Decidable c] {a b : UnitWrite} (ha : a.Keeps) (hb : b.Keeps) :
    (if c then a else b).Keeps :=
  iteInduction (fun _ => ha) fun _ => hb

theorem Vote.Keeps.ite {c : Prop} [Decidable c] {a b : Vote} (ha : a.Keeps) (hb : b.Keeps) : (if c then a else b).Keeps :=
  iteInduction (fun _ => ha) fun _ => hb

theorem KeepsCanonical.next {s : State} (h : Canonical s) : KeepsCanonical (.next s) := by
  intro s' e
  cases e
  exact h

theorem KeepsCanonical.ite {c : Prop} [Decidable c] {x y : Host.Outcome State Fault Refusal} (hx : KeepsCanonical x)
    (hy : KeepsCanonical y) : KeepsCanonical (if c then x else y) :=
  iteInduction (fun _ => hx) fun _ => hy

theorem KeepsCanonical.fault {f : Fault} : KeepsCanonical (.fault f) := by
  intro s' e
  cases e

/-! ### Steps on an agenda -/

/-- A step keeps the form wherever it is taken. -/
def ActKeeps (f : Act) : Prop := ∀ s, Canonical s → KeepsCanonical (f s)

/-- Every member of a list satisfies `p`. -/
def Each {α : Type} (p : α → Prop) (l : List α) : Prop := ∀ a ∈ l, p a

section
variable {α β : Type} {p : α → Prop} {l m : List α} {a : α}

theorem Each.nil : Each p [] := nofun

theorem Each.cons (ha : p a) (h : Each p l) : Each p (a :: l) := List.forall_mem_cons.2 ⟨ha, h⟩

theorem Each.one (ha : p a) : Each p [a] := .cons ha .nil

theorem Each.append (hl : Each p l) (hm : Each p m) : Each p (l ++ m) := List.forall_mem_append.2 ⟨hl, hm⟩

theorem Each.map {l : List β} {f : β → α} (hf : ∀ {b}, p (f b)) : Each p (l.map f) := List.forall_mem_map.2 fun _ _ => hf

theorem Each.flatMap {l : List β} {f : β → List α} (hf : ∀ {b}, Each p (f b)) : Each p (l.flatMap f) := by
  intro a ha
  obtain ⟨b, _, hb⟩ := List.mem_flatMap.1 ha
  exact hf a hb

theorem Each.filterMap {l : List β} {f : β → Option α} (hf : ∀ {b}, Yields p (f b)) : Each p (l.filterMap f) := by
  intro a ha
  obtain ⟨b, _, hb⟩ := List.mem_filterMap.1 ha
  exact Yields.answer hf hb

theorem Each.ite {c : Prop} [Decidable c] (hl : Each p l) (hm : Each p m) : Each p (if c then l else m) :=
  iteInduction (fun _ => hl) fun _ => hm

theorem Each.find? {q : α → Bool} (h : Each p l) : Yields p (l.find? q) := by
  cases e : l.find? q with
  | none => trivial
  | some a => exact h a (List.mem_of_find?_eq_some e)
end

section
variable {s : State} {k : Ctx}

/-! ### Registers -/

theorem Canonical.setThread {t th} (h : Canonical s) : Canonical (setThread s t th) := .frame h
theorem Canonical.modThread {t f} (h : Canonical s) : Canonical (modThread s t f) := .frame h
theorem Canonical.modTeam {i f} (h : Canonical s) : Canonical (modTeam s i f) := .frame h
theorem Canonical.modGrid {i f} (h : Canonical s) : Canonical (modGrid s i f) := .frame h
theorem Canonical.modCore {c f} (h : Canonical s) : Canonical (modCore s c f) := .frame h
theorem Canonical.modStation {i f} (h : Canonical s) : Canonical (modStation s i f) := .frame h
theorem Canonical.modSeal {i f} (h : Canonical s) : Canonical (modSeal s i f) := .frame h
theorem Canonical.modMtx {i f} (h : Canonical s) : Canonical (modMtx s i f) := .frame h
theorem Canonical.modRay {i f} (h : Canonical s) : Canonical (modRay s i f) := .frame h
theorem Canonical.modPass {i f} (h : Canonical s) : Canonical (modPass s i f) := .frame h
theorem Canonical.modOutput {o f} (h : Canonical s) : Canonical (modOutput s o f) := .frame h
theorem Canonical.modRing {r f} (h : Canonical s) : Canonical (modRing s r f) := .frame h
theorem Canonical.modJob {i f} (h : Canonical s) : Canonical (modJob s i f) := .frame h
theorem Canonical.draw {n} (h : Canonical s) : Canonical (draw s n).2 := .frame h
theorem Canonical.fresh (h : Canonical s) : Canonical (fresh s).2 := .frame h

/-! ### Log -/

theorem Canonical.signal {vec} (h : Canonical s) : Canonical (signal s vec) := .ite h (.frame h)
theorem Canonical.logEvent {r} (h : Canonical s) : Canonical (logEvent s r) := .signal (.modSeal (.frame h))

theorem Canonical.logFault {addr sealId st idx kind} (h : Canonical s) : Canonical (logFault s addr sealId st idx kind).2 :=
  .signal (.frame h)

/-! ### Memory -/

theorem Canonical.tlbInsert {sid e} (h : Canonical s) : Canonical (tlbInsert s sid e) := .modStation h

theorem Canonical.attachWalk {t th addr va k'} (h : Canonical s) : Canonical (attachWalk s t th addr va k') := by
  unfold Machine.attachWalk
  dsimp only
  split
  · exact .modThread (.modStation h)
  · exact .ite (.modThread h) (.modThread (.modStation h))

theorem Gives.entryFor {t th addr va k'} (h : Canonical s) : Gives (fun _ => True) (entryFor s t th addr va k') := by
  unfold Machine.entryFor
  split
  · exact .held (.attachWalk h)
  · exact .value

theorem Gives.translate {t th iw addr va len k' strong} (h : Canonical s) : Gives (fun _ => True)
    (translate s t th iw addr va len k' strong) := by
  unfold Machine.translate
  split
  · next e => exact .stop (Gives.stopped (.entryFor h) e)
  · split
    · exact .trap
    · exact .value

theorem Gives.spadAccess {th iw addr tmid tm off len k' strong locks} : Gives (fun _ => True)
    (spadAccess s th iw addr tmid tm off len k' strong locks) := by
  unfold Machine.spadAccess
  split
  · exact .trap
  · split
    · exact .trap
    · exact .value

theorem Gives.weightAccess {t th iw addr len k' strong locks} (h : Canonical s) : Gives (fun _ => True)
    (weightAccess s t th iw addr len k' strong locks) := by
  unfold Machine.weightAccess
  refine .ite .trap (.ite (.held (.modThread h)) (.ite .trap ?_))
  split
  · exact .trap
  · exact .value

theorem Gives.checkAccess {t th iw addr len align k' strong wins locks} (h : Canonical s) : Gives (fun _ => True)
    (checkAccess s t th iw addr len align k' strong wins locks) := by
  unfold Machine.checkAccess
  split
  · exact .trap
  · refine .ite .trap (.ite .trap (.ite .trap ?_))
    split
    · exact .trap
    · next tm _ =>
      extract_lets glob
      have hg {va} : Gives (fun _ => True) (glob va) := by
        unfold glob
        split
        · next e => exact .stop (Gives.stopped (.translate h) e)
        · split
          · exact .trap
          · exact .value
      refine .ite hg (.ite (.ite .trap (.ite hg ?_)) (.ite (.ite .trap .spadAccess)
        (.ite ?_ (.ite (.ite .trap .value) (.weightAccess h)))))
      · split
        · exact .trap
        · exact .value
      · split
        · exact .trap
        · exact .ite .trap (.ite (.held (.modThread h)) .spadAccess)

/-! ### Performance -/

theorem Canonical.modLines {f} (h : Canonical s) : Canonical (modLines s f) := .frame h
theorem Canonical.sliceVisit {l} (h : Canonical s) : Canonical (sliceVisit s l) := .ite (.modLines h) (.modLines h)
theorem Canonical.tagVictims {place ls} (h : Canonical s) : Canonical (tagVictims s place ls) := .ite (.modCore h) h
theorem Canonical.putCopy {c} (h : Canonical s) : Canonical (putCopy s c) := .modLines (.tagVictims h)
theorem Canonical.homeLoad {l pts lease} (h : Canonical s) : Canonical (homeLoad s l pts lease) := .modLines h
theorem Canonical.meetErrors {us} (h : Canonical s) : Canonical (meetErrors s us) := .ite (.frame h) h
theorem Canonical.met {l n} (h : Canonical s) : Canonical (met s l n) := .ite h (.meetErrors h)

theorem Canonical.noteRead {a reader} (h : Canonical s) : Canonical (noteRead s a reader) := by
  unfold Machine.noteRead
  split
  · exact .when (fun h' => .frame h') (.met h)
  · exact .met h

theorem Canonical.dropLines {t} (h : Canonical s) : Canonical (dropLines s t) := .frame h

theorem Canonical.leaveLane {t} (h : Canonical s) : Canonical (leaveLane s t) := by
  unfold Machine.leaveLane
  split
  · exact h
  · exact .dropLines (.foldl (fun h' => writeBack_canonical h' _ _) h)

theorem Canonical.noteSync {a pts} (h : Canonical s) : Canonical (noteSync s a pts) := by
  unfold Machine.noteSync
  split
  · exact h
  · split
    · exact .ite (.modLines h) h
    · exact .modTeam h
    · exact h

theorem Canonical.noteWalk {sealId va} (h : Canonical s) : Canonical (noteWalk s sealId va) :=
  .foldl (fun h' => .sliceVisit (.noteRead h')) h

theorem Canonical.unitWalk {st sealId va} (h : Canonical s) : Canonical (unitWalk s st sealId va).2 := by
  unfold Machine.unitWalk
  extract_lets go
  have hg : Canonical (go s).2 := by
    unfold go
    dsimp only
    split
    · exact setAccessed_canonical (.noteWalk h) _ _
    · exact .noteWalk h
  split
  · exact hg
  · split
    · exact h
    · refine .ite₂ h ?_
      split
      · next e => exact .tlbInsert (.of_eq hg e)
      · exact hg

theorem Canonical.translateNow {st sealId va len k r} (h : Canonical s) (e : translateNow s st sealId va len k = .ok r) :
    Canonical r.2 := by
  unfold Machine.translateNow at e
  split at e
  · next e' =>
    split at e
    · nomatch e
    · cases e
      exact .of_eq (.unitWalk h) e'
  · nomatch e
  · nomatch e
  · nomatch e

theorem Canonical.atomAt {c a op pts sealId} (h : Canonical s) : Canonical (atomAt s c a op pts sealId).2.2 :=
  .ite₃ (loadAt_canonical h _ _ _ _ _) (storeAt_canonical (.noteRead h) _ _ _ _)

theorem Gives.checkRange {t th iw addr len align k' strong wins locks} (h : Canonical s) :
    Gives (fun _ => True) (checkRange s t th iw addr len align k' strong wins locks) :=
  .ite (.foldlM (fun _ => .map (fun _ => trivial) (.checkAccess h)) trivial) (.map (fun _ => trivial) (.checkAccess h))

theorem Canonical.readLeft {c pts reader as_ parts} (h : Canonical s) : Canonical (readLeft s c pts reader as_ parts).2.2 :=
  .foldl₃ (fun h => loadRange_canonical h _ _ _ _) h

theorem Canonical.writeLeft {pts sealId as_ bs parts} (h : Canonical s) : Canonical
    (writeLeft s pts sealId as_ bs parts).2 :=
  .foldl₂ (fun h => storeRange_canonical h _ _ _ _) h

theorem Canonical.performFlight {t f peer} (h : Canonical s) : Canonical (performFlight s t f peer) := by
  unfold Machine.performFlight
  split
  · exact h
  · split
    · exact .modThread (.ite₃ (loadAt_canonical h _ _ _ _ _) (.readLeft h))
    · exact .modThread (.ite₂ (storeAt_canonical h _ _ _ _) (.writeLeft h))
    · exact .modThread (.atomAt h)
    · exact .modThread (.modMtx (.ite₃ (loadRange_canonical h _ _ _ _) (.readLeft h)))
    · exact h

theorem Canonical.splitFlight {t f off n peer} (h : Canonical s) : Canonical (splitFlight s t f off n peer) := by
  unfold Machine.splitFlight
  split
  · exact h
  · split
    · exact .modThread (loadRange_canonical h _ _ _ _)
    · exact .modThread (.modThread (loadAt_canonical h _ _ _ _ _))
    · exact .modThread (.modThread (storeAt_canonical h _ _ _ _))
    · exact h

theorem Canonical.elideFlight {t th f} (h : Canonical s) : Canonical (elideFlight s t th f) := by
  unfold Machine.elideFlight
  split
  · split
    · exact .modThread h
    · exact h
  · exact .ite (.modThread h) h
  · exact h

theorem Canonical.repeatAccess {t seq} (h : Canonical s) : Canonical (repeatAccess s t seq) := by
  unfold Machine.repeatAccess
  split
  · exact h
  · split
    · exact h
    · split
      · exact h
      · split
        · exact .modThread (storeAt_canonical h _ _ _ _)
        · split
          · split
            · exact .ite (.performFlight (.modThread h)) h
            · exact h
          · exact h

theorem Canonical.noteEndPts {tm p} (h : Canonical s) : Canonical (noteEndPts s tm p) := by
  unfold Machine.noteEndPts
  split
  · exact .modGrid h
  · exact h

theorem Canonical.performHeir {g} (h : Canonical s) : Canonical (performHeir s g) := by
  have h : Canonical { s with heirs := s.heirs.filter (fun x => !(x.thread == g.thread && x.seq == g.seq)) } := .frame h
  unfold Machine.performHeir
  split
  · exact .noteEndPts (.frame (.ite₂ (storeAt_canonical h _ _ _ _) (.writeLeft h)))
  · exact .noteEndPts (.frame (.atomAt h))
  · exact .noteEndPts (.frame h)

theorem Canonical.settleHeirs (h : Canonical s) : Canonical (settleHeirs s) := by
  unfold Machine.settleHeirs
  refine .foldl (fun h' => ?_) h
  split
  · exact .ite (.performHeir h') h'
  · exact h'

theorem Canonical.storeDevice {pa pts sealId bs} (h : Canonical s) : Canonical (storeDevice s pa pts sealId bs) :=
  storeRange_canonical h _ _ _ _

theorem Canonical.replyToRecord {t dests} (h : Canonical s) : Canonical (replyToRecord s t dests) := by
  unfold Machine.replyToRecord
  split
  · exact h
  · exact .ite h (.foldl (fun h' => .storeDevice h') h)

theorem Canonical.deliverFlight {t f vals} (h : Canonical s) : Canonical (deliverFlight s t f vals) :=
  .replyToRecord (.modThread h)

theorem Canonical.performAll {t fs} (h : Canonical s) : Canonical (performAll s t fs) :=
  .foldl (fun h' => .ite (.performFlight h') h') h

theorem Canonical.flush {t} (h : Canonical s) : Canonical (flush s t) := by
  unfold Machine.flush
  split
  · exact h
  · exact .modThread (.performAll h)

theorem Yields.performBefore {t as'} (h : Canonical s) : Yields Canonical (performBefore s t as') := by
  unfold Machine.performBefore
  split
  · exact .state h
  · exact .ite (.state (.performAll h)) .empty

theorem Canonical.readNow {t as'} (h : Canonical s) : Canonical (readNow s t as').2 := by
  unfold Machine.readNow
  dsimp only
  split
  · exact .flush h
  · exact .modThread (loadRange_canonical (.flush h) _ _ _ _)

theorem Canonical.writeNow {t as' bs} (h : Canonical s) : Canonical (writeNow s t as' bs) := by
  unfold Machine.writeNow
  dsimp only
  split
  · exact .flush h
  · exact .modThread (storeRange_canonical (.flush h) _ _ _ _)

/-- The times in the context records are rewritten (R203). -/
theorem Canonical.rebase (h : Canonical s) : Canonical (rebase s) :=
  .foldl (fun ⟨hm, hw, hd⟩ => ⟨Memory.wf_writeBytes _ _ hm, hw, hd⟩) (.frame h)

/-! ### A seal's pool -/

theorem Yields.poolTake {sealId n} (h : Canonical s) : Yields (fun r => Canonical r.2) (poolTake s sealId n) :=
  .map (p := fun _ => True) (fun _ => .frame h) (.all fun _ => trivial)

theorem Canonical.poolGive {sealId a} (h : Canonical s) : Canonical (poolGive s sealId a) := .modSeal h

theorem Canonical.poolTry {sealId n} (h : Canonical s) : Canonical (poolTry s sealId n).2 := by
  unfold Machine.poolTry
  split
  · next e => exact Yields.answer (.poolTake h) e
  · exact h

theorem Canonical.poolGive? {sealId a} (h : Canonical s) : Canonical (poolGive? s sealId a) := by
  unfold Machine.poolGive?
  split
  · exact .poolGive h
  · exact h

/-! ### Synchronisation -/

theorem Canonical.resumeToRecord {t} (h : Canonical s) : Canonical (resumeToRecord s t) := by
  unfold Machine.resumeToRecord
  split
  · exact .ite (.storeDevice h) h
  · exact h

theorem Canonical.raiseAsync {t cause infos} (h : Canonical s) : Canonical (raiseAsync s t cause infos) := .modThread h

theorem Canonical.raiseDue {t cause infos} (h : Canonical s) : Canonical (raiseDue s t cause infos) :=
  .resumeToRecord (.modThread h)

theorem Canonical.wakeBarrier {tmid id gen pts} (h : Canonical s) : Canonical (wakeBarrier s tmid id gen pts) :=
  .foldl (fun h' => .replyToRecord (.modThread h')) h

theorem Canonical.barrierCheck {tmid id} (h : Canonical s) : Canonical (barrierCheck s tmid id) := by
  unfold Machine.barrierCheck
  split
  · exact h
  · exact .ite (.wakeBarrier (.modTeam h)) h

theorem Canonical.barrierArrive {t th id roles} (h : Canonical s) : Canonical (barrierArrive s t th id roles) :=
  .barrierCheck (.modTeam h)

theorem Canonical.barriersAfterExit {tmid} (h : Canonical s) : Canonical (barriersAfterExit s tmid) :=
  .foldl (fun h' => .barrierCheck h') h

theorem Canonical.wakeArrival {tmid off gen pts} (h : Canonical s) : Canonical (wakeArrival s tmid off gen pts) := by
  unfold Machine.wakeArrival
  refine .foldl (fun h' => ?_) h
  split
  · exact .replyToRecord (.modThread h')
  · exact h'

theorem Canonical.arrComplete {tmid tm a w pts} (h : Canonical s) : Canonical (arrComplete s tmid tm a w pts) :=
  .wakeArrival (.modTeam h)

theorem Canonical.arrivalAdd {tmid off n pts} (h : Canonical s) : Canonical (arrivalAdd s tmid off n pts) := by
  unfold Machine.arrivalAdd
  split
  · exact h
  · split
    · exact h
    · next tm _ _ a _ =>
      have hm : Canonical (Machine.met s (.spad tmid off) 16) := .met h
      refine .ite (.modTeam hm) ?_
      have hd {c : Prop} [Decidable c] {w x} : Canonical (if c then Machine.arrComplete
        (Machine.met s (.spad tmid off) 16) tmid tm a w pts
          else Machine.modTeam (Machine.met s (.spad tmid off) 16) tmid x) := .ite (.arrComplete hm) (.modTeam hm)
      refine .ite ?_ hd
      cases threadOfTid _ tmid _ with
      | none => exact hd
      | some t => exact .raiseAsync hd

theorem Canonical.setQueue {handle q} (h : Canonical s) : Canonical (setQueue s handle q) := .frame h

theorem Canonical.grantEntry {t e pts} (h : Canonical s) : Canonical (grantEntry s t e pts) := by
  unfold Machine.grantEntry
  split
  · exact .replyToRecord (.modThread h)
  · exact h

theorem Canonical.queuePush {handle e pts} (h : Canonical s) : Canonical (queuePush s handle e pts) := by
  unfold Machine.queuePush
  dsimp only
  split
  · exact .grantEntry (.setQueue h)
  · exact .setQueue h

theorem Canonical.portPush {tmid gid q v} (h : Canonical s) : Canonical (portPush s tmid gid q v) := by
  unfold Machine.portPush
  split
  · exact h
  · split
    · dsimp only
      split
      · exact .replyToRecord (.modThread (.modTeam h))
      · exact .modTeam h
    · exact .modTeam h

/-! ### Operands -/

theorem Yields.legality {i opc} : Yields Stop.Keeps (Ctx.legality k i opc) :=
  .ite (.stop trivial) (.ite (.stop trivial) (.ite (.stop trivial)
    (.ite (.stop trivial) (.ite (.stop trivial) (.ite (.stop trivial) .empty)))))

theorem Gate.Keeps.gate {i opc srcs} : (Ctx.gate k i opc srcs).Keeps := by
  unfold Machine.Ctx.gate
  refine .ite trivial (.ite trivial ?_)
  split
  · exact trivial
  · refine .ite trivial ?_
    split
    · next e => exact Yields.answer .legality e
    · split <;> exact trivial

theorem Yields.budget {frees dests} : Yields Stop.Keeps (Ctx.budget k frees dests) := .ite .empty (.stop trivial)
theorem Gives.ret {d v} (hk : Canonical k.s) : Gives Eff.Keeps (ret k d v) := .eff hk
theorem Gives.ret64 {d v} (hk : Canonical k.s) : Gives Eff.Keeps (ret64 k d v) := .eff hk
theorem Gives.retLater {ec d vs} (hk : Canonical k.s) : Gives Eff.Keeps (retLater k ec d vs) := .eff hk

/-! ### Launch and placement -/

theorem Canonical.measure {t} (h : Canonical s) : Canonical (measure s t) := .ite h (.frame h)

theorem Canonical.enqueueGrid {r bufs arrs image pts task} (h : Canonical s) : Canonical
    (enqueueGrid s r bufs arrs image pts task).2 :=
  .ite₂ h (.frame (.fresh h))

theorem Canonical.placeActive {t} (h : Canonical s) : Canonical (placeActive s t) := by
  unfold Machine.placeActive
  split
  · exact h
  · exact .when (fun h' => .modThread h') (.modThread h)

theorem Canonical.makeRoom {c q budget fuel} (h : Canonical s) : Canonical (makeRoom c q budget fuel s) := by
  induction fuel generalizing s with
  | zero => exact h
  | succ fuel ih =>
    refine .ite h ?_
    split
    · exact ih (.frame h)
    · exact h

theorem Canonical.takeSaveAreas {tm} (h : Canonical s) : Canonical (takeSaveAreas s tm).2 := by
  refine .ite₂ h (.foldl₂ (fun h => ?_) h)
  split <;> next e => exact .of_eq (.poolTry h) e

theorem Canonical.placeThread {g tm i} (h : Canonical s) : Canonical (placeThread s g tm i) :=
  .placeActive (.setThread (.ite₂ (.fresh h) (.poolTry (.fresh h))))

theorem Canonical.placeTeam {gid g index c base} (h : Canonical s) : Canonical (placeTeam s gid g index c base).2 :=
  .foldl (fun h' => .placeThread h') (.measure (.frame (.takeSaveAreas (.fresh h))))

theorem Canonical.placeNext {k' gid g c base} (h : Canonical s) : Canonical (placeNext s k' gid g c base) :=
  .frame (.placeTeam h)

theorem Canonical.placeFrom {k fuel cs} (h : Canonical s) : Canonical (placeFrom s k fuel cs) := by
  induction fuel generalizing cs with
  | zero => exact h
  | succ fuel ih =>
    unfold Machine.placeFrom
    split
    · exact h
    · split
      · exact .placeNext h
      · exact ih

theorem Canonical.logDoneFault {sealId addr} (h : Canonical s) : Canonical (logDoneFault s sealId addr) := .logEvent h

theorem Canonical.taskComplete {g} (h : Canonical s) : Canonical (taskComplete s g) := by
  unfold Machine.taskComplete
  split
  · exact h
  · exact .frame h

theorem Canonical.dropGrid {gid g} (h : Canonical s) : Canonical (dropGrid s gid g) := .taskComplete (.frame h)

theorem Canonical.completeGrid {gid} (h : Canonical s) : Canonical (completeGrid s gid) := by
  unfold Machine.completeGrid
  split
  · exact h
  · refine .ite (.dropGrid h) ?_
    dsimp only
    split
    · next e => exact .dropGrid (storeAt_canonical (Canonical.translateNow h e) _ _ _ _)
    · exact .frame h
    · exact .dropGrid (.logDoneFault h)

/-! ### Slots and tiles of video -/

theorem Canonical.modSlot {r i f} (h : Canonical s) : Canonical (modSlot s r i f) := .modRing h

theorem Canonical.tileWrite {r frame strip x0 y0 w h' px} (h : Canonical s) : Canonical
    (tileWrite s r frame strip x0 y0 w h' px) := by
  unfold Machine.tileWrite
  split
  · exact h
  · exact .ite (.modSlot h) h

theorem Canonical.modLadder {r frame strip f} (h : Canonical s) : Canonical (modLadder s r frame strip f) := .frame h
theorem Canonical.firstAnswer {r frame strip} (h : Canonical s) : Canonical (firstAnswer s r frame strip) := .modLadder h
theorem Canonical.tileDone {r frame strip} (h : Canonical s) : Canonical (tileDone s r frame strip) := .modLadder h

/-! ### Passes -/

theorem Canonical.completeTile {id p k x} (h : Canonical s) : Canonical (completeTile s id p k x) :=
  .tileDone (.when (fun h => .tileWrite h) (.frame h))

theorem Canonical.tileCheck {id k'} (h : Canonical s) : Canonical (tileCheck s id k') := by
  unfold Machine.tileCheck
  split
  · exact h
  · split
    · exact h
    · split
      · exact .ite (.completeTile h) h
      · exact h

theorem Canonical.formTile {id p k'} (h : Canonical s) : Canonical (formTile s id p k') := by
  unfold Machine.formTile
  split
  · exact h
  · split
    · exact h
    · exact .modPass h

theorem Canonical.passTiles {id strip t t'} (h : Canonical s) : Canonical (passTiles s id strip t t') := by
  unfold Machine.passTiles
  refine .foldl (fun h' => ?_) h
  split
  · exact h'
  · exact .tileCheck (.formTile h')

theorem Canonical.answerFrag {p w vals} (h : Canonical s) : Canonical (answerFrag s p w vals) := .modThread h

theorem Canonical.handFrag {id strip t num w} (h : Canonical s) : Canonical (handFrag s id strip t num w) := by
  unfold Machine.handFrag
  split
  · exact h
  · dsimp only
    split
    · exact .formTile h
    · split
      · exact .formTile h
      · exact .answerFrag (.modPass (.formTile h))

theorem Canonical.serveStrip {id strip fuel} (h : Canonical s) : Canonical (serveStrip id strip fuel s) := by
  induction fuel generalizing s with
  | zero => exact h
  | succ fuel ih =>
    unfold Machine.serveStrip
    split
    · exact h
    · split
      · exact h
      · refine .ite (ih (.frame h)) (.ite h ?_)
        dsimp only
        split
        · exact h
        · exact ih (.answerFrag (.modPass (.passTiles (.firstAnswer (.modPass h)))))
        · exact ih (.handFrag (.passTiles (.firstAnswer (.modPass h))))

theorem Canonical.serve {id strip} (h : Canonical s) : Canonical (serve s id strip) := .serveStrip h

theorem Canonical.endHandle {id key tile} (h : Canonical s) : Canonical (endHandle s id key tile) := by
  unfold Machine.endHandle
  split
  · exact h
  · exact .tileCheck (.modPass h)

theorem Canonical.endBinding {t pass} (h : Canonical s) : Canonical (endBinding s t pass) := by
  unfold Machine.endBinding
  split
  · exact h
  · exact .modPass h

theorem Canonical.endAtUnits {t th} (h : Canonical s) : Canonical (endAtUnits s t th) :=
  .frame (.foldl (fun h' => .foldl (fun h'' => .endHandle h'') h') (.endBinding (.endBinding h)))

/-! ### Rays -/

theorem Canonical.finishRay {id status} (h : Canonical s) : Canonical (finishRay s id status) := by
  unfold Machine.finishRay
  split
  · dsimp only
    split
    · exact .modRay h
    · split
      · exact .when (fun h3 => .replyToRecord (.modThread h3)) (.modRay h)
      · exact .modRay h
  · dsimp only
    split
    · exact .modRay h
    · split
      · exact .when (fun h3 => .replyToRecord (.modThread h3)) (.modRay h)
      · exact .modRay h

theorem Canonical.commitRay {id h'} (h : Canonical s) : Canonical (commitRay s id h') := .modRay h

theorem Canonical.commitThen {id h' stop} (h : Canonical s) : Canonical (commitThen s id h' stop) :=
  .when (fun h'' => .finishRay h'') (.commitRay h)

theorem Canonical.saveRay {id} (h : Canonical s) : Canonical (saveRay s id) := by
  unfold Machine.saveRay
  split
  · exact h
  · split
    · exact .storeDevice (.modSeal (.draw h))
    · exact h

theorem Canonical.saveRays {t} (h : Canonical s) : Canonical (saveRays s t) := .foldl (fun h' => .saveRay h') h

theorem Canonical.applyVerdict {id t code tval} (h : Canonical s) : Canonical (applyVerdict s id t code tval) := by
  unfold Machine.applyVerdict
  split
  · exact h
  · split
    · exact h
    · refine .ite h (.saveRay ?_)
      split
      · exact .modRay h
      · split
        · exact .commitThen (.modRay h)
        · exact .when (fun h' => .finishRay h') (.modRay h)

theorem Canonical.freeRays {t} (h : Canonical s) : Canonical (freeRays s t) := .frame h

theorem Canonical.endAtRays {t th} (h : Canonical s) : Canonical (endAtRays s t th) := by
  unfold Machine.endAtRays
  split
  · exact .whenNot (fun h' => .applyVerdict h') (.freeRays h)
  · exact .freeRays h

/-! ### Chains -/

theorem Canonical.reclaimThread {t} (h : Canonical s) : Canonical (reclaimThread s t) := by
  unfold Machine.reclaimThread
  split
  · exact h
  · exact .ite h (.ite (.modThread h) (.placeActive (.modThread h)))

theorem Canonical.reclaim {c} (h : Canonical s) : Canonical (reclaim s c) := .foldl (fun h' => .reclaimThread h') h

theorem Canonical.addClaims {chain cs} (h : Canonical s) : Canonical (addClaims s chain cs) :=
  .foldl (fun h' => .reclaim (.modCore h')) h

theorem Canonical.dropClaims {chain cs} (h : Canonical s) : Canonical (dropClaims s chain cs) :=
  .foldl (fun h' => .reclaim (.modCore h')) h

theorem Canonical.settleReserves (h : Canonical s) : Canonical (settleReserves s) := by
  unfold Machine.settleReserves
  refine .foldl (fun h' => ?_) h
  split
  · exact .ite h' (.frame h')
  · exact h'

theorem Canonical.returnReserve {tm} (h : Canonical s) : Canonical (returnReserve s tm) := .settleReserves (.frame h)
theorem Canonical.releaseOutput {o} (h : Canonical s) : Canonical (releaseOutput s o) := .frame h

theorem Canonical.placeSlice {cid i} (h : Canonical s) : Canonical (placeSlice s cid i) := by
  unfold Machine.placeSlice
  split
  · exact h
  · split
    · dsimp only
      generalize e : Machine.placeTeam _ _ _ _ _ _ = r
      have hr : Canonical r.2 := .of_eq (.placeTeam (.frame h)) e
      exact .frame hr
    · exact h

theorem Canonical.placeReady {cid} (h : Canonical s) : Canonical (placeReady s cid) := by
  unfold Machine.placeReady
  split
  · exact h
  · refine .foldl (fun h' => ?_) h
    split
    · exact h'
    · split
      · exact h'
      · exact .ite (.placeSlice h') h'

theorem Canonical.placeWaiting (h : Canonical s) : Canonical (placeWaiting s) := .foldl (fun h' => .placeReady h') h
theorem Canonical.remakeReserves (h : Canonical s) : Canonical (remakeReserves s) := .placeWaiting (.settleReserves h)

theorem Canonical.endChain {cid} (h : Canonical s) : Canonical (endChain s cid) := by
  unfold Machine.endChain
  split
  · exact h
  · exact .releaseOutput (.dropClaims (.frame h))

theorem Canonical.sliceEnded {jid} (h : Canonical s) : Canonical (sliceEnded s jid) := by
  unfold Machine.sliceEnded
  split
  · exact h
  · next j _ =>
    have hr : Canonical (Machine.returnReserve { s with jobs := kdel s.jobs jid } j.team) := .returnReserve (.frame h)
    split
    · exact hr
    · dsimp only
      split
      · exact .placeWaiting (.frame hr)
      · exact .ite (.endChain (.placeWaiting (.frame hr))) (.placeWaiting (.frame hr))

theorem Canonical.teamEmptied {tm} (h : Canonical s) : Canonical (teamEmptied s tm) := by
  unfold Machine.teamEmptied
  split
  · exact h
  · split
    · exact h
    · exact .ite (.sliceEnded h) h

theorem Canonical.makeJob {tm r} (h : Canonical s) : Canonical (makeJob s tm r) := .ite h (.modTeam (.frame (.fresh h)))

/-! ### Ligatures -/

theorem Canonical.modLig {tm gid l f} (h : Canonical s) : Canonical (modLig s tm gid l f) := .modTeam h

theorem Canonical.completeParts {ps pts} (h : Canonical s) : Canonical (completeParts s ps pts) :=
  .foldl (fun h' => .modThread h') h

theorem Canonical.breach {tm gid l ps infos} (h : Canonical s) : Canonical (breach s tm gid l ps infos) :=
  .modLig (.foldl (fun h' => .raiseDue h') h)

theorem Canonical.releaseLig {tm gid l} (h : Canonical s) : Canonical (releaseLig s tm gid l) := by
  unfold Machine.releaseLig
  split
  · exact h
  · exact .foldl (fun h' => .modThread h') (.modLig h)

/-! ### Orders of accesses -/

theorem Canonical.spillBank {team key} (h : Canonical s) : Canonical (spillBank s team key) := by
  unfold Machine.spillBank
  split
  · exact h
  · split
    · exact .storeDevice (.modTeam h)
    · exact .modTeam h

theorem Canonical.fillBank {c team key} (h : Canonical s) : Canonical (fillBank s c team key) := by
  unfold Machine.fillBank
  split
  · exact h
  · dsimp only
    split
    · exact .modTeam (loadRange_canonical h _ _ _ _)
    · exact .modTeam h

theorem Canonical.unmarkBank {team key} (h : Canonical s) : Canonical (unmarkBank s team key) := .modTeam h

theorem Canonical.assignSet {c one team key id} (h : Canonical s) : Canonical (assignSet s c one team key id) :=
  .ite (.unmarkBank (.modCore h)) (.fillBank (.modCore h))

theorem Canonical.serveBank {c team key id one} (h : Canonical s) : Canonical (serveBank s c team key id one) :=
  .whenNot (fun h' => .ite (.assignSet h) (.modMtx h')) (.modCore h)

theorem Canonical.enterMtx {o} (h : Canonical s) : Canonical (enterMtx s o).2 := by
  unfold Machine.enterMtx
  split
  · next s' e =>
      have h' : Canonical s' := .of_eq (.fresh h) e
      dsimp only
      split
      · exact .serveBank (.frame h')
      · exact .frame h'

/-! ### Tiles -/

theorem Yields.quadrantCheck {tm quad b iw q} : Yields Stop.Keeps (quadrantCheck tm quad b iw q) :=
  .ite (.stop trivial) (.ite (.stop trivial) (.ite (.stop trivial)
    (.ite (.stop trivial) (.map (fun _ => trivial) (.all fun _ => trivial)))))

theorem Gives.blockCheck {tm bs} : Gives (fun _ => True) (blockCheck k tm bs) := by
  refine .ite .trap ?_
  dsimp only
  split
  · next e =>
    obtain ⟨q, _, e⟩ := List.exists_of_findSome?_eq_some e
    exact Gives.stop (Yields.answer .quadrantCheck e)
  · exact .value

theorem Canonical.startMma {team quad sealId pts b ts} (h : Canonical s) : Canonical
    (startMma s team quad sealId pts b ts) :=
  .foldl (fun h' => .modThread h') (.enterMtx h)

theorem Yields.partCtx {p} (h : Canonical s) : Yields (fun k => Canonical k.s) (partCtx s p) :=
  .map (p := fun _ => True) (fun _ => h) (.all fun _ => trivial)

theorem Gives.mmacBytes {p} (hk : Canonical k.s) : Gives (fun r => Canonical r.2) (mmacBytes k p) := by
  unfold Machine.mmacBytes
  refine .ite (.pair hk) ?_
  dsimp only
  split
  · next e => exact .stop (Gives.stopped (.checkAccess hk) e)
  · exact .pair (.readNow hk)

theorem Gives.mmacCheck {p} (hk : Canonical k.s) : Gives (fun r => Canonical r.2) (mmacCheck k p) := by
  unfold Machine.mmacCheck
  split
  · exact .trap
  · refine .ite .trap ?_
    split
    · next e => exact .stop (Gives.stopped (.mmacBytes hk) e)
    · next e => exact .map (fun _ => Gives.answer (.mmacBytes hk) e) .blockCheck

theorem Vote.Keeps.mmacVote {ps} (h : Canonical s) : (mmacVote s ps).Keeps := by
  unfold Machine.mmacVote
  split
  · trivial
  · split
    · trivial
    · split
      · trivial
      · next e =>
        split
        · trivial
        · next e' => exact .ite trivial (Canonical.startMma (Gives.answer (.mmacCheck (Yields.answer (.partCtx h) e)) e'))

/-! ### Operations and the issue of a word -/

theorem Canonical.ligCheck {tm gid l} (h : Canonical s) : Canonical (ligCheck s tm gid l) := by
  unfold Machine.ligCheck
  split
  · exact h
  · exact .releaseLig h
  · exact .breach h
  · exact .breach h
  · split
    · split
      · exact h
      · exact .modLig (.foldl (fun h' => .raiseDue h') h)
      · next e => exact .completeParts (.modLig (Vote.Keeps.go (.mmacVote h) e))
    · exact .completeParts (.modLig h)

theorem Canonical.rejudge {t} (h : Canonical s) : Canonical (rejudge s t) := by
  unfold Machine.rejudge
  split
  · split
    · exact .ligCheck h
    · exact h
  · exact h

theorem Canonical.rejudgeCore {c} (h : Canonical s) : Canonical (rejudgeCore s c) := .foldl (fun h' => .rejudge h') h

theorem Canonical.arriveLig {t th l w} (h : Canonical s) : Canonical (arriveLig s t th l w) :=
  .ligCheck (.modLig (.modThread (.flush h)))

theorem Canonical.leaveLig {th l} (h : Canonical s) : Canonical (leaveLig s th l) := .ligCheck (.modLig h)

theorem Canonical.releaseAreas {th} (h : Canonical s) : Canonical (releaseAreas s th) :=
  .when (fun h' => .poolGive? (.poolGive h')) (.poolGive? h)

theorem Canonical.dropWaiter {t tm} (h : Canonical s) : Canonical (dropWaiter s t tm) := .modTeam (.frame h)

theorem Canonical.storeAnswers {th} (h : Canonical s) : Canonical (storeAnswers s th) := by
  unfold Machine.storeAnswers
  refine .foldl (fun h' => ?_) h
  split
  · exact poke_canonical h' _ _
  · exact h'

theorem Canonical.dropResults {t} (h : Canonical s) : Canonical (dropResults s t) := .modThread h

theorem Canonical.bequeath {t th} (h : Canonical s) : Canonical (bequeath s t th) := by
  unfold Machine.bequeath
  refine .foldl (fun h' => ?_) h
  split
  · exact .frame h'
  · exact .frame h'
  · exact .modMtx h'
  · exact .modMtx h'
  · exact h'

theorem Canonical.endThread {t} (h : Canonical s) : Canonical (endThread s t) := by
  unfold Machine.endThread
  dsimp only
  split
  · exact .dropLines (.flush (.dropResults h))
  · refine .teamEmptied ?_
    split
    · exact .endAtRays (.endAtUnits (.barriersAfterExit (.dropWaiter
        (.foldl (fun h' => .leaveLig h') (.releaseAreas (.storeAnswers
        (.frame (.bequeath (.dropLines (.flush (.dropResults h)))))))))))
    · exact .modGrid (.endAtRays (.endAtUnits (.barriersAfterExit
        (.dropWaiter (.foldl (fun h' => .leaveLig h') (.releaseAreas
        (.storeAnswers (.frame (.bequeath (.dropLines (.flush (.dropResults h))))))))))))

theorem Canonical.logUnhandled {th cause tpc double} (h : Canonical s) : Canonical (logUnhandled s th cause tpc double) :=
  .logEvent h

theorem Canonical.doubleTrap {t cause} (h : Canonical s) : Canonical (doubleTrap s t cause) := by
  unfold Machine.doubleTrap
  split
  · exact h
  · exact .endThread (.logUnhandled h)

theorem Canonical.metVector {sealId cause} (h : Canonical s) : Canonical (metVector s sealId cause) := .ite h (.met h)

theorem Canonical.deliver {t cause i0 i1 i2 i3 words} (h : Canonical s) : Canonical
    (deliver s t cause i0 i1 i2 i3 words) := by
  unfold Machine.deliver
  split
  · exact h
  · split
    · exact .doubleTrap h
    · split
      · dsimp only
        split
        · exact .doubleTrap (.metVector h)
        · exact .modThread (.metVector h)
        · exact .setThread (.metVector h)
      · dsimp only
        split
        · exact .doubleTrap (.metVector h)
        · exact .endThread (.logUnhandled (.metVector h))
        · exact .setThread (.metVector h)

theorem Canonical.trapSync {t cause i0 i1 i2 i3} (h : Canonical s) : Canonical (trapSync s t cause i0 i1 i2 i3) := by
  unfold Machine.trapSync
  split
  · exact h
  · exact .deliver (.setThread h)

theorem Canonical.trapDue {t h'} (h : Canonical s) : Canonical (trapDue s t h') := by
  unfold Machine.trapDue
  split
  · exact h
  · exact .deliver (.setThread h)

theorem Canonical.stopped {st : Stop} {t} (h : Canonical s) (hs : st.Keeps) : Canonical (stopped s t st) := by
  cases st with
  | trap => exact .trapSync h
  | held => exact hs

theorem Canonical.holdAt {t} (h : Canonical s) : Canonical (holdAt s t) := .modThread h

theorem Canonical.complete {e : Eff} {sw frees} (he : e.Keeps) : Canonical (complete k sw frees e) :=
  he.2 _ (.frame he.1)

theorem Canonical.finish {e : Eff} {sw frees} (hk : Canonical k.s) (he : e.Keeps) : Canonical (finish k sw frees e) :=
  .ite (.holdAt hk) (.complete he)

/-- A word issued keeps the form when its body does. -/
theorem Canonical.issueAt {i srcs body t th} (h : Canonical s) (hb : ∀ {k}, Canonical k.s → Gives Eff.Keeps (body k)) :
    Canonical (issueAt i srcs body s t th) := by
  have hk : Canonical (ctxOf (Machine.modThread s t fun th => { th with wait := .ready }) t th).s := .frame h
  unfold Machine.issueAt
  dsimp only
  split
  · exact .frame h
  · next e => exact .stopped (.frame h) (Gate.Keeps.stop .gate e)
  · split
    · next e => exact .stopped (.frame h) (Gives.stopped (hb hk) e)
    · next e =>
      split
      · next e' => exact .stopped (.frame h) (Yields.answer .budget e')
      · exact .finish hk (Gives.answer (hb hk) e)

theorem KeepsCanonical.issue {i srcs body} (h : Canonical s) (hb : ∀ {k}, Canonical k.s → Gives Eff.Keeps (body k)) :
    KeepsCanonical (issue i srcs body s) := by
  unfold Machine.issue
  split
  · exact .fault
  · split
    · exact .fault
    · exact .next (.issueAt h hb)

theorem Gives.floatWrites {ws nan c} (hk : Canonical k.s) : Gives Eff.Keeps (floatWrites k ws nan c) := by
  unfold Machine.floatWrites
  split
  · exact .trap
  · exact .eff (.setThread hk)

theorem Gives.floatRet {d r a b} (hk : Canonical k.s) : Gives Eff.Keeps (floatRet k d r a b) := .floatWrites hk

/-! ### Fetch -/

theorem Canonical.noteIssue {t} (h : Canonical s) : Canonical (noteIssue s t) := .frame h
theorem Canonical.askToken {c g} (h : Canonical s) : Canonical (askToken s c g) := .modCore h

theorem Gives.fetchWord {t addr} (h : Canonical s) : Gives (fun r => Canonical r.2) (fetchWord s t addr) := by
  unfold Machine.fetchWord
  split
  · exact .held h
  · refine .ite .trap ?_
    split
    · next e => exact .stop (Gives.stopped (.checkAccess h) e)
    · exact .pair (.modThread (loadAt_canonical h _ _ _ _ _))

theorem Gives.fetchWords {t addr n} (h : Canonical s) : Gives (fun r => Canonical r.2) (fetchWords s t addr n) := by
  induction n generalizing s addr with
  | zero => exact .pair h
  | succ n ih =>
    unfold Machine.fetchWords
    split
    · next e => exact .stop (Gives.stopped (.fetchWord h) e)
    · next e => exact .map (fun h => h) (ih (Gives.answer (.fetchWord h) e))

theorem Yields.flushForFetch {t th addr n} (h : Canonical s) : Yields Canonical (flushForFetch s t th addr n) :=
  .performBefore h

theorem Stop.Keeps.heldAt {t} (h : Canonical s) : (heldAt s t).Keeps := .holdAt h

theorem Gives.fetchRun {t th addr n} (h : Canonical s) : Gives (fun r => Canonical r.2) (fetchRun s t th addr n) := by
  unfold Machine.fetchRun
  split
  · exact .stop (.heldAt h)
  · next e => exact .fetchWords (Yields.answer (.flushForFetch h) e)

theorem Gives.fetchClause {t th} (h : Canonical s) : Gives (fun r => Canonical r.2) (fetchClause s t th) := by
  unfold Machine.fetchClause
  split
  · next e => exact .stop (Gives.stopped (.fetchRun h) e)
  · next s' e =>
      have h' : Canonical s' := Gives.answer (.fetchRun h) e
      dsimp only
      split
      · next e => exact .stop (Gives.stopped (.fetchRun h') e)
      · next e' =>
          split
          · exact .pair (Gives.answer (.fetchRun h') e')
          · exact .trap

theorem Canonical.startClause {t c} (h : Canonical s) : Canonical (startClause s t c) := by
  unfold Machine.startClause
  split
  · exact h
  · exact .ite (.setThread h) (.ite (.ite (.setThread (.askToken h)) (.setThread (.askToken h))) (.setThread h))

theorem Canonical.reachMeet {t th} (h : Canonical s) : Canonical (reachMeet s t th) := .ite (.holdAt h) (.arriveLig h)

theorem Canonical.passHeader {t} (h : Canonical s) : Canonical (passHeader s t) := by
  unfold Machine.passHeader
  split
  · exact h
  · split
    · exact h
    · split
      · split
        · exact .startClause h
        · split
          · split
            · next e => exact .stopped h (Gives.stopped (.fetchRun h) e)
            · next e => exact .modThread (Gives.answer (.fetchRun h) e)
          · exact h
      · split
        · exact .reachMeet h
        · split
          · next e => exact .stopped h (Gives.stopped (.fetchClause h) e)
          · next e => exact .startClause (Gives.answer (.fetchClause h) e)

theorem KeepsCanonical.execClauseIssue {t} (h : Canonical s) : KeepsCanonical (execClauseIssue t s) := .next (.passHeader h)
theorem KeepsCanonical.execParkEnd {t} (h : Canonical s) : KeepsCanonical (execParkEnd t s) := .next (.modThread h)

theorem Canonical.performNow {t seq peer} (h : Canonical s) : Canonical (performNow s t seq peer) := by
  unfold Machine.performNow
  split
  · exact h
  · exact .ite h (.performFlight h)

theorem Canonical.tryPerform {t seq way peer} (h : Canonical s) : Canonical (tryPerform s t seq way peer) := by
  unfold Machine.tryPerform
  split
  · exact .repeatAccess h
  · exact h
  · exact .ite h (.elideFlight h)
  · exact .ite (.splitFlight h) (.performNow h)
  · refine .foldl (fun h' => ?_) (.performNow h)
    split
    · exact .ite (.performNow h') h'
    · exact h'
  · exact .performNow h

theorem KeepsCanonical.execResultWritten {t seq peer way} (h : Canonical s) : KeepsCanonical
    (execResultWritten t seq peer way s) := by
  unfold Machine.execResultWritten
  refine .next ?_
  split
  · split
    · exact .whenNot (fun h' => .deliverFlight h') (.tryPerform h)
    · exact .tryPerform h
  · exact .tryPerform h

theorem KeepsCanonical.execAsynchronousTrapDelivery {t} (h : Canonical s) : KeepsCanonical
    (execAsynchronousTrapDelivery t s) := by
  unfold Machine.execAsynchronousTrapDelivery
  refine .next ?_
  split
  · exact h
  · split
    · exact h
    · split
      · exact h
      · exact .deliver (.setThread h)

theorem Gives.before {a} (hk : Canonical k.s) : Gives Canonical (Ctx.before k a) := by
  unfold Machine.Ctx.before
  split
  · next e => exact .state (Yields.answer (.performBefore hk) e)
  · exact .held (.holdAt hk)

/-! ### Accesses -/

theorem Canonical.openRemote {who sealId dest off len pts data atom numbered} (h : Canonical s) : Canonical
    (openRemote s who sealId dest off len pts data atom numbered).2 :=
  .frame (.fresh h)

theorem Canonical.takeLine {c level line wts rts bs} (h : Canonical s) : Canonical (takeLine s c level line wts rts bs) :=
  .when (fun h' => .putCopy h') (.ite h (.putCopy h))

theorem Canonical.noteRegion {th a} (h : Canonical s) : Canonical (noteRegion s th a) := by
  unfold Machine.noteRegion
  split
  · exact .foldl (fun h' => .frame h') h
  · exact h

theorem Gives.sendAccess {a ec dests op signed data atom} (hk : Canonical k.s) : Gives Eff.Keeps
    (sendAccess k a ec dests op signed data atom) := by
  unfold Machine.sendAccess
  refine .ite (.held (.holdAt hk)) ?_
  split
  · split
    · exact .held (.holdAt hk)
    · next s e' =>
        have h : Canonical s := Yields.answer (.performBefore hk) e'
        split
        · dsimp only
          split
          · exact .eff (.modThread (.modThread h))
          · exact .eff (.openRemote (.modThread h))
        · dsimp only
          split
          · exact .eff (.modThread h)
          · exact .eff (.openRemote h)
  · exact .eff (.noteRegion hk)

theorem Gives.loadBody {wins t a z strong sx} (hk : Canonical k.s) : Gives Eff.Keeps (loadBody wins t a z strong sx k) := by
  unfold Machine.loadBody
  dsimp only
  split
  · next e => exact .stop (Gives.stopped (.checkAccess hk) e)
  · exact .sendAccess hk

theorem Gives.storeBody {wins t a z strong} (hk : Canonical k.s) : Gives Eff.Keeps (storeBody wins t a z strong k) := by
  unfold Machine.storeBody
  dsimp only
  split
  · next e => exact .stop (Gives.stopped (.checkAccess hk) e)
  · exact .sendAccess hk

theorem KeepsCanonical.execLdg {sw t a z g e x} (h : Canonical s) : KeepsCanonical (execLdg sw t a z g e x s) :=
  .issue h (fun h' => .loadBody h')

theorem KeepsCanonical.execStg {sw t a z g x} (h : Canonical s) : KeepsCanonical (execStg sw t a z g x s) :=
  .issue h (fun h' => .storeBody h')

theorem KeepsCanonical.execLds {sw t a z g e x} (h : Canonical s) : KeepsCanonical (execLds sw t a z g e x s) :=
  .issue h (fun h' => .loadBody h')

theorem KeepsCanonical.execSts {sw t a z g x} (h : Canonical s) : KeepsCanonical (execSts sw t a z g x s) :=
  .issue h (fun h' => .storeBody h')

theorem KeepsCanonical.execLdp {sw t a z g e x} (h : Canonical s) : KeepsCanonical (execLdp sw t a z g e x s) :=
  .issue h (fun h' => .loadBody h')

theorem KeepsCanonical.execStp {sw t a z g x} (h : Canonical s) : KeepsCanonical (execStp sw t a z g x s) :=
  .issue h (fun h' => .storeBody h')

theorem KeepsCanonical.execLdc {sw t a z g e x} (h : Canonical s) : KeepsCanonical (execLdc sw t a z g e x s) :=
  .issue h (fun h' => .loadBody h')

theorem KeepsCanonical.execStc {sw t a z g x} (h : Canonical s) : KeepsCanonical (execStc sw t a z g x s) :=
  .issue h (fun h' => .storeBody h')

theorem KeepsCanonical.execLdw {sw t a z e x} (h : Canonical s) : KeepsCanonical (execLdw sw t a z e x s) :=
  .issue h (fun h' => .loadBody h')

theorem Yields.prefPage {th va} (h : Canonical s) : Yields (fun r => Canonical r.2.2) (prefPage s th va) := by
  unfold Machine.prefPage
  split
  · next e => exact .ite .empty (.of_eq (.unitWalk h) e)
  · exact .empty

theorem Yields.prefAccess {th addr level} (h : Canonical s) : Yields (fun r => Canonical r.2)
    (prefAccess s th addr level) := by
  unfold Machine.prefAccess
  refine .bind (fun h' => .ite .empty ?_) (.prefPage h)
  exact h'

theorem Canonical.takePrefetch {t a level} (h : Canonical s) : Canonical (takePrefetch s t a level) := by
  unfold Machine.takePrefetch
  split
  · exact .takeLine (.homeLoad (.sliceVisit (.met h)))
  · exact h

theorem Canonical.prefOp {addr level} (hk : Canonical k.s) : Canonical (prefOp k addr level).2 := by
  unfold Machine.prefOp
  split
  · exact .ite₂ (.openRemote hk) hk
  · split
    · next e => exact Yields.answer (.prefAccess hk) e
    · exact hk

theorem KeepsCanonical.execPref {sw a z x} (h : Canonical s) : KeepsCanonical (execPref sw a z x s) := by
  unfold Machine.execPref
  refine .issue h (fun h' => ?_)
  dsimp only
  split
  · exact .trap
  · exact .ite .trap (.eff (.prefOp h'))

theorem Gives.pinEntry {addr} (hk : Canonical k.s) : Gives (fun _ => True) (pinEntry k addr) := by
  unfold Machine.pinEntry
  split
  · exact .trap
  · exact .ite .trap (.ite .trap (.entryFor hk))

theorem Canonical.pinLine {level l cattr} (h : Canonical s) : Canonical (pinLine s k level l cattr) :=
  .ite h (.when (fun h' => .putCopy (.homeLoad h')) (.sliceVisit (.met h)))

theorem KeepsCanonical.execPin {sw t a z x} (h : Canonical s) : KeepsCanonical (execPin sw t a z x s) := by
  unfold Machine.execPin
  refine .issue h (fun h' => ?_)
  dsimp only
  split
  · next e => exact .stop (Gives.stopped (.pinEntry h') e)
  · split
    · exact .trap
    · refine .ite .trap ?_
      split
      · exact .retLater h'
      · exact .ite (.retLater h') (.inState (.pinLine (.modLines h')) (.retLater h'))

theorem KeepsCanonical.execUnpin {sw t a z x} (h : Canonical s) : KeepsCanonical (execUnpin sw t a z x s) := by
  unfold Machine.execUnpin
  refine .issue h (fun h' => ?_)
  split
  · next e => exact .stop (Gives.stopped (.pinEntry h') e)
  · split
    · exact .retLater h'
    · exact .ite (.retLater h') (.inState (.modLines h') (.retLater h'))

theorem Gives.atomBody {wins a len kind ec dests op} (hk : Canonical k.s) : Gives Eff.Keeps
    (atomBody wins a len kind ec dests op k) := by
  unfold Machine.atomBody
  split
  · next e => exact .stop (Gives.stopped (.checkAccess hk) e)
  · exact .sendAccess hk

theorem KeepsCanonical.execAtom {sw d a b x y m} (h : Canonical s) : KeepsCanonical (execAtom sw d a b x y m s) :=
  .issue h (fun h' => .ite .trap (.atomBody h'))

theorem Gives.atomcBody {d a b m} (hk : Canonical k.s) : Gives Eff.Keeps (atomcBody d a b m k) := .atomBody hk

theorem KeepsCanonical.execAtomc {sw d a b x y m} (h : Canonical s) : KeepsCanonical (execAtomc sw d a b x y m s) :=
  .issue h (fun h' => .atomcBody h')

theorem KeepsCanonical.execAtomf {sw d a b x y m} (h : Canonical s) : KeepsCanonical (execAtomf sw d a b x y m s) :=
  .issue h (fun h' => .atomBody h')

theorem KeepsCanonical.execXacc {sw a b x y} (h : Canonical s) : KeepsCanonical (execXacc sw a b x y s) :=
  .issue h (fun h' => .atomBody h')

theorem KeepsCanonical.execXaccp {sw a b x y} (h : Canonical s) : KeepsCanonical (execXaccp sw a b x y s) :=
  .issue h (fun h' => .atomBody h')

theorem KeepsCanonical.execXrd {sw d a x m} (h : Canonical s) : KeepsCanonical (execXrd sw d a x m s) :=
  .issue h (fun h' => .atomBody h')

theorem KeepsCanonical.execXclr {sw a x} (h : Canonical s) : KeepsCanonical (execXclr sw a x s) :=
  .issue h (fun h' => .atomBody h')

theorem KeepsCanonical.execFencew {sw} (h : Canonical s) : KeepsCanonical (execFencew sw s) :=
  .issue h (fun h' => .eff (.setThread h'))

theorem KeepsCanonical.execFence {sw} (h : Canonical s) : KeepsCanonical (execFence sw s) :=
  .issue h (fun h' => .eff (.setThread h'))

theorem Canonical.registered {t cmd} (h : Canonical s) : Canonical (registered s t cmd) := .modThread h

theorem Canonical.splitTile_go {t th f id off n o all} (h : Canonical s) : Canonical
    (splitTile.go t th f id off n s o all) :=
  .ite h (.modThread (storeRange_canonical h _ _ _ _))

theorem Canonical.splitTile {t th f id off n} (h : Canonical s) : Canonical (splitTile s t th f id off n) := by
  unfold Machine.splitTile
  split
  · exact h
  · split
    · exact .splitTile_go h
    · exact .splitTile_go h
    · exact h

theorem KeepsCanonical.execStorePerformed {t seq way} (h : Canonical s) : KeepsCanonical
    (execStorePerformed t seq way s) := by
  unfold Machine.execStorePerformed
  refine .next ?_
  split
  · split
    · exact .tryPerform h
    · split
      · exact .splitTile h
      · exact h
    · exact .ite h (.modThread (.takePrefetch h))
    · exact h
  · exact .ite (.repeatAccess h) h

theorem KeepsCanonical.execAtomicPerformed {t seq} (h : Canonical s) : KeepsCanonical (execAtomicPerformed t seq s) := by
  unfold Machine.execAtomicPerformed
  refine .next ?_
  split
  · split
    · exact .performNow h
    · exact h
  · exact h

theorem KeepsCanonical.execPtsSelfAdvance {t} (h : Canonical s) : KeepsCanonical (execPtsSelfAdvance t s) := by
  unfold Machine.execPtsSelfAdvance
  refine .next ?_
  split
  · exact h
  · exact .ite h (.setThread h)

theorem KeepsCanonical.execLeaseExpiry {place line} (h : Canonical s) : KeepsCanonical (execLeaseExpiry place line s) := by
  unfold Machine.execLeaseExpiry
  refine .next ?_
  split
  · exact h
  · exact .ite h (.when (fun h' => .tagVictims h') (.modLines h))

theorem Canonical.wakeWalk {ths level reason} (h : Canonical s) : Canonical (wakeWalk s ths level reason) := by
  unfold Machine.wakeWalk
  refine .foldl (fun h' => ?_) h
  split
  · exact h'
  · split
    · split
      · exact .raiseDue h'
      · exact .raiseDue h'
      · exact .modThread h'
    · split
      · exact .raiseDue h'
      · exact .raiseDue h'
      · exact .modThread h'

theorem Canonical.enterFault {st sealId va kind ths} (h : Canonical s) : Canonical (enterFault s st sealId va kind ths) := by
  unfold Machine.enterFault
  refine .foldl (fun h' => .modThread h') ?_
  split
  · exact .modStation h
  · exact .modStation (.logFault h)

theorem Canonical.walkComplete {st w} (h : Canonical s) : Canonical (walkComplete s st w) := by
  unfold Machine.walkComplete
  split
  · dsimp only
    split
    · exact .noteWalk h
    · exact .wakeWalk (setAccessed_canonical (.modStation (.noteWalk h)) _ _)
    · exact .wakeWalk (.modStation (.noteWalk h))
    · exact .wakeWalk (.modStation (.noteWalk h))
    · exact .wakeWalk (.modStation (.noteWalk h))
    · exact .whenNot (fun h' => .enterFault (.modStation h')) (.noteWalk h)
  · dsimp only
    split
    · exact .noteWalk h
    · exact .wakeWalk (.tlbInsert (setAccessed_canonical (.modStation (.noteWalk h)) _ _))
    · exact .wakeWalk (.modStation (.noteWalk h))
    · exact .wakeWalk (.modStation (.noteWalk h))
    · exact .wakeWalk (.modStation (.noteWalk h))
    · exact .whenNot (fun h'' => .enterFault (.modStation h'')) (.noteWalk h)

theorem KeepsCanonical.execPageWalkComplete {st walk} (h : Canonical s) : KeepsCanonical
    (execPageWalkComplete st walk s) := by
  unfold Machine.execPageWalkComplete
  refine .next ?_
  split
  · exact h
  · exact .walkComplete h

/-! ### Control flow -/

theorem Gives.takeBranch {target} (h : Canonical s) : Gives Eff.Keeps (takeBranch s target) := .eff h

theorem KeepsCanonical.execBra {sw o} (h : Canonical s) : KeepsCanonical (execBra sw o s) :=
  .issue h (fun h' => .takeBranch h')

theorem KeepsCanonical.execBrp {sw p n o} (h : Canonical s) : KeepsCanonical (execBrp sw p n o s) :=
  .issue h (fun h' => .takeBranch h')

theorem KeepsCanonical.execBrx {sw a x} (h : Canonical s) : KeepsCanonical (execBrx sw a x s) :=
  .issue h (fun h' => .takeBranch h')

theorem Gives.pushReturn {v} (hk : Canonical k.s) : Gives Canonical (pushReturn k v) :=
  .ite (.state (.setThread hk)) (.ite .trap (.map (fun h => .modThread (storeAt_canonical h _ _ _ _)) (.before hk)))

theorem Gives.callTo {target} (hk : Canonical k.s) : Gives Eff.Keeps (callTo k target) := by
  unfold Machine.callTo
  split
  · next e => exact .stop (Gives.stopped (.pushReturn hk) e)
  · next e => exact .takeBranch (Gives.answer (.pushReturn hk) e)

theorem KeepsCanonical.execCall {sw o} (h : Canonical s) : KeepsCanonical (execCall sw o s) :=
  .issue h (fun h' => .callTo h')

theorem KeepsCanonical.execCallx {sw a x} (h : Canonical s) : KeepsCanonical (execCallx sw a x s) :=
  .issue h (fun h' => .callTo h')

theorem Gives.popReturn (hk : Canonical k.s) : Gives Eff.Keeps (popReturn k) := by
  unfold Machine.popReturn
  split
  · exact .takeBranch (.setThread hk)
  · exact .ite .trap (.bind (fun h => .takeBranch (.modThread (loadAt_canonical h _ _ _ _ _))) (.before hk))

theorem KeepsCanonical.execRet {sw} (h : Canonical s) : KeepsCanonical (execRet sw s) := .issue h (fun h' => .popReturn h')

theorem KeepsCanonical.execLgjoin {sw a i x} (h : Canonical s) : KeepsCanonical (execLgjoin sw a i x s) :=
  .issue h (fun h' => .eff (.modLig (.setThread h')))

theorem KeepsCanonical.execLgwait {sw a x} (h : Canonical s) : KeepsCanonical (execLgwait sw a x s) :=
  .issue h (fun h' => .ite (.eff h') (.ite (.held (.holdAt h')) (.effThen h' (fun h'' => .arriveLig h''))))

theorem KeepsCanonical.execLgdrop {sw a x} (h : Canonical s) : KeepsCanonical (execLgdrop sw a x s) :=
  .issue h (fun h' => .ite (.eff h') (.effThen (.setThread h') (fun h'' => .leaveLig h'')))

theorem KeepsCanonical.execLgread {sw d a i x} (h : Canonical s) : KeepsCanonical (execLgread sw d a i x s) := by
  unfold Machine.execLgread
  refine .issue h (fun h' => ?_)
  split
  · exact .ret64 h'
  · exact .ret64 h'
  · exact .trap

theorem KeepsCanonical.execMeetset {sw o} (h : Canonical s) : KeepsCanonical (execMeetset sw o s) :=
  .issue h (fun h' => .ite .trap (.eff (.setThread h')))

theorem KeepsCanonical.execRegroup {sw a b x y} (h : Canonical s) : KeepsCanonical (execRegroup sw a b x y s) :=
  .issue h (fun h' => .ite (.held (.modThread h')) (.ite (.held (.holdAt h')) (.eff (.modThread (.flush h')))))

theorem Canonical.regroupThread {sz pts p} (h : Canonical s) : Canonical (regroupThread sz pts s p) :=
  .ite (.replyToRecord (.modThread (.leaveLane h))) (.placeActive (.modThread (.leaveLane h)))

theorem Canonical.regroupTeam {tmid} (h : Canonical s) : Canonical (regroupTeam s tmid) := by
  unfold Machine.regroupTeam
  split
  · exact h
  · split
    · exact .ite h (.foldl (fun h' => .raiseDue h') h)
    · exact .ite h (.reclaim (.foldl (fun h' => .regroupThread h') (.foldl (fun h' => .modThread h') h)))

theorem KeepsCanonical.execRegroupCompletion {team} (h : Canonical s) : KeepsCanonical (execRegroupCompletion team s) :=
  .next (.regroupTeam h)

theorem Canonical.rotateActive {t th} (h : Canonical s) : Canonical (rotateActive s t th) := by
  unfold Machine.rotateActive
  split
  · exact h
  · exact .modThread (.makeRoom (.modThread h))

theorem KeepsCanonical.execYield {sw} (h : Canonical s) : KeepsCanonical (execYield sw s) :=
  .issue h (fun h' => .effThen (.setThread h') (fun h'' => .rotateActive h''))

theorem KeepsCanonical.execPause {sw i} (h : Canonical s) : KeepsCanonical (execPause sw i s) := .issue h (fun h' => .eff h')
theorem KeepsCanonical.execPauseExpiry {t} (h : Canonical s) : KeepsCanonical (execPauseExpiry t s) := .next (.modThread h)

theorem KeepsCanonical.execExit {sw} (h : Canonical s) : KeepsCanonical (execExit sw s) :=
  .issue h (fun h' => .ite (.held (.holdAt h')) (.effThen h' (fun h'' => .endThread h'')))

theorem Gives.readBlock {addr len align wins locks} (h : Canonical s) : Gives (fun r => Canonical r.2)
    (Ctx.readBlock k s addr len align wins locks) := by
  unfold Machine.Ctx.readBlock
  split
  · next e => exact .stop (Gives.stopped (.checkRange h) e)
  · exact .pair (.readNow h)

theorem Gives.launchChecked {d r} (h : Canonical s) : Gives Eff.Keeps (launchChecked k d r s) := by
  unfold Machine.launchChecked
  split
  · dsimp only
    split
    · next e => exact .stop (Gives.stopped (.ite (.pair h) (.readBlock h)) e)
    · next s' e' =>
        have h' : Canonical s' := Gives.answer (.ite (.pair h) (.readBlock h)) e'
        split
        · exact .eff h'
        · refine .ite (.eff h') ?_
          split
          · next e => exact .stop (Gives.stopped (.readBlock h') e)
          · next s'' e3 =>
              have h'' : Canonical s'' := Gives.answer (.readBlock h') e3
              exact .ite (.eff h'') (.eff (.enqueueGrid h''))
  · dsimp only
    split
    · next e => exact .stop (Gives.stopped (.ite (.pair h) (.readBlock h)) e)
    · next s' e =>
        have h'' : Canonical s' := Gives.answer (.ite (.pair h) (.readBlock h)) e
        split
        · exact .eff h''
        · exact .ite (.eff h'') (.ite (.eff h'') (.eff (.enqueueGrid h'')))

theorem Gives.launchBody {d a} (hk : Canonical k.s) : Gives Eff.Keeps (launchBody d a k) := by
  unfold Machine.launchBody
  refine .ite (.held (.holdAt hk)) ?_
  split
  · next e => exact .stop (Gives.stopped (.readBlock hk) e)
  · next s e =>
      have h : Canonical s := Gives.answer (.readBlock hk) e
      refine .ite .trap ?_
      split
      · exact .eff h
      · exact .launchChecked h

theorem KeepsCanonical.execLaunch {sw d a x} (h : Canonical s) : KeepsCanonical (execLaunch sw d a x s) :=
  .issue h (fun h' => .launchBody h')

theorem Gives.rendezvousBody {opc d a l m dests frees} (hk : Canonical k.s) : Gives Eff.Keeps
    (rendezvousBody opc d a l m dests frees k) :=
  .ite .trap (.ite (.held (.holdAt hk)) (.effThen hk (fun h => .arriveLig h)))

theorem KeepsCanonical.execRxch {sw d a b x y m} (h : Canonical s) : KeepsCanonical (execRxch sw d a b x y m s) :=
  .issue h (fun h' => .rendezvousBody h')

theorem KeepsCanonical.execRbcast {sw d a b x y m} (h : Canonical s) : KeepsCanonical (execRbcast sw d a b x y m s) :=
  .issue h (fun h' => .rendezvousBody h')

theorem KeepsCanonical.execRred {sw d a b x y m} (h : Canonical s) : KeepsCanonical (execRred sw d a b x y m s) :=
  .issue h (fun h' => .ite .trap (.rendezvousBody h'))

theorem KeepsCanonical.execRvote {sw d a b x y m} (h : Canonical s) : KeepsCanonical (execRvote sw d a b x y m s) :=
  .issue h (fun h' => .rendezvousBody h')

/-! ### Conversions -/

theorem KeepsCanonical.execCvtfi {sw d a b x y m} (h : Canonical s) : KeepsCanonical (execCvtfi sw d a b x y m s) :=
  .issue h (fun h' => .floatWrites h')

theorem KeepsCanonical.execCvtif {sw d a b x y m} (h : Canonical s) : KeepsCanonical (execCvtif sw d a b x y m s) :=
  .issue h (fun h' => .floatRet h')

theorem Gives.cvtffBody {d a b x} (hk : Canonical k.s) : Gives Eff.Keeps (cvtffBody d a b x k) := by
  unfold Machine.cvtffBody
  refine .ite .trap (.ite .trap ?_)
  split
  · dsimp only
    split
    · exact .trap
    · exact .map (fun h => h) (.floatWrites hk)
  · dsimp only
    split
    · exact .trap
    · exact .map (fun h' => h') (.floatWrites hk)

theorem KeepsCanonical.execCvtff {sw d a b x y} (h : Canonical s) : KeepsCanonical (execCvtff sw d a b x y s) :=
  .issue h (fun h' => .cvtffBody h')

theorem KeepsCanonical.execNxel {sw d a b x y} (h : Canonical s) : KeepsCanonical (execNxel sw d a b x y s) :=
  .issue h (fun h' => .ite .trap (.floatRet h'))

theorem KeepsCanonical.execMxel {sw d a b x y} (h : Canonical s) : KeepsCanonical (execMxel sw d a b x y s) :=
  .issue h (fun h' => .floatRet h')

theorem KeepsCanonical.execFmtchk {sw d a x} (h : Canonical s) : KeepsCanonical (execFmtchk sw d a x s) :=
  .issue h (fun h' => .ret h')

/-! ### Words of synchronisation -/

theorem Gives.publish (hk : Canonical k.s) : Gives Canonical (Ctx.publish k) :=
  .ite (.held (.holdAt hk)) (.state (.flush hk))

theorem Gives.arriveThen {id roles f} (hk : Canonical k.s) (hf : ∀ {s g}, Canonical s → Gives Eff.Keeps (f s g)) :
    Gives Eff.Keeps (arriveThen k id roles f) := by
  unfold Machine.arriveThen
  split
  · exact .held hk
  · exact .ite .trap (.bind hf (.publish hk))

theorem Canonical.arriveNow {id roles} (h : Canonical s) : Canonical (arriveNow k id roles s) := .barrierArrive h

theorem KeepsCanonical.execBar {sw i r} (h : Canonical s) : KeepsCanonical (execBar sw i r s) :=
  .issue h (fun h' => .arriveThen h' (fun h'' => .effThen h'' (fun h3 => .arriveNow h3)))

theorem KeepsCanonical.execBara {sw d i r} (h : Canonical s) : KeepsCanonical (execBara sw d i r s) :=
  .issue h (fun h' => .arriveThen h' (fun h'' => .effThen h'' (fun h3 => .arriveNow h3)))

theorem KeepsCanonical.execBarw {sw a i x} (h : Canonical s) : KeepsCanonical (execBarw sw a i x s) := by
  unfold Machine.execBarw
  refine .issue h (fun h' => ?_)
  split
  · exact .held h'
  · exact .ite (.bind (fun h'' => .eff h'') (.publish h')) (.ite (.bind (fun h'' => .eff (.modThread h'')) (.publish h'))
      (.eff h'))

theorem Gives.arrivalOf {addr} (hk : Canonical k.s) : Gives (fun _ => True) (arrivalOf k addr) := by
  unfold Machine.arrivalOf
  split
  · exact .trap
  · refine .ite .trap (.ite .trap ?_)
    split
    · exact .trap
    · refine .ite .trap (.ite (.held (.modThread hk)) ?_)
      split
      · exact .trap
      · exact .value

theorem Canonical.armWord {t tmid off w} (h : Canonical s) : Canonical (armWord s t tmid off w) :=
  .noteSync (.modTeam (.modThread (.met h)))

theorem KeepsCanonical.execArm {sw d a b x y m} (h : Canonical s) : KeepsCanonical (execArm sw d a b x y m s) := by
  unfold Machine.execArm
  refine .issue h (fun h' => .ite .trap ?_)
  split
  · next e => exact .stop (Gives.stopped (.arrivalOf h') e)
  · exact .bind (fun h'' => .inState (.armWord h'') (.retLater h')) (.publish h')

theorem Canonical.arrvWord {t tmid off n} (h : Canonical s) : Canonical (arrvWord s t tmid off n) :=
  .noteSync (.arrivalAdd h)

theorem KeepsCanonical.execArrv {sw a b x y} (h : Canonical s) : KeepsCanonical (execArrv sw a b x y s) := by
  unfold Machine.execArrv
  refine .issue h (fun h' => ?_)
  split
  · next e => exact .stop (Gives.stopped (.arrivalOf h') e)
  · exact .bind (fun h'' => .ite (.eff h'') (.effThen h'' (fun h3 => .arrvWord h3))) (.publish h')

theorem KeepsCanonical.execArwait {sw d a b x y} (h : Canonical s) : KeepsCanonical (execArwait sw d a b x y s) := by
  unfold Machine.execArwait
  refine .issue h (fun h' => ?_)
  split
  · next e => exact .stop (Gives.stopped (.arrivalOf h') e)
  · exact .ite (.bind (fun h'' => .eff (.met h'')) (.publish h'))
      (.ite (.bind (fun h'' => .eff (.modThread (.met h''))) (.publish h')) (.eff (.met h')))

theorem KeepsCanonical.execArread {sw d a x} (h : Canonical s) : KeepsCanonical (execArread sw d a x s) := by
  unfold Machine.execArread
  refine .issue h (fun h' => ?_)
  split
  · next e => exact .stop (Gives.stopped (.arrivalOf h') e)
  · exact .bind (fun h'' => .inState (.modThread (.met h'')) (.retLater h')) (.publish h')

theorem Gives.queueFor {h'} : Gives (fun _ => True) (queueFor k h') := .ite .trap (.ite .trap .value)

theorem KeepsCanonical.execQpush {sw d a b x y} (h : Canonical s) : KeepsCanonical (execQpush sw d a b x y s) := by
  unfold Machine.execQpush
  refine .issue h (fun h' => ?_)
  split
  · next e => exact .stop (Gives.stopped .queueFor e)
  · exact .ite (.retLater h') (.bind (fun h'' => .map (fun h3 => ⟨h3.1, fun _ h4 => .queuePush h4⟩)
      (.inState h'' (.retLater h'))) (.publish h'))

theorem KeepsCanonical.execQpop {sw d a x} (h : Canonical s) : KeepsCanonical (execQpop sw d a x s) := by
  unfold Machine.execQpop
  refine .issue h (fun h' => ?_)
  split
  · next e => exact .stop (Gives.stopped .queueFor e)
  · refine .bind (fun h'' => ?_) (.publish h')
    split
    · exact .eff (.modThread (.setQueue h''))
    · exact .eff (.setQueue h'')

theorem KeepsCanonical.execQtry {sw d a x} (h : Canonical s) : KeepsCanonical (execQtry sw d a x s) := by
  unfold Machine.execQtry
  refine .issue h (fun h' => ?_)
  split
  · next e => exact .stop (Gives.stopped .queueFor e)
  · split
    · exact .bind (fun h'' => .inState (.modThread (.setQueue h'')) (.retLater h')) (.publish h')
    · exact .retLater h'

theorem KeepsCanonical.execQlen {sw d a x} (h : Canonical s) : KeepsCanonical (execQlen sw d a x s) := by
  unfold Machine.execQlen
  refine .issue h (fun h' => ?_)
  split
  · next e => exact .stop (Gives.stopped .queueFor e)
  · exact .retLater h'

theorem Canonical.nextAnswer {tmid} (h : Canonical s) : Canonical (nextAnswer s tmid).2 := by
  unfold Machine.nextAnswer
  split
  · exact h
  · split
    · exact h
    · exact .ite₂ (.modTeam h) (.modGrid h)

theorem KeepsCanonical.execDist {sw d a x m} (h : Canonical s) : KeepsCanonical (execDist sw d a x m s) := by
  unfold Machine.execDist
  refine .issue h (fun h' => .ite ?_ (.inState (.nextAnswer h') (.retLater h')))
  split
  · next e => exact .stop (Gives.stopped (.checkAccess h') e)
  · split
    · exact .eff (.nextAnswer h')
    · exact .held h'

theorem KeepsCanonical.execDistributorAnswerStore {t seq} (h : Canonical s) : KeepsCanonical
    (execDistributorAnswerStore t seq s) := by
  unfold Machine.execDistributorAnswerStore
  refine .next ?_
  split
  · split
    · exact .replyToRecord (.modThread (poke_canonical h _ _))
    · exact h
  · exact h

theorem Stop.Keeps.badBuffer {tm r iw} : (badBuffer tm r iw).Keeps := by
  unfold Machine.badBuffer
  split <;> exact trivial

theorem Gives.matchBuffer {tm v iw} : Gives (fun _ => True) (matchBuffer tm v iw) := by
  unfold Machine.matchBuffer
  dsimp only
  split
  · exact .ite .value (.stop .badBuffer)
  · exact .stop .badBuffer

theorem Gives.bufferFor {v} (hk : Canonical k.s) : Gives (fun _ => True) (bufferFor k v) := by
  unfold Machine.bufferFor
  split
  · exact .held hk
  · exact .matchBuffer

theorem Canonical.fillBuffer {tmid idx pts} (h : Canonical s) : Canonical (fillBuffer s tmid idx pts) := by
  unfold Machine.fillBuffer
  split
  · exact h
  · refine .foldl (fun h' => ?_) h
    split
    · exact h'
    · exact .arrComplete h'

theorem KeepsCanonical.execSbset {sw d a i x} (h : Canonical s) : KeepsCanonical (execSbset sw d a i x s) := by
  unfold Machine.execSbset
  refine .issue h (fun h' => ?_)
  split
  · next e => exact .stop (Gives.stopped (.bufferFor h') e)
  · exact .bind (fun h'' => .map (fun h3 => ⟨h3.1, fun _ h4 => .ite (.fillBuffer h4) h4⟩)
      (.inState (.modTeam h'') (.retLater h'))) (.publish h')

theorem KeepsCanonical.execSbqry {sw d a x} (h : Canonical s) : KeepsCanonical (execSbqry sw d a x s) := by
  unfold Machine.execSbqry
  refine .issue h (fun h' => ?_)
  split
  · next e => exact .stop (Gives.stopped (.bufferFor h') e)
  · exact .retLater h'

/-! ### Engines -/

theorem Canonical.engineFault {st sealId va} (h : Canonical s) : Canonical (engineFault s st sealId va) :=
  .ite h (.enterFault h)

theorem EngRes.Keeps.engineGlob {st sealId va n k} (h : Canonical s) : (engineGlob s st sealId va n k).Keeps := by
  refine List.foldlRecOn (motive := EngRes.Keeps) _ _ h fun r hr p _ => ?_
  split
  · next h =>
    split
    · next e => exact Canonical.translateNow hr e
    · exact hr
    · exact Canonical.engineFault hr
    · trivial
    · trivial
  · exact hr

theorem EngRes.Keeps.engineWeight {sealId off n} (h : Canonical s) : (engineWeight s sealId off n).Keeps :=
  .ite trivial (.ite h (.ite trivial h))

theorem EngRes.Keeps.engineAccess {st sealId e n k'} (h : Canonical s) : (engineAccess s st sealId e n k').Keeps := by
  unfold Machine.engineAccess
  split
  · exact .ite (.engineGlob h) (.ite (.engineGlob h) (.ite trivial h))
  · split
    · exact trivial
    · exact .ite h h
  · exact .ite h (.engineWeight h)

theorem Canonical.beginRead {e id} (h : Canonical s) : Canonical (beginRead s e id) := by
  unfold Machine.beginRead
  split
  · exact .modTeam h
  · exact h

theorem Canonical.beginWrite {e} (h : Canonical s) : Canonical (beginWrite s e) := by
  unfold Machine.beginWrite
  split
  · exact .modTeam h
  · exact h

theorem Canonical.endRead {t idx id} (h : Canonical s) : Canonical (endRead s t idx id) := .modTeam h

theorem Canonical.noteGridRegion {t as'} (h : Canonical s) : Canonical (noteGridRegion s t as') := by
  unfold Machine.noteGridRegion
  refine .foldl (fun h' => ?_) h
  split
  · exact .foldl (fun h'' => .frame h'') h'
  · exact h'

theorem Canonical.takeEntry {c e} (h : Canonical s) : Canonical (takeEntry s c e) := by
  unfold Machine.takeEntry
  split
  · exact h
  · exact .modCore h

theorem Canonical.takeEntries {c k'} (h : Canonical s) : Canonical (takeEntries s c k') := .foldl (fun h' => .takeEntry h') h
theorem Canonical.dropEntries {cmd} (h : Canonical s) : Canonical (dropEntries s cmd) := .frame h

/-! ### Copies -/

theorem Canonical.modCopy {id f} (h : Canonical s) : Canonical (modCopy s id f) := .frame h

theorem Gives.recordOf {addr} (hk : Canonical k.s) : Gives (fun _ => True) (recordOf k addr) := by
  unfold Machine.recordOf
  split
  · exact .trap
  · refine .ite .trap (.ite .trap ?_)
    split
    · exact .held hk
    · exact .ite .trap .value

theorem Gives.endpointOf {tm addr len align wins} : Gives (fun _ => True) (endpointOf k tm addr len align wins) := by
  unfold Machine.endpointOf
  split
  · exact .trap
  · refine .ite .trap (.ite .trap (.ite .trap (.ite .value (.ite (.ite .value .trap) (.ite .value ?_)))))
    split
    · exact .trap
    · exact .ite .trap .value

theorem Gives.makeCopy {opc off tm r sh id} : Gives (fun _ => True) (makeCopy k s opc off tm r sh id) := by
  unfold Machine.makeCopy
  extract_lets span align
  split
  · next e => exact .stop (Gives.stopped .endpointOf e)
  · split
    · next e => exact .stop (Gives.stopped .endpointOf e)
    · dsimp only
      split
      · exact .trap
      · split
        · refine .ite .trap ?_
          split
          · exact .trap
          · exact .value
        · exact .trap

theorem Gives.enterCopy {id c ec} (h : Canonical s) : Gives Eff.Keeps (enterCopy k s id c ec) :=
  .ite (.held (.holdAt h)) (.eff (.modThread (.foldl (fun h' => .takeEntry h') (.frame h))))

theorem Gives.copyBody {opc a} (hk : Canonical k.s) : Gives Eff.Keeps (copyBody opc a k) := by
  unfold Machine.copyBody
  split
  · next e => exact .stop (Gives.stopped (.recordOf hk) e)
  · refine .ite .trap (.bind (fun h => ?_) (.publish hk))
    dsimp only
    split
    · exact .trap
    · exact .ite .trap (.bind (fun _ => .enterCopy (.fresh (.met h))) .makeCopy)

theorem KeepsCanonical.execCpy {sw a x} (h : Canonical s) : KeepsCanonical (execCpy sw a x s) :=
  .issue h (fun h' => .copyBody h')

theorem KeepsCanonical.execCpy2d {sw a x} (h : Canonical s) : KeepsCanonical (execCpy2d sw a x s) :=
  .issue h (fun h' => .copyBody h')

theorem KeepsCanonical.execCpym {sw a x} (h : Canonical s) : KeepsCanonical (execCpym sw a x s) :=
  .issue h (fun h' => .copyBody h')

theorem KeepsCanonical.execCpyr {sw a x} (h : Canonical s) : KeepsCanonical (execCpyr sw a x s) :=
  .issue h (fun h' => .copyBody h')

theorem KeepsCanonical.execCpyf {sw a x} (h : Canonical s) : KeepsCanonical (execCpyf sw a x s) :=
  .issue h (fun h' => .copyBody h')

theorem Canonical.writeStatus {c status} (h : Canonical s) : Canonical (writeStatus s c status) := poke_canonical h _ _
theorem Canonical.emptyBuffer {id b} (h : Canonical s) : Canonical (emptyBuffer s id b) := .ite h (.modTeam h)
theorem Canonical.lowerFor {t id pts} (h : Canonical s) : Canonical (lowerFor s t id pts) := .replyToRecord (.modThread h)

theorem Canonical.endCopy {id status} (h : Canonical s) : Canonical (endCopy s id status) := by
  unfold Machine.endCopy
  split
  · exact h
  · next c _ =>
    cases c.srcBuf with
    | none => exact .lowerFor (.frame (.when (fun h => .foldl (fun h => .emptyBuffer h) h)
      (.registered (.dropEntries (.whenNot (fun h => .writeStatus h) h)))))
    | some b =>
      exact .lowerFor (.frame (.when (fun h => .foldl (fun h => .emptyBuffer h) h)
        (.when (fun h => .endRead h) (.registered (.dropEntries (.whenNot (fun h => .writeStatus h) h))))))

theorem Canonical.advanceCopy {id} (h : Canonical s) : Canonical (advanceCopy s id) := .modCopy h
theorem Canonical.modBurst {id x f} (h : Canonical s) : Canonical (modBurst s id x f) := .modCopy h

theorem Canonical.markRegions {id c s'} (h : Canonical s) (e : markRegions s id c = .ok s') : Canonical s' := by
  unfold Machine.markRegions at e
  cases ok_of_ite_error (ok_of_ite_error e)
  exact .modCopy (.foldl (fun h => .frame h) h)

theorem EngRes.Keeps.startAccess {c e n k'} (h : Canonical s) : (startAccess s c e n k').Keeps := by
  unfold Machine.startAccess
  split
  · split
    · exact trivial
    · exact h
  · exact .engineAccess h

/-- The state in which the destinations of a burst were begun, or in which one of them waits. -/
def StartsKeep : Except (State ⊕ Nat) (List (End × List Access) × State) → Prop
  | .ok r => Canonical r.2
  | .error (.inl s) => Canonical s
  | .error (.inr _) => True

theorem StartsKeep.startDests {c n ds} (h : Canonical s) : StartsKeep (startDests s c n ds) := by
  induction ds generalizing s with
  | nil => exact h
  | cons d ds ih =>
    unfold Machine.startDests
    split
    · next e => exact EngRes.Keeps.wait (.startAccess h) e
    · trivial
    · exact ih h
    · next e =>
      have hr := ih (EngRes.Keeps.ok (.startAccess h) e)
      revert hr
      rcases Machine.startDests _ c n ds with (s' | n') | r
      · exact fun hr => hr
      · exact fun _ => trivial
      · exact fun hr => hr

theorem Canonical.startBurst {id c} (h : Canonical s) : Canonical (startBurst s id c) := by
  have hs := StartsKeep.startDests h (c := c) (n := (c.burst c.nextAt).2.2) (ds := c.dests (c.burst c.nextAt).2.1)
  unfold Machine.startBurst
  dsimp only
  split
  · next e => rw [e] at hs; exact hs
  · exact .frame h
  · next e =>
    rw [e] at hs
    split
    · next e => exact EngRes.Keeps.wait (.startAccess hs) e
    · exact .frame h
    · exact .frame hs
    · next e => exact .frame (.noteGridRegion (EngRes.Keeps.ok (.startAccess hs) e))

theorem Canonical.delivered {id x n d} (h : Canonical s) : Canonical (delivered s id x n d) := by
  unfold Machine.delivered
  dsimp only
  split
  · exact .modBurst h
  · exact .foldl (fun h' => .arrivalAdd h') (.modBurst h)

theorem Canonical.writeDest {id c x n d as_ bs} (h : Canonical s) : Canonical (writeDest s id c x n d as_ bs) := by
  unfold Machine.writeDest
  split
  · exact .modBurst (.openRemote h)
  · exact .delivered (.frame (.foldl₃ (fun h => .ite₂ (.atomAt h) (storeAt_canonical h _ _ _ _)) (.beginWrite h)))

theorem Canonical.writeDests {id x n bs ds} (h : Canonical s) : Canonical (writeDests s id x n bs ds) := by
  induction ds generalizing s with
  | nil => exact h
  | cons d ds ih =>
    unfold Machine.writeDests
    apply ih
    split
    · exact .ite (.writeDest h) h
    · exact h

theorem Canonical.readSource {id c b} (h : Canonical s) : Canonical (readSource s id c b).2 := by
  unfold Machine.readSource
  split
  · exact .modBurst (.openRemote h)
  · exact .modBurst (.modCopy (loadRange_canonical (.beginRead h) _ _ _ _))

theorem Canonical.performBurst {id c b} (h : Canonical s) : Canonical (performBurst s id c b) := by
  unfold Machine.performBurst
  extract_lets kind
  refine .ite h ?_
  split
  · exact .advanceCopy (.writeDests h)
  · refine .ite (.advanceCopy h) (.ite (.advanceCopy (.modBurst h)) (.ite h ?_))
    split
    · next e => exact .advanceCopy (.writeDests (.of_eq (.readSource h) e))
    · next e => exact .of_eq (.readSource h) e

theorem Canonical.startTo {id k fuel} (h : Canonical s) : Canonical (startTo s id k fuel) := by
  induction fuel generalizing s with
  | zero => exact h
  | succ fuel ih =>
    unfold Machine.startTo
    split
    · exact h
    · exact .ite h (ih (.startBurst h))

theorem Canonical.windowBurst {id k'} (h : Canonical s) : Canonical (windowBurst s id k') := by
  unfold Machine.windowBurst
  dsimp only
  split
  · exact .startTo h
  · split
    · exact .when (fun h' => .performBurst h') (.startTo h)
    · exact .startTo h

theorem Canonical.resumeIf {id} (h : Canonical s) : Canonical (resumeIf s id) := by
  unfold Machine.resumeIf
  split
  · exact h
  · exact .ite (.writeStatus (.modCopy (.fresh h))) h

theorem KeepsCanonical.execCopyRegistration {cmd} (h : Canonical s) : KeepsCanonical (execCopyRegistration cmd s) := by
  unfold Machine.execCopyRegistration
  refine .next ?_
  split
  · exact .ite h (.registered (.modCopy h))
  · exact h

theorem KeepsCanonical.execRangeLockEntryTaken {cmd c} (h : Canonical s) : KeepsCanonical
    (execRangeLockEntryTaken cmd c s) := by
  unfold Machine.execRangeLockEntryTaken
  refine .next ?_
  split
  · exact .takeEntries h
  · exact h

theorem KeepsCanonical.execCopyCommandStart {cmd} (h : Canonical s) : KeepsCanonical (execCopyCommandStart cmd s) := by
  unfold Machine.execCopyCommandStart
  refine .next ?_
  split
  · exact .ite h (.ite (.resumeIf h) (.ite h (.modCopy h)))
  · exact h

theorem KeepsCanonical.execCopyBurst {burst} (h : Canonical s) : KeepsCanonical (execCopyBurst burst s) := by
  refine .next ?_
  split
  · refine .ite h (.ite ?_ (.windowBurst h))
    split
    · next e => exact .windowBurst (Canonical.markRegions h e)
    · exact .modCopy h
  · exact h

theorem KeepsCanonical.execCopyCommandEnd {cmd} (h : Canonical s) : KeepsCanonical (execCopyCommandEnd cmd s) := by
  unfold Machine.execCopyCommandEnd
  refine .next ?_
  split
  · split
    · exact h
    · split <;> exact .ite (.endCopy h) h
  · exact h

theorem KeepsCanonical.execCpyq {sw d a x} (h : Canonical s) : KeepsCanonical (execCpyq sw d a x s) := by
  unfold Machine.execCpyq
  refine .issue h (fun h' => ?_)
  split
  · next e => exact .stop (Gives.stopped (.recordOf h') e)
  · split
    · exact .retLater h'
    · exact .bind (fun h'' => .inState (.when (fun h3 => .modThread h3) (.met h'')) (.retLater h')) (.before h')

theorem KeepsCanonical.execCpyx {sw d a x} (h : Canonical s) : KeepsCanonical (execCpyx sw d a x s) := by
  unfold Machine.execCpyx
  refine .issue h (fun h' => ?_)
  split
  · next e => exact .stop (Gives.stopped (.recordOf h') e)
  · split
    · exact .ite (.held (.holdAt (.modCopy h'))) (.inState (.endCopy h') (.retLater h'))
    · exact .retLater h'

theorem KeepsCanonical.execRlqry {sw d a x} (h : Canonical s) : KeepsCanonical (execRlqry sw d a x s) := by
  unfold Machine.execRlqry
  refine .issue h (fun h' => ?_)
  split
  · exact .held h'
  · refine .ite (.ite .trap (.retLater h')) ?_
    split
    · next e => exact .stop (Gives.stopped .endpointOf e)
    · exact .retLater h'
    · exact .retLater h'
    · exact .retLater h'

/-! ### Outputs -/

theorem Canonical.leavePages {rs} (h : Canonical s) : Canonical (leavePages s rs) := .frame h

theorem Canonical.ringWrite0 {r w} (h : Canonical s) : Canonical (ringWrite0 s r w) :=
  .ite (.ite h (.leavePages (.modRing h))) (.ite (.modRing h) (.ite (.modRing h) h))

theorem Canonical.ringWrite {r off w} (h : Canonical s) : Canonical (ringWrite s r off w) := by
  unfold Machine.ringWrite
  split
  · exact .ite h (.ringWrite0 h)
  · exact .ite h (.modRing h)
  · exact .modRing h
  · exact h

theorem KeepsCanonical.execRingEnable {r w} (h : Canonical s) : KeepsCanonical (execRingEnable r w s) :=
  .next (.ite (.ringWrite h) h)

theorem KeepsCanonical.execRingDisable {r w} (h : Canonical s) : KeepsCanonical (execRingDisable r w s) :=
  .next (.ite (.ringWrite h) h)

theorem Yields.makeReserves {rs} (h : Canonical s) : Yields Canonical (makeReserves s rs) := by
  induction rs generalizing s with
  | nil => exact .state h
  | cons r rs ih => exact .bind (p := fun _ => True) (fun _ => ih (.frame h)) (.all fun _ => trivial)

theorem Canonical.closePipe {key} (h : Canonical s) : Canonical (closePipe s key) := by
  unfold Machine.closePipe
  split
  · split
    · next e => exact .ite (.leavePages (.frame (.of_eq (.draw h) e))) h
  · exact h

theorem Canonical.armChecks {o v rateOk linkOk r} (h : Canonical s)
    (e : armChecks s o v rateOk linkOk = .ok r) : Canonical r.1 := by
  unfold Machine.armChecks at e
  have e := ok_of_ite_error (ok_of_ite_error e)
  split at e
  · nomatch e
  · have e := ok_of_ite_error e
    split at e
    · nomatch e
    · next e' =>
      split at e
      · nomatch e
      · cases ok_of_ite_error (ok_of_ite_error e)
        exact .ite (.frame (Yields.answer (.makeReserves h) e')) (Yields.answer (.makeReserves h) e')

theorem Canonical.armOutput {o rateOk linkOk} (h : Canonical s) : Canonical (armOutput s o rateOk linkOk) := by
  unfold Machine.armOutput
  dsimp only
  split
  · exact .frame h
  · next e => exact .frame (.armChecks h e)

theorem Canonical.settleEarly (h : Canonical s) : Canonical (settleEarly s) := .frame h

theorem Canonical.disarmOutput {o} (h : Canonical s) : Canonical (disarmOutput s o) := by
  unfold Machine.disarmOutput
  split
  · dsimp only
    split
    · exact h
    · exact .settleEarly (.releaseOutput (.closePipe (.frame h)))
  · dsimp only
    split
    · exact h
    · exact .settleEarly (.releaseOutput (.modOutput h))

theorem Canonical.writeCtl {o w rateOk linkOk} (h : Canonical s) : Canonical (writeCtl s o w rateOk linkOk) :=
  .ite (.armOutput (.modOutput h)) (.when (fun h' => .disarmOutput h') (.modOutput h))

theorem Canonical.outWrite {o off w rateOk linkOk} (h : Canonical s) : Canonical (outWrite s o off w rateOk linkOk) :=
  .ite (.writeCtl h) (.ite h (.modOutput h))

theorem Canonical.outWriteFree {o off w} (h : Canonical s) : Canonical (outWriteFree s o off w) := .outWrite (.draw h)

theorem KeepsCanonical.execOutputArm {o rateOk linkOk} (h : Canonical s) : KeepsCanonical
    (execOutputArm o rateOk linkOk s) :=
  .next (.ite (.armOutput h) h)

theorem KeepsCanonical.execOutputDisarm {o} (h : Canonical s) : KeepsCanonical (execOutputDisarm o s) :=
  .next (.ite (.disarmOutput h) h)

/-! ### Encoding -/

theorem KeepsCanonical.execEncodeTileRow {i} (h : Canonical s) : KeepsCanonical (execEncodeTileRow i s) := by
  unfold Machine.execEncodeTileRow
  refine .next ?_
  split
  · split
    · split
      · next e => exact .frame (.of_eq (.draw h) e)
    · exact h
  · exact h

theorem Yields.unitAccess {t pos n} (h : Canonical s) : Yields (fun r => Canonical r.2) (unitAccess s t pos n) := by
  refine List.foldlRecOn (motive := Yields fun r : List Access × State => Canonical r.2) _ _ (.pair h) fun r hr p _ => ?_
  split
  · trivial
  · split
    · next e => exact Canonical.translateNow hr e
    · trivial

theorem Canonical.dropUnit {o key p} (h : Canonical s) : Canonical (dropUnit s o key p) := .closePipe (.modOutput (.frame h))

theorem KeepsCanonical.execTemporalUnitWrite {i} (h : Canonical s) : KeepsCanonical (execTemporalUnitWrite i s) := by
  unfold Machine.execTemporalUnitWrite
  refine .next ?_
  split
  · split
    · exact h
    · dsimp only
      split
      · exact .dropUnit h
      · split
        · exact .dropUnit h
        · next e => exact .closePipe (.modRing (.frame (storeRange_canonical (Yields.answer (.unitAccess h) e) _ _ _ _)))
  · exact h

/-! ### Traffic -/

theorem Canonical.sendPacket {ch sender p} (h : Canonical s) : Canonical (sendPacket s ch sender p) := .modThread h

theorem Canonical.sendUpTo {ch sender n ps} (h : Canonical s) : Canonical (sendUpTo ch sender n ps s) := by
  induction ps generalizing s n with
  | nil => unfold Machine.sendUpTo; exact h
  | cons p ps ih => unfold Machine.sendUpTo; exact .ite (ih (.sendPacket h)) h

theorem Canonical.tokenVisit {ch visits} (h : Canonical s) : Canonical (tokenVisit s ch visits) := .sendUpTo h

/-! ### Strips and chains of video -/

theorem Canonical.endTeam {tm} (h : Canonical s) : Canonical (endTeam s tm) := .foldl (fun h' => .endThread h') h

theorem Canonical.killChain {cid} (h : Canonical s) : Canonical (killChain s cid) := by
  unfold Machine.killChain
  split
  · exact h
  · refine .endChain (.foldl (fun h' => ?_) (.frame h))
    split
    · exact .endTeam h'
    · exact h'

theorem KeepsCanonical.execChainForcedEnd {cid} (h : Canonical s) : KeepsCanonical (execChainForcedEnd cid s) := by
  unfold Machine.execChainForcedEnd
  refine .next ?_
  split
  · exact .ite (.killChain h) h
  · exact h

theorem Canonical.raiseTeam {tm cause infos} (h : Canonical s) : Canonical (raiseTeam s tm cause infos) :=
  .foldl (fun h' => .raiseAsync h') h

theorem KeepsCanonical.execBudgetExpiry {jid} (h : Canonical s) : KeepsCanonical (execBudgetExpiry jid s) := by
  unfold Machine.execBudgetExpiry
  refine .next ?_
  split
  · exact .ite h (.raiseTeam (.modJob h))
  · exact h

theorem KeepsCanonical.execDeadlineMiss {jid} (h : Canonical s) : KeepsCanonical (execDeadlineMiss jid s) := by
  unfold Machine.execDeadlineMiss
  refine .next ?_
  split
  · split
    · exact h
    · exact .ite h (.raiseTeam (.modJob h))
  · exact h

theorem Canonical.renderSlot {r i f k' fill sealId} (h : Canonical s) : Canonical (renderSlot s r i f k' fill sealId) :=
  .modSlot h

theorem Canonical.startLadder {r f k' finish fs} (h : Canonical s) : Canonical (startLadder s r f k' finish fs) := .frame h
theorem Canonical.missLadders {c} (h : Canonical s) : Canonical (missLadders s c) := .frame h

theorem Canonical.admitChain {o v fs f j c} (h : Canonical s) : Canonical (admitChain s o v fs f j c) := by
  unfold Machine.admitChain
  cases c.lo with
  | none =>
    exact .when (fun h => .endChain h) (.placeReady (.addClaims
      (.frame (.whenNot (fun h => .startLadder (.renderSlot h)) (.fresh h)))))
  | some l =>
    dsimp only
    generalize e : Machine.startLadder _ v.loring f l c.f fs = s'
    have h' : Canonical s' := by
      rw [← e]
      exact .startLadder (.renderSlot (.whenNot (fun h => .startLadder (.renderSlot h)) (.fresh h)))
    exact .when (fun h => .endChain h) (.placeReady (.addClaims (.frame h')))

theorem KeepsCanonical.execStripAdmission {o} (h : Canonical s) : KeepsCanonical (execStripAdmission o s) := by
  unfold Machine.execStripAdmission
  refine .next ?_
  split
  · exact .ite h (.settleEarly (.ite (.missLadders (.modOutput h)) (.admitChain (.modOutput h))))
  · exact h

theorem Canonical.freeLoSlots {v f k'} (h : Canonical s) : Canonical (freeLoSlots s v f k') :=
  .ite h (.foldl (fun h' => .ite (.modSlot h') h') h)

theorem Canonical.takeStrip {o x c} (h : Canonical s) : Canonical (takeStrip s o x c) :=
  .when .frame (.frame (.ite (.modSlot h) (.modSlot h)))

theorem KeepsCanonical.execStripScan {o} (h : Canonical s) : KeepsCanonical (execStripScan o s) := by
  unfold Machine.execStripScan
  refine .next ?_
  split
  · exact h
  · refine .ite h (.freeLoSlots (.takeStrip ?_))
    split
    · dsimp only
      split
      · refine .killChain ?_
        split
        · exact .killChain h
        · exact h
      · split
        · exact .killChain h
        · exact h
    · dsimp only
      split
      · exact .killChain h
      · exact h

theorem KeepsCanonical.execSlotRelease {r i} (h : Canonical s) : KeepsCanonical (execSlotRelease r i s) :=
  .next (.ite (.modSlot h) h)

theorem Canonical.logLink {o back} (h : Canonical s) : Canonical (logLink s o back) := .logEvent h

theorem KeepsCanonical.execHeadLinkLoss {o} (h : Canonical s) : KeepsCanonical (execHeadLinkLoss o s) :=
  .next (.ite (.logLink (.modOutput h)) h)

theorem KeepsCanonical.execLinkRetrain {o} (h : Canonical s) : KeepsCanonical (execLinkRetrain o s) :=
  .next (.ite (.logLink (.modOutput h)) h)

theorem Canonical.modDev {f} (h : Canonical s) : Canonical (modDev s f) := .frame h
theorem Canonical.modTlock {f} (h : Canonical s) : Canonical (modTlock s f) := .modDev h
theorem KeepsCanonical.execPpsEdge {offset} (h : Canonical s) : KeepsCanonical (execPpsEdge offset s) := .next (.modTlock h)

theorem KeepsCanonical.execPtpin {t1 t2 t3 t4} (h : Canonical s) : KeepsCanonical (execPtpin t1 t2 t3 t4 s) :=
  .next (.modTlock h)

theorem KeepsCanonical.execTlockHoldover (h : Canonical s) : KeepsCanonical (execTlockHoldover s) :=
  .next (.ite (.modTlock h) h)

theorem KeepsCanonical.execPpsLoss (h : Canonical s) : KeepsCanonical (execPpsLoss s) := .next (.ite (.modTlock h) h)

theorem KeepsCanonical.execRefreshWindowStart {b} (h : Canonical s) : KeepsCanonical (execRefreshWindowStart b s) :=
  .next (.ite (.modDev h) h)

theorem KeepsCanonical.execRefreshWindowEnd {b} (h : Canonical s) : KeepsCanonical (execRefreshWindowEnd b s) :=
  .next (.ite h (.modDev h))

theorem Canonical.modChannel {c f} (h : Canonical s) : Canonical (modChannel s c f) := .modDev h

theorem KeepsCanonical.execQosFrameBoundary (h : Canonical s) : KeepsCanonical (execQosFrameBoundary s) :=
  .next (.ite h (.modDev h))

theorem KeepsCanonical.execAutomaticWake {c} (h : Canonical s) : KeepsCanonical (execAutomaticWake c s) :=
  .next (.ite (.modChannel h) h)

theorem KeepsCanonical.execRetuneEnd {c} (h : Canonical s) : KeepsCanonical (execRetuneEnd c s) :=
  .next (.ite (.modChannel h) h)

theorem KeepsCanonical.execDuctusWake {o} (h : Canonical s) : KeepsCanonical (execDuctusWake o s) := by
  unfold Machine.execDuctusWake
  refine .next ?_
  split
  · exact .ite h (.foldl (fun h' => .modChannel h') (.modOutput h))
  · exact h

theorem KeepsCanonical.execDuctusIdleExit (h : Canonical s) : KeepsCanonical (execDuctusIdleExit s) :=
  .next (.ite (.modDev h) h)

/-! ### Graphs and host launches -/

theorem Canonical.statusRecord {tag op code value} (h : Canonical s) : Canonical (statusRecord s tag op code value) :=
  .signal (.frame h)

theorem DevRead.Keeps.readFor {sealId addr n pts} (h : Canonical s) : (readFor s sealId addr n pts).Keeps := by
  unfold Machine.readFor
  split
  · next e => exact loadRange_canonical (EngRes.Keeps.ok (.engineGlob h) e) _ _ _ _
  · next e => exact EngRes.Keeps.wait (.engineGlob h) e
  · exact trivial

theorem HostLaunch.Keeps.hostEnqueue {r bufs arrs pts task} (h : Canonical s) :
    (hostEnqueue s r bufs arrs pts task).Keeps := by
  unfold Machine.hostEnqueue
  refine .ite (Canonical.enqueueGrid h) ?_
  split
  · next e => exact DevRead.Keeps.wait (.readFor h) e
  · exact h
  · next e =>
    have h := DevRead.Keeps.ok (.readFor h) e
    dsimp only
    generalize tableCheckFrom 0 _ = o
    cases o with
    | none => exact Canonical.enqueueGrid h
    | some _ => exact h

theorem HostLaunch.Keeps.hostLaunch {bs sealId pts task} (h : Canonical s) : (hostLaunch s bs sealId pts task).Keeps := by
  unfold Machine.hostLaunch
  refine .ite h (.ite h ?_)
  split
  · next e => exact DevRead.Keeps.wait (.ite (a := .ok [] s) h (.readFor h)) e
  · exact h
  · next e =>
    have h := DevRead.Keeps.ok (.ite (a := .ok [] s) h (.readFor h)) e
    split
    · exact h
    · exact .ite (.hostEnqueue h) h

theorem Canonical.modGraph {g f} (h : Canonical s) : Canonical (modGraph s g f) := .modDev h

theorem Canonical.endRun {g r code value} (h : Canonical s) : Canonical (endRun s g r code value) :=
  .when (fun h' => .statusRecord h') (.modGraph h)

theorem Canonical.launchTasks {g k fuel} (h : Canonical s) : Canonical (launchTasks g k fuel s) := by
  induction fuel generalizing s k with
  | zero => exact h
  | succ fuel ih =>
    unfold Machine.launchTasks
    split
    · exact h
    · split
      · exact h
      · refine .ite (ih h) ?_
        split
        · next e => exact HostLaunch.Keeps.wait (.hostLaunch h) e
        · next e => exact ih (.frame (HostLaunch.Keeps.status (.hostLaunch h) e))
        · next e => exact .endRun (HostLaunch.Keeps.status (.hostLaunch h) e)

theorem Canonical.takeDone {g d} (h : Canonical s) : Canonical (takeDone s g d) := by
  unfold Machine.takeDone
  split
  · exact h
  · exact .ite h (.ite (.endRun h) (.modGraph h))

theorem Canonical.finishRun {g} (h : Canonical s) : Canonical (finishRun s g) := by
  unfold Machine.finishRun
  split
  · exact h
  · split
    · exact h
    · exact .ite (.endRun h) h

theorem Canonical.advanceGraph {g} (h : Canonical s) : Canonical (advanceGraph s g) := .finishRun (.launchTasks h)

theorem Canonical.advanceGraphs (h : Canonical s) : Canonical (advanceGraphs s) :=
  .ite (.foldl (fun h' => .finishRun h') (.foldl (fun h' => .foldl (fun h'' => .takeDone h'') h') (.frame h)))
    (.foldl (fun h' => .advanceGraph h') (.foldl (fun h' => .foldl (fun h'' => .takeDone h'') h') (.frame h)))

/-! ### Contexts -/

theorem Yields.takeAreas {t th} (h : Canonical s) : Yields (fun r => Canonical r.2) (takeAreas s t th) := by
  unfold Machine.takeAreas
  split
  · trivial
  · next e =>
    have h := Yields.answer (.poolTake h) e
    dsimp only
    split
    · trivial
    · next e =>
      have hi := Yields.answer (p := fun r : Thread × State => Canonical r.2)
        (.ite (.map (fun h => h) (.poolTake h)) (.pair h)) e
      exact List.foldlRecOn (motive := Yields fun r : Thread × State => Canonical r.2) _ _ (.pair hi) fun r hr p _ =>
        .bind (fun hx => .map (fun hy => .frame hy) (.poolTake hx)) hr

theorem Canonical.giveAreas {t th} (h : Canonical s) : Canonical (giveAreas s t th) :=
  .foldl (fun h' => .modRay (.poolGive? h')) (.poolGive? (.poolGive h))

theorem Canonical.saveRecord {th} (h : Canonical s) : Canonical (saveRecord s th) := by
  unfold Machine.saveRecord
  split
  · exact .storeDevice (.storeDevice h)
  · exact .storeDevice h

theorem Canonical.readRecord {th} (h : Canonical s) : Canonical (readRecord s th).2 := .when (fun h' => .met h') (.met h)

/-! ### Matrix operations -/

theorem Gives.mtxIssue {o ec dests op} (hk : Canonical k.s) (h : Canonical s) : Gives Eff.Keeps
    (mtxIssue k s o ec dests op) :=
  .ite (.held (.holdAt hk)) (.eff (.enterMtx h))

theorem Yields.stepsOneTwo {addr write wins} : Yields Stop.Keeps (stepsOneTwo k addr write wins) := by
  unfold Machine.stepsOneTwo
  split
  · exact .stop trivial
  · exact .ite (.stop trivial) (.ite (.stop trivial) .empty)

theorem Gives.sendTile {o as_ load} (hk : Canonical k.s) : Gives Eff.Keeps (sendTile k o as_ load) := by
  refine .ite (.held (.holdAt hk)) (.ite (.held (.holdAt hk)) (.map (fun he => ?_)
    (.mtxIssue hk (.ite (.flush hk) (.foldl (fun h => .noteRegion h) hk)))))
  split
  · exact ⟨.openRemote he.1, he.2⟩
  · exact he

theorem Gives.tileBody {bmp load t a} (hk : Canonical k.s) : Gives Eff.Keeps (tileBody bmp load t a k) := by
  unfold Machine.tileBody
  extract_lets addr wins
  split
  · next e => exact .stop (Yields.answer .stepsOneTwo e)
  · refine .ite .trap ?_
    split
    · next e => exact .stop (Gives.stopped (.checkRange hk) e)
    · exact .sendTile hk

theorem KeepsCanonical.execKld {sw t a x} (h : Canonical s) : KeepsCanonical (execKld sw t a x s) :=
  .issue h (fun h' => .tileBody h')

theorem KeepsCanonical.execKst {sw t a x} (h : Canonical s) : KeepsCanonical (execKst sw t a x s) :=
  .issue h (fun h' => .tileBody h')

theorem KeepsCanonical.execKbld {sw t a x} (h : Canonical s) : KeepsCanonical (execKbld sw t a x s) :=
  .issue h (fun h' => .tileBody h')

theorem KeepsCanonical.execKbst {sw t a x} (h : Canonical s) : KeepsCanonical (execKbst sw t a x s) :=
  .issue h (fun h' => .tileBody h')

theorem Gives.bankMemBody {load a bank} (hk : Canonical k.s) : Gives Eff.Keeps (bankMemBody load a bank k) := by
  unfold Machine.bankMemBody
  split
  · next e => exact .stop (Gives.stopped (.checkRange hk) e)
  · exact .sendTile hk

theorem KeepsCanonical.execAccspl {sw a kb x} (h : Canonical s) : KeepsCanonical (execAccspl sw a kb x s) :=
  .issue h (fun h' => .bankMemBody h')

theorem KeepsCanonical.execAccfil {sw a kb x} (h : Canonical s) : KeepsCanonical (execAccfil sw a kb x s) :=
  .issue h (fun h' => .bankMemBody h')

theorem Gives.unitIssue {o} (hk : Canonical k.s) : Gives Eff.Keeps (unitIssue k o) := .mtxIssue hk hk

theorem KeepsCanonical.execKzero {sw d n m} (h : Canonical s) : KeepsCanonical (execKzero sw d n m s) :=
  .issue h (fun h' => .ite .trap (.ite .trap (.unitIssue h')))

theorem Gives.kcvtBody {d a b m} (hk : Canonical k.s) : Gives Eff.Keeps (kcvtBody d a b m k) := by
  unfold Machine.kcvtBody
  refine .ite .trap (.ite .trap (.ite .trap ?_))
  split
  · exact .trap
  · exact .unitIssue hk

theorem KeepsCanonical.execKcvt {sw d a b y m} (h : Canonical s) : KeepsCanonical (execKcvt sw d a b y m s) :=
  .issue h (fun h' => .kcvtBody h')

theorem KeepsCanonical.execKbmp {sw d a b y m} (h : Canonical s) : KeepsCanonical (execKbmp sw d a b y m s) :=
  .issue h (fun h' => .ite .trap (.ite .trap (.ite .trap (.unitIssue h'))))

theorem Gives.mmaeBytes {a m} (hk : Canonical k.s) : Gives (fun r => Canonical r.2) (mmaeBytes k a m) := by
  unfold Machine.mmaeBytes
  refine .ite (.pair hk) (.ite (.held (.holdAt hk)) ?_)
  split
  · next e => exact .stop (Gives.stopped (.checkAccess hk) e)
  · exact .pair (.readNow hk)

theorem KeepsCanonical.execMmae {sw a x m} (h : Canonical s) : KeepsCanonical (execMmae sw a x m s) := by
  unfold Machine.execMmae
  refine .issue h (fun h' => ?_)
  split
  · exact .held h'
  · refine .ite .trap ?_
    split
    · next e => exact .stop (Gives.stopped (.mmaeBytes h') e)
    · next e' =>
        split
        · next e => exact .stop (Gives.stopped .blockCheck e)
        · exact .mtxIssue h' (Gives.answer (.mmaeBytes h') e')

theorem KeepsCanonical.execMmac {sw d a b x y m} (h : Canonical s) : KeepsCanonical (execMmac sw d a b x y m s) :=
  .issue h (fun h' => .ite .trap (.ite (.held (.holdAt h')) (.effThen h' (fun h'' => .arriveLig h''))))

theorem KeepsCanonical.execAccz {sw kb} (h : Canonical s) : KeepsCanonical (execAccz sw kb s) :=
  .issue h (fun h' => .unitIssue h')

theorem Gives.accrdBody {d a b m} (hk : Canonical k.s) : Gives Eff.Keeps (accrdBody d a b m k) := by
  unfold Machine.accrdBody
  refine .ite .trap (.ite (.mtxIssue hk hk) ?_)
  split
  · exact .held hk
  · dsimp only
    split
    · exact .trap
    · exact .unitIssue hk

theorem KeepsCanonical.execAccrd {sw d a b x y m} (h : Canonical s) : KeepsCanonical (execAccrd sw d a b x y m s) :=
  .issue h (fun h' => .accrdBody h')

theorem KeepsCanonical.execMqry {sw d a x} (h : Canonical s) : KeepsCanonical (execMqry sw d a x s) := by
  unfold Machine.execMqry
  refine .issue h (fun h' => ?_)
  split
  · exact .held h'
  · exact .ite (.held (.holdAt h')) (.ite (.retLater h') (.ite (.retLater h') .trap))

theorem Canonical.finishMtx {id o} (h : Canonical s) : Canonical (finishMtx s id o) := by
  unfold Machine.finishMtx
  refine .rejudgeCore (.settleHeirs (.foldl (fun h' => ?_) (.frame h)))
  split
  · exact .replyToRecord (.modThread h')
  · exact h'

theorem Canonical.orphanBytes {o} (h : Canonical s) : Canonical (orphanBytes s o).2 :=
  .ite₂ h (.ite₃ (loadRange_canonical h _ _ _ _) (.readLeft h))

theorem Canonical.loadedBytes {id o} (h : Canonical s) : Canonical (loadedBytes s id o).2 := by
  unfold Machine.loadedBytes
  split
  · exact h
  · split
    · exact h
    · split
      · split
        · exact .ite₂ (.performFlight h) h
        · exact .orphanBytes h
      · exact h

theorem Yields.storeTile {id o bs} (h : Canonical s) : Yields Canonical (storeTile s id o bs) := by
  unfold Machine.storeTile
  extract_lets remote
  have hr {pts} : Yields Canonical (remote pts) := by
    unfold remote
    split
    · exact .ite .empty (.state (.modMtx (.openRemote h)))
    · exact .empty
  split
  · exact .empty
  · split
    · exact .ite .empty (.ite hr (.state (.finishMtx (.modThread (.ite₂ (storeRange_canonical h _ _ _ _) (.writeLeft h))))))
    · exact .ite .empty (.ite hr (.state (.finishMtx (.noteEndPts (.ite₂ (storeRange_canonical h _ _ _ _) (.writeLeft h))))))

theorem Canonical.performMtx {id o tm} (h : Canonical s) : Canonical (performMtx s id o tm) := by
  unfold Machine.performMtx
  dsimp only
  cases o.kind with
  | load =>
    dsimp only
    split
    · next e => exact .finishMtx (.frame (.of_eq (.loadedBytes h) e))
    · next e => exact .of_eq (.loadedBytes h) e
  | fill =>
    dsimp only
    split
    · next e => exact .finishMtx (.frame (.of_eq (.loadedBytes h) e))
    · next e => exact .of_eq (.loadedBytes h) e
  | store => exact .getD (.storeTile h) h
  | spill => exact .getD (.storeTile h) h
  | zero => exact .ite (.finishMtx (.frame h)) (.finishMtx (.frame h))
  | cvt => exact .finishMtx (.frame h)
  | bmp => exact .finishMtx (.frame h)
  | accz => exact .finishMtx (.frame h)
  | accrd => exact .finishMtx (.frame h)
  | accrdReg =>
    refine .finishMtx (.foldl (fun h => ?_) h)
    split
    · exact .deliverFlight h
    · exact h
  | mma => exact h

theorem KeepsCanonical.execMtxOperationComplete {c id} (h : Canonical s) : KeepsCanonical
    (execMtxOperationComplete c id s) := by
  unfold Machine.execMtxOperationComplete
  refine .next ?_
  split
  · exact .performMtx h
  · exact h

theorem Canonical.matrixNan {o b os} (h : Canonical s) : Canonical (matrixNan s o b os) := by
  unfold Machine.matrixNan
  split
  · exact .raiseAsync h
  · exact h

theorem Canonical.completeMma {id o tm b} (h : Canonical s) : Canonical (completeMma s id o tm b) := by
  unfold Machine.completeMma
  dsimp only
  split
  · exact .matrixNan (.finishMtx (.arrivalAdd (.frame h)))
  · exact .matrixNan (.finishMtx (.frame h))

theorem KeepsCanonical.execMatrixOpCompletion {c id} (h : Canonical s) : KeepsCanonical (execMatrixOpCompletion c id s) := by
  unfold Machine.execMatrixOpCompletion
  refine .next ?_
  split
  · split
    · exact .completeMma h
    · exact h
  · exact h

theorem Canonical.serveSet {c one} (h : Canonical s) : Canonical (serveSet s c one) := by
  unfold Machine.serveSet
  split
  · exact .ite h (.assignSet h)
  · exact h

theorem Canonical.serveWaiting {c} (h : Canonical s) : Canonical (serveWaiting s c) := .serveSet (.serveSet h)

theorem KeepsCanonical.execBankSpill {c set} (h : Canonical s) : KeepsCanonical (execBankSpill c set s) := by
  unfold Machine.execBankSpill
  refine .next ?_
  dsimp only
  split
  · exact .ite h (.serveSet (.modCore (.spillBank h)))
  · exact h

/-! ### Feeds -/

theorem Canonical.modFeed {k' f} (h : Canonical s) : Canonical (modFeed s k' f) := .frame h

theorem Canonical.endFeed {k' f state} (h : Canonical s) : Canonical (endFeed s k' f state) :=
  .modFeed (.foldl (fun h' => .endRead h') (.modTeam h))

theorem Canonical.feedRead {c k' f addr n} (h : Canonical s) : Canonical (feedRead s c k' f addr n).2 := by
  unfold Machine.feedRead
  split
  · exact .modFeed h
  · split
    · exact .endFeed h
    · split
      · next e => exact .modFeed (EngRes.Keeps.wait (.engineAccess h) e)
      · exact .endFeed h
      · exact .endFeed h
      · next s' e3 =>
          have h' : Canonical s' := EngRes.Keeps.ok (.engineAccess h) e3
          split
          · exact .modFeed (.openRemote h')
          · exact .modFeed (loadRange_canonical (.beginRead (.noteGridRegion h')) _ _ _ _)

theorem KeepsCanonical.feedIssue {loopWord body} (h : Canonical s) (hb : ∀ {c x f}, Canonical (body s c x f)) :
    KeepsCanonical (feedIssue loopWord body s) := by
  unfold Machine.feedIssue
  split
  · exact .fault
  · dsimp only
    split
    · exact .fault
    · exact .next (.ite h (.ite (.frame h) hb))

theorem Canonical.badWord {k' f} (h : Canonical s) : Canonical (badWord s k' f) := .endFeed h

theorem KeepsCanonical.execFloop {src p c} (h : Canonical s) : KeepsCanonical (execFloop src p c s) :=
  .feedIssue h (.ite (.modFeed h) (.ite (.badWord h) (.ite (.modFeed h) (.modFeed h))))

theorem KeepsCanonical.execFend (h : Canonical s) : KeepsCanonical (execFend s) := by
  unfold Machine.execFend
  refine .feedIssue h ?_
  intro c x f
  split
  · exact .modFeed h
  · split
    · exact .badWord h
    · exact .ite (.modFeed h) (.modFeed h)

theorem KeepsCanonical.execFaddr {st l sc w} (h : Canonical s) : KeepsCanonical (execFaddr st l sc w s) :=
  .feedIssue h (.modFeed h)

theorem Canonical.feedPush {k' f q v} (h : Canonical s) : Canonical (feedPush s k' f q v) :=
  .portPush (.ite h (.modTeam (.modFeed h)))

theorem KeepsCanonical.execFpush {st q z e n} (h : Canonical s) : KeepsCanonical (execFpush st q z e n s) := by
  unfold Machine.execFpush
  refine .feedIssue h ?_
  intro c x f
  split
  · exact h
  · split
    · exact .modFeed h
    · split
      · dsimp only
        split
        · next e => exact .of_eq (.feedRead h) e
        · next e => exact .modFeed (.feedPush (.of_eq (.feedRead h) e))
      · dsimp only
        split
        · next e => exact .of_eq (.feedRead h) e
        · next e => exact .modFeed (.feedPush (.of_eq (.feedRead h) e))

theorem Canonical.writeRow {f tm k' row bs} (h : Canonical s) : Canonical (writeRow s f tm k' row bs) := by
  unfold Machine.writeRow
  refine .modTeam ?_
  split
  · exact h
  · exact .modTeam (.fresh h)

theorem KeepsCanonical.execFpushk {st t r} (h : Canonical s) : KeepsCanonical (execFpushk st t r s) := by
  unfold Machine.execFpushk
  refine .feedIssue h ?_
  intro c x f
  split
  · exact h
  · split
    · exact .badWord h
    · split
      · next e => exact .ite (.modFeed h) (.of_eq (.feedRead h) e)
      · next e => exact .ite (.modFeed h) (.modFeed (.writeRow (.of_eq (.feedRead h) e)))

theorem KeepsCanonical.execFpermitQueue {q n} (h : Canonical s) : KeepsCanonical (execFpermitQueue q n s) := by
  unfold Machine.execFpermitQueue
  refine .feedIssue h ?_
  intro c x f
  split
  · exact h
  · exact .ite (.modFeed (.modTeam h)) (.modFeed h)

theorem KeepsCanonical.execFpermitBuffer {b} (h : Canonical s) : KeepsCanonical (execFpermitBuffer b s) := by
  unfold Machine.execFpermitBuffer
  refine .feedIssue h ?_
  intro c x f
  split
  · exact .ite (.modFeed h) (.modFeed h)
  · exact .modFeed h

theorem KeepsCanonical.execFsync {r b} (h : Canonical s) : KeepsCanonical (execFsync r b s) :=
  .feedIssue h (.ite (.modFeed (.endRead (.modTeam h))) (.modFeed (.modTeam h)))

theorem KeepsCanonical.execFstop (h : Canonical s) : KeepsCanonical (execFstop s) := .feedIssue h (.endFeed h)

theorem Canonical.feedFetch {c x} (h : Canonical s) : Canonical (feedFetch s c x).2 := by
  unfold Machine.feedFetch
  dsimp only
  split
  · exact h
  · refine .ite₂ h (.ite₂ (.endFeed h) ?_)
    split
    · next e => exact .frame (loadRange_canonical (EngRes.Keeps.ok (.engineGlob h) e) _ _ _ _)
    · next e => exact .frame (EngRes.Keeps.wait (.engineGlob h) e)
    · exact .endFeed h

theorem Gives.fdstartBody {d a} (hk : Canonical k.s) : Gives Eff.Keeps (fdstartBody d a k) := by
  unfold Machine.fdstartBody
  split
  · next e => exact .stop (Gives.stopped (.checkAccess hk) e)
  · refine .bind (fun h => ?_) (.publish hk)
    split
    · exact .held hk
    · refine .ite .trap ?_
      split
      · exact .inState (.met h) (.retLater hk)
      · exact .inState (.frame (.fresh (.met h))) (.retLater hk)

theorem KeepsCanonical.execFdstart {sw d a x} (h : Canonical s) : KeepsCanonical (execFdstart sw d a x s) :=
  .issue h (fun h' => .fdstartBody h')

theorem KeepsCanonical.execFdstop {sw d c} (h : Canonical s) : KeepsCanonical (execFdstop sw d c s) := by
  unfold Machine.execFdstop
  refine .issue h (fun h' => ?_)
  dsimp only
  split
  · exact .retLater h'
  · exact .ite (.retLater h') (.ite (.retLater h') (.ite (.held (.holdAt h')) (.inState (.endFeed h') (.retLater h'))))

theorem KeepsCanonical.execFdstat {sw d a x} (h : Canonical s) : KeepsCanonical (execFdstat sw d a x s) := by
  unfold Machine.execFdstat
  refine .issue h (fun h' => .ite .trap ?_)
  split
  · exact .retLater h'
  · exact .ite (.retLater h') (.inState (.ite (.setThread h') h') (.retLater h'))

/-! ### The ray unit -/

theorem RayRead.Keeps.rayRead {id r addr n} (h : Canonical s) : (rayRead s id r addr n).Keeps := by
  unfold Machine.rayRead
  split
  · exact h
  · refine .ite trivial ?_
    dsimp only
    split
    · next e => exact .modRay (loadRange_canonical (EngRes.Keeps.ok (.engineGlob h) e) _ _ _ _)
    · next e => exact EngRes.Keeps.wait (.engineGlob h) e
    · exact trivial

theorem Canonical.parkRay {id r sp h' isect sb} (h : Canonical s) : Canonical (parkRay s id r sp h' isect sb) := .modRay h
theorem Canonical.popRay {id} (h : Canonical s) : Canonical (popRay s id) := .modRay h
theorem Canonical.pushRay {id es} (h : Canonical s) : Canonical (pushRay s id es) := .modRay h

theorem Yields.judge {id r sp h' opaque'} (h : Canonical s) : Yields Canonical (judge s id r sp h' opaque') := by
  unfold Machine.judge
  refine .ite (.state (.commitThen h)) ?_
  split
  · exact .empty
  · exact .state (.finishRay h)
  · next s' e =>
      have h'' : Canonical s' := RayRead.Keeps.bytes (.rayRead h) e
      exact .ite (.state (.finishRay h'')) (.ite (.state (.commitThen h'')) (.state (.parkRay h'')))

theorem Yields.judgeProcedural {id r sp addr bs} (h : Canonical s) : Yields Canonical
    (judgeProcedural s id r sp addr bs) := by
  unfold Machine.judgeProcedural
  dsimp only
  split
  · exact .empty
  · exact .state (.finishRay h)
  · next s' e =>
      have h' : Canonical s' := RayRead.Keeps.bytes (.rayRead h) e
      exact .ite (.state (.finishRay h')) (.ite (.state h') (.state (.parkRay h')))

theorem Canonical.enterInstance {id r e bs} (h : Canonical s) : Canonical (enterInstance s id r e bs) := by
  unfold Machine.enterInstance
  split
  · exact h
  · split
    · split
      · exact h
      · exact .pushRay h

theorem Canonical.leafStep {id r e} (h : Canonical s) : Canonical (leafStep s id r e) := by
  unfold Machine.leafStep
  extract_lets size
  split
  · next e => exact RayRead.Keeps.hold (.rayRead h) e
  · exact .finishRay h
  · next e =>
    have h := RayRead.Keeps.bytes (.rayRead h) e
    refine .ite (.finishRay h) ?_
    extract_lets popped
    have hn : Canonical popped := .pushRay (.popRay h)
    refine .ite (.enterInstance hn) (.ite ?_ ?_)
    · split
      · next e => exact Yields.answer (.judgeProcedural hn) e
      · split
        · next e => exact RayRead.Keeps.hold (.rayRead h) e
        · exact h
    · split
      · exact hn
      · split
        · next e => exact Yields.answer (.judge hn) e
        · split
          · next e => exact RayRead.Keeps.hold (.rayRead h) e
          · exact h

theorem Canonical.nodeStep {id r e} (h : Canonical s) : Canonical (nodeStep s id r e) := by
  unfold Machine.nodeStep
  split
  · exact .finishRay h
  · split
    · next e => exact RayRead.Keeps.hold (.rayRead h) e
    · exact .finishRay h
    · next s' e' =>
        have h'' : Canonical s' := RayRead.Keeps.bytes (.rayRead h) e'
        exact .ite (.finishRay h'') (.pushRay (.popRay h''))

theorem Canonical.traverse {id} (h : Canonical s) : Canonical (traverse s id) := by
  unfold Machine.traverse
  split
  · exact h
  · split
    · exact h
    · split
      · exact .finishRay h
      · exact .ite (.popRay h) (.ite (.nodeStep h) (.leafStep h))

theorem KeepsCanonical.execRayTraversalStep {ray} (h : Canonical s) : KeepsCanonical (execRayTraversalStep ray s) :=
  .next (.traverse h)

theorem Canonical.startCallback {id} (h : Canonical s) : Canonical (startCallback s id) := by
  unfold Machine.startCallback
  split
  · exact h
  · split
    · split
      · split
        · exact h
        · split
          · next s' e6 =>
              have h' : Canonical s' := .of_eq (.fresh h) e6
              dsimp only
              split
              · exact .modTeam (.placeTeam (.frame h'))
              · exact .modRay (.reclaim (.modThread (.modTeam (.placeTeam (.frame h')))))
      · exact h
    · exact h

theorem Canonical.startCallbacks {cluster} (h : Canonical s) : Canonical (startCallbacks s cluster) := by
  unfold Machine.startCallbacks
  refine .foldl (fun h' => ?_) h
  split
  · exact .ite (.startCallback h') h'
  · exact h'

theorem KeepsCanonical.execCallbackStart {ray} (h : Canonical s) : KeepsCanonical (execCallbackStart ray s) :=
  .next (.startCallback h)

theorem Gives.raynewBody {d a} (hk : Canonical k.s) : Gives Eff.Keeps (raynewBody d a k) := by
  unfold Machine.raynewBody
  split
  · next e => exact .stop (Gives.stopped (.checkRange hk) e)
  · split
    · next s e' =>
        have h : Canonical s := .of_eq (.readNow hk) e'
        split
        · dsimp only
          split
          · exact .inState h (.retLater hk)
          · exact .held (.holdAt hk)
        · split
          · next e'' =>
              split
              · next e3 =>
                  dsimp only
                  split
                  · exact .inState h (.retLater hk)
                  · exact .inState (.frame (.of_eq (.draw (.of_eq (.fresh h) e'')) e3)) (.retLater hk)

theorem KeepsCanonical.execRaynew {sw d a x} (h : Canonical s) : KeepsCanonical (execRaynew sw d a x s) :=
  .issue h (fun h' => .raynewBody h')

theorem Gives.withRay {a f} (hf : ∀ {id r}, Gives Eff.Keeps (f id r)) : Gives Eff.Keeps (withRay k a f) := by
  unfold Machine.withRay
  split
  · exact .trap
  · exact hf

theorem KeepsCanonical.execRayset {sw d a b x y} (h : Canonical s) : KeepsCanonical (execRayset sw d a b x y s) :=
  .issue h (fun h' => .withRay (.ite .trap (.eff (.modRay h'))))

theorem Gives.raygoBody {id r} (hk : Canonical k.s) : Gives Eff.Keeps (raygoBody k id r) := by
  unfold Machine.raygoBody
  refine .ite .trap (.bind (fun h => ?_) (.publish hk))
  split
  · next s e =>
      have h' : Canonical s := .of_eq (.draw h) e
      split
      · exact .eff (.modRay (.modRay h'))
      · exact .ite (.held (.trapSync (.finishRay (.modRay h')))) (.eff (.finishRay (.modRay h')))

theorem KeepsCanonical.execRaygo {sw a x} (h : Canonical s) : KeepsCanonical (execRaygo sw a x s) :=
  .issue h (fun h' => .withRay (.raygoBody h'))

theorem KeepsCanonical.execRaywait {sw d a x} (h : Canonical s) : KeepsCanonical (execRaywait sw d a x s) :=
  .issue h (fun h' => .withRay (.ite (.eff h') (.eff (.ite (.setThread h') h'))))

theorem KeepsCanonical.execRayget {sw d a b x y} (h : Canonical s) : KeepsCanonical (execRayget sw d a b x y s) :=
  .issue h (fun h' => .withRay (.ite .trap (.inState (.ite (.setThread h') h') (.retLater h'))))

theorem KeepsCanonical.execRayfree {sw a x} (h : Canonical s) : KeepsCanonical (execRayfree sw a x s) :=
  .issue h (fun h' => .withRay (.eff (.frame h')))

theorem KeepsCanonical.execVerdict {sw a b x y} (h : Canonical s) : KeepsCanonical (execVerdict sw a b x y s) := by
  unfold Machine.execVerdict
  refine .issue h (fun h' => ?_)
  split
  · exact .trap
  · exact .ite .trap (.bind (fun h'' => .eff (.applyVerdict (.modRay (.modThread h'')))) (.publish h'))

theorem KeepsCanonical.execRaycb {sw d a x} (h : Canonical s) : KeepsCanonical (execRaycb sw d a x s) :=
  .issue h (fun h' => .ite .trap (.retLater h'))

/-! ### Placement, eviction and restore -/

theorem Canonical.placeInCluster {k'} (h : Canonical s) : Canonical (placeInCluster s k') := by
  unfold Machine.placeInCluster
  dsimp only
  split
  · exact .placeFrom (.startCallbacks (.remakeReserves h))
  · split
    · exact .placeFrom (.startCallbacks (.remakeReserves h))
    · exact .reclaim (.makeJob (.placeFrom (.startCallbacks (.remakeReserves h))))

theorem KeepsCanonical.execTeamPlacement {cluster} (h : Canonical s) : KeepsCanonical (execTeamPlacement cluster s) :=
  .next (.ite (.placeInCluster h) h)

theorem Canonical.dropTokens {c tm} (h : Canonical s) : Canonical (dropTokens s c tm) := .modCore h

theorem Canonical.dropBanks {c tm spill} (h : Canonical s) : Canonical (dropBanks s c tm spill) :=
  .modCore (.ite (.foldl (fun h' => .spillBank h') h) h)

theorem Canonical.wakeAway {tm} (h : Canonical s) : Canonical (wakeAway s tm) := .frame h
theorem Canonical.dropTeamLocks {tm} (h : Canonical s) : Canonical (dropTeamLocks s tm) := .frame h

theorem Canonical.releaseTeam {id tm} (h : Canonical s) : Canonical (releaseTeam s id tm) :=
  .wakeAway (.dropTeamLocks (.serveWaiting (.dropBanks (.dropTokens (.frame h)))))

theorem Canonical.finishGrid {gid} (h : Canonical s) : Canonical (finishGrid s gid) := by
  unfold Machine.finishGrid
  dsimp only
  split
  · exact .when (fun h' => .engineFault h') (.completeGrid h)
  · exact .completeGrid h

theorem Canonical.restartCount {gid} (h : Canonical s) : Canonical (restartCount s gid) := .ite (.modGrid h) h

theorem Canonical.countRetired {gid} (h : Canonical s) : Canonical (countRetired s gid) := by
  unfold Machine.countRetired
  dsimp only
  split
  · exact .ite (.advanceGraphs (.finishGrid (.modGrid h))) (.restartCount (.modGrid h))
  · exact .modGrid h

theorem Canonical.retireTeam {id tm} (h : Canonical s) : Canonical (retireTeam s id tm) := by
  unfold Machine.retireTeam
  dsimp only
  split
  · exact .releaseTeam h
  · exact .ite (.remakeReserves (.frame (.releaseTeam h))) (.remakeReserves (.countRetired (.releaseTeam h)))

theorem KeepsCanonical.execTeamRetirement {team} (h : Canonical s) : KeepsCanonical (execTeamRetirement team s) := by
  unfold Machine.execTeamRetirement
  refine .next ?_
  split
  · exact .ite (.retireTeam h) h
  · exact h

theorem Canonical.requestEviction {tm} (h : Canonical s) : Canonical (requestEviction s tm) := .modTeam h

theorem KeepsCanonical.execEvictionRequest {cluster teams} (h : Canonical s) : KeepsCanonical
    (execEvictionRequest cluster teams s) := by
  unfold Machine.execEvictionRequest
  refine .next (.foldl (fun h' => ?_) h)
  split
  · exact .ite (.requestEviction h') h'
  · exact h'

theorem Canonical.stopCopy {c p} (h : Canonical s) : Canonical (stopCopy s c p) := by
  unfold Machine.stopCopy
  refine .modCopy (.modCore ?_)
  split
  · exact .when (fun h' => .endRead h') (.writeStatus h)
  · exact .writeStatus h

theorem Canonical.moveFeeds {id c c'} (h : Canonical s) : Canonical (moveFeeds s id c c') := .frame h

theorem Canonical.leaveCore {id tm} (h : Canonical s) : Canonical (leaveCore s id tm) :=
  .restartCount (.modTeam (.serveWaiting (.dropBanks (.dropTokens
    (.modCore (.foldl (fun h' => .stopCopy h') (.moveFeeds h)))))))

theorem Canonical.evictThread {t th} (h : Canonical s) : Canonical (evictThread s t th) := by
  unfold Machine.evictThread
  split
  · exact h
  · dsimp only
    split
    · exact h
    · next e =>
        exact .setThread (.saveRays (.saveRecord (Yields.answer
          (.bind (fun _ => .ite .empty (.takeAreas (.leaveLane (.flush h)))) (.all fun _ => trivial)) e)))

theorem KeepsCanonical.execEviction {t} (h : Canonical s) : KeepsCanonical (execEviction t s) := by
  unfold Machine.execEviction
  refine .next ?_
  split
  · exact h
  · split
    · exact h
    · exact .ite h (.when (fun h' => .leaveCore h') (.ite (.evictThread h) h))

theorem Canonical.resumeCopy {c id} (h : Canonical s) : Canonical (resumeCopy s c id) := by
  unfold Machine.resumeCopy
  dsimp only
  split
  · exact .modCopy h
  · refine .resumeIf ?_
    split
    · exact .when (fun h' => .modTeam h') (.takeEntries (.modCopy h))
    · exact .takeEntries (.modCopy h)

theorem Canonical.returnTeam {id c base} (h : Canonical s) : Canonical (returnTeam s id c base) :=
  .wakeAway (.foldl (fun h' => .takeEntries h') (.foldl (fun h' => .resumeCopy h') (.moveFeeds (.modTeam h))))

theorem Canonical.restoreThread {t c} (h : Canonical s) : Canonical (restoreThread s t c) := by
  unfold Machine.restoreThread
  split
  · exact h
  · exact .reclaim (.placeActive (.giveAreas (.setThread (.readRecord h))))

theorem Canonical.restoreOn {t} (h : Canonical s) : Canonical (restoreOn s t) := by
  unfold Machine.restoreOn
  split
  · exact h
  · split
    · exact h
    · exact .ite (.restoreThread h) h

theorem KeepsCanonical.execRestore {t c} (h : Canonical s) : KeepsCanonical (execRestore t c s) := by
  unfold Machine.execRestore
  refine .next ?_
  split
  · exact h
  · split
    · exact h
    · split
      · exact h
      · split
        · exact .ite (.restoreOn h) h
        · split
          · exact .restoreOn (.returnTeam h)
          · exact h

theorem KeepsCanonical.execMemoryTokenGrant {c g} (h : Canonical s) : KeepsCanonical (execMemoryTokenGrant c g s) :=
  .next (.ite (.modCore h) h)

theorem KeepsCanonical.execMemoryTokenPass {c g} (h : Canonical s) : KeepsCanonical (execMemoryTokenPass c g s) := by
  unfold Machine.execMemoryTokenPass
  refine .next ?_
  dsimp only
  split
  · exact .ite h (.modCore h)
  · exact h

theorem KeepsCanonical.execLocalityWindowEnd {c} (h : Canonical s) : KeepsCanonical (execLocalityWindowEnd c s) :=
  .next (.ite h (.modCore h))

theorem KeepsCanonical.execTimeSliceExpiry {c t} (h : Canonical s) : KeepsCanonical (execTimeSliceExpiry c t s) := by
  unfold Machine.execTimeSliceExpiry
  refine .next ?_
  split
  · exact h
  · exact .ite h (.modThread (.makeRoom h))

/-! ### The raster units -/

theorem UnitWrite.Keeps.unitWrite {id p va bs strong} (h : Canonical s) : (unitWrite s id p va bs strong).Keeps := by
  unfold Machine.unitWrite
  split
  · next e => exact .modPass (storeRange_canonical (EngRes.Keeps.ok (.engineGlob h) e) _ _ _ _)
  · next e => exact EngRes.Keeps.wait (.engineGlob h) e
  · exact trivial

theorem Canonical.flushPass {id fuel} (h : Canonical s) : Canonical (flushPass id fuel s) := by
  induction fuel generalizing s with
  | zero => exact h
  | succ fuel ih =>
    unfold Machine.flushPass
    split
    · exact h
    · split
      · exact h
      · split
        · next e => exact ih (.frame (UnitWrite.Keeps.done (.unitWrite h) e))
        · next e => exact UnitWrite.Keeps.wait (.unitWrite h) e
        · exact .frame h

theorem Canonical.storeResult {id finished f} (h : Canonical s) : Canonical (storeResult s id finished f) := by
  unfold Machine.storeResult
  split
  · exact h
  · split
    · next e => exact .modPass (UnitWrite.Keeps.done (.unitWrite h) e)
    · next e => exact UnitWrite.Keeps.wait (.unitWrite h) e
    · exact .modPass h

theorem Canonical.closePass {id} (h : Canonical s) : Canonical (closePass s id) := by
  unfold Machine.closePass
  split
  · exact h
  · exact .ite (.storeResult h) h

theorem Canonical.finishPass {id} (h : Canonical s) : Canonical (finishPass s id) := by
  unfold Machine.finishPass
  split
  · exact h
  · exact .ite (.storeResult h) h

theorem Canonical.runStipple {id p t seq k'} (h : Canonical s) : Canonical (runStipple s id p t seq k') :=
  .modThread (.modPass (.frame (.when (fun h' => .tileWrite h') (.draw h))))

theorem Canonical.serveRuns {id} (h : Canonical s) : Canonical (serveRuns s id) := by
  unfold Machine.serveRuns
  split
  · exact h
  · refine .ite h (.foldl (fun h' => ?_) (.modPass h))
    split
    · exact h'
    · exact .ite (.runStipple h') h'

theorem Canonical.advancePass {id} (h : Canonical s) : Canonical (advancePass s id) := by
  unfold Machine.advancePass
  split
  · exact h
  · exact .finishPass (.serveRuns (.foldl (fun h' => .serve h') (.closePass (.flushPass (.modPass h)))))

theorem KeepsCanonical.execPrimitiveBinning {pass} (h : Canonical s) : KeepsCanonical (execPrimitiveBinning pass s) :=
  .next (.advancePass h)

theorem KeepsCanonical.execHsrTileResolution {pass strip tile} (h : Canonical s) : KeepsCanonical
    (execHsrTileResolution pass strip tile s) := by
  unfold Machine.execHsrTileResolution
  refine .next ?_
  split
  · exact h
  · exact .ite h (.serve (.modPass (.draw h)))

theorem Yields.recordAddr {a} : Yields Stop.Keeps (recordAddr k a) := by
  unfold Machine.recordAddr
  dsimp only
  split
  · exact .stop trivial
  · exact .ite (.stop trivial) (.ite (.stop trivial) .empty)

theorem Canonical.addPass {b pa st slot r} (h : Canonical s) : Canonical (addPass k s b pa st slot r).2 := .frame (.fresh h)

theorem Gives.openPass {b kind} (h : Canonical s) : Gives (fun r => Canonical r.2) (openPass k s b kind) := by
  unfold Machine.openPass
  split
  · next e => exact .stop (Gives.stopped (.checkRange h) e)
  · split
    · next s' e' =>
        have h' : Canonical s' := .of_eq (.readNow h) e'
        split
        · exact .pair h'
        · refine .ite (.pair h') (.ite (.pair h') ?_)
          split
          · exact .held (.holdAt h')
          · exact .pair (.addPass h')

theorem Gives.passFor {b kind} (h : Canonical s) : Gives (fun r => Canonical r.2) (passFor k s b kind) := by
  unfold Machine.passFor
  split
  · exact .ite (.pair h) (.pair h)
  · exact .openPass h

theorem Canonical.submit {id p kind bs} (h : Canonical s) : Canonical (submit s k id p kind bs).2 :=
  .ite₂ h (.ite₂ h (.ite₂ h (.ite₂ (.modThread h) (.ite₂ (.modThread h)
    (.ite₂ (.modPass (.modThread h)) (.modPass (.modThread h)))))))

theorem Gives.submitBody {kind d a b} (hk : Canonical k.s) : Gives Eff.Keeps (submitBody kind d a b k) := by
  unfold Machine.submitBody
  split
  · next e => exact .stop (Gives.stopped (.checkRange hk) e)
  · next as_ _ =>
    have h : Canonical (Machine.readNow k.s k.t as_).2 := .readNow hk
    split
    · next e => exact .stop (Yields.answer .recordAddr e)
    · refine .ite .trap ?_
      split
      · next e => exact .stop (Gives.stopped (.passFor h) e)
      · next e =>
        have h := Gives.answer (.passFor h) e
        refine .ite (.inState h (.retLater hk)) ?_
        split
        · exact .inState h (.retLater hk)
        · exact .inState (.submit h) (.retLater hk)

theorem KeepsCanonical.execPbin {sw d a b x y} (h : Canonical s) : KeepsCanonical (execPbin sw d a b x y s) :=
  .issue h (fun h' => .submitBody h')

theorem KeepsCanonical.execSplat {sw d a b x y} (h : Canonical s) : KeepsCanonical (execSplat sw d a b x y s) :=
  .issue h (fun h' => .submitBody h')

theorem Gives.endBody {kind} (hk : Canonical k.s) : Gives Eff.Keeps (endBody kind k) := .eff (.setThread (.endBinding hk))
theorem KeepsCanonical.execPbend {sw} (h : Canonical s) : KeepsCanonical (execPbend sw s) := .issue h (fun h' => .endBody h')

theorem KeepsCanonical.execSplatend {sw} (h : Canonical s) : KeepsCanonical (execSplatend sw s) :=
  .issue h (fun h' => .endBody h')

theorem Gives.passOfSeal {a kind} : Gives (fun _ => True) (passOfSeal k a kind) := by
  unfold Machine.passOfSeal
  split
  · exact .ite .value .trap
  · exact .trap

theorem Gives.hsrnextBody {d a b} (hk : Canonical k.s) : Gives Eff.Keeps (hsrnextBody d a b k) := by
  unfold Machine.hsrnextBody
  split
  · next e => exact .stop (Gives.stopped .passOfSeal e)
  · exact .ite .trap (.ite (.inState (.modThread hk) (.retLater hk)) (.effThen hk (fun h => .serve (.modPass h))))

theorem KeepsCanonical.execHsrnext {sw d a b x y} (h : Canonical s) : KeepsCanonical (execHsrnext sw d a b x y s) :=
  .issue h (fun h' => .hsrnextBody h')

theorem Gives.ipaBody {d a b m} (hk : Canonical k.s) : Gives Eff.Keeps (ipaBody d a b m k) := by
  unfold Machine.ipaBody
  split
  · exact .trap
  · refine .ite .trap (.ite (.held (.holdAt hk)) ?_)
    split
    · next e => exact .stop (Gives.stopped (.checkRange hk) e)
    · exact .inState (.readNow hk) (.retLater hk)

theorem KeepsCanonical.execIpa {sw d a b x y m} (h : Canonical s) : KeepsCanonical (execIpa sw d a b x y m s) :=
  .issue h (fun h' => .ipaBody h')

theorem KeepsCanonical.execFragw {sw a b x y} (h : Canonical s) : KeepsCanonical (execFragw sw a b x y s) := by
  unfold Machine.execFragw
  refine .issue h (fun h' => ?_)
  split
  · dsimp only
    split
    · exact .trap
    · exact .ite .trap .trap
  · dsimp only
    split
    · exact .trap
    · exact .ite .trap (.ite (.held (.holdAt h')) (.eff (.endHandle (.modPass h'))))

theorem Gives.stiprunBody {d a b} (hk : Canonical k.s) : Gives Eff.Keeps (stiprunBody d a b k) := by
  unfold Machine.stiprunBody
  split
  · next e => exact .stop (Gives.stopped .passOfSeal e)
  · exact .ite .trap (.ite (.retLater hk) (.ite (.held (.holdAt hk)) (.effThen hk (fun h => .serveRuns (.modPass h)))))

theorem KeepsCanonical.execStiprun {sw d a b x y} (h : Canonical s) : KeepsCanonical (execStiprun sw d a b x y s) :=
  .issue h (fun h' => .stiprunBody h')

theorem KeepsCanonical.execStiprd {sw d a x} (h : Canonical s) : KeepsCanonical (execStiprd sw d a x s) := by
  unfold Machine.execStiprd
  refine .issue h (fun h' => .ite (.held (.holdAt h')) ?_)
  split
  · exact .trap
  · split
    · exact .trap
    · exact .retLater h'

/-! ### Errors -/

theorem Canonical.fillSlots {sealId} (h : Canonical s) : Canonical (fillSlots s sealId) := .frame h
theorem Canonical.dropQueues {sealId} (h : Canonical s) : Canonical (dropQueues s sealId) := .frame h

theorem Canonical.endGrids {sealId status} (h : Canonical s) : Canonical (endGrids s sealId status) := by
  unfold Machine.endGrids
  refine .foldl (fun h' => ?_) (.foldl (fun h' => .modGrid h') h)
  split
  · exact .ite (.finishGrid h') h'
  · exact h'

theorem Canonical.cancelCopy {id c} (h : Canonical s) : Canonical (cancelCopy s id c) := .ite (.endCopy h) (.modCopy h)

theorem Canonical.sealEnd {x cause status} (h : Canonical s) : Canonical (sealEnd s x cause status).2.2 :=
  .ite₃ h (.advanceGraphs (.endGrids (.fillSlots (.dropQueues (.frame
    (.foldl (fun h' => .endFeed h') (.foldl (fun h' => .cancelCopy h')
    (.foldl (fun h' => .endThread h') (.foldl (fun h' => .killChain h') (.modSeal h))))))))))

theorem Canonical.sealEndOnly {x cause status} (h : Canonical s) : Canonical (sealEndOnly s x cause status) := .sealEnd h
theorem Canonical.dropSealPages {x} (h : Canonical s) : Canonical (dropSealPages s x) := .frame h

theorem Canonical.scrubRays {x} (h : Canonical s) : Canonical (scrubRays s x) :=
  .modSeal (.foldl (fun h' => .storeDevice h') h)

theorem Canonical.freeSeal {x} (h : Canonical s) : Canonical (freeSeal s x) :=
  .modSeal (.scrubRays (.when (fun h' => dropSched_canonical h' _)
    (.modLines (scrubRegions_canonical (.dropSealPages h) _))))

theorem KeepsCanonical.execSealFree {x} (h : Canonical s) : KeepsCanonical (execSealFree x s) := .next (.ite (.freeSeal h) h)
theorem Canonical.modErrors {f} (h : Canonical s) : Canonical (modErrors s f) := .frame h
theorem Canonical.quarantine {u} (h : Canonical s) : Canonical (quarantine s u) := .ite h (.modErrors h)
theorem Canonical.settleAfter {u} (h : Canonical s) : Canonical (settleAfter s u) := .ite (.remakeReserves h) h
theorem Canonical.syndrome {injected} (h : Canonical s) : Canonical (syndrome s injected).2 := .draw h

theorem Canonical.logError {u kind sealId index extra injected} (h : Canonical s) : Canonical
    (logError s u kind sealId index extra injected) := by
  unfold Machine.logError
  split
  · next e => exact .modErrors (.logEvent (.of_eq (.syndrome h) e))

theorem Canonical.fatal (h : Canonical s) : Canonical (fatal s) := by
  have emptied {s : State} (h : Canonical s) : Canonical { s with
    copies := [], mtx := [], rays := [], passes := [], stips := [], reserves := [], heirs := [], commits := [] } := .frame h
  unfold Machine.fatal
  generalize List.range 1024 = rings
  exact .modDev (.modErrors (emptied (.foldl (fun h => .fillSlots h)
    (.foldl (fun h => .endFeed h) (.foldl (fun h => .endThread h) (.foldl (fun h => .killChain h) h))))))

theorem Canonical.loseUnit {u injected} (h : Canonical s) : Canonical (loseUnit s u injected) := by
  have hs : Canonical (Machine.settleAfter (loseEntry (Machine.quarantine s u) u) u) :=
    .settleAfter (loseEntry_canonical (.quarantine h) u)
  exact .ite (.fatal (.logError h)) (.ite (.logError h) (.ite (.logError hs) (.logError (.sealEnd hs))))

theorem Canonical.handleError {u unc injected} (h : Canonical s) : Canonical (handleError s u unc injected) :=
  .ite (.loseUnit h) (.modErrors h)

theorem Canonical.takeDue {u unc} (h : Canonical s) : Canonical (takeDue s u unc).2 := by
  unfold Machine.takeDue
  split
  · exact .modErrors h
  · exact h

theorem KeepsCanonical.execUncorrectableError {u} (h : Canonical s) : KeepsCanonical (execUncorrectableError u s) :=
  .next (.handleError (.takeDue h))

theorem KeepsCanonical.execCorrectableError {u} (h : Canonical s) : KeepsCanonical (execCorrectableError u s) :=
  .next (.handleError (.takeDue h))

theorem Canonical.watchdog1 {gid q} (h : Canonical s) : Canonical (watchdog1 s gid q) :=
  .foldl (fun h' => .raiseAsync h') (.foldl (fun h' => .requestEviction h') (.modGrid h))

theorem KeepsCanonical.execWatchdogW1 {gid} (h : Canonical s) : KeepsCanonical (execWatchdogW1 gid s) := by
  unfold Machine.execWatchdogW1
  refine .next ?_
  split
  · exact .ite (.watchdog1 h) h
  · exact h

theorem KeepsCanonical.execWatchdogW2 {gid} (h : Canonical s) : KeepsCanonical (execWatchdogW2 gid s) := by
  unfold Machine.execWatchdogW2
  refine .next ?_
  split
  · exact .ite h (.logEvent (.modSeal (.sealEnd (.modGrid h))))
  · exact h

theorem Canonical.fenceCore {c x} (h : Canonical s) : Canonical (fenceCore s c x) :=
  .remakeReserves (.foldl (fun h' => .ite h' (.requestEviction h')) (.modCore h))

theorem KeepsCanonical.execWatchdogW3 {c} (h : Canonical s) : KeepsCanonical (execWatchdogW3 c s) := by
  unfold Machine.execWatchdogW3
  refine .next ?_
  split
  · exact .ite h (.logEvent (.fenceCore h))
  · exact h

theorem Canonical.selfTest {c} (h : Canonical s) : Canonical (selfTest s c) := .modErrors (.draw h)

theorem KeepsCanonical.execCoreReturn {c} (h : Canonical s) : KeepsCanonical (execCoreReturn c s) :=
  .next (.ite h (.remakeReserves (.selfTest (.modCore h))))

/-! ### Integer words -/

theorem KeepsCanonical.execNop {sw} (h : Canonical s) : KeepsCanonical (execNop sw s) := .issue h (fun h' => .eff h')

theorem KeepsCanonical.extLatch {i immediate} (h : Canonical s) : KeepsCanonical (extLatch i immediate s) := by
  unfold Machine.extLatch
  split
  · exact .ite (.next (.stopped h trivial)) (.ite (.next (.stopped h trivial)) (.next (.setThread h)))
  · exact .fault

theorem KeepsCanonical.execExtControlForm {p n e r t c l} (h : Canonical s) : KeepsCanonical
    (execExtControlForm p n e r t c l s) :=
  .extLatch h

theorem KeepsCanonical.execExtImmediateForm {i} (h : Canonical s) : KeepsCanonical (execExtImmediateForm i s) := .extLatch h

theorem KeepsCanonical.execMov {sw d a x} (h : Canonical s) : KeepsCanonical (execMov sw d a x s) :=
  .issue h (fun h' => .ret h')

theorem KeepsCanonical.execMovi {sw d i} (h : Canonical s) : KeepsCanonical (execMovi sw d i s) :=
  .issue h (fun h' => .ret h')

theorem KeepsCanonical.execMovh {sw d i} (h : Canonical s) : KeepsCanonical (execMovh sw d i s) :=
  .issue h (fun h' => .eff h')

theorem Gives.movsPort {d q} (hk : Canonical k.s) : Gives Eff.Keeps (movsPort k d q) := by
  unfold Machine.movsPort
  split
  · exact .trap
  · split <;> exact .eff (.modTeam (.setThread hk))

theorem Gives.movsPts {d hi} (hk : Canonical k.s) : Gives Eff.Keeps (movsPts k d hi) := by
  unfold Machine.movsPts
  refine .ite (.held (.holdAt hk)) ?_
  split
  · dsimp only
    split
    · exact .held (.flush hk)
    · exact .eff (.setThread (.flush hk))
  · dsimp only
    split
    · exact .held (.flush hk)
    · exact .eff (.setThread (.flush hk))

theorem Gives.movsBody {d i} (hk : Canonical k.s) : Gives Eff.Keeps (movsBody d i k) := by
  unfold Machine.movsBody
  refine .ite (.movsPts hk) (.ite (.movsPts hk) (.ite (.eff (.setThread hk))
    (.ite (.eff (.setThread hk)) (.ite (.movsPort hk) ?_))))
  split
  · exact .trap
  · exact .eff (.setThread hk)

theorem KeepsCanonical.execMovs {sw d i} (h : Canonical s) : KeepsCanonical (execMovs sw d i s) :=
  .issue h (fun h' => .movsBody h')

theorem KeepsCanonical.execIadd {sw d a b x y m} (h : Canonical s) : KeepsCanonical (execIadd sw d a b x y m s) :=
  .issue h (fun h' => .ret h')

theorem KeepsCanonical.execIsub {sw d a b x y m} (h : Canonical s) : KeepsCanonical (execIsub sw d a b x y m s) :=
  .issue h (fun h' => .ret h')

theorem KeepsCanonical.execIaddi {sw d a i x m} (h : Canonical s) : KeepsCanonical (execIaddi sw d a i x m s) :=
  .issue h (fun h' => .ret h')

theorem KeepsCanonical.execIaddc {sw d a b x y m} (h : Canonical s) : KeepsCanonical (execIaddc sw d a b x y m s) :=
  .issue h (fun h' => .eff h')

theorem KeepsCanonical.execImul {sw d a b x y} (h : Canonical s) : KeepsCanonical (execImul sw d a b x y s) :=
  .issue h (fun h' => .ret h')

theorem KeepsCanonical.execImulh {sw d a b x y m} (h : Canonical s) : KeepsCanonical (execImulh sw d a b x y m s) :=
  .issue h (fun h' => .ret h')

theorem KeepsCanonical.execImad {sw d a b x y m} (h : Canonical s) : KeepsCanonical (execImad sw d a b x y m s) :=
  .issue h (fun h' => .ret h')

theorem KeepsCanonical.execIdiv {sw d a b x y m} (h : Canonical s) : KeepsCanonical (execIdiv sw d a b x y m s) :=
  .issue h (fun h' => .ret h')

theorem KeepsCanonical.execIrem {sw d a b x y m} (h : Canonical s) : KeepsCanonical (execIrem sw d a b x y m s) :=
  .issue h (fun h' => .ret h')

theorem KeepsCanonical.execIneg {sw d a x} (h : Canonical s) : KeepsCanonical (execIneg sw d a x s) :=
  .issue h (fun h' => .ret h')

theorem KeepsCanonical.execIabs {sw d a x} (h : Canonical s) : KeepsCanonical (execIabs sw d a x s) :=
  .issue h (fun h' => .ret h')

theorem KeepsCanonical.execImin {sw d a b x y m} (h : Canonical s) : KeepsCanonical (execImin sw d a b x y m s) :=
  .issue h (fun h' => .ret h')

theorem KeepsCanonical.execImax {sw d a b x y m} (h : Canonical s) : KeepsCanonical (execImax sw d a b x y m s) :=
  .issue h (fun h' => .ret h')

theorem KeepsCanonical.execAnd {sw d a b x y} (h : Canonical s) : KeepsCanonical (execAnd sw d a b x y s) :=
  .issue h (fun h' => .ret h')

theorem KeepsCanonical.execOr {sw d a b x y} (h : Canonical s) : KeepsCanonical (execOr sw d a b x y s) :=
  .issue h (fun h' => .ret h')

theorem KeepsCanonical.execXor {sw d a b x y} (h : Canonical s) : KeepsCanonical (execXor sw d a b x y s) :=
  .issue h (fun h' => .ret h')

theorem KeepsCanonical.execNot {sw d a x} (h : Canonical s) : KeepsCanonical (execNot sw d a x s) :=
  .issue h (fun h' => .ret h')

theorem KeepsCanonical.execAndn {sw d a b x y} (h : Canonical s) : KeepsCanonical (execAndn sw d a b x y s) :=
  .issue h (fun h' => .ret h')

theorem KeepsCanonical.execAndi {sw d a i x} (h : Canonical s) : KeepsCanonical (execAndi sw d a i x s) :=
  .issue h (fun h' => .ret h')

theorem KeepsCanonical.execOri {sw d a i x} (h : Canonical s) : KeepsCanonical (execOri sw d a i x s) :=
  .issue h (fun h' => .ret h')

theorem KeepsCanonical.execXori {sw d a i x} (h : Canonical s) : KeepsCanonical (execXori sw d a i x s) :=
  .issue h (fun h' => .ret h')

theorem KeepsCanonical.execShl {sw d a b x y} (h : Canonical s) : KeepsCanonical (execShl sw d a b x y s) :=
  .issue h (fun h' => .ret h')

theorem KeepsCanonical.execShr {sw d a b x y} (h : Canonical s) : KeepsCanonical (execShr sw d a b x y s) :=
  .issue h (fun h' => .ret h')

theorem KeepsCanonical.execSar {sw d a b x y} (h : Canonical s) : KeepsCanonical (execSar sw d a b x y s) :=
  .issue h (fun h' => .ret h')

theorem Gives.immShift {d a i f} (hk : Canonical k.s) : Gives Eff.Keeps (immShift d a i f k) := .ite .trap (.ret hk)

theorem KeepsCanonical.execShli {sw d a i x} (h : Canonical s) : KeepsCanonical (execShli sw d a i x s) :=
  .issue h (fun h' => .immShift h')

theorem KeepsCanonical.execShri {sw d a i x} (h : Canonical s) : KeepsCanonical (execShri sw d a i x s) :=
  .issue h (fun h' => .immShift h')

theorem KeepsCanonical.execSari {sw d a i x} (h : Canonical s) : KeepsCanonical (execSari sw d a i x s) :=
  .issue h (fun h' => .immShift h')

theorem KeepsCanonical.execRot {sw d a b x y m} (h : Canonical s) : KeepsCanonical (execRot sw d a b x y m s) :=
  .issue h (fun h' => .ret h')

theorem KeepsCanonical.execBfx {sw d a b x y m} (h : Canonical s) : KeepsCanonical (execBfx sw d a b x y m s) :=
  .issue h (fun h' => .ret h')

theorem KeepsCanonical.execBfi {sw d a b x y} (h : Canonical s) : KeepsCanonical (execBfi sw d a b x y s) :=
  .issue h (fun h' => .ret h')

theorem KeepsCanonical.execPopc {sw d a x} (h : Canonical s) : KeepsCanonical (execPopc sw d a x s) :=
  .issue h (fun h' => .ret h')

theorem KeepsCanonical.execClz {sw d a x} (h : Canonical s) : KeepsCanonical (execClz sw d a x s) :=
  .issue h (fun h' => .ret h')

theorem KeepsCanonical.execBrev {sw d a x} (h : Canonical s) : KeepsCanonical (execBrev sw d a x s) :=
  .issue h (fun h' => .ret h')

theorem Gives.retPred {p v} (hk : Canonical k.s) : Gives Eff.Keeps (retPred k p v) := .eff (.setThread hk)

theorem KeepsCanonical.execIsetp {sw c p a b x y m} (h : Canonical s) : KeepsCanonical (execIsetp sw c p a b x y m s) :=
  .issue h (fun h' => .retPred h')

theorem KeepsCanonical.execIsetpi {sw c p a i x m} (h : Canonical s) : KeepsCanonical (execIsetpi sw c p a i x m s) :=
  .issue h (fun h' => .retPred h')

theorem KeepsCanonical.execSel {sw d a b x y m} (h : Canonical s) : KeepsCanonical (execSel sw d a b x y m s) :=
  .issue h (fun h' => .ret h')

theorem KeepsCanonical.execPlop {sw o p q r m} (h : Canonical s) : KeepsCanonical (execPlop sw o p q r m s) :=
  .issue h (fun h' => .retPred h')

theorem KeepsCanonical.execLea {sw d a b x y m} (h : Canonical s) : KeepsCanonical (execLea sw d a b x y m s) :=
  .issue h (fun h' => .ret64 h')

theorem KeepsCanonical.execAdd64 {sw d a b x y m} (h : Canonical s) : KeepsCanonical (execAdd64 sw d a b x y m s) :=
  .issue h (fun h' => .ret64 h')

theorem KeepsCanonical.execIdp4 {sw d a b x y m} (h : Canonical s) : KeepsCanonical (execIdp4 sw d a b x y m s) :=
  .issue h (fun h' => .ret h')

theorem KeepsCanonical.execMix32 {sw d a b x y} (h : Canonical s) : KeepsCanonical (execMix32 sw d a b x y s) :=
  .issue h (fun h' => .ret h')

/-! ### Float words -/

theorem KeepsCanonical.execFadd {sw d a b x y} (h : Canonical s) : KeepsCanonical (execFadd sw d a b x y s) :=
  .issue h (fun h' => .floatRet h')

theorem KeepsCanonical.execFsub {sw d a b x y} (h : Canonical s) : KeepsCanonical (execFsub sw d a b x y s) :=
  .issue h (fun h' => .floatRet h')

theorem KeepsCanonical.execFmul {sw d a b x y} (h : Canonical s) : KeepsCanonical (execFmul sw d a b x y s) :=
  .issue h (fun h' => .floatRet h')

theorem KeepsCanonical.execFmad {sw d a b x y m} (h : Canonical s) : KeepsCanonical (execFmad sw d a b x y m s) :=
  .issue h (fun h' => .floatRet h')

theorem KeepsCanonical.execFmin {sw d a b x y} (h : Canonical s) : KeepsCanonical (execFmin sw d a b x y s) :=
  .issue h (fun h' => .floatRet h')

theorem KeepsCanonical.execFmax {sw d a b x y} (h : Canonical s) : KeepsCanonical (execFmax sw d a b x y s) :=
  .issue h (fun h' => .floatRet h')

theorem KeepsCanonical.execFneg {sw d a x} (h : Canonical s) : KeepsCanonical (execFneg sw d a x s) :=
  .issue h (fun h' => .ret h')

theorem KeepsCanonical.execFabs {sw d a x} (h : Canonical s) : KeepsCanonical (execFabs sw d a x s) :=
  .issue h (fun h' => .ret h')

theorem KeepsCanonical.execFsetp {sw c p a b x y m} (h : Canonical s) : KeepsCanonical (execFsetp sw c p a b x y m s) :=
  .issue h (fun h' => .eff (.setThread h'))

theorem KeepsCanonical.execFdiv {sw d a b x y} (h : Canonical s) : KeepsCanonical (execFdiv sw d a b x y s) :=
  .issue h (fun h' => .floatRet h')

theorem KeepsCanonical.execFrcp {sw d a x} (h : Canonical s) : KeepsCanonical (execFrcp sw d a x s) :=
  .issue h (fun h' => .floatRet h')

theorem KeepsCanonical.execFsqrt {sw d a x} (h : Canonical s) : KeepsCanonical (execFsqrt sw d a x s) :=
  .issue h (fun h' => .floatRet h')

theorem KeepsCanonical.execFrsq {sw d a x} (h : Canonical s) : KeepsCanonical (execFrsq sw d a x s) :=
  .issue h (fun h' => .floatRet h')

theorem KeepsCanonical.execFexp2 {sw d a x} (h : Canonical s) : KeepsCanonical (execFexp2 sw d a x s) :=
  .issue h (fun h' => .floatRet h')

theorem KeepsCanonical.execFlog2 {sw d a x} (h : Canonical s) : KeepsCanonical (execFlog2 sw d a x s) :=
  .issue h (fun h' => .floatRet h')

theorem KeepsCanonical.execFsinpi {sw d a x} (h : Canonical s) : KeepsCanonical (execFsinpi sw d a x s) :=
  .issue h (fun h' => .floatRet h')

theorem KeepsCanonical.execFcospi {sw d a x} (h : Canonical s) : KeepsCanonical (execFcospi sw d a x s) :=
  .issue h (fun h' => .floatRet h')

theorem KeepsCanonical.execFrnd {sw d a x m} (h : Canonical s) : KeepsCanonical (execFrnd sw d a x m s) :=
  .issue h (fun h' => .floatRet h')

theorem KeepsCanonical.execFclass {sw d a x} (h : Canonical s) : KeepsCanonical (execFclass sw d a x s) :=
  .issue h (fun h' => .ret h')

theorem KeepsCanonical.execFscale {sw d a b x y} (h : Canonical s) : KeepsCanonical (execFscale sw d a b x y s) :=
  .issue h (fun h' => .floatRet h')

theorem KeepsCanonical.execFexpo {sw d a x} (h : Canonical s) : KeepsCanonical (execFexpo sw d a x s) :=
  .issue h (fun h' => .floatWrites h')

theorem KeepsCanonical.execTwosum {sw d a b x y} (h : Canonical s) : KeepsCanonical (execTwosum sw d a b x y s) :=
  .issue h (fun h' => .ite .trap (.floatWrites h'))

theorem KeepsCanonical.execPadd {sw d a b x y} (h : Canonical s) : KeepsCanonical (execPadd sw d a b x y s) :=
  .issue h (fun h' => .floatWrites h')

theorem KeepsCanonical.execPrd {sw d a x} (h : Canonical s) : KeepsCanonical (execPrd sw d a x s) :=
  .issue h (fun h' => .floatRet h')

theorem Gives.halves {d m a b f} (hk : Canonical k.s) : Gives Eff.Keeps (halves k d m a b f) := .floatWrites hk

theorem KeepsCanonical.execHadd2 {sw d a b x y m} (h : Canonical s) : KeepsCanonical (execHadd2 sw d a b x y m s) :=
  .issue h (fun h' => .halves h')

theorem KeepsCanonical.execHmul2 {sw d a b x y m} (h : Canonical s) : KeepsCanonical (execHmul2 sw d a b x y m s) :=
  .issue h (fun h' => .halves h')

theorem KeepsCanonical.execHfma2 {sw d a b x y m} (h : Canonical s) : KeepsCanonical (execHfma2 sw d a b x y m s) :=
  .issue h (fun h' => .halves h')

/-! ### System words -/

theorem Canonical.trapAfter {t sw cause code} (h : Canonical s) : Canonical (trapAfter t sw cause code s) :=
  .deliver (.modThread h)

theorem KeepsCanonical.execTrap {sw d i} (h : Canonical s) : KeepsCanonical (execTrap sw d i s) :=
  .issue h (fun h' => .effThen h' (fun h'' => .trapAfter h''))

theorem KeepsCanonical.execRte {sw} (h : Canonical s) : KeepsCanonical (execRte sw s) :=
  .issue h (fun h' => .ite .trap (.ite (.held (.endThread (.logUnhandled h'))) (.eff (.setThread h'))))

theorem Canonical.clearArrived {th} (h : Canonical s) : Canonical (clearArrived s th) := .modTeam h
theorem Canonical.writeTpc {t th hi w} (h : Canonical s) : Canonical (writeTpc s t th hi w) := .clearArrived (.setThread h)
theorem Canonical.writeMeet {t th hi w} (h : Canonical s) : Canonical (writeMeet s t th hi w) := .clearArrived (.setThread h)
theorem Canonical.writeTstat {t th w} (h : Canonical s) : Canonical (writeTstat s t th w) := .setThread h
theorem Canonical.writeFmt {t th w} (h : Canonical s) : Canonical (writeFmt s t th w) := .setThread h
theorem Canonical.writeTsave {t th i w} (h : Canonical s) : Canonical (writeTsave s t th i w) := .setThread h
theorem Canonical.writeTinfo {t th i w} (h : Canonical s) : Canonical (writeTinfo s t th i w) := .setThread h
theorem Canonical.writeMemgroups {c w} (h : Canonical s) : Canonical (writeMemgroups s c w) := .modCore h
theorem Canonical.writeLeasecfg {c w} (h : Canonical s) : Canonical (writeLeasecfg s c w) := .modCore h
theorem Canonical.writeQcfg {cluster q w} (h : Canonical s) : Canonical (writeQcfg s cluster q w) := .ite h (.setQueue h)
theorem Canonical.writeWdog {q w} (h : Canonical s) : Canonical (writeWdog s q w) := .modDev h

theorem Canonical.writeTrapReg {t th n w} (h : Canonical s) : Canonical (writeTrapReg s t th n w) := by
  unfold Machine.writeTrapReg
  split
  · exact .writeTpc h
  · exact .writeTpc h
  · exact .writeTinfo h
  · exact .writeTinfo h
  · exact .writeTinfo h
  · exact .writeTinfo h
  · exact .writeTsave h
  · exact .writeTsave h
  · exact .writeTsave h
  · exact .writeTsave h
  · exact .writeTstat h
  · exact .writeMeet h
  · exact .writeMeet h
  · exact h

theorem Canonical.sysWrite {t th r w} (h : Canonical s) : Canonical (sysWrite s t th r w) := by
  unfold Machine.sysWrite
  split
  · exact .writeTrapReg h
  · exact .writeMemgroups h
  · exact .writeFmt h
  · exact .writeLeasecfg h
  · exact .writeQcfg h
  · exact .writeWdog h
  · exact .outWriteFree h
  · exact .ringWrite h
  · exact h

theorem KeepsCanonical.execSrd {sw d i} (h : Canonical s) : KeepsCanonical (execSrd sw d i s) := by
  unfold Machine.execSrd
  refine .issue h (fun h' => ?_)
  split
  · exact .trap
  · exact .trap
  · exact .eff (.setThread h')

theorem KeepsCanonical.execSwr {sw d i} (h : Canonical s) : KeepsCanonical (execSwr sw d i s) := by
  unfold Machine.execSwr
  refine .issue h (fun h' => ?_)
  split
  · exact .trap
  · exact .trap
  · exact .ite .trap (.eff (.sysWrite h'))

theorem Canonical.writeCurrent {zs w f} (h : Canonical s) (hf : ∀ {t th}, Canonical (f t th)) : Canonical
    (writeCurrent s zs w f) := by
  unfold Machine.writeCurrent
  split
  · exact h
  · split
    · exact .ite h hf
    · exact h

theorem KeepsCanonical.execTpcWrite {hi w} (h : Canonical s) : KeepsCanonical (execTpcWrite hi w s) :=
  .next (.writeCurrent h (.writeTpc h))

theorem KeepsCanonical.execMeetWrite {hi w} (h : Canonical s) : KeepsCanonical (execMeetWrite hi w s) :=
  .next (.writeCurrent h (.writeMeet h))

theorem KeepsCanonical.execTstatWrite {w} (h : Canonical s) : KeepsCanonical (execTstatWrite w s) :=
  .next (.writeCurrent h (.writeTstat h))

theorem KeepsCanonical.execFmtWrite {w} (h : Canonical s) : KeepsCanonical (execFmtWrite w s) :=
  .next (.writeCurrent h (.writeFmt h))

theorem KeepsCanonical.execMemgroupsWrite {c w} (h : Canonical s) : KeepsCanonical (execMemgroupsWrite c w s) :=
  .next (.ite h (.writeMemgroups h))

theorem KeepsCanonical.execLeasecfgWrite {c w} (h : Canonical s) : KeepsCanonical (execLeasecfgWrite c w s) :=
  .next (.ite h (.writeLeasecfg h))

theorem KeepsCanonical.execQcfgWrite {cluster q w} (h : Canonical s) : KeepsCanonical (execQcfgWrite cluster q w s) :=
  .next (.ite h (.writeQcfg h))

theorem KeepsCanonical.execWdogWrite {q w} (h : Canonical s) : KeepsCanonical (execWdogWrite q w s) :=
  .next (.ite h (.writeWdog h))

theorem Gives.dtloadBody {d a m} (hk : Canonical k.s) : Gives Eff.Keeps (dtloadBody d a m k) := by
  unfold Machine.dtloadBody
  refine .ite (.held (.holdAt hk)) ?_
  split
  · next e => exact .stop (Gives.stopped (.checkRange hk) e)
  · refine .ite (.eff (.writeNow hk)) ?_
    dsimp only
    split
    · exact .eff (.readNow hk)
    · exact .eff (.modThread (.measure (.readNow hk)))

theorem KeepsCanonical.execDtload {sw d a x m} (h : Canonical s) : KeepsCanonical (execDtload sw d a x m s) :=
  .issue h (fun h' => .dtloadBody h')

theorem KeepsCanonical.execSealq {sw d a x} (h : Canonical s) : KeepsCanonical (execSealq sw d a x s) :=
  .issue h (fun h' => .ite .trap (.ite .trap (.retLater h')))

theorem KeepsCanonical.execHalt {sw} (h : Canonical s) : KeepsCanonical (execHalt sw s) :=
  .issue h (fun h' => .eff (.logEvent h'))

theorem Canonical.writeDbgctl {w} (h : Canonical s) : Canonical (writeDbgctl s w) := .ite h (.frame h)
theorem KeepsCanonical.execDbgctl {w} (h : Canonical s) : KeepsCanonical (execDbgctl w s) := .next (.writeDbgctl h)

theorem Gives.injUnit {code addr} (hk : Canonical k.s) : Gives (fun _ => True) (injUnit k code addr) := by
  unfold Machine.injUnit
  split
  · exact .held hk
  · split
    · split
      · exact .trap
      · exact .ite .trap .value
    · split
      · next e => exact .stop (Gives.stopped (.checkAccess hk) e)
      · split
        · exact .value
        · exact .held hk
    · split
      · next e => exact .stop (Gives.stopped .endpointOf e)
      · split
        · exact .value
        · exact .trap
      · exact .ite .trap .value
      · exact .trap

theorem Canonical.broughtIn {u} (h : Canonical s) : Canonical (broughtIn u s) := .ite (touchLine_canonical h _ _) h

theorem Canonical.inject {u unc defer'} (h : Canonical s) : Canonical (inject u unc defer' s) :=
  .ite (.modErrors h) (.handleError h)

theorem KeepsCanonical.execErrinj {sw a b x y} (h : Canonical s) : KeepsCanonical (execErrinj sw a b x y s) := by
  unfold Machine.execErrinj
  refine .issue h (fun h' => .ite .trap ?_)
  split
  · next e => exact .stop (Gives.stopped (.injUnit h') e)
  · exact .ite .trap (.effThen (.broughtIn h') (fun h'' => .inject h''))

theorem Canonical.dropTlb {entry walk} (h : Canonical s) : Canonical (dropTlb s entry walk) := .frame h

theorem Canonical.dropSealTlb {x va} (h : Canonical s) : Canonical (dropSealTlb s x va) := by
  unfold Machine.dropSealTlb
  split <;> exact .dropTlb h

theorem KeepsCanonical.execTlbinv {sw d a b x y} (h : Canonical s) : KeepsCanonical (execTlbinv sw d a b x y s) := by
  unfold Machine.execTlbinv
  refine .issue h (fun h' => .ite .trap (.ite .trap ?_))
  split
  · exact .bind (fun h'' => .inState (.dropSealTlb h'') (.retLater h')) (.publish h')
  · split
    · exact .trap
    · split
      · exact .trap
      · exact .bind (fun h4 => .inState (.dropSealTlb h4) (.retLater h')) (.publish h')

theorem Canonical.writeTlbctl {n w} (h : Canonical s) : Canonical (writeTlbctl s n w) := by
  unfold Machine.writeTlbctl
  split
  · exact .modDev h
  · exact .modDev h
  · exact .ite h (.modDev h)
  · exact h

theorem KeepsCanonical.execTlbctl {number w} (h : Canonical s) : KeepsCanonical (execTlbctl number w s) :=
  .next (.writeTlbctl h)

theorem KeepsCanonical.execTlbInvalidationComplete (h : Canonical s) : KeepsCanonical (execTlbInvalidationComplete s) := by
  unfold Machine.execTlbInvalidationComplete
  refine .next ?_
  split
  · exact h
  · exact .ite (.dropTlb (.modDev h)) (.dropSealTlb (.modDev h))

/-! ### Links -/

theorem KeepsCanonical.execXbpark {sw d a b x y} (h : Canonical s) : KeepsCanonical (execXbpark sw d a b x y s) := by
  unfold Machine.execXbpark
  refine .issue h (fun h' => ?_)
  split
  · exact .trap
  · exact .ite .trap (.inState (.modChannel h') (.retLater h'))

theorem KeepsCanonical.execXbwake {sw d a x} (h : Canonical s) : KeepsCanonical (execXbwake sw d a x s) := by
  unfold Machine.execXbwake
  refine .issue h (fun h' => ?_)
  split
  · exact .trap
  · exact .inState (.ite (.modChannel h') h') (.retLater h')

theorem KeepsCanonical.execXbstat {sw d a x} (h : Canonical s) : KeepsCanonical (execXbstat sw d a x s) := by
  unfold Machine.execXbstat
  refine .issue h (fun h' => ?_)
  split
  · exact .trap
  · exact .retLater h'

theorem Canonical.modDomain {f} (h : Canonical s) : Canonical (modDomain s f) := .frame h
theorem Canonical.countChecks {f n} (h : Canonical s) : Canonical (countChecks s f n) := .modDomain h

theorem KeepsCanonical.execLkstat {sw d a x} (h : Canonical s) : KeepsCanonical (execLkstat sw d a x s) :=
  .issue h (fun h' => .ite .trap (.inState (.ite (.countChecks (.draw h')) h') (.retLater h')))

theorem KeepsCanonical.execOpticalToken {ch} (h : Canonical s) : KeepsCanonical (execOpticalToken ch s) :=
  .next (.ite (.modChannel (.tokenVisit h)) h)

theorem Canonical.takeDemanded {c line w rt bs} (h : Canonical s) : Canonical (takeDemanded s c line w rt bs) :=
  .takeLine (.ite (.modStation h) h)

theorem Canonical.threadReply {id r t seq pts bs} (h : Canonical s) : Canonical (threadReply s id r t seq pts bs) := by
  unfold Machine.threadReply
  split
  · exact h
  · split
    · refine .ite h (.ite (.replyToRecord (.modThread (.modThread ?_))) (.modThread (.modThread ?_)))
      · split
        · dsimp only
          exact .takeDemanded h
        · dsimp only
          exact h
      · split
        · dsimp only
          exact .takeDemanded h
        · dsimp only
          exact h
    · exact h

theorem Canonical.prefetchReply {r t seq level bs} (h : Canonical s) : Canonical (prefetchReply s r t seq level bs) := by
  unfold Machine.prefetchReply
  split
  · exact h
  · refine .replyToRecord (.modThread ?_)
    split
    · exact .takeLine h
    · exact h

theorem Canonical.matrixReply {op pts r bs} (h : Canonical s) : Canonical (matrixReply s op pts r bs) := by
  unfold Machine.matrixReply
  split
  · exact h
  · refine .ite (.finishMtx (.noteEndPts (.foldl (fun h' => .modThread h') h)))
      (.foldl (fun h' => ?_) (.modMtx (.noteEndPts (.foldl (fun h' => .modThread h') h))))
    split
    · exact .modThread h'
    · exact h'

theorem Canonical.copyReply {id cmd pts bs} (h : Canonical s) : Canonical (copyReply s id cmd pts bs) := by
  unfold Machine.copyReply
  split
  · exact h
  · split
    · exact .modCopy h
    · split
      · exact .modBurst (.modCopy (.modBurst (.modCopy h)))
      · exact .advanceCopy (.delivered (.modBurst (.modCopy h)))
      · exact .advanceCopy (.modBurst (.modCopy h))

theorem Canonical.giveReply {id r pts bs} (h : Canonical s) : Canonical (giveReply s id r pts bs) := by
  unfold Machine.giveReply
  split
  · exact .threadReply h
  · exact .prefetchReply h
  · exact .copyReply h
  · exact .modFeed h
  · exact .matrixReply h

theorem Canonical.failCopy {cmd status} (h : Canonical s) : Canonical (failCopy s cmd status) := .modCopy h
theorem Canonical.refusedTrap {t r code iw} (h : Canonical s) : Canonical (refusedTrap s t r code iw) := .modThread h

theorem Canonical.refuseRequest {id r code} (h : Canonical s) : Canonical (refuseRequest s id r code) := by
  unfold Machine.refuseRequest
  split
  · split
    · exact h
    · exact .replyToRecord (.refusedTrap (.modThread h))
  · exact .prefetchReply h
  · exact .failCopy h
  · split
    · exact .ite (.endFeed h) h
    · exact h
  · split
    · exact .finishMtx (.foldl (fun h' => .refusedTrap h') h)
    · exact h

theorem KeepsCanonical.execRemoteReplyArrival {package slice seq data} (h : Canonical s) : KeepsCanonical
    (execRemoteReplyArrival package slice seq data s) := by
  unfold Machine.execRemoteReplyArrival
  refine .next (.settleHeirs ?_)
  split
  · exact h
  · split
    · split
      · exact .refuseRequest (.modDomain h)
      · exact .giveReply (.modDomain h)
    · split
      · exact .refuseRequest (.modDomain h)
      · exact .giveReply (.modDomain h)

theorem Canonical.performRequest {r} (h : Canonical s) : Canonical (performRequest s r).2 := by
  unfold Machine.performRequest
  refine .ite₂ h ?_
  split
  · exact .engineFault h
  · exact h
  · exact h
  · next e =>
    have h := Canonical.translateNow h e
    dsimp only
    split
    · exact .atomAt h
    · exact .ite₂ (storeRange_canonical h _ _ _ _) (loadRange_canonical h _ _ _ _)

theorem Canonical.performEntered {r} (h : Canonical s) : Canonical (performEntered s r) := by
  unfold Machine.performEntered
  split <;> next e => exact .modDomain (.of_eq (.performRequest h) e)

theorem Canonical.retryRequests (h : Canonical s) : Canonical (retryRequests s) := .foldl (fun h' => .performEntered h') h

theorem KeepsCanonical.execRemoteRequestArrival {r} (h : Canonical s) : KeepsCanonical (execRemoteRequestArrival r s) :=
  .next (.ite h (.ite (.performRequest h) (.ite h (.performEntered (.modDomain h)))))

theorem KeepsCanonical.execAcknowledgement {package slice seq} (h : Canonical s) : KeepsCanonical
    (execAcknowledgement package slice seq s) :=
  .next (.ite (.modDomain h) (.modDomain h))

theorem Canonical.abandon {p} (h : Canonical s) : Canonical (abandon s p) := by
  have he : Canonical (if p.2.sealId == 0 || !sealLive s p.2.sealId then s
      else Machine.logEvent (Machine.syndrome (Machine.sealEnd s p.2.sealId causeSealedErr 1).2.2 false).2
        { kind := 1, struct := 0x0A, sealId := p.2.sealId, syndrome :=
          (Machine.syndrome (Machine.sealEnd s p.2.sealId causeSealedErr 1).2.2 false).1,
          extra := endCounts (Machine.sealEnd s p.2.sealId causeSealedErr 1).1
            (Machine.sealEnd s p.2.sealId causeSealedErr 1).2.1 }) :=
    .ite h (.logEvent (.syndrome (.sealEnd h)))
  unfold Machine.abandon
  dsimp only
  split
  · exact he
  · exact he
  · exact he
  · exact .failCopy h
  · split
    · exact .endFeed h
    · exact h

theorem Canonical.unreachable {dest} (h : Canonical s) : Canonical (unreachable s dest) :=
  .settleHeirs (.foldl (fun h' => .abandon h') (.modDomain h))

theorem KeepsCanonical.execRetransmissionTimeout {package slice seq} (h : Canonical s) : KeepsCanonical
    (execRetransmissionTimeout package slice seq s) := by
  unfold Machine.execRetransmissionTimeout
  refine .next ?_
  split
  · exact h
  · exact .ite (.unreachable h) (.modDomain h)

theorem KeepsCanonical.execBusyResend {package slice seq} (h : Canonical s) : KeepsCanonical
    (execBusyResend package slice seq s) := by
  unfold Machine.execBusyResend
  refine .next ?_
  split
  · exact h
  · exact .modDomain h

theorem KeepsCanonical.execWavelengthRetrain {f mask} (h : Canonical s) : KeepsCanonical (execWavelengthRetrain f mask s) :=
  .next (.ite (.countChecks (.modDomain h)) h)

theorem KeepsCanonical.execTsuxusForwarding {dest hops} (h : Canonical s) : KeepsCanonical
    (execTsuxusForwarding dest hops s) :=
  .next (.ite h (.ite (.modDomain h) (.modDomain h)))

/-! ### The host -/

theorem Canonical.record {c code value} (h : Canonical s) : Canonical (record s c code value) := by
  unfold Machine.record
  split
  · exact .statusRecord h
  · exact .statusRecord (.draw h)

theorem Canonical.retireCmd {i} (h : Canonical s) : Canonical (retireCmd s i) := .modDev h

theorem Canonical.answerUnknown {fuel} (h : Canonical s) : Canonical (answerUnknown fuel s) := by
  induction fuel generalizing s with
  | zero => exact h
  | succ fuel ih =>
    unfold Machine.answerUnknown
    split
    · exact h
    · exact .ite h (ih (.retireCmd (.ite (.record h) (.record h))))

theorem Canonical.answer {i c code value} (h : Canonical s) : Canonical (answer s i c code value) :=
  .answerUnknown (.retireCmd (.record h))

theorem Canonical.carryOut {op ok f} (h : Canonical s) (hf : ∀ {i c}, Canonical (f s i c)) : Canonical
    (carryOut s op ok f) := by
  unfold Machine.carryOut
  split
  · exact h
  · exact .ite h (.ite (.answer h) hf)

theorem Canonical.serveCommands (h : Canonical s) : Canonical (serveCommands s) := .ite h (.answerUnknown h)

theorem KeepsCanonical.execCommandWrite {bytes} (h : Canonical s) : KeepsCanonical (execCommandWrite bytes s) :=
  .next (.ite h (.ite (.record h) (.serveCommands (.modDev h))))

theorem Canonical.readDevice {pa n sealId} (h : Canonical s) : Canonical (readDevice s pa n sealId).2 :=
  loadRange_canonical h _ _ _ _

theorem Canonical.upload {i c} (h : Canonical s) : Canonical (upload s i c) := by
  unfold Machine.upload
  dsimp only
  split
  · exact .answer h
  · split
    · exact .answer h
    · split
      · exact .answer h
      · split
        · exact .answer h
        · exact .answer (storeUpload_canonical (.readDevice h) _ _ _ _)

theorem KeepsCanonical.execUpload (h : Canonical s) : KeepsCanonical (execUpload s) := by
  unfold Machine.execUpload
  refine .next (.carryOut h ?_)
  intro i c
  split
  · exact .answer h
  · exact .upload h

theorem Canonical.startRun {g c} (h : Canonical s) : Canonical (startRun s g c) := .modGraph (.fresh h)

theorem Canonical.trigger {i c g x} (h : Canonical s) : Canonical (trigger s i c g x) := by
  unfold Machine.trigger
  split
  · exact .answer h
  · split
    · exact .answer h
    · dsimp only
      split
      · exact .answer h
      · exact .answerUnknown (.retireCmd (.advanceGraph (.record
          (.startRun (.foldl (fun h3 => applyPatch_canonical h3 _ _ _) h)))))

theorem KeepsCanonical.execTrigger (h : Canonical s) : KeepsCanonical (execTrigger s) := by
  unfold Machine.execTrigger
  refine .next (.carryOut h ?_)
  intro i c
  split
  · exact .answer h
  · exact .trigger h
  · exact h

theorem Canonical.makeSeal {x c} (h : Canonical s) : Canonical (makeSeal s x c) :=
  .modSeal (.ite h (dropSched_canonical h _))

theorem KeepsCanonical.execSealnew (h : Canonical s) : KeepsCanonical (execSealnew s) := by
  unfold Machine.execSealnew
  refine .next (.carryOut h ?_)
  intro i c
  split
  · exact .answer h
  · exact .answer h
  · exact .answer (.makeSeal h)

theorem Canonical.sealendStep {i c x} (h : Canonical s) : Canonical (sealendStep s i c x) :=
  .ite (.answer h) (.ite (.answer (dropSched_canonical h _)) (.modDev (.ite (.sealEndOnly h) h)))

theorem KeepsCanonical.execSealend (h : Canonical s) : KeepsCanonical (execSealend s) := .next (.carryOut h (.sealendStep h))

theorem KeepsCanonical.execAbort (h : Canonical s) : KeepsCanonical (execAbort s) :=
  .next (.carryOut h (.ite (.answer h) (.answer (.sealEndOnly h))))

theorem Canonical.stepTime {v} (h : Canonical s) : Canonical (stepTime s v) := .frame h
theorem Canonical.configTime {c} (h : Canonical s) : Canonical (configTime s c) := .modTlock h

theorem KeepsCanonical.execTimesetStep (h : Canonical s) : KeepsCanonical (execTimesetStep s) :=
  .next (.carryOut h (.ite (.answer h) (.answer (.when (fun h' => .configTime h') (.stepTime h)))))

theorem KeepsCanonical.execTimesetConfig (h : Canonical s) : KeepsCanonical (execTimesetConfig s) :=
  .next (.carryOut h (.answer (.ite (.configTime h) h)))

theorem KeepsCanonical.execResync (h : Canonical s) : KeepsCanonical (execResync s) :=
  .next (.carryOut h (.answer (.modDev h)))

theorem KeepsCanonical.execAttest (h : Canonical s) : KeepsCanonical (execAttest s) :=
  .next (.carryOut h (.answer (.modDev (.modDev (.draw h)))))

theorem Canonical.resetTo : Canonical (resetTo s) := ⟨rfl, rfl, rfl⟩
theorem KeepsCanonical.execReset  : KeepsCanonical (execReset s) := .next .resetTo

theorem KeepsCanonical.execFwload {ok} (h : Canonical s) : KeepsCanonical (execFwload ok s) :=
  .next (.carryOut h (.ite (.answer h) (.ite (.answer h) (.ite (.answer h)
    (restart_canonical (.retireCmd (.record (.modDev h))))))))

theorem Canonical.toStage {n} (h : Canonical s) : Canonical (toStage s n) := .modDev h
theorem Canonical.stageFails {code} (h : Canonical s) : Canonical (stageFails s code) := .modDev h

theorem KeepsCanonical.execFirmwareVerification {found} (h : Canonical s) : KeepsCanonical
    (execFirmwareVerification found s) := by
  unfold Machine.execFirmwareVerification
  refine .next ?_
  split
  · exact h
  · split
    · exact .modDev (.toStage (.draw h))
    · exact .stageFails h

theorem KeepsCanonical.execUcieTraining {ok} (h : Canonical s) : KeepsCanonical (execUcieTraining ok s) :=
  .next (.ite (.ite (.serveCommands (.modDev h)) h) (.ite h (.ite (.toStage h) (.stageFails h))))

theorem KeepsCanonical.execLpddrTraining {failed} (h : Canonical s) : KeepsCanonical (execLpddrTraining failed s) := by
  unfold Machine.execLpddrTraining
  refine .next ?_
  split
  · exact h
  · split
    · exact .toStage h
    · exact .modDev (.stageFails h)

theorem KeepsCanonical.execDamlanRingTuning {ok} (h : Canonical s) : KeepsCanonical (execDamlanRingTuning ok s) :=
  .next (.ite h (.ite (.toStage h) (.stageFails h)))

theorem KeepsCanonical.execTsuxusTraining {masks} (h : Canonical s) : KeepsCanonical (execTsuxusTraining masks s) :=
  .next (.ite h (.toStage (.modDomain h)))

theorem Canonical.leaveBringup (h : Canonical s) : Canonical (leaveBringup s) := .frame h

theorem KeepsCanonical.execPtpLock (h : Canonical s) : KeepsCanonical (execPtpLock s) :=
  .next (.ite (.serveCommands (.leaveBringup (.toStage h))) h)

theorem Canonical.writePwrlim {w} (h : Canonical s) : Canonical (writePwrlim s w) :=
  .whenNot (fun h' => .advanceGraphs h') (.modDev h)

theorem KeepsCanonical.execStandbyRequest {w} (h : Canonical s) : KeepsCanonical (execStandbyRequest w s) :=
  .next (.ite (.writePwrlim h) h)

theorem KeepsCanonical.execStandbyClear {w} (h : Canonical s) : KeepsCanonical (execStandbyClear w s) :=
  .next (.ite h (.writePwrlim h))

theorem KeepsCanonical.execPowerLimitWrite {w} (h : Canonical s) : KeepsCanonical (execPowerLimitWrite w s) :=
  .next (.writePwrlim h)

theorem KeepsCanonical.execStandbyEntry (h : Canonical s) : KeepsCanonical (execStandbyEntry s) := .next (.ite (.modDev h) h)
theorem KeepsCanonical.execPowerWindow {avg} (h : Canonical s) : KeepsCanonical (execPowerWindow avg s) := .next (.modDev h)
theorem Canonical.walkAgain {st e} (h : Canonical s) : Canonical (walkAgain s st e) := .modStation h

theorem Canonical.retryWaiting (h : Canonical s) : Canonical (retryWaiting s) :=
  .advanceGraphs (.foldl (fun h' => .finishGrid (.modGrid h')) h)

theorem Canonical.acknowledge {i} (h : Canonical s) : Canonical (acknowledge s i) := by
  unfold Machine.acknowledge
  split
  · exact .retryRequests (.retryWaiting (.walkAgain h))
  · exact h

theorem KeepsCanonical.execFaultack {w} (h : Canonical s) : KeepsCanonical (execFaultack w s) := .next (.acknowledge h)
theorem Canonical.writeDomcfg {w} (h : Canonical s) : Canonical (writeDomcfg s w) := .modDomain h
theorem KeepsCanonical.execDomcfgWrite {w} (h : Canonical s) : KeepsCanonical (execDomcfgWrite w s) := .next (.writeDomcfg h)
theorem Canonical.writeDomtab {n w} (h : Canonical s) : Canonical (writeDomtab s n w) := .modDomain h

theorem Canonical.writeHostReg {n w} (h : Canonical s) : Canonical (writeHostReg s n w) := by
  unfold Machine.writeHostReg
  split
  · dsimp only
    split
    · exact .writeDbgctl h
    · exact .writeWdog h
    · exact .outWriteFree h
    · exact .ringWrite h
    · exact h
  · dsimp only
    split
    · exact .writeTlbctl h
    · exact .writeWdog h
    · exact .outWriteFree h
    · exact .ringWrite h
    · exact h

theorem Canonical.writeRegion {n w} (h : Canonical s) : Canonical (writeRegion s n w) :=
  .ite (.acknowledge h) (.ite (.writeDomcfg h) (.ite (.writePwrlim h) (.ite (.writeDomtab h) (.ite (.writeHostReg h) h))))

theorem KeepsCanonical.execRegisterWrite {number w} (h : Canonical s) : KeepsCanonical (execRegisterWrite number w s) :=
  .next (.writeRegion h)

theorem KeepsCanonical.execBar2StagingWrite {off bytes} (h : Canonical s) : KeepsCanonical
    (execBar2StagingWrite off bytes s) :=
  .next (.ite h (.modDev h))

theorem KeepsCanonical.execHeadRegisterRead {which} (h : Canonical s) : KeepsCanonical (execHeadRegisterRead which s) :=
  .next (.frame h)

theorem Canonical.hostPart {a bs store} (h : Canonical s) : Canonical (hostPart s a bs store) := by
  unfold Machine.hostPart
  split
  · exact .ite (storeAt_canonical h _ _ _ _) (loadAt_canonical h _ _ _ _ _)
  · exact h

theorem KeepsCanonical.execHostCxlMemAccess {pa len data} (h : Canonical s) : KeepsCanonical
    (execHostCxlMemAccess pa len data s) :=
  .next (.ite h (.foldl₂ (fun h => .hostPart h) h))

/-! ### Strip words -/

theorem KeepsCanonical.execTnow {sw d} (h : Canonical s) : KeepsCanonical (execTnow sw d s) := .issue h (fun h' => .ret64 h')

theorem KeepsCanonical.execTwait {sw a x} (h : Canonical s) : KeepsCanonical (execTwait sw a x s) :=
  .issue h (fun h' => .ite (.eff h') (.eff h'))

theorem KeepsCanonical.execTimeWaitExpiry {t} (h : Canonical s) : KeepsCanonical (execTimeWaitExpiry t s) :=
  .next (.modThread h)

theorem KeepsCanonical.execTdead {sw d b y} (h : Canonical s) : KeepsCanonical (execTdead sw d b y s) := by
  unfold Machine.execTdead
  refine .issue h (fun h' => ?_)
  split
  · exact .ret64 h'
  · exact .trap

theorem KeepsCanonical.execTbudg {sw d} (h : Canonical s) : KeepsCanonical (execTbudg sw d s) := .issue h (fun h' => .ret h')

theorem Gives.stripBuffer {v n} (hk : Canonical k.s) : Gives (fun _ => True) (stripBuffer k v n) := by
  unfold Machine.stripBuffer
  split
  · exact .held hk
  · split
    · next e => exact .stop (Gives.stopped .matchBuffer e)
    · exact .ite (.stop .badBuffer) .value

theorem Canonical.commitStrip {t tm out pts σ buf} (h : Canonical s) : Canonical (commitStrip s t tm out pts σ buf) := by
  unfold Machine.commitStrip
  refine .when (fun h' => .modOutput h') (.modSlot ?_)
  split
  · exact h
  · exact .endRead (.modSlot (.beginRead (.met h)))

theorem Canonical.serveCommit {p} (h : Canonical s) : Canonical (serveCommit s p) := by
  unfold Machine.serveCommit
  dsimp only
  split
  · split
    · exact .modThread (.frame h)
    · exact .ite h (.modThread (.frame (.commitStrip h)))
  · exact .frame h

theorem Canonical.settleCommits (h : Canonical s) : Canonical (settleCommits s) := .foldl (fun h' => .serveCommit h') h

theorem Gives.commitBody {d c σ buf} (hk : Canonical k.s) (h : Canonical s) : Gives Eff.Keeps
    (commitBody k s d c σ buf) := by
  unfold Machine.commitBody
  split
  · exact .inState h (.retLater hk)
  · split
    · exact .ite (.inState (.commitStrip h) (.retLater hk)) (.eff (.frame (.fresh h)))
    · exact .inState (.commitStrip h) (.retLater hk)

theorem KeepsCanonical.execScommit {sw d a b x y m} (h : Canonical s) : KeepsCanonical (execScommit sw d a b x y m s) := by
  unfold Machine.execScommit
  refine .issue h (fun h' => ?_)
  split
  · exact .trap
  · split
    · exact .trap
    · refine .ite (.bind (fun h'' => .commitBody h' h'') (.publish h')) ?_
      dsimp only
      split
      · next e => exact .stop (Gives.stopped (.stripBuffer h') e)
      · exact .bind (fun h'' => .commitBody h' h'') (.publish h')

theorem Canonical.haloArrive {tm off pts fuel n} (h : Canonical s) : Canonical (haloArrive s tm off pts fuel n) := by
  induction fuel generalizing s n with
  | zero => exact h
  | succ fuel ih => exact .ite h (ih (.arrivalAdd h))

theorem Gives.haloCopy {d c h' b arr} (hk : Canonical k.s) (h : Canonical s) : Gives Eff.Keeps
    (haloCopy k s d c h' b arr) := by
  have hp := poke_canonical (Canonical.beginWrite h (e := .spad k.th.team b.base)) (.spad k.th.team b.base)
    (haloBytes s c.video c.frame h').1
  unfold Machine.haloCopy
  refine .inState ?_ (.map (fun he => he) (.retLater hk))
  cases arr with
  | none => exact hp
  | some off => exact .haloArrive hp

theorem KeepsCanonical.execShalo {sw d a b x y} (h : Canonical s) : KeepsCanonical (execShalo sw d a b x y s) := by
  unfold Machine.execShalo
  refine .issue h (fun h' => ?_)
  split
  · refine .ite .trap (.ite .trap ?_)
    split
    · next e => exact .stop (Gives.stopped (.stripBuffer h') e)
    · exact .ite (.held (.holdAt h')) (.bind (fun h'' => .haloCopy h' h'') (.publish h'))
  · exact .trap

theorem Canonical.endSlice {t tm} (h : Canonical s) : Canonical (endSlice s t tm) := .endTeam (.endThread h)

theorem KeepsCanonical.execJobend {sw} (h : Canonical s) : KeepsCanonical (execJobend sw s) := by
  unfold Machine.execJobend
  refine .issue h (fun h' => ?_)
  split
  · exact .trap
  · exact .ite (.held (.holdAt h')) (.effThen h' (fun h'' => .endSlice h''))

theorem Gives.rateBody {d c r n op a} (hk : Canonical k.s) : Gives Eff.Keeps (rateBody k d c r n op a) := by
  unfold Machine.rateBody
  split
  · exact .trap
  · exact .ite (.ret hk) (.inState (.modLadder hk) (.ret hk))

theorem Gives.rateBase {d c a} (hk : Canonical k.s) : Gives Eff.Keeps (rateBase k d c a) :=
  .inState (.modOutput hk) (.ret hk)

theorem KeepsCanonical.execSrate {sw d a n o x} (h : Canonical s) : KeepsCanonical (execSrate sw d a n o x s) := by
  unfold Machine.execSrate
  refine .issue h (fun h' => ?_)
  split
  · exact .trap
  · refine .ite .trap (.ite (.rateBase h') ?_)
    split
    · exact .trap
    · exact .rateBody h'

/-! ### Every instruction -/

/-- Every instruction of the machine keeps the form. -/
theorem KeepsCanonical.exec {i} (h : Canonical s) : KeepsCanonical (exec i s) := by
  cases i with
  | nop => exact .execNop h
  | extControlForm => exact .execExtControlForm h
  | extImmediateForm => exact .execExtImmediateForm h
  | mov => exact .execMov h
  | movi => exact .execMovi h
  | movh => exact .execMovh h
  | movs => exact .execMovs h
  | iadd => exact .execIadd h
  | isub => exact .execIsub h
  | iaddc => exact .execIaddc h
  | imul => exact .execImul h
  | imulh => exact .execImulh h
  | imad => exact .execImad h
  | idiv => exact .execIdiv h
  | irem => exact .execIrem h
  | ineg => exact .execIneg h
  | iabs => exact .execIabs h
  | imin => exact .execImin h
  | imax => exact .execImax h
  | and => exact .execAnd h
  | or => exact .execOr h
  | xor => exact .execXor h
  | not => exact .execNot h
  | andn => exact .execAndn h
  | shl => exact .execShl h
  | shr => exact .execShr h
  | sar => exact .execSar h
  | rot => exact .execRot h
  | bfx => exact .execBfx h
  | bfi => exact .execBfi h
  | popc => exact .execPopc h
  | clz => exact .execClz h
  | brev => exact .execBrev h
  | isetp => exact .execIsetp h
  | sel => exact .execSel h
  | plop => exact .execPlop h
  | lea => exact .execLea h
  | add64 => exact .execAdd64 h
  | idp4 => exact .execIdp4 h
  | mix32 => exact .execMix32 h
  | iaddi => exact .execIaddi h
  | andi => exact .execAndi h
  | ori => exact .execOri h
  | xori => exact .execXori h
  | shli => exact .execShli h
  | shri => exact .execShri h
  | sari => exact .execSari h
  | isetpi => exact .execIsetpi h
  | fadd => exact .execFadd h
  | fsub => exact .execFsub h
  | fmul => exact .execFmul h
  | fmad => exact .execFmad h
  | fmin => exact .execFmin h
  | fmax => exact .execFmax h
  | fneg => exact .execFneg h
  | fabs => exact .execFabs h
  | fsetp => exact .execFsetp h
  | fdiv => exact .execFdiv h
  | frcp => exact .execFrcp h
  | fsqrt => exact .execFsqrt h
  | frsq => exact .execFrsq h
  | fexp2 => exact .execFexp2 h
  | flog2 => exact .execFlog2 h
  | fsinpi => exact .execFsinpi h
  | fcospi => exact .execFcospi h
  | frnd => exact .execFrnd h
  | fclass => exact .execFclass h
  | fscale => exact .execFscale h
  | fexpo => exact .execFexpo h
  | twosum => exact .execTwosum h
  | padd => exact .execPadd h
  | prd => exact .execPrd h
  | hadd2 => exact .execHadd2 h
  | hmul2 => exact .execHmul2 h
  | hfma2 => exact .execHfma2 h
  | cvtfi => exact .execCvtfi h
  | cvtif => exact .execCvtif h
  | cvtff => exact .execCvtff h
  | nxel => exact .execNxel h
  | mxel => exact .execMxel h
  | fmtchk => exact .execFmtchk h
  | bra => exact .execBra h
  | brp => exact .execBrp h
  | brx => exact .execBrx h
  | call => exact .execCall h
  | callx => exact .execCallx h
  | ret => exact .execRet h
  | lgjoin => exact .execLgjoin h
  | lgwait => exact .execLgwait h
  | lgdrop => exact .execLgdrop h
  | lgread => exact .execLgread h
  | meetset => exact .execMeetset h
  | regroup => exact .execRegroup h
  | regroupCompletion => exact .execRegroupCompletion h
  | yield => exact .execYield h
  | pause => exact .execPause h
  | pauseExpiry => exact .execPauseExpiry h
  | exit => exact .execExit h
  | launch => exact .execLaunch h
  | rxch => exact .execRxch h
  | rbcast => exact .execRbcast h
  | rred => exact .execRred h
  | rvote => exact .execRvote h
  | clauseIssue => exact .execClauseIssue h
  | parkEnd => exact .execParkEnd h
  | resultWritten => exact .execResultWritten h
  | asynchronousTrapDelivery => exact .execAsynchronousTrapDelivery h
  | ldg => exact .execLdg h
  | stg => exact .execStg h
  | lds => exact .execLds h
  | sts => exact .execSts h
  | ldp => exact .execLdp h
  | stp => exact .execStp h
  | ldc => exact .execLdc h
  | stc => exact .execStc h
  | ldw => exact .execLdw h
  | pref => exact .execPref h
  | pin => exact .execPin h
  | unpin => exact .execUnpin h
  | storePerformed => exact .execStorePerformed h
  | ptsSelfAdvance => exact .execPtsSelfAdvance h
  | leaseExpiry => exact .execLeaseExpiry h
  | pageWalkComplete => exact .execPageWalkComplete h
  | atom => exact .execAtom h
  | atomc => exact .execAtomc h
  | atomf => exact .execAtomf h
  | xacc => exact .execXacc h
  | xaccp => exact .execXaccp h
  | xrd => exact .execXrd h
  | xclr => exact .execXclr h
  | atomicPerformed => exact .execAtomicPerformed h
  | fence => exact .execFence h
  | fencew => exact .execFencew h
  | bar => exact .execBar h
  | bara => exact .execBara h
  | barw => exact .execBarw h
  | arm => exact .execArm h
  | arrv => exact .execArrv h
  | arwait => exact .execArwait h
  | arread => exact .execArread h
  | qpush => exact .execQpush h
  | qpop => exact .execQpop h
  | qtry => exact .execQtry h
  | qlen => exact .execQlen h
  | dist => exact .execDist h
  | distributorAnswerStore => exact .execDistributorAnswerStore h
  | sbset => exact .execSbset h
  | sbqry => exact .execSbqry h
  | cpy => exact .execCpy h
  | cpy2d => exact .execCpy2d h
  | cpym => exact .execCpym h
  | cpyr => exact .execCpyr h
  | cpyq => exact .execCpyq h
  | cpyx => exact .execCpyx h
  | cpyf => exact .execCpyf h
  | rlqry => exact .execRlqry h
  | copyRegistration => exact .execCopyRegistration h
  | rangeLockEntryTaken => exact .execRangeLockEntryTaken h
  | copyCommandStart => exact .execCopyCommandStart h
  | copyBurst => exact .execCopyBurst h
  | copyCommandEnd => exact .execCopyCommandEnd h
  | fdstart => exact .execFdstart h
  | fdstop => exact .execFdstop h
  | fdstat => exact .execFdstat h
  | floop => exact .execFloop h
  | fend => exact .execFend h
  | faddr => exact .execFaddr h
  | fpush => exact .execFpush h
  | fpushk => exact .execFpushk h
  | fpermitQueue => exact .execFpermitQueue h
  | fpermitBuffer => exact .execFpermitBuffer h
  | fsync => exact .execFsync h
  | fstop => exact .execFstop h
  | kld => exact .execKld h
  | kst => exact .execKst h
  | kzero => exact .execKzero h
  | kcvt => exact .execKcvt h
  | kbmp => exact .execKbmp h
  | kbld => exact .execKbld h
  | kbst => exact .execKbst h
  | mmae => exact .execMmae h
  | mmac => exact .execMmac h
  | matrixOpCompletion => exact .execMatrixOpCompletion h
  | mtxOperationComplete => exact .execMtxOperationComplete h
  | bankSpill => exact .execBankSpill h
  | accz => exact .execAccz h
  | accrd => exact .execAccrd h
  | accspl => exact .execAccspl h
  | accfil => exact .execAccfil h
  | mqry => exact .execMqry h
  | pbin => exact .execPbin h
  | pbend => exact .execPbend h
  | primitiveBinning => exact .execPrimitiveBinning h
  | hsrTileResolution => exact .execHsrTileResolution h
  | hsrnext => exact .execHsrnext h
  | ipa => exact .execIpa h
  | fragw => exact .execFragw h
  | splat => exact .execSplat h
  | splatend => exact .execSplatend h
  | stiprun => exact .execStiprun h
  | stiprd => exact .execStiprd h
  | raynew => exact .execRaynew h
  | rayset => exact .execRayset h
  | raygo => exact .execRaygo h
  | rayTraversalStep => exact .execRayTraversalStep h
  | callbackStart => exact .execCallbackStart h
  | raywait => exact .execRaywait h
  | rayget => exact .execRayget h
  | rayfree => exact .execRayfree h
  | verdict => exact .execVerdict h
  | raycb => exact .execRaycb h
  | tnow => exact .execTnow h
  | twait => exact .execTwait h
  | timeWaitExpiry => exact .execTimeWaitExpiry h
  | tdead => exact .execTdead h
  | tbudg => exact .execTbudg h
  | scommit => exact .execScommit h
  | shalo => exact .execShalo h
  | jobend => exact .execJobend h
  | srate => exact .execSrate h
  | trap => exact .execTrap h
  | rte => exact .execRte h
  | srd => exact .execSrd h
  | swr => exact .execSwr h
  | dtload => exact .execDtload h
  | sealq => exact .execSealq h
  | halt => exact .execHalt h
  | errinj => exact .execErrinj h
  | tlbinv => exact .execTlbinv h
  | xbpark => exact .execXbpark h
  | xbwake => exact .execXbwake h
  | xbstat => exact .execXbstat h
  | lkstat => exact .execLkstat h
  | teamPlacement => exact .execTeamPlacement h
  | teamRetirement => exact .execTeamRetirement h
  | evictionRequest => exact .execEvictionRequest h
  | eviction => exact .execEviction h
  | restore => exact .execRestore h
  | memoryTokenGrant => exact .execMemoryTokenGrant h
  | memoryTokenPass => exact .execMemoryTokenPass h
  | localityWindowEnd => exact .execLocalityWindowEnd h
  | stripAdmission => exact .execStripAdmission h
  | chainForcedEnd => exact .execChainForcedEnd h
  | budgetExpiry => exact .execBudgetExpiry h
  | deadlineMiss => exact .execDeadlineMiss h
  | stripScan => exact .execStripScan h
  | slotRelease => exact .execSlotRelease h
  | ductusIdleExit => exact .execDuctusIdleExit h
  | ductusWake => exact .execDuctusWake h
  | encodeTileRow => exact .execEncodeTileRow h
  | temporalUnitWrite => exact .execTemporalUnitWrite h
  | headLinkLoss => exact .execHeadLinkLoss h
  | linkRetrain => exact .execLinkRetrain h
  | outputArm => exact .execOutputArm h
  | outputDisarm => exact .execOutputDisarm h
  | ringEnable => exact .execRingEnable h
  | ringDisable => exact .execRingDisable h
  | ppsEdge => exact .execPpsEdge h
  | ptpin => exact .execPtpin h
  | tlockHoldover => exact .execTlockHoldover h
  | qosFrameBoundary => exact .execQosFrameBoundary h
  | refreshWindowStart => exact .execRefreshWindowStart h
  | refreshWindowEnd => exact .execRefreshWindowEnd h
  | opticalToken => exact .execOpticalToken h
  | automaticWake => exact .execAutomaticWake h
  | retuneEnd => exact .execRetuneEnd h
  | remoteRequestArrival => exact .execRemoteRequestArrival h
  | acknowledgement => exact .execAcknowledgement h
  | retransmissionTimeout => exact .execRetransmissionTimeout h
  | busyResend => exact .execBusyResend h
  | wavelengthRetrain => exact .execWavelengthRetrain h
  | watchdogW1 => exact .execWatchdogW1 h
  | watchdogW2 => exact .execWatchdogW2 h
  | watchdogW3 => exact .execWatchdogW3 h
  | coreReturn => exact .execCoreReturn h
  | uncorrectableError => exact .execUncorrectableError h
  | correctableError => exact .execCorrectableError h
  | sealFree => exact .execSealFree h
  | commandWrite => exact .execCommandWrite h
  | upload => exact .execUpload h
  | trigger => exact .execTrigger h
  | resync => exact .execResync h
  | sealnew => exact .execSealnew h
  | sealend => exact .execSealend h
  | abort => exact .execAbort h
  | timesetStep => exact .execTimesetStep h
  | timesetConfig => exact .execTimesetConfig h
  | fwload => exact .execFwload h
  | attest => exact .execAttest h
  | reset => exact .execReset
  | firmwareVerification => exact .execFirmwareVerification h
  | ucieTraining => exact .execUcieTraining h
  | lpddrTraining => exact .execLpddrTraining h
  | damlanRingTuning => exact .execDamlanRingTuning h
  | tsuxusTraining => exact .execTsuxusTraining h
  | ptpLock => exact .execPtpLock h
  | powerWindow => exact .execPowerWindow h
  | standbyRequest => exact .execStandbyRequest h
  | standbyEntry => exact .execStandbyEntry h
  | standbyClear => exact .execStandbyClear h
  | powerLimitWrite => exact .execPowerLimitWrite h
  | tpcWrite => exact .execTpcWrite h
  | meetWrite => exact .execMeetWrite h
  | tstatWrite => exact .execTstatWrite h
  | fmtWrite => exact .execFmtWrite h
  | memgroupsWrite => exact .execMemgroupsWrite h
  | leasecfgWrite => exact .execLeasecfgWrite h
  | qcfgWrite => exact .execQcfgWrite h
  | wdogWrite => exact .execWdogWrite h
  | dbgctl => exact .execDbgctl h
  | tlbctl => exact .execTlbctl h
  | tlbInvalidationComplete => exact .execTlbInvalidationComplete h
  | faultack => exact .execFaultack h
  | domcfgWrite => exact .execDomcfgWrite h
  | bar2StagingWrite => exact .execBar2StagingWrite h
  | registerWrite => exact .execRegisterWrite h
  | hostCxlMemAccess => exact .execHostCxlMemAccess h
  | timeSliceExpiry => exact .execTimeSliceExpiry h
  | ppsLoss => exact .execPpsLoss h
  | tsuxusForwarding => exact .execTsuxusForwarding h
  | remoteReplyArrival => exact .execRemoteReplyArrival h
  | headRegisterRead => exact .execHeadRegisterRead h

/-! ### The schedule -/

theorem Canonical.skipWord {t th w} (h : Canonical s) : Canonical (skipWord s t th w) := .setThread h

theorem KeepsCanonical.fixedWord {t th w} (h : Canonical s) : KeepsCanonical (fixedWord s t th k w) := by
  unfold Machine.fixedWord
  split
  · exact .exec h
  · exact .next (.stopped h trivial)
  · exact .next (.ite (.stopped h trivial) (.ite (.skipWord h) (.stopped h trivial)))

theorem Yields.entryStop {e} : Yields Stop.Keeps (entryStop k e) := by
  unfold Machine.entryStop
  refine .ite (.stop trivial) ?_
  split
  · exact .stop trivial
  · exact .ite (.stop trivial) (.ite (.stop trivial) .empty)

theorem KeepsCanonical.issueWord {t th} (h : Canonical s) : KeepsCanonical (issueWord s t th) := by
  unfold Machine.issueWord
  extract_lets w k opc
  -- The decoder is not to be run on a word that is not given.
  generalize decodeWord _ = r
  generalize e : Machine.entryStop _ _ = o
  refine .ite (.fixedWord h) (.ite (.next (.skipWord h)) ?_)
  cases o with
  | some st => exact .next (.stopped h (Yields.answer .entryStop e))
  | none =>
    cases r with
    | ok i => exact .exec h
    | error e => exact .next (.stopped h trivial)

theorem Canonical.issued {t} (h : Canonical s) : Canonical (issued t s) := by
  unfold Machine.issued
  split
  · exact .ite h (.noteIssue h)
  · exact .noteIssue h

theorem KeepsCanonical.issueNext {t th} (h : Canonical s) : KeepsCanonical (issueNext t th s) := by
  refine .ite (.execClauseIssue h) ?_
  have hw : KeepsCanonical
    (Machine.issueWord (Machine.modThread s t fun th => { th with yields := [], waited := 0 }) t th) :=
    .issueWord (.frame h)
  split
  · next e => exact .next (.issued (hw _ e))
  · exact hw

theorem Canonical.endHolds (h : Canonical s) : Canonical (endHolds s) := .frame h

theorem Canonical.settleHolds (h : Canonical s) : Canonical (settleHolds s) :=
  .endHolds (.foldl (fun h' => .rejudge h') (.settleCommits h))

theorem KeepsCanonical.stepThread {t} (h : Canonical s) : KeepsCanonical (stepThread t s) := by
  have h : Canonical (Machine.settleHolds { s with cur := some t, curFeed := none }) := .settleHolds (.frame h)
  unfold Machine.stepThread
  dsimp only
  split
  · exact .next h
  · refine .ite (.next (.reachMeet h)) (.ite (.next h) ?_)
    split
    · exact .next (.trapDue h)
    · exact .ite (.next h) (.ite (.execAsynchronousTrapDelivery h) (.ite (.next h) (.issueNext h)))

theorem KeepsCanonical.stepFeed {c x} (h : Canonical s) : KeepsCanonical (stepFeed c x s) := by
  have h : Canonical (Machine.feedFetch { s with curFeed := some (c, x) } c x).2 := .feedFetch (.frame h)
  unfold Machine.stepFeed
  dsimp only
  split
  · next e => exact .next (.of_eq h e)
  · next e =>
    have h := Canonical.of_eq h e
    split
    · exact .exec h
    · exact .next (.badWord h)
    · exact .next h

theorem Each.dueScan {o x} : Each (fun d => ActKeeps d.2) (dueScan s o x) := by
  unfold Machine.dueScan
  split
  · exact .nil
  · exact .one fun _ h => .execStripScan h

theorem Each.dueChain {o x} : Each (fun d => ActKeeps d.2) (dueChain s o x) := by
  unfold Machine.dueChain
  split
  · exact .nil
  · exact .ite .nil (.cons (fun _ h => .execDuctusIdleExit h) (.cons (fun _ h => .execStripAdmission h)
      (.one fun _ h => .execDuctusWake h)))

theorem Each.dueSlots : Each (fun d => ActKeeps d.2) (dueSlots s) :=
  .flatMap (.filterMap (.ite (fun _ h => .execSlotRelease h) .empty))

theorem Each.dueWaits : Each (fun d => ActKeeps d.2) (dueWaits s) := by
  refine .filterMap ?_
  intro p
  split
  · exact fun _ h => .execTimeWaitExpiry h
  · exact .empty

theorem Each.dueRetunes : Each (fun d => ActKeeps d.2) (dueRetunes s) := .filterMap
    (.ite (fun _ h => .execRetuneEnd h) .empty)

theorem Each.dueFrames : Each (fun d => ActKeeps d.2) (dueFrames s) := .ite (.one fun _ h => .execQosFrameBoundary h) .nil

theorem Each.dueWakes : Each (fun d => ActKeeps d.2) (dueWakes s) := .filterMap
    (.ite (fun _ h => .execAutomaticWake h) .empty)

theorem Each.dueUnits : Each (fun d => ActKeeps d.2) (dueUnits s) := by
  refine .append (.append (.append (.append (.append (.append (.append (.append (.append (.append (.append
    (.map fun _ h => .execChainForcedEnd h) (.flatMap .dueScan)) .dueSlots) (.flatMap .dueChain)) (.filterMap ?_))
    (.map fun _ h => .execRefreshWindowEnd h)) .dueWaits) .dueRetunes) .dueWakes) .dueFrames)
    (.ite (.one fun _ h => .execTlockHoldover h) .nil)) (.ite (.one fun _ h => .execPpsLoss h) .nil)
  exact .ite .empty (.map (p := fun _ => True) (fun _ _ h => .execDeadlineMiss h) (.all fun _ => trivial))

theorem KeepsCanonical.issueDue {t} (h : Canonical s) : KeepsCanonical (issueDue t s) := by
  unfold Machine.issueDue
  split
  · exact .next h
  · exact .ite (.stepThread h) (.execTimeSliceExpiry h)

theorem Each.dueThreads : Each (fun d => ActKeeps d.2) (dueThreads s) := by
  refine .flatMap (.append (.append (.ite .nil (.one fun _ h => .execPtsSelfAdvance h))
    (.ite (.one fun _ h => .issueDue h) .nil)) ?_)
  split
  · exact .one fun _ h => .execPauseExpiry h
  · exact .nil

theorem Each.dueCores : Each (fun d => ActKeeps d.2) (dueCores s) :=
  .flatMap (.cons (fun _ h => .execLocalityWindowEnd h) (.ite .nil (.map fun _ h => .execMemoryTokenPass h)))

theorem Each.dueWatchdog : Each (fun d => ActKeeps d.2) (dueWatchdog s) := by
  refine .append (.flatMap (.ite (.one fun _ h => .execWatchdogW1 h) (.ite (.one fun _ h => .execWatchdogW2 h) .nil)))
    (.flatMap ?_)
  intro p
  split
  · exact .map fun _ h => .execWatchdogW3 h
  · exact .nil

theorem Each.dueCycles : Each (fun d => ActKeeps d.2) (dueCycles s) :=
  .append (.append (.append (.append (.filterMap (.ite (fun _ h => .execBudgetExpiry h) .empty))
    (.map fun _ h => .execLeaseExpiry h)) .dueThreads) .dueCores) .dueWatchdog

theorem Yields.dueNow : Yields ActKeeps (dueNow s) :=
  .map (p := fun d => ActKeeps d.2) (fun hd => hd) (Each.find? (.append .dueUnits .dueCycles))

theorem KeepsCanonical.stepTick {u a rest} (h : Canonical s) : KeepsCanonical (stepTick u a rest s) := by
  have hs : Canonical (Machine.settleHolds s) := .settleHolds h
  unfold Machine.stepTick
  dsimp only
  split
  · next e => exact Yields.answer .dueNow e _ (.frame hs)
  · exact .next (.frame hs)

theorem Yields.bringUp : Yields ActKeeps (bringUp s) := by
  unfold Machine.bringUp
  refine .ite .empty (.ite (fun _ h => .execUcieTraining h) (.ite .empty ?_))
  split
  · exact fun _ h => .execFirmwareVerification h
  · exact fun _ h => .execUcieTraining h
  · exact fun _ h => .execLpddrTraining h
  · exact fun _ h => .execDamlanRingTuning h
  · exact fun _ h => .execTsuxusTraining h
  · exact .ite (fun _ h => .execPtpLock h) (fun _ h => .stepTick h)

theorem Each.commandStep : Each ActKeeps (commandStep s) := by
  unfold Machine.commandStep
  split
  · exact .nil
  · split
    · exact .one fun _ h => .execUpload h
    · exact .one fun _ h => .execTrigger h
    · exact .one fun _ h => .execResync h
    · exact .one fun _ h => .execSealnew h
    · exact .one fun _ h => .execSealend h
    · exact .one fun _ h => .execAbort h
    · exact .cons (fun _ h => .execTimesetStep h) (.one fun _ h => .execTimesetConfig h)
    · exact .one fun _ h => .execFwload h
    · exact .one fun _ h => .execAttest h

theorem Each.flightSteps {t f} : Each ActKeeps (flightSteps t f) :=
  .cons (fun _ h => .execStorePerformed h) (.cons (fun _ h => .execAtomicPerformed h)
    (.cons (fun _ h => .execDistributorAnswerStore h) (.one fun _ h => .execResultWritten h)))

theorem Each.memorySteps : Each ActKeeps (memorySteps s) :=
  .append (.append (.append (.append (.flatMap (.map fun _ h => .execPageWalkComplete h)) (.flatMap (.flatMap .flightSteps)))
    (.map fun _ h => .execParkEnd h)) (.map fun _ h => .execRegroupCompletion h))
      (.one fun _ h => .execTlbInvalidationComplete h)

theorem Each.copySteps {cmd c} : Each ActKeeps (copySteps s cmd c) :=
  .append (.append (.cons (fun _ h => .execCopyRegistration h)
      (.filterMap (.map (p := fun _ => True) (fun _ _ h => .execRangeLockEntryTaken h) (.all fun _ => trivial))))
    (.cons (fun _ h => .execCopyCommandStart h) (.map fun _ h => .execCopyBurst h))) (.one fun _ h => .execCopyCommandEnd h)

theorem Each.unitSteps : Each ActKeeps (unitSteps s) := by
  refine .append (.append (.append (.append (.flatMap .copySteps) (.flatMap ?_))
      (.flatMap (.cons (fun _ h => .execRayTraversalStep h) (.one fun _ h => .execCallbackStart h))))
    (.flatMap (.cons (fun _ h => .execPrimitiveBinning h) (.filterMap
      (.map (p := fun _ => True) (fun _ _ h => .execHsrTileResolution h) (.all fun _ => trivial))))))
    (.flatMap (.cons (fun _ h => .execEncodeTileRow h) (.one fun _ h => .execTemporalUnitWrite h)))
  intro p
  split
  · exact .cons (fun _ h => .execMtxOperationComplete h) (.cons (fun _ h => .execMatrixOpCompletion h)
      (.cons (fun _ h => .execBankSpill h) (.one fun _ h => .execBankSpill h)))
  · exact .nil

theorem Each.restoreSteps {t th} : Each ActKeeps (restoreSteps s t th) := by
  unfold Machine.restoreSteps
  split
  · exact .nil
  · exact .ite (.ite .nil (.one fun _ h => .execRestore h)) (.ite .nil (.map fun _ h => .execRestore h))

theorem Each.placeSteps : Each ActKeeps (placeSteps s) :=
  .append (.append (.append (.append (.append (.append (.append (.map fun _ h => .execTeamRetirement h)
    (.map fun _ h => .execEviction h)) (.cons (fun _ h => .execTeamPlacement h) (.one fun _ h => .execTeamPlacement h)))
    (.ite (.map fun _ h => .execEvictionRequest h) .nil)) (.flatMap .restoreSteps)) (.map fun _ h => .execSealFree h))
    (.map fun _ h => .execCoreReturn h)) (.one fun _ h => .execStandbyEntry h)

theorem Yields.deviceStep : Yields ActKeeps (deviceStep s) :=
  Each.find? (.append .commandStep (.ite .nil (.append (.append .memorySteps (.ite .nil .unitSteps)) .placeSteps)))

theorem Each.contexts : Each ActKeeps (contexts s) :=
  .ite .nil (.append (.map fun _ h => .stepFeed h) (.map fun _ h => .stepThread h))

theorem Canonical.rotateSets (h : Canonical s) : Canonical (rotateSets s) := by
  unfold Machine.rotateSets
  dsimp only
  split
  · exact h
  · next p _ =>
    have hx : KeepsCanonical (Machine.execTimeSliceExpiry (coreOf s p.2) p.1 s) := .execTimeSliceExpiry h
    split
    · next e => exact hx _ e
    · exact h

theorem KeepsCanonical.defaultStep (h : Canonical s) : KeepsCanonical (defaultStep s) := by
  unfold Machine.defaultStep
  split
  · next e => exact Yields.answer .bringUp e _ h
  · split
    · next e => exact Yields.answer .deviceStep e _ h
    · split
      · next e => exact Yields.answer (Each.find? .contexts) e _ h
      · exact .stepTick (.rotateSets h)

theorem KeepsCanonical.runPick {p rest} (h : Canonical s) : KeepsCanonical (runPick p rest s) := by
  have hr : Canonical { s with agenda := rest } := .frame h
  unfold Machine.runPick
  split
  · exact .ite (.stepThread hr) (.next hr)
  · exact .ite (.stepFeed hr) (.next hr)
  · exact .ite (.next hr) (.exec hr)
  · exact .stepTick h

theorem ActKeeps.errorStep {d} : ActKeeps (errorStep d) := by
  unfold Machine.errorStep
  split
  · exact fun _ h => .execUncorrectableError h
  · exact fun _ h => .execCorrectableError h

/-! ### The step -/

theorem KeepsCanonical.step (h : Canonical s) : KeepsCanonical (step s) := by
  refine .ite (.next (.rebase h)) ?_
  split
  · exact ActKeeps.errorStep _ h
  · split
    · exact .next (.sealEndOnly (.modErrors h))
    · split
      · exact .runPick h
      · exact .defaultStep h

end

/-- Settles O54: all three memories of the reset state are empty lists. -/
theorem resetIsCanonical : Obligations.ResetIsCanonical := ⟨rfl, rfl, rfl⟩

/-- Settles O55: a step is an error's, the end of a poisoned seal, what the agenda names, or the default step, and each of
these keeps the form (`KeepsCanonical.step`). -/
theorem everyStepKeepsCanonicalMemories : Obligations.EveryStepKeepsCanonicalMemories := fun _ => KeepsCanonical.step

end Sys2Proof.Machine
end

section
/-!
Host registers, the staging window and host accesses to LPDDR (R448, R454, R455, R467, R470).
-/
namespace Sys2Proof.Machine
set_option Elab.async false

theorem fld_low (w n : Nat) : fld w 0 n = w % 2 ^ n := by
  rw [fld, Nat.pow_zero, Nat.div_one]

theorem flag_eq_testBit (w i : Nat) : flag w i = w.testBit i := by
  rw [Nat.testBit_eq_decide_div_mod_eq]
  rfl

/-! ### Faults that are acknowledged -/

/-- A number no entry of the fault ring has acknowledges nothing. -/
theorem acknowledge_unlisted {s : State} {i : Nat} (h : ∀ p ∈ s.stations, ∀ f ∈ p.2.faults, f.ringIdx ≠ i) :
    acknowledge s i = s := by
  have unlisted : s.stations.findSome? (fun p => (p.2.faults.find? (fun f => f.ringIdx == i)).map (fun f => (p.1, f))) = none := by
    simpa [List.findSome?_eq_none_iff] using fun a p hp f hf => h (a, p) hp f hf
  rw [acknowledge, unlisted]

theorem acknowledge_listed {s : State} {i st : Nat} {e : FaultEntry}
    (h : s.stations.findSome? (fun p => (p.2.faults.find? (fun f => f.ringIdx == i)).map (fun f => (p.1, f))) = some (st, e)) :
    acknowledge s i = retryRequests (retryWaiting (walkAgain s st e)) := by
  rw [acknowledge, h]

theorem station_modStation (s : State) (i : Nat) (f : Station → Station) : station (modStation s i f) i = f (station s i) := by
  simp [station, kgetD]

/-- The entry leaves the station's faults, and its threads wait for a new walk (log 138). -/
theorem walkAgain_walks (s : State) (st : Nat) (e : FaultEntry) :
    (∀ f ∈ (station (walkAgain s st e) st).faults, f.idx ≠ e.idx)
      ∧ ∃ v ∈ (station (walkAgain s st e) st).walks, v.sealId = e.sealId ∧ v.va = e.va ∧ v.threads = e.threads ∧ v.stale = false
          ∧ v.kind = e.kind := by
  rw [walkAgain, station_modStation]
  refine ⟨fun f hf => ?_, _, List.mem_append_right _ (List.mem_singleton_self _), rfl, rfl, rfl, rfl, rfl⟩
  simpa using (List.mem_filter.1 hf).2

/-! ### The staging window -/

theorem Memory.read_readBytes (m : Memory) (a n j : Nat) (h : j < (m.readBytes a n).length) :
    (m.readBytes a n)[j] = m.read (a + j) := by
  induction n generalizing a j with
  | zero => exact absurd h (Nat.not_lt_zero j)
  | succ n ih =>
    cases j with
    | zero => rfl
    | succ j => exact (ih (a + 1) j _).trans (congrArg m.read (by omega))

/-- Bytes that a memory holds at `a` are what it reads there. -/
theorem Memory.read_of_readBytes {m : Memory} {a : Nat} {bs : List Byte} (h : m.readBytes a bs.length = bs) (j : Nat)
    (hj : j < bs.length) :
    m.read (a + j) = bs[j] := by
  have hj' : j < (m.readBytes a bs.length).length := h.symm ▸ hj
  rw [← Memory.read_readBytes m a bs.length j hj']
  exact List.getElem_of_eq h hj'

/-- With no ring enabled the window shows the staged bytes and what the rings left in it. -/
theorem stagingWindow_disabled {s : State} (h : s.reservoir.any (fun p => p.2.en) = false) :
    stagingWindow s = s.dev.remnants.foldr
      (fun r m => Memory.writeBytes m (4096 * r.page) (r.bytes.take (2 ^ 25 - 4096 * r.page))) s.dev.staging := by
  have unlisted : s.reservoir.filter (fun p => p.2.en) = [] := by
    simpa [List.filter_eq_nil_iff] using h
  rw [stagingWindow, unlisted]
  rfl

theorem stagingWindow_wf {s : State} (h : s.dev.staging.wf = true) : (stagingWindow s).wf = true :=
  List.foldrRecOn (motive := fun m : Memory => m.wf = true) _ _ h fun _ hm _ _ => Memory.wf_writeBytes _ _ hm

theorem execBar2StagingWrite_writes {s : State} {off : Nat} {bs : List Byte} (hen : s.reservoir.any (fun p => p.2.en) = false)
    (hoff : off + bs.length ≤ 2 ^ 25) : exec (.bar2StagingWrite off bs) s =
      .next (modDev s fun d => { d with staging := Memory.writeBytes (stagingWindow s) off bs, remnants := [] }) := by
  have fits : ¬ 2 ^ 25 < off + bs.length := by omega
  show Host.Outcome.next (if _ then _ else _) = _
  rw [if_neg (by simpa [hen] using fits)]

theorem execBar2StagingWrite_ignored {s : State} {off : Nat} {bs : List Byte} (hen : s.reservoir.any (fun p => p.2.en) = true) :
    exec (.bar2StagingWrite off bs) s = .next s := by
  show Host.Outcome.next (if _ then _ else _) = _
  rw [if_pos (by simp [hen])]

/-! ### The register region -/

theorem writeRegion_unlisted {s : State} {n : Nat} {w : Word}
    (h : n < 0x18 ∨ (0x1C < n ∧ n < 0x100) ∨ (0x100 < n ∧ n < 0xD000) ∨ (0xE000 ≤ n ∧ n < 0x10000) ∨ 0x20000 ≤ n) :
    writeRegion s n w = s := by
  unfold writeRegion
  iterate 5 rw [if_neg (by simp; omega)]

theorem statusReg_between {s : State} {n : Nat} (hl : 0x20 ≤ n) (hu : n < 0x100) : statusReg s n = 0 := by
  unfold statusReg
  split <;> omega

/-! ### Host accesses to LPDDR -/

theorem piecesOf_one {unit a n : Nat} (fuel : Nat) (hn : 0 < n) (h : a % unit + n ≤ unit) :
    piecesOf unit (fuel + 2) a n = [(a, n)] := by
  have fits : Nat.min n (unit - a % unit) = n := Nat.min_eq_left (by omega)
  have nonempty : (n == 0) = false := by simp; omega
  simp [piecesOf, fits, nonempty]

/-- An access within one line of LPDDR is one part of itself. -/
theorem lines_within {a : Access} {pa : Nat} (hl : a.loc = .glob pa) (hn : 0 < a.len) (h : pa % 128 + a.len ≤ 128) :
    a.lines = [a] := by
  unfold Access.lines
  rw [hl]
  dsimp only
  rw [piecesOf_one _ hn h]
  cases a
  cases hl
  rfl

/-- The access of a host's message within a line (R454). -/
def hostAccess (pa n : Nat) : Access :=
  { loc := .glob pa, len := n, strong := true, cattr := 0, pageW := true, pageSeal := 0 }

theorem execHostCxlMemAccess_store {s : State} {pa n : Nat} {bs : List Byte} (hbs : bs ≠ [])
    (hline : pa % 128 + bs.length ≤ 128) (hpa : pa + bs.length ≤ 2 ^ 39) : exec (.hostCxlMemAccess pa n (some bs)) s =
      .next (storeAt s (hostAccess pa bs.length) bs (sliceTime s (homeSlice pa)) 0).2 := by
  have one : (hostAccess pa bs.length).lines = [hostAccess pa bs.length] :=
    lines_within rfl (List.length_pos_iff.2 hbs) hline
  show Host.Outcome.next (if 2 ^ 39 < pa + bs.length then s else ((hostAccess pa bs.length).lines.foldl (fun r x =>
    (r.1.drop x.len, hostPart r.2 x (r.1.take x.len) true)) (bs, s)).2) = _
  rw [if_neg (by omega), one]
  show Host.Outcome.next (storeAt s (hostAccess pa bs.length) (bs.take bs.length) _ 0).2 = _
  rw [List.take_length]

/-- A store to LPDDR leaves the scratchpads. -/
theorem storeAt_teams {s : State} {a : Access} {pa : Nat} (bs : List Byte) (pts x : Nat) (hl : a.loc = .glob pa)
    (hc : a.cattr = 0) :
    (storeAt s a bs pts x).2.teams = s.teams := by
  have cleared (u : State) (b : Bool) (f : Lines → Lines) : (if b then modLines u f else u).teams = u.teams := by
    cases b <;> rfl
  have visited (u : State) (l : Nat) : (sliceVisit u l).teams = u.teams := by unfold sliceVisit; split <;> rfl
  have timed (u : State) (l : Nat) : (storeTime u l pts).2.teams = u.teams := rfl
  have dirtied (u : State) (b : Bool) (f : Lines → Lines) : (if b then u else modLines u f).teams = u.teams := by
    cases b <;> rfl
  have cached : ¬ (a.cattr == 1) = true := by simp [hc]
  unfold storeAt
  rw [hl]
  dsimp only
  rw [if_neg cached]
  exact (dirtied _ _ _).trans ((timed _ _).trans ((visited _ _).trans (cleared _ _ _)))

theorem execHostCxlMemAccess_load {s : State} {pa n : Nat} (hline : pa % 128 + n ≤ 128) (hpa : pa + n ≤ 2 ^ 39) :
    ∃ s', exec (.hostCxlMemAccess pa n none) s = .next s' ∧ s'.mem = s.mem := by
  refine ⟨_, congrArg Host.Outcome.next (if_neg (by simp only; omega)), ?_⟩
  rcases Nat.eq_zero_or_pos n with rfl | hn
  · rfl
  · show ((hostAccess pa n).lines.foldl (fun r x => (r.1.drop x.len, hostPart r.2 x (r.1.take x.len) false))
      ([], s)).2.mem = s.mem
    rw [lines_within (a := hostAccess pa n) rfl hn hline]
    exact congrArg Prod.fst (loadAt_mems s 0 (hostAccess pa n) (sliceTime s (homeSlice pa)) 0 none nofun)

/-- Settles O52: each clause is the rule above for the instruction it speaks of. -/
theorem hostRegistersAndStores : Obligations.HostRegistersAndStores := by
  refine ⟨?unlistedFault, ?listedFault, walkAgain_walks, ?domcfg, ?staging, fun _ _ _ => execBar2StagingWrite_ignored,
    fun _ _ => ⟨rfl, rfl, rfl⟩, fun _ _ _ h => congrArg Host.Outcome.next (writeRegion_unlisted h), ?headRead, ?region, ?store,
    fun _ _ _ => execHostCxlMemAccess_load, ?beyond⟩
  case unlistedFault =>
    intro s w h
    show Host.Outcome.next (acknowledge s (fld w.toNat 0 11)) = _
    rw [fld_low, acknowledge_unlisted h]
  case listedFault =>
    intro s w st e h
    show Host.Outcome.next (acknowledge s (fld w.toNat 0 11)) = _
    rw [fld_low, acknowledge_listed h]
  case domcfg => exact fun s w => ⟨_, rfl, flag_eq_testBit w.toNat 31, by rw [← fld_low]; rfl⟩
  case staging =>
    intro s off bs hen hoff hwf
    have bytes := Memory.readBytes_writeBytes bs off (stagingWindow_wf hwf)
    exact ⟨_, execBar2StagingWrite_writes hen hoff, Memory.read_of_readBytes bytes,
      fun a => Memory.read_writeBytes_out bs _ _ a, stagingWindow_disabled hen⟩
  case headRead => exact fun s v => ⟨_, rfl, by simp, rfl, fun hv => if_pos hv⟩
  case region =>
    refine fun s => ⟨rfl, rfl, rfl, rfl, rfl, rfl, rfl, fun n hl hu => ?_⟩
    rw [readRegion, if_pos (by omega), statusReg_between hl hu]
    rfl
  case store =>
    intro s pa n bs hbs hline hpa hwf
    obtain ⟨bytes, others⟩ := storeAt_reads hwf (hostAccess pa bs.length) bs (sliceTime s (homeSlice pa)) 0 pa rfl
    have hm := storeAt_mems s (hostAccess pa bs.length) bs (sliceTime s (homeSlice pa)) 0 pa rfl
    exact ⟨_, execHostCxlMemAccess_store hbs hline hpa, Memory.read_of_readBytes bytes, others,
      congrArg (fun m => m.2.1) hm, storeAt_teams bs _ 0 rfl rfl⟩
  case beyond =>
    intro s pa n d h
    cases d with
    | none => exact congrArg Host.Outcome.next (if_pos h)
    | some bs => exact congrArg Host.Outcome.next (if_pos h)

end Sys2Proof.Machine
end

section
/-!
What reset holds, bring-up and the power states (R17 to R21, R469).
-/
namespace Sys2Proof.Machine
set_option Elab.async false

/-! ### Registers at their Reset values -/

section
variable {s : State}

/-- The Reset value of PWRLIM (R19), in whatever state the package is. -/
theorem pwrlim_of_reset_power {code : Nat} (h : s.dev.power = { state := code }) : pwrlim s = 2900 := by
  simp [pwrlim, h, b2n]

/-- A package in no domain (R455). -/
theorem domcfg_of_no_domain (hen : s.domain.en = false) (hpkg : s.domain.pkg = 0) : domcfg s = 0 := by
  simp [domcfg, hen, hpkg, b2n]

theorem memgroups_of_default {k : Core} (h : k = {}) : memgroups k = 2 ^ 31 + 128 * 2 ^ 16 + 128 * 2 ^ 8 := by
  subst h
  decide

theorem outRead_unlisted {o : Nat} (h : output s o = {}) (off : Nat) : outRead s o off = 0 := by
  unfold outRead
  rw [h]
  split
  · simp [Output.reg, kgetD, kget?, b2n]
  all_goals rfl

theorem ringRead_unlisted {r : Nat} (h : ringOf s r = {}) (off : Nat) : ringRead s r off = 0 := by
  unfold ringRead
  rw [h]
  split <;> rfl

end

/-- Settles O53: a register that no list names reads as its default, and the others as their fields stand. -/
theorem resetHoldsTheStatedValues : Obligations.ResetHoldsTheStatedValues :=
  ⟨⟨rfl, rfl, rfl, rfl, rfl, rfl⟩, ⟨rfl, pwrlim_of_reset_power rfl, by decide⟩, ⟨rfl, rfl, rfl, rfl, rfl, rfl⟩,
    fun _ => ⟨memgroups_of_default rfl, rfl, rfl⟩, ⟨rfl, rfl, rfl⟩, fun _ => ⟨rfl, rfl, rfl⟩,
    fun _ => outRead_unlisted rfl, fun _ => ringRead_unlisted rfl⟩

/-! ### Answering commands whose OP names none -/

/-- All but the records towards the host, the draws and the command list. -/
def besideCommands (s : State) : State :=
  { s with rings := {}, draws := 0, dev := { s.dev with commands := [], carried := 0, begun := false } }

theorem signal_besideCommands (s : State) (vec : Nat) : besideCommands (signal s vec) = besideCommands s := by
  unfold signal
  split <;> rfl

theorem record_besideCommands (s : State) (c : List Byte) (code : Nat) (value : Option Nat) :
    besideCommands (record s c code value) = besideCommands s := by
  cases value with
  | none => exact signal_besideCommands _ 0
  | some v => exact signal_besideCommands _ 0

theorem retireCmd_besideCommands (s : State) (i : Nat) : besideCommands (retireCmd s i) = besideCommands s := rfl

theorem answerUnknown_besideCommands (fuel : Nat) (s : State) : besideCommands (answerUnknown fuel s) = besideCommands s := by
  induction fuel generalizing s with
  | zero => rfl
  | succ fuel ih =>
    unfold answerUnknown
    split
    · rfl
    · split
      · rfl
      · rw [ih, retireCmd_besideCommands]
        split <;> exact record_besideCommands _ _ _ _

/-- The commands accepted before the end of bring-up leave all that is not theirs. -/
theorem serveCommands_besideCommands (s : State) : besideCommands (serveCommands s) = besideCommands s := by
  unfold serveCommands
  split
  · rfl
  · exact answerUnknown_besideCommands 64 s

/-! ### The stages of bring-up -/

/-- Change the power registers alone. -/
def modPower (s : State) (f : Power → Power) : State := modDev s (fun d => { d with power := f d.power })

section
variable {s : State} {n : Nat}

theorem atStage_of_reached (hp : s.dev.power.state = 4) (hs : s.dev.stage = n) (hf : s.dev.fail = 0) : atStage s n = true := by
  simp [atStage, hp, hs, hf]

/-- UCIe training is retried without end, so its failure is no stop. -/
theorem atStage_ucie (hp : s.dev.power.state = 4) (hs : s.dev.stage = 2) : atStage s 2 = true := by
  simp [atStage, hp, hs]

theorem atStage_outside_bringup (hp : s.dev.power.state ≠ 4) (n : Nat) : atStage s n = false := by
  simp [atStage, hp]

theorem romTraining_of_failed (hp : s.dev.power.state = 4) (hs : s.dev.stage = 1) (hf : s.dev.fail = 1) :
    romTraining s = true := by
  simp [romTraining, hp, hs, hf]

theorem romTraining_outside_bringup (hp : s.dev.power.state ≠ 4) : romTraining s = false := by
  simp [romTraining, hp]

theorem romTraining_other_stage (hs : s.dev.stage ≠ 1) : romTraining s = false := by
  simp [romTraining, hs]

/-- A stage's end in its turn has its effect. -/
theorem next_atStage (h : atStage s n = true) (a : State) :
    (Host.Outcome.next (if !atStage s n then s else a) : Host.Outcome State Fault Refusal) = .next a := by
  rw [h]
  rfl

/-- A stage's end out of its turn changes nothing. -/
theorem next_not_atStage (h : atStage s n = false) (a : State) :
    (Host.Outcome.next (if !atStage s n then s else a) : Host.Outcome State Fault Refusal) = .next s := by
  rw [h]
  rfl

theorem execUcieTraining_rom (h : romTraining s = true) (ok : Bool) : exec (.ucieTraining ok) s =
    .next (if ok then serveCommands (modPower s (fun p => { p with state := 3 })) else s) :=
  congrArg Host.Outcome.next (if_pos h)

theorem execUcieTraining_device (h : romTraining s = false) (ok : Bool) : exec (.ucieTraining ok) s =
    .next (if !atStage s 2 then s else if ok then toStage s 3 else stageFails s 2) :=
  congrArg Host.Outcome.next (if_neg (by simp [h]))

theorem execPtpLock_ready (h : atStage s 6 = true)
    (hlock : s.dev.tlock.state = 2 ∨ s.dev.stageAt + 10 * 2 ^ 30 ≤ s.dev.mono) :
    exec .ptpLock s = .next (serveCommands (leaveBringup (toStage s 7))) :=
  congrArg Host.Outcome.next (if_pos (by simpa [h] using hlock))

theorem execPtpLock_waits
    (h : atStage s 6 = false ∨ (s.dev.tlock.state ≠ 2 ∧ s.dev.mono < s.dev.stageAt + 10 * 2 ^ 30)) :
    exec .ptpLock s = .next s := by
  refine congrArg Host.Outcome.next (if_neg ?_)
  rcases h with h | ⟨hlock, htime⟩
  · simp [h]
  · simpa [hlock] using fun _ => htime

end

/-! ### Power -/

/-- The limit a write of PWRLIM stores, held to 1,200 to 2,900 W (R19). -/
def heldLimit (w : Word) : Nat := max 1200 (min 2900 (w.toNat % 2 ^ 12))

section
variable {s : State} {w : Word}

theorem execStandbyRequest_standby (h : w.toNat.testBit 31 = true) : exec (.standbyRequest w) s = .next (writePwrlim s w) :=
  congrArg Host.Outcome.next (if_pos ((flag_eq_testBit _ _).trans h))

theorem execStandbyRequest_ignored (h : w.toNat.testBit 31 = false) : exec (.standbyRequest w) s = .next s :=
  congrArg Host.Outcome.next (if_neg (by simp [flag_eq_testBit, h]))

theorem execStandbyClear_clear (h : w.toNat.testBit 31 = false) : exec (.standbyClear w) s = .next (writePwrlim s w) :=
  congrArg Host.Outcome.next (if_neg (by simp [flag_eq_testBit, h]))

theorem execStandbyClear_ignored (h : w.toNat.testBit 31 = true) : exec (.standbyClear w) s = .next s :=
  congrArg Host.Outcome.next (if_pos ((flag_eq_testBit _ _).trans h))

theorem writePwrlim_standby (h : w.toNat.testBit 31 = true) : writePwrlim s w = modPower s (fun p =>
    { p with stby := true, limit := heldLimit w }) := by
  have on : flag w.toNat 31 = true := (flag_eq_testBit _ _).trans h
  simp only [writePwrlim, on, fld_low]
  rfl

theorem writePwrlim_clear (h : w.toNat.testBit 31 = false) : writePwrlim s w = advanceGraphs (modPower s (fun p =>
    { p with stby := false, limit := heldLimit w, state := if p.state = 2 then 0 else p.state })) := by
  have off : flag w.toNat 31 = false := (flag_eq_testBit _ _).trans h
  simp [writePwrlim, modPower, heldLimit, off, fld_low]

/-- With no graph loaded, completed tasks are taken up and nothing else happens. -/
theorem advanceGraphs_of_no_graphs (h : s.dev.graphs = []) : advanceGraphs s = { s with tasksDone := [] } := by
  simp [advanceGraphs, h, List.foldl_fixed]

/-- Clearing STBY leaves STANDBY; with no graph loaded no launch follows. -/
theorem writePwrlim_clear_power (h : w.toNat.testBit 31 = false) (hg : s.dev.graphs = []) : (writePwrlim s w).dev.power =
    { s.dev.power with stby := false, limit := heldLimit w
                       state := if s.dev.power.state = 2 then 0 else s.dev.power.state } := by
  rw [writePwrlim_clear h, advanceGraphs_of_no_graphs (s := modPower s _) hg]
  rfl

theorem b2n_testBit_top (w : Word) : b2n (w.toNat.testBit 31) = w.toNat / 2 ^ 31 := by
  have fits := w.isLt
  rw [Nat.testBit_eq_decide_div_mod_eq, b2n]
  simp only [decide_eq_true_eq]
  split <;> omega

/-- PWRLIM reads as it was written, its limit held. -/
theorem pwrlim_writePwrlim (hg : s.dev.graphs = []) : pwrlim (writePwrlim s w) =
    w.toNat / 2 ^ 31 * 2 ^ 31 + heldLimit w := by
  rw [← b2n_testBit_top]
  cases h : w.toNat.testBit 31 with
  | true =>
    rw [writePwrlim_standby h]
    rfl
  | false =>
    rw [pwrlim, writePwrlim_clear_power h hg]

theorem execStandbyEntry_enters (hstby : s.dev.power.stby = true) (hrun : s.dev.power.state = 0) (hidle : deviceActive s = false)
    (hout : s.outputs.any (fun p => p.2.armed) = false) : exec .standbyEntry s =
      .next (modPower s (fun p => { p with state := 2 })) :=
  congrArg Host.Outcome.next (if_pos (by simp [hstby, hrun, hidle, hout]))

theorem execStandbyEntry_refused
    (h : s.dev.power.stby = false ∨ deviceActive s = true ∨ s.outputs.any (fun p => p.2.armed) = true) :
    exec .standbyEntry s = .next s := by
  refine congrArg Host.Outcome.next (if_neg ?_)
  rcases h with h | h | h <;> simp [h]

end

/-- Settles O51: each clause is the rule above for the step it speaks of. READY and RECOVERY also answer the commands that
waited, which leaves every register a clause names (`serveCommands_besideCommands`). -/
theorem bringUpAndPower : Obligations.BringUpAndPower := by
  refine ⟨⟨fun s => ⟨_, rfl, rfl, rfl, rfl, rfl, rfl, rfl, rfl, rfl⟩, ?verified, ?unverified, ?rom, ?ucie, ?lpddr, ?ring,
      fun s ms hp hs hf => ⟨_, next_atStage (atStage_of_reached hp hs hf) _, rfl⟩, ?ready, ?unlocked, ?outside⟩,
    ?standby, fun _ _ => execStandbyRequest_ignored, ?clear, ?clearHolds,
    fun _ _ h => congrArg Host.Outcome.next (writePwrlim_standby h), fun _ _ => execStandbyClear_ignored,
    fun _ _ hg => ⟨_, rfl, pwrlim_writePwrlim hg⟩, ?standbyEntry, fun _ => execStandbyEntry_refused, ?window⟩
  case verified => exact fun s maps hp hs hf => ⟨_, next_atStage (atStage_of_reached hp hs hf) _, rfl, hp, rfl⟩
  case unverified => exact fun s hp hs hf => ⟨_, next_atStage (atStage_of_reached hp hs hf) _, hs, rfl, hp⟩
  case rom =>
    intro s hp hs hf
    have rom := execUcieTraining_rom (romTraining_of_failed hp hs hf)
    have served := serveCommands_besideCommands (modPower s (fun p => { p with state := 3 }))
    exact ⟨rom false, _, rom true, congrArg (·.dev.power.state) served, (congrArg (·.dev.stage) served).trans hs,
      (congrArg (·.dev.fail) served).trans hf⟩
  case ucie =>
    intro s hp hs
    have device := execUcieTraining_device (romTraining_other_stage (s := s) (by omega))
    have turn := next_atStage (atStage_ucie hp hs)
    exact ⟨⟨_, (device true).trans (turn _), rfl⟩, _, (device false).trans (turn _), hs, rfl⟩
  case lpddr =>
    intro s c hp hs hf
    have turn := next_atStage (atStage_of_reached hp hs hf)
    exact ⟨⟨_, turn _, rfl⟩, _, turn _, hs, rfl⟩
  case ring =>
    intro s hp hs hf
    have turn := next_atStage (atStage_of_reached hp hs hf)
    exact ⟨⟨_, turn _, rfl⟩, _, turn _, hs, rfl⟩
  case ready =>
    intro s hp hs hf hlock
    have served := serveCommands_besideCommands (leaveBringup (toStage s 7))
    exact ⟨_, execPtpLock_ready (atStage_of_reached hp hs hf) hlock, congrArg (·.dev.stage) served,
      congrArg (·.dev.power.state) served, pwrlim_of_reset_power (congrArg (·.dev.power) served),
      domcfg_of_no_domain (congrArg (·.domain.en) served) (congrArg (·.domain.pkg) served),
      congrArg (·.outputs) served, congrArg (·.reservoir) served, congrArg (·.dev.wdog) served⟩
  case unlocked => exact fun s _ _ hlock htime => execPtpLock_waits (.inr ⟨hlock, htime⟩)
  case outside =>
    intro s b maps ms hp
    have off (n : Nat) := next_not_atStage (atStage_outside_bringup hp n)
    exact ⟨off 1 _, (execUcieTraining_device (romTraining_outside_bringup hp) b).trans (off 2 _), off 4 _, off 5 _,
      execPtpLock_waits (.inl (atStage_outside_bringup hp 6))⟩
  case standby =>
    exact fun s w h => ⟨_, (execStandbyRequest_standby h).trans (congrArg Host.Outcome.next (writePwrlim_standby h)),
      rfl, rfl, rfl⟩
  case clear =>
    intro s w h hg
    have power := writePwrlim_clear_power h hg
    exact ⟨_, execStandbyClear_clear h, congrArg (·.stby) power, congrArg (·.limit) power,
      fun hs => (congrArg (·.state) power).trans (if_pos hs)⟩
  case clearHolds =>
    intro s w h
    have clear := congrArg (Host.Outcome.next (φ := Fault) (ρ := Refusal)) (writePwrlim_clear (s := s) h)
    exact ⟨(execStandbyClear_clear h).trans clear, clear⟩
  case standbyEntry =>
    exact fun s hstby hrun hidle hout => ⟨_, execStandbyEntry_enters hstby hrun hidle hout, rfl, rfl⟩
  case window =>
    exact fun s a => ⟨_, rfl, Nat.min_le_right _ _, fun h => if_pos h, fun h => if_neg (Nat.not_lt.2 h), rfl, rfl⟩

end Sys2Proof.Machine
end

section
/-!
The words of instructions (R31, R34, R50 to R52): the encoder packs an instruction's fields, the decoder's row reads them back,
and a word whose unused fields are 0 is the one packed from the fields that its row reads.
-/
namespace Sys2Proof
set_option Elab.async false

/-! ### Packed words -/

theorem pack_cons (b v p : Nat) (fs : List (Nat × Nat)) : pack b ((v, p) :: fs) = pack (b + v * 2 ^ p) fs := rfl

theorem pack_eq_add (b : Nat) (fs : List (Nat × Nat)) : pack b fs = b + pack 0 fs := by
  induction fs generalizing b with
  | nil => rfl
  | cons f fs ih =>
    rw [pack_cons, pack_cons, ih, ih (0 + _), Nat.zero_add, Nat.add_assoc]

theorem fld_of_dvd {b lo n : Nat} (h : 2 ^ (lo + n) ∣ b) : fld b lo n = 0 := by
  obtain ⟨c, rfl⟩ := h
  rw [fld, pow_add, Nat.mul_assoc, Nat.mul_div_cancel_left _ (Nat.two_pow_pos lo), Nat.mul_mod_right]

/-- What is packed below a place does not show in the fields from that place up. -/
theorem fld_pack_below {b lo n : Nat} {fs : List (Nat × Nat)} (hb : 2 ^ lo ∣ b) (h : pack 0 fs < 2 ^ lo) :
    fld (pack b fs) lo n = fld b lo n := by
  obtain ⟨c, rfl⟩ := hb
  rw [pack_eq_add, fld, fld, Nat.mul_add_div (Nat.two_pow_pos lo), Nat.div_eq_of_lt h,
    Nat.mul_div_cancel_left _ (Nat.two_pow_pos lo), Nat.add_zero]

/-- A value put at a place of a word that holds 0 there reads back. -/
theorem fld_add_self {b v p n : Nat} (hv : v < 2 ^ n) (hb : 2 ^ (p + n) ∣ b) : fld (b + v * 2 ^ p) p n = v := by
  obtain ⟨c, rfl⟩ := hb
  rw [fld, pow_add, Nat.mul_assoc, Nat.mul_comm v, ← Nat.mul_add, Nat.mul_div_cancel_left _ (Nat.two_pow_pos p), Nat.mul_add_mod,
    Nat.mod_eq_of_lt hv]

/-! ### Fields -/

/-- A field of a word: one bit, or a number of some bits, at its lowest bit. -/
inductive WordField where
  | bit (p : Nat)
  | num (p n : Nat)

/-- A field's lowest bit and width. -/
def WordField.part : WordField → Nat × Nat
  | .bit p => (p, 1)
  | .num p n => (p, n)

/-- What a field holds. -/
def WordField.Val : WordField → Type
  | .bit _ => Bool
  | .num _ n => BitVec n

/-- The number a field's value is packed as. -/
def WordField.nat : (f : WordField) → f.Val → Nat
  | .bit _, x => Bool.toNat x
  | .num _ _, x => BitVec.toNat x

/-- A field's value in a word, as the decoder reads it. -/
def WordField.read (w : Nat) : (f : WordField) → f.Val
  | .bit p => flag w p
  | .num p n => BitVec.ofNat n (fld w p n)

/-- The values of some fields. -/
def Args : List WordField → Type
  | [] => Unit
  | f :: fs => f.Val × Args fs

/-- A function of the values of some fields. -/
def Curried (β : Type) : List WordField → Type
  | [] => β
  | f :: fs => f.Val → Curried β fs

def applyArgs {β : Type} : (fs : List WordField) → Curried β fs → Args fs → β
  | [], c, _ => c
  | _ :: fs, c, xs => applyArgs fs (c xs.1) xs.2

/-- The list that `pack` takes for the values of some fields. -/
def toPack : (fs : List WordField) → Args fs → List (Nat × Nat)
  | [], _ => []
  | f :: fs, xs => (f.nat xs.1, f.part.1) :: toPack fs xs.2

def readArgs (w : Nat) : (fs : List WordField) → Args fs
  | [] => ()
  | f :: fs => (f.read w, readArgs w fs)

/-- The fields stand one below the other, under bit `q`. -/
def stacked (q : Nat) : List WordField → Bool
  | [] => true
  | f :: fs => decide (f.part.1 + f.part.2 ≤ q) && stacked f.part.1 fs

/-- The part of a word lies under bit `q` and beside the fields. -/
def beside (q : Nat) (z : Nat × Nat) : List WordField → Bool
  | [] => decide (z.1 + z.2 ≤ q)
  | f :: fs => (decide (f.part.1 + f.part.2 ≤ z.1) && decide (z.1 + z.2 ≤ q)) || beside f.part.1 z fs

theorem WordField.nat_lt (f : WordField) (x : f.Val) : f.nat x < 2 ^ f.part.2 := by
  cases f with
  | bit p => exact Bool.toNat_lt x
  | num p n => exact BitVec.isLt x

/-- A field is read from its part of the word alone. -/
theorem WordField.read_eq_of_fld {f : WordField} {w : Nat} {x : f.Val} (h : fld w f.part.1 f.part.2 = f.nat x) : f.read w = x := by
  cases f with
  | bit p =>
    have h : w / 2 ^ p % 2 = Bool.toNat x := h
    rw [WordField.read, flag, h]
    cases x <;> rfl
  | num p n =>
    have h : fld w p n = BitVec.toNat x := h
    rw [WordField.read, h]
    exact (BitVec.ofNat_toNat n x).trans (BitVec.setWidth_eq x)

theorem toPack_lt {q : Nat} {fs : List WordField} (h : stacked q fs = true) (xs : Args fs) : pack 0 (toPack fs xs) < 2 ^ q := by
  induction fs generalizing q with
  | nil => exact Nat.two_pow_pos q
  | cons f fs ih =>
    simp only [stacked, Bool.and_eq_true, decide_eq_true_eq] at h
    obtain ⟨hq, hfs⟩ := h
    calc pack 0 (toPack (f :: fs) xs) = f.nat xs.1 * 2 ^ f.part.1 + pack 0 (toPack fs xs.2) := by
          rw [toPack, pack_cons, pack_eq_add, Nat.zero_add]
      _ < (f.nat xs.1 + 1) * 2 ^ f.part.1 := by rw [Nat.add_mul, Nat.one_mul]; exact Nat.add_lt_add_left (ih hfs xs.2) _
      _ ≤ 2 ^ f.part.2 * 2 ^ f.part.1 := Nat.mul_le_mul_right _ (f.nat_lt xs.1)
      _ = 2 ^ (f.part.1 + f.part.2) := by rw [← pow_add, Nat.add_comm]
      _ ≤ 2 ^ q := Nat.pow_le_pow_right (by decide) hq

/-- The base of a word keeps to multiples of a field's place as fields are packed into it. -/
theorem dvd_add_nat {q b p v : Nat} (hp : p ≤ q) (hb : 2 ^ q ∣ b) : 2 ^ p ∣ b + v * 2 ^ p :=
  Nat.dvd_add ((pow_dvd_pow 2 hp).trans hb) (Nat.dvd_mul_left _ _)

/-- Fields packed into a word read back. -/
theorem readArgs_pack {q b : Nat} {fs : List WordField} (h : stacked q fs = true) (hb : 2 ^ q ∣ b) (xs : Args fs) :
    readArgs (pack b (toPack fs xs)) fs = xs := by
  induction fs generalizing q b with
  | nil => rfl
  | cons f fs ih =>
    simp only [stacked, Bool.and_eq_true, decide_eq_true_eq] at h
    obtain ⟨hq, hfs⟩ := h
    have hp : 2 ^ f.part.1 ∣ b + f.nat xs.1 * 2 ^ f.part.1 := dvd_add_nat (by omega) hb
    have head : fld (pack (b + f.nat xs.1 * 2 ^ f.part.1) (toPack fs xs.2)) f.part.1 f.part.2 = f.nat xs.1 :=
      (fld_pack_below hp (toPack_lt hfs xs.2)).trans (fld_add_self (f.nat_lt xs.1) ((pow_dvd_pow 2 hq).trans hb))
    exact Prod.ext (WordField.read_eq_of_fld head) (ih hfs hp xs.2)

/-- A part beside the packed fields is 0. -/
theorem fld_pack_beside {q b : Nat} {z : Nat × Nat} {fs : List WordField} (hs : stacked q fs = true) (h : beside q z fs = true)
    (hb : 2 ^ q ∣ b) (xs : Args fs) : fld (pack b (toPack fs xs)) z.1 z.2 = 0 := by
  induction fs generalizing q b with
  | nil => exact fld_of_dvd ((pow_dvd_pow 2 (of_decide_eq_true h)).trans hb)
  | cons f fs ih =>
    simp only [beside, Bool.or_eq_true, Bool.and_eq_true, decide_eq_true_eq] at h
    rcases h with ⟨habove, hz⟩ | h
    · have hz : 2 ^ (z.1 + z.2) ∣ b := (pow_dvd_pow 2 hz).trans hb
      have hlow : pack 0 (toPack (f :: fs) xs) < 2 ^ z.1 := by
        refine toPack_lt (fs := f :: fs) ?_ xs
        simp only [stacked, Bool.and_eq_true, decide_eq_true_eq] at hs ⊢
        exact ⟨habove, hs.2⟩
      exact (fld_pack_below ((pow_dvd_pow 2 (Nat.le_add_right _ _)).trans hz) hlow).trans (fld_of_dvd hz)
    · simp only [stacked, Bool.and_eq_true, decide_eq_true_eq] at hs
      exact ih hs.2 h (dvd_add_nat (by omega) hb) xs.2
end Sys2Proof
end

section
namespace Sys2Proof
set_option Elab.async false

/-- Reading a field gives the number its part holds. -/
theorem WordField.nat_read (f : WordField) (w : Nat) : f.nat (f.read w) = fld w f.part.1 f.part.2 := by
  cases f with
  | bit p =>
    have h : w / 2 ^ p % 2 < 2 := Nat.mod_lt _ (by decide)
    show (w / 2 ^ p % 2 == 1).toNat = w / 2 ^ p % 2 ^ 1
    interval_cases w / 2 ^ p % 2 <;> rfl
  | num p n => exact (BitVec.toNat_ofNat _ _).trans (Nat.mod_mod _ _)

/-- Words whose fields read the same hold the same in the parts of the fields. -/
theorem fld_eq_of_readArgs {w w' : Nat} {fs : List WordField} (h : readArgs w fs = readArgs w' fs) :
    ∀ f ∈ fs, fld w f.part.1 f.part.2 = fld w' f.part.1 f.part.2 := by
  induction fs with
  | nil => exact fun _ hf => absurd hf List.not_mem_nil
  | cons f fs ih =>
    obtain ⟨head, tail⟩ := Prod.mk.inj h
    refine List.forall_mem_cons.2 ⟨?_, ih tail⟩
    rw [← f.nat_read, head, f.nat_read]

theorem testBit_fld (w lo n j : Nat) : (fld w lo n).testBit j = (decide (j < n) && w.testBit (lo + j)) := by
  rw [fld, Nat.testBit_mod_two_pow, Nat.testBit_div_two_pow, Nat.add_comm]

/-- Every bit of 32 lies in one of the parts. -/
def covers (zs : List (Nat × Nat)) : Bool :=
  (List.range 32).all (fun j => zs.any (fun z => decide (z.1 ≤ j) && decide (j < z.1 + z.2)))

/-- Words that hold the same in parts that cover them are the same. -/
theorem eq_of_parts {w w' : Nat} {zs : List (Nat × Nat)} (hw : w < 2 ^ 32) (hw' : w' < 2 ^ 32) (hc : covers zs = true)
    (h : ∀ z ∈ zs, fld w z.1 z.2 = fld w' z.1 z.2) : w = w' := by
  refine Nat.eq_of_testBit_eq fun j => ?_
  by_cases hj : j < 32
  · simp only [covers, List.all_eq_true, List.mem_range, List.any_eq_true, Bool.and_eq_true, decide_eq_true_eq] at hc
    obtain ⟨z, hz, hlo, hhi⟩ := hc j hj
    have bit := congrArg (Nat.testBit · (j - z.1)) (h z hz)
    simpa [testBit_fld, show j - z.1 < z.2 by omega, show z.1 + (j - z.1) = j by omega] using bit
  · have hle : 2 ^ 32 ≤ 2 ^ j := Nat.pow_le_pow_right (by decide) (by omega)
    rw [Nat.testBit_lt_two_pow (hw.trans_le hle), Nat.testBit_lt_two_pow (hw'.trans_le hle)]

/-! ### Formats of thread words -/

/-- The fields of a format under its opcode, the unused ones, and those whose use is an operand fault (R34, R51). -/
structure WordFormat where
  fields : List WordField
  zeros : List (Nat × Nat)
  misuse : List (Nat × Nat) := []
  /-- The fields stand one below the other. -/
  fieldsStacked : stacked 21 fields = true := by decide
  /-- The unused ones stand beside them. -/
  unusedBeside : ∀ z ∈ zeros ++ misuse, beside 21 z fields = true := by decide
  /-- With the switch marker and the opcode they make up the word. -/
  partsCover : covers ((31, 1) :: (21, 10) :: (zeros ++ misuse) ++ fields.map WordField.part) = true := by decide

/-- The map row of an opcode of the format. -/
def WordFormat.row (F : WordFormat) (o : Nat) (c : Bool → Curried Instr F.fields) : WordRow :=
  { opc := o, zeros := F.zeros, misuse := F.misuse, make := fun w => applyArgs F.fields (c (flag w 31)) (readArgs w F.fields) }

/-- The word of an opcode, a switch marker and fields. -/
def WordFormat.word (F : WordFormat) (o : Nat) (sw : Bool) (xs : Args F.fields) : Nat :=
  pack (o * 2 ^ 21) ((sw.toNat, 31) :: toPack F.fields xs)

theorem WordFormat.word_eq_pack (F : WordFormat) (o : Nat) (sw : Bool) (xs : Args F.fields) :
    F.word o sw xs = pack (sw.toNat * 2 ^ 31 + o * 2 ^ 21) (toPack F.fields xs) := by
  rw [WordFormat.word, pack_cons, Nat.add_comm]

theorem WordFormat.base_dvd (o : Nat) (sw : Bool) : 2 ^ 21 ∣ sw.toNat * 2 ^ 31 + o * 2 ^ 21 :=
  dvd_add_nat (q := 31) (by decide) (Nat.dvd_mul_left _ _)

/-- Every field the row leaves unused is 0. -/
def WordRow.Clean (r : WordRow) (w : Nat) : Prop := ∀ z ∈ r.zeros ++ r.misuse, fld w z.1 z.2 = 0

section
variable {F : WordFormat} {o : Nat} {c : Bool → Curried Instr F.fields} (ho : o < 1024)

/-- The fields of a word lie under its opcode. -/
theorem WordFormat.word_eq (sw : Bool) (xs : Args F.fields) :
    ∃ low < 2 ^ 21, F.word o sw xs = sw.toNat * 2 ^ 31 + o * 2 ^ 21 + low :=
  ⟨_, toPack_lt F.fieldsStacked xs, by rw [F.word_eq_pack, pack_eq_add]⟩

theorem WordFormat.readArgs_word (sw : Bool) (xs : Args F.fields) : readArgs (F.word o sw xs) F.fields = xs := by
  rw [F.word_eq_pack]
  exact readArgs_pack F.fieldsStacked (WordFormat.base_dvd o sw) xs

theorem WordFormat.clean_word (sw : Bool) (xs : Args F.fields) : (F.row o c).Clean (F.word o sw xs) := by
  intro z hz
  rw [F.word_eq_pack]
  exact fld_pack_beside F.fieldsStacked (F.unusedBeside z hz) (WordFormat.base_dvd o sw) xs

include ho

theorem WordFormat.word_lt (sw : Bool) (xs : Args F.fields) : F.word o sw xs < 2 ^ 32 := by
  obtain ⟨low, hlow, h⟩ := F.word_eq (o := o) sw xs
  have := Bool.toNat_lt sw
  omega

theorem WordFormat.opcOf_word (sw : Bool) (xs : Args F.fields) : opcOf (F.word o sw xs) = o := by
  obtain ⟨low, hlow, h⟩ := F.word_eq (o := o) sw xs
  rw [opcOf, fld]
  omega

theorem WordFormat.flag_word (sw : Bool) (xs : Args F.fields) : flag (F.word o sw xs) 31 = sw := by
  obtain ⟨low, hlow, h⟩ := F.word_eq (o := o) sw xs
  rw [flag, h]
  cases sw <;> simp only [Bool.toNat_true, Bool.toNat_false, beq_iff_eq, beq_eq_false_iff_ne] <;> omega

/-- The row reads the fields a word is packed from. -/
theorem WordFormat.make_word (sw : Bool) (xs : Args F.fields) : (F.row o c).make (F.word o sw xs) = applyArgs F.fields (c sw) xs := by
  show applyArgs F.fields (c (flag (F.word o sw xs) 31)) (readArgs (F.word o sw xs) F.fields) = _
  rw [F.flag_word ho, F.readArgs_word]

/-- A word of the opcode whose unused fields are 0 is the one packed from what its row reads. -/
theorem WordFormat.word_readArgs {w : Nat} (hw : w < 2 ^ 32) (hop : opcOf w = o) (hc : (F.row o c).Clean w) :
    F.word o (flag w 31) (readArgs w F.fields) = w := by
  refine eq_of_parts (F.word_lt ho _ _) hw F.partsCover fun z hz => ?_
  simp only [List.mem_append, List.mem_cons, List.mem_map] at hz
  rcases hz with (rfl | rfl | hz) | ⟨f, hf, rfl⟩
  · have hs := F.flag_word ho (flag w 31) (readArgs w F.fields)
    exact ((WordField.bit 31).nat_read _).symm.trans ((congrArg Bool.toNat hs).trans ((WordField.bit 31).nat_read w))
  · exact (F.opcOf_word ho _ _).trans hop.symm
  · have hz : z ∈ F.zeros ++ F.misuse := List.mem_append.2 hz
    exact (F.clean_word (c := c) _ _ z hz).trans (hc z hz).symm
  · exact fld_eq_of_readArgs (F.readArgs_word _ _) f hf
end
end Sys2Proof
end

section
namespace Sys2Proof
set_option Elab.async false

/-- NOP, RET, YIELD and others like them. -/
def WordFormat.bare : WordFormat := { fields := [], zeros := [(0, 21)] }
/-- MOV, INEG, IABS and others like them. -/
def WordFormat.dax : WordFormat := { fields := [.num 15 6, .num 9 6, .bit 2], zeros := [(0, 2), (3, 6)] }
/-- MOVI, MOVH, MOVS and others like them. -/
def WordFormat.di : WordFormat := { fields := [.num 15 6, .num 0 15], zeros := [] }
/-- IADD, ISUB, IADDC and others like them. -/
def WordFormat.dabxym : WordFormat := { fields := [.num 15 6, .num 9 6, .num 3 6, .bit 2, .bit 1, .bit 0], zeros := [] }
/-- IMUL, AND, OR and others like them. -/
def WordFormat.dabxy : WordFormat := { fields := [.num 15 6, .num 9 6, .num 3 6, .bit 2, .bit 1], zeros := [(0, 1)] }
/-- ISETP, FSETP. -/
def WordFormat.cpabxym : WordFormat := { fields := [.num 18 3, .num 15 3, .num 9 6, .num 3 6, .bit 2, .bit 1, .bit 0], zeros := [] }
/-- PLOP. -/
def WordFormat.opqrm : WordFormat := { fields := [.num 18 3, .num 15 3, .num 9 3, .num 3 3, .bit 0], zeros := [(1, 2), (6, 3), (12, 3)] }
/-- IADDI. -/
def WordFormat.daixm : WordFormat := { fields := [.num 15 6, .num 9 6, .num 2 7, .bit 1, .bit 0], zeros := [] }
/-- ANDI, ORI, XORI and others like them. -/
def WordFormat.daix : WordFormat := { fields := [.num 15 6, .num 9 6, .num 2 7, .bit 1], zeros := [(0, 1)] }
/-- ISETPI. -/
def WordFormat.cpaixm : WordFormat := { fields := [.num 18 3, .num 15 3, .num 9 6, .num 2 7, .bit 1, .bit 0], zeros := [] }
/-- FRND, XRD, DIST and others like them. -/
def WordFormat.daxm : WordFormat := { fields := [.num 15 6, .num 9 6, .bit 2, .bit 0], zeros := [(1, 1), (3, 6)] }
/-- BRA, CALL, MEETSET. -/
def WordFormat.o : WordFormat := { fields := [.num 0 21], zeros := [] }
/-- BRP. -/
def WordFormat.pno : WordFormat := { fields := [.num 18 3, .bit 17, .num 0 17], zeros := [] }
/-- BRX, CALLX, XCLR and others like them. -/
def WordFormat.ax : WordFormat := { fields := [.num 9 6, .bit 2], zeros := [(0, 2), (3, 6), (15, 6)] }
/-- LGJOIN. -/
def WordFormat.aix : WordFormat := { fields := [.num 9 6, .num 2 7, .bit 1], zeros := [(0, 1), (15, 6)] }
/-- LGWAIT, LGDROP. -/
def WordFormat.axLig : WordFormat := { fields := [.num 9 6, .bit 1], zeros := [(0, 1), (2, 7), (15, 6)] }
/-- REGROUP, XACC, XACCP and others like them. -/
def WordFormat.abxy : WordFormat := { fields := [.num 9 6, .num 3 6, .bit 2, .bit 1], zeros := [(0, 1), (15, 6)] }
/-- PAUSE. -/
def WordFormat.i : WordFormat := { fields := [.num 2 7], zeros := [(0, 2), (9, 12)] }
/-- LDG, LDS, LDP and others like them. -/
def WordFormat.tazgex : WordFormat := { fields := [.num 15 6, .num 9 6, .num 6 3, .bit 5, .bit 4, .bit 3], zeros := [(0, 3)] }
/-- STG, STS, STP and others like them. -/
def WordFormat.tazgx : WordFormat := { fields := [.num 15 6, .num 9 6, .num 6 3, .bit 5, .bit 3], zeros := [(0, 3)], misuse := [(4, 1)] }
/-- LDW. -/
def WordFormat.tazex : WordFormat := { fields := [.num 15 6, .num 9 6, .num 6 3, .bit 4, .bit 3], zeros := [(0, 3)], misuse := [(5, 1)] }
/-- PREF. -/
def WordFormat.azx : WordFormat := { fields := [.num 9 6, .num 6 3, .bit 3], zeros := [(0, 3), (15, 6)], misuse := [(4, 1), (5, 1)] }
/-- PIN, UNPIN. -/
def WordFormat.tazx : WordFormat := { fields := [.num 15 6, .num 9 6, .num 6 3, .bit 3], zeros := [(0, 3)], misuse := [(4, 1), (5, 1)] }
/-- BAR. -/
def WordFormat.ir : WordFormat := { fields := [.num 5 4, .num 2 3], zeros := [(0, 2), (9, 12)] }
/-- BARA. -/
def WordFormat.dir : WordFormat := { fields := [.num 15 6, .num 5 4, .num 2 3], zeros := [(0, 2), (9, 6)] }
/-- BARW. -/
def WordFormat.aixBar : WordFormat := { fields := [.num 9 6, .num 5 4, .bit 1], zeros := [(0, 1), (2, 3), (15, 6)] }
/-- FDSTOP. -/
def WordFormat.dc : WordFormat := { fields := [.num 15 6, .num 2 3], zeros := [(0, 2), (5, 10)] }
/-- KLD, KST, KBLD and others like them. -/
def WordFormat.tax : WordFormat := { fields := [.num 15 6, .num 9 6, .bit 3], zeros := [(0, 3)], misuse := [(4, 1), (5, 1), (6, 3)] }
/-- KZERO. -/
def WordFormat.dnm : WordFormat := { fields := [.num 15 6, .num 2 2, .bit 0], zeros := [(1, 1), (4, 11)] }
/-- KCVT, KBMP. -/
def WordFormat.dabym : WordFormat := { fields := [.num 15 6, .num 9 6, .num 3 6, .bit 1, .bit 0], zeros := [(2, 1)] }
/-- MMAE. -/
def WordFormat.axm : WordFormat := { fields := [.num 9 6, .bit 2, .bit 0], zeros := [(1, 1), (3, 6), (15, 6)] }
/-- ACCZ. -/
def WordFormat.k : WordFormat := { fields := [.bit 2], zeros := [(0, 2), (3, 18)] }
/-- ACCSPL, ACCFIL. -/
def WordFormat.akx : WordFormat := { fields := [.num 9 6, .bit 2, .bit 1], zeros := [(0, 1), (3, 6), (15, 6)] }
/-- TNOW, TBUDG. -/
def WordFormat.d : WordFormat := { fields := [.num 15 6], zeros := [(0, 15)] }
/-- TDEAD. -/
def WordFormat.dby : WordFormat := { fields := [.num 15 6, .num 3 6, .bit 1], zeros := [(0, 1), (2, 1), (9, 6)] }
/-- SRATE. -/
def WordFormat.danox : WordFormat := { fields := [.num 15 6, .num 9 6, .bit 4, .num 2 2, .bit 1], zeros := [(0, 1), (5, 4)] }

/-- The instruction is packed from a switch marker and fields, and the map row of the opcode reads fields of that format. -/
inductive Mapped (o : Nat) : Instr → Prop
  | of (F : WordFormat) (c : Bool → Curried Instr F.fields) (sw : Bool) (xs : Args F.fields)
      (row : rowOf o = some (F.row o c) := by rfl)
      (word : ∀ sw xs, encode (applyArgs F.fields (c sw) xs) = [F.word o sw xs] := by exact fun _ _ => rfl) :
      Mapped o (applyArgs F.fields (c sw) xs)

/-- Every thread word but the EXT words is mapped. -/
theorem mapped_of_opcode {i : Instr} {o : Nat} (ho : opcode? i = some o) (hne : o ≠ 0x3FF) : Mapped o i := by
  cases i <;> cases ho
  case extControlForm => exact absurd rfl hne
  case extImmediateForm => exact absurd rfl hne
  case nop sw => exact .of .bare Instr.nop sw ()
  case mov sw d a x => exact .of .dax Instr.mov sw (d, a, x, ())
  case movi sw d i => exact .of .di Instr.movi sw (d, i, ())
  case movh sw d i => exact .of .di Instr.movh sw (d, i, ())
  case movs sw d i => exact .of .di Instr.movs sw (d, i, ())
  case iadd sw d a b x y m => exact .of .dabxym Instr.iadd sw (d, a, b, x, y, m, ())
  case isub sw d a b x y m => exact .of .dabxym Instr.isub sw (d, a, b, x, y, m, ())
  case iaddc sw d a b x y m => exact .of .dabxym Instr.iaddc sw (d, a, b, x, y, m, ())
  case imul sw d a b x y => exact .of .dabxy Instr.imul sw (d, a, b, x, y, ())
  case imulh sw d a b x y m => exact .of .dabxym Instr.imulh sw (d, a, b, x, y, m, ())
  case imad sw d a b x y m => exact .of .dabxym Instr.imad sw (d, a, b, x, y, m, ())
  case idiv sw d a b x y m => exact .of .dabxym Instr.idiv sw (d, a, b, x, y, m, ())
  case irem sw d a b x y m => exact .of .dabxym Instr.irem sw (d, a, b, x, y, m, ())
  case ineg sw d a x => exact .of .dax Instr.ineg sw (d, a, x, ())
  case iabs sw d a x => exact .of .dax Instr.iabs sw (d, a, x, ())
  case imin sw d a b x y m => exact .of .dabxym Instr.imin sw (d, a, b, x, y, m, ())
  case imax sw d a b x y m => exact .of .dabxym Instr.imax sw (d, a, b, x, y, m, ())
  case and sw d a b x y => exact .of .dabxy Instr.and sw (d, a, b, x, y, ())
  case or sw d a b x y => exact .of .dabxy Instr.or sw (d, a, b, x, y, ())
  case xor sw d a b x y => exact .of .dabxy Instr.xor sw (d, a, b, x, y, ())
  case not sw d a x => exact .of .dax Instr.not sw (d, a, x, ())
  case andn sw d a b x y => exact .of .dabxy Instr.andn sw (d, a, b, x, y, ())
  case shl sw d a b x y => exact .of .dabxy Instr.shl sw (d, a, b, x, y, ())
  case shr sw d a b x y => exact .of .dabxy Instr.shr sw (d, a, b, x, y, ())
  case sar sw d a b x y => exact .of .dabxy Instr.sar sw (d, a, b, x, y, ())
  case rot sw d a b x y m => exact .of .dabxym Instr.rot sw (d, a, b, x, y, m, ())
  case bfx sw d a b x y m => exact .of .dabxym Instr.bfx sw (d, a, b, x, y, m, ())
  case bfi sw d a b x y => exact .of .dabxy Instr.bfi sw (d, a, b, x, y, ())
  case popc sw d a x => exact .of .dax Instr.popc sw (d, a, x, ())
  case clz sw d a x => exact .of .dax Instr.clz sw (d, a, x, ())
  case brev sw d a x => exact .of .dax Instr.brev sw (d, a, x, ())
  case isetp sw c p a b x y m => exact .of .cpabxym Instr.isetp sw (c, p, a, b, x, y, m, ())
  case sel sw d a b x y m => exact .of .dabxym Instr.sel sw (d, a, b, x, y, m, ())
  case plop sw o p q r m => exact .of .opqrm Instr.plop sw (o, p, q, r, m, ())
  case lea sw d a b x y m => exact .of .dabxym Instr.lea sw (d, a, b, x, y, m, ())
  case add64 sw d a b x y m => exact .of .dabxym Instr.add64 sw (d, a, b, x, y, m, ())
  case idp4 sw d a b x y m => exact .of .dabxym Instr.idp4 sw (d, a, b, x, y, m, ())
  case mix32 sw d a b x y => exact .of .dabxy Instr.mix32 sw (d, a, b, x, y, ())
  case iaddi sw d a i x m => exact .of .daixm Instr.iaddi sw (d, a, i, x, m, ())
  case andi sw d a i x => exact .of .daix Instr.andi sw (d, a, i, x, ())
  case ori sw d a i x => exact .of .daix Instr.ori sw (d, a, i, x, ())
  case xori sw d a i x => exact .of .daix Instr.xori sw (d, a, i, x, ())
  case shli sw d a i x => exact .of .daix Instr.shli sw (d, a, i, x, ())
  case shri sw d a i x => exact .of .daix Instr.shri sw (d, a, i, x, ())
  case sari sw d a i x => exact .of .daix Instr.sari sw (d, a, i, x, ())
  case isetpi sw c p a i x m => exact .of .cpaixm Instr.isetpi sw (c, p, a, i, x, m, ())
  case fadd sw d a b x y => exact .of .dabxy Instr.fadd sw (d, a, b, x, y, ())
  case fsub sw d a b x y => exact .of .dabxy Instr.fsub sw (d, a, b, x, y, ())
  case fmul sw d a b x y => exact .of .dabxy Instr.fmul sw (d, a, b, x, y, ())
  case fmad sw d a b x y m => exact .of .dabxym Instr.fmad sw (d, a, b, x, y, m, ())
  case fmin sw d a b x y => exact .of .dabxy Instr.fmin sw (d, a, b, x, y, ())
  case fmax sw d a b x y => exact .of .dabxy Instr.fmax sw (d, a, b, x, y, ())
  case fneg sw d a x => exact .of .dax Instr.fneg sw (d, a, x, ())
  case fabs sw d a x => exact .of .dax Instr.fabs sw (d, a, x, ())
  case fsetp sw c p a b x y m => exact .of .cpabxym Instr.fsetp sw (c, p, a, b, x, y, m, ())
  case fdiv sw d a b x y => exact .of .dabxy Instr.fdiv sw (d, a, b, x, y, ())
  case frcp sw d a x => exact .of .dax Instr.frcp sw (d, a, x, ())
  case fsqrt sw d a x => exact .of .dax Instr.fsqrt sw (d, a, x, ())
  case frsq sw d a x => exact .of .dax Instr.frsq sw (d, a, x, ())
  case fexp2 sw d a x => exact .of .dax Instr.fexp2 sw (d, a, x, ())
  case flog2 sw d a x => exact .of .dax Instr.flog2 sw (d, a, x, ())
  case fsinpi sw d a x => exact .of .dax Instr.fsinpi sw (d, a, x, ())
  case fcospi sw d a x => exact .of .dax Instr.fcospi sw (d, a, x, ())
  case frnd sw d a x m => exact .of .daxm Instr.frnd sw (d, a, x, m, ())
  case fclass sw d a x => exact .of .dax Instr.fclass sw (d, a, x, ())
  case fscale sw d a b x y => exact .of .dabxy Instr.fscale sw (d, a, b, x, y, ())
  case fexpo sw d a x => exact .of .dax Instr.fexpo sw (d, a, x, ())
  case twosum sw d a b x y => exact .of .dabxy Instr.twosum sw (d, a, b, x, y, ())
  case padd sw d a b x y => exact .of .dabxy Instr.padd sw (d, a, b, x, y, ())
  case prd sw d a x => exact .of .dax Instr.prd sw (d, a, x, ())
  case hadd2 sw d a b x y m => exact .of .dabxym Instr.hadd2 sw (d, a, b, x, y, m, ())
  case hmul2 sw d a b x y m => exact .of .dabxym Instr.hmul2 sw (d, a, b, x, y, m, ())
  case hfma2 sw d a b x y m => exact .of .dabxym Instr.hfma2 sw (d, a, b, x, y, m, ())
  case cvtfi sw d a b x y m => exact .of .dabxym Instr.cvtfi sw (d, a, b, x, y, m, ())
  case cvtif sw d a b x y m => exact .of .dabxym Instr.cvtif sw (d, a, b, x, y, m, ())
  case cvtff sw d a b x y => exact .of .dabxy Instr.cvtff sw (d, a, b, x, y, ())
  case nxel sw d a b x y => exact .of .dabxy Instr.nxel sw (d, a, b, x, y, ())
  case mxel sw d a b x y => exact .of .dabxy Instr.mxel sw (d, a, b, x, y, ())
  case fmtchk sw d a x => exact .of .dax Instr.fmtchk sw (d, a, x, ())
  case bra sw o => exact .of .o Instr.bra sw (o, ())
  case brp sw p n o => exact .of .pno Instr.brp sw (p, n, o, ())
  case brx sw a x => exact .of .ax Instr.brx sw (a, x, ())
  case call sw o => exact .of .o Instr.call sw (o, ())
  case callx sw a x => exact .of .ax Instr.callx sw (a, x, ())
  case ret sw => exact .of .bare Instr.ret sw ()
  case lgjoin sw a i x => exact .of .aix Instr.lgjoin sw (a, i, x, ())
  case lgwait sw a x => exact .of .axLig Instr.lgwait sw (a, x, ())
  case lgdrop sw a x => exact .of .axLig Instr.lgdrop sw (a, x, ())
  case lgread sw d a i x => exact .of .daix Instr.lgread sw (d, a, i, x, ())
  case meetset sw o => exact .of .o Instr.meetset sw (o, ())
  case regroup sw a b x y => exact .of .abxy Instr.regroup sw (a, b, x, y, ())
  case yield sw => exact .of .bare Instr.yield sw ()
  case pause sw i => exact .of .i Instr.pause sw (i, ())
  case exit sw => exact .of .bare Instr.exit sw ()
  case launch sw d a x => exact .of .dax Instr.launch sw (d, a, x, ())
  case rxch sw d a b x y m => exact .of .dabxym Instr.rxch sw (d, a, b, x, y, m, ())
  case rbcast sw d a b x y m => exact .of .dabxym Instr.rbcast sw (d, a, b, x, y, m, ())
  case rred sw d a b x y m => exact .of .dabxym Instr.rred sw (d, a, b, x, y, m, ())
  case rvote sw d a b x y m => exact .of .dabxym Instr.rvote sw (d, a, b, x, y, m, ())
  case ldg sw t a z g e x => exact .of .tazgex Instr.ldg sw (t, a, z, g, e, x, ())
  case stg sw t a z g x => exact .of .tazgx Instr.stg sw (t, a, z, g, x, ())
  case lds sw t a z g e x => exact .of .tazgex Instr.lds sw (t, a, z, g, e, x, ())
  case sts sw t a z g x => exact .of .tazgx Instr.sts sw (t, a, z, g, x, ())
  case ldp sw t a z g e x => exact .of .tazgex Instr.ldp sw (t, a, z, g, e, x, ())
  case stp sw t a z g x => exact .of .tazgx Instr.stp sw (t, a, z, g, x, ())
  case ldc sw t a z g e x => exact .of .tazgex Instr.ldc sw (t, a, z, g, e, x, ())
  case stc sw t a z g x => exact .of .tazgx Instr.stc sw (t, a, z, g, x, ())
  case ldw sw t a z e x => exact .of .tazex Instr.ldw sw (t, a, z, e, x, ())
  case pref sw a z x => exact .of .azx Instr.pref sw (a, z, x, ())
  case pin sw t a z x => exact .of .tazx Instr.pin sw (t, a, z, x, ())
  case unpin sw t a z x => exact .of .tazx Instr.unpin sw (t, a, z, x, ())
  case atom sw d a b x y m => exact .of .dabxym Instr.atom sw (d, a, b, x, y, m, ())
  case atomc sw d a b x y m => exact .of .dabxym Instr.atomc sw (d, a, b, x, y, m, ())
  case atomf sw d a b x y m => exact .of .dabxym Instr.atomf sw (d, a, b, x, y, m, ())
  case xacc sw a b x y => exact .of .abxy Instr.xacc sw (a, b, x, y, ())
  case xaccp sw a b x y => exact .of .abxy Instr.xaccp sw (a, b, x, y, ())
  case xrd sw d a x m => exact .of .daxm Instr.xrd sw (d, a, x, m, ())
  case xclr sw a x => exact .of .ax Instr.xclr sw (a, x, ())
  case fence sw => exact .of .bare Instr.fence sw ()
  case fencew sw => exact .of .bare Instr.fencew sw ()
  case bar sw i r => exact .of .ir Instr.bar sw (i, r, ())
  case bara sw d i r => exact .of .dir Instr.bara sw (d, i, r, ())
  case barw sw a i x => exact .of .aixBar Instr.barw sw (a, i, x, ())
  case arm sw d a b x y m => exact .of .dabxym Instr.arm sw (d, a, b, x, y, m, ())
  case arrv sw a b x y => exact .of .abxy Instr.arrv sw (a, b, x, y, ())
  case arwait sw d a b x y => exact .of .dabxy Instr.arwait sw (d, a, b, x, y, ())
  case arread sw d a x => exact .of .dax Instr.arread sw (d, a, x, ())
  case qpush sw d a b x y => exact .of .dabxy Instr.qpush sw (d, a, b, x, y, ())
  case qpop sw d a x => exact .of .dax Instr.qpop sw (d, a, x, ())
  case qtry sw d a x => exact .of .dax Instr.qtry sw (d, a, x, ())
  case qlen sw d a x => exact .of .dax Instr.qlen sw (d, a, x, ())
  case dist sw d a x m => exact .of .daxm Instr.dist sw (d, a, x, m, ())
  case sbset sw d a i x => exact .of .daix Instr.sbset sw (d, a, i, x, ())
  case sbqry sw d a x => exact .of .dax Instr.sbqry sw (d, a, x, ())
  case cpy sw a x => exact .of .ax Instr.cpy sw (a, x, ())
  case cpy2d sw a x => exact .of .ax Instr.cpy2d sw (a, x, ())
  case cpym sw a x => exact .of .ax Instr.cpym sw (a, x, ())
  case cpyr sw a x => exact .of .ax Instr.cpyr sw (a, x, ())
  case cpyq sw d a x => exact .of .dax Instr.cpyq sw (d, a, x, ())
  case cpyx sw d a x => exact .of .dax Instr.cpyx sw (d, a, x, ())
  case cpyf sw a x => exact .of .ax Instr.cpyf sw (a, x, ())
  case rlqry sw d a x => exact .of .dax Instr.rlqry sw (d, a, x, ())
  case fdstart sw d a x => exact .of .dax Instr.fdstart sw (d, a, x, ())
  case fdstop sw d c => exact .of .dc Instr.fdstop sw (d, c, ())
  case fdstat sw d a x => exact .of .dax Instr.fdstat sw (d, a, x, ())
  case kld sw t a x => exact .of .tax Instr.kld sw (t, a, x, ())
  case kst sw t a x => exact .of .tax Instr.kst sw (t, a, x, ())
  case kzero sw d n m => exact .of .dnm Instr.kzero sw (d, n, m, ())
  case kcvt sw d a b y m => exact .of .dabym Instr.kcvt sw (d, a, b, y, m, ())
  case kbmp sw d a b y m => exact .of .dabym Instr.kbmp sw (d, a, b, y, m, ())
  case kbld sw t a x => exact .of .tax Instr.kbld sw (t, a, x, ())
  case kbst sw t a x => exact .of .tax Instr.kbst sw (t, a, x, ())
  case mmae sw a x m => exact .of .axm Instr.mmae sw (a, x, m, ())
  case mmac sw d a b x y m => exact .of .dabxym Instr.mmac sw (d, a, b, x, y, m, ())
  case accz sw k => exact .of .k Instr.accz sw (k, ())
  case accrd sw d a b x y m => exact .of .dabxym Instr.accrd sw (d, a, b, x, y, m, ())
  case accspl sw a k x => exact .of .akx Instr.accspl sw (a, k, x, ())
  case accfil sw a k x => exact .of .akx Instr.accfil sw (a, k, x, ())
  case mqry sw d a x => exact .of .dax Instr.mqry sw (d, a, x, ())
  case pbin sw d a b x y => exact .of .dabxy Instr.pbin sw (d, a, b, x, y, ())
  case pbend sw => exact .of .bare Instr.pbend sw ()
  case hsrnext sw d a b x y => exact .of .dabxy Instr.hsrnext sw (d, a, b, x, y, ())
  case ipa sw d a b x y m => exact .of .dabxym Instr.ipa sw (d, a, b, x, y, m, ())
  case fragw sw a b x y => exact .of .abxy Instr.fragw sw (a, b, x, y, ())
  case splat sw d a b x y => exact .of .dabxy Instr.splat sw (d, a, b, x, y, ())
  case splatend sw => exact .of .bare Instr.splatend sw ()
  case stiprun sw d a b x y => exact .of .dabxy Instr.stiprun sw (d, a, b, x, y, ())
  case stiprd sw d a x => exact .of .dax Instr.stiprd sw (d, a, x, ())
  case raynew sw d a x => exact .of .dax Instr.raynew sw (d, a, x, ())
  case rayset sw d a b x y => exact .of .dabxy Instr.rayset sw (d, a, b, x, y, ())
  case raygo sw a x => exact .of .ax Instr.raygo sw (a, x, ())
  case raywait sw d a x => exact .of .dax Instr.raywait sw (d, a, x, ())
  case rayget sw d a b x y => exact .of .dabxy Instr.rayget sw (d, a, b, x, y, ())
  case rayfree sw a x => exact .of .ax Instr.rayfree sw (a, x, ())
  case verdict sw a b x y => exact .of .abxy Instr.verdict sw (a, b, x, y, ())
  case raycb sw d a x => exact .of .dax Instr.raycb sw (d, a, x, ())
  case tnow sw d => exact .of .d Instr.tnow sw (d, ())
  case twait sw a x => exact .of .ax Instr.twait sw (a, x, ())
  case tdead sw d b y => exact .of .dby Instr.tdead sw (d, b, y, ())
  case tbudg sw d => exact .of .d Instr.tbudg sw (d, ())
  case scommit sw d a b x y m => exact .of .dabxym Instr.scommit sw (d, a, b, x, y, m, ())
  case shalo sw d a b x y => exact .of .dabxy Instr.shalo sw (d, a, b, x, y, ())
  case jobend sw => exact .of .bare Instr.jobend sw ()
  case srate sw d a n o x => exact .of .danox Instr.srate sw (d, a, n, o, x, ())
  case trap sw d i => exact .of .di Instr.trap sw (d, i, ())
  case rte sw => exact .of .bare Instr.rte sw ()
  case srd sw d i => exact .of .di Instr.srd sw (d, i, ())
  case swr sw d i => exact .of .di Instr.swr sw (d, i, ())
  case dtload sw d a x m => exact .of .daxm Instr.dtload sw (d, a, x, m, ())
  case sealq sw d a x => exact .of .dax Instr.sealq sw (d, a, x, ())
  case halt sw => exact .of .bare Instr.halt sw ()
  case errinj sw a b x y => exact .of .abxy Instr.errinj sw (a, b, x, y, ())
  case tlbinv sw d a b x y => exact .of .dabxy Instr.tlbinv sw (d, a, b, x, y, ())
  case xbpark sw d a b x y => exact .of .dabxy Instr.xbpark sw (d, a, b, x, y, ())
  case xbwake sw d a x => exact .of .dax Instr.xbwake sw (d, a, x, ())
  case xbstat sw d a x => exact .of .dax Instr.xbstat sw (d, a, x, ())
  case lkstat sw d a x => exact .of .dax Instr.lkstat sw (d, a, x, ())
end Sys2Proof
end

section
namespace Sys2Proof
set_option Elab.async false

/-! ### The decoder -/

theorem operandError_eq_none {i : Instr} : operandError i = none ↔ WellFormed i = true := by
  unfold operandError WellFormed
  cases reservedOperand i <;> cases operandsOk i <;> simp

/-- A row that judges the size of an operand wants it 0. -/
theorem misuse_of_three_bits :
    ∀ r ∈ wordRows, r.misuse.any (fun z => z.2 == 3) = true → (6, 3) ∈ r.misuse := by decide +kernel

/-- A word under an opcode other than EXT stands for what its row reads, where its unused fields are 0 and its operands legal. -/
theorem decodeWord_eq_ok {w : Nat} {i : Instr} (hne : opcOf w ≠ 0x3FF) :
    decodeWord w = .ok i ↔ ∃ r, rowOf (opcOf w) = some r ∧ r.Clean w ∧ r.make w = i ∧ WellFormed i = true := by
  have hext : (opcOf w == 0x3FF) = false := beq_eq_false_iff_ne.2 hne
  unfold decodeWord
  rw [hext]
  cases hr : rowOf (opcOf w) with
  | none => simp
  | some r =>
    have hclean : r.Clean w ↔ (r.zeros.any (fun z => fld w z.1 z.2 != 0)
          || (r.misuse.any (fun z => z.2 == 3) && decide (5 ≤ fld w 6 3))) = false
        ∧ r.misuse.any (fun z => fld w z.1 z.2 != 0) = false := by
      have hsize := misuse_of_three_bits r (List.mem_of_find?_eq_some hr)
      simp only [WordRow.Clean, List.forall_mem_append, Bool.or_eq_false_iff, Bool.and_eq_false_imp, List.any_eq_false, bne_iff_ne,
        ne_eq, not_not, decide_eq_false_iff_not]
      refine ⟨fun ⟨hz, hm⟩ => ⟨⟨hz, fun h => ?_⟩, hm⟩, fun ⟨⟨hz, _⟩, hm⟩ => ⟨hz, hm⟩⟩
      rw [hm _ (hsize h)]
      decide
    simp only [Bool.false_eq_true, if_false, Option.some.injEq, exists_eq_left', hclean, ← operandError_eq_none]
    cases (r.zeros.any (fun z => fld w z.1 z.2 != 0) || (r.misuse.any (fun z => z.2 == 3) && decide (5 ≤ fld w 6 3))) with
    | true => simp
    | false =>
      cases r.misuse.any (fun z => fld w z.1 z.2 != 0) with
      | true => simp
      | false => cases he : operandError (r.make w) <;> simp <;> rintro rfl <;> simp [he]

/-! ### Thread words but EXT -/

theorem opcode_lt {i : Instr} {o : Nat} (ho : opcode? i = some o) : o < 1024 := by
  cases i <;> cases ho <;> omega

theorem decodeWord_of_mapped {o w : Nat} {i : Instr} (h : Mapped o i) (ho : o < 1024) (hne : o ≠ 0x3FF) (hwf : WellFormed i = true)
    (he : encode i = [w]) : w < 2 ^ 32 ∧ decodeWord w = .ok i := by
  obtain ⟨F, c, sw, xs, row, word⟩ := h
  obtain rfl : F.word o sw xs = w := by simpa [word] using he
  have hop := F.opcOf_word ho sw xs
  exact ⟨F.word_lt ho sw xs, (decodeWord_eq_ok (hop.trans_ne hne)).2
    ⟨_, (congrArg rowOf hop).trans row, F.clean_word sw xs, F.make_word ho sw xs, hwf⟩⟩

/-- A row of the map reads instructions of its own opcode. -/
theorem opcode_make_zero : ∀ r ∈ wordRows, opcode? (r.make 0) = some r.opc ∧ r.opc ≠ 0x3FF := by decide +kernel

theorem encode_of_row {w : Nat} {r : WordRow} (hw : w < 2 ^ 32) (hr : rowOf (opcOf w) = some r) (hc : r.Clean w) :
    encode (r.make w) = [w] := by
  have hopc : r.opc = opcOf w := by simpa using List.find?_some hr
  obtain ⟨hmake, hne⟩ := opcode_make_zero r (List.mem_of_find?_eq_some hr)
  rw [hopc] at hmake hne
  generalize r.make 0 = i at hmake
  obtain ⟨F, c, sw, xs, row, word⟩ := mapped_of_opcode hmake hne
  obtain rfl : r = F.row (opcOf w) c := Option.some.inj (hr.symm.trans row)
  exact (word _ _).trans (congrArg (fun v => [v]) (F.word_readArgs (opcode_lt hmake) hw rfl hc))

/-! ### EXT words -/

/-- EXT, control form: the fields under a clear bit 20 (R39). -/
def WordFormat.extControl : WordFormat :=
  { fields := [.num 17 3, .bit 16, .bit 15, .num 12 3, .bit 11, .num 5 6, .bit 4], zeros := [(20, 1), (0, 4)] }

/-- EXT, immediate form: bit 20 and the immediate (R39). -/
def WordFormat.extImmediate : WordFormat := { fields := [.bit 20, .num 0 20], zeros := [] }

theorem WordFormat.word_unmarked (F : WordFormat) (o : Nat) (xs : Args F.fields) :
    F.word o false xs = pack (o * 2 ^ 21) (toPack F.fields xs) := by
  rw [WordFormat.word, pack_cons, Bool.toNat_false, Nat.zero_mul, Nat.add_zero]

/-- The EXT word of a control form's fields. -/
def extControlOf (xs : Args WordFormat.extControl.fields) : Instr := applyArgs WordFormat.extControl.fields .extControlForm xs

/-- The EXT word of bit 20 and an immediate. -/
def extImmediateOf (xs : Args WordFormat.extImmediate.fields) : Instr := .extImmediateForm xs.2.1

theorem encode_extControl (xs : Args WordFormat.extControl.fields) :
    encode (extControlOf xs) = [WordFormat.extControl.word 0x3FF false xs] := by
  rw [WordFormat.word_unmarked]
  rfl

theorem encode_extImmediate {xs : Args WordFormat.extImmediate.fields} (h : xs.1 = true) :
    encode (extImmediateOf xs) = [WordFormat.extImmediate.word 0x3FF false xs] := by
  have low : toPack WordFormat.extImmediate.fields xs = [(xs.1.toNat, 20), (BitVec.toNat xs.2.1, 0)] := rfl
  rw [WordFormat.word_unmarked, low, h, pack_cons]
  rfl

theorem fld_bit_eq_zero {w p : Nat} : fld w p 1 = 0 ↔ flag w p = false := by
  have := Nat.mod_lt (w / 2 ^ p) (show 0 < 2 by decide)
  simp only [fld, flag, pow_one, beq_eq_false_iff_ne]
  omega

theorem decodeWord_ext {w : Nat} (h : opcOf w = 0x3FF) : decodeWord w = decodeExt w := by
  simp only [decodeWord, h, beq_self_eq_true, if_true]

theorem decodeExt_eq_ok {w : Nat} {i : Instr} : decodeExt w = .ok i ↔ flag w 31 = false ∧
    if flag w 20 then extImmediateOf (readArgs w _) = i else fld w 0 4 = 0 ∧ extControlOf (readArgs w _) = i := by
  unfold decodeExt
  cases flag w 31 with
  | true => simp
  | false =>
    cases flag w 20 with
    | true => simp only [Bool.false_eq_true, if_false, if_true, true_and, Except.ok.injEq]; rfl
    | false =>
      by_cases h : fld w 0 4 = 0
      · simp only [h, Bool.false_eq_true, if_false, true_and, bne_self_eq_false, Except.ok.injEq]; rfl
      · simp [h]

theorem decodeWord_extControl (xs : Args WordFormat.extControl.fields) :
    decodeWord (WordFormat.extControl.word 0x3FF false xs) = .ok (extControlOf xs) := by
  have hc := WordFormat.extControl.clean_word (o := 0x3FF) (c := fun _ => .extControlForm) false xs
  have h20 := fld_bit_eq_zero.1 (hc (20, 1) (by decide))
  rw [decodeWord_ext (WordFormat.extControl.opcOf_word (by decide) ..), decodeExt_eq_ok, h20]
  exact ⟨WordFormat.extControl.flag_word (by decide) .., hc (0, 4) (by decide),
    congrArg extControlOf (WordFormat.extControl.readArgs_word ..)⟩

theorem decodeWord_extImmediate {xs : Args WordFormat.extImmediate.fields} (h : xs.1 = true) :
    decodeWord (WordFormat.extImmediate.word 0x3FF false xs) = .ok (extImmediateOf xs) := by
  have read := WordFormat.extImmediate.readArgs_word (o := 0x3FF) false xs
  have h20 : flag (WordFormat.extImmediate.word 0x3FF false xs) 20 = true := (congrArg Prod.fst read).trans h
  rw [decodeWord_ext (WordFormat.extImmediate.opcOf_word (by decide) ..), decodeExt_eq_ok, h20]
  exact ⟨WordFormat.extImmediate.flag_word (by decide) .., congrArg extImmediateOf read⟩

/-- An EXT word that decodes is the one its instruction packs. -/
theorem encode_of_decodeExt {w : Nat} {i : Instr} (hw : w < 2 ^ 32) (hop : opcOf w = 0x3FF) (h : decodeExt w = .ok i) :
    encode i = [w] := by
  obtain ⟨h31, h⟩ := decodeExt_eq_ok.1 h
  cases h20 : flag w 20 with
  | true =>
    obtain rfl : extImmediateOf (readArgs w _) = i := by simpa [h20] using h
    rw [encode_extImmediate h20, ← h31]
    exact congrArg (fun v => [v]) (WordFormat.extImmediate.word_readArgs (c := fun _ _ => .extImmediateForm) (by decide) hw hop
      (fun _ hz => absurd hz List.not_mem_nil))
  | false =>
    obtain ⟨hlow, rfl⟩ : fld w 0 4 = 0 ∧ extControlOf (readArgs w _) = i := by simpa [h20] using h
    have hc : (WordFormat.extControl.row 0x3FF fun _ => .extControlForm).Clean w := by
      simp [WordRow.Clean, WordFormat.row, WordFormat.extControl, hlow, fld_bit_eq_zero, h20]
    rw [encode_extControl, ← h31]
    exact congrArg (fun v => [v]) (WordFormat.extControl.word_readArgs (by decide) hw hop hc)

/-! ### Access-slice words -/

/-- The word of an operation value and fields (R52). -/
def accessWord (op : Nat) (fs : List WordField) (xs : Args fs) : Nat := pack (op * 2 ^ 24) (toPack fs xs)

theorem accessWord_eq {op : Nat} {fs : List WordField} (hs : stacked 24 fs = true) (xs : Args fs) :
    ∃ low < 2 ^ 24, accessWord op fs xs = op * 2 ^ 24 + low := ⟨_, toPack_lt hs xs, pack_eq_add _ _⟩

theorem accessWord_lt {op : Nat} {fs : List WordField} (hs : stacked 24 fs = true) (ho : op < 256) (xs : Args fs) :
    accessWord op fs xs < 2 ^ 32 := by
  obtain ⟨low, hlow, h⟩ := accessWord_eq (op := op) hs xs
  omega

theorem op_accessWord {op : Nat} {fs : List WordField} (hs : stacked 24 fs = true) (ho : op < 256) (xs : Args fs) :
    fld (accessWord op fs xs) 24 8 = op := by
  obtain ⟨low, hlow, h⟩ := accessWord_eq (op := op) hs xs
  rw [fld]
  omega

/-- The rows of R52 that fit a word. -/
def AccessRow.fits (w : Nat) (r : AccessRow) : Bool := r.op == fld w 24 8 && r.fixed.all (fun z => fld w z.1 z.2.1 == z.2.2)

theorem decodeAccess_of_row {w : Nat} {r : AccessRow} {i : Instr} (hr : rowsAccess.find? (AccessRow.fits w) = some r)
    (hm : r.make w = i) (hwf : WellFormed i = true) : decodeAccess w = some i := by
  simp only [WellFormed, Bool.and_eq_true] at hwf
  have hr : rowsAccess.find? (fun r => r.op == fld w 24 8 && r.fixed.all (fun z => fld w z.1 z.2.1 == z.2.2)) = some r := hr
  simp only [decodeAccess, hr, hm, hwf.2, if_true]

/-- A word packed from an operation value and fields decodes to the instruction of the row that fits it. -/
theorem decodeAccess_packed (op : Nat) (fs : List WordField) (c : Curried Instr fs) (xs : Args fs) (fixed : List (Nat × Nat × Nat))
    (hwf : WellFormed (applyArgs fs c xs) = true)
    (find : ∀ w, fld w 24 8 = op → readArgs w fs = xs → (∀ z, beside 24 z fs = true → fld w z.1 z.2 = 0) →
      rowsAccess.find? (AccessRow.fits w) = some ⟨op, fixed, fun w => applyArgs fs c (readArgs w fs)⟩)
    (hs : stacked 24 fs = true := by decide) (ho : op < 256 := by decide) :
    accessWord op fs xs < 2 ^ 32 ∧ decodeAccess (accessWord op fs xs) = some (applyArgs fs c xs) := by
  have read : readArgs (accessWord op fs xs) fs = xs := readArgs_pack hs (Nat.dvd_mul_left _ _) xs
  have zero := fun z hz => fld_pack_beside (z := z) hs hz (Nat.dvd_mul_left (2 ^ 24) op) xs
  exact ⟨accessWord_lt hs ho xs, decodeAccess_of_row (find _ (op_accessWord hs ho xs) read zero) (congrArg (applyArgs fs c) read) hwf⟩

/-- The word of a row that tells its form by bit 23 (R52). -/
theorem accessWord_bit23 {op base : Nat} {fs : List WordField} {b : Bool} {xs : Args (.bit 23 :: fs)} (hx : xs.1 = b)
    (hb : op * 2 ^ 24 + b.toNat * 2 ^ 23 = base) : accessWord op (.bit 23 :: fs) xs = pack base (toPack fs xs.2) := by
  have flag : (WordField.bit 23).nat xs.1 = b.toNat := congrArg Bool.toNat hx
  rw [accessWord, toPack, pack_cons, flag, WordField.part, hb]

theorem fld_of_readArgs_bit {p w : Nat} {fs : List WordField} {b : Bool} {xs : Args fs} (h : readArgs w (.bit p :: fs) = (b, xs)) :
    fld w p 1 = b.toNat :=
  ((WordField.bit p).nat_read w).symm.trans (congrArg Bool.toNat (Prod.mk.inj h).1)

/-- A well-formed access-slice word decodes to its instruction. -/
theorem decodeAccess_encode {i : Instr} {w : Nat} (hwf : WellFormed i = true) (he : encode i = [w]) (ho : opcode? i = none) :
    w < 2 ^ 32 ∧ decodeAccess w = some i := by
  cases i <;> cases ho <;> cases he
  case floop s p c =>
    refine decodeAccess_packed 0x01 [.num 22 2, .num 20 2, .num 0 20] Instr.floop (s, p, c, ()) [] hwf fun w op _ _ => ?_
    simp only [rowsAccess, AccessRow.fits, op, List.find?, List.all]
    rfl
  case fend =>
    refine decodeAccess_packed 0x02 [] Instr.fend () [(0, 24, 0)] hwf fun w op _ zero => ?_
    simp only [rowsAccess, AccessRow.fits, op, List.find?, List.all, zero (0, 24) rfl]
    rfl
  case faddr s l k v =>
    refine decodeAccess_packed 0x03 [.num 22 2, .num 20 2, .num 18 2, .num 0 16] Instr.faddr (s, l, k, v, ()) [(16, 2, 0)] hwf
      fun w op _ zero => ?_
    simp only [rowsAccess, AccessRow.fits, op, List.find?, List.all, zero (16, 2) rfl]
    rfl
  case fpush s q z e n =>
    refine decodeAccess_packed 0x04 [.num 22 2, .num 19 3, .num 16 3, .bit 15, .num 10 5] Instr.fpush (s, q, z, e, n, ())
      [(0, 10, 0)] hwf fun w op _ zero => ?_
    simp only [rowsAccess, AccessRow.fits, op, List.find?, List.all, zero (0, 10) rfl]
    rfl
  case fpushk s k r =>
    refine decodeAccess_packed 0x05 [.num 22 2, .num 19 3, .num 15 4] Instr.fpushk (s, k, r, ()) [(0, 15, 0)] hwf fun w op _ zero => ?_
    simp only [rowsAccess, AccessRow.fits, op, List.find?, List.all, zero (0, 15) rfl]
    rfl
  case fpermitQueue q n =>
    let xs : Args [.bit 23, .num 20 3, .num 15 5] := (false, q, n, ())
    have form : accessWord 0x06 _ xs = pack 0x06000000 _ := accessWord_bit23 (b := false) rfl (by decide)
    refine form.subst (motive := fun v => v < 2 ^ 32 ∧ decodeAccess v = some _) ?_
    refine decodeAccess_packed 0x06 [.bit 23, .num 20 3, .num 15 5] (fun _ => Instr.fpermitQueue) (false, q, n, ())
      [(0, 15, 0), (23, 1, 0)] hwf fun w op read zero => ?_
    simp only [rowsAccess, AccessRow.fits, op, List.find?, List.all, zero (0, 15) rfl, fld_of_readArgs_bit read]
    rfl
  case fpermitBuffer b =>
    let xs : Args [.bit 23, .num 18 5] := (true, b, ())
    have form : accessWord 0x06 _ xs = pack 0x06800000 _ := accessWord_bit23 (b := true) rfl (by decide)
    refine form.subst (motive := fun v => v < 2 ^ 32 ∧ decodeAccess v = some _) ?_
    refine decodeAccess_packed 0x06 [.bit 23, .num 18 5] (fun _ => Instr.fpermitBuffer) (true, b, ()) [(0, 18, 0), (23, 1, 1)] hwf
      fun w op read zero => ?_
    simp only [rowsAccess, AccessRow.fits, op, List.find?, List.all, zero (0, 18) rfl, fld_of_readArgs_bit read, Bool.toNat_true,
      show ((1 : Nat) == 0) = false from rfl, Bool.and_false, Bool.false_and]
    rfl
  case fsync r b =>
    refine decodeAccess_packed 0x07 [.bit 23, .num 18 5] Instr.fsync (r, b, ()) [(0, 18, 0)] hwf fun w op _ zero => ?_
    simp only [rowsAccess, AccessRow.fits, op, List.find?, List.all, zero (0, 18) rfl]
    rfl
  case fstop =>
    refine decodeAccess_packed 0x08 [] Instr.fstop () [(0, 24, 0)] hwf fun w op _ zero => ?_
    simp only [rowsAccess, AccessRow.fits, op, List.find?, List.all, zero (0, 24) rfl]
    rfl

/-! ### Decoding and encoding agree -/

/-- An EXT word decodes to its instruction. -/
theorem decodeWord_encode_ext {i : Instr} {w : Nat} (he : encode i = [w]) (ho : opcode? i = some 0x3FF) :
    w < 2 ^ 32 ∧ decodeWord w = .ok i := by
  cases i <;> cases ho
  case extControlForm p n e r t c l =>
    let xs : Args WordFormat.extControl.fields := (p, n, e, r, t, c, l, ())
    obtain rfl : WordFormat.extControl.word 0x3FF false xs = w := (List.cons.inj ((encode_extControl xs).symm.trans he)).1
    exact ⟨WordFormat.extControl.word_lt (by decide) .., decodeWord_extControl xs⟩
  case extImmediateForm i =>
    let xs : Args WordFormat.extImmediate.fields := (true, i, ())
    obtain rfl : WordFormat.extImmediate.word 0x3FF false xs = w := (List.cons.inj ((encode_extImmediate (xs := xs) rfl).symm.trans he)).1
    exact ⟨WordFormat.extImmediate.word_lt (by decide) .., decodeWord_extImmediate rfl⟩

/-- A well-formed thread word decodes to its instruction. -/
theorem decodeWord_encode {i : Instr} {w o : Nat} (hwf : WellFormed i = true) (he : encode i = [w]) (ho : opcode? i = some o) :
    w < 2 ^ 32 ∧ decodeWord w = .ok i := by
  by_cases hne : o = 0x3FF
  · exact decodeWord_encode_ext he (hne ▸ ho)
  · exact decodeWord_of_mapped (mapped_of_opcode ho hne) (opcode_lt ho) hne hwf he

/-- A word that decodes is the one encoding of its instruction, which is well-formed. -/
theorem encode_of_decodeWord {i : Instr} {w : Nat} (hw : w < 2 ^ 32) (h : decodeWord w = .ok i) :
    WellFormed i = true ∧ encode i = [w] := by
  by_cases hop : opcOf w = 0x3FF
  · rw [decodeWord_ext hop] at h
    refine ⟨?_, encode_of_decodeExt hw hop h⟩
    obtain ⟨-, h⟩ := decodeExt_eq_ok.1 h
    split at h
    · exact h ▸ rfl
    · exact h.2 ▸ rfl
  · obtain ⟨r, hr, hc, rfl, hwf⟩ := (decodeWord_eq_ok hop).1 h
    exact ⟨hwf, encode_of_row hw hr hc⟩

/-- Settles O59: a row of the map reads back the fields that its format packs, and two words that hold the same in the parts
of a format are the same. -/
theorem decodeAndEncodeAgree : Obligations.DecodeAndEncodeAgree := by
  refine ⟨fun i w hwf he ho => ?_, fun i w hwf he ho => decodeAccess_encode hwf he ho, fun i w hw h => encode_of_decodeWord hw h⟩
  obtain ⟨o, ho⟩ := Option.ne_none_iff_exists'.1 ho
  exact decodeWord_encode hwf he ho

end Sys2Proof
end

section
namespace Sys2Proof
set_option Elab.async false

/-- Settles O58: the map and the access table read each word as R51 and R52 lay it out. -/
theorem writtenOutWordsDecode : Obligations.WrittenOutWordsDecode := by
  unfold Obligations.WrittenOutWordsDecode
  decide +kernel
end Sys2Proof
end

section
/-!
The registers of a thread over the words that write them at once and the operations that map them (R23, R32, R43, R72).
-/
namespace Sys2Proof
set_option Elab.async false

/-! ### Keyed lists -/

theorem kget_filter_of_true {α : Type} {m : KMap α} {p : Nat × α → Bool} {i : Nat} (h : ∀ v, p (i, v) = true) :
    kget? (m.filter p) i = kget? m i := by
  induction m with
  | nil => rfl
  | cons q m ih =>
    obtain ⟨k, x⟩ := q
    by_cases hk : i = k
    · subst hk
      simp [h, kget?]
    · cases hp : p (k, x) <;> simp [hp, kget?, hk, ih]

theorem kget_filter_of_false {α : Type} {m : KMap α} {p : Nat × α → Bool} {i : Nat} (h : ∀ v, p (i, v) = false) :
    kget? (m.filter p) i = none := by
  induction m with
  | nil => rfl
  | cons q m ih =>
    obtain ⟨k, x⟩ := q
    by_cases hk : i = k
    · subst hk
      simp [h, ih]
    · cases hp : p (k, x) <;> simp [hp, kget?, hk, ih]

theorem contains_insertNew {l : List Nat} {x y : Nat} : (insertNew l x).contains y = (l.contains y || y == x) := by
  by_cases hx : x ∈ l
  · by_cases hy : y = x
    · subst hy
      simp [insertNew, hx]
    · simp [insertNew, hx, hy]
  · simp [insertNew, hx, Bool.decide_or, Bool.beq_eq_decide_eq]

theorem contains_foldl_insertNew (rs : List Nat) {l : List Nat} {y : Nat} :
    (rs.foldl insertNew l).contains y = (l.contains y || rs.contains y) := by
  induction rs generalizing l with
  | nil => simp
  | cons r rs ih => rw [List.foldl_cons, ih, contains_insertNew, List.contains_cons, Bool.or_assoc]

namespace Machine
namespace Thread
variable (th : Thread)

/-! ### What a thread's operations leave unchanged -/

theorem setRegs_eq (ws : List (Nat × Word)) : th.setRegs ws = { th with regs := (th.setRegs ws).regs } := by
  induction ws generalizing th with
  | nil => rfl
  | cons w ws ih => exact ih (th.setReg w.1 w.2)

theorem advance_between (h : th.clause = none) : th.advance = { th with ext := {} } := by
  simp only [advance, h]

theorem advance_within {c : Clause} (h : th.clause = some c) (hw : th.word < c.n) :
    th.advance = { th with word := th.word + 1, ext := {} } := by
  simp only [advance, h, hw, if_true]

theorem advance_past {c : Clause} (h : th.clause = some c) (hw : c.n ≤ th.word) :
    th.advance = { th with pc := (th.pc + 4 * (c.n + 1)) % 2 ^ 64, word := 0, clause := none, ext := {} } := by
  simp only [advance, h, Nat.not_lt.2 hw, if_false]

/-- Going past a word changes the thread's place and its EXT words alone. -/
theorem advance_eq : th.advance =
    { th with pc := th.advance.pc, word := th.advance.word, clause := th.advance.clause, ext := {} } := by
  unfold advance
  split
  · rfl
  · split <;> rfl

theorem advance_with_regs (m : KMap Word) : { th with regs := m }.advance = { th.advance with regs := m } := by
  unfold advance
  dsimp only
  split
  · rfl
  · split <;> rfl

/-! ### Registers -/

theorem kget_setRegs_of_not_mem {ws : List (Nat × Word)} {r : Nat} (h : r ∉ ws.map (·.1)) :
    kget? (th.setRegs ws).regs r = kget? th.regs r := by
  induction ws generalizing th with
  | nil => rfl
  | cons w ws ih =>
    simp only [List.map_cons, List.mem_cons, not_or] at h
    exact (ih (th.setReg w.1 w.2) h.2).trans (kget_kset_ne _ _ h.1)

/-- The last value written to a register stands. -/
theorem kget_setRegs_last {pre post : List (Nat × Word)} {r : Nat} {v : Word} (h : r ∉ post.map (·.1)) :
    kget? (th.setRegs (pre ++ (r, v) :: post)).regs r = some v := by
  rw [setRegs, List.foldl_append, List.foldl_cons]
  exact (kget_setRegs_of_not_mem _ h).trans (kget_kset_same _ _ _)

theorem kget_unmap_of_not_mem {rs : List Nat} {r : Nat} (h : r ∉ rs) : kget? (th.unmap rs).regs r = kget? th.regs r :=
  kget_filter_of_true (fun _ => by simpa using h)

theorem kget_unmap_of_mem {rs : List Nat} {r : Nat} (h : r ∈ rs) : kget? (th.unmap rs).regs r = none :=
  kget_filter_of_false (fun _ => by simpa using h)

/-- A name that is mapped keeps its value; one that is not holds 0 once mapped. -/
theorem kget_mapNames (rs : List Nat) (r : Nat) :
    kget? (th.mapNames rs).regs r = if r ∈ rs then some (th.reg r) else kget? th.regs r := by
  induction rs generalizing th with
  | nil => rfl
  | cons q rs ih =>
    have step : (th.mapNames (q :: rs)).regs = ((th.mapNames [q]).mapNames rs).regs := rfl
    have first : kget? (th.mapNames [q]).regs r = if r = q then some (th.reg r) else kget? th.regs r := by
      cases hq : kget? th.regs q with
      | none =>
        have : (th.mapNames [q]).regs = kset th.regs q 0 := by simp [mapNames, hq]
        rw [this, kget_kset]
        by_cases h : r = q
        · subst h
          simp [reg, kgetD, hq]
        · simp [h]
      | some v =>
        have : (th.mapNames [q]).regs = th.regs := by simp [mapNames, hq]
        rw [this]
        by_cases h : r = q
        · subst h
          simp [reg, kgetD, hq]
        · simp [h]
    have keeps : (th.mapNames [q]).reg r = th.reg r := by
      rw [reg, kgetD, first]
      by_cases h : r = q <;> simp [h, reg, kgetD]
    rw [step, ih, keeps, first]
    by_cases h : r = q <;> simp [h]

theorem reg_mapNames (rs : List Nat) (r : Nat) : (th.mapNames rs).reg r = th.reg r := by
  rw [reg, kgetD, kget_mapNames]
  split
  · rfl
  · rfl

end Thread

/-! ### Words that write registers at once -/

/-- Where a word that writes registers leaves its thread: its place is the one past the word. -/
theorem wrote_eq (i : Instr) (k : Ctx) (frees : List Nat) (ws : List (Nat × Word)) :
    wrote i k frees ws = { k.th with
      regs := ((k.th.unmap frees).setRegs ws).regs, pc := k.th.advance.pc, word := k.th.advance.word, clause := k.th.advance.clause,
      ext := {}, wait := if switchMarker i && !k.th.pend.isEmpty then .park else .ready } := by
  have ofSelf : wrote i k frees ws =
      ({ k.th with regs := ((k.th.unmap frees).setRegs ws).regs } : Thread).advance.afterWord (switchMarker i) :=
    congrArg (fun h : Thread => h.advance.afterWord (switchMarker i)) ((k.th.unmap frees).setRegs_eq ws)
  rw [ofSelf, Thread.advance_with_regs, k.th.advance_eq]
  rfl

/-- Settles O27: each result is written in turn over the registers that stay mapped, and nothing else of the thread is touched
but its place. -/
theorem registerWordsFrame : Obligations.RegisterWordsFrame := by
  intro i k frees ws s t _
  have regs : (wrote i k frees ws).regs = ((k.th.unmap frees).setRegs ws).regs := congrArg (·.regs) (wrote_eq i k frees ws)
  have freed : ∀ r, r ∉ ws.map (·.1) → r ∈ frees → kget? (wrote i k frees ws).regs r = none := fun r hr hf =>
    (congrArg (kget? · r) regs).trans ((Thread.kget_setRegs_of_not_mem _ hr).trans (k.th.kget_unmap_of_mem hf))
  refine ⟨?kept, ?freed, ?written, ?_⟩
  case kept =>
    exact fun r hr hf => (congrArg (kget? · r) regs).trans
      ((Thread.kget_setRegs_of_not_mem _ hr).trans (k.th.kget_unmap_of_not_mem hf))
  case freed =>
    exact fun r hr hf => ⟨congrArg Option.isSome (freed r hr hf), congrArg (Option.getD · 0) (freed r hr hf)⟩
  case written =>
    rintro pre r v post rfl hr
    exact (congrArg (kget? · r) regs).trans (Thread.kget_setRegs_last _ hr)
  rw [wrote_eq]
  refine ⟨rfl, rfl, rfl, rfl, rfl, rfl, rfl, rfl, rfl, rfl, rfl, rfl, rfl, rfl, rfl, rfl, ?within, ?past, ?others, ?own, rfl⟩
  case within =>
    intro c hc hw
    simp only [k.th.advance_within hc hw]
    exact ⟨trivial, hc, trivial⟩
  case past =>
    intro c hc hw
    simp only [k.th.advance_past hc hw]
    exact ⟨trivial, trivial, trivial⟩
  case others => exact fun u hu => thread_setThread_ne s _ hu
  case own => exact thread_setThread s t _
/-! ### Issued operations -/

theorem Thread.reg_unmap_of_not_mem (th : Thread) {rs : List Nat} {r : Nat} (h : r ∉ rs) : (th.unmap rs).reg r = th.reg r :=
  congrArg (Option.getD · 0) (th.kget_unmap_of_not_mem h)

theorem Thread.counter_raise (th : Thread) (i c : Nat) :
    (th.raise i).counter c = if c = i ∧ i < 6 then th.counter c + 1 else th.counter c := by
  by_cases hi : i < 6
  · by_cases hc : c = i
    · subst hc
      simp [Thread.raise, Thread.counter, kgetD, hi]
    · simp [Thread.raise, Thread.counter, kgetD, hi, hc, kget_kset_ne]
  · simp [Thread.raise, hi]

/-- Raising a counter changes the counters alone. -/
theorem Thread.raise_eq (th : Thread) (i : Nat) : th.raise i = { th with ec := (th.raise i).ec } := by
  unfold Thread.raise
  split <;> rfl

theorem Thread.launch_eq (th : Thread) (ec : Nat) (dests : List Nat) (op : FlightOp) (got : Option (List Word)) (brings : Option Nat) :
    ∃ seq lastMem, th.launch ec dests op got brings = { th with
      regs := (th.mapNames dests).regs, pend := dests.foldl insertNew th.pend, ec := (th.raise ec).ec,
      flights := (th.launch ec dests op got brings).flights, seq := seq, lastMem := lastMem } := by
  unfold Thread.launch Thread.raise
  by_cases h : ec < 6
  · simp only [if_pos h]
    exact ⟨_, _, rfl⟩
  · simp only [if_neg h]
    exact ⟨_, _, rfl⟩

/-- The thread that an issued operation leaves. -/
def issuedThread (k : Ctx) (sw : Bool) (frees : List Nat) (l : Launch) : Thread :=
  (((k.th.unmap frees).launch l.ec l.dests l.op l.got l.brings).advance).afterWord sw

/-- An issued operation changes its thread alone. -/
theorem complete_launch {k : Ctx} (h : thread? k.s k.t = some k.th) (sw : Bool) (frees : List Nat) (l : Launch) :
    complete k sw frees { st := k.s, launch := some l } = setThread k.s k.t (issuedThread k sw frees l) :=
  modThread_eq _ h

/-- The entry of an issued operation among its thread's outstanding ones. -/
def issuedFlight (k : Ctx) (l : Launch) : Flight :=
  { seq := k.th.seq, ec := l.ec, dests := l.dests, op := l.op, got := l.got, clauseNo := k.th.clauseNo,
    level := if l.ec < 6 then k.th.counter l.ec + 1 else 0, brings := l.brings }

/-- What an issued operation leaves of its thread but its place. -/
theorem issuedThread_eq (k : Ctx) (sw : Bool) (frees : List Nat) (l : Launch) :
    ∃ pc word clause ext wait seq lastMem, issuedThread k sw frees l = { k.th with
      regs := ((k.th.unmap frees).mapNames l.dests).regs, pend := l.dests.foldl insertNew k.th.pend,
      ec := ((k.th.unmap frees).raise l.ec).ec,
      flights := k.th.flights ++ [issuedFlight k l],
      pc := pc, word := word, clause := clause, ext := ext, wait := wait, seq := seq, lastMem := lastMem } := by
  obtain ⟨seq, lastMem, h⟩ := (k.th.unmap frees).launch_eq l.ec l.dests l.op l.got l.brings
  obtain ⟨pc, word, clause, hadv⟩ : ∃ pc word clause, ((k.th.unmap frees).launch l.ec l.dests l.op l.got l.brings).advance =
      { (k.th.unmap frees).launch l.ec l.dests l.op l.got l.brings with pc := pc, word := word, clause := clause, ext := {} } :=
    ⟨_, _, _, Thread.advance_eq _⟩
  refine ⟨pc, word, clause, {}, if sw && !(l.dests.foldl insertNew k.th.pend).isEmpty then .park else .ready, seq, lastMem, ?_⟩
  rw [issuedThread, hadv, h]
  rfl

/-- Settles O28: the operation's destinations are mapped and put on the pending list, its counter is raised, and nothing else of
the state is touched. -/
theorem issuedOperationsFrame : Obligations.IssuedOperationsFrame := by
  intro k sw frees l h
  dsimp only
  rw [complete_launch h]
  obtain ⟨pc, word, clause, ext, wait, seq, lastMem, hi⟩ := issuedThread_eq k sw frees l
  have regs : (issuedThread k sw frees l).regs = ((k.th.unmap frees).mapNames l.dests).regs := congrArg (·.regs) hi
  have pend : (issuedThread k sw frees l).pend = l.dests.foldl insertNew k.th.pend := congrArg (·.pend) hi
  have ec : (issuedThread k sw frees l).ec = ((k.th.unmap frees).raise l.ec).ec := congrArg (·.ec) hi
  have counter (c : Nat) : (issuedThread k sw frees l).counter c = ((k.th.unmap frees).raise l.ec).counter c := congrArg (kgetD · c 0) ec
  refine ⟨_, thread_setThread _ _ _, ?mapped, ?values, ?pending, ?raised, ?counters, ?uncounted, ?flights, ?_⟩
  case mapped =>
    intro r hr
    have := (k.th.unmap frees).kget_mapNames l.dests r
    rw [if_pos hr, ← regs] at this
    refine ⟨congrArg Option.isSome this, ?_⟩
    simpa only [pend, contains_foldl_insertNew, Bool.or_eq_true, List.contains_iff_mem] using .inr hr
  case values =>
    intro r hr
    have : (issuedThread k sw frees l).reg r = ((k.th.unmap frees).mapNames l.dests).reg r := congrArg (kgetD · r 0) regs
    rw [this, Thread.reg_mapNames, k.th.reg_unmap_of_not_mem hr]
  case pending =>
    intro r hr
    rw [pend, contains_foldl_insertNew, show l.dests.contains r = false by simpa using hr, Bool.or_false]
  case raised => exact fun h => by rw [counter, Thread.counter_raise, if_pos ⟨rfl, h⟩]; rfl
  case counters => exact fun c h => by rw [counter, Thread.counter_raise, if_neg (fun hc => h hc.1)]; rfl
  case uncounted => exact fun h => by rw [ec, Thread.raise, if_neg (Nat.not_lt.2 h)]; rfl
  case flights => exact congrArg (·.flights) hi
  rw [hi]
  exact ⟨rfl, rfl, rfl, rfl, rfl, rfl, rfl, rfl, fun u hu => thread_setThread_ne _ _ hu⟩
end Machine
end Sys2Proof
end

section
/-!
A step of the machine that runs a word or a row of the catalogue (R23, R44 to R50, R79, R284, R384).
-/
namespace Sys2Proof.Machine
set_option Elab.async false

/-! ### Steps -/

theorem step_runPick {s : State} {p : Pick} {rest : List Pick} (hr : rebaseDue s = false) (hd : s.errors.due = [])
    (hp : s.errors.poisonEnds = []) (ha : s.agenda = p :: rest) : step s = runPick p rest s := by
  simp only [step, hr, hd, hp, ha, firstDue, Bool.false_eq_true, if_false]

theorem runPick_thread {s : State} {t : Nat} {rest : List Pick} (hc : contextsRun s = true) :
    runPick (.thread t) rest s = stepThread t { s with agenda := rest } := if_pos hc

theorem runPick_feed {s : State} {c x : Nat} {rest : List Pick} (hc : contextsRun s = true) :
    runPick (.feed c x) rest s = stepFeed c x { s with agenda := rest } := if_pos hc

theorem contextsRun_of_power {s : State} (h2 : s.dev.power.state ≠ 2) (h3 : s.dev.power.state ≠ 3) : contextsRun s = true := by
  simp [contextsRun, h2, h3]

theorem powerLets_of_power {s : State} (i : Instr) (h2 : s.dev.power.state ≠ 2) (h3 : s.dev.power.state ≠ 3) :
    powerLets s i = true := by
  unfold powerLets
  split
  · exact absurd ‹_› h2
  · exact absurd ‹_› h3
  · rfl

/-- The thread has no exception to take, and nothing but its holds keeps it from issuing. -/
structure FitToIssue (s : State) (th : Thread) : Prop where
  suspended : th.suspended = false
  evicted : th.evicted = false
  active : th.active = true
  due : th.due = none
  asyncReady : asyncReady th = false
  mayStep : mayStep s th = true

theorem stepThread_of_fit {s s' : State} {t : Nat} {th : Thread} (hs : settleHolds { s with cur := some t, curFeed := none } = s')
    (ht : thread? s' t = some th) (h : FitToIssue s' th) :
    stepThread t s = if outranked s' t th then .next s' else issueNext t th s' := by
  simp [stepThread, hs, ht, h.suspended, h.evicted, h.active, h.due, h.asyncReady, h.mayStep]

/-- Where a thread's step runs its next word. -/
def nextWordState (t : Nat) (s : State) : State := modThread s t (fun th => { th with yields := [], waited := 0 })

/-- What a word leaves counts as its issue. -/
def countIssue (t : Nat) : Host.Outcome State Fault Refusal → Host.Outcome State Fault Refusal
  | .next s' => .next (issued t s')
  | r => r

theorem issueNext_word {s : State} {t : Nat} {th : Thread} (h : atHeader th = false) :
    issueNext t th s = countIssue t (issueWord (nextWordState t s) t th) := by
  rw [issueNext, h]
  rfl

/-- A word under an opcode of its own that the predicate does not turn off meets its decode entry. -/
theorem issueWord_entry {s : State} {t : Nat} {th : Thread}
    (fixed : (opcOf th.rawWord.toNat == 0 || opcOf th.rawWord.toNat == 0x3FF) = false)
    (hp : (ctxOf s t th).predOn = true) : issueWord s t th =
      match entryStop (ctxOf s t th) ((ctxOf s t th).entry (opcOf th.rawWord.toNat)) with
      | some st => .next (stopped s t st)
      | none =>
        match decodeWord (withOpcode th.rawWord.toNat (entryIop ((ctxOf s t th).entry (opcOf th.rawWord.toNat)))) with
        | .ok i => exec i s
        | .error e => .next (stopped s t ((ctxOf s t th).illegal e.reason)) :=
  (if_neg (ne_true_of_eq_false fixed)).trans (if_neg (by rw [hp]; decide))

/-- A word that its decode entry lets through issues as its internal operation. -/
theorem issueWord_decoded {s : State} {t : Nat} {th : Thread} {i : Instr} (h0 : opcOf th.rawWord.toNat ≠ 0)
    (hx : opcOf th.rawWord.toNat ≠ 0x3FF) (hp : (ctxOf s t th).predOn = true)
    (he : entryStop (ctxOf s t th) ((ctxOf s t th).entry (opcOf th.rawWord.toNat)) = none)
    (hd : decodeWord (withOpcode th.rawWord.toNat (entryIop ((ctxOf s t th).entry (opcOf th.rawWord.toNat)))) = .ok i) :
    issueWord s t th = exec i s := by
  rw [issueWord_entry (Bool.or_eq_false_iff.2 ⟨beq_eq_false_iff_ne.2 h0, beq_eq_false_iff_ne.2 hx⟩) hp]
  -- The decoder and the instructions' meanings are made opaque: only the branches count.
  generalize exec = run
  generalize decodeWord _ = decoded at hd ⊢
  generalize entryStop _ _ = stop at he ⊢
  subst he
  subst hd
  rfl

/-! ### Holds -/

theorem mem_of_kget {α : Type} {m : KMap α} {i : Nat} {v : α} (h : kget? m i = some v) : (i, v) ∈ m := by
  induction m with
  | nil => exact absurd h (by simp [kget?])
  | cons p m ih =>
    obtain ⟨k, x⟩ := p
    by_cases hk : i = k
    · subst hk
      obtain rfl : x = v := by simpa [kget?] using h
      exact List.mem_cons_self
    · exact List.mem_cons_of_mem _ (ih (by simpa [kget?, hk] using h))

/-- A thread that waits at no MMAC is not judged again. -/
theorem rejudge_of_no_mmac {s : State}
    (h : ∀ p ∈ s.threads, ∀ l d dv av m more frees, p.2.wait ≠ .rendezvous l 0x308 d dv av m more frees)
    (t : Nat) : rejudge s t = s := by
  unfold rejudge
  cases ht : thread? s t with
  | none => rfl
  | some th =>
    dsimp only
    split
    · exact absurd ‹_› (h _ (mem_of_kget ht) _ _ _ _ _ _ _)
    · rfl

/-- Where no thread is held at issue no hold ends. -/
theorem endHolds_of_no_hold {s : State} (h : ∀ p ∈ s.threads, p.2.wait ≠ .hold) : endHolds s = s := by
  have same : s.threads.map (fun p => if holdEnded s p.1 p.2 then (p.1, { p.2 with wait := .ready }) else p) = s.threads := by
    refine (List.map_congr_left fun p hp => if_neg ?_).trans (List.map_id _)
    simp [holdEnded, h p hp]
  rw [endHolds, same]

theorem settleHolds_of_nothing_held {s : State} (hc : s.commits = []) (hh : ∀ p ∈ s.threads, p.2.wait ≠ .hold)
    (hm : ∀ p ∈ s.threads, ∀ l d dv av m more frees, p.2.wait ≠ .rendezvous l 0x308 d dv av m more frees) : settleHolds s = s := by
  have commits : settleCommits s = s := by rw [settleCommits, hc, List.foldl_nil]
  have judged : ∀ ps : List (Nat × Thread), ps.foldl (fun s p => rejudge s p.1) s = s := by
    intro ps
    induction ps with
    | nil => rfl
    | cons p ps ih => rw [List.foldl_cons, rejudge_of_no_mmac hm, ih]
  rw [settleHolds, commits, judged, endHolds_of_no_hold hh]

/-! ### The shipped decode table -/

theorem withOpcode_opcOf {w : Nat} (hw : w < 2 ^ 32) : withOpcode w (opcOf w) = w := by
  simp only [withOpcode, opcOf, fld]
  omega

theorem assigned_of_rowOf {opc : Nat} {r : WordRow} (h : rowOf opc = some r) : assigned opc = true := by
  simp only [assigned, Bool.or_eq_true, List.any_eq_true]
  have h : wordRows.find? (fun r => r.opc == opc) = some r := h
  exact .inl ⟨r, List.mem_of_find?_eq_some h, List.find?_some (p := fun r : WordRow => r.opc == opc) h⟩

/-- Map 3 gives an assigned opcode itself as its internal operation (R45). -/
theorem entryIop_map3Entry {opc : Nat} (ho : opc < 1024) (h0 : opc ≠ 0) (hx : opc ≠ 0x3FF) (ha : assigned opc = true) :
    entryIop (map3Entry opc) = opc := by
  simp only [map3Entry, beq_eq_false_iff_ne.2 h0, beq_eq_false_iff_ne.2 hx, ha, Bool.or_self, Bool.false_eq_true, if_false, if_true,
    entryIop, fld]
  split <;> omega

theorem opcOf_lt (w : Nat) : opcOf w < 1024 := Nat.mod_lt _ (by decide)

/-- Settles O57: each part follows the step to the thread, the feed context or the row that acts. -/
theorem stepRunsTheDecodedInstruction : Obligations.StepRunsTheDecodedInstruction := by
  refine ⟨?word, ?outranked, ?held, ?shipped, ?feed, ?rebase, ?event, ?powerOff, ?power⟩
  case word =>
    intro s t rest th i hr hd hp ha hc s0 ht hs hev hact hdue hasync hhead s1 w e hmay hout h0 hx hpred hstop hdec
    have run : stepThread t { s with agenda := rest } = if outranked s0 t th then .next s0 else issueNext t th s0 :=
      stepThread_of_fit rfl ht ⟨hs, hev, hact, hdue, hasync, hmay⟩
    rw [step_runPick hr hd hp ha, runPick_thread hc, run, if_neg (ne_true_of_eq_false hout), issueNext_word hhead,
      show issueWord (nextWordState t s0) t th = exec i s1 from issueWord_decoded h0 hx hpred hstop hdec]
    rfl
  case outranked =>
    intro s t rest th hr hd hp ha hc s0 ht hs hev hact hdue hasync hmay hout
    have run : stepThread t { s with agenda := rest } = if outranked s0 t th then .next s0 else issueNext t th s0 :=
      stepThread_of_fit rfl ht ⟨hs, hev, hact, hdue, hasync, hmay⟩
    rw [step_runPick hr hd hp ha, runPick_thread hc, run, if_pos hout]
  case held => exact fun s hc h => settleHolds_of_nothing_held hc (fun p hp => (h p hp).1) (fun p hp => (h p hp).2)
  case shipped =>
    intro s w i hw h0 hx hd
    obtain ⟨r, hr, -⟩ := (decodeWord_eq_ok hx).1 hd
    have entry : tableEntry s (.map 3) (opcOf w) = map3Entry (opcOf w) := rfl
    rw [entry, entryIop_map3Entry (opcOf_lt w) h0 hx (assigned_of_rowOf hr), withOpcode_opcOf hw, hd]
  case feed =>
    intro s c x rest w s' i hr hd hp ha hc hfetch hdec
    rw [step_runPick hr hd hp ha, runPick_feed hc]
    simp only [stepFeed, hfetch, hdec]
  case rebase => exact fun s h => if_pos h
  case event =>
    intro s i rest hr hd hp ha henc hlets
    rw [step_runPick hr hd hp ha]
    simp [runPick, isWord, henc, hlets]
  case powerOff =>
    intro s i rest hr hd hp ha hlets
    rw [step_runPick hr hd hp ha]
    simp [runPick, hlets]
  case power => exact fun s i h2 h3 => ⟨powerLets_of_power i h2 h3, contextsRun_of_power h2 h3⟩

end Sys2Proof.Machine
end

section
/-!
Privileged words in user mode (R46, R407).
-/
namespace Sys2Proof.Machine
set_option Elab.async false

/-- A privileged word in user mode stops at step 7 of R48. -/
theorem gate_of_passesInUserMode {i : Instr} {s : State} {t : Nat} {th : Thread} (h : passesInUserMode i s t th = true)
    (hp : isPriv (opcOf' i) = true) (srcs : List Src) :
    (entryCtx s t th).gate i (opcOf' i) srcs = .stop (privTrap (entryCtx s t th).iw) := by
  have h0 : (opcOf' i == 0) = false := beq_eq_false_iff_ne.2 (fun h0 => by rw [h0] at hp; exact absurd hp (by decide))
  simp only [passesInUserMode, Bool.and_eq_true, beq_iff_eq] at h
  obtain ⟨⟨⟨-, hon⟩, hclass⟩, huser⟩ := h
  simp only [Ctx.gate, h0, hon, hclass, hp, huser, Bool.false_and, Bool.false_eq_true, Bool.not_true, if_false, Bool.true_or,
    Bool.true_and, if_true]

/-- A privileged word in user mode takes PRIV, whatever its entry would do. -/
theorem issue_privileged {i : Instr} {s : State} {t : Nat} {th : Thread} (h : passesInUserMode i s t th = true)
    (hp : isPriv (opcOf' i) = true) (srcs : List Src) (body : Ctx → Except Stop Eff) :
    issue i srcs body s =
      .next (trapSync (modThread s t (fun th => { th with wait := .ready })) t 0x03 0 (entryCtx s t th).iw 0 0) := by
  have hgate := gate_of_passesInUserMode h hp srcs
  simp only [passesInUserMode, Bool.and_eq_true, beq_iff_eq] at h
  obtain ⟨⟨⟨⟨hcur, hthread⟩, -⟩, -⟩, -⟩ := h
  simp only [issue, hcur, hthread, issueAt]
  simp only [entryCtx] at hgate ⊢
  simp only [hgate]
  rfl

/-- Settles O22: each of the nine words issues under a privileged opcode. -/
theorem privilegedWordsTrapInUserMode : Obligations.PrivilegedWordsTrapInUserMode := by
  rintro i (⟨sw, rfl⟩ | ⟨sw, d, n, rfl⟩ | ⟨sw, d, n, rfl⟩ | ⟨sw, d, a, x, m, rfl⟩ | ⟨sw, rfl⟩ | ⟨sw, a, b, x, y, rfl⟩ |
      ⟨sw, d, a, b, x, y, rfl⟩ | ⟨sw, d, a, b, x, y, rfl⟩ | ⟨sw, d, a, x, rfl⟩) s t th h
  all_goals exact issue_privileged h rfl _ _

end Sys2Proof.Machine
end

section
/-!
NOP and the MOV words (R38, R111 to R113).
-/
namespace Sys2Proof.Machine
set_option Elab.async false

/-! ### Immediates -/

theorem sx_toNat {n : Nat} (b : BitVec n) : sx b.toNat n = b.toInt := by
  have hb := b.isLt
  rw [sx, Nat.mod_eq_of_lt hb]
  cases n with
  | zero => simp [BitVec.eq_nil b]
  | succ m =>
    rw [if_neg (Nat.succ_ne_zero m), BitVec.toInt_eq_toNat_cond, Nat.succ_sub_one, pow_succ]
    congr 1
    exact propext ⟨fun h => by omega, fun h => by omega⟩

theorem fld_imm20_low {k : Ctx} {w : Nat} (h : k.imm = some w) : fld k.imm20 0 17 = w % 2 ^ 17 := by
  simp only [Ctx.imm20, h, Option.getD_some, fld, pow_zero, Nat.div_one]
  exact Nat.mod_mod_of_dvd w (pow_dvd_pow 2 (by decide))

/-- The number a MOVS or MOVH word names: its field, under the low 17 bits of an EXT immediate (R36). -/
def Ctx.number15 (k : Ctx) (i : BitVec 15) : Nat :=
  match k.imm with
  | none => i.toNat
  | some w => w % 2 ^ 17 * 2 ^ 15 + i.toNat

theorem immC_unsigned (k : Ctx) (i : BitVec 15) : k.immC i false = wordN (k.number15 i) := by
  unfold Ctx.immC Ctx.number15
  cases h : k.imm with
  | none => rfl
  | some w => exact congrArg (fun v => wordN (v * 2 ^ 15 + i.toNat)) (fld_imm20_low h)

theorem number15_lt (k : Ctx) (i : BitVec 15) : k.number15 i < 2 ^ 32 := by
  have hi := i.isLt
  unfold Ctx.number15
  split <;> omega

theorem immC_toNat (k : Ctx) (i : BitVec 15) : (k.immC i false).toNat = k.number15 i := by
  rw [immC_unsigned]
  exact (BitVec.toNat_ofNat _ _).trans (Nat.mod_eq_of_lt (number15_lt k i))

/-! ### MOVS -/

/-- Numbers that name no source, or one that is no value of the thread's registers. -/
theorem movsSource_none {n : Nat} (s : State) (th : Thread)
    (h : n ∈ [0x013, 0x014, 0x015, 0x017, 0x01E, 0x021, 0x022, 0x027, 0x029] ∨ 0x031 ≤ n) : movsSource s th n = none := by
  rcases h with h | h
  · simp only [List.mem_cons, List.not_mem_nil, or_false] at h
    rcases h with rfl | rfl | rfl | rfl | rfl | rfl | rfl | rfl | rfl <;> rfl
  · obtain ⟨m, rfl⟩ := Nat.exists_eq_add_of_le' h
    rfl

section
variable {k : Ctx} {d : BitVec 6} {i : BitVec 15}

theorem movsBody_pts (h : k.number15 i = 0x013) : movsBody d i k = movsPts k d false := by
  simp only [movsBody, immC_toNat, h]
  rfl

theorem movsBody_ptsHi (h : k.number15 i = 0x014) : movsBody d i k = movsPts k d true := by
  simp only [movsBody, immC_toNat, h]
  rfl

/-- MOVS of a feed port. -/
theorem movsBody_port {q : Nat} (h : k.number15 i = 0x040 + q) (hq : q < 8) : movsBody d i k = movsPort k d q := by
  have first : ∀ m ≤ 0x022, (0x040 + q == m) = false := fun m hm => beq_eq_false_iff_ne.2 (by omega)
  have range : (decide (0x040 ≤ 0x040 + q) && decide (0x040 + q ≤ 0x047)) = true := by simp; omega
  simp only [movsBody, immC_toNat, h, first, range, Nat.reduceLeDiff, Nat.add_sub_cancel_left, Bool.false_eq_true, if_false, if_true]

/-- MOVS of a listed value. -/
theorem movsBody_source {v : Word} (h : movsSource k.s k.th (k.number15 i) = some v) :
    movsBody d i k = .ok { st := setThread k.s k.t (if 0x018 ≤ k.number15 i ∧ k.number15 i ≤ 0x01D
      then (k.th.latch none none).acquireBelow (k.number15 i - 0x018) else k.th.latch none none), writes := [(d.toNat, v)] } := by
  have listed : ¬ (k.number15 i ∈ [0x013, 0x014, 0x015, 0x017, 0x01E, 0x021, 0x022, 0x027, 0x029] ∨ 0x031 ≤ k.number15 i) :=
    fun hn => Option.some_ne_none v (h.symm.trans (movsSource_none _ _ hn))
  simp only [List.mem_cons, List.not_mem_nil, or_false, not_or] at listed
  obtain ⟨⟨hpts, hptsHi, -, -, -, htpc, htpcHi, -, -⟩, hle⟩ := listed
  have port : (decide (0x040 ≤ k.number15 i) && decide (k.number15 i ≤ 0x047)) = false := by simp; omega
  simp only [movsBody, immC_toNat, beq_eq_false_iff_ne.2 hpts, beq_eq_false_iff_ne.2 hptsHi, beq_eq_false_iff_ne.2 htpc,
    beq_eq_false_iff_ne.2 htpcHi, port, h, Bool.false_eq_true, if_false, Bool.and_eq_true, decide_eq_true_eq]

theorem movsBody_unlisted (h : k.number15 i ∈ [0x015, 0x017, 0x01E, 0x027, 0x029, 0x048] ∨ 0x049 ≤ k.number15 i) :
    movsBody d i k = .error (k.illegal 3) := by
  simp only [List.mem_cons, List.not_mem_nil, or_false] at h
  have away : ∀ m ∈ [0x013, 0x014, 0x021, 0x022], (k.number15 i == m) = false := by
    intro m hm
    simp only [List.mem_cons, List.not_mem_nil, or_false] at hm
    exact beq_eq_false_iff_ne.2 (by omega)
  have port : (decide (0x040 ≤ k.number15 i) && decide (k.number15 i ≤ 0x047)) = false := by simp; omega
  have none : movsSource k.s k.th (k.number15 i) = none := movsSource_none _ _ (by simp; omega)
  simp only [movsBody, immC_toNat, away 0x013 (by decide), away 0x014 (by decide), away 0x021 (by decide), away 0x022 (by decide),
    port, none, Bool.false_eq_true, if_false]

end

/-! ### The words -/

/-- Settles O1: each word's entry by its number, with the EXT immediate and without one. -/
theorem movesGiveTheirOperands : Obligations.MovesGiveTheirOperands := by
  refine ⟨⟨fun sw => writes_of (fun _ => rfl) fun _ => rfl, fun sw d a x => writes_of (fun _ => rfl) fun _ => rfl, ?movi, ?movh⟩,
    ?source, ?pts, ?ptsHi, ?port, ?empty, ?unlisted, ?values, ?places⟩
  case movi =>
    refine fun sw d i => writes_of (fun _ => rfl) fun k => ?_
    refine congrArg (fun v => Except.ok ({ st := k.s, writes := [(d.toNat, v)] } : Eff)) ?_
    unfold Ctx.immC
    cases h : k.imm with
    | none => exact congrArg word (sx_toNat i)
    | some w => exact congrArg (fun v => wordN (v * 2 ^ 15 + i.toNat)) (fld_imm20_low h)
  case movh =>
    refine fun sw d i => writes_of (fun _ => rfl) fun k => ?_
    refine congrArg (fun v => Except.ok ({ st := k.s, writes := [(d.toNat, 0), (d.toNat + 1, v)] } : Eff)) ?_
    unfold Ctx.movhWord Ctx.immC
    cases h : k.imm with
    | none => rfl
    | some w => exact congrArg (fun v => wordN (v * 2 ^ 15 + i.toNat)) (fld_imm20_low h)
  case source => exact fun sw d i v => runs_of (fun _ => rfl) fun k h => movsBody_source h
  case pts =>
    rintro sw d i th
    refine runs_of (fun _ => rfl) fun k ⟨hn, hw, ht⟩ => ?_
    refine (movsBody_pts hn).trans ?_
    simp [movsPts, hw, ht]
  case ptsHi =>
    rintro sw d i th
    refine runs_of (fun _ => rfl) fun k ⟨hn, hw, ht⟩ => ?_
    refine (movsBody_ptsHi hn).trans ?_
    simp [movsPts, hw, ht]
  case port =>
    intro sw d i q tm v vs
    refine runs_of (fun _ => rfl) fun k ⟨hn, hq, ht, hp⟩ => ?_
    refine (movsBody_port hn hq).trans ?_
    simp [movsPort, ht, hp]
  case empty =>
    intro sw d i q tm
    refine runs_of (fun _ => rfl) fun k ⟨hn, hq, ht, hp⟩ => ?_
    refine (movsBody_port hn hq).trans ?_
    simp [movsPort, ht, hp]
  case unlisted => exact fun sw d i => traps_of (fun _ => rfl) fun k h => movsBody_unlisted h
  case values =>
    intro s th
    refine ⟨rfl, rfl, rfl, rfl, rfl, rfl, rfl, rfl, fun e he => ?_, rfl, rfl, rfl, rfl, rfl, rfl, rfl⟩
    interval_cases e <;> rfl
  case places =>
    intro s th tm g ht hg
    simp [movsSource, ht, hg]

end Sys2Proof.Machine
end

section
/-!
EXT words and the start of clauses (R25, R29, R39, R40, R85).
-/
namespace Sys2Proof.Machine
set_option Elab.async false

theorem wordN_toNat (w : Word) : wordN w.toNat = w := (BitVec.ofNat_toNat 32 w).trans (BitVec.setWidth_eq w)

/-! ### EXT words -/

/-- The EXT word `i` stands at the index of the current thread. -/
structure AtExt (i : Instr) (s : State) (t : Nat) (th : Thread) : Prop where
  cur : s.cur = some t
  thread : thread? s t = some th
  word : th.rawWord.toNat = (encode i).headD 0

section
variable {i : Instr} {s : State} {t : Nat} {th : Thread} {c : Clause} (h : AtExt i s t th)
include h

/-- The first word of a form latches. -/
theorem extLatch_latches (imm : Bool) (hfree : (if imm then th.ext.imm.isSome else th.ext.ctl.isSome) = false)
    (hc : th.clause = some c) (hw : th.word < c.n) :
    extLatch i imm s = .next (setThread s t { th with
      ext := (let first := if th.ext.ctl.isSome || th.ext.imm.isSome then th.ext.first else th.word
        if imm then { th.ext with imm := some th.rawWord.toNat, first := first }
        else { th.ext with ctl := some th.rawWord.toNat, first := first })
      word := th.word + 1, wait := .ready }) := by
  have last : th.lastWord = false := by simpa [Thread.lastWord, hc] using Nat.ne_of_lt hw
  simp only [extLatch, h.cur, Option.bind_some, h.thread, ← h.word, ctxOf, hfree, last, Bool.false_eq_true, if_false]
  rfl

/-- The second word of a form is at fault. -/
theorem extLatch_second (imm : Bool) (hset : (if imm then th.ext.imm.isSome else th.ext.ctl.isSome) = true) :
    extLatch i imm s =
      .next (trapSync s t 0x01 4 th.rawWord (wordN (th.ext.ctl.getD 0)) (wordN (th.ext.imm.getD 0))) := by
  simp only [extLatch, h.cur, Option.bind_some, h.thread, ← h.word, ctxOf, hset, wordN_toNat, if_true]
  rfl

/-- An EXT word must not be its clause's last. -/
theorem extLatch_last (imm : Bool) (hfree : (if imm then th.ext.imm.isSome else th.ext.ctl.isSome) = false)
    (hc : th.clause = some c) (hw : th.word = c.n) :
    extLatch i imm s = .next (trapSync s t 0x02 6 c.headerWord (wordN th.word) th.rawWord) := by
  have last : th.lastWord = true := by simpa [Thread.lastWord, hc] using hw
  simp only [extLatch, h.cur, Option.bind_some, h.thread, ← h.word, ctxOf, hfree, last, hc, wordN_toNat, Bool.false_eq_true, if_false,
    if_true]
  rfl

end

/-! ### Clauses -/

theorem waitsMet_iff {th : Thread} {h : Nat} :
    waitsMet th h = true ↔ ∀ i < 6, fld h (3 * i) 3 = 7 ∨ th.counter i ≤ fld h (3 * i) 3 := by
  simp only [waitsMet, List.all_eq_true, List.mem_range, Bool.or_eq_true, beq_iff_eq, decide_eq_true_eq]

theorem headerFault_eq_zero {h : Nat} : headerFault h = 0 ↔ fld h 28 4 = 0xC ∧ fld h 24 4 ≠ 0 ∧ fld h 18 2 = 0 := by
  unfold headerFault
  by_cases h1 : fld h 28 4 = 0xC <;> by_cases h2 : fld h 24 4 = 0 <;> by_cases h3 : fld h 18 2 = 0 <;> simp [h1, h2, h3]

theorem foldl_takePts_eq (as : List Acq) (th : Thread) :
    as.foldl (fun th a => th.takePts a.pts) th = { th with pts := (as.foldl (fun th a => th.takePts a.pts) th).pts } := by
  induction as generalizing th with
  | nil => rfl
  | cons a as ih => exact ih (th.takePts a.pts)

/-- Acquiring finished commands changes the thread's logical time and its list of them alone. -/
theorem Thread.acquireAt_eq (th : Thread) (h : Nat) :
    th.acquireAt h = { th with pts := (th.acquireAt h).pts, acq := (th.acquireAt h).acq } :=
  congrArg (fun r : Thread => { r with acq := th.acq.filter (fun a => !waitsOn h a.ec) })
    (foldl_takePts_eq (th.acq.filter (fun a => waitsOn h a.ec)) th)

/-- The thread at a clause that its header's waits are judged for. -/
def Thread.enters (th : Thread) (c : Clause) : Thread :=
  { th with clause := some c, wait := .ready, table := th.nextTable.getD th.table, nextTable := none }

section
variable {s : State} {t : Nat} {th : Thread} {c : Clause} (ht : thread? s t = some th)
include ht

theorem startClause_waits (hw : waitsMet (th.enters c) c.header = false) :
    startClause s t c = setThread s t { th.enters c with wait := .hold } := by
  unfold Thread.enters at hw
  simp only [startClause, ht, hw, Bool.not_false, if_true]
  rfl

theorem startClause_starts (hw : waitsMet (th.enters c) c.header = true) (hm : c.cls ≠ 2) :
    startClause s t c = setThread s t { (th.enters c).acquireAt c.header with
      word := 1, clauseNo := ((th.enters c).acquireAt c.header).clauseNo + 1 } := by
  unfold Thread.enters at hw
  simp only [startClause, ht, hw, Bool.not_true, Bool.false_eq_true, if_false, beq_eq_false_iff_ne.2 hm]
  rfl

/-- A MEM-class clause starts where its group holds a token once it has asked. -/
theorem startClause_asks (hw : waitsMet (th.enters c) c.header = true) (hm : c.cls = 2) :
    startClause s t c = setThread (askToken s (coreOf s th) (groupKey th)) t
      (if hasToken (askToken s (coreOf s th) (groupKey th)) (coreOf s th) (groupKey th)
        then { (th.enters c).acquireAt c.header with word := 1, clauseNo := ((th.enters c).acquireAt c.header).clauseNo + 1 }
        else { (th.enters c).acquireAt c.header with wait := .hold }) := by
  have team : ((th.enters c).acquireAt c.header).team = th.team := congrArg (·.team) (Thread.acquireAt_eq _ _)
  have gid : ((th.enters c).acquireAt c.header).gid = th.gid := congrArg (·.gid) (Thread.acquireAt_eq _ _)
  have core : coreOf s ((th.enters c).acquireAt c.header) = coreOf s th := by simp only [coreOf, team]
  have key : groupKey ((th.enters c).acquireAt c.header) = groupKey th := by simp only [groupKey, team, gid]
  unfold Thread.enters at hw core key ⊢
  simp only [startClause, ht, hw, hm, core, key, Bool.not_true, Bool.false_eq_true, if_false, beq_self_eq_true, if_true]
  split <;> rfl

end

/-- Settles O13: the latch by the state of its two forms, and the header by its waits and its token. -/
theorem extWordsAndClauses : Obligations.ExtWordsAndClauses := by
  refine ⟨⟨?control, ?immediate, ?controlTwice, ?controlLast, ?immediateTwice, ?immediateLast⟩,
    ?fetch, ?starts, ?waits, ?asks, ?meet, ?stays, fun th h => waitsMet_iff, fun h => headerFault_eq_zero⟩
  case control =>
    rintro p n e r x c l s t th c' ⟨hcur, ht, hw⟩ hfree hc hlt
    exact extLatch_latches ⟨hcur, ht, hw⟩ false (congrArg Option.isSome hfree) hc hlt
  case immediate =>
    rintro i s t th c' ⟨hcur, ht, hw⟩ hfree hc hlt
    exact extLatch_latches ⟨hcur, ht, hw⟩ true (congrArg Option.isSome hfree) hc hlt
  case controlTwice =>
    rintro p n e r x c l s t th w ⟨hcur, ht, hw⟩ hset
    have := extLatch_second ⟨hcur, ht, hw⟩ false (congrArg Option.isSome hset)
    rwa [hset] at this
  case controlLast =>
    rintro p n e r x c l s t th c' ⟨hcur, ht, hw⟩ hfree hc hlast
    exact extLatch_last ⟨hcur, ht, hw⟩ false (congrArg Option.isSome hfree) hc hlast
  case immediateTwice =>
    rintro i s t th w ⟨hcur, ht, hw⟩ hset
    have := extLatch_second ⟨hcur, ht, hw⟩ true (congrArg Option.isSome hset)
    rwa [hset] at this
  case immediateLast =>
    rintro i s t th c' ⟨hcur, ht, hw⟩ hfree hc hlast
    exact extLatch_last ⟨hcur, ht, hw⟩ true (congrArg Option.isSome hfree) hc hlast
  case fetch =>
    intro s t th c s' ht hrun hc hmeet hfetch
    refine congrArg Host.Outcome.next ?_
    simp [passHeader, ht, hrun, hc, hmeet, hfetch]
  case starts =>
    intro s t th c ht hw hm
    rw [startClause_starts ht hw hm, thread_setThread, Thread.acquireAt_eq]
    rfl
  case waits =>
    intro s t th c ht hw
    rw [startClause_waits ht hw, thread_setThread]
    rfl
  case asks =>
    intro s t th c ht hw hm asked
    rw [startClause_asks ht hw hm, thread_setThread, Option.map_some, Thread.acquireAt_eq]
    by_cases token : hasToken asked (coreOf s th) (groupKey th) = true
    · rw [if_pos token, if_pos token]
      rfl
    · rw [if_neg token, if_neg token]
      rfl
  case meet =>
    intro s t th ht hrun hc hmeet
    refine congrArg Host.Outcome.next ?_
    simp [passHeader, ht, hrun, hc, hmeet, reachMeet]
  case stays =>
    intro s t th ht hrun
    refine congrArg Host.Outcome.next ?_
    simp [passHeader, ht, hrun]

end Sys2Proof.Machine
end

section
/-!
Who acts: the current thread, the current feed context and the contexts that there are. What judges a thread's holds again before
its step, and the fetch of a feed context's word, keep them. Each function of the model on those paths has one lemma here, named
after it, in the order of the model.
-/
namespace Sys2Proof.Machine
set_option Elab.async false

/-- The current thread, the current feed context, and the feed contexts. -/
def actors (s : State) : Option Nat × Option (Nat × Nat) × KMap Feed := (s.cur, s.curFeed, s.feeds)

/-- Those who act in a state are `a`. -/
def Acting (a : Option Nat × Option (Nat × Nat) × KMap Feed) (s : State) : Prop := actors s = a

/-- An answer that is no error satisfies `p`. -/
def Answers {ε α : Type} (p : α → Prop) (r : Except ε α) : Prop := ∀ v, r = .ok v → p v

section
variable {a : Option Nat × Option (Nat × Nat) × KMap Feed} {s s' x y : State} {α β ε : Type} {p : α → Prop}

/-! ### Along a computation -/

theorem Acting.frame (h : Acting a s) (e : actors s' = actors s := by rfl) : Acting a s' := e.trans h

theorem Acting.ite {c : Prop} [Decidable c] (hx : Acting a x) (hy : Acting a y) : Acting a (if c then x else y) :=
  iteInduction (fun _ => hx) fun _ => hy

/-- A change that is made under a condition. -/
theorem Acting.when {c : Prop} [Decidable c] (hx : Acting a s → Acting a x) (h : Acting a s) : Acting a (if c then x else s) :=
  .ite (hx h) h

theorem Acting.ite₂ {c : Prop} [Decidable c] {x y : α × State} (hx : Acting a x.2) (hy : Acting a y.2) :
    Acting a (if c then x else y).2 :=
  iteInduction (motive := fun r : α × State => Acting a r.2) (fun _ => hx) fun _ => hy

theorem Acting.ite₃ {c : Prop} [Decidable c] {x y : α × β × State} (hx : Acting a x.2.2) (hy : Acting a y.2.2) :
    Acting a (if c then x else y).2.2 :=
  iteInduction (motive := fun r : α × β × State => Acting a r.2.2) (fun _ => hx) fun _ => hy

theorem Acting.foldl {f : State → α → State} {l : List α} (hf : ∀ {s b}, Acting a s → Acting a (f s b)) (h : Acting a s) :
    Acting a (l.foldl f s) := List.foldlRecOn (motive := Acting a) l f h fun _ h _ _ => hf h

theorem Acting.foldl₂ {f : α × State → β → α × State} {l : List β} {r : α × State}
    (hf : ∀ {r b}, Acting a r.2 → Acting a (f r b).2) (h : Acting a r.2) : Acting a (l.foldl f r).2 :=
  List.foldlRecOn (motive := fun r => Acting a r.2) l f h fun _ h _ _ => hf h

theorem Acting.foldl₃ {γ : Type} {f : α × β × State → γ → α × β × State} {l : List γ} {r : α × β × State}
    (hf : ∀ {r b}, Acting a r.2.2 → Acting a (f r b).2.2) (h : Acting a r.2.2) : Acting a (l.foldl f r).2.2 :=
  List.foldlRecOn (motive := fun r => Acting a r.2.2) l f h fun _ h _ _ => hf h

/-- The state of a pair that has been taken apart. -/
theorem Acting.of_eq {x : α × State} {v : α} (h : Acting a x.2) (e : x = (v, s)) : Acting a s := by subst e; exact h

theorem Answers.ok {v : α} (h : p v) : Answers p (.ok v : Except ε α) := by rintro _ ⟨⟩; exact h

theorem Answers.error {e : ε} : Answers p (.error e) := nofun

theorem Answers.ite {c : Prop} [Decidable c] {r r' : Except ε α} (h : Answers p r) (h' : Answers p r') :
    Answers p (if c then r else r') :=
  iteInduction (fun _ => h) fun _ => h'

/-! ### Registers -/

theorem Acting.modThread {t f} (h : Acting a s) : Acting a (modThread s t f) := .frame h
theorem Acting.modTeam {i f} (h : Acting a s) : Acting a (modTeam s i f) := .frame h
theorem Acting.modCore {c f} (h : Acting a s) : Acting a (modCore s c f) := .frame h
theorem Acting.modStation {i f} (h : Acting a s) : Acting a (modStation s i f) := .frame h
theorem Acting.modMtx {i f} (h : Acting a s) : Acting a (modMtx s i f) := .frame h
theorem Acting.modOutput {o f} (h : Acting a s) : Acting a (modOutput s o f) := .frame h
theorem Acting.modSlot {r i f} (h : Acting a s) : Acting a (modSlot s r i f) := .frame h
theorem Acting.modLig {tm gid l f} (h : Acting a s) : Acting a (modLig s tm gid l f) := .frame h
theorem Acting.modLines {f} (h : Acting a s) : Acting a (modLines s f) := .frame h
theorem Acting.fresh (h : Acting a s) : Acting a (fresh s).2 := .frame h

theorem Acting.signal {vec} (h : Acting a s) : Acting a (signal s vec) := .ite h (.frame h)

theorem Acting.logFault {addr sealId st idx kind} (h : Acting a s) : Acting a (logFault s addr sealId st idx kind).2 :=
  .signal (.frame h)

/-! ### Bytes and lines -/

theorem Acting.poke {l bs} (h : Acting a s) : Acting a (poke s l bs) := by
  cases l with
  | glob | weight | spad | own | remote => exact .frame h

theorem Acting.writeBack {t line} (h : Acting a s) : Acting a (writeBack s t line) := by
  unfold Machine.writeBack
  split
  · split
    · exact .frame h
    · exact h
  · exact h

theorem Acting.touchLine {t line} (h : Acting a s) : Acting a (touchLine s t line) := by
  unfold Machine.touchLine
  split
  · exact h
  · exact .ite h (.modCore (.foldl (fun h' => .writeBack h') h))

theorem Acting.touchOwn {l n} (h : Acting a s) : Acting a (touchOwn s l n) := by
  unfold Machine.touchOwn
  split
  · exact .foldl (fun h' => .touchLine h') h
  · exact h

theorem Acting.sliceVisit {l} (h : Acting a s) : Acting a (sliceVisit s l) := .ite (.modLines h) (.modLines h)
theorem Acting.tagVictims {place ls} (h : Acting a s) : Acting a (tagVictims s place ls) := .ite (.modCore h) h
theorem Acting.putCopy {c} (h : Acting a s) : Acting a (putCopy s c) := .modLines (.tagVictims h)
theorem Acting.homeLoad {l pts lease} (h : Acting a s) : Acting a (homeLoad s l pts lease) := .modLines h
theorem Acting.countMiss {c l} (h : Acting a s) : Acting a (countMiss s c l) := .ite (.modCore h) h
theorem Acting.storeTime {l pts} (h : Acting a s) : Acting a (storeTime s l pts).2 := .modLines h
theorem Acting.meetErrors {us} (h : Acting a s) : Acting a (meetErrors s us) := .ite (.frame h) h
theorem Acting.met {l n} (h : Acting a s) : Acting a (met s l n) := .ite h (.meetErrors h)

theorem Acting.noteRead {b reader} (h : Acting a s) : Acting a (noteRead s b reader) := by
  unfold Machine.noteRead
  split
  · exact .ite (.frame (.met h)) (.met h)
  · exact .met h

theorem Acting.noteSync {b pts} (h : Acting a s) : Acting a (noteSync s b pts) := by
  unfold Machine.noteSync
  split
  · exact h
  · split
    · exact .ite (.modLines h) h
    · exact .modTeam h
    · exact h

/-! ### Loads and stores -/

theorem Acting.storeAt {b bs pts sealId} (h : Acting a s) : Acting a (storeAt s b bs pts sealId).2 := by
  unfold Machine.storeAt
  split
  · refine .ite₂ (.noteSync (.ite (.modLines (.poke h)) (.poke h))) ?_
    exact .ite (.storeTime (.sliceVisit (.ite (.modLines (.poke h)) (.poke h))))
      (.modLines (.storeTime (.sliceVisit (.ite (.modLines (.poke h)) (.poke h)))))
  · exact .noteSync (.poke (.touchOwn h))

theorem Acting.storeRange {pts sealId as_ bs} (h : Acting a s) : Acting a (storeRange s pts sealId as_ bs).2 :=
  .foldl₃ (fun h' => .storeAt h') h

theorem Acting.storeDevice {pa pts sealId bs} (h : Acting a s) : Acting a (storeDevice s pa pts sealId bs) := .storeRange h

theorem Acting.loadGlob {c pa b pts peer} (h : Acting a s) : Acting a (loadGlob s c pa b pts peer).2.2 := by
  unfold Machine.loadGlob
  extract_lets l lease st home
  have hhome : ∀ {s keep}, Acting a s → Acting a (home s keep).2.2 := fun h' =>
    .ite (.putCopy (.putCopy (.homeLoad (.sliceVisit h')))) (.homeLoad (.sliceVisit h'))
  refine .ite₃ h (.ite₃ (hhome h) ?_)
  split
  · exact h
  · split
    · exact .putCopy (.countMiss h)
    · refine .ite₃ (hhome (.modStation (.countMiss h))) ?_
      split
      · exact .putCopy (.putCopy (.countMiss h))
      · exact hhome (.countMiss h)

theorem Acting.loadAt {c b pts reader peer} (h : Acting a s) : Acting a (loadAt s c b pts reader peer).2.2 := by
  unfold Machine.loadAt
  split
  · exact .loadGlob (.noteRead h)
  · exact .touchOwn (.noteRead h)

theorem Acting.loadRange {c pts reader as_} (h : Acting a s) : Acting a (loadRange s c pts reader as_).2.2 :=
  .foldl₃ (fun h' => .loadAt h') h

/-! ### Translation -/

theorem Acting.tlbInsert {sid e} (h : Acting a s) : Acting a (tlbInsert s sid e) := .modStation h

theorem Acting.setAccessed {e pa} (h : Acting a s) : Acting a (setAccessed s e pa) := .ite h (.storeAt h)

theorem Acting.noteWalk {sealId va} (h : Acting a s) : Acting a (noteWalk s sealId va) :=
  .foldl (fun h' => .sliceVisit (.noteRead h')) h

theorem Acting.unitWalk {st sealId va} (h : Acting a s) : Acting a (unitWalk s st sealId va).2 := by
  unfold Machine.unitWalk
  extract_lets go
  have hgo : Acting a (go s).2 := by
    unfold go
    dsimp only
    split
    · exact .setAccessed (.noteWalk h)
    · exact .noteWalk h
  split
  · exact hgo
  · split
    · exact h
    · refine .ite₂ h ?_
      split
      · next e => exact .tlbInsert (.of_eq hgo e)
      · exact hgo

theorem Answers.translateNow {st sealId va len k} (h : Acting a s) :
    Answers (fun r => Acting a r.2) (translateNow s st sealId va len k) := by
  unfold Machine.translateNow
  split
  · next e =>
    split
    · exact .error
    · exact .ok (.of_eq (.unitWalk h) e)
  · exact .error
  · exact .error
  · exact .error

theorem Acting.enterFault {st sealId va kind ths} (h : Acting a s) : Acting a (enterFault s st sealId va kind ths) := by
  unfold Machine.enterFault
  refine .foldl (fun h' => .modThread h') ?_
  split
  · exact .modStation h
  · exact .modStation (.logFault h)

theorem Acting.engineFault {st sealId va} (h : Acting a s) : Acting a (engineFault s st sealId va) := .ite h (.enterFault h)

/-- An engine's answer that holds a state leaves those who act. -/
def EngRes.Acting (a : Option Nat × Option (Nat × Nat) × KMap Feed) : EngRes → Prop
  | .ok _ s => Machine.Acting a s
  | .wait s => Machine.Acting a s
  | .fail _ => True
  | .drop => True

theorem EngRes.Acting.engineGlob {st sealId va n k} (h : Machine.Acting a s) : (engineGlob s st sealId va n k).Acting a := by
  refine List.foldlRecOn (motive := EngRes.Acting a) _ _ h fun r hr p _ => ?_
  split
  · next s =>
    have hs : Machine.Acting a s := hr
    split
    · next e => exact Answers.translateNow hs _ e
    · exact hs
    · exact Machine.Acting.engineFault hs
    · trivial
    · trivial
  · exact hr

/-! ### Outstanding operations -/

theorem Acting.atomAt {c b op pts sealId} (h : Acting a s) : Acting a (atomAt s c b op pts sealId).2.2 :=
  .ite₃ (.loadAt h) (.storeAt (.noteRead h))

theorem Acting.readLeft {c pts reader as_ parts} (h : Acting a s) : Acting a (readLeft s c pts reader as_ parts).2.2 :=
  .foldl₃ (fun h' => .loadRange h') h

theorem Acting.writeLeft {pts sealId as_ bs parts} (h : Acting a s) : Acting a (writeLeft s pts sealId as_ bs parts).2 :=
  .foldl₂ (fun h' => .storeRange h') h

theorem Acting.performFlight {t f peer} (h : Acting a s) : Acting a (performFlight s t f peer) := by
  unfold Machine.performFlight
  split
  · exact h
  · split
    · exact .modThread (.ite₃ (.loadAt h) (.readLeft h))
    · exact .modThread (.ite₂ (.storeAt h) (.writeLeft h))
    · exact .modThread (.atomAt h)
    · exact .modThread (.modMtx (.ite₃ (.loadRange h) (.readLeft h)))
    · exact h

theorem Acting.performAll {t fs} (h : Acting a s) : Acting a (performAll s t fs) :=
  .foldl (fun h' => .ite (.performFlight h') h') h

theorem Acting.flush {t} (h : Acting a s) : Acting a (flush s t) := by
  unfold Machine.flush
  split
  · exact h
  · exact .modThread (.performAll h)

theorem Acting.readNow {t as_} (h : Acting a s) : Acting a (readNow s t as_).2 := by
  unfold Machine.readNow
  dsimp only
  split
  · exact .flush h
  · exact .modThread (.loadRange (.flush h))

theorem Acting.resumeToRecord {t} (h : Acting a s) : Acting a (resumeToRecord s t) := by
  unfold Machine.resumeToRecord
  split
  · exact .ite (.storeDevice h) h
  · exact h

theorem Acting.raiseDue {t cause infos} (h : Acting a s) : Acting a (raiseDue s t cause infos) := .resumeToRecord (.modThread h)

/-! ### Matrix operations -/

theorem Acting.fillBank {c team key} (h : Acting a s) : Acting a (fillBank s c team key) := by
  unfold Machine.fillBank
  split
  · exact h
  · dsimp only
    split
    · exact .modTeam (.loadRange h)
    · exact .modTeam h

theorem Acting.unmarkBank {team key} (h : Acting a s) : Acting a (unmarkBank s team key) := .modTeam h

theorem Acting.assignSet {c one team key id} (h : Acting a s) : Acting a (assignSet s c one team key id) :=
  .ite (.unmarkBank (.modCore h)) (.fillBank (.modCore h))

theorem Acting.serveBank {c team key id one} (h : Acting a s) : Acting a (serveBank s c team key id one) :=
  .ite (.modCore h) (.ite (.assignSet h) (.modMtx (.modCore h)))

theorem Acting.enterMtx {o} (h : Acting a s) : Acting a (enterMtx s o).2 := by
  unfold Machine.enterMtx
  dsimp only
  split
  · exact .serveBank (.frame h)
  · exact .frame h

theorem Acting.startMma {team quad sealId pts b ts} (h : Acting a s) : Acting a (startMma s team quad sealId pts b ts) :=
  .foldl (fun h' => .modThread h') (.enterMtx h)

theorem Answers.mmacBytes {k p} (h : Acting a k.s) : Answers (fun r => Acting a r.2) (mmacBytes k p) := by
  unfold Machine.mmacBytes
  refine .ite (.ok h) ?_
  dsimp only
  split
  · exact .error
  · exact .ok (.readNow h)

theorem Answers.mmacCheck {k p} (h : Acting a k.s) : Answers (fun r => Acting a r.2) (mmacCheck k p) := by
  unfold Machine.mmacCheck
  split
  · exact .error
  · refine .ite .error ?_
    split
    · exact .error
    · next e =>
      have hs := Answers.mmacBytes h _ e
      intro r hr
      cases hb : blockCheck _ _ _ with
      | error => rw [hb] at hr; nomatch hr
      | ok b => rw [hb] at hr; cases hr; exact hs

/-- A vote that enters its operation leaves those who act. -/
theorem Acting.mmacVote {ps} (h : Acting a s) (e : mmacVote s ps = .go s') : Acting a s' := by
  unfold Machine.mmacVote at e
  split at e
  · nomatch e
  · split at e
    · nomatch e
    · split at e
      · nomatch e
      · next k hk =>
        have hk : Acting a k.s := by
          obtain ⟨th, -, rfl⟩ := Option.map_eq_some_iff.1 hk
          exact h
        split at e
        · nomatch e
        · next e' =>
          have hs := Answers.mmacCheck hk _ e'
          dsimp only at e
          split at e
          · nomatch e
          · cases e
            exact .startMma hs

/-! ### Ligatures -/

theorem Acting.completeParts {ps pts} (h : Acting a s) : Acting a (completeParts s ps pts) := .foldl (fun h' => .modThread h') h

theorem Acting.breach {tm gid l ps infos} (h : Acting a s) : Acting a (breach s tm gid l ps infos) :=
  .modLig (.foldl (fun h' => .raiseDue h') h)

theorem Acting.releaseLig {tm gid l} (h : Acting a s) : Acting a (releaseLig s tm gid l) := by
  unfold Machine.releaseLig
  split
  · exact h
  · exact .foldl (fun h' => .modThread h') (.modLig h)

theorem Acting.ligCheck {tm gid l} (h : Acting a s) : Acting a (ligCheck s tm gid l) := by
  unfold Machine.ligCheck
  split
  · exact h
  · exact .releaseLig h
  · exact .breach h
  · exact .breach h
  · split
    · split
      · exact h
      · exact .modLig (.foldl (fun h' => .raiseDue h') h)
      · next e => exact .completeParts (.modLig (.mmacVote h e))
    · exact .completeParts (.modLig h)

theorem Acting.rejudge {t} (h : Acting a s) : Acting a (rejudge s t) := by
  unfold Machine.rejudge
  split
  · split
    · exact .ligCheck h
    · exact h
  · exact h

/-! ### Commits that wait -/

theorem Acting.beginRead {e id} (h : Acting a s) : Acting a (beginRead s e id) := by
  unfold Machine.beginRead
  split
  · exact .modTeam h
  · exact h

theorem Acting.endRead {t idx id} (h : Acting a s) : Acting a (endRead s t idx id) := .modTeam h

theorem Acting.commitStrip {t tm out pts σ buf} (h : Acting a s) : Acting a (commitStrip s t tm out pts σ buf) := by
  unfold Machine.commitStrip
  refine .when (fun h' => .modOutput h') (.modSlot ?_)
  split
  · exact h
  · exact .endRead (.modSlot (.beginRead (.met h)))

theorem Acting.serveCommit {p} (h : Acting a s) : Acting a (serveCommit s p) := by
  unfold Machine.serveCommit
  dsimp only
  split
  · split
    · exact .modThread (.frame h)
    · exact .ite h (.modThread (.frame (.commitStrip h)))
  · exact .frame h

theorem Acting.settleCommits (h : Acting a s) : Acting a (settleCommits s) := .foldl (fun h' => .serveCommit h') h

/-- Judging the holds again leaves those who act. -/
theorem Acting.settleHolds (h : Acting a s) : Acting a (settleHolds s) :=
  .frame (.foldl (fun h' => .rejudge h') (.settleCommits h))

end

end Sys2Proof.Machine
end

section
/-!
Every state has a next state: no word of a thread or of a feed context, and no row of the catalogue, stops the machine.
-/
namespace Sys2Proof

set_option Elab.async false

/-! ### What a decoded word is -/

/-- The row reads instructions of its own opcode. -/
def WordRow.namesOpcode (w : Nat) (r : WordRow) : Bool := opcode? (r.make w) == some r.opc

theorem wordRows_nameOpcode (w : Nat) : wordRows.all (WordRow.namesOpcode w) = true := by
  unfold wordRows
  simp only [List.all_append, Bool.and_eq_true]
  exact ⟨⟨⟨⟨⟨⟨⟨⟨rfl, rfl⟩, rfl⟩, rfl⟩, rfl⟩, rfl⟩, rfl⟩, rfl⟩, rfl⟩

/-- A word of the map decodes to an instruction of a thread. -/
theorem opcode_of_decodeWord {w : Nat} {i : Instr} (h : decodeWord w = .ok i) : ∃ o, opcode? i = some o := by
  by_cases hx : opcOf w = 0x3FF
  · rw [decodeWord_ext hx] at h
    obtain ⟨-, h⟩ := decodeExt_eq_ok.1 h
    split at h
    · exact h ▸ ⟨_, rfl⟩
    · exact h.2 ▸ ⟨_, rfl⟩
  · obtain ⟨r, hr, -, rfl, -⟩ := (decodeWord_eq_ok hx).1 h
    exact ⟨_, beq_iff_eq.1 (List.all_eq_true.1 (wordRows_nameOpcode w) r (List.mem_of_find?_eq_some hr))⟩

theorem mem_of_decodeAccess {w : Nat} {i : Instr} (h : decodeAccess w = some i) : ∃ r ∈ rowsAccess, r.make w = i := by
  unfold decodeAccess at h
  split at h
  · nomatch h
  · next hr =>
    split at h
    · exact ⟨_, List.mem_of_find?_eq_some hr, Option.some.inj h⟩
    · nomatch h

namespace Machine

/-! ### Outcomes -/

/-- The outcome is a next state. -/
def Proceeds (r : Host.Outcome State Fault Refusal) : Prop := ∃ s', r = .next s'

theorem Proceeds.next {s : State} : Proceeds (.next s) := ⟨s, rfl⟩

theorem Proceeds.ite {c : Prop} [Decidable c] {x y : Host.Outcome State Fault Refusal} (hx : Proceeds x) (hy : Proceeds y) :
    Proceeds (if c then x else y) := iteInduction (fun _ => hx) fun _ => hy

section
variable {s : State} {t : Nat} {th : Thread} {i : Instr}

/-! ### Instructions -/

section
variable (hcur : s.cur = some t) (ht : thread? s t = some th)
include hcur ht

theorem issue_proceeds (i : Instr) (srcs : List Src) (body : Ctx → Except Stop Eff) : Proceeds (issue i srcs body s) := by
  simp only [issue, hcur, ht]
  exact .next

theorem extLatch_proceeds (i : Instr) (imm : Bool) : Proceeds (extLatch i imm s) := by
  simp only [extLatch, hcur, Option.bind_some, ht]
  exact .ite .next (.ite .next .next)

/-- A word of the current thread proceeds. -/
theorem exec_proceeds_of_opcode {o : Nat} (ho : opcode? i = some o) : Proceeds (exec i s) := by
  cases i <;> cases ho
  case extControlForm => exact extLatch_proceeds hcur ht _ _
  case extImmediateForm => exact extLatch_proceeds hcur ht _ _
  all_goals exact issue_proceeds hcur ht _ _ _
end

/-- A row that is no word is a step of a unit, a link or the host: its outcome is written out as a next state. -/
theorem exec_proceeds_of_event (h : encode i = []) (s : State) : Proceeds (exec i s) := by
  cases i <;> cases h <;> exact .next

theorem feedIssue_proceeds {c x : Nat} {f : Feed} (hcur : s.curFeed = some (c, x)) (hf : kget? s.feeds (feedKey c x) = some f)
    (loopWord : Bool) (body : State → Nat → Nat → Feed → State) : Proceeds (feedIssue loopWord body s) := by
  simp only [feedIssue, hcur, hf]
  exact .next

/-- A word of the current feed context proceeds. -/
theorem exec_proceeds_of_access {c x w : Nat} {f : Feed} (hcur : s.curFeed = some (c, x)) (hf : kget? s.feeds (feedKey c x) = some f)
    (h : decodeAccess w = some i) : Proceeds (exec i s) := by
  obtain ⟨r, hr, rfl⟩ := mem_of_decodeAccess h
  simp only [rowsAccess, List.mem_cons, List.not_mem_nil, or_false] at hr
  rcases hr with rfl | rfl | rfl | rfl | rfl | rfl | rfl | rfl | rfl
  · exact (feedIssue_proceeds hcur hf _ _ : Proceeds (execFloop _ _ _ s))
  · exact (feedIssue_proceeds hcur hf _ _ : Proceeds (execFend s))
  · exact (feedIssue_proceeds hcur hf _ _ : Proceeds (execFaddr _ _ _ _ s))
  · exact (feedIssue_proceeds hcur hf _ _ : Proceeds (execFpush _ _ _ _ _ s))
  · exact (feedIssue_proceeds hcur hf _ _ : Proceeds (execFpushk _ _ _ s))
  · exact (feedIssue_proceeds hcur hf _ _ : Proceeds (execFpermitQueue _ _ s))
  · exact (feedIssue_proceeds hcur hf _ _ : Proceeds (execFpermitBuffer _ s))
  · exact (feedIssue_proceeds hcur hf _ _ : Proceeds (execFsync _ _ s))
  · exact (feedIssue_proceeds hcur hf _ _ : Proceeds (execFstop s))

/-! ### A thread's step -/

theorem issueWord_proceeds {th' : Thread} (hcur : s.cur = some t) (ht : thread? s t = some th) : Proceeds (issueWord s t th') := by
  have decoded : ∀ {w i}, decodeWord w = .ok i → Proceeds (exec i s) := fun h =>
    exec_proceeds_of_opcode hcur ht (opcode_of_decodeWord h).choose_spec
  unfold issueWord
  dsimp only
  refine .ite ?_ (.ite .next ?_)
  · unfold fixedWord
    split
    · next e => exact decoded e
    · exact .next
    · exact .next
  · generalize entryStop _ _ = stop
    cases stop with
    | some => exact .next
    | none =>
      generalize hd : decodeWord _ = d
      cases d with
      | ok => exact decoded hd
      | error => exact .next

theorem issueNext_proceeds (hcur : s.cur = some t) (ht : thread? s t = some th) : Proceeds (issueNext t th s) := by
  unfold issueNext
  refine .ite .next ?_
  have next : thread? (modThread s t fun th => { th with yields := [], waited := 0 }) t = some { th with yields := [], waited := 0 } := by
    rw [modThread_eq _ ht, thread_setThread]
  obtain ⟨s', hs'⟩ := issueWord_proceeds (th' := th)
    (s := modThread s t fun th => { th with yields := [], waited := 0 }) hcur next
  rw [hs']
  exact .next

theorem stepThread_proceeds (t : Nat) (s : State) : Proceeds (stepThread t s) := by
  have hcur : (settleHolds { s with cur := some t, curFeed := none }).cur = some t :=
    congrArg Prod.fst (Acting.settleHolds (s := { s with cur := some t, curFeed := none }) rfl)
  unfold stepThread
  generalize settleHolds { s with cur := some t, curFeed := none } = s at hcur
  dsimp only
  split
  · exact .next
  · next ht =>
    refine .ite .next (.ite .next ?_)
    split
    · exact .next
    · exact .ite .next (.ite .next (.ite .next (issueNext_proceeds hcur ht)))

/-! ### A feed context's step -/

theorem kget_kmod_same {α : Type} {m : KMap α} {j : Nat} {v : α} (f : α → α) (h : kget? m j = some v) :
    kget? (kmod m j f) j = some (f v) := by
  rw [kmod_eq f h, kget_kset_same]

/-- An engine's read from this package's memory leaves those who act. -/
theorem acting_of_engineGlob {st sealId va n c pts reader : Nat} {k : AccKind} {as_ : List Access} {s' : State}
    (e : engineGlob s st sealId va n k = .ok as_ s') : Acting (actors s) (loadRange s' c pts reader as_).2.2 := by
  have answer := EngRes.Acting.engineGlob (a := actors s) (st := st) (sealId := sealId) (va := va) (n := n) (k := k) (s := s) rfl
  rw [e] at answer
  exact .loadRange answer

/-- The context whose word is fetched is still the current one, and is there. -/
theorem feedFetch_current {c x w : Nat} {s' : State} (hcur : s.curFeed = some (c, x)) (h : feedFetch s c x = (some w, s')) :
    s'.curFeed = some (c, x) ∧ ∃ f, kget? s'.feeds (feedKey c x) = some f := by
  unfold feedFetch at h
  dsimp only at h
  split at h
  · nomatch h
  · next f hf =>
    split at h
    · nomatch h
    · split at h
      · nomatch h
      · split at h
        · next e =>
          have fetched := acting_of_engineGlob (c := c) (pts := f.pts) (reader := f.sealId) e
          obtain ⟨-, rfl⟩ := Prod.mk.inj h
          have feeds := congrArg (fun p : Option Nat × Option (Nat × Nat) × KMap Feed => p.2.2) fetched
          have current := congrArg (fun p : Option Nat × Option (Nat × Nat) × KMap Feed => p.2.1) fetched
          exact ⟨Eq.trans current hcur, _, kget_kmod_same _ ((congrArg (kget? · (feedKey c x)) feeds).trans hf)⟩
        · nomatch h
        · nomatch h

theorem stepFeed_proceeds (c x : Nat) (s : State) : Proceeds (stepFeed c x s) := by
  unfold stepFeed
  dsimp only
  split
  · exact .next
  · next w s' e =>
    obtain ⟨hcur, f, hf⟩ := feedFetch_current (s := { s with curFeed := some (c, x) }) rfl e
    rw [hf]
    split
    · next h => exact exec_proceeds_of_access hcur hf h
    · exact .next
    · exact .next

end

end Machine
end Sys2Proof
end

section
/-!
Every state has a next state: the steps on an agenda, what falls due, and the model's own choice.
-/
namespace Sys2Proof.Machine
set_option Elab.async false

/-! ### What falls due -/

/-- A step proceeds wherever it is taken. -/
def ActProceeds (f : Act) : Prop := ∀ s, Proceeds (f s)

section
variable {s : State}

theorem dueScan_proceeds {o x} : Each (fun d => ActProceeds d.2) (dueScan s o x) := by
  unfold dueScan
  split
  · exact .nil
  · exact .one fun _ => .next

theorem dueChain_proceeds {o x} : Each (fun d => ActProceeds d.2) (dueChain s o x) := by
  unfold dueChain
  split
  · exact .nil
  · exact .ite .nil (.cons (fun _ => .next) (.cons (fun _ => .next) (.one fun _ => .next)))

theorem dueWaits_proceeds : Each (fun d => ActProceeds d.2) (dueWaits s) := by
  refine .filterMap ?_
  intro p
  split
  · exact fun _ => .next
  · exact .empty

theorem dueUnits_proceeds : Each (fun d => ActProceeds d.2) (dueUnits s) := by
  have slots : Each (fun d => ActProceeds d.2) (dueSlots s) := .flatMap (.filterMap (.ite (fun _ => .next) .empty))
  have retunes : Each (fun d => ActProceeds d.2) (dueRetunes s) := .filterMap (.ite (fun _ => .next) .empty)
  have wakes : Each (fun d => ActProceeds d.2) (dueWakes s) := .filterMap (.ite (fun _ => .next) .empty)
  have frames : Each (fun d => ActProceeds d.2) (dueFrames s) := .ite (.one fun _ => .next) .nil
  refine .append (.append (.append (.append (.append (.append (.append (.append (.append (.append (.append
    (.map fun _ => .next) (.flatMap dueScan_proceeds)) slots) (.flatMap dueChain_proceeds)) (.filterMap ?_))
    (.map fun _ => .next)) dueWaits_proceeds) retunes) wakes) frames)
    (.ite (.one fun _ => .next) .nil)) (.ite (.one fun _ => .next) .nil)
  exact .ite .empty (.map (p := fun _ => True) (fun _ _ => .next) (.all fun _ => trivial))

theorem issueDue_proceeds (t : Nat) : ActProceeds (issueDue t) := by
  intro s
  unfold issueDue
  split
  · exact .next
  · exact .ite (stepThread_proceeds t s) .next

theorem dueThreads_proceeds : Each (fun d => ActProceeds d.2) (dueThreads s) := by
  refine .flatMap (.append (.append (.ite .nil (.one fun _ => .next)) (.ite (.one (issueDue_proceeds _)) .nil)) ?_)
  split
  · exact .one fun _ => .next
  · exact .nil

theorem dueCores_proceeds : Each (fun d => ActProceeds d.2) (dueCores s) :=
  .flatMap (.cons (fun _ => .next) (.ite .nil (.map fun _ => .next)))

theorem dueWatchdog_proceeds : Each (fun d => ActProceeds d.2) (dueWatchdog s) := by
  refine .append (.flatMap (.ite (.one fun _ => .next) (.ite (.one fun _ => .next) .nil))) (.flatMap ?_)
  intro p
  split
  · exact .map fun _ => .next
  · exact .nil

theorem dueCycles_proceeds : Each (fun d => ActProceeds d.2) (dueCycles s) :=
  .append (.append (.append (.append (.filterMap (.ite (fun _ => .next) .empty)) (.map fun _ => .next)) dueThreads_proceeds)
    dueCores_proceeds) dueWatchdog_proceeds

theorem dueNow_proceeds : Yields ActProceeds (dueNow s) :=
  .map (p := fun d => ActProceeds d.2) (fun hd => hd) (Each.find? (.append dueUnits_proceeds dueCycles_proceeds))

theorem stepTick_proceeds (u a : Nat) (rest : List Pick) : ActProceeds (stepTick u a rest) := by
  intro s
  unfold stepTick
  dsimp only
  split
  · next e => exact Yields.answer dueNow_proceeds e _
  · exact .next

/-! ### The model's own choice -/

theorem bringUp_proceeds : Yields ActProceeds (bringUp s) := by
  unfold bringUp
  refine .ite .empty (.ite (fun _ => .next) (.ite .empty ?_))
  split
  · exact fun _ => .next
  · exact fun _ => .next
  · exact fun _ => .next
  · exact fun _ => .next
  · exact fun _ => .next
  · exact .ite (fun _ => .next) (stepTick_proceeds _ _ _)

/-- A step that changes something proceeds. -/
theorem proceeds_of_changes {f : Act} (h : changes s f = true) : Proceeds (f s) := by
  unfold changes at h
  split at h
  · next e => exact ⟨_, e⟩
  · nomatch h

theorem contexts_proceed : Each ActProceeds (contexts s) :=
  .ite .nil (.append (.map (stepFeed_proceeds _ _)) (.map (stepThread_proceeds _)))

theorem defaultStep_proceeds (s : State) : Proceeds (defaultStep s) := by
  unfold defaultStep
  split
  · next e => exact Yields.answer bringUp_proceeds e s
  · split
    · next e => exact proceeds_of_changes (List.find?_some e)
    · split
      · next e => exact Yields.answer (Each.find? contexts_proceed) e s
      · exact stepTick_proceeds 1 3 [] (rotateSets s)

/-! ### The step -/

theorem runPick_proceeds (p : Pick) (rest : List Pick) (s : State) : Proceeds (runPick p rest s) := by
  cases p with
  | thread t => exact .ite (stepThread_proceeds _ _) .next
  | feed c x => exact .ite (stepFeed_proceeds _ _ _) .next
  | event i =>
    refine iteInduction (fun _ => .next) fun h => exec_proceeds_of_event ?_ _
    simp only [Bool.or_eq_true, not_or, Bool.not_eq_true, isWord, Bool.not_eq_false', List.isEmpty_iff] at h
    exact h.1
  | tick u a => exact stepTick_proceeds u a rest s

theorem errorStep_proceeds (d : ErrUnit × Bool × Bool) : ActProceeds (errorStep d) := by
  intro s
  unfold errorStep
  split
  · exact .next
  · exact .next

theorem step_proceeds (s : State) : Proceeds (step s) := by
  refine .ite .next ?_
  split
  · exact errorStep_proceeds _ s
  · split
    · exact .next
    · split
      · exact runPick_proceeds _ _ s
      · exact defaultStep_proceeds s
end

/-- Settles O56: only a word that has no thread or no feed context to run it would stop the machine, and every path to a word
makes its context the current one (`stepThread_proceeds`, `stepFeed_proceeds`). -/
theorem everyStateHasANextState : Obligations.EveryStateHasANextState := step_proceeds

end Sys2Proof.Machine
end

section
/-!
Branches, calls and returns (R91 to R96).
-/
namespace Sys2Proof.Machine
set_option Elab.async false

/-! ### Branches -/

theorem Ctx.target_of_no_imm {k : Ctx} {o n : Nat} (hn : n ≠ 0) (ho : o < 2 ^ n) (hi : k.imm = none) :
    k.target o n = (((nextHeader k.th : Int) + 4 * (if o < 2 ^ (n - 1) then (o : Int) else o - 2 ^ n)) % 2 ^ 64).toNat := by
  have signed : sx o n = if o < 2 ^ (n - 1) then (o : Int) else o - 2 ^ n := by
    simp only [sx, Nat.mod_eq_of_lt ho, if_neg hn]
    push_cast
    rfl
  simp only [Ctx.target, hi, signed, wrap]
  push_cast
  rfl

/-- A word that branches leaves its thread between clauses at the target. -/
theorem complete_branch {k : Ctx} (sw : Bool) (frees : List Nat) (target : Nat) (h : thread? k.s k.t = some k.th) :
    complete k sw frees { st := k.s, flow := .branch target }
      = setThread k.s k.t (((k.th.unmap frees).branchTo target).afterWord sw) :=
  modThread_eq _ h

/-! ### The return stack -/

theorem Flight.open_of_got {f : Flight} (h : f.got.isSome) : f.open_ = false := by
  rw [Flight.open_, ← Option.not_isSome, h]
  rfl

theorem mustPrecede_of_closed {fs : List Flight} (fence : Nat) (as_ : List Access) (h : ∀ f ∈ fs, f.open_ = false) :
    mustPrecede fs fence as_ = [] := by
  refine congrArg Prod.fst (List.foldrRecOn (motive := (· = ([], as_))) fs _ rfl ?_)
  rintro _ rfl f hf
  simp [h f hf]

/-- Where every outstanding access of a thread is performed, one made now follows nothing. -/
theorem Ctx.before_of_performed {k : Ctx} (a : Access) (ht : thread? k.s k.t = some k.th) (hf : ∀ f ∈ k.th.flights, f.got.isSome) :
    k.before a = .ok k.s := by
  have first : mustPrecede k.th.flights k.th.fencew [a] = [] := mustPrecede_of_closed _ _ fun f h => Flight.open_of_got (hf f h)
  have done : performBefore k.s k.t [a] = some k.s := by
    simp only [performBefore, ht, first, List.all_nil, if_true]
    rfl
  simp only [Ctx.before, done]

section
variable {k : Ctx}

theorem pushReturn_room (v : Nat) (h : k.th.stack.length < 16) :
    pushReturn k v = .ok (setThread k.s k.t { k.th with stack := v :: k.th.stack }) := if_pos h

theorem pushReturn_spills (v : Nat) (hfull : 16 ≤ k.th.stack.length) (hroom : 8 * (k.th.spilled + 1) ≤ k.window) {s : State}
    (hb : k.before (k.spillSlot k.th.spilled) = .ok s) :
    pushReturn k v = .ok (modThread
      (poke (touchOwn s (.own k.t (k.window - 8 * (k.th.spilled + 1))) 8) (.own k.t (k.window - 8 * (k.th.spilled + 1)))
        (leBytes 8 (k.th.stack.getLast?.getD 0))) k.t
      (fun th => { th with stack := v :: th.stack.dropLast, spilled := th.spilled + 1 })) := by
  have depth : ¬ k.th.stack.length < stackDepth := Nat.not_lt.2 hfull
  simp only [pushReturn, depth, Nat.not_lt.2 hroom, if_false, hb]
  rfl

theorem pushReturn_outside (v : Nat) (hfull : 16 ≤ k.th.stack.length) (hroom : k.window < 8 * (k.th.spilled + 1)) :
    pushReturn k v = .error (.trap causeAccess 0xF2 (wordN k.window) 0 k.iw) := by
  have depth : ¬ k.th.stack.length < stackDepth := Nat.not_lt.2 hfull
  simp only [pushReturn, depth, hroom, if_false, if_true]

theorem callTo_of_push {s : State} (target : Nat) (h : pushReturn k (nextHeader k.th % 2 ^ 64) = .ok s) :
    callTo k target = .ok { st := s, flow := .branch target } := by
  simp only [callTo, h, takeBranch]

theorem callTo_of_stop {st : Stop} (target : Nat) (h : pushReturn k (nextHeader k.th % 2 ^ 64) = .error st) :
    callTo k target = .error st := by
  simp only [callTo, h]

theorem popReturn_newest (h : k.th.stack ≠ []) :
    popReturn k = .ok { st := setThread k.s k.t { k.th with stack := k.th.stack.tail }, flow := .branch (k.th.stack.headD 0) } := by
  cases hs : k.th.stack with
  | nil => exact absurd hs h
  | cons v vs => simp only [popReturn, hs, takeBranch, List.tail_cons, List.headD_cons]

theorem popReturn_spilled {s : State} (he : k.th.stack = []) (hn : k.th.spilled ≠ 0)
    (hb : k.before (k.spillSlot (k.th.spilled - 1)) = .ok s) :
    popReturn k = .ok (let l : Loc := .own k.t (k.window - 8 * k.th.spilled)
      { st := modThread (touchOwn (met s l 8) l 8) k.t (fun th => { th with spilled := th.spilled - 1 })
        flow := .branch (leNat (peek (met s l 8) l 8)) }) := by
  have slot : k.th.spilled - 1 + 1 = k.th.spilled := Nat.succ_pred_eq_of_ne_zero hn
  have pop : popReturn k = (k.before (k.spillSlot (k.th.spilled - 1))).bind (fun s =>
      let r := loadAt s (coreOf s k.th) (k.spillSlot (k.th.spilled - 1)) (ptsOf s k.t) k.th.sealId none
      takeBranch (modThread r.2.2 k.t (fun th => { th with spilled := th.spilled - 1 })) (leNat r.1)) := by
    simp only [popReturn, he, beq_eq_false_iff_ne.2 hn, Bool.false_eq_true, if_false]
  rw [pop, hb, Ctx.spillSlot, slot]
  rfl

theorem popReturn_empty (he : k.th.stack = []) (hn : k.th.spilled = 0) : popReturn k = .error (.trap causeRetEmpty 0 0 0 0) := by
  simp only [popReturn, he, hn, beq_self_eq_true, if_true]

end

/-- Settles O14: each word's entry by the depth of the return stack and the room of the private window. -/
theorem branchesAndCalls : Obligations.BranchesAndCalls := by
  refine ⟨⟨?bra, ?brp, ?brx, fun k o n => Ctx.target_of_no_imm, ?branch⟩,
    ?call, ?callx, ?callSpills, ?callxSpills, fun k j => rfl, fun k a => Ctx.before_of_performed a, ?callOutside, ?callxOutside,
    ?ret, ?retSpilled, ?retEmpty⟩
  case bra => exact fun sw o => runs_of (fun _ => rfl) fun k _ => rfl
  case brp =>
    refine fun sw p n o => runs_of (fun _ => rfl) fun k _ => ?_
    cases k.th.pred p.toNat <;> cases n <;> rfl
  case brx => exact fun sw a x => runs_of (fun _ => rfl) fun k _ => rfl
  case branch =>
    intro k sw frees target h
    rw [complete_branch sw frees target h, thread_setThread]
    rfl
  case call => exact fun sw o => runs_of (fun _ => rfl) fun k h => callTo_of_push _ (pushReturn_room _ h)
  case callx => exact fun sw a x => runs_of (fun _ => rfl) fun k h => callTo_of_push _ (pushReturn_room _ h)
  case callSpills =>
    exact fun sw o s1 => runs_of (fun _ => rfl) fun k ⟨⟨hfull, hroom⟩, hb⟩ => callTo_of_push _ (pushReturn_spills _ hfull hroom hb)
  case callxSpills =>
    exact fun sw a x s1 => runs_of (fun _ => rfl) fun k ⟨⟨hfull, hroom⟩, hb⟩ => callTo_of_push _ (pushReturn_spills _ hfull hroom hb)
  case callOutside =>
    exact fun sw o => traps_of (fun _ => rfl) fun k ⟨hfull, hroom⟩ => callTo_of_stop _ (pushReturn_outside _ hfull hroom)
  case callxOutside =>
    exact fun sw a x => traps_of (fun _ => rfl) fun k ⟨hfull, hroom⟩ => callTo_of_stop _ (pushReturn_outside _ hfull hroom)
  case ret => exact fun sw => runs_of (fun _ => rfl) fun k h => popReturn_newest h
  case retSpilled => exact fun sw s1 => runs_of (fun _ => rfl) fun k ⟨he, hn, hb⟩ => popReturn_spilled he hn hb
  case retEmpty => exact fun sw => traps_of (fun _ => rfl) fun k ⟨he, hn⟩ => popReturn_empty he hn

end Sys2Proof.Machine
end

section
/-!
The end of a thread whose number is not below the next fresh one (R105, R382, R385).
-/
namespace Sys2Proof.Machine
set_option Elab.async false

/-- A slice of one thread, which waits for no other slice (R381). -/
def loneSlice : SliceEntry :=
  { kaddr := 0, args := 0, teamn := 1, groups := 1, sflags := 0, spord := 0, tiles := 0, regb := 0, afterSl := 0xFF, budget := 0, dloff := 0 }

/-- A chain of two such slices: the first runs as team 2 and job slice 1, the second is still to be placed (R382). -/
def halfPlacedChain : Chain :=
  { out := 0, arm := 0, frame := 0, k := 0, seqNo := 0, t := 0, f := 0, s := 0, sealId := 0, lo := none, pts := 0
    video := { forigin := 0, lper := 0, tlines := 0, vstart := 0, vact := 0, hact := 0, guard := 0, window := 0, ring := 0, sh := 0
               chain := 0, factor := 0, halo := 0, loring := 0, keyint := 0, qbase := 0, tenb := false }
    tpl := { sealId := 0, map := 3, claims := [], slices := [loneSlice, loneSlice], bsbase := 0, bssize := 0 }
    slices := [{ team := some 2, job := some 1 }, {}] }

/-- Thread 5 is alone in team 2, the first slice of a chain whose second slice has a free reservation on core 0. The next fresh
numbers are 3, 4 and 5: those of the second slice's grid, team and thread. -/
def reusedNumber : State :=
  { nextId := 3
    threads := [(5, probeThread 2 0)]
    teams := [(2, { grid := 0, index := 0, x := 0, y := 0, z := 0, core := 0, cluster := 0, sealId := 0, groups := 1, nthreads := 1
                    spord := 0, base := 0, tiles := 0, quad := false, privKb := 0, handle := none, roles := [], buffers := []
                    arrivals := [], slice := some 1, chain := some 7 })]
    jobs := [(1, { team := 2, chain := some 7, idx := 0, out := 0, frame := 0, strip := 0, deadline := none, budget := 0 })]
    chains := [(7, halfPlacedChain)]
    reserves := [{ out := 0, arm := 0, slice := 1, inst := 0, core := 0, base := 1024, size := 1024, threads := 1, groups := 1
                   tiles := 0, spord := 0, entries := 0, team := none, present := true }] }

/-- The end of thread 5 ends its slice, and the slice placed after it has a thread of the same number, of team 4. -/
theorem endThread_reusedNumber : (thread? (endThread reusedNumber 5) 5).map (·.team) = some 4 := by decide +kernel

/-- Refutes O17: the end of a team's last thread places the next slice of its chain, whose thread takes a fresh number, and the
statement asks of the state only that its threads' numbers rise, not that they lie below the next fresh number. In
`reusedNumber` thread 5 has ended and there is a thread 5 again. -/
theorem not_pausesAndExit : ¬ Obligations.PausesAndExit := by
  unfold Obligations.PausesAndExit
  rintro ⟨-, -, gone, -⟩
  have := endThread_reusedNumber
  rw [gone reusedNumber 5 rfl] at this
  exact absurd this (by decide)

end Sys2Proof.Machine
end

section
/-!
Ligature words, rendezvous and their results (R85 to R101, R107, R108).
-/
namespace Sys2Proof.Machine
set_option Elab.async false

/-! ### Words that act on a ligature -/

theorem rendezvousBody_of_not_member {k : Ctx} (opc : Nat) (d a b : BitVec 6) (m : Bool) (dests frees : List Nat)
    (h : k.member b.toNat = false) : rendezvousBody opc d a b m dests frees k = .error (notMember b.toNat) := by
  simp only [rendezvousBody, h, Bool.not_false, if_true]

theorem freesOf_src (a : BitVec 6) (x : Bool) : freesOf [src a x] = if x then [a.toNat] else [] := by
  cases x <;> rfl

/-- A member that no order holds arrives at the word's ligature with its values. -/
theorem rendezvousBody_of_ready {k : Ctx} (opc : Nat) (d a b : BitVec 6) (x m : Bool) (dests : List Nat)
    (h : k.member b.toNat = true ∧ orderWaits k.s k.th = false) : rendezvousBody opc d a b m dests (freesOf [src a x]) k
      = .ok { st := k.s, later := dests, flow := .done
              after := fun s => arriveLig s k.t k.th b.toNat (.rendezvous b.toNat opc d.toNat (k.th.reg d.toNat)
                (k.th.reg a.toNat) m [] (if x then [a.toNat] else [])) } := by
  simp only [rendezvousBody, h, freesOf_src, Bool.not_true, Bool.false_eq_true, if_false]
  rfl

theorem ret64_dword (k : Ctx) (d : BitVec 6) (v : DWord) : ret64 k d v.toNat
    = .ok { st := k.s, writes := [(d.toNat, v.setWidth 32), (d.toNat + 1, (v >>> 32).setWidth 32)] } := by
  have low : wordN (v.toNat % 2 ^ 32) = v.setWidth 32 := BitVec.eq_of_toNat_eq (by simp [wordN])
  have high : wordN (v.toNat / 2 ^ 32 % 2 ^ 32) = (v >>> 32).setWidth 32 :=
    BitVec.eq_of_toNat_eq (by simp [wordN, Nat.shiftRight_eq_div_pow])
  rw [ret64, low, high]

/-! ### Reductions -/

theorem redAll_add (vs : List Word) : redAll 0 vs = vs.foldl (· + ·) 0 := by
  cases vs with
  | nil => rfl
  | cons v vs => exact congrArg (vs.foldl (· + ·)) (BitVec.zero_add v).symm

/-- A reduction whose step is `g` on what `f` reads is the fold of `g` over what `f` reads. -/
theorem redAll_hom {β : Type} {op : Nat} (f : Word → β) {g : β → β → β} (h : ∀ a b, f (redStep op a b) = g (f a) (f b))
    (v : Word) (vs : List Word) : f (redAll op (v :: vs)) = (vs.map f).foldl g (f v) := by
  rw [List.foldl_map, redAll]
  exact (List.foldl_hom f fun a b => (h a b).symm).symm

/-! ### Votes -/

/-- Adding a power of two whose bit is 0 sets that bit. -/
theorem testBit_add_two_pow {a m : Nat} (h : a.testBit m = false) (i : Nat) : (a + 2 ^ m).testBit i = (a.testBit i || m == i) := by
  have odd : (a / 2 ^ m) % 2 = 0 := by simpa [Nat.testBit_eq_decide_div_mod_eq] using h
  have low : a % 2 ^ m < 2 ^ m := Nat.mod_lt _ (Nat.two_pow_pos m)
  have split : a = 2 ^ (m + 1) * (a / 2 ^ m / 2) + a % 2 ^ m := by
    rw [pow_succ, mul_assoc, Nat.mul_div_cancel' (Nat.dvd_of_mod_eq_zero odd), Nat.div_add_mod]
  have low' : 2 ^ m + a % 2 ^ m < 2 ^ (m + 1) := by rw [pow_succ]; omega
  generalize a / 2 ^ m / 2 = q at split
  generalize a % 2 ^ m = r at *
  rw [split, add_assoc, add_comm r, Nat.testBit_two_pow_mul_add _ low', Nat.testBit_two_pow_mul_add _ (by omega)]
  by_cases hi : i < m + 1
  · rw [if_pos hi, if_pos hi]
    obtain hi | rfl := Nat.lt_succ_iff_lt_or_eq.1 hi
    · rw [Nat.testBit_two_pow_add_gt hi]
      simp [Nat.ne_of_gt hi]
    · rw [Nat.testBit_two_pow_add_eq, Nat.testBit_lt_two_pow low]
      simp
  · rw [if_neg hi, if_neg hi]
    simp [show m ≠ i by omega]

theorem testBit_foldl_two_pow {ms : List Nat} (hn : ms.Nodup) (i : Nat) {a : Nat} (ha : ∀ m ∈ ms, a.testBit m = false) :
    (ms.foldl (fun a m => a + 2 ^ m) a).testBit i = (a.testBit i || ms.any (· == i)) := by
  induction ms generalizing a with
  | nil => simp
  | cons m ms ih =>
    obtain ⟨hm, hn⟩ := List.nodup_cons.1 hn
    have h0 : a.testBit m = false := ha m List.mem_cons_self
    have rest : ∀ n ∈ ms, (a + 2 ^ m).testBit n = false := fun n h => by
      have apart : (m == n) = false := beq_false_of_ne fun e => hm (by rwa [e])
      rw [testBit_add_two_pow h0, ha n (List.mem_cons_of_mem _ h), apart]
      rfl
    rw [List.foldl_cons, ih hn rest, testBit_add_two_pow h0, List.any_cons, Bool.or_assoc]

/-- The mask of a vote has the bits of the participants whose value is not 0 (R107). -/
theorem testBit_voteMask {ps : List Part} (hn : (ps.map (·.mid)).Nodup) (i : Nat) :
    ((ps.filter (fun q : Part => q.av != 0)).foldl (fun a (q : Part) => a + 2 ^ q.mid) 0).testBit i
      = ps.any (fun q : Part => q.mid == i && q.av != 0) := by
  have hn' : ((ps.filter (fun q : Part => q.av != 0)).map (·.mid)).Nodup := hn.sublist (List.filter_sublist.map _)
  rw [← List.foldl_map (f := Part.mid) (g := fun a m => a + 2 ^ m), testBit_foldl_two_pow hn' i fun m _ => Nat.zero_testBit m,
    Nat.zero_testBit, Bool.false_or, List.any_map, List.any_filter]
  exact congrArg ps.any (funext fun q => Bool.and_comm _ _)

theorem getLsbD_wordN {n i : Nat} (hi : i < 32) : (wordN n).getLsbD i = n.testBit i := by
  rw [wordN, BitVec.getLsbD_ofNat, decide_eq_true hi, Bool.true_and]

theorem voteResult {ps : List Part} {p : Part} (ho : p.opc = 0x113) (hm : p.m = false) (hn : (ps.map (·.mid)).Nodup) :
    ∃ lo hi : Word, rendezvousResult ps p = [(p.d, lo), (p.d + 1, hi)]
      ∧ (∀ i < 32, lo.getLsbD i = ps.any (fun q => q.mid == i && q.av != 0))
      ∧ ∀ i < 32, hi.getLsbD i = ps.any (fun q => q.mid == 32 + i && q.av != 0) := by
  refine ⟨_, _, by simp only [rendezvousResult, ho, hm]; rfl, fun i hi => ?_, fun i hi => ?_⟩
  · rw [getLsbD_wordN hi, Nat.testBit_mod_two_pow, testBit_voteMask hn, decide_eq_true hi, Bool.true_and]
  · rw [getLsbD_wordN hi, Nat.testBit_div_two_pow, testBit_voteMask hn, add_comm]

/-! ### Folds that change one record at a time -/

theorem thread_modThread (s : State) (t : Nat) (f : Thread → Thread) (u : Nat) :
    thread? (modThread s t f) u = if u = t then (thread? s u).map f else thread? s u := by
  cases ht : thread? s t with
  | none =>
    rw [modThread_none f ht]
    by_cases hu : u = t
    · subst hu; simp [ht]
    · simp [hu]
  | some th =>
    rw [modThread_eq f ht]
    by_cases hu : u = t
    · subst hu; simp [ht, thread_setThread]
    · simp [hu, thread_setThread_ne _ _ hu]

/-- A fold whose steps each change what their own key reads leaves what another key reads. -/
theorem foldl_view_of_not_mem {σ α β κ : Type} {V : σ → κ → β} {g : σ → α → σ} {key : α → κ}
    (other : ∀ s a u, u ≠ key a → V (g s a) u = V s u) {l : List α} {u : κ} (h : u ∉ l.map key) (s : σ) :
    V (l.foldl g s) u = V s u := by
  induction l generalizing s with
  | nil => rfl
  | cons a l ih =>
    rw [List.map_cons, List.mem_cons, not_or] at h
    rw [List.foldl_cons, ih h.2, other s a u h.1]

/-- A fold over distinct keys changes what each key reads by its own step alone. -/
theorem foldl_view_of_mem {σ α β κ : Type} {V : σ → κ → β} {g : σ → α → σ} {key : α → κ} {step : α → β → β}
    (other : ∀ s a u, u ≠ key a → V (g s a) u = V s u) (own : ∀ s a, V (g s a) (key a) = step a (V s (key a)))
    {l : List α} (hn : (l.map key).Nodup) {a : α} (ha : a ∈ l) (s : σ) :
    V (l.foldl g s) (key a) = step a (V s (key a)) := by
  induction l generalizing s with
  | nil => exact absurd ha List.not_mem_nil
  | cons b l ih =>
    rw [List.map_cons, List.nodup_cons] at hn
    obtain rfl | ha := List.mem_cons.1 ha
    · rw [List.foldl_cons, foldl_view_of_not_mem other hn.1, own]
    · have hk : key a ≠ key b := fun e => hn.1 (e ▸ List.mem_map_of_mem ha)
      rw [List.foldl_cons, ih hn.2 ha, other s b _ hk]

/-- A fold that changes the threads of distinct numbers changes each by its own step. -/
theorem thread_foldl_modThread {α : Type} {key : α → Nat} (f : α → Thread → Thread) {l : List α} (hn : (l.map key).Nodup)
    {a : α} (ha : a ∈ l) (s : State) :
    thread? (l.foldl (fun s a => modThread s (key a) (f a)) s) (key a) = (thread? s (key a)).map (f a) :=
  foldl_view_of_mem (V := thread?) (step := fun a => Option.map (f a))
    (fun s a u hu => by rw [thread_modThread, if_neg hu]) (fun s a => by rw [thread_modThread, if_pos rfl]) hn ha s

theorem le_keys_of_rising {α : Type} {m : KMap α} {b : Nat} (h : risingFrom b m = true) : ∀ k ∈ m.map (·.1), b ≤ k := by
  induction m generalizing b with
  | nil => simp
  | cons p m ih =>
    simp only [risingFrom, Bool.and_eq_true, decide_eq_true_eq] at h
    exact List.forall_mem_cons.2 ⟨h.1, fun k hk => h.1.trans ((Nat.le_succ _).trans (ih h.2 k hk))⟩

theorem nodup_keys_of_rising {α : Type} {m : KMap α} {b : Nat} (h : risingFrom b m = true) : (m.map (·.1)).Nodup := by
  induction m generalizing b with
  | nil => exact List.nodup_nil
  | cons p m ih =>
    simp only [risingFrom, Bool.and_eq_true, decide_eq_true_eq] at h
    refine List.nodup_cons.2 ⟨fun hk => ?_, ih h.2⟩
    exact absurd (le_keys_of_rising h.2 _ hk) (Nat.not_succ_le_self _)

/-! ### Ligatures whose members have arrived -/

@[simp] theorem thread_modLig (s : State) (tm gid l : Nat) (f : Ligature → Ligature) (t : Nat) :
    thread? (modLig s tm gid l f) t = thread? s t := rfl

theorem ligCheck_rendezvous {s : State} {tm gid l : Nat} {ps : List Part} (hm : meetingOf s tm gid l = .rendezvous ps)
    (hp : ∀ p ∈ ps, p.opc ≠ 0x308) : ligCheck s tm gid l
      = completeParts (modLig s tm gid l (fun g => { g with arrived := 0 })) ps
          (maxPts (groupThreads s tm gid (((team? s tm).map (fun t => (t.lig gid l).arrived)).getD 0))) := by
  have none308 : ps.any (fun p => p.opc == 0x308) = false := by simpa using hp
  simp only [ligCheck, hm, none308, Bool.false_eq_true, if_false]

theorem ligCheck_mmac {s s' : State} {tm gid l : Nat} {ps : List Part} (hm : meetingOf s tm gid l = .rendezvous ps)
    (hp : ∃ p ∈ ps, p.opc = 0x308) (hv : mmacVote s ps = .go s') : ligCheck s tm gid l
      = completeParts (modLig s' tm gid l (fun g => { g with arrived := 0 })) ps
          (maxPts (groupThreads s tm gid (((team? s tm).map (fun t => (t.lig gid l).arrived)).getD 0))) := by
  have some308 : ps.any (fun p => p.opc == 0x308) = true := by simpa using hp
  simp only [ligCheck, hm, some308, if_true, hv]

/-- Where a thread stands and what its registers hold. -/
def Thread.sight (th : Thread) : Wait × Nat × Nat × KMap Word := (th.wait, th.word, th.pc, th.regs)

/-- The completion of a held word reads neither the logical time, MEET nor the hold. -/
theorem Thread.sight_completeHeld_with (th : Thread) (pts : Nat) (meet : DWord) (w : Wait) :
    ({ th with pts := pts, meet := meet, wait := w } : Thread).completeHeld.sight = th.completeHeld.sight := by
  obtain ⟨⟩ := th
  unfold completeHeld advance
  dsimp only
  split
  · rfl
  · split <;> rfl

/-- A release changes each thread of the group on its own, and takes one held at LGWAIT past its word (R85, R86). -/
theorem releaseLig_of_team {s : State} {tm gid l : Nat} {t : Team} (h : team? s tm = some t) : ∃ f : Thread → Thread,
    releaseLig s tm gid l = (groupThreads s tm gid (t.lig gid l).members).foldl (fun s q => modThread s q.1 f)
        (modLig s tm gid l (fun g => { g with arrived := 0 }))
      ∧ ∀ th i, th.wait = .ligature i → (f th).sight = th.completeHeld.sight := by
  refine ⟨_, by simp only [releaseLig, h]; rfl, fun th i hw => ?_⟩
  generalize maxPts _ = pts
  by_cases hl : fld th.meet.toNat 52 4 = l
  · simp only [Thread.takePts, hl, beq_self_eq_true, if_true, hw]
    exact th.sight_completeHeld_with (max th.pts pts) (clearBit th.meet 63) _
  · simp only [Thread.takePts, beq_false_of_ne hl, Bool.false_eq_true, if_false, hw]
    exact th.sight_completeHeld_with (max th.pts pts) th.meet _

theorem Thread.completeHeld_regs (th : Thread) : th.completeHeld.regs = th.regs := by
  unfold completeHeld advance
  split
  · rfl
  · split <;> rfl

theorem mem_groupThreads {s : State} {t l : Nat} {th : Thread} {tm : Team} (ht : thread? s t = some th)
    (hm : (tm.lig th.gid l).members.getLsbD th.mid = true) : (t, th) ∈ groupThreads s th.team th.gid (tm.lig th.gid l).members :=
  List.mem_filter.2 ⟨mem_of_kget ht, by simp [hm]⟩

theorem nodup_groupThreads {s : State} (h : risingFrom 0 s.threads = true) (tm gid : Nat) (mask : DWord) :
    ((groupThreads s tm gid mask).map (·.1)).Nodup :=
  nodup_keys_of_rising (rising_filter _ h)

/-- A member held at LGWAIT stands past its word once the ligature is released. -/
theorem thread_releaseLig {s : State} {t i l : Nat} {th : Thread} {tm : Team} (ht : thread? s t = some th)
    (hr : risingFrom 0 s.threads = true) (hw : th.wait = .ligature i) (htm : team? s th.team = some tm)
    (hm : (tm.lig th.gid l).members.getLsbD th.mid = true) :
    (thread? (releaseLig s th.team th.gid l) t).map Thread.sight = some th.completeHeld.sight := by
  obtain ⟨f, fold, past⟩ := releaseLig_of_team (gid := th.gid) (l := l) htm
  have moved := thread_foldl_modThread (key := (·.1)) (fun _ : Nat × Thread => f) (nodup_groupThreads hr _ _ _)
    (mem_groupThreads ht hm) (modLig s th.team th.gid l fun g => { g with arrived := 0 })
  rw [fold, ← past th i hw]
  exact congrArg (Option.map Thread.sight) (moved.trans (congrArg _ ht))

/-- Settles O15: each word by its entry, each result by its code, and a ligature whose members have arrived through the fold
over its threads. -/
theorem ligaturesAndRendezvous : Obligations.LigaturesAndRendezvous := by
  refine ⟨⟨?lgjoin, ?lgwaitGoes, ?lgwaitHeld, ?lgdropNone, ?lgdrop, ?lgread, ?lgreadIllegal, ?meetset, ?meetsetTraps⟩,
    ⟨?rxch, ?rbcast, ?rred, ?rvote, ?rxchTraps, ?rbcastTraps, ?rredTraps, ?rvoteTraps, ?rredIllegal,
      ?xchAt, ?xchXor, ?lowest, ?highest, ?reduceAll, ?reduceUpTo, fun vs => redAll_add vs, ?codes, ?voteCount, ?voteMask⟩,
    ⟨?completes, ?completesMmac, ?parts, ?release, ?released⟩⟩
  case lgjoin => exact fun sw a i x => runs_of (fun _ => rfl) fun k _ => rfl
  case lgwaitGoes =>
    refine fun sw a x => runs_of (fun _ => rfl) fun k h => ?_
    simp only [h, Bool.not_false, if_true]
  case lgwaitHeld =>
    refine fun sw a x => runs_of (fun _ => rfl) fun k ⟨hm, ho⟩ => ?_
    simp only [hm, ho, Bool.not_true, Bool.false_eq_true, if_false]
  case lgdropNone =>
    refine fun sw a x => runs_of (fun _ => rfl) fun k h => ?_
    simp only [h, Bool.not_false, if_true]
  case lgdrop =>
    refine fun sw a x => runs_of (fun _ => rfl) fun k h => ?_
    simp only [h, Bool.not_true, Bool.false_eq_true, if_false, beq_iff_eq]
  case lgread =>
    refine fun sw d a i x => runs_of (fun _ => rfl) fun k h => ?_
    obtain h | h := Nat.le_one_iff_eq_zero_or_eq_one.1 h
    · simp only [h]
      exact ret64_dword k d _
    · simp only [h]
      exact ret64_dword k d _
  case lgreadIllegal =>
    refine fun sw d a i x => traps_of (fun _ => rfl) fun k h => ?_
    split
    next h0 => omega
    next h1 => omega
    next => rfl
  case meetset =>
    refine fun sw o => runs_of (fun _ => rfl) fun k h => ?_
    simp only [h, Bool.not_true, Bool.false_eq_true, if_false]
    rfl
  case meetsetTraps =>
    refine fun sw o => traps_of (fun _ => rfl) fun k h => ?_
    simp only [h, Bool.not_false, if_true]
    rfl
  case rxch => exact fun sw d a b x y m => runs_of (fun _ => rfl) fun k h => rendezvousBody_of_ready _ d a b x m _ h
  case rbcast => exact fun sw d a b x y m => runs_of (fun _ => rfl) fun k h => rendezvousBody_of_ready _ d a b x m _ h
  case rred =>
    exact fun sw d a b x y m => runs_of (fun _ => rfl) fun k ⟨h, hc⟩ =>
      (if_neg (Nat.not_lt.2 hc)).trans (rendezvousBody_of_ready _ d a b x m _ h)
  case rvote => exact fun sw d a b x y m => runs_of (fun _ => rfl) fun k h => rendezvousBody_of_ready _ d a b x m _ h
  case rxchTraps => exact fun sw d a b x y m => traps_of (fun _ => rfl) fun k h => rendezvousBody_of_not_member _ d a b m _ _ h
  case rbcastTraps => exact fun sw d a b x y m => traps_of (fun _ => rfl) fun k h => rendezvousBody_of_not_member _ d a b m _ _ h
  case rredTraps =>
    exact fun sw d a b x y m => traps_of (fun _ => rfl) fun k ⟨h, hc⟩ =>
      (if_neg (Nat.not_lt.2 hc)).trans (rendezvousBody_of_not_member _ d a b m _ _ h)
  case rvoteTraps => exact fun sw d a b x y m => traps_of (fun _ => rfl) fun k h => rendezvousBody_of_not_member _ d a b m _ _ h
  case rredIllegal => exact fun sw d a b x y m => traps_of (fun _ => rfl) fun k ⟨_, hc⟩ => if_pos hc
  case xchAt =>
    intro ps p ho hm q hq
    simp [rendezvousResult, ho, hm, hq]
  case xchXor =>
    intro ps p ho hm q hq
    simp [rendezvousResult, ho, hm, hq]
  case lowest =>
    intro ps p ho q qs hps hm
    simp [rendezvousResult, ho, hm, hps]
  case highest =>
    intro ps p ho q qs hps hm
    simp [rendezvousResult, ho, hm, hps]
  case reduceAll =>
    intro ps p ho hm
    simp [rendezvousResult, ho, hm]
  case reduceUpTo =>
    intro ps p ho hm
    simp [rendezvousResult, ho, hm]
  case codes =>
    refine fun v vs => ⟨redAll_hom _ (fun a b => ?_) v vs, redAll_hom _ (fun a b => ?_) v vs, redAll_hom _ (fun a b => ?_) v vs,
      redAll_hom _ (fun a b => ?_) v vs, rfl, rfl, rfl, rfl, rfl, rfl⟩
    · exact (apply_ite _ _ _ _).trans (min_def _ _).symm
    · exact (apply_ite _ _ _ _).trans (max_def' _ _).symm
    · exact (apply_ite _ _ _ _).trans (min_def _ _).symm
    · exact (apply_ite _ _ _ _).trans (max_def' _ _).symm
  case voteCount =>
    intro ps p ho hm
    simp [rendezvousResult, ho, hm, List.countP_eq_length_filter]
  case voteMask => exact fun ps p ho hm hn _ => voteResult ho hm hn
  case completes => exact fun s tm gid l ps hm hp => ligCheck_rendezvous hm hp
  case completesMmac => exact fun s tm gid l ps s' hm hp hv => ligCheck_mmac hm hp hv
  case parts =>
    exact fun s ps pts p th hp hn ht => (thread_foldl_modThread (key := Part.t)
      (fun p th => (((th.unmap p.frees).setRegs (rendezvousResult ps p)).takePts pts).completeHeld) hn hp s).trans (congrArg _ ht)
  case release =>
    intro s tm gid l hm
    simp only [ligCheck, hm]
  case released =>
    intro s t th tm l ht hr hw htm hm
    rw [← th.completeHeld_regs]
    exact thread_releaseLig ht hr hw htm hm

end Sys2Proof.Machine
end

section
/-!
LAUNCH: what it reads, the order in which it judges it, and what each verdict leaves (R62 to R64, R106).
-/
namespace Sys2Proof.Machine
set_option Elab.async false

theorem launchWord_of_lt {off : Nat} (status : Nat) (h : off < 2 ^ 16) : launchWord status off = wordN (status + off * 2 ^ 8) := by
  rw [launchWord, Nat.mod_eq_of_lt h]

theorem enqueueGrid_full {s : State} {r : LaunchRecord} {bufs : List Buffer} {arrs : List (Arrival × Nat)} {image : Option (List Nat)}
    {pts : Nat} {task : Option (Nat × Nat)} (h : 256 ≤ queueCount s r.queue) :
    enqueueGrid s r bufs arrs image pts task = (3, s) := if_pos h

theorem enqueueGrid_room {s : State} {r : LaunchRecord} {bufs : List Buffer} {arrs : List (Arrival × Nat)} {image : Option (List Nat)}
    {pts : Nat} {task : Option (Nat × Nat)} (h : queueCount s r.queue < 256) :
    enqueueGrid s r bufs arrs image pts task = (0, { s with
      nextId := s.nextId + 1
      grids := kset s.grids s.nextId { lr := r, buffers := bufs, arrivals := arrs, image := image, pts := pts, task := task } }) :=
  if_neg (Nat.not_le.2 h)

section
variable {k : Ctx} {d a : BitVec 6} {s' : State} {bs : List Byte}
  (hr : orderWaits k.s k.th = false ∧ k.s.dev.power.stby = false
    ∧ k.readBlock k.s (k.th.reg64 a.toNat) 128 64 [0x00, 0xF0] true = .ok (bs, s'))

include hr

theorem launchBody_of_foreign_seal (h : ¬ (k.th.system = true ∨ (parseRecord bs).sealId % 1024 = k.th.sealId)) :
    launchBody d a k = .error (.trap causePriv 0 0 0 0) := by
  obtain ⟨ho, hs, hb⟩ := hr
  have hb' : k.readBlock k.s (k.g64 a) 128 64 [0x00, 0xF0] true = .ok (bs, s') := hb
  have foreign : (!k.th.system && (parseRecord bs).sealId % 1024 != k.th.sealId) = true := by simpa using h
  simp only [launchBody, ho, hs, hb', foreign, Bool.or_self, Bool.false_eq_true, if_false, if_true]

variable (ha : k.th.system = true ∨ (parseRecord bs).sealId % 1024 = k.th.sealId)

include ha

/-- LAUNCH of a record whose seal the thread may name: the record's fields, then the rest. -/
theorem launchBody_of_allowed : launchBody d a k =
    ((badField (recordChecks (parseRecord bs) bs)).map fun off => .ok { st := s', writes := [(d.toNat, launchWord 1 off)] }).getD
      (launchChecked k d (parseRecord bs) s') := by
  obtain ⟨ho, hs, hb⟩ := hr
  have hb' : k.readBlock k.s (k.g64 a) 128 64 [0x00, 0xF0] true = .ok (bs, s') := hb
  have own : (!k.th.system && (parseRecord bs).sealId % 1024 != k.th.sealId) = false := by simpa [or_iff_not_imp_left] using ha
  simp only [launchBody, ho, hs, hb', own, Bool.or_self, Bool.false_eq_true, if_false]
  cases badField (recordChecks (parseRecord bs) bs) with
  | none => rfl
  | some off => rfl

theorem launchBody_of_bad_record {off : Nat} (h : badField (recordChecks (parseRecord bs) bs) = some off) :
    launchBody d a k = .ok { st := s', writes := [(d.toNat, launchWord 1 off)] } := by
  rw [launchBody_of_allowed hr ha, h]
  rfl

theorem launchBody_of_good_record (h : badField (recordChecks (parseRecord bs) bs) = none) :
    launchBody d a k = launchChecked k d (parseRecord bs) s' := by
  rw [launchBody_of_allowed hr ha, h]
  rfl

end

section
variable {k : Ctx} {d : BitVec 6} {r : LaunchRecord} {s' s1 s2 : State} {ds im : List Byte} {bufs : List Buffer}
  {arrs : List (Arrival × Nat)}
  (hd : if r.nbuf + r.narr = 0 then ds = [] ∧ s1 = s' else k.readBlock s' r.decl (8 * (r.nbuf + r.narr)) 8 [0x00] false = .ok (ds, s1))

include hd

/-- The declaration block is read where the record declares something. -/
theorem declarations_read :
    (if 8 * (r.nbuf + r.narr) == 0 then .ok ([], s') else k.readBlock s' r.decl (8 * (r.nbuf + r.narr)) 8 [0x00] false)
      = .ok (ds, s1) := by
  by_cases hn : r.nbuf + r.narr = 0
  · rw [if_pos hn] at hd
    rw [hn, hd.1, hd.2]
    rfl
  · rw [if_neg hn] at hd
    rw [if_neg (by simpa using hn), hd]

theorem launchChecked_of_bad_declaration {off : Nat} (hp : parseDecls r ds = .error off) :
    launchChecked k d r s' = .ok { st := s1, writes := [(d.toNat, launchWord 1 off)] } := by
  simp only [launchChecked, declarations_read hd, hp]

variable (hp : parseDecls r ds = .ok (bufs, arrs))

include hp

theorem launchChecked_of_dead_seal (hs : sealLive s1 r.sealId = false) :
    launchChecked k d r s' = .ok { st := s1, writes := [(d.toNat, launchWord 5 84)] } := by
  simp only [launchChecked, declarations_read hd, hp, hs, Bool.not_false, if_true]

variable (hs : sealLive s1 r.sealId = true)
  (hi : if r.map = 0xFF then k.readBlock s1 r.mapimg 2048 64 [0x00] false = .ok (im, s2) else im = [] ∧ s2 = s1)

include hs hi

/-- LAUNCH once its image is read: the image, then the queue. -/
theorem launchChecked_of_image : launchChecked k d r s' =
    if r.map == 0xFF && (tableCheckFrom 0 (imageEntries im)).isSome then .ok { st := s2, writes := [(d.toNat, launchWord 2 0)] }
    else .ok
      { st := (enqueueGrid s2 r bufs arrs (if r.map = 0xFF then some (imageEntries im) else none) (ptsOf s2 k.t) none).2
        writes := [(d.toNat, launchWord
          (enqueueGrid s2 r bufs arrs (if r.map = 0xFF then some (imageEntries im) else none) (ptsOf s2 k.t) none).1 0)] } := by
  have image : (if r.map == 0xFF then k.readBlock s1 r.mapimg 2048 64 [0x00] false else .ok ([], s1)) = .ok (im, s2) := by
    by_cases hm : r.map = 0xFF
    · rw [if_pos hm] at hi
      rw [if_pos (beq_iff_eq.2 hm), hi]
    · rw [if_neg hm] at hi
      rw [if_neg (mt beq_iff_eq.1 hm), hi.1, hi.2]
  simp only [launchChecked, declarations_read hd, hp, hs, image, Bool.not_true, Bool.false_eq_true, if_false]
  simp only [beq_iff_eq]

theorem launchChecked_of_bad_image (hm : r.map = 0xFF) (ht : tableCheckFrom 0 (imageEntries im) ≠ none) :
    launchChecked k d r s' = .ok { st := s2, writes := [(d.toNat, launchWord 2 0)] } := by
  rw [launchChecked_of_image hd hp hs hi, if_pos]
  simpa [hm, Option.isSome_iff_ne_none] using ht

variable (ht : r.map = 0xFF → tableCheckFrom 0 (imageEntries im) = none)

include ht

theorem launchChecked_of_full_queue (hq : 256 ≤ queueCount s2 r.queue) :
    launchChecked k d r s' = .ok { st := s2, writes := [(d.toNat, launchWord 3 0)] } := by
  rw [launchChecked_of_image hd hp hs hi, if_neg (by simpa using ht), enqueueGrid_full hq]

theorem launchChecked_enters (hq : queueCount s2 r.queue < 256) : launchChecked k d r s' = .ok
    { st := { s2 with
        nextId := s2.nextId + 1
        grids := kset s2.grids s2.nextId
          { lr := r, buffers := bufs, arrivals := arrs, image := if r.map = 0xFF then some (imageEntries im) else none
            pts := ptsOf s2 k.t } }
      writes := [(d.toNat, launchWord 0 0)] } := by
  rw [launchChecked_of_image hd hp hs hi, if_neg (by simpa using ht), enqueueGrid_room hq]

end

/-- Settles O18: each status by the check that gives it, in the order of the checks. -/
theorem launchEntersGrids : Obligations.LaunchEntersGrids := by
  unfold Obligations.LaunchEntersGrids
  intro sw d a x
  refine ⟨?enters, ?full, ?image, ?deadSeal, ?declaration, ?record, ?foreign⟩
  case enters =>
    refine fun bs s' ds s1 bufs arrs im s2 => runs_of (fun _ => rfl) fun k h => ?_
    obtain ⟨⟨hr, ha, hb, hd⟩, hp, ⟨hs, hi⟩, ht, hq⟩ := h
    rw [launchBody_of_good_record hr ha hb, launchChecked_enters hd hp hs hi ht hq]
    rfl
  case full =>
    refine fun bs s' ds s1 bufs arrs im s2 => runs_of (fun _ => rfl) fun k h => ?_
    obtain ⟨⟨hr, ha, hb, hd⟩, hp, ⟨hs, hi⟩, ht, hq⟩ := h
    rw [launchBody_of_good_record hr ha hb, launchChecked_of_full_queue hd hp hs hi ht hq]
    rfl
  case image =>
    refine fun bs s' ds s1 bufs arrs im s2 => runs_of (fun _ => rfl) fun k h => ?_
    obtain ⟨⟨hr, ha, hb, hd⟩, hp, ⟨hs, hi⟩, hm, ht⟩ := h
    rw [launchBody_of_good_record hr ha hb, launchChecked_of_bad_image hd hp hs hi hm ht]
    rfl
  case deadSeal =>
    refine fun bs s' ds s1 bufs arrs => runs_of (fun _ => rfl) fun k h => ?_
    obtain ⟨⟨hr, ha, hb, hd⟩, hp, hs⟩ := h
    rw [launchBody_of_good_record hr ha hb, launchChecked_of_dead_seal hd hp hs]
    rfl
  case declaration =>
    refine fun bs s' ds s1 off => runs_of (fun _ => rfl) fun k h => ?_
    obtain ⟨⟨hr, ha, hb, hd⟩, hp, ho⟩ := h
    rw [launchBody_of_good_record hr ha hb, launchChecked_of_bad_declaration hd hp, launchWord_of_lt 1 ho]
  case record =>
    refine fun bs s' off => runs_of (fun _ => rfl) fun k h => ?_
    obtain ⟨hr, ha, hb, ho⟩ := h
    rw [launchBody_of_bad_record hr ha hb, launchWord_of_lt 1 ho]
  case foreign =>
    refine fun bs s' => traps_of (fun _ => rfl) fun k h => ?_
    obtain ⟨hr, ha⟩ := h
    exact launchBody_of_foreign_seal hr ha

end Sys2Proof.Machine
end

section
/-!
Who is there: the threads with what they compute and where they stand, and the teams. What moves lines, the active set and the
bank sets keeps them. Each function of the model on those paths has one lemma here, named after it, in the order of the model.
-/
namespace Sys2Proof.Machine
set_option Elab.async false

/-- The registers and predicates of a thread and its place in its team. -/
def Thread.figure (th : Thread) : KMap Word × Nat × Nat × Nat := (th.regs, th.preds, th.gid, th.mid)

/-- The threads that there are, by their figures, and the teams that there are. -/
def roster (s : State) : (Nat → Option (KMap Word × Nat × Nat × Nat)) × (Nat → Bool) :=
  (fun t => (thread? s t).map Thread.figure, fun i => (team? s i).isSome)

/-- The threads and teams of a state are `r`. -/
def Rostered (r : (Nat → Option (KMap Word × Nat × Nat × Nat)) × (Nat → Bool)) (s : State) : Prop := roster s = r

theorem figure_of_roster {s s' : State} (h : Rostered (roster s) s') (t : Nat) :
    (thread? s' t).map Thread.figure = (thread? s t).map Thread.figure := congrFun (congrArg Prod.fst h) t

theorem team_isSome_of_roster {s s' : State} (h : Rostered (roster s) s') (i : Nat) : (team? s' i).isSome = (team? s i).isSome :=
  congrFun (congrArg Prod.snd h) i

theorem kget_kmod_isSome {α : Type} (m : KMap α) (i j : Nat) (f : α → α) : (kget? (kmod m i f) j).isSome = (kget? m j).isSome := by
  cases hi : kget? m i with
  | none => rw [kmod_none f hi]
  | some v =>
    rw [kmod_eq f hi]
    by_cases hj : j = i
    · subst hj
      rw [kget_kset_same, hi]
      rfl
    · rw [kget_kset_ne _ _ hj]

section
variable {r : (Nat → Option (KMap Word × Nat × Nat × Nat)) × (Nat → Bool)} {s s' x y : State} {α β : Type}

/-! ### Along a computation -/

theorem Rostered.frame (h : Rostered r s) (e : roster s' = roster s := by rfl) : Rostered r s' := e.trans h

theorem Rostered.ite {c : Prop} [Decidable c] (hx : Rostered r x) (hy : Rostered r y) : Rostered r (if c then x else y) :=
  iteInduction (fun _ => hx) fun _ => hy

theorem Rostered.ite₂ {c : Prop} [Decidable c] {x y : α × State} (hx : Rostered r x.2) (hy : Rostered r y.2) :
    Rostered r (if c then x else y).2 :=
  iteInduction (motive := fun v : α × State => Rostered r v.2) (fun _ => hx) fun _ => hy

theorem Rostered.ite₃ {c : Prop} [Decidable c] {x y : α × β × State} (hx : Rostered r x.2.2) (hy : Rostered r y.2.2) :
    Rostered r (if c then x else y).2.2 :=
  iteInduction (motive := fun v : α × β × State => Rostered r v.2.2) (fun _ => hx) fun _ => hy

theorem Rostered.foldl {f : State → α → State} {l : List α} (hf : ∀ {s b}, Rostered r s → Rostered r (f s b)) (h : Rostered r s) :
    Rostered r (l.foldl f s) := List.foldlRecOn (motive := Rostered r) l f h fun _ h _ _ => hf h

theorem Rostered.foldl₃ {γ : Type} {f : α × β × State → γ → α × β × State} {l : List γ} {v : α × β × State}
    (hf : ∀ {v b}, Rostered r v.2.2 → Rostered r (f v b).2.2) (h : Rostered r v.2.2) : Rostered r (l.foldl f v).2.2 :=
  List.foldlRecOn (motive := fun v => Rostered r v.2.2) l f h fun _ h _ _ => hf h

/-! ### Records -/

theorem Rostered.modThread {t : Nat} {f : Thread → Thread} (hf : ∀ th, (f th).figure = th.figure) (h : Rostered r s) :
    Rostered r (modThread s t f) := by
  refine .frame h (Prod.ext (funext fun u => ?_) rfl)
  simp only [roster, thread_modThread]
  split
  · rw [Option.map_map]
    exact Option.map_congr fun th _ => hf th
  · rfl

theorem Rostered.modTeam {i f} (h : Rostered r s) : Rostered r (modTeam s i f) :=
  .frame h (Prod.ext rfl (funext fun j => kget_kmod_isSome s.teams i j f))

theorem Rostered.modCore {c f} (h : Rostered r s) : Rostered r (modCore s c f) := .frame h
theorem Rostered.modStation {i f} (h : Rostered r s) : Rostered r (modStation s i f) := .frame h
theorem Rostered.modLines {f} (h : Rostered r s) : Rostered r (modLines s f) := .frame h

/-! ### Bytes and lines -/

theorem Rostered.poke {l bs} (h : Rostered r s) : Rostered r (poke s l bs) := by
  cases l with
  | glob | weight | remote => exact .frame h
  | spad => exact .modTeam h
  | own => exact .modThread (fun _ => rfl) h

theorem Rostered.writeBack {t line} (h : Rostered r s) : Rostered r (writeBack s t line) := by
  unfold Machine.writeBack
  split
  · split
    · exact .frame h
    · exact h
  · exact h

theorem Rostered.touchLine {t line} (h : Rostered r s) : Rostered r (touchLine s t line) := by
  unfold Machine.touchLine
  split
  · exact h
  · exact .ite h (.modCore (.foldl (fun h' => .writeBack h') h))

theorem Rostered.touchOwn {l n} (h : Rostered r s) : Rostered r (touchOwn s l n) := by
  unfold Machine.touchOwn
  split
  · exact .foldl (fun h' => .touchLine h') h
  · exact h

theorem Rostered.dropLines {t} (h : Rostered r s) : Rostered r (dropLines s t) := .frame h

theorem Rostered.leaveLane {t} (h : Rostered r s) : Rostered r (leaveLane s t) := by
  unfold Machine.leaveLane
  split
  · exact h
  · exact .dropLines (.foldl (fun h' => .writeBack h') h)

theorem Rostered.sliceVisit {l} (h : Rostered r s) : Rostered r (sliceVisit s l) := .ite (.modLines h) (.modLines h)
theorem Rostered.tagVictims {place ls} (h : Rostered r s) : Rostered r (tagVictims s place ls) := .ite (.modCore h) h
theorem Rostered.putCopy {c} (h : Rostered r s) : Rostered r (putCopy s c) := .modLines (.tagVictims h)
theorem Rostered.homeLoad {l pts lease} (h : Rostered r s) : Rostered r (homeLoad s l pts lease) := .modLines h
theorem Rostered.countMiss {c l} (h : Rostered r s) : Rostered r (countMiss s c l) := .ite (.modCore h) h
theorem Rostered.storeTime {l pts} (h : Rostered r s) : Rostered r (storeTime s l pts).2 := .modLines h
theorem Rostered.meetErrors {us} (h : Rostered r s) : Rostered r (meetErrors s us) := .ite (.frame h) h
theorem Rostered.met {l n} (h : Rostered r s) : Rostered r (met s l n) := .ite h (.meetErrors h)

theorem Rostered.noteRead {a reader} (h : Rostered r s) : Rostered r (noteRead s a reader) := by
  unfold Machine.noteRead
  split
  · exact .ite (.frame (.met h)) (.met h)
  · exact .met h

theorem Rostered.noteSync {a pts} (h : Rostered r s) : Rostered r (noteSync s a pts) := by
  unfold Machine.noteSync
  split
  · exact h
  · split
    · exact .ite (.modLines h) h
    · exact .modTeam h
    · exact h

/-! ### Loads and stores -/

theorem Rostered.storeAt {a bs pts sealId} (h : Rostered r s) : Rostered r (storeAt s a bs pts sealId).2 := by
  unfold Machine.storeAt
  split
  next pa _ =>
    extract_lets l s₁ s₂
    have h₂ : Rostered r s₂ := .ite (.modLines (.poke h)) (.poke h)
    have timed : Rostered r (Machine.storeTime (Machine.sliceVisit s₂ l) l pts).2 := .storeTime (.sliceVisit h₂)
    exact .ite₂ (.noteSync h₂) (.ite timed (.modLines timed))
  next => exact .noteSync (.poke (.touchOwn h))

theorem Rostered.storeRange {pts sealId as_ bs} (h : Rostered r s) : Rostered r (storeRange s pts sealId as_ bs).2 :=
  .foldl₃ (fun h' => .storeAt h') h

theorem Rostered.storeDevice {pa pts sealId bs} (h : Rostered r s) : Rostered r (storeDevice s pa pts sealId bs) := .storeRange h

theorem Rostered.loadGlob {c pa a pts peer} (h : Rostered r s) : Rostered r (loadGlob s c pa a pts peer).2.2 := by
  unfold Machine.loadGlob
  extract_lets l lease st home
  have hhome : ∀ {s keep}, Rostered r s → Rostered r (home s keep).2.2 := fun h' =>
    .ite (.putCopy (.putCopy (.homeLoad (.sliceVisit h')))) (.homeLoad (.sliceVisit h'))
  refine .ite₃ h (.ite₃ (hhome h) ?_)
  split
  · exact h
  · split
    · exact .putCopy (.countMiss h)
    · refine .ite₃ (hhome (.modStation (.countMiss h))) ?_
      split
      · exact .putCopy (.putCopy (.countMiss h))
      · exact hhome (.countMiss h)

theorem Rostered.loadAt {c a pts reader peer} (h : Rostered r s) : Rostered r (loadAt s c a pts reader peer).2.2 := by
  unfold Machine.loadAt
  split
  · exact .loadGlob (.noteRead h)
  · exact .touchOwn (.noteRead h)

theorem Rostered.loadRange {c pts reader as_} (h : Rostered r s) : Rostered r (loadRange s c pts reader as_).2.2 :=
  .foldl₃ (fun h' => .loadAt h') h

/-! ### The active set -/

theorem Rostered.replyToRecord {t dests} (h : Rostered r s) : Rostered r (replyToRecord s t dests) := by
  unfold Machine.replyToRecord
  split
  · exact h
  · exact .ite h (.foldl (fun h' => .storeDevice h') h)

theorem Rostered.placeActive {t} (h : Rostered r s) : Rostered r (placeActive s t) := by
  unfold Machine.placeActive
  split
  · exact h
  · exact .ite (.modThread (fun _ => rfl) (.modThread (fun _ => rfl) h)) (.modThread (fun _ => rfl) h)

theorem Rostered.makeRoom {c q budget fuel} (h : Rostered r s) : Rostered r (makeRoom c q budget fuel s) := by
  induction fuel generalizing s with
  | zero => exact h
  | succ fuel ih =>
    unfold Machine.makeRoom
    refine .ite h ?_
    split
    · exact ih (.modThread (fun _ => rfl) h)
    · exact h

theorem Thread.figure_resumed (th : Thread) : th.resumed.figure = th.figure := by
  have start : (if th.inWord then th else th.atResume).figure = th.figure := by
    split <;> rfl
  unfold resumed
  dsimp only
  generalize (if th.inWord then th else th.atResume) = th' at *
  split
  · exact start
  · split
    · exact start
    · exact start

theorem Rostered.reclaimThread {t} (h : Rostered r s) : Rostered r (reclaimThread s t) := by
  unfold Machine.reclaimThread
  split
  · exact h
  · exact .ite h (.ite (.modThread (fun _ => rfl) h) (.placeActive (.modThread (fun th => th.figure_resumed) h)))

theorem Rostered.reclaim {c} (h : Rostered r s) : Rostered r (reclaim s c) := .foldl (fun h' => .reclaimThread h') h

/-! ### Bank sets -/

theorem Rostered.fillBank {c team key} (h : Rostered r s) : Rostered r (fillBank s c team key) := by
  unfold Machine.fillBank
  split
  · exact h
  · dsimp only
    split
    · exact .modTeam (.loadRange h)
    · exact .modTeam h

theorem Rostered.assignSet {c one team key id} (h : Rostered r s) : Rostered r (assignSet s c one team key id) :=
  .ite (.modTeam (.modCore h)) (.fillBank (.modCore h))

theorem Rostered.serveSet {c one} (h : Rostered r s) : Rostered r (serveSet s c one) := by
  unfold Machine.serveSet
  split
  · exact .ite h (.assignSet h)
  · exact h

theorem Rostered.serveWaiting {c} (h : Rostered r s) : Rostered r (serveWaiting s c) := .serveSet (.serveSet h)

end

end Sys2Proof.Machine
end

section
/-!
Teams placed, retired, evicted and restored; memory tokens and locality (R65 to R67, R71, R76 to R78, R81, R82).
-/
namespace Sys2Proof.Machine
set_option Elab.async false

/-! ### Retirement -/

/-- A state in which a team has given up its record, feed contexts, tokens and bank sets. -/
def releasing (s : State) (id : Nat) (tm : Team) : State :=
  dropBanks (dropTokens { s with teams := kdel s.teams id, feeds := s.feeds.filter (fun p => p.2.team != id) } tm.core id) tm.core id false

theorem releaseTeam_eq (s : State) (id : Nat) (tm : Team) :
    releaseTeam s id tm = wakeAway (dropTeamLocks (serveWaiting (releasing s id tm) tm.core) id) id := rfl

theorem team_releaseTeam {s : State} (hr : risingFrom 0 s.teams = true) (id : Nat) (tm : Team) :
    team? (releaseTeam s id tm) id = none := by
  rw [releaseTeam_eq]
  have gone : kget? (kdel s.teams id) id = none := (kget_kdel hr id id).trans (if_pos rfl)
  have kept := team_isSome_of_roster (.serveWaiting (c := tm.core) rfl : Rostered (roster (releasing s id tm)) _) id
  rw [← Option.not_isSome_iff_eq_none, Bool.not_eq_true]
  exact kept.trans (congrArg Option.isSome gone)

theorem wait_of_mem_wakeAway {s : State} {id : Nat} {p : Nat × Thread} (h : p ∈ (wakeAway s id).threads) : p.2.wait ≠ .away id := by
  obtain ⟨q, -, rfl⟩ := List.mem_map.1 h
  split
  · simp
  next hw => simpa using hw

/-! ### Eviction -/

theorem execEviction_of_requested {s : State} {t : Nat} {th : Thread} {tm : Team} (ht : thread? s t = some th)
    (htm : team? s th.team = some tm) (he : tm.evicted = false) :
    execEviction t s = .next (let s := if tm.evictReq && !th.evicted then evictThread s t th else s
      if mayLeave s th.team then leaveCore s th.team tm else s) := by
  simp only [execEviction, ht, htm, he, Bool.false_eq_true, if_false]

section
variable {s : State} {t : Nat} {th h : Thread}

theorem evictThread_of_waiting (hw : wakeOf th = none) : evictThread s t th = s := if_pos (by rw [hw]; rfl)

/-- A thread that cannot leave stays: a store of it is out, or the pool has no room for its areas. -/
theorem evictThread_of_stays (hh : thread? (leaveLane (flush s t) t) t = some h)
    (hn : (if storesOut (leaveLane (flush s t) t) h then none else takeAreas (leaveLane (flush s t) t) t h) = none) :
    evictThread s t th = s := by
  by_cases hw : (wakeOf th).isNone = true
  · exact if_pos hw
  · simp only [evictThread, if_neg hw, hh, Option.bind_some, hn]

/-- A thread at a blocking point leaves with its areas taken and its record written. -/
theorem evictThread_of_leaves {th₁ : Thread} {s₁ : State} (hw : (wakeOf th).isSome = true)
    (hh : thread? (leaveLane (flush s t) t) t = some h) (ho : storesOut (leaveLane (flush s t) t) h = false)
    (ha : takeAreas (leaveLane (flush s t) t) t h = some (th₁, s₁)) :
    evictThread s t th = setThread (saveRays (saveRecord s₁ { th₁.setActive false s.aclk with evicted := true }) t) t
      { th₁.setActive false s.aclk with evicted := true } := by
  have blocked : ¬ (wakeOf th).isNone = true := by simpa using Option.isSome_iff_ne_none.1 hw
  simp only [evictThread, if_neg blocked, hh, Option.bind_some, ho, ha, Bool.false_eq_true, if_false]

end

/-! ### Memory tokens -/

theorem core_modCore (s : State) (c : Nat) (f : Core → Core) : core (modCore s c f) c = f (core s c) := by
  rw [core, modCore, kgetD, kget_kset_same]
  rfl

/-- What a locality window leaves of a core, and what its tokens do not move. -/
def Core.locality (k : Core) : Nat × Nat × Nat × Nat := (k.score, k.missHits, k.windowAt, k.limit)

theorem Core.locality_trim (k : Core) (fuel : Nat) : (k.trim fuel).locality = k.locality := by
  induction fuel generalizing k with
  | zero => rfl
  | succ fuel ih =>
    unfold trim
    split
    · rfl
    · dsimp only
      split
      · exact ih _
      · rfl

theorem Core.locality_grantAll (k : Core) (now fuel : Nat) : (k.grantAll now fuel).locality = k.locality := by
  induction fuel generalizing k with
  | zero => rfl
  | succ fuel ih =>
    unfold grantAll
    split
    · split
      · exact ih _
      · rfl
    · rfl

/-- Settles O44: each step by the condition it reads; a released team is gone because serving its bank sets keeps the
teams, and a token's grants and returns keep the locality counters. -/
theorem placementAndTokens : Obligations.PlacementAndTokens := by
  refine ⟨⟨?placed, ?notReady, ?retired, ?notOver, ?released, ?requested, ?otherCluster, ?evicted, ?waiting, ?storesOut, ?fullPool,
      ?leaves, ?notAsked, ?notEvicted, ?restored, ?returned, ?noCore, ?enters, ?active⟩,
    ?granted, ?noToken, ?notYet, ?passes, ?inWindow, ?window, ?held, ?lower, ?raise, ?between⟩
  case placed =>
    intro s c hp hc
    exact congrArg Host.Outcome.next (if_pos (by simp [hp, hc]))
  case notReady =>
    intro s c hp
    exact congrArg Host.Outcome.next (if_neg (by simp [hp]))
  case retired =>
    intro s id tm htm ho
    show execTeamRetirement id s = _
    simp only [execTeamRetirement, htm, ho, if_true]
  case notOver =>
    intro s id ho
    show execTeamRetirement id s = _
    cases htm : team? s id with
    | none => simp only [execTeamRetirement, htm]
    | some tm => simp only [execTeamRetirement, htm, ho, Bool.false_eq_true, if_false]
  case released => exact fun s id tm hr => ⟨team_releaseTeam hr id tm, fun p hp => wait_of_mem_wakeAway hp⟩
  case requested =>
    intro s c id tm htm hc
    show execEvictionRequest c [id] s = _
    simp only [execEvictionRequest, List.foldl_cons, List.foldl_nil, htm, hc, beq_self_eq_true, if_true]
    rfl
  case otherCluster =>
    intro s c id tm htm hc
    show execEvictionRequest c [id] s = _
    simp only [execEvictionRequest, List.foldl_cons, List.foldl_nil, htm, beq_false_of_ne hc, Bool.false_eq_true, if_false]
  case evicted =>
    intro s t th tm ht htm he hq hth hl
    refine (execEviction_of_requested ht htm he).trans ?_
    simp only [hq, hth, hl, Bool.not_false, Bool.and_self, Bool.false_eq_true, if_true, if_false]
  case waiting => exact fun s t th hw => evictThread_of_waiting hw
  case storesOut => exact fun s t th h hh ho => evictThread_of_stays hh (if_pos ho)
  case fullPool => exact fun s t th h hh ha => evictThread_of_stays hh ((congrArg _ ha).trans (ite_self _))
  case leaves =>
    intro s t th h th₁ s₁ hw hh ho ha
    exact evictThread_of_leaves hw hh ho ha
  case notAsked =>
    intro s t th tm ht htm he hq hl
    refine (execEviction_of_requested ht htm he).trans ?_
    simp only [hq, hl, Bool.false_and, Bool.false_eq_true, if_false]
  case notEvicted =>
    intro s t c th ht he
    show execRestore t c s = _
    cases htm : team? s th.team with
    | none => simp only [execRestore, ht, htm]
    | some tm => simp only [execRestore, ht, htm, he, Bool.not_false, Bool.true_or, if_true]
  case restored =>
    intro s t c th tm ht htm he hw hp hte hc hf hy hres hslow
    show execRestore t c s = _
    subst hc
    simp [execRestore, restoreOn, ht, htm, he, hw, hp, hte, hf, hy, hres, hslow]
  case returned =>
    intro s t c th tm base ht htm he hp hte hb
    show execRestore t c s = _
    simp [execRestore, ht, htm, he, hp, hte, hb]
  case noCore =>
    intro s t c th tm ht htm hte hb
    show execRestore t c s = _
    simp [execRestore, ht, htm, hte, hb]
  case enters =>
    intro s t c th ht ha he hs hc
    have room : Rostered (roster s) (makeRoom c th.quadrant th.budget 2048 s) := .makeRoom rfl
    have there := figure_of_roster room t
    rw [ht, Option.map_some, Option.map_eq_some_iff] at there
    obtain ⟨th', ht', -⟩ := there
    refine ⟨modThread (makeRoom c th.quadrant th.budget 2048 s) t (fun th => th.setActive true s.aclk), ?_, ?_⟩
    · show execTimeSliceExpiry c t s = _
      simp only [execTimeSliceExpiry, ht, ha, he, hs, hc, bne_self_eq_false, Bool.or_self, Bool.false_eq_true, if_false]
    · rw [modThread_eq _ ht', thread_setThread]
      rfl
  case active =>
    intro s t c th ht ha
    show execTimeSliceExpiry c t s = _
    simp only [execTimeSliceExpiry, ht, ha, Bool.true_or, if_true]
  case granted =>
    intro s c g hn hl
    refine ⟨modCore s c (fun k => k.grant g s.aclk), ?_, ?_, ?_, rfl⟩
    · exact congrArg Host.Outcome.next (if_pos (by simp [hn, hl]))
    · simp [hasToken, core_modCore, Core.grant]
    · simp [core_modCore, Core.grant]
  case noToken =>
    intro s c g hl
    exact congrArg Host.Outcome.next (if_neg (by simp [hl]))
  case notYet =>
    intro s c g since hg hn
    show execMemoryTokenPass c g s = _
    simp only [execMemoryTokenPass, hg, hn, decide_true, Bool.or_true, if_true]
  case passes =>
    intro s c g since hg hw hn
    show execMemoryTokenPass c g s = _
    simp [execMemoryTokenPass, hg, hw, Nat.not_lt.2 hn]
  case inWindow => exact fun s c hn => congrArg Host.Outcome.next (if_pos hn)
  case window =>
    intro s c hn
    refine ⟨_, congrArg Host.Outcome.next (if_neg (Nat.not_lt.2 hn)), ?_⟩
    have kept := ((Core.locality_grantAll _ s.aclk 130).trans (Core.locality_trim
      { core s c with
        score := Nat.min 255 ((core s c).missHits / 16), missHits := 0, windowAt := (core s c).windowAt + 4096
        limit := newLimit (core s c).auto (core s c).limit (Nat.min 255 ((core s c).missHits / 16)) } 130))
    simp only [core_modCore]
    simpa only [Core.locality, Prod.mk.injEq] using kept
  case held => exact fun l sc => rfl
  case lower => exact fun l sc h => if_pos h
  case raise =>
    intro l sc h
    exact (if_neg (Nat.not_le.2 (Nat.lt_of_le_of_lt h (by decide)))).trans (if_pos h)
  case between =>
    intro l sc h1 h2
    exact (if_neg (Nat.not_le.2 h2)).trans (if_neg (Nat.not_le.2 h1))

end Sys2Proof.Machine
end

section
/-!
The kern unit: the order of the team's threads and the move of each to its place (R102).
-/
namespace Sys2Proof.Machine
set_option Elab.async false

/-! ### The word -/

theorem freesOf_src_srcPair (a b : BitVec 6) (x y : Bool) :
    freesOf [src a x, srcPair b y] = (if x then [a.toNat] else []) ++ if y then [b.toNat, b.toNat + 1] else [] := by
  cases x <;> cases y <;> rfl

/-! ### The order -/

/-- The order by key, then %tid. -/
def Kern.upto (p q : Kern) : Bool := p.key < q.key || (p.key == q.key && decide (p.th.tid ≤ q.th.tid))

theorem Kern.upto_iff {p q : Kern} : p.upto q = true ↔ p.key < q.key ∨ (p.key = q.key ∧ p.th.tid ≤ q.th.tid) := by
  simp [upto]

theorem insertKern_eq_orderedInsert (p : Kern) (qs : List Kern) :
    insertKern p qs = qs.orderedInsert (fun p q => p.upto q = true) p := by
  induction qs with
  | nil => rfl
  | cons q qs ih => rw [insertKern, List.orderedInsert, ih]; rfl

/-- The kern unit's order is the library's insertion sort. -/
theorem foldr_insertKern (ks : List Kern) : ks.foldr insertKern [] = ks.insertionSort (fun p q => p.upto q = true) :=
  congrArg (List.foldr · [] ks) (funext fun p => funext fun qs => insertKern_eq_orderedInsert p qs)

theorem perm_foldr_insertKern (ks : List Kern) : (ks.foldr insertKern []).Perm ks := by
  rw [foldr_insertKern]
  exact List.perm_insertionSort _ ks

theorem pairwise_foldr_insertKern (ks : List Kern) : (ks.foldr insertKern []).Pairwise (fun p q => p.upto q = true) := by
  have total : Std.Total (fun p q : Kern => p.upto q = true) := ⟨fun p q => by
    simp only [Kern.upto_iff]
    omega⟩
  have trans : IsTrans Kern (fun p q => p.upto q = true) := ⟨fun p q r => by
    simp only [Kern.upto_iff]
    omega⟩
  rw [foldr_insertKern]
  exact List.pairwise_insertionSort _ ks

/-! ### Who has arrived -/

theorem kernOf_t {p : Nat × Thread} {k : Kern} (h : kernOf p = some k) : k.t = p.1 := by
  unfold kernOf at h
  split at h
  · cases h
    rfl
  · cases h

theorem nodup_kerns {s : State} (hr : risingFrom 0 s.threads = true) (team : Nat) :
    (((teamThreads s team).filterMap kernOf).map (·.t)).Nodup := by
  have keys : (teamThreads s team).Pairwise (·.1 ≠ ·.1) := List.pairwise_map.1 (nodup_keys_of_rising (rising_filter _ hr))
  exact List.pairwise_map.2 (keys.filterMap _ fun p q hpq k hk k' hk' => by rwa [kernOf_t hk, kernOf_t hk'])

theorem kget_of_mem {α : Type} {m : KMap α} {b i : Nat} {v : α} (hr : risingFrom b m = true) (h : (i, v) ∈ m) :
    kget? m i = some v := by
  induction m generalizing b with
  | nil => exact absurd h List.not_mem_nil
  | cons p m ih =>
    simp only [risingFrom, Bool.and_eq_true, decide_eq_true_eq] at hr
    obtain rfl | h := List.mem_cons.1 h
    · simp [kget?]
    · have above : p.1 + 1 ≤ i := le_keys_of_rising hr.2 i (List.mem_map_of_mem h)
      simp [kget?, Nat.ne_of_gt above, ih hr.2 h]

theorem thread_of_kern {s : State} (hr : risingFrom 0 s.threads = true) {team : Nat} {k : Kern}
    (h : k ∈ (teamThreads s team).filterMap kernOf) : (thread? s k.t).isSome = true := by
  obtain ⟨p, hp, hk⟩ := List.mem_filterMap.1 h
  rw [kernOf_t hk, thread?, kget_of_mem hr (List.mem_of_mem_filter hp)]
  rfl

/-! ### The move -/

theorem Thread.figure_completeHeld (th : Thread) : th.completeHeld.figure = th.figure := by
  unfold completeHeld advance
  split
  · rfl
  · split <;> rfl

theorem rostered_regroupThread (sz pts : Nat) (s : State) (p : Kern × Nat) :
    Rostered (roster (modThread (leaveLane s p.1.t) p.1.t (fun th =>
      ({ (th.keepLive p.1.live p.1.frees).takePts pts with gid := p.2 / sz, mid := p.2 % sz }).completeHeld)))
      (regroupThread sz pts s p) :=
  .ite (.replyToRecord rfl) (.placeActive rfl)

/-- A move leaves the other threads' figures. -/
theorem figure_regroupThread_ne (sz pts : Nat) (s : State) (p : Kern × Nat) (u : Nat) (h : u ≠ p.1.t) :
    (thread? (regroupThread sz pts s p) u).map Thread.figure = (thread? s u).map Thread.figure := by
  rw [figure_of_roster (rostered_regroupThread sz pts s p), thread_modThread, if_neg h]
  exact figure_of_roster (.leaveLane rfl) u

/-- Where a thread stands in its team. -/
def seat (s : State) (u : Nat) : Option (Nat × Nat) := (thread? s u).map fun th => (th.gid, th.mid)

theorem seat_congr {s s' : State} {u : Nat} (h : (thread? s' u).map Thread.figure = (thread? s u).map Thread.figure) :
    seat s' u = seat s u := by
  have of_figure (s : State) : seat s u = ((thread? s u).map Thread.figure).map (·.2.2) := by
    rw [Option.map_map]
    rfl
  rw [of_figure, h, of_figure]

/-- A move gives its own thread its place. -/
theorem seat_regroupThread (sz pts : Nat) (s : State) (p : Kern × Nat) :
    seat (regroupThread sz pts s p) p.1.t = (seat s p.1.t).map fun _ => (p.2 / sz, p.2 % sz) := by
  have left : seat (leaveLane s p.1.t) p.1.t = seat s p.1.t := seat_congr (figure_of_roster (.leaveLane rfl) _)
  rw [seat_congr (figure_of_roster (rostered_regroupThread sz pts s p) _), ← left, seat, seat, thread_modThread, if_pos rfl,
    Option.map_map, Option.map_map]
  exact Option.map_congr fun th _ => congrArg (·.2.2) (Thread.figure_completeHeld _)

theorem figure_foldl_regroupThread {order : List Kern} {u : Nat} (hu : u ∉ order.map (·.t)) (sz pts : Nat) (s : State) :
    (thread? ((order.zipIdx).foldl (regroupThread sz pts) s) u).map Thread.figure = (thread? s u).map Thread.figure := by
  rw [← order.zipIdx_map_fst 0, List.map_map] at hu
  exact foldl_view_of_not_mem (V := fun s u => (thread? s u).map Thread.figure) (key := fun p : Kern × Nat => p.1.t)
    (figure_regroupThread_ne sz pts) hu s

theorem seat_foldl_regroupThread {order : List Kern} (hn : (order.map (·.t)).Nodup) {i : Nat} (hi : i < order.length)
    (sz pts : Nat) (s : State) :
    seat ((order.zipIdx).foldl (regroupThread sz pts) s) order[i].t = (seat s order[i].t).map fun _ => (i / sz, i % sz) := by
  have place : (order[i], i) ∈ order.zipIdx := List.mk_mem_zipIdx_iff_getElem?.2 (List.getElem?_eq_getElem hi)
  rw [← order.zipIdx_map_fst 0, List.map_map] at hn
  exact foldl_view_of_mem (key := fun p : Kern × Nat => p.1.t) (step := fun p => Option.map fun _ => (p.2 / sz, p.2 % sz))
    (fun s p u h => seat_congr (figure_regroupThread_ne sz pts s p u h)) (seat_regroupThread sz pts) hn place s

/-- A team at the kern unit leaves the active set. -/
def inactive (s : State) (team : Nat) : State :=
  ((teamThreads s team).filterMap kernOf).foldl (fun s k => modThread s k.t (fun th => th.setActive false s.aclk)) s

theorem rostered_inactive (s : State) (team : Nat) : Rostered (roster s) (inactive s team) :=
  .foldl (fun h => .modThread (fun _ => rfl) h) rfl

theorem regroupTeam_of_arrived {s : State} {team : Nat} {tm : Team} (htm : team? s team = some tm) (hl : firstLigature tm = none)
    (hne : teamThreads s team ≠ []) (ha : ((teamThreads s team).filterMap kernOf).length = (teamThreads s team).length) :
    regroupTeam s team =
      (let order := ((teamThreads s team).filterMap kernOf).foldr insertKern []
      reclaim ((order.zipIdx).foldl (regroupThread (ceilDiv order.length tm.groups) (maxPts (teamThreads s team)))
        (inactive s team)) tm.core) := by
  have some_ : (teamThreads s team).isEmpty = false := by simpa using hne
  simp only [regroupTeam, htm, hl, ha, some_, bne_self_eq_false, Bool.or_self, Bool.false_eq_true, if_false]
  rfl

/-- Settles O16: the order is an insertion sort, and of the moves each changes the figure of its own thread alone. -/
theorem regroupMovesThreads : Obligations.RegroupMovesThreads := by
  refine ⟨?word, ?moves, ?order, ?live⟩
  case word =>
    refine fun sw a b x y => runs_of (fun _ => rfl) fun k ⟨hp, ho⟩ => ?_
    simp only [hp, ho, freesOf_src_srcPair, List.isEmpty_nil, Bool.not_true, Bool.false_eq_true, if_false]
    rfl
  case moves =>
    intro s team tm htm hl hne ha order sz
    refine ⟨_, congrArg Host.Outcome.next (regroupTeam_of_arrived htm hl hne ha), ?_, ?_⟩
    · intro hr i hi
      have perm : order.Perm _ := perm_foldr_insertKern _
      have nodup : (order.map (·.t)).Nodup := (perm.map _).nodup_iff.2 (nodup_kerns hr team)
      have there : (seat s order[i].t).isSome = true := by
        rw [seat, Option.isSome_map]
        exact thread_of_kern hr (perm.mem_iff.1 (List.getElem_mem hi))
      obtain ⟨v, hv⟩ := Option.isSome_iff_exists.1 there
      have moved := seat_foldl_regroupThread nodup hi sz (maxPts (teamThreads s team)) (inactive s team)
      rw [seat_congr (figure_of_roster (rostered_inactive s team) _), hv] at moved
      exact (seat_congr (figure_of_roster (.reclaim rfl) _)).trans moved
    · intro u hu
      refine (figure_of_roster (.reclaim rfl) u).trans ((figure_foldl_regroupThread hu _ _ _).trans ?_)
      exact figure_of_roster (rostered_inactive s team) u
  case order => exact fun ks => ⟨perm_foldr_insertKern ks, (pairwise_foldr_insertKern ks).imp Kern.upto_iff.1⟩
  case live =>
    intro th live frees r _
    cases hk : live.testBit r && !frees.contains r with
    | true =>
      rw [Thread.mapped, Thread.keepLive, kget_filter_of_true fun _ => hk, Bool.and_assoc, hk, Bool.and_true]
      rfl
    | false =>
      rw [Thread.mapped, Thread.keepLive, kget_filter_of_false fun _ => hk, Bool.and_assoc, hk, Bool.and_false]
      rfl

end Sys2Proof.Machine
end

section
/-!
Integer, address and logic words (R114 to R129, R165).
-/
namespace Sys2Proof.Machine
set_option Elab.async false

/-! ### Words of integers -/

theorem word_eq_ofInt (v : Int) : word v = BitVec.ofInt 32 v := by
  apply BitVec.eq_of_toNat_eq
  have hle := Int.emod_nonneg v (show ((2 ^ 32 : Nat) : Int) ≠ 0 by decide)
  have hlt := Int.emod_lt_of_pos v (show 0 < ((2 ^ 32 : Nat) : Int) by decide)
  rw [word, wrap, BitVec.toNat_ofNat, BitVec.toNat_ofInt, Nat.mod_eq_of_lt (by omega)]

theorem word_natCast (n : Nat) : word n = wordN n := (word_eq_ofInt n).trans (BitVec.ofInt_natCast 32 n)

theorem wordN_mod (v : Nat) : wordN (v % 2 ^ 32) = wordN v := BitVec.eq_of_toNat_eq (by simp [wordN])

/-- A pair's words are the low and the next 32 bits of its value. -/
theorem ret64_eq (k : Ctx) (d : BitVec 6) (v : Nat) :
    ret64 k d v = .ok { st := k.s, writes := [(d.toNat, wordN v), (d.toNat + 1, wordN (v / 2 ^ 32))] } := by
  rw [ret64, wordN_mod, wordN_mod]

/-! ### Words with one result -/

/-- A word whose entry returns `f` writes what `f` equals. -/
theorem writes_of_ret {i : Instr} {srcs : List Src} {d : BitVec 6} {f v : Ctx → Word}
    (hx : ∀ s, exec i s = issue i srcs (fun k => ret k d (f k)) s) (hv : ∀ k, f k = v k) :
    Writes i srcs (fun k => [(d.toNat, v k)]) :=
  writes_of hx fun k => congrArg (ret k d) (hv k)

/-! ### Sums and carries (R114, R115) -/

/-- Settles O2: each word's entry is the sum or difference of R114. -/
theorem sumsAndDifferences : Obligations.SumsAndDifferences := by
  refine ⟨?iadd, ?isub, ?iaddi⟩
  case iadd => exact fun sw d a b x y m => writes_of_ret (fun _ => rfl) fun _ => rfl
  case isub => exact fun sw d a b x y m => writes_of_ret (fun _ => rfl) fun _ => rfl
  case iaddi => exact fun sw d a i x m => writes_of_ret (fun _ => rfl) fun _ => rfl

theorem addCarry_add (sat : Bool) (a b : Word) (cin : Nat) : addCarry false sat a b cin =
    if 2 ^ 32 ≤ a.toNat + b.toNat + cin then (if sat then 0xFFFFFFFF#32 else wordN (a.toNat + b.toNat + cin), true)
    else (wordN (a.toNat + b.toNat + cin), false) := by
  have sum : word ((a.toNat : Int) + b.toNat + cin) = wordN (a.toNat + b.toNat + cin) := word_natCast (a.toNat + b.toNat + cin)
  by_cases h : 2 ^ 32 ≤ a.toNat + b.toNat + cin
  · have out : (2 ^ 32 : Int) ≤ (a.toNat : Int) + b.toNat + cin := by omega
    simp only [addCarry, sum, h, out, Bool.false_eq_true, if_false, if_true, decide_true, Bool.and_true]
  · have out : ¬ (2 ^ 32 : Int) ≤ (a.toNat : Int) + b.toNat + cin := by omega
    simp only [addCarry, sum, h, out, Bool.false_eq_true, if_false, decide_false, Bool.and_false]

theorem addCarry_sub (sat : Bool) (a b : Word) (cin : Nat) : addCarry true sat a b cin =
    if a.toNat < b.toNat + cin then (if sat then 0 else word ((a.toNat : Int) - b.toNat - cin), true)
    else (wordN (a.toNat - b.toNat - cin), false) := by
  by_cases h : a.toNat < b.toNat + cin
  · have out : (a.toNat : Int) - b.toNat - cin < 0 := by omega
    simp only [addCarry, h, out, if_true, decide_true, Bool.and_true]
  · have out : ¬ (a.toNat : Int) - b.toNat - cin < 0 := by omega
    have diff : word ((a.toNat : Int) - b.toNat - cin) = wordN (a.toNat - b.toNat - cin) := by
      rw [← word_natCast]
      congr 1
      omega
    simp only [addCarry, h, out, diff, Bool.false_eq_true, if_false, if_true, decide_false, Bool.and_false]

/-- Settles O3: the sum and the difference, with and without a carry out. -/
theorem carryChains : Obligations.CarryChains := by
  refine fun sw d a b x y m => writes_of (fun _ => rfl) fun k => ?_
  cases m with
  | false =>
    simp only [addCarry_add, Ctx.g]
    split
    · rfl
    · rfl
  | true =>
    simp only [addCarry_sub, Ctx.g]
    split
    · rfl
    · rfl

/-! ### Products and quotients (R116, R117) -/

theorem wordN_mul_toNat (a b : Word) : wordN (a.toNat * b.toNat) = a * b := BitVec.eq_of_toNat_eq (by simp [wordN])

/-- The one quotient that no signed word holds, 2^31, wraps to −2^31 by itself. -/
theorem divRem_fst (m : Bool) (a b : Word) : (divRem m a b).1 =
    if typed m b = 0 then (if m then 0xFFFFFFFF#32 else if 0 ≤ typed m a then 0x7FFFFFFF#32 else 0x80000000#32)
    else if !m ∧ typed m a = -2 ^ 31 ∧ typed m b = -1 then 0x80000000#32 else word ((typed m a).tdiv (typed m b)) := by
  by_cases hb : typed m b = 0
  · simp only [divRem, hb, if_true]
  · simp only [divRem, hb, if_false]
    split
    · next h =>
      obtain ⟨-, hu, hv⟩ := h
      rw [hu, hv]
      rfl
    · rfl

theorem divRem_snd (m : Bool) (a b : Word) : (divRem m a b).2 =
    if typed m b = 0 then a
    else if !m ∧ typed m a = -2 ^ 31 ∧ typed m b = -1 then 0
    else word (typed m a - (typed m a).tdiv (typed m b) * typed m b) := by
  by_cases hb : typed m b = 0
  · simp only [divRem, hb, if_true]
  · simp only [divRem, hb, if_false]
    split
    · next h =>
      obtain ⟨-, hu, hv⟩ := h
      rw [hu, hv]
      rfl
    · rw [Int.tmod_def, mul_comm]

/-- Settles O4: the low half of a product does not depend on the signs, and each quotient and remainder by its divisor. -/
theorem productsAndQuotients : Obligations.ProductsAndQuotients := by
  refine ⟨⟨?imul, ?imulh, ?imad⟩, ?idiv, ?irem⟩
  case imul => exact fun sw d a b x y => writes_of_ret (fun _ => rfl) fun k => (wordN_mul_toNat _ _).symm
  case imulh => exact fun sw d a b x y m => writes_of_ret (fun _ => rfl) fun _ => rfl
  case imad => exact fun sw d a b x y m => writes_of_ret (fun _ => rfl) fun _ => rfl
  case idiv => exact fun sw d a b x y m => writes_of_ret (fun _ => rfl) fun k => divRem_fst m _ _
  case irem => exact fun sw d a b x y m => writes_of_ret (fun _ => rfl) fun k => divRem_snd m _ _

/-! ### Sign, logic and shifts (R118 to R120) -/

theorem sarWord_eq (a : Word) (n : Nat) : sarWord a n = a.sshiftRight n := by
  by_cases h : 32 ≤ n
  · have past : ∀ b : Word, b >>> n = 0 := fun b => BitVec.ushiftRight_eq_zero h
    cases hm : a.msb with
    | false => simp [sarWord, h, hm, BitVec.sshiftRight_eq_of_msb_false hm, past]
    | true => simp only [sarWord, h, hm, BitVec.sshiftRight_eq_of_msb_true hm, past, if_true]; rfl
  · simp only [sarWord, h, if_false, word_eq_ofInt, BitVec.sshiftRight, Int.shiftRight_eq_div_pow]
    rfl

/-- A rotation to the right by `n` is one to the left by `32 − n`. -/
theorem rotWord_eq (m : Bool) (a : Word) (n : Nat) :
    rotWord a (if m then (32 - n % 32) % 32 else n % 32) = if m then a.rotateRight n else a.rotateLeft n := by
  have hn : n % 32 < 32 := Nat.mod_lt n (by decide)
  cases m with
  | false => rfl
  | true =>
    simp only [if_true]
    by_cases h0 : n % 32 = 0
    · have past : a >>> 32 = 0 := BitVec.ushiftRight_eq_zero le_rfl
      simp [BitVec.rotateRight_def, h0, rotWord, past]
    · rw [Nat.mod_eq_of_lt (by omega), rotWord, Nat.sub_sub_self hn.le, BitVec.or_comm]
      rfl

theorem immShift_zero {k : Ctx} (h : k.imm20 = 0) (d a : BitVec 6) (i : BitVec 7) (f : Word → Nat → Word) :
    immShift d a i f k = ret k d (f (k.g a) i.toNat) := by simp [immShift, h]

theorem immShift_illegal {k : Ctx} (h : k.imm20 ≠ 0) (d a : BitVec 6) (i : BitVec 7) (f : Word → Nat → Word) :
    immShift d a i f k = .error (k.illegal 3) := by simp [immShift, h]

/-- Settles O5: the entries but for the shifts are what R118 and R119 write; a right shift that copies the sign and a rotation
are those of the bit vectors. -/
theorem logicAndShifts : Obligations.LogicAndShifts := by
  refine ⟨⟨?ineg, ?iabs, ?imin, ?imax, ?and, ?or, ?xor, ?not, ?andn, ?andi, ?ori, ?xori⟩, ?shl, ?shr, ?sar, ?rot, ?shli, ?shri, ?sari,
    ?trap⟩
  case ineg => exact fun sw d a x => writes_of_ret (fun _ => rfl) fun k => BitVec.zero_sub _
  case iabs => exact fun sw d a x => writes_of_ret (fun _ => rfl) fun k => congrArg (ite _ · _) (BitVec.zero_sub _)
  case imin => exact fun sw d a b x y m => writes_of_ret (fun _ => rfl) fun _ => rfl
  case imax => exact fun sw d a b x y m => writes_of_ret (fun _ => rfl) fun _ => rfl
  case and => exact fun sw d a b x y => writes_of_ret (fun _ => rfl) fun _ => rfl
  case or => exact fun sw d a b x y => writes_of_ret (fun _ => rfl) fun _ => rfl
  case xor => exact fun sw d a b x y => writes_of_ret (fun _ => rfl) fun _ => rfl
  case not => exact fun sw d a x => writes_of_ret (fun _ => rfl) fun _ => rfl
  case andn => exact fun sw d a b x y => writes_of_ret (fun _ => rfl) fun _ => rfl
  case andi => exact fun sw d a i x => writes_of_ret (fun _ => rfl) fun _ => rfl
  case ori => exact fun sw d a i x => writes_of_ret (fun _ => rfl) fun _ => rfl
  case xori => exact fun sw d a i x => writes_of_ret (fun _ => rfl) fun _ => rfl
  case shl => exact fun sw d a b x y => writes_of_ret (fun _ => rfl) fun _ => rfl
  case shr => exact fun sw d a b x y => writes_of_ret (fun _ => rfl) fun _ => rfl
  case sar => exact fun sw d a b x y => writes_of_ret (fun _ => rfl) fun _ => sarWord_eq _ _
  case rot => exact fun sw d a b x y m => writes_of_ret (fun _ => rfl) fun _ => rotWord_eq m _ _
  case shli => exact fun sw d a i x => runs_of (fun _ => rfl) fun k h => immShift_zero h d a i shlWord
  case shri => exact fun sw d a i x => runs_of (fun _ => rfl) fun k h => immShift_zero h d a i shrWord
  case sari =>
    exact fun sw d a i x => runs_of (fun _ => rfl) fun k h =>
      (immShift_zero h d a i sarWord).trans (congrArg (ret k d) (sarWord_eq _ _))
  case trap => exact fun sw d a i x => traps_of (fun _ => rfl) fun k h => immShift_illegal h d a i shlWord

/-! ### Bit fields, counts and selection (R121, R122, R124) -/

theorem fieldOf_eq (b : Word) : fieldOf b =
    (b.toNat % 256, if 32 ≤ b.toNat % 256 then 0 else min (b.toNat / 256 % 256) (32 - b.toNat % 256)) := by
  simp [fieldOf, fld]

theorem bfxWord_eq (m : Bool) (a b : Word) :
    bfxWord m a b = (let pos := b.toNat % 256
      let len := b.toNat / 256 % 256
      let w := if 32 ≤ pos then 0 else min len (32 - pos)
      let f := a.toNat / 2 ^ pos % 2 ^ w
      if w = 0 then 0 else if m then word (sx f w) else wordN f) := by
  rw [bfxWord, fieldOf_eq]
  rfl

/-- BFI by bits: those of the field that lie inside the word come from the field's value. -/
theorem getLsbD_bfiWord (a b c : Word) {j : Nat} (hj : j < 32) : (bfiWord a b c).getLsbD j =
    if b.toNat % 256 ≤ j ∧ j < b.toNat % 256 + b.toNat / 256 % 256 then a.getLsbD (j - b.toNat % 256) else c.getLsbD j := by
  have pos : (fieldOf b).1 = b.toNat % 256 := congrArg Prod.fst (fieldOf_eq b)
  have inside : (b.toNat % 256 ≤ j ∧ j < b.toNat % 256 + b.toNat / 256 % 256) ↔
      (fieldOf b).1 ≤ j ∧ j - (fieldOf b).1 < (fieldOf b).2 := by
    rw [fieldOf_eq]
    dsimp only
    split <;> omega
  have mask : (wordN ((2 ^ (fieldOf b).2 - 1) * 2 ^ (fieldOf b).1)).getLsbD j =
      decide ((fieldOf b).1 ≤ j ∧ j - (fieldOf b).1 < (fieldOf b).2) := by
    rw [getLsbD_wordN hj, Nat.testBit_mul_two_pow, Nat.testBit_two_pow_sub_one, Bool.decide_and]
  have value : (wordN (a.toNat * 2 ^ (fieldOf b).1)).getLsbD j =
      (decide ((fieldOf b).1 ≤ j) && a.getLsbD (j - (fieldOf b).1)) := by
    rw [getLsbD_wordN hj, Nat.testBit_mul_two_pow]
    rfl
  rw [if_congr inside rfl rfl, ← pos, bfiWord]
  dsimp only
  split
  · next hw => rw [hw, if_neg (fun h => Nat.not_lt_zero _ h.2)]
  · rw [BitVec.getLsbD_or, BitVec.getLsbD_and, BitVec.getLsbD_and, BitVec.getLsbD_not, mask, value]
    by_cases h : (fieldOf b).1 ≤ j ∧ j - (fieldOf b).1 < (fieldOf b).2
    · simp [h]
    · simp [h, hj]

theorem popCount_eq (a : Word) : popCount a = (List.range 32).countP (fun i => a.getLsbD i) := List.countP_eq_length_filter.symm

/-- The bits read from the lowest up stand in the other order. -/
theorem testBit_foldl_reverse (p : Nat → Bool) (n j : Nat) :
    ((List.range n).foldl (fun v i => v * 2 + b2n (p i)) 0).testBit j = (decide (j < n) && p (n - 1 - j)) := by
  induction n generalizing j with
  | zero => simp
  | succ n ih =>
    rw [List.range_succ, List.foldl_append, List.foldl_cons, List.foldl_nil]
    generalize (List.range n).foldl (fun v i => v * 2 + b2n (p i)) 0 = v at ih ⊢
    cases j with
    | zero => cases h : p n <;> simp [h, b2n, Nat.testBit_zero, Nat.add_mod]
    | succ j =>
      have half : (v * 2 + b2n (p n)) / 2 = v := by
        cases p n with
        | false => exact Nat.mul_div_cancel v (by decide)
        | true =>
          change (v * 2 + 1) / 2 = v
          omega
      rw [Nat.testBit_succ, half, ih, show n + 1 - 1 - (j + 1) = n - 1 - j by omega]
      simp

theorem bitReverse_eq (a : Word) : bitReverse a = a.reverse := by
  refine BitVec.eq_of_getLsbD_eq fun j hj => ?_
  rw [bitReverse, getLsbD_wordN hj, testBit_foldl_reverse, BitVec.getLsbD_reverse, BitVec.getMsbD]

/-! ### Addresses, 64-bit sums and dot products (R126 to R128) -/

theorem reg64_lt (th : Thread) (r : Nat) : th.reg64 r < 2 ^ 64 := by
  have h0 := (th.reg r).isLt
  have h1 := (th.reg (r + 1)).isLt
  unfold Thread.reg64
  omega

theorem leaSum_eq {base : Nat} (h : base < 2 ^ 64) (off : Int) :
    leaSum base off = base / 2 ^ 56 * 2 ^ 56 + (((base : Int) + off) % 2 ^ 56).toNat := by
  unfold leaSum wrap
  omega

/-- The product of the bytes `i` of two words. -/
def byteProduct (m : Bool) (a b : Word) (i : Nat) : Int :=
  let u := a.toNat / 2 ^ (8 * i) % 256
  let v := b.toNat / 2 ^ (8 * i) % 256
  if m then (u : Int) * v else (BitVec.ofNat 8 u).toInt * (BitVec.ofNat 8 v).toInt

theorem sx_byte (v : Nat) : sx (v % 256) 8 = (BitVec.ofNat 8 (v % 256)).toInt := by
  rw [← sx_toNat, BitVec.toNat_ofNat, Nat.mod_mod]

theorem dot4_eq (m : Bool) (a b : Word) :
    dot4 m a b = byteProduct m a b 0 + byteProduct m a b 1 + byteProduct m a b 2 + byteProduct m a b 3 := by
  have byte (i : Nat) : (if m then ((fld a.toNat (8 * i) 8 : Nat) : Int) * (fld b.toNat (8 * i) 8 : Nat)
      else sx (fld a.toNat (8 * i) 8) 8 * sx (fld b.toNat (8 * i) 8) 8) = byteProduct m a b i := by
    simp only [byteProduct, ← sx_byte]
    rfl
  simp only [dot4, byte]
  exact congrArg (· + _ + _ + _) (zero_add _)

/-- Settles O6: a field inserted is read bit by bit, a reversed word too; the other results are those of their functions. -/
theorem bitFieldsCountsAndPairs : Obligations.BitFieldsCountsAndPairs := by
  refine ⟨⟨?bfx, ?bfi⟩, ⟨?popc, ?clz, ?brev, ?sel⟩, ⟨?lea, ?add64⟩, ?idp4, ?mix32⟩
  case bfx => exact fun sw d a b x y m => writes_of_ret (fun _ => rfl) fun k => bfxWord_eq m _ _
  case bfi =>
    intro sw d a b x y s t th k pos len hp hf
    exact ⟨bfiWord (k.g a) (k.g b) k.c,
      writes_of_ret (fun _ => rfl) (v := fun k => bfiWord (k.g a) (k.g b) k.c) (fun _ => rfl) s t th hp hf,
      fun j hj => getLsbD_bfiWord _ _ _ hj⟩
  case popc => exact fun sw d a x => writes_of_ret (fun _ => rfl) fun k => congrArg wordN (popCount_eq _)
  case clz => exact fun sw d a x => writes_of_ret (fun _ => rfl) fun _ => rfl
  case brev => exact fun sw d a x => writes_of_ret (fun _ => rfl) fun k => bitReverse_eq _
  case sel => exact fun sw d a b x y m => writes_of_ret (fun _ => rfl) fun _ => rfl
  case lea =>
    exact fun sw d a b x y m => writes_of (fun _ => rfl) fun k =>
      (congrArg (ret64 k d) (leaSum_eq (reg64_lt _ _) _)).trans (ret64_eq k d _)
  case add64 => exact fun sw d a b x y m => writes_of (fun _ => rfl) fun k => ret64_eq k d _
  case idp4 =>
    exact fun sw d a b x y m => writes_of_ret (fun _ => rfl) fun k =>
      congrArg (fun v => word (saturate k.sat m (typed m k.c + v))) (dot4_eq m _ _)
  case mix32 => exact fun sw d a b x y => writes_of_ret (fun _ => rfl) fun _ => rfl

/-! ### Predicates (R123, R125, R165) -/

theorem testBit_clear (n i j : Nat) :
    (if n.testBit i then n ^^^ 2 ^ i else n).testBit j = (n.testBit j && decide (i ≠ j)) := by
  by_cases h : i = j
  · subst h
    cases hb : n.testBit i <;> simp [hb]
  · split
    · simp [h]
    · simp [h]

theorem Thread.pred_setPred (th : Thread) (i j : Nat) (v : Bool) : (th.setPred i v).pred j = if j = i then v else th.pred j := by
  cases v with
  | true =>
    have set : (th.setPred i true).pred j = (th.pred j || decide (i = j)) := by
      simp only [setPred, pred, if_true, Nat.testBit_or, Nat.testBit_two_pow]
    rw [set]
    by_cases h : j = i
    · simp [h]
    · simp [h, Ne.symm h]
  | false =>
    have cleared : (th.setPred i false).pred j = (th.pred j && decide (i ≠ j)) := testBit_clear th.preds i j
    rw [cleared]
    by_cases h : j = i
    · simp [h]
    · simp [h, Ne.symm h]

/-- Settles O7: each word's test is its entry's, and a predicate written leaves the others' bits. -/
theorem predicateWords : Obligations.PredicateWords := by
  refine ⟨?isetp, ?isetpi, ?plop, ?fsetp, fun th i j v => th.pred_setPred i j v⟩
  case isetp => exact fun sw c p a b x y m => runs_of (fun _ => rfl) fun _ _ => rfl
  case isetpi => exact fun sw c p a i x m => runs_of (fun _ => rfl) fun _ _ => rfl
  case plop => exact fun sw o p q r m => runs_of (fun _ => rfl) fun _ _ => rfl
  case fsetp => exact fun sw c p a b x y m => runs_of (fun _ => rfl) fun _ _ => rfl

end Sys2Proof.Machine
end

section
/-!
Rounding to a format's grid, and the patterns a format reads (R130, R141 to R143).
-/
namespace Sys2Proof.Machine
set_option Elab.async false

/-! ### The grid (R141) -/

section
variable {e q : Int}

theorem roundAt_of_le (h : q ≤ e) (mode : Nat) (neg : Bool) (m : Nat) (d : Draw) :
    roundAt mode neg m e q d = (m * 2 ^ (e - q).toNat, true) := if_pos h

theorem roundAt_exact (h : e < q) {m : Nat} (hm : m % 2 ^ (q - e).toNat = 0) (mode : Nat) (neg : Bool) (d : Draw) :
    roundAt mode neg m e q d = (m / 2 ^ (q - e).toNat, true) := by
  simp only [roundAt, Int.not_le.2 h, hm, if_false, beq_self_eq_true, if_true]

/-- Off the grid the mode chooses between the lower neighbour and the one above it. -/
theorem roundAt_inexact (h : e < q) {m : Nat} (hm : m % 2 ^ (q - e).toNat ≠ 0) (mode : Nat) (neg : Bool) (d : Draw) :
    roundAt mode neg m e q d =
      (if roundsUp mode neg (m / 2 ^ (q - e).toNat) (m % 2 ^ (q - e).toNat) (2 ^ (q - e).toNat) d
        then m / 2 ^ (q - e).toNat + 1 else m / 2 ^ (q - e).toNat, false) := by
  simp only [roundAt, Int.not_le.2 h, beq_false_of_ne hm, Bool.false_eq_true, if_false, Prod.mk.injEq, and_true]
  split
  · next up => rw [up, b2n, if_pos rfl]
  · next down => rw [Bool.eq_false_of_not_eq_true down]; rfl

end

section
variable {neg : Bool} {lo rem den : Nat} {d : Draw}

theorem roundsUp_rne : roundsUp modeRNE neg lo rem den d = true ↔ ¬ (2 * rem < den ∨ (2 * rem = den ∧ lo % 2 = 0)) := by
  simp only [roundsUp, modeRNE, Bool.or_eq_true, Bool.and_eq_true, decide_eq_true_eq, beq_iff_eq]
  omega

theorem roundsUp_ru : roundsUp modeRU neg lo rem den d = true ↔ ¬ neg = true := by
  simp only [roundsUp, modeRU, Bool.not_eq_true', Bool.not_eq_true]

theorem roundsUp_rna : roundsUp modeRNA neg lo rem den d = true ↔ ¬ 2 * rem < den := by
  simp only [roundsUp, modeRNA, decide_eq_true_eq, Nat.not_lt]

theorem roundsUp_srh : roundsUp modeSRH neg lo rem den d = true ↔ d.bits * den < rem * 2 ^ 32 := by
  simp only [roundsUp, modeSRH, decide_eq_true_eq]

end

/-! ### Finite patterns (R130) -/

/-- The largest exponent field of a finite pattern stands for the exponent of the largest finite value. -/
def Fmt.Ranged (f : Fmt) : Prop :=
  1 ≤ f.mb ∧ 1 ≤ f.bias ∧ match f.kind with
    | 0 => 2 ^ f.eb = 2 * f.bias + 2
    | 1 => 2 ^ f.eb = f.bias + 9
    | _ => 2 ^ f.eb = f.bias + 3

/-- A magnitude m · 2^e stands on the format's grid, and is no larger than the largest finite value. -/
structure Fmt.OnGrid (f : Fmt) (m : Nat) (e : Int) : Prop where
  sig : m < 2 ^ (f.mb + 1)
  subnormal : m < 2 ^ f.mb → e = 1 - (f.bias : Int) - f.mb
  low : 1 - (f.bias : Int) - f.mb ≤ e
  top : e ≤ f.maxSig.2
  topSig : e = f.maxSig.2 → m ≤ f.maxSig.1

section
variable {f : Fmt} {bits m : Nat} {n : Bool} {e : Int}

/-- A finite reading is that of a subnormal or of a normal pattern, and no pattern kept for infinities and NaNs. -/
theorem Fmt.read_eq_fin (h : f.read bits = .fin n m e) :
    n = bits.testBit (f.eb + f.mb)
    ∧ (fld bits f.mb f.eb = 0 ∧ m = fld bits 0 f.mb ∧ e = 1 - (f.bias : Int) - f.mb
      ∨ fld bits f.mb f.eb ≠ 0 ∧ m = 2 ^ f.mb + fld bits 0 f.mb ∧ e = (fld bits f.mb f.eb : Int) - f.bias - f.mb)
    ∧ ¬ (fld bits f.mb f.eb = 2 ^ f.eb - 1 ∧ f.kind = 0)
    ∧ ¬ (fld bits f.mb f.eb = 2 ^ f.eb - 1 ∧ f.kind = 1 ∧ fld bits 0 f.mb = 2 ^ f.mb - 1) := by
  simp only [read, Bool.and_eq_true, beq_iff_eq, and_assoc] at h
  split at h
  · split at h <;> cases h
  · split at h
    · cases h
    · split at h
      · cases h
        exact ⟨rfl, .inl ⟨‹_›, rfl, rfl⟩, ‹_›, ‹_›⟩
      · cases h
        exact ⟨rfl, .inr ⟨‹_›, rfl, rfl⟩, ‹_›, ‹_›⟩

theorem fld_lt (w lo k : Nat) : fld w lo k < 2 ^ k := Nat.mod_lt _ (Nat.two_pow_pos k)

theorem Fmt.low_lt_top (hf : f.Ranged) : 1 - (f.bias : Int) - f.mb < f.maxSig.2 := by
  obtain ⟨-, hbias, -⟩ := hf
  unfold maxSig
  split <;> dsimp only <;> omega

/-- No finite pattern stands above the largest finite value. -/
theorem Fmt.le_top (hf : f.Ranged) (hinf : ¬ (fld bits f.mb f.eb = 2 ^ f.eb - 1 ∧ f.kind = 0))
    (hnan : ¬ (fld bits f.mb f.eb = 2 ^ f.eb - 1 ∧ f.kind = 1 ∧ fld bits 0 f.mb = 2 ^ f.mb - 1)) :
    (fld bits f.mb f.eb : Int) - f.bias - f.mb ≤ f.maxSig.2
    ∧ ((fld bits f.mb f.eb : Int) - f.bias - f.mb = f.maxSig.2 → 2 ^ f.mb + fld bits 0 f.mb ≤ f.maxSig.1) := by
  have hE := fld_lt bits f.mb f.eb
  have hM := fld_lt bits 0 f.mb
  have double : 2 ^ (f.mb + 1) = 2 * 2 ^ f.mb := Nat.pow_succ'
  obtain ⟨eb, mb, bias, kind⟩ := f
  obtain ⟨-, -, hr⟩ := hf
  match kind, hr, hinf, hnan with
  | 0, hr, hinf, _ => simp only [maxSig, and_true] at *; omega
  | 1, hr, _, hnan => simp only [maxSig, true_and] at *; omega
  | k + 2, hr, _, _ => simp only [maxSig] at *; omega

theorem Fmt.onGrid_of_read (hf : f.Ranged) (h : f.read bits = .fin n m e) : f.OnGrid m e := by
  have hM := fld_lt bits 0 f.mb
  have double : 2 ^ (f.mb + 1) = 2 * 2 ^ f.mb := Nat.pow_succ'
  have hlow := low_lt_top hf
  obtain ⟨-, ⟨-, rfl, rfl⟩ | ⟨hE, rfl, rfl⟩, hinf, hnan⟩ := read_eq_fin h
  · exact ⟨by omega, fun _ => rfl, le_rfl, hlow.le, fun htop => absurd htop hlow.ne⟩
  · obtain ⟨top, topSig⟩ := le_top hf hinf hnan
    exact ⟨by omega, fun hsub => absurd hsub (by omega), by omega, top, topSig⟩

/-- A pattern's sign, exponent field and fraction. -/
theorem Fmt.bits_eq (h : bits < 2 ^ f.width) :
    bits = b2n (bits.testBit (f.eb + f.mb)) * 2 ^ (f.eb + f.mb) + fld bits f.mb f.eb * 2 ^ f.mb + fld bits 0 f.mb := by
  have sign : bits / 2 ^ f.mb / 2 ^ f.eb = b2n (bits.testBit (f.eb + f.mb)) := by
    have small : bits / 2 ^ (f.eb + f.mb) < 2 := by
      rw [width, Nat.add_assoc, Nat.add_comm, Nat.pow_succ] at h
      exact Nat.div_lt_of_lt_mul h
    rw [Nat.div_div_eq_div_mul, ← pow_add, Nat.add_comm f.mb, ← flag_eq_testBit, flag, Nat.mod_eq_of_lt small]
    generalize bits / 2 ^ (f.eb + f.mb) = s at small
    interval_cases s <;> rfl
  rw [← sign, pow_add, ← Nat.mul_assoc, ← Nat.add_mul, fld, Nat.div_add_mod', fld_low, Nat.div_add_mod']

theorem Fmt.pattern_of_read (hb : bits < 2 ^ f.width) (h : f.read bits = .fin n m e) : f.pattern n m e = bits := by
  obtain ⟨rfl, ⟨hE, rfl, rfl⟩ | ⟨hE, rfl, rfl⟩, -, -⟩ := read_eq_fin h
  · have frac := fld_lt bits 0 f.mb
    simp only [pattern, frac, if_true]
    conv_rhs => rw [bits_eq hb, hE]
    omega
  · have frac := fld_lt bits 0 f.mb
    have normal : ¬ 2 ^ f.mb + fld bits 0 f.mb < 2 ^ f.mb := by omega
    have inside : (2 ^ f.mb + fld bits 0 f.mb == 2 ^ (f.mb + 1)) = false := beq_false_of_ne (by rw [Nat.pow_succ']; omega)
    have field : ((fld bits f.mb f.eb : Int) - f.bias - f.mb + f.mb + f.bias).toNat = fld bits f.mb f.eb := by omega
    simp only [pattern, normal, inside, field, Bool.false_eq_true, if_false, Nat.add_sub_cancel_left]
    exact (bits_eq hb).symm

/-- The grid's exponent for a magnitude on it. -/
theorem Fmt.OnGrid.exponent (h : f.OnGrid m e) (hm : m ≠ 0) :
    max (((Nat.log2 m : Nat) : Int) + e - f.mb) (1 - (f.bias : Int) - f.mb) = e := by
  have low := h.low
  by_cases hs : m < 2 ^ f.mb
  · have := (Nat.log2_lt hm).2 hs
    have := h.subnormal hs
    omega
  · have := (Nat.le_log2 hm).2 (Nat.not_lt.1 hs)
    have := (Nat.log2_lt hm).2 h.sig
    omega

theorem Fmt.le_maxSig (hf : f.Ranged) : 2 ^ f.mb ≤ f.maxSig.1 := by
  have two : 2 ^ 1 ≤ 2 ^ f.mb := Nat.pow_le_pow_right (by decide) hf.1
  have double : 2 ^ (f.mb + 1) = 2 * 2 ^ f.mb := Nat.pow_succ'
  unfold maxSig
  split <;> dsimp only <;> omega

/-- A magnitude on the grid is no overflow. -/
theorem Fmt.OnGrid.not_over (hf : f.Ranged) (h : f.OnGrid m e) :
    (if f.maxSig.2 ≤ e then decide (f.maxSig.1 < m * 2 ^ (e - f.maxSig.2).toNat)
      else decide (f.maxSig.1 * 2 ^ (f.maxSig.2 - e).toNat < m)) = false := by
  obtain hlt | heq := lt_or_eq_of_le h.top
  · rw [if_neg (Int.not_le.2 hlt), decide_eq_false_iff_not, Nat.not_lt]
    have two : 2 ^ 1 ≤ 2 ^ (f.maxSig.2 - e).toNat := Nat.pow_le_pow_right (by decide) (by omega)
    calc m ≤ 2 ^ f.mb * 2 ^ 1 := h.sig.le
      _ ≤ f.maxSig.1 * 2 ^ (f.maxSig.2 - e).toNat := Nat.mul_le_mul (le_maxSig hf) two
  · rw [if_pos heq.ge, heq, sub_self, decide_eq_false_iff_not, Nat.not_lt, Int.toNat_zero, pow_zero, mul_one]
    exact h.topSig heq

/-- A value on the grid keeps its pattern in every mode and raises nothing. -/
theorem Fmt.roundFin_onGrid (hf : f.Ranged) (h : f.OnGrid m e) (mode : Nat) (sat neg : Bool) (d : Draw) :
    f.roundFin mode sat neg m e d = (f.pattern neg m e, {}) := by
  by_cases hm : m = 0
  · subst hm
    simp [roundFin, pattern]
  · have same := roundAt_of_le (le_refl e) mode neg m d
    rw [sub_self, Int.toNat_zero, pow_zero, mul_one] at same
    simp only [roundFin, beq_false_of_ne hm, h.exponent hm, same, h.not_over hf, Bool.false_eq_true, if_false, Bool.not_true,
      Bool.and_false]

end

theorem Fmt.roundFin_read {f : Fmt} (hf : f.Ranged) {bits : Nat} (hb : bits < 2 ^ f.width) {n : Bool} {m : Nat} {e : Int}
    (h : f.read bits = .fin n m e) (mode : Nat) (sat : Bool) (d : Draw) : f.roundFin mode sat n m e d = (bits, {}) := by
  rw [roundFin_onGrid hf (onGrid_of_read hf h), pattern_of_read hb h]

theorem Fmt.ranged_of_scalar {f : Fmt} (h : f ∈ [fp32, fp16, bf16, e4m3, e5m2, e2m1]) : f.Ranged := by
  simp only [List.mem_cons, List.not_mem_nil, or_false] at h
  obtain rfl | rfl | rfl | rfl | rfl | rfl := h <;> exact ⟨by decide, by decide, rfl⟩

/-- Settles O12: off the grid each mode's choice is its condition in R141, and a finite pattern reads to a value on its format's
grid. -/
theorem roundingIsToANeighbour : Obligations.RoundingIsToANeighbour := by
  refine ⟨?grid, fun f hf bits hb n m e h mode sat d => Fmt.roundFin_read (Fmt.ranged_of_scalar hf) hb h mode sat d⟩
  intro neg m e q d h den lo r
  have on (mode : Nat) (hm : m % den = 0) : r mode = lo := congrArg Prod.fst (roundAt_exact h hm mode neg d)
  have off (mode : Nat) (hm : m % den ≠ 0) : r mode = if roundsUp mode neg lo (m % den) den d then lo + 1 else lo :=
    congrArg Prod.fst (roundAt_inexact h hm mode neg d)
  refine ⟨fun mode => ?onGrid, fun mode hm => ?value, fun mode hm => ?neighbour, fun hm => ?rne, fun hm => ?rz, fun hm => ?rd,
    fun hm => ?ru, fun hm => ?rna, fun hm => ?srh⟩
  case onGrid =>
    by_cases hm : m % den = 0
    · rw [roundAt_exact h hm, decide_eq_true hm]
    · rw [roundAt_inexact h hm, decide_eq_false hm]
  case value =>
    rw [on mode hm]
    exact Nat.div_mul_cancel (Nat.dvd_of_mod_eq_zero hm)
  case neighbour =>
    rw [off mode hm]
    exact (ite_eq_or_eq _ _ _).symm
  case rne => rw [off _ hm, if_congr roundsUp_rne rfl rfl, ite_not]
  case rz => exact (off _ hm).trans (if_neg Bool.false_ne_true)
  case rd => exact off _ hm
  case ru => rw [off _ hm, if_congr roundsUp_ru rfl rfl, ite_not]
  case rna => rw [off _ hm, if_congr roundsUp_rna rfl rfl, ite_not]
  case srh => rw [off _ hm, if_congr roundsUp_srh rfl rfl]

end Sys2Proof.Machine
end

section
/-!
Conversions between formats (R148 to R154).
-/
namespace Sys2Proof.Machine
set_option Elab.async false

/-! ### Fields of format words -/

theorem fwA_eq (w : Nat) : fwA w = w % 16 := fld_low w 4

/-! ### Words with one result (R148, R149, R152 to R154) -/

/-- NXEL's result for the header `h` and the element word `v` (R152). -/
def nxelRound (h v : Nat) : FRes :=
  let mw := nxM (h / 2 ^ 20 % 16)
  fp32.roundVal modeRNE false 0
    (nxElement mw (h % 256) (h / 2 ^ 8 % 256) (h / 2 ^ 16 % 16) (v / 2 ^ mw % 2 == 1) (v % 2 ^ mw)) {}

/-- NXEL's entry: a format code other than 0x4, 0x5 and 0x6 is no legal operand. -/
def nxelBody (d a b : BitVec 6) (k : Ctx) : Except Stop Eff :=
  let h := (k.th.reg a.toNat).toNat
  if 4 ≤ h / 2 ^ 20 % 16 ∧ h / 2 ^ 20 % 16 ≤ 6 then floatRet k d (nxelRound h (k.th.reg b.toNat).toNat) (k.th.reg b.toNat) 0
  else .error (k.illegal 3)

theorem nxCode_iff (c : Nat) : (c == 4 || c == 5 || c == 6) = true ↔ 4 ≤ c ∧ c ≤ 6 := by
  simp only [Bool.or_eq_true, beq_iff_eq]
  omega

theorem exec_nxel (sw : Bool) (d a b : BitVec 6) (x y : Bool) (s : State) :
    exec (.nxel sw d a b x y) s = issue (.nxel sw d a b x y) [src a x, src b y] (nxelBody d a b) s := by
  refine congrArg (issue (.nxel sw d a b x y) [src a x, src b y] · s) (funext fun k => ?_)
  have code : (k.th.reg a.toNat).toNat / 2 ^ 20 % 16 = fld (k.g a).toNat 20 4 := rfl
  simp only [nxelBody, nxelRound, code, ← nxCode_iff, fld_low, Bool.not_eq_true', ← Bool.not_eq_true, ite_not]
  rfl

/-- An FP32 result that is no NaN, or with the trap off, is written. -/
theorem floatRet_ok {k : Ctx} {d : BitVec 6} {r : FRes} {a b : Word}
    (h : fmtNanTrap k.th.fmt = false ∨ (rd32 r.1).isNan = false) :
    floatRet k d r a b = .ok (floatEff k [(d.toNat, wordN r.1)] r.2) :=
  floatWrites_ok (h.imp_right fun hn => by rw [hn]; rfl)

/-- An FP32 NaN traps while the trap is on. -/
theorem floatRet_nan {k : Ctx} {d : BitVec 6} {r : FRes} {a b : Word} (ht : fmtNanTrap k.th.fmt = true)
    (hn : (rd32 r.1).isNan = true) : floatRet k d r a b = .error (.trap causeFpNan 0 k.iw a b) := by
  rw [floatRet, hn]
  exact floatWrites_nan ht

/-! ### CVTFF (R150, R151) -/

section
variable (k : Ctx) (d a b : BitVec 6)

/-- The format word. -/
def Ctx.cvtWord : Nat := (k.th.reg b.toNat).toNat

/-- Width of the source's elements. -/
def Ctx.cvtFrom : Nat := widthOfCode (k.cvtWord b % 16)

/-- Width of the results. -/
def Ctx.cvtTo : Nat := widthOfCode (k.cvtWord b / 2 ^ 8 % 16)

/-- Elements of the group. -/
def Ctx.cvtCount : Nat := 32 / min (k.cvtFrom b) (k.cvtTo b)

/-- Registers of the source group. -/
def Ctx.cvtSources : Nat := k.cvtCount b * k.cvtFrom b / 32

/-- Registers of the destination group. -/
def Ctx.cvtDests : Nat := k.cvtCount b * k.cvtTo b / 32

/-- The checks of R150: the format word, and the alignment of both groups. -/
def Ctx.cvtLegal : Prop :=
  cvtWordOk (k.cvtWord b) = true ∧ a.toNat % k.cvtSources b = 0 ∧ d.toNat % k.cvtDests b = 0

/-- The rounded element `i`. -/
def Ctx.cvtElement (i : Nat) : Nat × Cond :=
  roundCode (k.cvtWord b / 2 ^ 8 % 16) (k.mode (k.cvtWord b / 2 ^ 12 % 16)) k.sat (fwBias (k.cvtWord b))
    (readCode (k.cvtWord b % 16) (k.th.groupBits a.toNat (k.cvtSources b) / 2 ^ (k.cvtFrom b * i) % 2 ^ k.cvtFrom b)) ⟨k.seed, i⟩

/-- The bits of the destination group. -/
def Ctx.cvtBits : Nat := (List.range (k.cvtCount b)).foldl (fun v i => v + (k.cvtElement a b i).1 * 2 ^ (k.cvtTo b * i)) 0

/-- What CVTFF leaves where no NaN traps. -/
def Ctx.cvtEff : Eff :=
  floatEff k ((List.range (k.cvtDests b)).map fun j => (d.toNat + j, wordN (k.cvtBits a b / 2 ^ (32 * j) % 2 ^ 32)))
    ((List.range (k.cvtCount b)).foldl (fun c i => c.or (k.cvtElement a b i).2) {})

end

theorem range_eq_map (a n : Nat) : range a n = (List.range n).map (a + ·) := List.range'_eq_map_range

theorem natWords_eq_map (n v : Nat) : natWords n v = (List.range n).map fun j => wordN (v / 2 ^ (32 * j) % 2 ^ 32) := by
  induction n generalizing v with
  | zero => rfl
  | succ n ih =>
    rw [natWords, ih, List.range_succ_eq_map, List.map_cons, List.map_map]
    refine congrArg₂ _ (by simp) (List.map_congr_left fun j _ => ?_)
    rw [Function.comp_apply, Nat.mul_succ, Nat.add_comm (32 * j), pow_add, Nat.div_div_eq_div_mul]

/-- The words of a number with the registers they go to. -/
theorem zip_range_natWords (d n v : Nat) :
    (range d n).zip (natWords n v) = (List.range n).map fun j => (d + j, wordN (v / 2 ^ (32 * j) % 2 ^ 32)) := by
  rw [range_eq_map, natWords_eq_map, List.zip_map']

theorem zipIdx_map_range {α : Type} (f : Nat → α) (n : Nat) :
    ((List.range n).map f).zipIdx = (List.range n).map fun i => (f i, i) :=
  List.ext_getElem (by simp) (by simp)

section
variable {k : Ctx} {d a b : BitVec 6} {x : Bool}

theorem cvtLegal_iff : k.cvtLegal d a b ↔ cvtWordOk (k.cvtWord b) = true ∧
    (groupAligned a.toNat (k.cvtCount b * k.cvtFrom b) && groupAligned d.toNat (k.cvtCount b * k.cvtTo b)) = true := by
  rw [Bool.and_eq_true, groupAligned, groupAligned, beq_iff_eq, beq_iff_eq]
  rfl

theorem cvtffBody_illegal (h : ¬ k.cvtLegal d a b) : cvtffBody d a b x k = .error (k.illegal 3) := by
  rw [cvtLegal_iff, not_and_or, Bool.not_eq_true, Bool.not_eq_true] at h
  unfold cvtffBody
  simp only [fwA_eq]
  obtain h | h := h
  · exact if_pos (congrArg (!·) h)
  · exact (ite_congr rfl (fun _ => rfl) fun _ => if_pos (congrArg (!·) h)).trans (ite_self _)

theorem cvtffBody_ok (hl : k.cvtLegal d a b) (hp : k.pendingSrc [⟨a.toNat, k.cvtSources b, x⟩] = none)
    (hn : fmtNanTrap k.th.fmt = false ∨ ∀ i < k.cvtCount b, codeNan (k.cvtWord b / 2 ^ 8 % 16) (k.cvtElement a b i).1 = false) :
    cvtffBody d a b x k =
      .ok { k.cvtEff d a b with moreFrees := if x then range a.toNat (k.cvtSources b) else [] } := by
  obtain ⟨hw, hg⟩ := cvtLegal_iff.1 hl
  unfold cvtffBody
  simp only [fwA_eq]
  refine (if_neg (ne_true_of_eq_false (congrArg (!·) hw))).trans ?_
  refine (if_neg (ne_true_of_eq_false (congrArg (!·) hg))).trans ?_
  simp only [zipIdx_map_range, List.foldl_map, List.find?_map, Option.map_map, zip_range_natWords]
  split
  · next r h => exact absurd (hp.symm.trans h) (Option.some_ne_none r).symm
  · refine (congrArg (Except.map _) (floatWrites_ok (hn.imp_right fun plain => ?_))).trans rfl
    refine congrArg (Option.map _) (List.find?_eq_none.2 fun i hi => ?_)
    exact ne_true_of_eq_false (plain i (List.mem_range.1 hi))

theorem dests_cvtEff : (k.cvtEff d a b).dests = range d.toNat (k.cvtDests b) := by
  simp [Ctx.cvtEff, floatEff, Eff.dests, range_eq_map, Function.comp_def]

end

/-- Settles O11: each word's entry is a rounding of its operands, and CVTFF's loop runs over the elements that its format word
defines. -/
theorem conversions : Obligations.Conversions := by
  refine ⟨⟨?cvtfi, ?cvtif, ?nxel, ?mxel, ?fmtchk⟩, ?cvtff⟩
  case cvtfi => exact fun sw d a b x y m => runs_of (fun _ => rfl) fun k _ => floatWrites_ok (.inr rfl)
  case cvtif =>
    refine fun sw d a b x y m => floatGives_of (fun _ => rfl) fun k => ?_
    simp only [dyScale, dyInt, zero_add]
    rfl
  case nxel =>
    refine fun sw d a b x y => ⟨?result, ?nan, ?code⟩
    case result =>
      refine runs_of (exec_nxel sw d a b x y) fun k ⟨hc, hn⟩ => ?_
      exact (if_pos hc).trans (floatRet_ok hn)
    case nan =>
      refine traps_of (exec_nxel sw d a b x y) fun k ⟨hc, ht, hn⟩ => ?_
      exact (if_pos hc).trans (floatRet_nan ht hn)
    case code => exact traps_of (exec_nxel sw d a b x y) fun k hc => if_neg hc
  case mxel =>
    refine fun sw d a b x y => floatGives_of (fun _ => rfl) fun k => ?_
    simp only [fld_low]
    rfl
  case fmtchk =>
    refine fun sw d a x => writes_of_ret (fun _ => rfl) fun k => ?_
    simp only [fmtChkWord, fwA_eq, beq_iff_eq]
    rfl
  case cvtff =>
    refine fun sw d a b x y => ⟨traps_of (fun _ => rfl) fun k h => cvtffBody_illegal h, ?_⟩
    intro s t th k more frees bits conds hpass hl hp hn hf
    exact (issue_completes hpass (cvtffBody_ok hl hp hn) ((congrArg (fits k frees) dests_cvtEff).trans hf) rfl).trans rfl

end Sys2Proof.Machine
end

section
/-!
FP32 arithmetic (R159, R161 to R164, R168).
-/
namespace Sys2Proof.Machine
set_option Elab.async false

/-! ### Classes of a reading (R130) -/

namespace FVal
variable {v : FVal}

theorem isNan_of_isZero (h : v.isZero = true) : v.isNan = false := by
  cases v with
  | nan sn => nomatch h
  | inf n => rfl
  | fin n m e => rfl

theorem isInf_of_isZero (h : v.isZero = true) : v.isInf = false := by
  cases v with
  | nan sn => rfl
  | inf n => nomatch h
  | fin n m e => rfl

theorem isNan_of_isInf (h : v.isInf = true) : v.isNan = false := by
  cases v with
  | nan sn => nomatch h
  | inf n => rfl
  | fin n m e => rfl

end FVal

/-! ### Readings of single patterns -/

theorem rd32_posZero : rd32 0 = .fin false 0 (-149) := rfl
theorem rd32_negZero : rd32 0x80000000 = .fin true 0 (-149) := rfl
theorem rd32_posInf : rd32 0x7F800000 = .inf false := rfl
theorem rd32_negInf : rd32 0xFF800000 = .inf true := rfl

/-! ### FMIN and FMAX (R164) -/

section
variable {hi : Bool} {a b : Nat}

theorem fMinMax_nan_left (ha : (rd32 a).isNan = true) (hb : (rd32 b).isNan = false) : (fMinMax hi a b).1 = b := by
  simp [fMinMax, ha, hb]

theorem fMinMax_nan_right (ha : (rd32 a).isNan = false) (hb : (rd32 b).isNan = true) : (fMinMax hi a b).1 = a := by
  simp [fMinMax, ha, hb]

theorem fMinMax_nan_both (ha : (rd32 a).isNan = true) (hb : (rd32 b).isNan = true) : (fMinMax hi a b).1 = fp32.nan := by
  simp [fMinMax, ha, hb]

/-- Two ordered operands are chosen between by their order. -/
theorem fMinMax_ordered (ha : (rd32 a).isNan = false) (hb : (rd32 b).isNan = false) :
    (fMinMax hi a b).1 = if hi then (if fltLess (rd32 a) (rd32 b) then b else a)
      else if fltLess (rd32 b) (rd32 a) then b else a := by
  simp [fMinMax, ha, hb]

/-- Of two zeros a negative one is less than a positive one. -/
theorem fMinMax_zeros {n k : Bool} {e x : Int} (ha : rd32 a = .fin n 0 e) (hb : rd32 b = .fin k 0 x) :
    (fMinMax hi a b).1 = if hi then (if n && !k then b else a) else if k && !n then b else a := by
  have ordered := fMinMax_ordered (hi := hi) (congrArg FVal.isNan ha) (congrArg FVal.isNan hb)
  rw [ha, hb] at ordered
  exact ordered

end

/-- Settles O8: each entry is the rounded result of its function under the NaN trap, and FMIN and FMAX choose by the class and
the order of their operands. -/
theorem floatArithmetic : Obligations.FloatArithmetic := by
  refine ⟨⟨?fadd, ?fsub, ?fmul, ?fmad⟩, ?fneg, ?fabs, ?fclass, ?fmin, ?fmax, ?oneNan, ?twoNans, ?minNegFirst, ?minNegSecond,
    ?maxNegFirst, ?maxNegSecond⟩
  case fadd => exact fun sw d a b x y => float32_of fun _ => rfl
  case fsub => exact fun sw d a b x y => float32_of fun _ => rfl
  case fmul => exact fun sw d a b x y => float32_of fun _ => rfl
  case fmad => exact fun sw d a b x y m => float32_of fun _ => rfl
  case fneg => exact fun sw d a x => writes_of_ret (fun _ => rfl) fun _ => rfl
  case fabs => exact fun sw d a x => writes_of_ret (fun _ => rfl) fun _ => rfl
  case fclass => exact fun sw d a x => writes_of_ret (fun _ => rfl) fun _ => rfl
  case fmin => exact fun sw d a b x y => float32_of fun _ => rfl
  case fmax => exact fun sw d a b x y => float32_of fun _ => rfl
  case oneNan => exact fun hi a b ha hb => ⟨fMinMax_nan_left ha hb, fMinMax_nan_right hb ha⟩
  case twoNans => exact fun hi a b ha hb => fMinMax_nan_both ha hb
  case minNegFirst => exact fMinMax_zeros rd32_negZero rd32_posZero
  case minNegSecond => exact fMinMax_zeros rd32_posZero rd32_negZero
  case maxNegFirst => exact fMinMax_zeros rd32_negZero rd32_posZero
  case maxNegSecond => exact fMinMax_zeros rd32_posZero rd32_negZero

end Sys2Proof.Machine
end

section
/-!
FP32 functions and rounding words (R166, R167, R169, R170, R173).
-/
namespace Sys2Proof.Machine
set_option Elab.async false

/-! ### Special cases of FDIV (R166) -/

section
variable (mode : Nat) (n k : Bool) {m : Nat} (e x : Int)

theorem fDiv_zero (hm : m ≠ 0) : fDiv mode (.fin n m e) (.fin k 0 x) = (fp32.inf (n != k), { dz := true }) := by
  simp [fDiv, FVal.isNan, FVal.isInf, FVal.isZero, FVal.neg, hm]

theorem fDiv_zero_zero : fDiv mode (.fin n 0 e) (.fin k 0 x) = (fp32.nan, { nv := true }) := by
  simp [fDiv, FVal.isNan, FVal.isInf, FVal.isZero, fInvalid]

theorem fDiv_inf_inf : fDiv mode (.inf n) (.inf k) = (fp32.nan, { nv := true }) := rfl

theorem fDiv_inf : fDiv mode (.fin n m e) (.inf k) = (if n != k then 0x80000000 else 0, {}) := by
  simp [fDiv, FVal.isNan, FVal.isInf, FVal.neg, b2n]

end

/-! ### Special cases of roots and functions (R166) -/

section
variable (mode : Nat) {bits : Nat}

section
variable (h : (rd32 bits).isZero = true)
include h

theorem fSqrt_zero : fSqrt mode bits = (bits, {}) := by
  simp [fSqrt, FVal.isNan_of_isZero h, h]

theorem fRsqrt_zero : fRsqrt mode bits = (fp32.inf (rd32 bits).neg, { dz := true }) := by
  simp [fRsqrt, FVal.isNan_of_isZero h, h]

theorem fExp2_zero : fExp2 mode bits = (0x3F800000, {}) := by
  simp [fExp2, FVal.isNan_of_isZero h, FVal.isInf_of_isZero h, h]

theorem fLog2_zero : fLog2 mode bits = (fp32.inf true, { dz := true }) := by
  simp [fLog2, FVal.isNan_of_isZero h, h]

theorem fSinPi_zero : fSinPi mode bits = (bits, {}) := by
  simp [fSinPi, FVal.isNan_of_isZero h, FVal.isInf_of_isZero h, h]

theorem fCosPi_zero : fCosPi mode bits = (0x3F800000, {}) := by
  simp [fCosPi, FVal.isNan_of_isZero h, FVal.isInf_of_isZero h, h]

end

section
variable (hn : (rd32 bits).isNan = false) (hz : (rd32 bits).isZero = false) (h : (rd32 bits).neg = true)
include hn hz h

theorem fSqrt_neg : fSqrt mode bits = fInvalid := by simp [fSqrt, hn, hz, h]

theorem fRsqrt_neg : fRsqrt mode bits = fInvalid := by simp [fRsqrt, hn, hz, h]

theorem fLog2_neg : fLog2 mode bits = fInvalid := by simp [fLog2, hn, hz, h]

end

theorem fLog2_one : fLog2 mode 0x3F800000 = (0, {}) := rfl

theorem fSqrt_posInf (h : rd32 bits = .inf false) : fSqrt mode bits = (bits, {}) := by simp only [fSqrt, h]; rfl

theorem fRsqrt_posInf (h : rd32 bits = .inf false) : fRsqrt mode bits = (0, {}) := by simp only [fRsqrt, h]; rfl

theorem fExp2_inf {n : Bool} (h : rd32 bits = .inf n) : fExp2 mode bits = (if n then 0 else fp32.inf false, {}) := by
  simp only [fExp2, h]
  rfl

theorem fSinPi_inf (h : (rd32 bits).isInf = true) : fSinPi mode bits = fInvalid := by
  simp [fSinPi, FVal.isNan_of_isInf h, h]

theorem fCosPi_inf (h : (rd32 bits).isInf = true) : fCosPi mode bits = fInvalid := by
  simp [fCosPi, FVal.isNan_of_isInf h, h]

end

/-! ### FRND (R167) -/

/-- Infinities and zeros are integral. -/
theorem fRound_self (mode : Nat) (exact : Bool) {bits : Nat} (h : (rd32 bits).isInf = true ∨ (rd32 bits).isZero = true) :
    fRound mode exact bits = (bits, {}) := by
  have hn : (rd32 bits).isNan = false := h.elim FVal.isNan_of_isInf FVal.isNan_of_isZero
  obtain h | h := h <;> simp [fRound, hn, h]

/-- Settles O9: each entry is the rounded result of its function under the NaN trap, from which FEXPO is exempt, and a special
case is told by the class of the operand. -/
theorem floatFunctionsAndRounding : Obligations.FloatFunctionsAndRounding := by
  refine ⟨⟨?fdiv, ?frcp, ?fsqrt, ?frsq, ?fexp2, ?flog2, ?fsinpi, ?fcospi, ?byZero, ?invalid, ?byInf, ?zero, ?negative, ?patterns⟩,
    ?frnd, ?fscale, ?fexpo, ?prd, ?expoZero, ?expoInf, ?expoNan, ?expoLeast, ?integral⟩
  case fdiv => exact fun sw d a b x y => float32_of fun _ => rfl
  case frcp => exact fun sw d a x => float32_of fun _ => rfl
  case fsqrt => exact fun sw d a x => float32_of fun _ => rfl
  case frsq => exact fun sw d a x => float32_of fun _ => rfl
  case fexp2 => exact fun sw d a x => float32_of fun _ => rfl
  case flog2 => exact fun sw d a x => float32_of fun _ => rfl
  case fsinpi => exact fun sw d a x => float32_of fun _ => rfl
  case fcospi => exact fun sw d a x => float32_of fun _ => rfl
  case byZero => exact fun mode n k m e hm => fDiv_zero mode n k e _ hm
  case invalid => exact fun mode n k => ⟨fDiv_zero_zero mode n k _ _, fDiv_inf_inf mode n k⟩
  case byInf => exact fun mode n k m e => fDiv_inf mode n k e
  case zero =>
    exact fun mode bits h => ⟨fSqrt_zero mode h, fSinPi_zero mode h, fRsqrt_zero mode h, fLog2_zero mode h, fExp2_zero mode h,
      fCosPi_zero mode h⟩
  case negative => exact fun mode bits hn hz h => ⟨fSqrt_neg mode hn hz h, fRsqrt_neg mode hn hz h, fLog2_neg mode hn hz h⟩
  case patterns =>
    exact fun mode => ⟨fLog2_one mode, fSqrt_posInf mode rd32_posInf, fRsqrt_posInf mode rd32_posInf, fExp2_inf mode rd32_negInf,
      fExp2_inf mode rd32_posInf, fSinPi_inf mode rfl, fCosPi_inf mode rfl⟩
  case frnd => exact fun sw d a x m => float32_of fun _ => rfl
  case fscale => exact fun sw d a b x y => float32_of fun _ => rfl
  case fexpo => exact fun sw d a x => runs_of (fun _ => rfl) fun k _ => floatWrites_ok (.inr rfl)
  case prd => exact fun sw d a x => float32_of fun _ => rfl
  case expoZero => rfl
  case expoInf => rfl
  case expoNan => rfl
  case expoLeast => rfl
  case integral => exact fun mode exact bits h => fRound_self mode exact h

end Sys2Proof.Machine
end

section
/-!
Compensated sums and packed halves (R171, R172, R174).
-/
namespace Sys2Proof.Machine
set_option Elab.async false

/-- Settles O10: TWOSUM's entry by its register c and the NaN trap; the other entries are results under the NaN trap. -/
theorem floatPairsAndHalves : Obligations.FloatPairsAndHalves := by
  refine ⟨fun sw d a b x y => ⟨?sum, ?nan, ?sameRegister⟩, ?padd, fun sw d a b x y m => ⟨?hadd2, ?hmul2, ?hfma2⟩⟩
  case sum =>
    refine runs_of (fun _ => rfl) fun k ⟨hc, hn⟩ => ?_
    refine (if_neg (ne_true_of_eq_false (beq_false_of_ne hc))).trans (floatWrites_ok (hn.imp_right fun plain => ?_))
    exact if_neg (ne_true_of_eq_false plain)
  case nan =>
    refine traps_of (fun _ => rfl) fun k ⟨hc, ht, hn⟩ => ?_
    refine (if_neg (ne_true_of_eq_false (beq_false_of_ne hc))).trans ?_
    exact (congrArg (floatWrites k _ · _) (if_pos hn)).trans (floatWrites_nan ht)
  case sameRegister => exact traps_of (fun _ => rfl) fun k hc => if_pos (beq_iff_eq.2 hc)
  case padd => exact fun sw d a b x y => floatGives_of (fun _ => rfl) fun _ => rfl
  case hadd2 => exact floatGives_of (fun _ => rfl) fun _ => rfl
  case hmul2 => exact floatGives_of (fun _ => rfl) fun _ => rfl
  case hfma2 => exact floatGives_of (fun _ => rfl) fun _ => rfl

end Sys2Proof.Machine
end

section
/-!
The checks of an access, in their order (R175 to R177, R209).
-/
namespace Sys2Proof.Machine
set_option Elab.async false

section
variable {s : State} {t : Nat} {th : Thread} {iw : Word} {addr len align : Nat} {kind : AccKind} {strong : Bool} {wins : List Nat}
  {locks : Bool}

/-- A selector that names no window is reason 1. -/
theorem windowFault_unnamed (h : selector addr ∉ allWindows) : windowFault addr = some 1 := by
  simp only [allWindows, List.mem_cons, List.not_mem_nil, or_false, not_or] at h
  unfold windowFault
  split <;> simp_all

/-- A store or an atomic in the window of the weight store, which no word makes (R190). -/
def WritesWeightStore (addr : Nat) (kind : AccKind) : Prop := selector addr = 0xF3 ∧ (kind = .store ∨ kind = .atomic)

theorem writesWeightStore_iff :
    (selector addr == 0xF3 && (kind == .store || kind == .atomic)) = true ↔ WritesWeightStore addr kind := by
  simp [WritesWeightStore]

theorem checkAccess_windowFault {r : Nat} (h : windowFault addr = some r) :
    checkAccess s t th iw addr len align kind strong wins locks = .error (accessViolation r addr iw) := by
  simp only [checkAccess, h]

theorem checkAccess_weightStore (hw : windowFault addr = none) (h : WritesWeightStore addr kind) :
    checkAccess s t th iw addr len align kind strong wins locks = .error (.trap causeWeightWrite (loW addr) (hiW addr) 0 iw) := by
  simp only [checkAccess, hw]
  exact if_pos (writesWeightStore_iff.2 h)

theorem checkAccess_foreignWindow (hw : windowFault addr = none) (hs : ¬ WritesWeightStore addr kind) (h : selector addr ∉ wins) :
    checkAccess s t th iw addr len align kind strong wins locks = .error (accessViolation 3 addr iw) := by
  simp only [checkAccess, hw]
  exact (if_neg (mt writesWeightStore_iff.1 hs)).trans (if_pos (by simpa using h))

theorem checkAccess_misaligned (hw : windowFault addr = none) (hs : ¬ WritesWeightStore addr kind) (hwin : selector addr ∈ wins)
    (h0 : align ≠ 0) (h : addr % align ≠ 0) :
    checkAccess s t th iw addr len align kind strong wins locks = .error (misaligned addr align iw) := by
  simp only [checkAccess, hw]
  exact (if_neg (mt writesWeightStore_iff.1 hs)).trans ((if_neg (by simpa using hwin)).trans (if_pos (by simp [h0, h])))

/-- Past the steps that every window shares, an access of the thread's private window is judged by the window's size (R189). -/
theorem checkAccess_private {tm : Team} (hw : windowFault addr = none) (hsel : selector addr = 0xF2) (hwin : selector addr ∈ wins)
    (ha : addr % align = 0) (htm : team? s th.team = some tm) :
    checkAccess s t th iw addr len align kind strong wins locks =
      if 1024 * tm.privKb < addr % 2 ^ 20 + len then .error (accessViolation 6 addr iw)
      else .ok { loc := .own t (addr % 2 ^ 20), len := len, strong := strong, cattr := 0, pageW := true, pageSeal := th.sealId } := by
  rw [hsel] at hwin
  simp [checkAccess, hw, hsel, hwin, ha, htm, fld]

/-- An access past the end of its team's allocation (R187). -/
theorem checkAccess_extent {tm : Team} (hw : windowFault addr = none) (hsel : selector addr = 0xF0) (hwin : selector addr ∈ wins)
    (ha : addr % align = 0) (htm : team? s th.team = some tm) (h : tm.spadSize < addr % 2 ^ 18 + len) :
    checkAccess s t th iw addr len align kind strong wins locks = .error (spadExtent tm (addr % 2 ^ 18) len iw) := by
  rw [hsel] at hwin
  simp at h
  simp [checkAccess, hw, hsel, hwin, ha, htm, fld, h]

end

/-- Settles O30: each step of the checks once the steps before it pass. -/
theorem accessChecksInOrder : Obligations.AccessChecksInOrder := by
  intro s t th iw addr len align kind strong wins locks tm htm
  refine ⟨?selector, ?reserved, ?weight, ?windows, ?alignment, ?beyond, ?within, ?extent⟩
  case selector => exact fun h => checkAccess_windowFault (windowFault_unnamed h)
  case reserved =>
    intro hsel hoff
    have hsel : selector addr = 0xF0 := hsel
    exact checkAccess_windowFault (by simp only [windowFault, hsel]; exact if_pos (bne_iff_ne.2 hoff))
  case weight =>
    intro hsel hoff hk
    have hsel : selector addr = 0xF3 := hsel
    have hw : windowFault addr = none := by simp only [windowFault, hsel]; exact if_neg (by simpa [fld] using hoff)
    exact checkAccess_weightStore hw ⟨hsel, .inl hk⟩
  case windows => exact fun hw hwin hs => checkAccess_foreignWindow hw hs hwin
  case alignment => exact fun hw hwin hs h0 ha => checkAccess_misaligned hw hs hwin h0 ha
  case beyond => exact fun hw hwin ha _ hsel h => (checkAccess_private hw hsel hwin ha htm).trans (if_pos h)
  case within => exact fun hw hwin ha _ hsel h => (checkAccess_private hw hsel hwin ha htm).trans (if_neg (Nat.not_lt.2 h))
  case extent => exact fun hw hwin ha _ hsel h => checkAccess_extent hw hsel hwin ha htm h

end Sys2Proof.Machine
end

section
/-!
What performing a load or a store leaves (R3, R32, R189, R194, R208, R210, R211).
-/
namespace Sys2Proof.Machine
set_option Elab.async false

/-! ### Keyed lists and bytes -/

theorem kgetD_kset {α : Type} (m : KMap α) (i j : Nat) (v d : α) : kgetD (kset m i v) j d = if j = i then v else kgetD m j d := by
  rw [kgetD, kget_kset]
  split <;> rfl

theorem Memory.length_readBytes (m : Memory) (a n : Nat) : (m.readBytes a n).length = n := by
  induction n generalizing a with
  | zero => rfl
  | succ n ih => exact congrArg (· + 1) (ih (a + 1))

/-! ### Private slices -/

/-- A line that a touch may write back: one of a window's first lines, or one that a private slice holds (R189). -/
def LineHeld (s : State) (u line : Nat) : Prop := line < 8 ∨ ∃ c lane, (u, line) ∈ kgetD (core s c).lanes lane []

/-- What touches of private windows leave: lines change their slices, and memory changes in backing areas alone. -/
structure Touched (s s' : State) : Prop where
  eq : s' = { s with mem := s'.mem, cores := s'.cores }
  held : ∀ u line, LineHeld s' u line → LineHeld s u line
  mem : ∀ a, offBacking s a → s'.mem.read a = s.mem.read a

section
variable {s s' s'' : State}

theorem Touched.refl (s : State) : Touched s s := ⟨rfl, fun _ _ h => h, fun _ _ => rfl⟩

theorem Touched.threads (h : Touched s s') : s'.threads = s.threads := (congrArg State.threads h.eq).trans rfl
theorem Touched.teams (h : Touched s s') : s'.teams = s.teams := (congrArg State.teams h.eq).trans rfl
theorem Touched.weight (h : Touched s s') : s'.weight = s.weight := (congrArg State.weight h.eq).trans rfl

theorem Touched.thread (h : Touched s s') (t : Nat) : thread? s' t = thread? s t := congrArg (kget? · t) h.threads

theorem Touched.offBacking (h : Touched s s') {a : Nat} (ha : offBacking s a) : offBacking s' a :=
  fun u th b line ht hb hl => ha u th b line ((h.thread u).symm.trans ht) hb (h.held u line hl)

theorem Touched.trans (h : Touched s s') (h' : Touched s' s'') : Touched s s'' where
  eq := h'.eq.trans (congrArg (fun x : State => { x with mem := s''.mem, cores := s''.cores }) h.eq)
  held := fun u line hl => h.held u line (h'.held u line hl)
  mem := fun a ha => (h'.mem a (h.offBacking ha)).trans (h.mem a ha)

theorem Touched.foldl {α : Type} {f : State → α → State} {l : List α} (hf : ∀ s, ∀ a ∈ l, Touched s (f s a)) (s : State) :
    Touched s (l.foldl f s) :=
  List.foldlRecOn (motive := Touched s) l f (.refl s) fun s' h a ha => h.trans (hf s' a ha)

theorem cores_writeBack (s : State) (u line : Nat) : (writeBack s u line).cores = s.cores := by
  unfold writeBack
  split
  · split <;> rfl
  · rfl

theorem Touched.writeBack {u line : Nat} (h : LineHeld s u line) : Touched s (writeBack s u line) := by
  unfold Machine.writeBack
  split
  next th ht =>
    split
    next b hb =>
      refine ⟨rfl, fun _ _ hl => hl, fun a ha => ?_⟩
      refine Memory.read_writeBytes_out _ _ _ _ ?_
      rw [Memory.length_readBytes]
      exact ha u th b line ht hb h
    next => exact .refl s
  next => exact .refl s

/-- Lines that a slice gives up are written back in turn. -/
theorem Touched.writeBacks {l : List (Nat × Nat)} (h : ∀ p ∈ l, LineHeld s p.1 p.2) :
    Touched s (l.foldl (fun s p => Machine.writeBack s p.1 p.2) s) := by
  induction l generalizing s with
  | nil => exact .refl s
  | cons q l ih =>
    have same (u line : Nat) : LineHeld (Machine.writeBack s q.1 q.2) u line = LineHeld s u line := by
      simp only [LineHeld, core, cores_writeBack]
    rw [List.forall_mem_cons] at h
    exact (Touched.writeBack h.1).trans (ih fun p hp => (same p.1 p.2).symm ▸ h.2 p hp)

/-- A lane takes lines that a touch may write back. -/
theorem Touched.setLane {c key : Nat} {ls : List (Nat × Nat)} (h : ∀ p ∈ ls, LineHeld s p.1 p.2) :
    Touched s (modCore s c (fun k => { k with lanes := kset k.lanes key ls })) := by
  refine ⟨rfl, fun u line hl => ?_, fun _ _ => rfl⟩
  obtain hl | ⟨c', lane, hl⟩ := hl
  · exact .inl hl
  · have lanes : (core (modCore s c (fun k => { k with lanes := kset k.lanes key ls })) c').lanes =
        if c' = c then kset (core s c).lanes key ls else (core s c').lanes := by
      simp only [core, modCore, kgetD_kset, apply_ite Core.lanes]
    rw [lanes] at hl
    split at hl
    next =>
      rw [kgetD_kset] at hl
      split at hl
      · exact h (u, line) hl
      · exact .inr ⟨c, lane, hl⟩
    next => exact .inr ⟨c', lane, hl⟩

theorem Touched.touchLine (s : State) (t line : Nat) : Touched s (touchLine s t line) := by
  unfold Machine.touchLine
  split
  next => exact .refl s
  next th _ =>
    split
    next => exact .refl s
    next hline =>
      extract_lets c ls n s₁
      have held : ∀ p ∈ ls, LineHeld s p.1 p.2 := by
        intro p hp
        obtain rfl | hp := List.mem_cons.1 hp
        · exact .inl (Nat.not_le.1 hline)
        · exact .inr ⟨c, th.laneKey, (List.mem_filter.1 hp).1⟩
      have back : Touched s s₁ := .writeBacks fun p hp => held p (List.mem_of_mem_drop hp)
      have cores : s₁.cores = s.cores := by
        refine List.foldlRecOn (motive := fun x : State => x.cores = s.cores) _ _ rfl fun x hx p _ => ?_
        rw [cores_writeBack, hx]
      refine back.trans (.setLane fun p hp => ?_)
      have := held p (List.mem_of_mem_take hp)
      simpa only [LineHeld, core, cores] using this

/-- A touch of a private window's lines writes lines back, and changes nothing else that an access reads. -/
theorem Touched.touchOwn (s : State) (l : Loc) (n : Nat) : Touched s (touchOwn s l n) := by
  unfold Machine.touchOwn
  split
  · exact .foldl (fun _ _ _ => .touchLine _ _ _) s
  · exact .refl s

end

/-! ### Accesses at their homes -/

/-- The states differ in the lines' caches and timestamps alone. -/
def OnLines (s s' : State) : Prop := s' = { s with lines := s'.lines }

section
variable {s s' s'' : State}

theorem OnLines.refl (s : State) : OnLines s s := rfl

theorem OnLines.threads (h : OnLines s s') : s'.threads = s.threads := (congrArg State.threads h).trans rfl
theorem OnLines.teams (h : OnLines s s') : s'.teams = s.teams := (congrArg State.teams h).trans rfl
theorem OnLines.weight (h : OnLines s s') : s'.weight = s.weight := (congrArg State.weight h).trans rfl
theorem OnLines.sched (h : OnLines s s') : s'.sched = s.sched := (congrArg State.sched h).trans rfl

theorem OnLines.modLines {f} (h : OnLines s s') : OnLines s (modLines s' f) :=
  (congrArg (Machine.modLines · f) h).trans rfl

theorem OnLines.ite {c : Prop} [Decidable c] (h : OnLines s s') (h' : OnLines s s'') : OnLines s (if c then s' else s'') :=
  iteInduction (fun _ => h) fun _ => h'

theorem OnLines.sliceVisit {l} (h : OnLines s s') : OnLines s (sliceVisit s' l) := .ite (.modLines h) (.modLines h)

theorem OnLines.storeTime {l p} (h : OnLines s s') : OnLines s (storeTime s' l p).2 := by
  dsimp only [Machine.storeTime]
  exact .modLines h

theorem OnLines.noteSync {a : Access} {pa p : Nat} (hl : a.loc = .glob pa) (h : OnLines s s') : OnLines s (noteSync s' a p) := by
  unfold Machine.noteSync
  rw [hl]
  exact .ite h (.ite (.modLines h) h)

end

/-- A store to LPDDR puts its bytes there and moves the lines; nothing else changes. -/
theorem OnLines.storeAt {a : Access} {pa : Nat} (s : State) (bs : List Byte) (pts x : Nat) (hl : a.loc = .glob pa) :
    OnLines (poke s a.loc bs) (storeAt s a bs pts x).2 := by
  unfold Machine.storeAt
  split
  next p hp =>
    obtain rfl : pa = p := Loc.glob.inj (hl.symm.trans hp)
    extract_lets l s₁ s₂
    have cleared : OnLines (poke s a.loc bs) s₂ := .ite (.modLines (.refl _)) (.refl _)
    have timed : OnLines (poke s a.loc bs) (Machine.storeTime (Machine.sliceVisit s₂ l) l pts).2 :=
      .storeTime (.sliceVisit cleared)
    split
    · exact .noteSync hl cleared
    · exact .ite timed (.modLines timed)
  next other => exact absurd hl (other pa)

/-- A thread whose window takes bytes at an offset. -/
def Thread.writeOwn (off : Nat) (bs : List Byte) (th : Thread) : Thread := { th with own := th.own.writeBytes off bs }

/-- A store to a private window touches its lines and puts its bytes there. -/
theorem storeAt_own {a : Access} {t off : Nat} (s : State) (bs : List Byte) (pts x : Nat) (hl : a.loc = .own t off) :
    storeAt s a bs pts x = (pts, modThread (touchOwn s a.loc bs.length) t (Thread.writeOwn off bs)) := by
  unfold storeAt
  rw [hl]
  dsimp only
  rw [noteSync, hl]
  exact congrArg (Prod.mk pts) (ite_self _)

/-- A load from a private window reads its bytes there and touches its lines. -/
theorem loadAt_own {s : State} {a : Access} {t off : Nat} {th : Thread} (hl : a.loc = .own t off) (ht : thread? s t = some th)
    (hd : s.errors.deferred = []) (c pts reader : Nat) (peer : Option Nat) :
    loadAt s c a pts reader peer = (th.own.readBytes off a.len, Nat.max pts (syncTime s a), touchOwn s a.loc a.len) := by
  have unmet : noteRead s a reader = s := by
    unfold noteRead
    rw [hl, met, if_pos (List.isEmpty_iff.2 hd)]
  unfold loadAt
  rw [unmet, hl]
  simp only [peek, ht, Option.map_some, Option.getD_some]

/-! ### Outstanding operations -/

theorem flight_eq_some {s : State} {t seq : Nat} {th : Thread} {f : Flight} :
    flight? s t seq = some (th, f) ↔ thread? s t = some th ∧ th.flights.find? (fun g => g.seq == seq) = some f := by
  simp only [flight?, Option.bind_eq_some_iff, Option.map_eq_some_iff, Prod.mk.injEq]
  constructor
  · rintro ⟨_, ht, _, hf, rfl, rfl⟩
    exact ⟨ht, hf⟩
  · exact fun ⟨ht, hf⟩ => ⟨th, ht, f, hf, rfl, rfl⟩

theorem seq_of_flight {s : State} {t seq : Nat} {th : Thread} {f : Flight} (h : flight? s t seq = some (th, f)) : f.seq = seq :=
  beq_iff_eq.1 (List.find?_some (p := fun g : Flight => g.seq == seq) (flight_eq_some.1 h).2)

theorem find_modFlight {th : Thread} {f : Flight} {g : Flight → Flight} (hg : ∀ x, (g x).seq = x.seq)
    (h : th.flights.find? (fun x => x.seq == f.seq) = some f) :
    (th.modFlight f.seq g).flights.find? (fun x => x.seq == f.seq) = some (g f) := by
  have same : (fun x : Flight => x.seq == f.seq) ∘ (fun x => if x.seq == f.seq then g x else x) = fun x => x.seq == f.seq := by
    funext x
    exact congrArg (· == f.seq) ((apply_ite Flight.seq _ _ _).trans (by rw [hg, ite_self]))
  rw [Thread.modFlight, List.find?_map, same, h]
  simp

/-- An operation that is not performed is performed whole where the order and the banks let it. -/
theorem performNow_open {s : State} {t seq : Nat} {th : Thread} {f : Flight} {peer : Option Nat}
    (h : flight? s t seq = some (th, f))
    (hg : f.got = none) (hm : mayPerform th f = true) (hr : inRefresh s f = false) :
    performNow s t seq peer = performFlight s t f peer := by
  simp [performNow, h, hg, hm, hr]

theorem performNow_done {s : State} {t seq : Nat} {th : Thread} {f : Flight} {peer : Option Nat}
    (h : flight? s t seq = some (th, f))
    (hg : f.got.isSome = true) : performNow s t seq peer = s := by
  simp [performNow, h, hg]

theorem tryPerform_whole {s : State} {t seq : Nat} {th : Thread} {f : Flight} {peer : Option Nat}
    (h : flight? s t seq = some (th, f)) :
    tryPerform s t seq .whole peer = performNow s t seq peer := by
  simp [tryPerform, h]

/-- No bank of the weight store is read by an access of a private window. -/
theorem inRefresh_own {s : State} {f : Flight} {a : Access} {t off : Nat} (hp : f.parts = []) (ha : f.op.accesses = [a])
    (hl : a.loc = .own t off) : inRefresh s f = false := by
  simp [inRefresh, Flight.accesses, hp, ha, accessRefreshing, hl]

theorem Thread.counter_lower (th : Thread) (i c : Nat) :
    (th.lower i).counter c = if c = i ∧ i < 6 then th.counter c - 1 else th.counter c := by
  by_cases hi : i < 6
  · by_cases hc : c = i
    · subst hc
      simp [Thread.lower, Thread.counter, kgetD, hi]
    · simp [Thread.lower, Thread.counter, kgetD, hi, hc, kget_kset_ne]
  · simp [Thread.lower, hi]

/-- An operation that leaves the list changes the list and the counters alone. -/
theorem Thread.retire_eq (th : Thread) (f : Flight) :
    th.retire f = { th with ec := (th.lower f.ec).ec, flights := th.flights.filter (fun g => g.seq != f.seq) } := by
  unfold Thread.retire Thread.lower
  split <;> rfl

/-- An operation that is over leaves the list, and what it did may wait to be acquired. -/
theorem Thread.over_eq (th : Thread) (f : Flight) : ∃ acq, th.over_ f = { th.retire f with acq := acq } := by
  unfold Thread.over_
  split
  · exact ⟨_, rfl⟩
  · exact ⟨_, rfl⟩

/-! ### Performed stores -/

/-- What a performed store leaves of its thread. -/
def Thread.stored (th : Thread) (f : Flight) (a : Access) (bs : List Byte) (pts : Nat) : Thread :=
  ((th.takePts pts).retire f).noteDone f true a bs

theorem Thread.stored_eq (th : Thread) (f : Flight) (a : Access) (bs : List Byte) (pts : Nat) :
    ∃ pts' recent, th.stored f a bs pts = { th with
      pts := pts', recent := recent, ec := (th.lower f.ec).ec, flights := th.flights.filter (fun g => g.seq != f.seq) } := by
  unfold Thread.stored Thread.retire Thread.lower
  split
  · exact ⟨_, _, rfl⟩
  · exact ⟨_, _, rfl⟩

theorem execStorePerformed_whole {s : State} {t seq : Nat} {th : Thread} {f : Flight} {a : Access} {bs : List Byte}
    (h : flight? s t seq = some (th, f)) (hop : f.op = .store a bs) (hp : f.parts = []) (hg : f.got = none)
    (hm : mayPerform th f = true) (hr : inRefresh s f = false) : exec (.storePerformed t seq .whole) s =
      .next (modThread (storeAt s a bs th.pts th.sealId).2 t
        (fun h => h.stored f a bs (storeAt s a bs th.pts th.sealId).1)) := by
  have performed : performFlight s t f none = modThread (storeAt s a bs th.pts th.sealId).2 t
      (fun h => h.stored f a bs (storeAt s a bs th.pts th.sealId).1) := by
    simp only [performFlight, (flight_eq_some.1 h).1, hop, hp]
    rfl
  rw [← performed, ← performNow_open h hg hm hr, ← tryPerform_whole h]
  show Host.Outcome.next _ = _
  simp only [h, hop]

/-- A thread whose store is performed keeps its registers and its window, and the store leaves its list and its counter. -/
theorem stored_frame (th : Thread) (f : Flight) (a : Access) (bs : List Byte) (pts : Nat) :
    (f.ec < 6 → (th.stored f a bs pts).counter f.ec = th.counter f.ec - 1) ∧ (th.stored f a bs pts).regs = th.regs
      ∧ (th.stored f a bs pts).own = th.own ∧ ∀ g ∈ (th.stored f a bs pts).flights, g.seq ≠ f.seq := by
  obtain ⟨pts', recent, h⟩ := th.stored_eq f a bs pts
  rw [h]
  refine ⟨fun hec => ?_, rfl, rfl, fun g hg => by simpa using (List.mem_filter.1 hg).2⟩
  exact (th.counter_lower f.ec f.ec).trans (if_pos ⟨rfl, hec⟩)

/-- Settles O31: a store's bytes are put at their place at once, and the thread's list and counter are told. -/
theorem performedStores : Obligations.PerformedStores := by
  refine ⟨?lpddr, ?window⟩
  case lpddr =>
    intro s t seq th f acc bs pa hf hop hl hlen hp hg hm hr hwf
    obtain ⟨bytes, others⟩ := storeAt_reads hwf acc bs th.pts th.sealId pa hl
    have same := OnLines.storeAt s bs th.pts th.sealId hl
    rw [hl] at same
    refine ⟨_, execStorePerformed_whole hf hop hp hg hm hr, Memory.read_of_readBytes bytes, others,
      same.weight, same.sched, same.teams, ?_⟩
    intro h hh
    have stays : thread? (storeAt s acc bs th.pts th.sealId).2 t = some th :=
      (congrArg (kget? · t) same.threads).trans (flight_eq_some.1 hf).1
    rw [thread_modThread, if_pos rfl, stays] at hh
    obtain rfl := Option.some.inj hh
    exact stored_frame th f acc bs _
  case window =>
    intro s t seq th f acc bs off hf hop hl hlen hp hg hm hwf
    have hr : inRefresh s f = false := inRefresh_own hp (by rw [hop]; rfl) hl
    have touched : Touched s (touchOwn s acc.loc bs.length) := .touchOwn s acc.loc bs.length
    have bytes := Memory.readBytes_writeBytes bs off hwf
    have run := execStorePerformed_whole hf hop hp hg hm hr
    rw [storeAt_own s bs th.pts th.sealId hl] at run
    obtain ⟨-, regs, own, -⟩ := stored_frame (th.writeOwn off bs) f acc bs th.pts
    refine ⟨_, (th.writeOwn off bs).stored f acc bs th.pts, run, ?thread, ?_⟩
    case thread => simp only [thread_modThread, if_true, touched.thread, (flight_eq_some.1 hf).1, Option.map_some]
    rw [own]
    refine ⟨Memory.read_of_readBytes bytes, fun a => Memory.read_writeBytes_out bs _ _ a, regs, touched.mem, touched.weight,
      touched.teams, fun u hu => ?_⟩
    rw [thread_modThread, if_neg hu, thread_modThread, if_neg hu, touched.thread]

end Sys2Proof.Machine
end

section
/-!
Loads and stores at issue, and the results that loads write (R32, R208, R210, R211).
-/
namespace Sys2Proof.Machine
set_option Elab.async false

/-! ### At issue -/

theorem sendAccess_here {k : Ctx} {a : Access} {ec : Nat} {dests : List Nat} {op : FlightOp} {signed : Bool} {data : List Byte}
    {atom : Option AtomOp} (hm : memHeld k.th = false) (here : ∀ p o, a.loc ≠ .remote p o) :
    sendAccess k a ec dests op signed data atom =
      .ok { st := noteRegion k.s k.th a, launch := some { ec := ec, dests := dests, op := op } } := by
  rw [sendAccess, hm, if_neg Bool.false_ne_true]
  split
  next p o hl => exact absurd hl (here p o)
  next => rfl

section
variable {i : Instr} {srcs : List Src} {wins : List Nat} {t a : BitVec 6} {z : BitVec 3} {strong : Bool} {acc : Access}

/-- A load of this package that passes its checks is issued on ec0. -/
theorem runs_load {sx : Bool} (hx : ∀ s, exec i s = issue i srcs (loadBody wins t a z strong sx) s)
    (here : ∀ p o, acc.loc ≠ .remote p o) : Runs i srcs
      (fun k => memHeld k.th = false
        ∧ checkAccess k.s k.t k.th k.iw (k.addrM a) (2 ^ z.toNat) (2 ^ z.toNat) .load strong wins true = .ok acc)
      (fun k => { st := noteRegion k.s k.th acc
                  launch := some { ec := 0, dests := range t.toNat (sizeRegs z), op := .load acc sx } }) := by
  refine runs_of hx fun k ⟨hm, hc⟩ => ?_
  simp only [loadBody, hc]
  exact sendAccess_here hm here

/-- A store of this package that passes its checks is issued on ec1. -/
theorem runs_store (hx : ∀ s, exec i s = issue i srcs (storeBody wins t a z strong) s)
    (here : ∀ p o, acc.loc ≠ .remote p o) : Runs i srcs
      (fun k => memHeld k.th = false
        ∧ checkAccess k.s k.t k.th k.iw (k.addrM a) (2 ^ z.toNat) (2 ^ z.toNat) .store strong wins true = .ok acc)
      (fun k => { st := noteRegion k.s k.th acc
                  launch := some { ec := 1, dests := [], op := .store acc (k.th.storeBytes t z) } }) := by
  refine runs_of hx fun k ⟨hm, hc⟩ => ?_
  simp only [storeBody, hc]
  exact sendAccess_here hm here

end

/-! ### The words of a load's bytes -/

theorem leNat_byte (b : Byte) : leNat [b] = b.toNat := rfl

/-- The number of bytes whose first is the low one. -/
theorem leNat_cons {n : Nat} {b : Byte} {bs : List Byte} {w : BitVec n} (h : leNat bs = w.toNat) :
    leNat (b :: bs) = (w ++ b).toNat := by
  rw [BitVec.toNat_append, ← Nat.shiftLeft_add_eq_or_of_lt b.isLt, Nat.shiftLeft_eq, leNat, h]
  omega

theorem leNat_pair (b c : Byte) : leNat [b, c] = (c ++ b).toNat := leNat_cons (leNat_byte c)

theorem leNat_quad (b c d e : Byte) : leNat [b, c, d, e] = (e ++ d ++ c ++ b).toNat :=
  leNat_cons (leNat_cons (leNat_pair d e))

theorem word_sx {n : Nat} (b : BitVec n) : word (sx b.toNat n) = b.signExtend 32 := by
  rw [sx_toNat, word_eq_ofInt]
  rfl

theorem wordN_eq_setWidth {n : Nat} (b : BitVec n) : wordN b.toNat = b.setWidth 32 :=
  BitVec.eq_of_toNat_eq (by simp [wordN])

/-- A load of fewer than four bytes gives one register, extended from the value `b` of its bytes. -/
theorem loadWords_narrow {len : Nat} {bs : List Byte} {b : BitVec (8 * len)} (hl : len < 4) (h : leNat bs = b.toNat) :
    loadWords len true bs = [b.signExtend 32] ∧ loadWords len false bs = [b.setWidth 32] := by
  simp only [loadWords, if_pos hl, h, word_sx, wordN_eq_setWidth, if_true, Bool.false_eq_true, if_false, and_self]

theorem loadWords_word (b c d e : Byte) (sg : Bool) : loadWords 4 sg [b, c, d, e] = [e ++ d ++ c ++ b] := by
  show [wordN (leNat [b, c, d, e] % 2 ^ 32)] = _
  rw [wordN_mod, leNat_quad, wordN_toNat]

/-! ### Results written -/

/-- What a thread holds once an operation's result is written: its registers, and those pending for another operation alone. -/
def Thread.delivered (th : Thread) (f : Flight) (vals : List Word) : Thread :=
  let h := (th.setRegs (f.dests.zip vals)).over_ f
  { h with pend := h.pend.filter (fun r => !f.dests.contains r || h.flights.any (fun g => g.dests.contains r)) }

theorem Thread.delivered_eq (th : Thread) (f : Flight) (vals : List Word) :
    ∃ acq pend, th.delivered f vals = { th with
        acq := acq, pend := pend, regs := (th.setRegs (f.dests.zip vals)).regs, ec := (th.lower f.ec).ec,
        flights := th.flights.filter (fun g => g.seq != f.seq) } := by
  obtain ⟨acq, h⟩ := (th.setRegs (f.dests.zip vals)).over_eq f
  have ec : ((th.setRegs (f.dests.zip vals)).lower f.ec).ec = (th.lower f.ec).ec := by
    rw [setRegs_eq]
    unfold Thread.lower
    split <;> rfl
  refine ⟨acq, (th.delivered f vals).pend, (congrArg (fun x : Thread => { x with pend := (th.delivered f vals).pend }) h).trans ?_⟩
  rw [Thread.retire_eq, ec]
  exact congrArg (fun x : Thread => { x with
    acq := acq, pend := (th.delivered f vals).pend, ec := (th.lower f.ec).ec
    flights := x.flights.filter (fun g => g.seq != f.seq) }) (th.setRegs_eq (f.dests.zip vals))

theorem Thread.delivered_pend (th : Thread) (f : Flight) (vals : List Word) {r : Nat} (hr : r ∈ f.dests)
    (h : ∀ g ∈ (th.delivered f vals).flights, r ∉ g.dests) : (th.delivered f vals).pend.contains r = false := by
  show (List.filter (fun r => !f.dests.contains r || (th.delivered f vals).flights.any (fun g => g.dests.contains r)) _).contains r
    = false
  simpa [hr] using fun _ g hg => h g hg

/-- Each of several distinct registers reads its own value once they are written. -/
theorem Thread.map_reg_setRegs_zip (th : Thread) {ds : List Nat} {vs : List Word} (hn : ds.Nodup) (hl : ds.length = vs.length) :
    ds.map (th.setRegs (ds.zip vs)).reg = vs := by
  induction ds generalizing th vs with
  | nil => exact (List.length_eq_zero_iff.1 hl.symm).symm
  | cons d ds ih =>
    obtain _ | ⟨v, vs⟩ := vs
    · nomatch hl
    rw [List.nodup_cons] at hn
    have hl : ds.length = vs.length := Nat.succ.inj hl
    have unwritten : d ∉ (ds.zip vs).map (·.1) := fun h => hn.1 ((List.map_fst_zip (Nat.le_of_eq hl)) ▸ h)
    have first : ((th.setReg d v).setRegs (ds.zip vs)).reg d = v :=
      congrArg (Option.getD · 0) ((Thread.kget_setRegs_of_not_mem (th.setReg d v) unwritten).trans (kget_kset_same _ _ _))
    exact congrArg₂ List.cons first (ih (th.setReg d v) hn.2 hl)

theorem Thread.delivered_regs (th : Thread) (f : Flight) (vals : List Word) :
    (th.delivered f vals).regs = (th.setRegs (f.dests.zip vals)).regs := by
  obtain ⟨acq, pend, h⟩ := th.delivered_eq f vals
  exact (congrArg Thread.regs h).trans rfl

theorem Thread.delivered_own (th : Thread) (f : Flight) (vals : List Word) : (th.delivered f vals).own = th.own := by
  obtain ⟨acq, pend, h⟩ := th.delivered_eq f vals
  exact (congrArg Thread.own h).trans rfl

/-- A result's registers read its values. -/
theorem Thread.map_reg_delivered (th : Thread) {f : Flight} {vals : List Word} (hn : f.dests.Nodup)
    (hl : f.dests.length = vals.length) : f.dests.map (th.delivered f vals).reg = vals := by
  have same : (th.delivered f vals).reg = (th.setRegs (f.dests.zip vals)).reg :=
    funext fun r => congrArg (kgetD · r 0) (th.delivered_regs f vals)
  rw [same, th.map_reg_setRegs_zip hn hl]

theorem Thread.reg_delivered_of_not_mem (th : Thread) {f : Flight} {vals : List Word} {r : Nat} (hr : r ∉ f.dests) :
    (th.delivered f vals).reg r = th.reg r := by
  have unwritten : r ∉ (f.dests.zip vals).map (·.1) := fun h => hr (by
    obtain ⟨p, hp, rfl⟩ := List.mem_map.1 h
    exact (List.of_mem_zip hp).1)
  have kept := congrArg (Option.getD · (0 : Word)) (Thread.kget_setRegs_of_not_mem th unwritten)
  exact (congrArg (kgetD · r 0) (th.delivered_regs f vals)).trans kept

theorem Thread.counter_delivered (th : Thread) {f : Flight} (vals : List Word) (h : f.ec < 6) :
    (th.delivered f vals).counter f.ec = th.counter f.ec - 1 := by
  obtain ⟨acq, pend, hd⟩ := th.delivered_eq f vals
  rw [hd]
  exact (th.counter_lower f.ec f.ec).trans (if_pos ⟨rfl, h⟩)

theorem deliverFlight_resident {s : State} {t : Nat} {th : Thread} (f : Flight) (vals : List Word) (ht : thread? s t = some th)
    (he : th.evicted = false) : deliverFlight s t f vals = setThread s t (th.delivered f vals) := by
  have evicted : (th.delivered f vals).evicted = false := by
    obtain ⟨acq, pend, h⟩ := th.delivered_eq f vals
    rw [h]
    exact he
  have written : modThread s t (fun th => th.delivered f vals) = setThread s t (th.delivered f vals) := modThread_eq _ ht
  rw [← written]
  show replyToRecord (modThread s t (fun th => th.delivered f vals)) t f.dests = _
  rw [written, replyToRecord, thread_setThread]
  simp only [evicted, Bool.not_false, if_true]

/-- A performed load's or atomic's result is written as one. -/
theorem execResultWritten_got {s s' : State} {t seq : Nat} {th : Thread} {f : Flight} {vs : List Word}
    (hp : tryPerform s t seq .whole none = s') (h : flight? s' t seq = some (th, f)) (hg : f.got = some vs) (hd : f.dests ≠ [])
    (he : th.evicted = false) : exec (.resultWritten t seq none .whole) s = .next (setThread s' t (th.delivered f vs)) := by
  rw [← deliverFlight_resident f vs (flight_eq_some.1 h).1 he]
  show Host.Outcome.next _ = _
  simp only [hp, h, hg, List.isEmpty_iff, hd, if_false]

/-! ### Loads from a private window -/

/-- What a performed load of `bs` leaves of its thread: its result waits to be written. -/
def Thread.loaded (th : Thread) (f : Flight) (a : Access) (sg : Bool) (bs : List Byte) (pts : Nat) (reply : List (Nat × Nat)) :
    Thread :=
  ((th.takePts pts).modFlight f.seq (fun f => { f with got := some (loadWords a.len sg bs), reply := reply })).noteDone f false a bs

theorem performFlight_load_own {s : State} {t off : Nat} {th : Thread} {f : Flight} {a : Access} {sg : Bool} (peer : Option Nat)
    (ht : thread? s t = some th) (hop : f.op = .load a sg) (hp : f.parts = []) (hl : a.loc = .own t off)
    (hd : s.errors.deferred = []) : ∃ pts reply, performFlight s t f peer =
      modThread (touchOwn s a.loc a.len) t (fun h => h.loaded f a sg (th.own.readBytes off a.len) pts reply) := by
  refine ⟨Nat.max th.pts (syncTime s a), replyPackets s th f.op, ?_⟩
  simp only [performFlight, ht, hop, hp, List.isEmpty_nil, if_true, loadAt_own hl ht hd]
  rfl

/-- The operation a performed load leaves outstanding: its values are known. -/
theorem flight_loaded {s : State} {t seq : Nat} {th : Thread} {f : Flight} {a : Access} {sg : Bool} {bs : List Byte} {pts : Nat}
    {reply : List (Nat × Nat)} (h : flight? s t seq = some (th, f)) :
    flight? (modThread s t (fun h => h.loaded f a sg bs pts reply)) t seq =
      some (th.loaded f a sg bs pts reply, { f with got := some (loadWords a.len sg bs), reply := reply }) := by
  obtain ⟨ht, hf⟩ := flight_eq_some.1 h
  have found := find_modFlight (th := th.takePts pts) (g := fun f => { f with got := some (loadWords a.len sg bs), reply := reply })
    (fun _ => rfl) ((seq_of_flight h).symm ▸ hf)
  refine flight_eq_some.2 ⟨?_, (seq_of_flight h) ▸ found⟩
  rw [thread_modThread, if_pos rfl, ht]
  rfl

/-- Settles O29: a word of this package issues its access, and the value of a performed load is written over its registers. -/
theorem loadsAndStores : Obligations.LoadsAndStores := by
  refine ⟨⟨?ldg, ?lds, ?ldp, ?ldc, ?ldw, ?stg, ?sts, ?stp, ?stc⟩, ?narrow, ?half, fun b c d e sg => loadWords_word b c d e sg,
    ?written, ?window⟩
  case ldg | lds | ldp | ldc => exact fun _ _ _ _ _ _ _ _ here => runs_load (fun _ => rfl) here
  case ldw => exact fun _ _ _ _ _ _ _ here => runs_load (fun _ => rfl) here
  case stg | sts | stp | stc => exact fun _ _ _ _ _ _ _ here => runs_store (fun _ => rfl) here
  case narrow => exact fun b => loadWords_narrow (by decide) (leNat_byte b)
  case half => exact fun b c => loadWords_narrow (by decide) (leNat_pair b c)
  case written =>
    intro s t seq th f vs hf hg hd hlen he hn
    have hp : tryPerform s t seq .whole none = s := (tryPerform_whole hf).trans (performNow_done hf (by rw [hg]; rfl))
    have reads := th.map_reg_delivered hn hlen
    refine ⟨_, _, execResultWritten_got hp hf hg hd he, thread_setThread _ _ _, fun j hj hv => ?_,
      fun r hr => th.reg_delivered_of_not_mem hr, fun r hr h => th.delivered_pend f vs hr h,
      fun h => th.counter_delivered vs h, rfl, rfl, rfl⟩
    exact (List.getElem_map (th.delivered f vs).reg).symm.trans (List.getElem_of_eq reads ((List.length_map _).symm ▸ hj))
  case window =>
    intro s t seq th f a sg off hf hop hp hl hg hm hd hn he hdef hlen
    have touched : Touched s (touchOwn s a.loc a.len) := .touchOwn s a.loc a.len
    have hf' : flight? (touchOwn s a.loc a.len) t seq = some (th, f) := by
      rw [flight?, touched.thread]
      exact hf
    obtain ⟨pts, reply, performed⟩ := performFlight_load_own none (flight_eq_some.1 hf).1 hop hp hl hdef
    have whole := (tryPerform_whole hf).trans
      ((performNow_open (peer := none) hf hg hm (inRefresh_own hp (by rw [hop]; rfl) hl)).trans performed)
    exact ⟨_, _, execResultWritten_got whole (flight_loaded hf') rfl hd he, thread_setThread _ _ _,
      Thread.map_reg_delivered _ hn hlen, Thread.delivered_own _ _ _, touched.mem, touched.weight, touched.teams⟩

end Sys2Proof.Machine
end

section
/-!
The time discipline, the refresh windows and Damlan's channels (R18, R191, R369, R370, R442 to R447, R471 to R475).
-/
namespace Sys2Proof.Machine
set_option Elab.async false

/-! ### The time discipline and the refresh windows -/

/-- An offset keeps its measure against 20 ns where it is clamped (R369). -/
theorem natAbs_clamp_le (o : Int) : (max (-32767) (min 32767 o)).natAbs ≤ 20 ↔ o.natAbs ≤ 20 := by omega

theorem execPpsEdge_disciplined {s : State} (o : Int) (h : s.dev.tlock.state = 1 ∨ s.dev.tlock.state = 2) :
    exec (.ppsEdge o) s = .next (modTlock s (fun t =>
      let n := if o.natAbs ≤ 20 then t.good + 1 else 0
      { t with pps := true, lastPps := s.dev.mono, offs := max (-32767) (min 32767 o), good := n
               state := if 16 ≤ n then 2 else 1 })) := by
  have timed : ¬ (s.dev.tlock.state == 0 || s.dev.tlock.state == 3) = true := by
    simp only [Bool.or_eq_true, beq_iff_eq]
    omega
  simp only [← natAbs_clamp_le o]
  exact congrArg (fun t => Host.Outcome.next (modTlock s (fun _ => t))) (if_neg timed)

theorem inWindow_iff (now b : Nat) : inWindow now b = true ↔ 1000 * b ≤ refreshPhase now ∧ refreshPhase now < 1000 * b + 512 := by
  simp only [inWindow, Bool.and_eq_true, decide_eq_true_eq]

theorem mem_insertNew (l : List Nat) (x : Nat) : x ∈ insertNew l x := by
  rw [← List.contains_iff_mem, contains_insertNew]
  simp

/-! ### Channels -/

theorem channel_modChannel (s : State) (c : Nat) (f : Channel → Channel) (u : Nat) :
    channel (modChannel s c f) u = if u = c then f (channel s c) else channel s u := kgetD_kset _ _ _ _ _

theorem channel_modChannel_same (s : State) (c : Nat) (f : Channel → Channel) : channel (modChannel s c f) c = f (channel s c) := by
  rw [channel_modChannel, if_pos rfl]

theorem channel_modChannel_ne (s : State) {c u : Nat} (f : Channel → Channel) (h : u ≠ c) :
    channel (modChannel s c f) u = channel s u := by
  rw [channel_modChannel, if_neg h]

section
variable {x : Channel} {now : Nat}

theorem Channel.wake_parked (h : x.state = 1) : x.wake now = { x with state := 2, since := now, tuned := false } := by
  simp only [Channel.wake, h]

theorem Channel.wake_parking (h : x.state = 3) : x.wake now = { x with state := 0 } := by
  simp only [Channel.wake, h]

theorem Channel.state_wake (x : Channel) (now : Nat) :
    (x.wake now).state = if x.state = 1 then 2 else if x.state = 3 then 0 else x.state := by
  unfold Channel.wake
  split <;> simp_all

/-- A channel that is awake or waking stays as it is. -/
theorem Channel.wake_up (h : x.state = 0 ∨ x.state = 2) : x.wake now = x := by
  obtain h | h := h <;> simp only [Channel.wake, h]

theorem Channel.boundary_parking (h : x.state = 3) : x.boundary = { x with state := 1 } := by
  simp only [Channel.boundary, h]

theorem Channel.boundary_waking (h : x.state = 2) : x.boundary = if x.tuned then { x with state := 0 } else x := by
  simp only [Channel.boundary, h]

theorem Channel.boundary_settled (h : x.state < 2) : x.boundary = x := by
  obtain h | h : x.state = 0 ∨ x.state = 1 := by omega
  · simp only [Channel.boundary, h]
  · simp only [Channel.boundary, h]

end

/-! ### Ductus's wakes -/

/-- A channel that Ductus wakes for a chain of an output (R382, R447). -/
def Channel.wakeFor (o n f j now : Nat) (x : Channel) : Channel :=
  { x.wake now with wakes := (o, n, f, j) :: x.wakes.filter (fun w => w.1 != o || (w.2.1 == n && decide (f ≤ w.2.2.1 + 1))) }

/-- The channels `cs` are woken for a chain of an output. -/
def wakeChannels (o n f j : Nat) (cs : List Nat) (s : State) : State :=
  cs.foldl (fun s c => modChannel s c (fun x => x.wakeFor o n f j s.dev.mono)) s

/-- A channel that is woken twice is as one woken once. -/
theorem Channel.state_wake_wakeFor (x : Channel) (o n f j now : Nat) :
    ((x.wakeFor o n f j now).wake now).state = (x.wake now).state := by
  have woken : (x.wakeFor o n f j now).state = (x.wake now).state := rfl
  rw [Channel.state_wake, woken, Channel.state_wake]
  split_ifs <;> omega

section
variable (o n f j : Nat)

theorem outputs_wakeChannels (cs : List Nat) (s : State) : (wakeChannels o n f j cs s).outputs = s.outputs :=
  List.foldlRecOn (motive := fun x : State => x.outputs = s.outputs) cs _ rfl fun _ h _ _ => h

theorem channel_wakeChannels_of_not_mem {cs : List Nat} {u : Nat} (h : u ∉ cs) (s : State) :
    channel (wakeChannels o n f j cs s) u = channel s u :=
  foldl_view_of_not_mem (V := channel) (key := id) (fun s c u hu => channel_modChannel_ne s _ hu) (by rwa [List.map_id]) s

theorem channel_wakeChannels_of_mem {cs : List Nat} {u : Nat} (h : u ∈ cs) (s : State) :
    (channel (wakeChannels o n f j cs s) u).state = ((channel s u).wake s.dev.mono).state
      ∧ (o, n, f, j) ∈ (channel (wakeChannels o n f j cs s) u).wakes := by
  induction cs generalizing s with
  | nil => nomatch h
  | cons c cs ih =>
    let s' := modChannel s c (fun x => x.wakeFor o n f j s.dev.mono)
    show (channel (wakeChannels o n f j cs s') u).state = _ ∧ _ ∈ (channel (wakeChannels o n f j cs s') u).wakes
    by_cases hu : u ∈ cs
    · obtain ⟨state, listed⟩ := ih hu s'
      refine ⟨state.trans ?_, listed⟩
      show ((channel s' u).wake s.dev.mono).state = _
      rw [channel_modChannel]
      split
      next hc => rw [Channel.state_wake_wakeFor, hc]
      next => rfl
    · obtain rfl : u = c := (List.mem_cons.1 h).resolve_right hu
      rw [channel_wakeChannels_of_not_mem o n f j hu, channel_modChannel_same]
      exact ⟨rfl, List.mem_cons_self⟩

end

/-- Ductus is due to wake the channels of an armed output's next chain (R382). -/
structure WakeDue (s : State) (o : Nat) (v : Video) (t : Template) : Prop where
  video : (output s o).video = some v
  tpl : (output s o).tpl = some t
  armed : (output s o).armed = true
  unwoken : (output s o).woken ≠ some (output s o).nextChain
  near : chainStart v (output s o).nextChain.1 (output s o).nextChain.2 ≤ s.tnow + 3222

theorem execDuctusWake_due {s : State} {o : Nat} {v : Video} {t : Template} (h : WakeDue s o v t) : exec (.ductusWake o) s =
    .next (wakeChannels o (output s o).arming (output s o).nextChain.1 (output s o).nextChain.2 (t.claims.map (fun c => 16 + c.1 / 16))
      (modOutput s o (fun x => { x with woken := some (output s o).nextChain }))) := by
  have due : ¬ (!(output s o).armed || (output s o).woken == some (output s o).nextChain
      || decide ((s.tnow : Int) + wakeLead < chainStart v (output s o).nextChain.1 (output s o).nextChain.2)) = true := by
    have near : ¬ (s.tnow : Int) + wakeLead < chainStart v (output s o).nextChain.1 (output s o).nextChain.2 := Int.not_lt.2 h.near
    simp [h.armed, h.unwoken, near]
  show Host.Outcome.next (match (output s o).video, (output s o).tpl with | some v, some t => _ | _, _ => _) = _
  rw [h.video, h.tpl]
  exact congrArg Host.Outcome.next (if_neg due)

theorem execDuctusWake_undue {s : State} {o : Nat}
    (h : (output s o).armed = false ∨ ∃ v, (output s o).video = some v
      ∧ (s.tnow : Int) + 3222 < chainStart v (output s o).nextChain.1 (output s o).nextChain.2) : exec (.ductusWake o) s = .next s := by
  show Host.Outcome.next (match (output s o).video, (output s o).tpl with | some v, some t => _ | _, _ => _) = _
  split
  next v t hv ht =>
    refine congrArg Host.Outcome.next (if_pos ?_)
    obtain h | ⟨v', hv', h⟩ := h
    · simp [h]
    · obtain rfl := Option.some.inj (hv.symm.trans hv')
      simp [wakeLead, h]
  next => rfl

/-! ### Tokens and queues of packets -/

theorem sendUpTo_eq (c sender n : Nat) (ps : List Packet) (s : State) :
    sendUpTo c sender n ps s = { s with threads := (sendUpTo c sender n ps s).threads } := by
  induction ps generalizing n s with
  | nil => rfl
  | cons p ps ih =>
    unfold sendUpTo
    split
    · exact (ih _ (sendPacket s c sender p)).trans rfl
    · rfl

theorem tokenVisit_eq (s : State) (c n : Nat) : tokenVisit s c n = { s with threads := (tokenVisit s c n).threads } :=
  sendUpTo_eq _ _ _ _ _

/-! ### XBPARK, XBWAKE, XBSTAT and LKSTAT -/

theorem xbstatWord_fields (x : Channel) (n : Nat) : xbstatWord x n / 2 ^ 6 % 4 = x.state % 4
    ∧ xbstatWord x n / 2 ^ 22 = x.thr % 2 ^ 10 ∧ xbstatWord x n / 2 ^ 12 % 2 ^ 10 = min 1023 n := by
  have low : (if x.state == 0 || x.state == 3 then 8 else 2) < 2 ^ 6 := by split <;> decide
  have depth : Nat.min 1023 n = min 1023 n := rfl
  have most : min 1023 n ≤ 1023 := Nat.min_le_left _ _
  simp only [xbstatWord, depth]
  omega

theorem inState_retLater (k : Ctx) (s : State) (ec : Nat) (d : BitVec 6) (vs : List Word) :
    inState s (retLater k ec d vs) = .ok { st := s, launch := answerOn ec d vs } := rfl

theorem channelArg_of_lt {w : Word} (h : w.toNat < 36) : channelArg w = some w.toNat := if_pos h

theorem channelArg_of_le {w : Word} (h : 36 ≤ w.toNat) : channelArg w = none := if_neg (Nat.not_lt.2 h)

theorem parkChannel_held {s : State} {c : Nat} (thr : Nat)
    (h : chainClaims s c = true ∨ (channel s c).wakes.any (wakePending s) = true) : parkChannel s c thr = (3, channel s c) :=
  if_pos (by rw [Bool.or_eq_true]; exact h.symm)

theorem parkChannel_free {s : State} {c : Nat} (thr : Nat) (hc : chainClaims s c = false)
    (hw : (channel s c).wakes.any (wakePending s) = false) : parkChannel s c thr =
      if (channel s c).state = 0 then (0, { channel s c with state := 3, thr := thr })
      else if (channel s c).state = 2 then (2, channel s c) else (1, { channel s c with thr := thr }) := by
  simp only [parkChannel, hc, hw, Bool.or_self, Bool.false_eq_true, if_false]
  split <;> simp_all

/-- Selector 0 reads the fibre's wavelengths, the low ones first. -/
theorem lkstatWords_waves (s : State) (f : Nat) :
    lkstatWords s f 0 = [(fibreUp s f).setWidth 32, (fibreUp s f >>> 32).setWidth 32] := by
  have low : loW (fibreUp s f).toNat = (fibreUp s f).setWidth 32 := BitVec.eq_of_toNat_eq (by simp [loW, wordN])
  have high : hiW (fibreUp s f).toNat = (fibreUp s f >>> 32).setWidth 32 :=
    BitVec.eq_of_toNat_eq (by simp [hiW, wordN, Nat.shiftRight_eq_div_pow])
  rw [← low, ← high]
  rfl

/-- Selector 1 reads the pair's partner, the fibre's wavelengths by number, and the check failures with those just counted. -/
theorem lkstatWords_checks (s : State) (f n : Nat) : lkstatWords (countChecks (draw s 1).2 f n) f 1 =
    [wordN (Config.partner (f % 64) % 2 ^ 12 + b2n (pairUp s (f % 64)) * 2 ^ 12 + popcount64 (fibreUp s f) * 2 ^ 16),
      wordN (min (kgetD s.domain.checks f 0 + n) (2 ^ 32 - 1))] := by
  have counted : kgetD (countChecks (draw s 1).2 f n).domain.checks f 0 = kgetD s.domain.checks f 0 + n :=
    (kgetD_kset _ _ _ _ _).trans (if_pos rfl)
  rw [← counted]
  rfl

/-- LKSTAT at issue (R475). -/
def lkstatBody (d a : BitVec 6) (k : Ctx) : Except Stop Eff :=
  let v := (k.g a).toNat
  let f := fld v 0 7; let sel := fld v 8 2
  if v &&& 0xFFFFFC80 != 0 || (sel == 3 && f != 0) then .error (k.illegal 3)
  else
    let s := if sel == 1 then (let (n, s) := draw k.s 1; countChecks s f (Config.freeNat n)) else k.s
    inState s (retLater k 5 d (lkstatWords s f sel))

theorem exec_lkstat (sw : Bool) (d a : BitVec 6) (x : Bool) (s : State) :
    exec (.lkstat sw d a x) s = issue (.lkstat sw d a x) [src a x] (lkstatBody d a) s := rfl

theorem selector_bits : ∀ sel < 4, ∀ f < 128, (256 * sel + f) &&& 0xFFFFFC80 = 0 := by decide +kernel

section
variable {k : Ctx} {d a : BitVec 6} {f sel : Nat}

theorem lkstatBody_illegal (h : (k.g a).toNat &&& 0xFFFFFC80 ≠ 0 ∨ (0x300 < (k.g a).toNat ∧ (k.g a).toNat < 0x380)) :
    lkstatBody d a k = .error (k.illegal 3) := by
  refine if_pos ?_
  simp only [Bool.or_eq_true, Bool.and_eq_true, bne_iff_ne, beq_iff_eq, fld]
  omega

/-- LKSTAT answers a selector below 3 of a fibre, and selector 3 of fibre 0. -/
theorem lkstatBody_legal (hf : f < 128) (hsel : sel < 3 ∨ (sel = 3 ∧ f = 0)) (hv : (k.g a).toNat = 256 * sel + f) :
    lkstatBody d a k =
      let s := if sel = 1 then countChecks (draw k.s 1).2 f (Config.freeNat (draw k.s 1).1) else k.s
      .ok { st := s, launch := answerOn 5 d (lkstatWords s f sel) } := by
  have legal := selector_bits sel (by omega) f hf
  have fields : fld (256 * sel + f) 0 7 = f ∧ fld (256 * sel + f) 8 2 = sel := by
    simp only [fld]
    omega
  have named : ¬ (256 * sel + f &&& 0xFFFFFC80 != 0 || (sel == 3 && f != 0)) = true := by
    simp only [legal, bne_self_eq_false, Bool.false_or, Bool.and_eq_true, beq_iff_eq, bne_iff_ne]
    omega
  simp only [lkstatBody, hv, fields, inState_retLater, beq_iff_eq]
  exact if_neg named

end

/-- Settles O46: each event by the condition it reads, Ductus's wakes by the fold over the channels of its claims, and each word's
entry by the channel or the selector that it names. -/
theorem timeLinksAndChannels : Obligations.TimeLinksAndChannels := by
  refine ⟨⟨?ppsEdge, ?ptpin, ?holdover, ?tracking, ?ppsLoss, ?refreshStart, ?refreshEnd, inWindow_iff, ?frameStands, ?frame,
      ?boundary, ?automaticWake, ?belowThreshold, ?wake, ?retuned, ?retuning, ?unarmed, ?noClaims, ?claims, ?notNear, ?idle, ?near,
      ?token, ?noPackets, ?sends, ?keeps, ?noChannel⟩,
    ?park, ?parkIllegal, fun _ _ thr h => parkChannel_held thr h, fun _ _ thr => parkChannel_free thr, ?wakeSleeping, ?wakeAwake,
    ?stat, ?wakeIllegal, ?statIllegal, ?statWord, ?fibre, ?pair, ?resends, ?domain, ?selectorIllegal⟩
  case ppsEdge => exact fun s o h => ⟨_, execPpsEdge_disciplined o h, rfl, rfl, rfl, rfl, rfl⟩
  case ptpin => exact fun s a b c d => ⟨_, rfl, rfl, rfl, by simp [modTlock, modDev]⟩
  case holdover =>
    intro s h hl
    exact ⟨_, congrArg Host.Outcome.next (if_pos (by simpa using ⟨h, hl⟩)), rfl, rfl⟩
  case tracking =>
    intro s h
    exact congrArg Host.Outcome.next (if_neg (by rw [Bool.and_eq_true, decide_eq_true_eq]; omega))
  case ppsLoss =>
    intro s hp hl
    exact ⟨_, congrArg Host.Outcome.next (if_pos (by simpa using ⟨hp, hl⟩)), rfl⟩
  case refreshStart =>
    intro s b hb hw
    exact ⟨_, congrArg Host.Outcome.next (if_pos (by simp [hb, hw])), mem_insertNew _ _⟩
  case refreshEnd =>
    intro s b hw
    exact ⟨_, congrArg Host.Outcome.next (if_neg (ne_true_of_eq_false hw)), by simp [modDev]⟩
  case frameStands => exact fun s h => congrArg Host.Outcome.next (if_pos (beq_iff_eq.2 h))
  case frame => exact fun s h => ⟨_, congrArg Host.Outcome.next (if_neg (mt beq_iff_eq.1 h)), rfl, rfl, rfl⟩
  case boundary =>
    exact fun x => ⟨x.boundary_parking, fun h ht => (x.boundary_waking h).trans (if_pos ht),
      fun h ht => (x.boundary_waking h).trans (if_neg (ne_true_of_eq_false ht)), x.boundary_settled⟩
  case automaticWake =>
    intro s c hc hq
    exact ⟨_, congrArg Host.Outcome.next (if_pos (by simp [hc, overThreshold, hq])), channel_modChannel_same _ _ _⟩
  case belowThreshold =>
    intro s c hq
    exact congrArg Host.Outcome.next (if_neg (by simp [overThreshold, hq]))
  case wake => exact fun x now => ⟨x.wake_parked, x.wake_parking, x.wake_up⟩
  case retuned =>
    intro s c hs ht
    exact ⟨_, congrArg Host.Outcome.next (if_pos (by simp [hs, ht])), channel_modChannel_same _ _ _⟩
  case retuning =>
    intro s c ht
    exact congrArg Host.Outcome.next (if_neg (by rw [Bool.and_eq_true, decide_eq_true_eq]; omega))
  case unarmed => exact fun s o h => execDuctusWake_undue (.inl h)
  case noClaims =>
    intro s o v t hv ht ha hw hc hn
    rw [execDuctusWake_due ⟨hv, ht, ha, hw, hn⟩, hc]
    rfl
  case claims =>
    intro s o v t hv ht ha hw hn
    refine ⟨_, execDuctusWake_due ⟨hv, ht, ha, hw, hn⟩, ?_, fun cl hcl => ?_, fun c hc => ?_⟩
    · rw [output, outputs_wakeChannels]
      simp [modOutput, kgetD]
    · exact channel_wakeChannels_of_mem _ _ _ _ (List.mem_map_of_mem hcl) _
    · exact channel_wakeChannels_of_not_mem _ _ _ _ (fun h => by
        obtain ⟨cl, hcl, rfl⟩ := List.mem_map.1 h
        exact hc cl hcl rfl) _
  case notNear => exact fun s o v hv hn => execDuctusWake_undue (.inr ⟨v, hv, hn⟩)
  case idle =>
    intro s h
    exact congrArg Host.Outcome.next (if_neg (by simp [h]))
  case near =>
    intro s hs h
    exact ⟨_, congrArg Host.Outcome.next (if_pos (by simp [hs, h])), rfl⟩
  case token =>
    intro s c hc
    have visit := tokenVisit_eq s c (channel s c).token
    have tnow : (tokenVisit s c (channel s c).token).tnow = s.tnow := (congrArg State.tnow visit).trans rfl
    have mem : (tokenVisit s c (channel s c).token).mem = s.mem := (congrArg State.mem visit).trans rfl
    refine ⟨_, congrArg Host.Outcome.next (if_pos hc), ?_, tnow, rfl, mem⟩
    rw [channel_modChannel_same, visit]
    rfl
  case noPackets =>
    intro s c n h
    exact ⟨by rw [tokenVisit, h]; rfl, by rw [queueDepth, h]; rfl⟩
  case sends => exact fun c sender n p ps s h => if_pos h
  case keeps => exact fun c sender n p ps s h => if_neg (Nat.not_le.2 h)
  case noChannel => exact fun s c h => congrArg Host.Outcome.next (if_neg (Nat.not_lt.2 h))
  case park =>
    refine fun sw d a b x y => runs_of (fun _ => rfl) fun k ⟨ha, h0, ht⟩ => ?_
    have arg : channelArg (k.g a) = some (k.g a).toNat := channelArg_of_lt ha
    have legal : ¬ ((k.th.reg b.toNat).toNat == 0 || decide (1024 ≤ (k.th.reg b.toNat).toNat)) = true := by
      simp only [Bool.or_eq_true, beq_iff_eq, decide_eq_true_eq]
      omega
    simp only [arg]
    exact if_neg legal
  case parkIllegal =>
    refine fun sw d a b x y => traps_of (fun _ => rfl) fun k h => ?_
    by_cases ha : (k.g a).toNat < 36
    · have arg : channelArg (k.g a) = some (k.g a).toNat := channelArg_of_lt ha
      have illegal : ((k.th.reg b.toNat).toNat == 0 || decide (1024 ≤ (k.th.reg b.toNat).toNat)) = true := by
        simpa using h.resolve_left (Nat.not_le.2 ha)
      simp only [arg]
      exact if_pos illegal
    · simp only [show channelArg (k.g a) = none from channelArg_of_le (Nat.not_lt.1 ha)]
      rfl
  case wakeSleeping =>
    refine fun sw d a x => runs_of (fun _ => rfl) fun k ⟨ha, h⟩ => ?_
    have asleep : ((channel k.s (k.g a).toNat).state == 1 || (channel k.s (k.g a).toNat).state == 3) = true := by
      simpa [Ctx.g] using h
    simp only [show channelArg (k.g a) = some (k.g a).toNat from channelArg_of_lt ha, asleep, if_true]
    rfl
  case wakeAwake =>
    refine fun sw d a x => runs_of (fun _ => rfl) fun k ⟨ha, h⟩ => ?_
    have awake : ((channel k.s (k.g a).toNat).state == 1 || (channel k.s (k.g a).toNat).state == 3) = false := by
      obtain h | h := h <;> simp [Ctx.g, h]
    simp only [show channelArg (k.g a) = some (k.g a).toNat from channelArg_of_lt ha, awake, Bool.false_eq_true, if_false]
    rfl
  case stat =>
    refine fun sw d a x => runs_of (fun _ => rfl) fun k ha => ?_
    simp only [show channelArg (k.g a) = some (k.g a).toNat from channelArg_of_lt ha]
    rfl
  case wakeIllegal | statIllegal =>
    refine fun sw d a x => traps_of (fun _ => rfl) fun k ha => ?_
    simp only [show channelArg (k.g a) = none from channelArg_of_le ha]
    rfl
  case statWord => exact xbstatWord_fields
  case fibre =>
    refine fun sw d a x => runs_of (exec_lkstat sw d a x) fun k hv => ?_
    refine (lkstatBody_legal (sel := 0) hv (by omega) (Nat.zero_add _).symm).trans ?_
    exact congrArg (fun ws => Except.ok ({ st := k.s, launch := answerOn 5 d ws } : Eff)) (lkstatWords_waves k.s _)
  case pair =>
    refine fun sw d a x f hf => runs_of (exec_lkstat sw d a x) fun k hv => ?_
    refine (lkstatBody_legal (sel := 1) hf (by omega) hv).trans ?_
    let n := Config.freeNat (draw k.s 1).1
    exact congrArg (fun ws => Except.ok ({ st := countChecks (draw k.s 1).2 f n, launch := answerOn 5 d ws } : Eff))
      (lkstatWords_checks k.s f n)
  case resends =>
    refine fun sw d a x f hf => runs_of (exec_lkstat sw d a x) fun k hv => ?_
    exact lkstatBody_legal (sel := 2) hf (by omega) hv
  case domain =>
    refine fun sw d a x => runs_of (exec_lkstat sw d a x) fun k hv => ?_
    exact lkstatBody_legal (f := 0) (sel := 3) (by omega) (by omega) hv
  case selectorIllegal =>
    exact fun sw d a x => traps_of (exec_lkstat sw d a x) fun k h => lkstatBody_illegal h

end Sys2Proof.Machine
end

section
/-!
Exact cells: their 64 bytes, the additions and the rounding of their value (R145, R225, R226, R229).
-/
namespace Sys2Proof.Machine
set_option Elab.async false

/-! ### Numbers and their bytes -/

theorem length_leBytes (n v : Nat) : (leBytes n v).length = n := by
  induction n generalizing v with
  | zero => rfl
  | succ n ih => exact congrArg (· + 1) (ih (v / 256))

theorem leNat_leBytes (n v : Nat) : leNat (leBytes n v) = v % 2 ^ (8 * n) := by
  induction n generalizing v with
  | zero => rw [Nat.mul_zero, Nat.pow_zero, Nat.mod_one]; rfl
  | succ n ih =>
    rw [leBytes, leNat, ih, BitVec.toNat_ofNat, Nat.mul_succ, Nat.add_comm (8 * n), pow_add, Nat.mod_mul]
    rfl

/-- An integer that fits is read back from the bits that hold it. -/
theorem sx_wrap {n : Nat} (hn : 0 < n) {v : Int} (low : -(2 ^ (n - 1)) ≤ v) (high : v < 2 ^ (n - 1)) : sx (wrap v n) n = v := by
  have bits : wrap v n = (BitVec.ofInt n v).toNat := (BitVec.toNat_ofInt ..).symm
  rw [bits, sx_toNat, BitVec.toInt_ofInt_eq_self hn low high]

theorem wrap_lt (v : Int) (n : Nat) : wrap v n < 2 ^ n := by
  have bits : wrap v n = (BitVec.ofInt n v).toNat := (BitVec.toNat_ofInt ..).symm
  exact bits ▸ (BitVec.ofInt n v).isLt

/-! ### Cells -/

/-- A cell is read back from the bytes that hold it (R145, R225). -/
theorem cellOf_cellBytes {c : Cell64} (low : -(2 ^ 319) ≤ c.x) (high : c.x < 2 ^ 319) (hf : c.flags < 16) :
    cellOf (cellBytes c) = c := by
  have x : (cellBytes c).take 40 = leBytes 40 (wrap c.x 320) := by
    rw [cellBytes, List.append_assoc, List.take_left' (length_leBytes ..)]
  have flags : ((cellBytes c).drop 40).take 8 = leBytes 8 (c.flags % 16) := by
    rw [cellBytes, List.append_assoc, List.drop_left' (length_leBytes ..), List.take_left' (length_leBytes ..)]
  have fits : c.flags % 16 % 2 ^ (8 * 8) % 16 = c.flags := by omega
  rw [cellOf, x, flags, leNat_leBytes, leNat_leBytes, fits, Nat.mod_eq_of_lt (wrap_lt c.x 320),
    sx_wrap (by decide) low high]

theorem fp32_ranged : fp32.Ranged := ⟨by decide, by decide, rfl⟩

/-- A finite FP32 value is a whole number of the cell's units of 2^-149. -/
theorem dyFloor_rd32 {x m : Nat} {n : Bool} {e : Int} (h : rd32 x = .fin n m e) :
    dyFloor (dyScale (FVal.fin n m e).dy 149) = (if n then -(m : Int) else m) * 2 ^ (e + 149).toNat := by
  have whole : 0 ≤ e + 149 := by
    have := (Fmt.onGrid_of_read fp32_ranged h).low
    simp only [fp32] at this
    omega
  simp only [dyFloor, dyScale, FVal.dy, if_pos whole, pow2, Nat.cast_pow, Nat.cast_ofNat]

/-- A finite addend that the cell has room for is added exactly (R225, R226). -/
theorem cellAdd_fin {c : Cell64} {x m : Nat} {n : Bool} {e : Int} (h : rd32 x = .fin n m e)
    (low : -(2 ^ 319) ≤ c.x + (if n then -(m : Int) else m) * 2 ^ (e + 149).toNat)
    (high : c.x + (if n then -(m : Int) else m) * 2 ^ (e + 149).toNat < 2 ^ 319) :
    cellAdd c x = { c with x := c.x + (if n then -(m : Int) else m) * 2 ^ (e + 149).toNat } := by
  have room : ¬ (decide (c.x + (if n then -(m : Int) else m) * 2 ^ (e + 149).toNat < -(2 ^ 319))
      || decide (2 ^ 319 ≤ c.x + (if n then -(m : Int) else m) * 2 ^ (e + 149).toNat)) = true := by
    rw [Bool.or_eq_true, decide_eq_true_iff, decide_eq_true_iff]
    exact fun h => h.elim (Int.not_lt.2 low) (Int.not_le.2 high)
  simp only [cellAdd, h, dyFloor_rd32 h]
  rw [if_neg room, sx_wrap (by decide) low high]

/-- The value of a cell without flags is X units of 2^-149 (R145). -/
theorem cellValue_finite (x : Int) : cellValue ⟨x, 0⟩ = .fin (decide (x < 0)) x.natAbs (-149) := by
  simp only [cellValue, Nat.zero_testBit, Bool.false_and, Bool.or_self, Bool.false_eq_true, if_false]

theorem dy_cellValue (x : Int) : (cellValue ⟨x, 0⟩).dy = ⟨x, -149⟩ := by
  rw [cellValue_finite, FVal.dy]
  congr 1
  split
  · next h => have := of_decide_eq_true h; omega
  · next h => have := of_decide_eq_false (Bool.eq_false_of_not_eq_true h); omega

/-- XRD of a finite value gives it rounded in the mode (R229). -/
theorem xrdResult_fin (mode : Nat) (n : Bool) (m : Nat) (e : Int) :
    xrdResult mode false (.fin n m e) = [wordN (fp32.round mode false false (FVal.fin n m e).dy {}).1] := rfl

/-- The pair form gives the nearest value and the rest, rounded in the mode (R229). -/
theorem xrdResult_fin_pair (mode : Nat) (n : Bool) (m : Nat) (e : Int) :
    xrdResult mode true (.fin n m e) =
      [wordN (rn n (FVal.fin n m e).dy),
        if (rd32 (rn n (FVal.fin n m e).dy)).isInf then 0
        else wordN (fp32.round mode false (mode == modeRD)
          (dySub (FVal.fin n m e).dy (rd32 (rn n (FVal.fin n m e).dy)).dy) {}).1] :=
  congrArg (fun w => [wordN (rn n (FVal.fin n m e).dy), w]) (apply_ite wordN _ _ _)

/-- Settles O33: X stays within its 320 bits until a sum overflows, a special addend raises its flag alone, and a cell without
flags stands for X units of 2^-149. -/
theorem exactCellsAddExactly : Obligations.ExactCellsAddExactly := by
  refine ⟨fun c x n m e => cellAdd_fin, ?nan, ?posInf, ?negInf, fun x f => cellOf_cellBytes (c := ⟨x, f⟩), ?rdNan, ?flagged,
    fun mode n => ⟨rfl, rfl⟩, fun mode x => ?rdFin, fun mode x => ?rdPair⟩
  case nan => exact fun c x s h => by simp only [cellAdd, h]
  case posInf | negInf => exact fun c x h => by simp only [cellAdd, h]
  case rdNan => exact fun mode pair => by cases pair <;> rfl
  case flagged => exact fun x => by simp [cellValue, Nat.testBit]
  case rdFin => rw [cellValue_finite, xrdResult_fin, ← cellValue_finite, dy_cellValue]
  case rdPair =>
    dsimp only
    rw [cellValue_finite, xrdResult_fin_pair, ← cellValue_finite, dy_cellValue]
    rfl

end Sys2Proof.Machine
end

section
/-!
Requests between packages: the table of entered requests at the home, and the requests that wait for a reply (R220, R448 to R452).
-/
namespace Sys2Proof.Machine
set_option Elab.async false

/-! ### Requests of other packages (R220) -/

/-- A request that a slice's table does not hold joins it. -/
def enterRequest (s : State) (r : RemoteRequest) (e : Dedup) : State :=
  modDomain s (fun d => { d with dedup := kset d.dedup r.slice (dedupOf s r.slice ++ [e]) })

/-- The entries of a request take a mark. -/
def markRequest (s : State) (r : RemoteRequest) (f : Dedup → Dedup) : State :=
  modDomain s (fun d => { d with
    dedup := kset d.dedup r.slice ((dedupOf s r.slice).map (fun e => if e.names r then f e else e)) })

theorem dedupOf_markRequest (s : State) (r : RemoteRequest) (f : Dedup → Dedup) :
    dedupOf (markRequest s r f) r.slice = (dedupOf s r.slice).map (fun e => if e.names r then f e else e) :=
  (kgetD_kset _ _ _ _ _).trans (if_pos rfl)

/-- Of a table that held no entry of the request only the new one takes the mark. -/
theorem map_mark_append {es : List Dedup} {e : Dedup} {r : RemoteRequest} (f : Dedup → Dedup)
    (new : es.any (·.names r) = false) (he : e.names r = true) :
    (es ++ [e]).map (fun e => if e.names r then f e else e) = es ++ [f e] := by
  have others : es.map (fun e => if e.names r then f e else e) = es := by
    refine (List.map_congr_left fun x hx => if_neg ?_).trans (List.map_id es)
    exact List.any_eq_false.1 new x hx
  rw [List.map_append, others, List.map_singleton, if_pos he]

section
variable {s s' : State} {r : RemoteRequest}

theorem performEntered_replied {bs : List Byte} (h : performRequest s r = (some bs, s')) :
    performEntered s r = markRequest s' r (fun e => { e with reply := some bs, waiting := none }) := by
  simp only [performEntered, h]
  rfl

theorem performEntered_waiting (h : performRequest s r = (none, s')) :
    performEntered s r = markRequest s' r (fun e => { e with waiting := some r }) := by
  simp only [performEntered, h]
  rfl

theorem performRequest_dead (h : sealLive s r.sealId = false) : performRequest s r = (some [5], s) := by
  simp only [performRequest, h, Bool.not_false, if_true]

theorem execRemoteRequestArrival_disabled (h : s.domain.en = false) : exec (.remoteRequestArrival r) s = .next s :=
  congrArg Host.Outcome.next (if_pos (by rw [h]; rfl))

theorem execRemoteRequestArrival_weak (hen : s.domain.en = true) (hn : requestNumbered r = false) :
    exec (.remoteRequestArrival r) s = .next (performRequest s r).2 := by
  show Host.Outcome.next _ = _
  simp only [hen, hn, Bool.not_true, Bool.not_false, Bool.false_eq_true, if_false, if_true]

/-- A copy of an entered request is not performed. -/
theorem execRemoteRequestArrival_copy (hen : s.domain.en = true) (hn : requestNumbered r = true)
    (held : (dedupOf s r.slice).any (·.names r) = true) : exec (.remoteRequestArrival r) s = .next s := by
  show Host.Outcome.next _ = _
  simp only [hen, hn, held, Bool.not_true, Bool.false_eq_true, if_false, Bool.true_or, if_true]

/-- A numbered request arrives that is not entered and not below its source's low mark, and the table has room. -/
structure NewRequest (s : State) (r : RemoteRequest) : Prop where
  en : s.domain.en = true
  numbered : requestNumbered r = true
  new : (dedupOf s r.slice).any (·.names r) = false
  above : seqBelow r.seq (lowMarkOf s r.src r.slice) = false
  room : (dedupOf s r.slice).length < 256

/-- A new request is entered and performed. -/
theorem execRemoteRequestArrival_new (h : NewRequest s r) : exec (.remoteRequestArrival r) s =
    .next (performEntered (enterRequest s r { src := r.src, num := r.seq, reply := none }) r) := by
  show Host.Outcome.next _ = _
  simp only [h.en, h.numbered, h.new, h.above, decide_eq_false (Nat.not_le.2 h.room), Bool.not_true, Bool.false_eq_true, if_false,
    Bool.or_self]
  rfl

/-- A new request's own entry takes what became of it, and the performance alone moved memory. -/
theorem execRemoteRequestArrival_marks (h : NewRequest s r) (f : Dedup → Dedup)
    (hp : performEntered (enterRequest s r { src := r.src, num := r.seq, reply := none }) r = markRequest s' r f)
    (stands : dedupOf s' r.slice = dedupOf s r.slice ++ [{ src := r.src, num := r.seq, reply := none }]) :
    ∃ s'', exec (.remoteRequestArrival r) s = .next s'' ∧ s''.mem = s'.mem
      ∧ dedupOf s'' r.slice = dedupOf s r.slice ++ [f { src := r.src, num := r.seq, reply := none }] := by
  refine ⟨markRequest s' r f, hp ▸ execRemoteRequestArrival_new h, rfl, ?_⟩
  rw [dedupOf_markRequest, stands, map_mark_append f h.new (by simp [Dedup.names])]

end

/-! ### Acknowledgements (R220, R449) -/

/-- An acknowledged entry at its source's low mark leaves the table, and the mark moves past it. -/
theorem retireAcked_single (fuel : Nat) {e : Dedup} (h : e.acked = true) :
    retireAcked e.src (fuel + 2) e.num [e] = ((e.num + 1) % 2 ^ 32, []) := by
  have empty : ∀ low, retireAcked e.src (fuel + 1) low [] = (low, []) := fun _ => rfl
  rw [retireAcked, if_pos (by simp [h]), List.filter_cons_of_neg (by simp), List.filter_nil, empty]

theorem execAcknowledgement_own {s : State} {p sl n : Nat}
    (h : (dedupOf s sl).any (fun e => e.src == p && e.num == n && !e.acked) = false) :
    exec (.acknowledgement p sl n) s = .next (modDomain s (fun d => { d with toAck := d.toAck.erase (p, sl, n) })) := by
  show Host.Outcome.next _ = _
  simp only [h, Bool.false_eq_true, if_false]

theorem execAcknowledgement_single {s : State} {p sl : Nat}
    (h : dedupOf s sl = [{ src := p, num := lowMarkOf s p sl, reply := none, acked := false }]) :
    exec (.acknowledgement p sl (lowMarkOf s p sl)) s = .next (modDomain s (fun d => { d with
      dedup := kset d.dedup sl [], lowMark := kset d.lowMark (16 * p + sl) ((lowMarkOf s p sl + 1) % 2 ^ 32) })) := by
  have retired := retireAcked_single 254
    (e := { src := p, num := lowMarkOf s p sl, reply := none, acked := true }) rfl
  show Host.Outcome.next _ = _
  simp only [h, List.any_cons, List.any_nil, List.map_cons, List.map_nil, beq_self_eq_true, Bool.not_false, Bool.and_self,
    Bool.or_false, if_true, retired]

/-! ### Requests of this package (R449 to R451) -/

section
variable {s : State} {p sl n id : Nat} {r : RemoteReq}

theorem settleHeirs_nil (h : s.heirs = []) : settleHeirs s = s := by rw [settleHeirs, h, List.foldl_nil]

theorem execRemoteReplyArrival_unnamed (h : reqOf s p sl n = none) (data : List Byte) :
    exec (.remoteReplyArrival p sl n data) s = .next (settleHeirs s) := by
  show Host.Outcome.next _ = _
  simp only [h]

/-- The request has its reply: it leaves the table, and a numbered one is to be acknowledged. -/
def closeRequest (s : State) (p sl id : Nat) (r : RemoteReq) : State :=
  modDomain s (fun d => { d with reqs := kdel d.reqs id, toAck := match r.num with
    | some n => d.toAck ++ [(p, sl, n)]
    | none => d.toAck })

/-- A reply of two bytes or more gives the requester its bytes. -/
theorem execRemoteReplyArrival_data (h : reqOf s p sl n = some (id, r)) (b0 b1 : Byte) (rest : List Byte) :
    exec (.remoteReplyArrival p sl n (b0 :: b1 :: rest)) s = .next (settleHeirs (giveReply (closeRequest s p sl id r) id r
      (leNat ((b0 :: b1 :: rest).take 8)) ((b0 :: b1 :: rest).drop 8))) := by
  show Host.Outcome.next _ = _
  simp only [h]
  rfl

theorem giveReply_thread {t c seq : Nat} (h : r.by_ = .thread t c seq) (pts : Nat) (bs : List Byte) :
    giveReply s id r pts bs = threadReply s id r t seq pts bs := by
  simp only [giveReply, h]

theorem execRetransmissionTimeout_again (h : reqOf s p sl n = some (id, r)) (hs : r.sends < 8) :
    exec (.retransmissionTimeout p sl n) s = .next (modDomain s (fun d => { d with
      reqs := kset d.reqs id { r with sends := r.sends + 1 }
      resends := kset d.resends (domtab s p) (kgetD d.resends (domtab s p) 0 + 1) })) := by
  show Host.Outcome.next _ = _
  simp only [h, Nat.not_le.2 hs, if_false]

theorem execRetransmissionTimeout_last (h : reqOf s p sl n = some (id, r)) (hs : 8 ≤ r.sends) :
    exec (.retransmissionTimeout p sl n) s = .next (unreachable s p) := by
  show Host.Outcome.next _ = _
  simp only [h, hs, if_true]

theorem execBusyResend_named (h : reqOf s p sl n = some (id, r)) : exec (.busyResend p sl n) s =
    .next (modDomain s (fun d => { d with reqs := kset d.reqs id { r with sends := max 1 r.sends } })) := by
  show Host.Outcome.next _ = _
  simp only [h]

/-- A timeout or a BUSY answer that names no request changes nothing. -/
theorem execResends_unnamed (h : reqOf s p sl n = none) :
    exec (.retransmissionTimeout p sl n) s = .next s ∧ exec (.busyResend p sl n) s = .next s := by
  constructor <;>
  · show Host.Outcome.next _ = _
    simp only [h]

end

/-! ### Fibres and forwarded packets (R448, R452) -/

theorem execWavelengthRetrain_listed (s : State) {f : Nat} (m : DWord) (h : f < 128) :
    exec (.wavelengthRetrain f m) s =
      .next (countChecks (modDomain s (fun d => { d with waves := kset d.waves f (fibreUp s f &&& m) })) f 1000) :=
  congrArg Host.Outcome.next (if_pos h)

/-- A packet for another package goes on where its hops and the table allow, and is dropped otherwise. -/
theorem execTsuxusForwarding_other (s : State) {d h : Nat} (hd : d ≠ s.domain.pkg) : exec (.tsuxusForwarding d h) s =
    .next (if 16 ≤ h ∨ 64 ≤ domtab s d then modDomain s (fun d => { d with dropped := d.dropped + 1 })
      else modDomain s (fun d => { d with forwarded := d.forwarded + 1 })) := by
  show Host.Outcome.next _ = _
  simp only [beq_false_of_ne hd, Bool.false_eq_true, if_false, Bool.or_eq_true, decide_eq_true_eq]

/-- Settles O47: each clause is the rule above for the event it speaks of. -/
theorem requestsBetweenPackages : Obligations.RequestsBetweenPackages := by
  refine ⟨fun s r => execRemoteRequestArrival_disabled, fun s r => execRemoteRequestArrival_copy, ?replied, ?waiting,
    fun s r => performRequest_dead, fun s r => execRemoteRequestArrival_weak, fun s p sl n => execAcknowledgement_own, ?acknowledged,
    fun s => settleHeirs_nil, ?unnamed, ?load, ?again, fun s p sl n id r => execRetransmissionTimeout_last, ?busy, ?retrain,
    ?forwarded, ?dropped⟩
  case replied =>
    intro s r bs s' hen hn new above room e hp stands
    exact execRemoteRequestArrival_marks ⟨hen, hn, new, above, room⟩ _ (performEntered_replied hp) stands
  case waiting =>
    intro s r s' hen hn new above room e hp stands
    exact execRemoteRequestArrival_marks ⟨hen, hn, new, above, room⟩ _ (performEntered_waiting hp) stands
  case acknowledged =>
    intro s p sl h
    exact ⟨_, execAcknowledgement_single h, (kgetD_kset ..).trans (if_pos rfl), (kgetD_kset ..).trans (if_pos rfl)⟩
  case unnamed => exact fun s p sl n data h => ⟨execRemoteReplyArrival_unnamed h data, execResends_unnamed h⟩
  case load =>
    rintro s p sl n id r c t seq _ b0 b1 rest h hby rfl
    refine ⟨closeRequest s p sl id r, rfl, rfl, ?_⟩
    rw [execRemoteReplyArrival_data h, giveReply_thread hby]
  case again =>
    intro s p sl n id r h hs
    exact ⟨_, execRetransmissionTimeout_again h hs, congrArg (Option.map RemoteReq.sends) (kget_kset_same ..), rfl, rfl⟩
  case busy =>
    intro s p sl n id r h
    exact ⟨_, execBusyResend_named h, congrArg (Option.map RemoteReq.sends) (kget_kset_same ..), rfl⟩
  case retrain =>
    intro s f m h
    exact ⟨_, execWavelengthRetrain_listed s m h, (kgetD_kset ..).trans (if_pos rfl)⟩
  case forwarded =>
    intro s d h hd hh ht
    have goesOn : ¬ (16 ≤ h ∨ 64 ≤ domtab s d) := by omega
    exact ⟨_, (execTsuxusForwarding_other s hd).trans (congrArg _ (if_neg goesOn)), rfl, rfl, rfl⟩
  case dropped =>
    intro s d h hd hh
    exact ⟨_, (execTsuxusForwarding_other s hd).trans (congrArg _ (if_pos (.inl hh))), rfl⟩

end Sys2Proof.Machine
end

section
/-!
What a read at its home leaves: it moves lines and their timestamps, and meets errors (R194, R422, R437).
-/
namespace Sys2Proof.Machine
set_option Elab.async false

/-! ### What a read of LPDDR leaves -/

/-- The states differ in the lines' caches and timestamps, and in the errors that reads have met. -/
structure Looked (s s' : State) : Prop where
  eq : s' = { s with lines := s'.lines, errors := s'.errors }
  quarantined : s'.errors.quarantined = s.errors.quarantined

section
variable {s s' s'' : State}

theorem Looked.refl (s : State) : Looked s s := ⟨rfl, rfl⟩

theorem Looked.trans (h : Looked s s') (h' : Looked s' s'') : Looked s s'' where
  eq := h'.eq.trans (congrArg (fun x : State => { x with lines := s''.lines, errors := s''.errors }) h.eq)
  quarantined := h'.quarantined.trans h.quarantined

theorem Looked.mem (h : Looked s s') : s'.mem = s.mem := (congrArg State.mem h.eq).trans rfl
theorem Looked.threads (h : Looked s s') : s'.threads = s.threads := (congrArg State.threads h.eq).trans rfl
theorem Looked.stations (h : Looked s s') : s'.stations = s.stations := (congrArg State.stations h.eq).trans rfl

theorem OnLines.mem (h : OnLines s s') : s'.mem = s.mem := (congrArg State.mem h).trans rfl

theorem OnLines.looked (h : OnLines s s') : Looked s s' where
  eq := h.trans (congrArg (fun e => { s with lines := s'.lines, errors := e }) (congrArg State.errors h).symm)
  quarantined := congrArg (·.errors.quarantined) h

theorem Looked.foldl {α : Type} {f : State → α → State} (hf : ∀ s a, Looked s (f s a)) (l : List α) (s : State) :
    Looked s (l.foldl f s) :=
  List.foldlRecOn (motive := Looked s) l f (.refl s) fun s' h a _ => h.trans (hf s' a)

theorem Looked.met (s : State) (l : Loc) (n : Nat) : Looked s (met s l n) := by
  unfold Machine.met meetErrors
  split
  · exact .refl s
  · split
    · exact ⟨rfl, rfl⟩
    · exact .refl s

theorem Looked.noteRead (s : State) (a : Access) (reader : Nat) : Looked s (noteRead s a reader) := by
  have met : Looked s (Machine.met s a.loc a.len) := .met s a.loc a.len
  unfold Machine.noteRead
  split
  · dsimp only
    split
    · exact met.trans ⟨rfl, rfl⟩
    · exact met
  · exact met

theorem Looked.sliceVisit (s : State) (l : Nat) : Looked s (sliceVisit s l) := (OnLines.refl s).sliceVisit.looked

theorem Looked.homeLoad (s : State) (l pts lease : Nat) : Looked s (homeLoad s l pts lease) :=
  OnLines.looked (.modLines (.refl s))

end
end Sys2Proof.Machine
end

section
/-!
Atomics and exact cells at issue, and as they are performed (R217 to R230).
-/
namespace Sys2Proof.Machine
set_option Elab.async false

/-! ### At issue -/

section
variable {i : Instr} {srcs : List Src} {pre : Ctx → Prop}

/-- A word of this package whose access passes its checks issues one update at the access's home. -/
theorem runs_update {body : Ctx → Except Stop Eff} {wins dests : List Nat} {a : BitVec 6} {len ec : Nat} {kind : AccKind}
    {op : Ctx → AtomOp} {acc : Access} (hx : ∀ s, exec i s = issue i srcs body s)
    (hb : ∀ k, pre k → body k = atomBody wins a len kind ec dests (op k) k) (here : ∀ p o, acc.loc ≠ .remote p o) :
    Runs i srcs
      (fun k => pre k ∧ memHeld k.th = false
        ∧ checkAccess k.s k.t k.th k.iw (k.th.reg64 a.toNat) len len kind true wins true = .ok acc)
      (fun k => { st := noteRegion k.s k.th acc, launch := some { ec := ec, dests := dests, op := .atom acc (op k) } }) := by
  refine runs_of hx fun k ⟨hpre, hm, hc⟩ => ?_
  rw [hb k hpre]
  simp only [atomBody, Ctx.g64, hc]
  exact sendAccess_here hm here

theorem Thread.unmap_congr (th : Thread) {rs rs' : List Nat} (h : ∀ r, r ∈ rs ↔ r ∈ rs') : th.unmap rs = th.unmap rs' := by
  simp only [Thread.unmap, List.contains_eq_mem, h]

/-- Only which registers are freed counts, not how often. -/
theorem complete_congr (k : Ctx) (sw : Bool) {rs rs' : List Nat} (h : ∀ r, r ∈ rs ↔ r ∈ rs') (e : Eff) :
    complete k sw rs e = complete k sw rs' e := by
  simp only [complete, Thread.unmap_congr _ h]

theorem fits_congr (k : Ctx) {rs rs' : List Nat} (h : ∀ r, r ∈ rs ↔ r ∈ rs') (dests : List Nat) :
    fits k rs dests = fits k rs' dests := by
  simp only [fits, footprintAfter, List.contains_eq_mem, h]

/-- Naming again a register that the operand fields free changes nothing of what a word leaves. -/
theorem runs_moreFrees {eff : Ctx → Eff} {more : Ctx → List Nat} (h : Runs i srcs pre eff)
    (hmore : ∀ k r, r ∈ more k → r ∈ freed i srcs k (eff k).moreFrees) :
    Runs i srcs pre (fun k => { eff k with moreFrees := (eff k).moreFrees ++ more k }) := by
  intro s t th hp hpre hf hc
  generalize hk : entryCtx s t th = k at *
  have same (r : Nat) : r ∈ freed i srcs k ((eff k).moreFrees ++ more k) ↔ r ∈ freed i srcs k (eff k).moreFrees := by
    rw [freed, ← List.append_assoc, ← freed, List.mem_append]
    exact or_iff_left_of_imp (hmore k r)
  have done := h s t th hp (hk ▸ hpre) (hk ▸ (fits_congr k same _) ▸ hf) (hk ▸ hc)
  rw [hk] at done
  exact done.trans (congrArg _ (complete_congr k _ same _).symm)

end

/-- The last-read bit of ATOMC's c frees both registers of a pair (R43, R223). -/
theorem atomc_frees_pair (sw : Bool) (d a b : BitVec 6) (x y : Bool) (srcs : List Src) {k : Ctx} (h : k.lc = true) (more : List Nat) :
    k.cReg + 1 ∈ freed (.atomc sw d a b x y true) srcs k more := by
  have control : k.ctl.isSome = true := by
    cases hc : k.ctl with
    | some w => rfl
    | none => simp [Ctx.lc, Ctx.ctlField, hc, fld] at h
  have srcs_eq : k.allSrcs (.atomc sw d a b x y true) (opcOf' (.atomc sw d a b x y true)) srcs = srcs ++ [⟨k.cReg, 2, k.lc⟩] := by
    rw [Ctx.allSrcs, control]
    rfl
  simp [freed, srcs_eq, freesOf, h, Src.regs, range]

/-! ### As they are performed -/

/-- The new values of ATOM (R222). -/
theorem atomNew_eq (w old v : Nat) : atomNew 0 w old v = (old + v) % 2 ^ w
    ∧ (atomNew 1 w old v = if sx old w ≤ sx v w then old else v) ∧ (atomNew 2 w old v = if sx v w ≤ sx old w then old else v)
    ∧ atomNew 3 w old v = min old v ∧ atomNew 4 w old v = max old v ∧ atomNew 5 w old v = old &&& v
    ∧ atomNew 6 w old v = old ||| v ∧ atomNew 7 w old v = old ^^^ v ∧ atomNew 8 w old v = v
    ∧ (atomNew 9 w old v = if v ≤ old then 0 else old + 1)
    ∧ (atomNew 10 w old v = if old = 0 ∨ v < old then v else old - 1) := by
  refine ⟨rfl, rfl, rfl, ?min, ?max, rfl, rfl, rfl, rfl, rfl, ?dec⟩
  case min => exact (Nat.min_def ..).symm
  case max => exact ((Nat.max_comm old v).trans (Nat.max_def ..)).symm
  case dec => simp only [atomNew, Bool.or_eq_true, decide_eq_true_eq]

/-- What a performed update leaves of its thread: its result waits to be written, or without one it leaves the list. -/
def Thread.updated (th : Thread) (f : Flight) (res : List Word) (reply : List (Nat × Nat)) (pts : Nat) : Thread :=
  if f.dests.isEmpty then ((th.takePts pts).orderingPoint).retire f
  else ((th.takePts pts).orderingPoint).modFlight f.seq (fun f => { f with got := some res, reply := reply })

section
variable (th : Thread) (f : Flight) (res : List Word) (reply : List (Nat × Nat)) (pts : Nat)

theorem Thread.regs_updated : (th.updated f res reply pts).regs = th.regs := by
  rw [Thread.updated, Thread.retire_eq]
  split <;> rfl

theorem Thread.got_updated (hd : f.dests ≠ []) : ∀ g ∈ (th.updated f res reply pts).flights, g.seq = f.seq → g.got = some res := by
  intro g hg hseq
  rw [Thread.updated, if_neg (mt List.isEmpty_iff.1 hd)] at hg
  obtain ⟨g', -, rfl⟩ := List.mem_map.1 hg
  by_cases same : (g'.seq == f.seq) = true
  · rw [if_pos same]
  · rw [if_neg same] at hseq
    exact absurd (beq_iff_eq.2 hseq) same

theorem Thread.gone_updated (hd : f.dests = []) : ∀ g ∈ (th.updated f res reply pts).flights, g.seq ≠ f.seq := by
  intro g hg
  rw [Thread.updated, if_pos (List.isEmpty_iff.2 hd)] at hg
  simpa using (List.mem_filter.1 hg).2

end

section
variable {s : State} {t seq : Nat} {th : Thread} {f : Flight} {a : Access} {op : AtomOp}

theorem execAtomicPerformed_now (h : flight? s t seq = some (th, f)) (hop : f.op = .atom a op) (hg : f.got = none)
    (hm : mayPerform th f = true) (hr : inRefresh s f = false) : exec (.atomicPerformed t seq) s =
      .next (modThread (atomAt s (coreOf s th) a op th.pts th.sealId).2.2 t (fun h =>
        h.updated f (atomAt s (coreOf s th) a op th.pts th.sealId).1 (replyPackets s th f.op)
          (atomAt s (coreOf s th) a op th.pts th.sealId).2.1)) := by
  have performed : performFlight s t f none = modThread (atomAt s (coreOf s th) a op th.pts th.sealId).2.2 t (fun h =>
        h.updated f (atomAt s (coreOf s th) a op th.pts th.sealId).1 (replyPackets s th f.op)
          (atomAt s (coreOf s th) a op th.pts th.sealId).2.1) := by
    simp only [performFlight, (flight_eq_some.1 h).1, hop]
    rfl
  rw [← performed, ← performNow_open h hg hm hr]
  show Host.Outcome.next _ = _
  simp only [h, hop]

/-- An update that moves no thread leaves its own its registers, and its result in the operation. -/
theorem execAtomicPerformed_leaves (h : flight? s t seq = some (th, f)) (hop : f.op = .atom a op) (hg : f.got = none)
    (hm : mayPerform th f = true) (hr : inRefresh s f = false)
    (hth : (atomAt s (coreOf s th) a op th.pts th.sealId).2.2.threads = s.threads) :
    ∃ s' h, exec (.atomicPerformed t seq) s = .next s' ∧ thread? s' t = some h
      ∧ s'.mem = (atomAt s (coreOf s th) a op th.pts th.sealId).2.2.mem ∧ h.regs = th.regs
      ∧ (f.dests ≠ [] → ∀ g ∈ h.flights, g.seq = seq → g.got = some (atomAt s (coreOf s th) a op th.pts th.sealId).1)
      ∧ (f.dests = [] → ∀ g ∈ h.flights, g.seq ≠ seq) := by
  have run := execAtomicPerformed_now h hop hg hm hr
  have stays : thread? (atomAt s (coreOf s th) a op th.pts th.sealId).2.2 t = some th :=
    (congrArg (kget? · t) hth).trans (flight_eq_some.1 h).1
  obtain rfl := seq_of_flight h
  refine ⟨_, _, run, by rw [thread_modThread, if_pos rfl, stays, Option.map_some], rfl, th.regs_updated ..,
    th.got_updated _ _ _ _, th.gone_updated _ _ _ _⟩

/-- An update of LPDDR answers what its bytes give, and puts the new ones there (R217). -/
theorem atomAt_update (s : State) {a : Access} {op : AtomOp} {pa : Nat} (c pts x : Nat) (hl : a.loc = .glob pa)
    (hop : op.loads = false) (hwf : s.mem.wf = true) (hlen : (atomStep op (s.mem.readBytes pa a.len)).1.length = a.len) :
    (atomAt s c a op pts x).1 = (atomStep op (s.mem.readBytes pa a.len)).2 ∧ (atomAt s c a op pts x).2.2.threads = s.threads
      ∧ (atomAt s c a op pts x).2.2.mem.readBytes pa a.len = (atomStep op (s.mem.readBytes pa a.len)).1
      ∧ ∀ b, b < pa ∨ pa + a.len ≤ b → (atomAt s c a op pts x).2.2.mem.read b = s.mem.read b := by
  have looked : Looked s (noteRead s a x) := .noteRead s a x
  have old : peek (noteRead s a x) a.loc a.len = s.mem.readBytes pa a.len := by rw [hl, peek, looked.mem]
  rw [atomAt, hop]
  simp only [Bool.false_eq_true, if_false, old]
  generalize atomStep op (s.mem.readBytes pa a.len) = r at *
  generalize Nat.max pts (syncTime (noteRead s a x) a) = now
  obtain ⟨bytes, others⟩ := storeAt_reads (looked.mem ▸ hwf) a r.1 now x pa hl
  have same := (OnLines.storeAt (noteRead s a x) r.1 now x hl).threads
  rw [hl] at same
  rw [hlen] at bytes others
  exact ⟨trivial, same.trans looked.threads, bytes, fun b hb => (others b hb).trans (by rw [looked.mem])⟩

end

/-- A strong load of LPDDR reads its bytes there, and moves lines alone (R194, R202). -/
theorem loadGlob_strong (s : State) (c pa : Nat) {a : Access} (pts : Nat) (peer : Option Nat) (h : a.strong = true) :
    (loadGlob s c pa a pts peer).1 = s.mem.readBytes pa a.len ∧ Looked s (loadGlob s c pa a pts peer).2.2 := by
  have atHome : Looked s (homeLoad (sliceVisit s (lineOf pa)) (lineOf pa) pts (core s c).lease) :=
    (Looked.sliceVisit s (lineOf pa)).trans (.homeLoad ..)
  unfold loadGlob
  split
  · exact ⟨rfl, .refl s⟩
  · simp only [h, Bool.true_or, if_true]
    exact ⟨congrArg (·.readBytes pa a.len) atHome.mem, atHome⟩

/-- XRD of LPDDR answers the value of the cell there and changes no byte (R229). -/
theorem atomAt_xrd (s : State) {a : Access} {pa : Nat} (c pts x mode : Nat) (pair : Bool) (hl : a.loc = .glob pa) :
    (atomAt s c a (.xrd mode pair) pts x).1 = xrdResult mode pair (cellValue (cellOf (s.mem.readBytes pa a.len)))
      ∧ Looked s (atomAt s c a (.xrd mode pair) pts x).2.2 := by
  have looked : Looked s (noteRead s { a with strong := true } x) := .noteRead ..
  obtain ⟨bytes, moved⟩ := loadGlob_strong (noteRead s { a with strong := true } x) c pa (a := { a with strong := true }) pts none rfl
  rw [looked.mem] at bytes
  have loaded : loadAt s c { a with strong := true } pts x none =
      loadGlob (noteRead s { a with strong := true } x) c pa { a with strong := true } pts none := by
    simp only [loadAt, hl]
  show xrdResult mode pair (cellValue (cellOf (loadAt s c { a with strong := true } pts x none).1)) = _
    ∧ Looked s (loadAt s c { a with strong := true } pts x none).2.2
  rw [loaded, bytes]
  exact ⟨rfl, looked.trans moved⟩

/-- Settles O32: each word issues its update through the same checks, and a performed update moves the bytes at its address and
the operation's own thread. -/
theorem atomicsPerformOnce : Obligations.AtomicsPerformOnce := by
  refine ⟨?issued, ?int, ?update, ?load, fun w cmp new bs => ?cas, fun v bs => rfl, fun v bs => rfl, fun vs bs => rfl, fun bs => rfl⟩
  case issued =>
    intro here send
    refine ⟨?atom, ?atomc, ?pair, ?atomf, ?xacc, ?xaccp, ?xrd, ?xclr, fun w old v _ _ => atomNew_eq w old v⟩
    case atom =>
      intro sw d a b x y m acc hl
      cases m <;> exact runs_update (fun _ => rfl) (fun k h => if_neg (Nat.not_lt.2 h)) hl
    case atomc => exact fun sw d a b x y acc hl => runs_update (fun _ => rfl) (fun _ _ => rfl) hl
    case pair =>
      intro sw d a b x y acc hl s t th hp ⟨_, _, hm, hc⟩
      have runs := runs_moreFrees (more := fun k => if k.lc then [k.cReg + 1] else [])
        (runs_update (i := .atomc sw d a b x y true) (pre := fun _ => True) (fun _ => rfl) (fun _ _ => rfl) hl) fun k r hr => by
          split at hr
          · next hlc => exact List.mem_singleton.1 hr ▸ atomc_frees_pair sw d a b x y _ hlc _
          · nomatch hr
      exact runs s t th hp ⟨trivial, hm, hc⟩
    case atomf => exact fun sw d a b x y m acc hl => runs_update (fun _ => rfl) (fun _ _ => rfl) hl
    case xacc | xaccp => exact fun sw a b x y acc hl => runs_update (fun _ => rfl) (fun _ _ => rfl) hl
    case xrd =>
      intro sw d a x m acc hl
      cases m <;> exact runs_update (fun _ => rfl) (fun _ _ => rfl) hl
    case xclr => exact fun sw a x acc hl => runs_update (fun _ => rfl) (fun _ _ => rfl) hl
  case int =>
    rintro s t seq th f acc op _ v pa hf hop hl rfl hg hd hm hr hwf
    obtain ⟨res, hth, bytes, others⟩ := atomAt_update s (op := .int op (8 * acc.len) v) (coreOf s th) th.pts th.sealId hl rfl hwf
      (by rw [atomStep, length_leBytes, Nat.mul_div_cancel_left _ (by decide)])
    obtain ⟨s', h, run, ht, hmem, regs, got, -⟩ := execAtomicPerformed_leaves hf hop hg hm hr hth
    rw [atomStep, Nat.mul_div_cancel_left _ (by decide)] at bytes
    exact ⟨s', h, run, ht, hmem ▸ bytes, fun b hb => hmem ▸ others b hb, fun g hg hs => (got hd g hg hs).trans (congrArg some res), regs⟩
  case update =>
    intro s t seq th f acc op pa hf hop hload hl hg hm hr hwf r hlen
    obtain ⟨res, hth, bytes, others⟩ := atomAt_update s (coreOf s th) th.pts th.sealId hl hload hwf hlen
    obtain ⟨s', h, run, ht, hmem, regs, got, gone⟩ := execAtomicPerformed_leaves hf hop hg hm hr hth
    exact ⟨s', h, run, ht, hmem ▸ bytes, fun b hb => hmem ▸ others b hb, res ▸ got, gone, regs⟩
  case load =>
    intro s t seq th f acc mode pair pa hf hop hl hg hd hm hr
    obtain ⟨res, looked⟩ := atomAt_xrd s (coreOf s th) th.pts th.sealId mode pair hl
    obtain ⟨s', h, run, ht, hmem, regs, got, -⟩ := execAtomicPerformed_leaves hf hop hg hm hr looked.threads
    exact ⟨s', h, run, ht, hmem.trans looked.mem, regs, res ▸ got hd⟩
  case cas => simp only [atomStep, beq_iff_eq]

end Sys2Proof.Machine
end

section
/-!
Fences, prefetches and pins at issue, and the memory events that end a walk, a lease or a stretch of logical time (R181, R194,
R195, R213 to R216, R231, R232).
-/
namespace Sys2Proof.Machine
set_option Elab.async false

/-! ### Fences (R231, R232) -/

/-- No access after a FENCEW is performed while one before it is not. -/
theorem mayPerform_fenced {th : Thread} {f g : Flight} (hg : g ∈ th.flights) (ho : g.open_ = true) (before : g.seq < th.fencew)
    (after : th.fencew ≤ f.seq) : mayPerform th f = false := by
  refine Bool.eq_false_iff.2 fun h => ?_
  have ordered := List.all_eq_true.1 h g hg
  simp [ho, before, after, before.trans_le after] at ordered

/-- The last command a FENCE waits for lets its thread go on. -/
theorem registered_last {s : State} {t cmd : Nat} {th : Thread} (ht : thread? s t = some th) (hw : th.wait = .fence [cmd]) :
    (thread? (registered s t cmd) t).map (·.wait) = some (if th.parkAfter && !th.pend.isEmpty then .park else .ready) := by
  rw [registered, thread_modThread, if_pos rfl, ht]
  simp [hw, Thread.wake]

/-! ### Prefetches (R213) -/

theorem windowFault_domain {addr : Nat} (h : selector addr = 0xE0) : windowFault addr = none := by
  simp only [windowFault, h]

/-- A prefetch that fetches nothing here. -/
def droppedAccess : Access := { loc := .remote 0 0, len := 1, strong := false, cattr := 1, pageW := false, pageSeal := 0 }

/-- The address stands at this package: in window 0x00, or in window 0xE0 under the package's own number. -/
def AtHome (k : Ctx) (addr : Nat) : Prop := selector addr = 0x00 ∨ (selector addr = 0xE0 ∧ domPkg addr = k.s.domain.pkg)

section
variable {k : Ctx} {addr level : Nat}

theorem AtHome.test (h : AtHome k addr) : (selector addr != 0 && domPkg addr != k.s.domain.pkg) = false := by
  obtain h | ⟨-, h⟩ := h <;> simp [h]

/-- A page of this package that may be read and held gives the line to fetch. -/
theorem prefOp_fetch {acc : Access} {s' : State} (h : AtHome k addr) (hp : prefAccess k.s k.th addr level = some (acc, s')) :
    prefOp k addr level = (.prefetch acc level, s') := by
  simp only [prefOp, h.test, hp, Bool.false_eq_true, if_false]

theorem prefOp_drop (h : AtHome k addr) (hp : prefAccess k.s k.th addr level = none) :
    prefOp k addr level = (.prefetch droppedAccess level, k.s) := by
  simp only [prefOp, h.test, hp, Bool.false_eq_true, if_false]
  rfl

/-- The prefetch of a line of another package, with the request it makes. -/
def remotePrefetch (k : Ctx) (addr level : Nat) : FlightOp × State :=
  let off := domOff addr / 128 * 128
  (.prefetch { droppedAccess with loc := .remote (domPkg addr) off, len := 128 } level,
    (openRemote k.s (.prefetch k.t k.th.gen k.th.seq level) k.th.sealId (domPkg addr) off 128 k.th.pts [] none false).2)

theorem prefOp_away (hs : selector addr = 0xE0) (hp : domPkg addr ≠ k.s.domain.pkg) : prefOp k addr level =
    if memberPackage k.s (domPkg addr) then remotePrefetch k addr level else (.prefetch droppedAccess level, k.s) := by
  have away : (selector addr != 0 && domPkg addr != k.s.domain.pkg) = true := by simp [hs, hp]
  rw [prefOp, if_pos away]
  rfl

/-- A PREF of an address that its windows name issues a prefetch on ec1. -/
theorem runs_pref {pre : Ctx → Prop} {op : Ctx → FlightOp × State} (sw : Bool) (a : BitVec 6) (z : BitVec 3) (x : Bool)
    (named : ∀ k, pre k → windowFault (k.addrM a) = none ∧ (selector (k.addrM a) = 0x00 ∨ selector (k.addrM a) = 0xE0))
    (hop : ∀ k, pre k → prefOp k (k.addrM a) z.toNat = op k) : Runs (.pref sw a z x) [⟨a.toNat, 2, x⟩] pre
      (fun k => { st := (op k).2, launch := some { ec := 1, dests := [], op := (op k).1 } }) := by
  refine runs_of (fun _ => rfl) fun k h => ?_
  obtain ⟨hw, hsel⟩ := named k h
  have window : (!(selector (k.addrM a) == 0x00 || selector (k.addrM a) == 0xE0)) = false := by simpa [or_iff_not_imp_left] using hsel
  simp only [hw, window, Bool.false_eq_true, if_false, hop k h]

end

/-! ### Pins (R214, R215) -/

/-- A pinned line's entry is of window 0x00. -/
theorem selector_of_pinEntry {k : Ctx} {addr : Nat} {e : TlbEntry} (h : pinEntry k addr = .ok e) : selector addr = 0 := by
  unfold pinEntry at h
  split at h
  · cases h
  · split at h
    · cases h
    · next hs => simpa using hs

/-- In window 0x00 the trap of a refused access names the reason and the address. -/
theorem accessViolation_ram {r addr : Nat} {iw : Word} (h : selector addr = 0) : accessViolation r addr iw =
    .trap 0x11 (wordN (r * 2 ^ 8)) (wordN (addr % 2 ^ 32)) (wordN (addr / 2 ^ 32 % 2 ^ 32)) iw := by
  rw [selector] at h
  simp only [accessViolation, h]
  simp only [causeAccess, loW, hiW, Nat.add_zero, Nat.reducePow]

theorem tagVictims_eq (s : State) (p : Nat) (ls : List Nat) : tagVictims s p ls = { s with cores := (tagVictims s p ls).cores } := by
  unfold tagVictims
  split <;> rfl

theorem threads_putCopy (s : State) (c : Copy) : (putCopy s c).threads = s.threads :=
  (congrArg State.threads (tagVictims_eq s _ _)).trans rfl

theorem mem_putCopy (s : State) (c : Copy) : (putCopy s c).mem = s.mem := congrArg Prod.fst (mems_putCopy s c)

theorem self_mem_putCopy (s : State) (c : Copy) : c ∈ (putCopy s c).lines.copies := List.mem_cons_self

/-- PIN at a station of a line that caches may hold takes a copy of it there. -/
theorem pinLine_station (s : State) (k : Ctx) (l : Nat) :
    (∃ c ∈ (pinLine s k 0 l 0).lines.copies, c.place = 320 + stationOf (coreOf s k.th) ∧ c.line = l
        ∧ c.data = s.mem.readBytes (128 * l) 128)
      ∧ (pinLine s k 0 l 0).mem = s.mem ∧ (pinLine s k 0 l 0).threads = s.threads := by
  let s₀ := sliceVisit (met s (.glob (128 * l)) 128) l
  let s₁ := homeLoad s₀ l k.th.pts (core s₀ (coreOf s k.th)).lease
  let c : Copy := { place := 320 + stationOf (coreOf s k.th), line := l, data := Memory.readBytes s₁.mem (128 * l) 128,
                    wts := wtsOf s₁ l, rts := rtsOf s₁ l, expiry := s₁.aclk + 64 * (core s₁ (coreOf s k.th)).lease }
  have pinned : pinLine s k 0 l 0 = putCopy s₁ c := rfl
  have looked : Looked s s₁ := ((Looked.met s _ _).trans (.sliceVisit _ l)).trans (.homeLoad ..)
  rw [pinned, mem_putCopy, threads_putCopy]
  exact ⟨⟨c, self_mem_putCopy s₁ c, rfl, rfl, congrArg (·.readBytes (128 * l) 128) looked.mem⟩, looked.mem, looked.threads⟩

/-! ### Walks (R181, R182) -/

theorem Looked.noteWalk (s : State) (sealId va : Nat) : Looked s (noteWalk s sealId va) :=
  .foldl (fun s _ => (Looked.noteRead s _ _).trans (.sliceVisit _ _)) _ s

theorem setAccessed_eq (s : State) (e pa : Nat) :
    setAccessed s e pa = { s with mem := (setAccessed s e pa).mem, lines := (setAccessed s e pa).lines } := by
  unfold setAccessed
  split
  · rfl
  · have stored := OnLines.storeAt (a := ⟨.glob pa, 8, true, 0, true, 0⟩) s (leBytes 8 (e + 2 ^ 5)) 0 0 rfl
    generalize (storeAt s ⟨.glob pa, 8, true, 0, true, 0⟩ (leBytes 8 (e + 2 ^ 5)) 0 0).2 = s' at *
    rw [stored.mem]
    exact stored

theorem stations_setAccessed (s : State) (e pa : Nat) : (setAccessed s e pa).stations = s.stations :=
  (congrArg State.stations (setAccessed_eq s e pa)).trans rfl

/-- A thread that waits no longer. -/
def Thread.goOn (th : Thread) : Thread := { th with wait := .ready }

/-- A walk that found a leaf lets each of its threads go on. -/
theorem wakeWalk_leaf (ths : List (Nat × Nat × Nat)) (s : State) :
    wakeWalk s ths none none = ths.foldl (fun s p => modThread s p.1 Thread.goOn) s := by
  refine congrArg (fun f => ths.foldl f s) (funext₂ fun s p => ?_)
  cases ht : thread? s p.1 with
  | none => exact (modThread_none _ ht).symm
  | some th => rfl

theorem thread_foldl_goOn (ths : List (Nat × Nat × Nat)) (s : State) (u : Nat) :
    thread? (ths.foldl (fun s p => modThread s p.1 Thread.goOn) s) u =
      (thread? s u).map (fun th => if u ∈ ths.map (·.1) then th.goOn else th) := by
  induction ths generalizing s with
  | nil => simp
  | cons p ths ih =>
    rw [List.foldl_cons, ih, thread_modThread]
    by_cases hu : u = p.1
    · rw [if_pos hu, Option.map_map]
      refine congrArg (Option.map · _) (funext fun th => ?_)
      simp [hu, Thread.goOn]
    · rw [if_neg hu]
      simp only [List.map_cons, List.mem_cons, hu, false_or]

theorem stations_foldl_goOn (ths : List (Nat × Nat × Nat)) (s : State) :
    (ths.foldl (fun s p => modThread s p.1 Thread.goOn) s).stations = s.stations :=
  List.foldlRecOn (motive := fun s' : State => s'.stations = s.stations) ths _ rfl fun _ h _ _ => h

theorem lostEntries_congr {s s' : State} (h : s'.errors.quarantined = s.errors.quarantined) (code i : Nat) :
    lostEntries s' code i = lostEntries s code i := by
  rw [lostEntries, h, lostEntries]

theorem station_congr {s s' : State} (h : s'.stations = s.stations) (i : Nat) : station s' i = station s i :=
  congrArg (kgetD · i ({} : Station)) h

/-- The walk leaves its station. -/
def endWalk (s : State) (st : Nat) (w : Walk) : State :=
  modStation s st (fun x => { x with walks := x.walks.filter (fun v => v.id != w.id) })

/-- The entry a walk's leaf gives the station's TLB. -/
def Walk.entry (w : Walk) (level e : Nat) : TlbEntry :=
  { sealId := w.sealId, level := level, page := w.va / 2 ^ levelLo level, entry := e }

section
variable {s : State} {st level e pa : Nat} {w : Walk}

theorem walkComplete_leaf (hs : w.stale = false) (hw : walkTables s w.sealId w.va = .leaf level e pa) :
    walkComplete s st w = w.threads.foldl (fun s p => modThread s p.1 Thread.goOn)
      (tlbInsert (setAccessed (endWalk (noteWalk s w.sealId w.va) st w) e pa) st (w.entry level e)) := by
  rw [← wakeWalk_leaf]
  simp only [walkComplete, hw, hs, Bool.false_eq_true, if_false]
  rfl

/-- A walk that ends at a leaf enters it at its station, leaves it, and lets its threads go on. -/
theorem execPageWalkComplete_leaf {walk : Nat} (hf : (station s st).walks.find? (fun v => v.id == walk) = some w)
    (hs : w.stale = false) (hw : walkTables s w.sealId w.va = .leaf level e pa) (room : lostEntries s 0x12 st < 4096) :
    ∃ s', exec (.pageWalkComplete st walk) s = .next s' ∧ w.entry level e ∈ (station s' st).tlb
      ∧ (∀ v ∈ (station s' st).walks, v.id ≠ w.id)
      ∧ ∀ u, thread? s' u = (thread? s u).map (fun th => if u ∈ w.threads.map (·.1) then th.goOn else th) := by
  have run : exec (.pageWalkComplete st walk) s = .next (walkComplete s st w) := by
    show Host.Outcome.next _ = _
    simp only [hf]
  rw [walkComplete_leaf hs hw] at run
  have looked : Looked s (noteWalk s w.sealId w.va) := .noteWalk ..
  generalize noteWalk s w.sealId w.va = s₀ at run looked
  have marked := setAccessed_eq (endWalk s₀ st w) e pa
  have ended : station (setAccessed (endWalk s₀ st w) e pa) st =
      { station s₀ st with walks := (station s₀ st).walks.filter (fun v => v.id != w.id) } :=
    (station_congr (stations_setAccessed ..) st).trans (station_modStation s₀ st _)
  have threads : (setAccessed (endWalk s₀ st w) e pa).threads = s.threads := (congrArg State.threads marked).trans looked.threads
  have lost : lostEntries (setAccessed (endWalk s₀ st w) e pa) 0x12 st = lostEntries s 0x12 st :=
    lostEntries_congr ((congrArg (·.errors.quarantined) marked).trans looked.quarantined) _ _
  clear marked
  generalize setAccessed (endWalk s₀ st w) e pa = s₁ at *
  have entered : station (w.threads.foldl (fun s p => modThread s p.1 Thread.goOn) (tlbInsert s₁ st (w.entry level e))) st =
      { station s₁ st with tlb := (w.entry level e :: (station s₁ st).tlb).take (4096 - lostEntries s₁ 0x12 st) } :=
    (station_congr (stations_foldl_goOn ..) st).trans (station_modStation s₁ st _)
  refine ⟨_, run, ?entry, ?gone, fun u => ?threads⟩
  case entry =>
    obtain ⟨n, hn⟩ := Nat.exists_eq_succ_of_ne_zero (Nat.sub_ne_zero_of_lt (lost ▸ room))
    rw [entered, hn]
    exact List.mem_cons_self
  case gone =>
    rw [entered, ended]
    intro v hv
    simpa using (List.mem_filter.1 hv).2
  case threads =>
    have same : thread? (tlbInsert s₁ st (w.entry level e)) u = thread? s u := congrArg (kget? · u) threads
    rw [thread_foldl_goOn, same]

end

/-! ### Leases and logical time (R194, R195) -/

section
variable {s : State} {place line : Nat} {cp : Copy}

/-- A copy that has expired, or that nothing pins, is dropped; one that leaves early leaves its tag (R82). -/
theorem execLeaseExpiry_drops (h : s.lines.copies.find? (fun c => c.place == place && c.line == line) = some cp)
    (hd : cp.expiry ≤ s.aclk ∨ pinnedAt s place line = false) : ∃ cs, exec (.leaseExpiry place line) s =
      .next { modLines s (fun x => { x with copies := x.copies.filter (fun c => !(c.place == place && c.line == line)) }) with
        cores := cs } := by
  have dropped : (pinnedAt s place line && decide (s.aclk < cp.expiry)) = false := by
    obtain h | h := hd
    · rw [decide_eq_false (Nat.not_lt.2 h), Bool.and_false]
    · rw [h, Bool.false_and]
  show ∃ cs, Host.Outcome.next _ = _
  simp only [h, dropped, Bool.false_eq_true, if_false]
  split
  · exact ⟨_, congrArg _ (tagVictims_eq ..)⟩
  · exact ⟨s.cores, rfl⟩

theorem execLeaseExpiry_keeps (h : s.lines.copies.find? (fun c => c.place == place && c.line == line) = some cp)
    (early : s.aclk < cp.expiry) (pinned : pinnedAt s place line = true) : exec (.leaseExpiry place line) s = .next s := by
  show Host.Outcome.next _ = _
  simp only [h, pinned, early, decide_true, Bool.and_self, if_true]

end

section
variable {s : State} {t : Nat} {th : Thread}

theorem execPtsSelfAdvance_due (ht : thread? s t = some th) (he : th.evicted = false) (hd : th.selfAt + 64 ≤ s.aclk) :
    exec (.ptsSelfAdvance t) s = .next (setThread s t { th with pts := th.pts + 1, selfAt := th.selfAt + 64 }) := by
  show Host.Outcome.next _ = _
  simp only [ht, he, Nat.not_lt.2 hd, decide_false, Bool.or_self, Bool.false_eq_true, if_false]

theorem execPtsSelfAdvance_early (ht : thread? s t = some th) (hd : s.aclk < th.selfAt + 64) :
    exec (.ptsSelfAdvance t) s = .next s := by
  show Host.Outcome.next _ = _
  simp only [ht, hd, decide_true, Bool.or_true, if_true]

end

/-- Settles O34: each word by its entry under the conditions that choose its outcome, and each event by the condition it reads. -/
theorem fencesPinsAndMemoryEvents : Obligations.FencesPinsAndMemoryEvents := by
  refine ⟨⟨?fencew, fun th f g => mayPerform_fenced, ?fence, ?fenceWaits, fun s t th cmd => registered_last⟩, ?lines, ?walk,
    ?expired, fun s place line cp => execLeaseExpiry_keeps, fun s t th => execPtsSelfAdvance_due,
    fun s t th => execPtsSelfAdvance_early⟩
  case fencew => exact fun sw => runs_of (fun _ => rfl) fun _ _ => rfl
  case fence => exact fun sw => runs_of (fun _ => rfl) fun k h => by simp only [h, List.isEmpty_nil, if_true]
  case fenceWaits =>
    exact fun sw => runs_of (fun _ => rfl) fun k h => by simp only [mt List.isEmpty_iff.1 h, Bool.false_eq_true, if_false]
  case lines =>
    intro answer nothing here away st pin may denied
    refine ⟨?fetch, ?drop, ?request, ?pins, pinLine_station, ?full, ?pinned, ?denied, ?unpinnable, ?unpins, ?foreign, ?absent⟩
    case fetch =>
      intro sw a z x acc s'
      refine runs_pref sw a z x (op := fun _ => (.prefetch acc z.toNat, s')) ?_ ?_
      · exact fun k ⟨⟨hw, hs⟩, _⟩ => ⟨hw, hs.imp_right And.left⟩
      · exact fun k ⟨⟨_, hs⟩, hp⟩ => prefOp_fetch hs hp
    case drop =>
      intro sw a z x
      refine runs_pref sw a z x (op := fun k => (.prefetch droppedAccess z.toNat, k.s)) ?_ ?_
      · rintro k (⟨⟨hw, hs⟩, _⟩ | ⟨hs, _⟩)
        · exact ⟨hw, hs.imp_right And.left⟩
        · exact ⟨windowFault_domain hs, .inr hs⟩
      · rintro k (⟨⟨_, hs⟩, hp⟩ | ⟨hs, hp, hm⟩)
        · exact prefOp_drop hs hp
        · exact (prefOp_away hs hp).trans (if_neg (Bool.eq_false_iff.1 hm))
    case request =>
      intro sw a z x
      refine runs_pref sw a z x (op := fun k => remotePrefetch k (k.addrM a) z.toNat) ?_ ?_
      · exact fun k ⟨hs, _⟩ => ⟨windowFault_domain hs, .inr hs⟩
      · exact fun k ⟨hs, hp, hm⟩ => (prefOp_away hs hp).trans (if_pos hm)
    case pins =>
      refine fun sw t a z x e => runs_of (fun _ => rfl) fun k h => ?_
      obtain ⟨he, ⟨hr, hok⟩, hp, hf⟩ := h
      simp only [pin, st] at hp hf
      simp only [he, hr, hok, hp, hf, Bool.not_true, Bool.false_eq_true, if_false]
      rfl
    case full =>
      refine fun sw t a z x e => runs_of (fun _ => rfl) fun k h => ?_
      obtain ⟨he, ⟨hr, hok⟩, hp, hf⟩ := h
      simp only [pin, st] at hp hf
      simp only [he, hr, hok, hp, hf, Bool.not_true, Bool.false_eq_true, if_false, if_true]
      rfl
    case pinned =>
      refine fun sw t a z x e p => runs_of (fun _ => rfl) fun k h => ?_
      obtain ⟨he, ⟨hr, hok⟩, hp⟩ := h
      simp only [pin, st] at hp
      simp only [he, hr, hok, hp, Bool.not_true, Bool.false_eq_true, if_false, beq_iff_eq]
      rfl
    case denied =>
      refine fun sw t a z x e r => traps_of (fun _ => rfl) fun k h => ?_
      obtain ⟨he, hr⟩ := h
      simp only [he, hr, accessViolation_ram (selector_of_pinEntry he)]
      rfl
    case unpinnable =>
      refine fun sw t a z x e => traps_of (fun _ => rfl) fun k h => ?_
      obtain ⟨he, hr, hok⟩ := h
      simp only [he, hr, hok, accessViolation_ram (selector_of_pinEntry he), Bool.not_false, if_true]
      rfl
    case unpins =>
      refine fun sw t a z x e p => runs_of (fun _ => rfl) fun k h => ?_
      obtain ⟨he, hp, hown⟩ := h
      simp only [pin, st] at hp
      simp only [he, hp, hown, bne_self_eq_false, Bool.false_eq_true, if_false]
      rfl
    case foreign =>
      refine fun sw t a z x e p => runs_of (fun _ => rfl) fun k h => ?_
      obtain ⟨he, hp, hown⟩ := h
      simp only [pin, st] at hp
      simp only [he, hp, bne_iff_ne, hown, ne_eq, not_false_eq_true, if_true]
      rfl
    case absent =>
      refine fun sw t a z x e => runs_of (fun _ => rfl) fun k h => ?_
      obtain ⟨he, hp⟩ := h
      simp only [pin, st] at hp
      simp only [he, hp]
      rfl
  case walk =>
    intro s st walk w level e pa hf hs hw room
    obtain ⟨s', run, entered, gone, woken⟩ := execPageWalkComplete_leaf hf hs hw room
    refine ⟨s', run, entered, gone, fun _ x hx th ht => ?_⟩
    rw [woken, ht, Option.map_some, if_pos (List.mem_map_of_mem hx)]
    rfl
  case expired =>
    intro s place line cp h hd
    obtain ⟨cs, run⟩ := execLeaseExpiry_drops h hd
    exact ⟨_, run, rfl, rfl, fun c => List.mem_filter.trans (and_congr_right fun _ => by simp [imp_iff_not_or])⟩

end Sys2Proof.Machine
end

section
/-!
What a reply into a context record leaves (R77, R257, R417), and the team barriers (R235 to R238).
-/
namespace Sys2Proof.Machine
set_option Elab.async false

/-! ### What a reply into a record leaves -/

/-- The states differ in LPDDR and its lines alone. -/
def OnRecords (s s' : State) : Prop := s' = { s with mem := s'.mem, lines := s'.lines }

section
variable {s s' s'' : State}

theorem OnRecords.refl (s : State) : OnRecords s s := rfl

theorem OnRecords.trans (h : OnRecords s s') (h' : OnRecords s' s'') : OnRecords s s'' :=
  Eq.trans h' (congrArg (fun x : State => { x with mem := s''.mem, lines := s''.lines }) h)

theorem OnRecords.threads (h : OnRecords s s') : s'.threads = s.threads := (congrArg State.threads h).trans rfl
theorem OnRecords.teams (h : OnRecords s s') : s'.teams = s.teams := (congrArg State.teams h).trans rfl
theorem OnRecords.queues (h : OnRecords s s') : s'.queues = s.queues := (congrArg State.queues h).trans rfl

theorem OnRecords.storeAt {a : Access} {pa : Nat} (bs : List Byte) (pts x : Nat) (hl : a.loc = .glob pa) :
    OnRecords s (storeAt s a bs pts x).2 := by
  have stored := OnLines.storeAt s bs pts x hl
  rw [hl] at stored
  generalize (Machine.storeAt s a bs pts x).2 = s' at *
  rw [OnRecords, stored.mem]
  exact stored

theorem loc_of_mem_lines {a b : Access} {pa : Nat} (hl : a.loc = .glob pa) (hb : b ∈ a.lines) : ∃ p, b.loc = .glob p := by
  rw [Access.lines, hl] at hb
  obtain ⟨p, -, rfl⟩ := List.mem_map.1 hb
  exact ⟨p.1, rfl⟩

theorem OnRecords.storeDevice (s : State) (pa pts sealId : Nat) (bs : List Byte) : OnRecords s (storeDevice s pa pts sealId bs) := by
  refine List.foldlRecOn (motive := fun r : List Byte × Nat × State => OnRecords s r.2.2) _ _ (.refl s) fun r h b hb => ?_
  obtain ⟨a, ha, hb⟩ := List.mem_flatMap.1 hb
  obtain rfl := List.mem_singleton.1 ha
  obtain ⟨p, hl⟩ := loc_of_mem_lines rfl hb
  exact h.trans (.storeAt _ _ _ hl)

theorem OnRecords.replyToRecord (s : State) (t : Nat) (dests : List Nat) : OnRecords s (replyToRecord s t dests) := by
  unfold Machine.replyToRecord
  split
  · exact .refl s
  · split
    · exact .refl s
    · exact List.foldlRecOn (motive := OnRecords s) _ _ (.refl s) fun _ h _ _ => h.trans (.storeDevice ..)

end

@[simp] theorem teams_replyToRecord (s : State) (t : Nat) (ds : List Nat) : (replyToRecord s t ds).teams = s.teams :=
  (OnRecords.replyToRecord s t ds).teams

@[simp] theorem queues_replyToRecord (s : State) (t : Nat) (ds : List Nat) : (replyToRecord s t ds).queues = s.queues :=
  (OnRecords.replyToRecord s t ds).queues

@[simp] theorem team_replyToRecord (s : State) (t : Nat) (ds : List Nat) (i : Nat) :
    team? (replyToRecord s t ds) i = team? s i := congrArg (kget? · i) (teams_replyToRecord s t ds)

@[simp] theorem thread_replyToRecord (s : State) (t : Nat) (ds : List Nat) (u : Nat) :
    thread? (replyToRecord s t ds) u = thread? s u := congrArg (kget? · u) (OnRecords.replyToRecord s t ds).threads

theorem team_modTeam_same {s : State} {i : Nat} {tm : Team} (f : Team → Team) (h : team? s i = some tm) :
    team? (modTeam s i f) i = some (f tm) := kget_kmod_same f h

/-! ### A full generation -/

/-- A team at whose barrier `id` thread `t` has arrived under the mask `roles`, at logical time `pts` (R236). -/
def Team.arrive (tm : Team) (id roles t pts : Nat) : Team :=
  { tm with barriers := kset tm.barriers id { tm.barrier id with
      arrived := (tm.barrier id).arrived ++ [t], mask := some (tm.maskOf roles), pts := max (tm.barrier id).pts pts } }

theorem barrierArrive_eq (s : State) (t : Nat) (th : Thread) (id roles : Nat) :
    barrierArrive s t th id roles = barrierCheck (modTeam s th.team (·.arrive id roles t th.pts)) th.team id := rfl

theorem Team.barrier_arrive (tm : Team) (id roles t pts : Nat) : (tm.arrive id roles t pts).barrier id =
    { tm.barrier id with
      arrived := (tm.barrier id).arrived ++ [t], mask := some (tm.maskOf roles), pts := max (tm.barrier id).pts pts } := by
  rw [barrier, arrive, kgetD_kset, if_pos rfl]

/-- A full generation advances, and those who wait for it are woken at the largest logical time brought. -/
theorem barrierCheck_full {s : State} {tmid id : Nat} {tm : Team} (htm : team? s tmid = some tm)
    (full : barrierFull s tmid (tm.barrier id) = true) : ∃ s₁, s₁.threads = s.threads ∧ barrierCheck s tmid id =
      wakeBarrier s₁ tmid id (((tm.barrier id).gen + 1) % 2 ^ 32) (max (tm.barrier id).pts (tm.barrier id).donePts) := by
  rw [barrierCheck, htm]
  dsimp only
  rw [if_pos full]
  exact ⟨modTeam s tmid _, rfl, rfl⟩

/-- A wake of a barrier lets each thread go on whose generation has passed. -/
theorem thread_wakeBarrier {s : State} {tmid id gen pts t : Nat} {h : Thread} (hr : risingFrom 0 s.threads = true)
    (ht : thread? s t = some h) (hp : h.barrierPassed tmid id gen = true) :
    thread? (wakeBarrier s tmid id gen pts) t = some (h.wake.takePts pts) := by
  have waiting : (t, h) ∈ s.threads.filter (fun p => p.2.barrierPassed tmid id gen) := List.mem_filter.2 ⟨mem_of_kget ht, hp⟩
  have distinct : ((s.threads.filter (fun p => p.2.barrierPassed tmid id gen)).map (·.1)).Nodup :=
    (nodup_keys_of_rising hr).sublist (List.filter_sublist.map _)
  have woken := foldl_view_of_mem (V := thread?) (step := fun _ => Option.map (fun th => th.wake.takePts pts))
    (g := fun s p => replyToRecord (modThread s p.1 (fun th => th.wake.takePts pts)) p.1 [])
    (fun s p u hu => by rw [thread_replyToRecord, thread_modThread, if_neg hu])
    (fun s p => by rw [thread_replyToRecord, thread_modThread, if_pos rfl]) distinct waiting s
  exact woken.trans (congrArg _ ht)

/-- Where no thread is listed twice, the last arrival lets a thread that waits at BAR go on, with the largest logical time the
generation brought (R238). -/
theorem thread_barrierArrive_last {s : State} {t id roles : Nat} {th h : Thread} {tm : Team} (hr : risingFrom 0 s.threads = true)
    (htm : team? s th.team = some tm) (ht : thread? s t = some h) (hteam : h.team = th.team)
    (hw : h.wait = .barrier id (tm.barrier id).gen)
    (full : (teamThreads s th.team).all
      (fun p => !(tm.maskOf roles).testBit p.2.role || ((tm.barrier id).arrived ++ [t]).contains p.1) = true) :
    thread? (barrierArrive s t th id roles) t =
      some (h.wake.takePts (max (max (tm.barrier id).pts th.pts) (tm.barrier id).donePts)) := by
  have arrived := team_modTeam_same (·.arrive id roles t th.pts) htm
  obtain ⟨s₁, same, run⟩ := barrierCheck_full (id := id) arrived (by rw [Team.barrier_arrive]; exact full)
  have passed : h.barrierPassed th.team id (((tm.barrier id).gen + 1) % 2 ^ 32) = true := by
    have moved : (tm.barrier id).gen ≠ ((tm.barrier id).gen + 1) % 2 ^ 32 := by omega
    simpa [Thread.barrierPassed, hteam, hw] using moved
  rw [barrierArrive_eq, run, Team.barrier_arrive]
  exact thread_wakeBarrier (same ▸ hr) ((congrArg (kget? · t) same).trans ht) passed

/-! ### A thread listed twice -/

/-- Thread 5 of team 2 waits at barrier 0 for its first generation; it parks when it goes on, as register 0 is pending. -/
def parkingWaiter : Thread := { probeThread 2 0 with wait := .barrier 0 0, parkAfter := true, pend := [0] }

/-- The waiter is listed twice: the numbers of the threads do not rise. -/
def listedTwice : State :=
  { threads := [(5, parkingWaiter), (5, parkingWaiter)]
    teams := [(2, { grid := 0, index := 0, x := 0, y := 0, z := 0, core := 0, cluster := 0, sealId := 0, groups := 1, nthreads := 1
                    spord := 0, base := 0, tiles := 0, quad := false, privKb := 0, handle := none, roles := [0], buffers := []
                    arrivals := [] })] }

/-- The second of the two wakes takes the thread out of its park. -/
theorem wait_listedTwice : (thread? (barrierArrive listedTwice 5 parkingWaiter 0 7) 5).map (·.wait) = some .ready := by
  decide +kernel

/-- Refutes O35: a wake goes through the listed threads, and the last clause does not ask that their numbers rise. In
`listedTwice` the waiter is woken twice, and the second wake lets it go on where the first has parked it. Where the numbers rise
the clause holds (`thread_barrierArrive_last`). -/
theorem not_teamBarriers : ¬ Obligations.TeamBarriers := by
  unfold Obligations.TeamBarriers
  rintro ⟨-, last⟩
  have parked := last listedTwice 5 parkingWaiter parkingWaiter _ 0 7 rfl rfl rfl rfl (by decide)
  have went := wait_listedTwice
  rw [parked] at went
  exact absurd went (by decide)

end Sys2Proof.Machine
end

section
/-!
Arrival words: their four fields in the scratchpad, additions to them, and the words that arm, count, await and read them
(R239 to R246).
-/
namespace Sys2Proof.Machine
set_option Elab.async false

/-! ### The four fields -/

theorem Memory.readBytes_add (m : Memory) (a p q : Nat) : m.readBytes a (p + q) = m.readBytes a p ++ m.readBytes (a + p) q := by
  induction p generalizing a with
  | zero => rw [Nat.zero_add]; rfl
  | succ p ih =>
    rw [Nat.succ_add]
    show m.read a :: m.readBytes (a + 1) (p + q) = m.read a :: (m.readBytes (a + 1) p ++ m.readBytes (a + (p + 1)) q)
    rw [ih, Nat.add_right_comm, Nat.add_assoc]

theorem leNat_lt (bs : List Byte) : leNat bs < 2 ^ (8 * bs.length) := by
  induction bs with
  | nil => decide
  | cons b bs ih =>
    have low := b.isLt
    rw [leNat, List.length_cons, Nat.mul_succ, pow_add]
    omega

/-- Each field of the word fits its four bytes. -/
def ArrWord.fits (w : ArrWord) : Prop := w.target < 2 ^ 32 ∧ w.count < 2 ^ 32 ∧ w.gen < 2 ^ 32 ∧ w.flags < 2 ^ 32

theorem fits_arrRead (tm : Team) (off : Nat) : (arrRead tm off).fits := by
  have field (i : Nat) : leNat (Memory.readBytes tm.spad (off + 4 * i) 4) < 2 ^ 32 := by
    have := leNat_lt (Memory.readBytes tm.spad (off + 4 * i) 4)
    rwa [Memory.length_readBytes] at this
  exact ⟨field 0, field 1, field 2, field 3⟩

/-- The word's bytes, in the order of R239. -/
def ArrWord.bytes (w : ArrWord) : List Byte := leBytes 4 w.target ++ leBytes 4 w.count ++ leBytes 4 w.gen ++ leBytes 4 w.flags

theorem ArrWord.length_bytes (w : ArrWord) : w.bytes.length = 16 := by simp [bytes, length_leBytes]

theorem spad_arrWrite (tm : Team) (off : Nat) (w : ArrWord) : (arrWrite tm off w).spad = Memory.writeBytes tm.spad off w.bytes := rfl

theorem arrRead_congr {tm tm' : Team} (h : tm'.spad = tm.spad) (off : Nat) : arrRead tm' off = arrRead tm off := by
  simp only [arrRead, h]

theorem readBytes_arrWrite {tm : Team} (h : tm.spad.wf = true) (off : Nat) (w : ArrWord) :
    Memory.readBytes (arrWrite tm off w).spad off 16 = w.bytes := by
  rw [spad_arrWrite, ← w.length_bytes]
  exact Memory.readBytes_writeBytes w.bytes off h

/-- A word that was written reads back. -/
theorem arrRead_arrWrite {tm : Team} (h : tm.spad.wf = true) (off : Nat) {w : ArrWord} (hw : w.fits) :
    arrRead (arrWrite tm off w) off = w := by
  obtain ⟨htarget, hcount, hgen, hflags⟩ := hw
  have bytes := readBytes_arrWrite h off w
  rw [show 16 = 4 + 4 + 4 + 4 from rfl, Memory.readBytes_add, Memory.readBytes_add, Memory.readBytes_add, ArrWord.bytes] at bytes
  have len (a v : Nat) : (Memory.readBytes (arrWrite tm off w).spad a 4).length = (leBytes 4 v).length := by
    rw [Memory.length_readBytes, length_leBytes]
  obtain ⟨bytes, flags⟩ := List.append_inj' bytes (len ..)
  obtain ⟨bytes, gen⟩ := List.append_inj' bytes (len ..)
  obtain ⟨target, count⟩ := List.append_inj' bytes (len ..)
  simp only [arrRead, Nat.mul_zero, Nat.add_zero, Nat.mul_one, Nat.reduceMul, Nat.reduceAdd] at *
  rw [target, count, gen, flags, leNat_leBytes, leNat_leBytes, leNat_leBytes, leNat_leBytes, Nat.mod_eq_of_lt htarget,
    Nat.mod_eq_of_lt hcount, Nat.mod_eq_of_lt hgen, Nat.mod_eq_of_lt hflags]

/-! ### Arming -/

theorem teams_met (s : State) (l : Loc) (n : Nat) : (met s l n).teams = s.teams :=
  (congrArg State.teams (Looked.met s l n).eq).trans rfl

theorem team_met (s : State) (l : Loc) (n i : Nat) : team? (met s l n) i = team? s i := congrArg (kget? · i) (teams_met s l n)

/-- ARM puts the word's bytes at its place (R243). -/
theorem spad_armWord {s : State} {tmid : Nat} {tm : Team} (t off : Nat) (w : ArrWord) (htm : team? s tmid = some tm) :
    (team? (armWord s t tmid off w) tmid).map (·.spad) = some (arrWrite tm off w).spad := by
  have stands (f : Thread → Thread) : team? (modThread (met s (.spad tmid off) 16) t f) tmid = some tm := (team_met ..).trans htm
  exact congrArg _ (team_modTeam_same _ (team_modTeam_same (fun tm => arrWrite tm off w) (stands _)))

theorem armStep_busy {w : ArrWord} (h : w.count ≠ 0) (target tid : Nat) : armStep w false target tid = (1, w) := by
  simp [armStep, h]

theorem armStep_arms {w : ArrWord} (h : w.count = 0) (target tid : Nat) : armStep w false target tid =
    (0, { w with target := target, flags := (w.flags &&& 0xFC00FFFC) + 1 + tid * 2 ^ 16 }) := by
  simp [armStep, h]

/-- The flags ARM leaves: ARMED is 1 and ARMTID is its thread, for no bit of either was kept. -/
theorem armedFlags (flags : Nat) {tid : Nat} (ht : tid < 2 ^ 10) :
    ((flags &&& 0xFC00FFFC) + 1 + tid * 2 ^ 16).testBit 0 = true ∧ fld ((flags &&& 0xFC00FFFC) + 1 + tid * 2 ^ 16) 16 10 = tid := by
  have noFlags : (flags &&& 0xFC00FFFC) % 2 ^ 2 = 0 := Nat.and_mod_two_pow.trans (Nat.and_zero _)
  have noTid : (flags &&& 0xFC00FFFC) % 2 ^ 26 ≤ 0xFFFC := Nat.and_mod_two_pow.trans_le Nat.and_le_right
  rw [Nat.testBit_zero, fld, decide_eq_true_eq]
  omega

/-! ### Additions -/

/-- The word that an addition of `n` leaves (R240). -/
def ArrWord.plus (w : ArrWord) (n : Nat) : ArrWord :=
  if !w.armed then { w with count := (w.count + n) % 2 ^ 32 }
  else if w.target ≤ w.count + n then
    { w with flags := if w.target < w.count + n then w.flags ||| 2 else w.flags, gen := (w.gen + 1) % 2 ^ 32, count := 0 }
  else { w with count := w.count + n }

theorem teams_wakeArrival (s : State) (tmid off gen pts : Nat) : (wakeArrival s tmid off gen pts).teams = s.teams := by
  refine List.foldlRecOn (motive := fun s' : State => s'.teams = s.teams) _ _ rfl fun s' h p _ => ?_
  split
  · rw [teams_replyToRecord]
    exact h
  · exact h

/-- A completion writes the word's next generation, and no other byte of the scratchpad. -/
theorem spad_arrComplete {s : State} {tmid : Nat} {tm₀ : Team} (h : team? s tmid = some tm₀) (tm : Team) (a : Arrival) (w : ArrWord)
    (pts : Nat) : (team? (arrComplete s tmid tm a w pts) tmid).map (·.spad) =
      some (arrWrite tm₀ a.off { w with gen := (w.gen + 1) % 2 ^ 32, count := 0 }).spad := by
  have woken (s : State) (gen p : Nat) : team? (wakeArrival s tmid a.off gen p) tmid = team? s tmid :=
    congrArg (kget? · tmid) (teams_wakeArrival ..)
  rw [arrComplete, woken, team_modTeam_same _ h]
  rfl

/-- An addition writes the word that R240 leaves, and no other byte of the scratchpad. -/
theorem spad_arrivalAdd {s : State} {tmid off : Nat} {tm : Team} {a : Arrival} (htm : team? s tmid = some tm)
    (ha : tm.arrivals.find? (fun a => a.off == off) = some a) (n pts : Nat) :
    (team? (arrivalAdd s tmid off n pts) tmid).map (·.spad) = some (arrWrite tm off ((arrRead tm off).plus n)).spad := by
  have stands : team? (met s (.spad tmid off) 16) tmid = some tm := (team_met ..).trans htm
  obtain rfl : a.off = off := beq_iff_eq.1 (List.find?_some (p := fun a : Arrival => a.off == off) ha)
  rw [arrivalAdd, htm]
  simp only [ha]
  generalize met s (.spad tmid a.off) 16 = s₀ at *
  generalize arrRead tm a.off = w
  by_cases armed : w.armed = true
  case neg =>
    simp only [ArrWord.plus, armed, Bool.not_false, if_true]
    exact congrArg _ (team_modTeam_same _ stands)
  simp only [ArrWord.plus, armed, Bool.not_true, Bool.false_eq_true, if_false, decide_eq_true_eq]
  obtain below | reached | exceeded := Nat.lt_trichotomy (w.count + n) w.target
  case inl =>
    simp only [Nat.not_le.2 below, Nat.lt_asymm below, if_false]
    exact congrArg _ (team_modTeam_same _ stands)
  case inr.inl =>
    simp only [reached, Nat.le_refl, Nat.lt_irrefl, if_true, if_false]
    exact spad_arrComplete stands ..
  case inr.inr =>
    simp only [exceeded, exceeded.le, if_true]
    cases threadOfTid _ tmid w.armTid <;> exact spad_arrComplete stands ..

section
variable {w : ArrWord} {n : Nat}

theorem plus_below (hsum : w.count + n < 2 ^ 32) (h : w.armed = false ∨ w.count + n < w.target) :
    w.plus n = { w with count := w.count + n } := by
  obtain h | h := h
  · simp only [ArrWord.plus, h, Bool.not_false, if_true, Nat.mod_eq_of_lt hsum]
  · simp only [ArrWord.plus, Nat.mod_eq_of_lt hsum, Nat.not_le.2 h, if_false, ite_self]

theorem plus_reached (h : w.armed = true) (hn : w.count + n = w.target) :
    w.plus n = { w with count := 0, gen := (w.gen + 1) % 2 ^ 32 } := by
  simp only [ArrWord.plus, h, hn, Bool.not_true, Bool.false_eq_true, if_false, Nat.le_refl, Nat.lt_irrefl, if_true]

theorem plus_exceeded (h : w.armed = true) (hn : w.target < w.count + n) :
    w.plus n = { w with count := 0, gen := (w.gen + 1) % 2 ^ 32, flags := w.flags ||| 2 } := by
  simp only [ArrWord.plus, h, hn, hn.le, Bool.not_true, Bool.false_eq_true, if_false, if_true]

/-- What an addition leaves fits its bytes. -/
theorem fits_plus (hw : w.fits) (hsum : w.count + n < 2 ^ 32) : (w.plus n).fits := by
  obtain ⟨htarget, hcount, hgen, hflags⟩ := hw
  have next : (w.gen + 1) % 2 ^ 32 < 2 ^ 32 := Nat.mod_lt _ (by decide)
  have marked : w.flags ||| 2 < 2 ^ 32 := Nat.or_lt_two_pow hflags (by decide)
  by_cases below : w.armed = false ∨ w.count + n < w.target
  · rw [plus_below hsum below]
    exact ⟨htarget, hsum, hgen, hflags⟩
  · rw [not_or, Bool.not_eq_false, Nat.not_lt] at below
    obtain ⟨armed, reached⟩ := below
    obtain reached | exceeded := reached.eq_or_lt
    · rw [plus_reached armed reached.symm]
      exact ⟨htarget, Nat.two_pow_pos 32, next, hflags⟩
    · rw [plus_exceeded armed exceeded]
      exact ⟨htarget, Nat.two_pow_pos 32, next, marked⟩

end

/-- An addition that does not pass 2^32 leaves the word of R240 in its place and every other byte as it was. -/
theorem arrivalAdd_leaves {s : State} {tmid off : Nat} {tm : Team} {a : Arrival} (htm : team? s tmid = some tm)
    (ha : tm.arrivals.find? (fun a => a.off == off) = some a) {n : Nat} (pts : Nat) (hsum : (arrRead tm off).count + n < 2 ^ 32)
    (hwf : tm.spad.wf = true) : ∃ tm', team? (arrivalAdd s tmid off n pts) tmid = some tm'
      ∧ arrRead tm' off = (arrRead tm off).plus n ∧ ∀ o, o < off ∨ off + 16 ≤ o → tm'.spad.read o = tm.spad.read o := by
  obtain ⟨tm', stands, spad⟩ := Option.map_eq_some_iff.1 (spad_arrivalAdd htm ha n pts)
  refine ⟨tm', stands, (arrRead_congr spad off).trans (arrRead_arrWrite hwf off (fits_plus (fits_arrRead tm off) hsum)), fun o ho => ?_⟩
  rw [spad, spad_arrWrite]
  exact Memory.read_writeBytes_out _ _ _ _ (by rwa [ArrWord.length_bytes])

/-- Settles O36: each word by its entry, and each byte that an update leaves by the four fields it writes. -/
theorem arrivals : Obligations.Arrivals := by
  refine ⟨⟨?arm, ?disarm, ?bytes, fun w target tid h => armStep_busy h target tid, ?armed, ?arrv, ?none, ?waits, ?passed, ?early,
    ?arread⟩, ?add⟩
  case arm =>
    refine fun sw d a b x y id tm w s' => runs_of (fun _ => rfl) fun k ⟨hb, hw, hp⟩ => ?_
    simp only [Ctx.g, Ctx.g64, beq_eq_false_iff_ne.2 hb, hw, hp]
    rfl
  case disarm =>
    refine fun sw d a b x y id tm w s' => runs_of (fun _ => rfl) fun k ⟨hw, hp⟩ => ?_
    simp only [Ctx.g64, hw, hp]
    rfl
  case bytes =>
    intro s t tmid off w tm htm _ hwf
    obtain ⟨tm', stands, spad⟩ := Option.map_eq_some_iff.1 (spad_armWord t off w htm)
    rw [stands]
    exact congrArg some ((congrArg (·.readBytes off 16) spad).trans (readBytes_arrWrite hwf off w))
  case armed =>
    intro w target tid h ht _
    rw [armStep_arms h]
    exact ⟨rfl, rfl, (armedFlags w.flags ht).1, (armedFlags w.flags ht).2, rfl⟩
  case arrv =>
    refine fun sw a b x y id tm w s' => runs_of (fun _ => rfl) fun k ⟨hb, hw, hp⟩ => ?_
    simp only [Ctx.g, Ctx.g64, hw, hp, Except.bind, beq_eq_false_iff_ne.2 hb]
    rfl
  case none =>
    refine fun sw a b x y id tm w s' => runs_of (fun _ => rfl) fun k ⟨hb, hw, hp⟩ => ?_
    simp only [Ctx.g, Ctx.g64, hw, hp, Except.bind, hb]
    rfl
  case waits =>
    refine fun sw d a b x y id tm w s' => runs_of (fun _ => rfl) fun k ⟨hw, hg, hp⟩ => ?_
    simp only [Ctx.g, Ctx.g64, hw, hp, hg, beq_self_eq_true, if_true]
    rfl
  case passed =>
    refine fun sw d a b x y id tm w s' => runs_of (fun _ => rfl) fun k ⟨hw, hg, hpast, hp⟩ => ?_
    simp only [Ctx.g, Ctx.g64, hw, hp, beq_eq_false_iff_ne.2 hg, hpast, Bool.false_eq_true, if_false, if_true]
    rfl
  case early =>
    refine fun sw d a b x y id tm w => runs_of (fun _ => rfl) fun k ⟨hw, hg, hpast⟩ => ?_
    simp only [Ctx.g, Ctx.g64, hw, beq_eq_false_iff_ne.2 hg, hpast, Bool.false_eq_true, if_false]
  case arread =>
    refine fun sw d a x id tm w s' => runs_of (fun _ => rfl) fun k ⟨hw, hp⟩ => ?_
    simp only [Ctx.g64, hw, hp]
    rfl
  case add =>
    intro s tmid tm off n pts a htm ha hsum _ hwf w
    obtain ⟨tm', stands, word, others⟩ := arrivalAdd_leaves htm ha pts hsum hwf
    refine ⟨tm', stands, fun h => ?_, fun _ h => ?_, fun h hn => ?_, fun h hn => ?_, others⟩
    · exact word.trans (plus_below hsum (.inl h))
    · exact word.trans (plus_below hsum (.inr h))
    · exact word.trans (plus_reached h hn)
    · rw [word, plus_exceeded h hn]
      exact ⟨rfl, rfl, (Nat.testBit_or ..).trans (Bool.or_true _)⟩

end Sys2Proof.Machine
end

section
/-!
Cluster queues, the work distributor, and the buffer states that threads set (R247 to R255).
-/
namespace Sys2Proof.Machine
set_option Elab.async false

/-! ### Queues (R247 to R250) -/

theorem entryWords_eq (e : DWord) : entryWords e = [e.setWidth 32, (e >>> 32).setWidth 32] := by
  have low : loW e.toNat = e.setWidth 32 := BitVec.eq_of_toNat_eq (by simp [loW, wordN])
  have high : hiW e.toNat = (e >>> 32).setWidth 32 :=
    BitVec.eq_of_toNat_eq (by simp [hiW, wordN, Nat.shiftRight_eq_div_pow])
  rw [entryWords, low, high]

/-- What a pop without a waiter in front of it gives: the first entry with its logical time, and the queue left. -/
theorem pop_unwaited {q : Queue} {e : DWord} {es : List DWord} (hw : q.waiters = []) (he : q.entries = e :: es) :
    (if q.waiters.isEmpty then q.pop else none) = some (e, q.pts.head?.getD 0, { q with entries := es, pts := q.pts.drop 1 }) := by
  simp only [hw, List.isEmpty_nil, if_true, Queue.pop, he]

/-- Behind a waiter, or at an empty queue, a pop gives nothing. -/
theorem pop_none {q : Queue} (h : q.waiters ≠ [] ∨ q.entries = []) : (if q.waiters.isEmpty then q.pop else none) = none := by
  obtain h | h := h
  · rw [if_neg (mt List.isEmpty_iff.1 h)]
  · simp only [Queue.pop, h, ite_self]

section
variable {k : Ctx} {h : Word}

/-- A handle below 512 has no bit that must be zero. -/
theorem fld_handle (hlt : h.toNat < 512) : fld h.toNat 9 23 = 0 :=
  (congrArg (· % 2 ^ 23) (Nat.div_eq_of_lt hlt)).trans (Nat.zero_mod _)

theorem queueFor_bound (hlt : h.toNat < 512) (he : (queueOf k.s h.toNat).en = true)
    (hs : (queueOf k.s h.toNat).sealId = k.th.sealId) : queueFor k h = .ok (queueOf k.s h.toNat) := by
  simp [queueFor, fld_handle hlt, he, hs]

theorem queueFor_foreign (hlt : h.toNat < 512)
    (hq : (queueOf k.s h.toNat).en = false ∨ (queueOf k.s h.toNat).sealId ≠ k.th.sealId) :
    queueFor k h = .error (.trap 0x11 0x500 h 0 k.iw) := by
  have refused : (!(queueOf k.s h.toNat).en || (queueOf k.s h.toNat).sealId != k.th.sealId) = true := by simpa using hq
  simp only [queueFor, fld_handle hlt, bne_self_eq_false, Bool.false_eq_true, if_false, refused, if_true]
  rfl

end

theorem queueOf_setQueue (s : State) (h : Nat) (q : Queue) : queueOf (setQueue s h q) h = q := by
  rw [queueOf, setQueue, kgetD_kset, if_pos rfl]

/-- An entry given to a waiter moves no queue. -/
theorem queueOf_grantEntry (s : State) (t : Nat) (e : DWord) (pts h : Nat) : queueOf (grantEntry s t e pts) h = queueOf s h := by
  unfold grantEntry
  split
  · rw [queueOf, queues_replyToRecord]
    rfl
  · rfl

theorem queuePush_unwaited {s : State} {h : Nat} (hw : (queueOf s h).waiters = []) (e : DWord) (pts : Nat) :
    (queueOf (queuePush s h e pts) h).entries = (queueOf s h).entries ++ [e] := by
  simp only [queuePush, hw, queueOf_setQueue]

theorem queuePush_waited {s : State} {h t : Nat} {ws : List Nat} (hw : (queueOf s h).waiters = t :: ws) (e : DWord) (pts : Nat) :
    queueOf (queuePush s h e pts) h = { queueOf s h with waiters := ws } := by
  simp only [queuePush, hw, queueOf_grantEntry, queueOf_setQueue]

/-! ### The distributor (R251 to R253) -/

/-- The number of chunks counts the begun ones: chunk `c` exists where its first item lies in the range. -/
theorem chunks_le_iff {r : LaunchRecord} {c : Nat} (hd : r.dchunk ≠ 0) : r.chunks ≤ c ↔ r.dend ≤ r.dbegin + c * r.dchunk := by
  have pos := Nat.pos_of_ne_zero hd
  by_cases empty : r.dend ≤ r.dbegin
  · have none : r.chunks = 0 := by simp [LaunchRecord.chunks, empty]
    rw [none]
    exact iff_of_true (Nat.zero_le c) (empty.trans (Nat.le_add_right ..))
  · have count : r.chunks = ceilDiv (r.dend - r.dbegin) r.dchunk := by simp [LaunchRecord.chunks, empty, hd]
    rw [count, ceilDiv, ← Nat.lt_succ_iff, Nat.div_lt_iff_lt_mul pos, Nat.succ_mul]
    omega

section
variable {r : LaunchRecord} {c : Nat}

theorem chunkAnswer_ascending (ho : r.dorder ≠ 1) (hc : r.dbegin + c * r.dchunk < r.dend) (hd : r.dchunk ≠ 0) :
    chunkAnswer r c = min r.dchunk (r.dend - (r.dbegin + c * r.dchunk)) * 2 ^ 32 + (r.dbegin + c * r.dchunk) := by
  rw [chunkAnswer, if_neg (mt (chunks_le_iff hd).1 (Nat.not_le.2 hc)), if_neg (mt beq_iff_eq.1 ho)]

theorem chunkAnswer_descending (ho : r.dorder = 1) (hc : r.dbegin + c * r.dchunk < r.dend) (hd : r.dchunk ≠ 0) :
    chunkAnswer r c = min r.dchunk (r.dend - r.dbegin - c * r.dchunk) * 2 ^ 32 + (r.dend - 1 - c * r.dchunk) := by
  have left : r.dend - 1 - c * r.dchunk - r.dbegin + 1 = r.dend - r.dbegin - c * r.dchunk := by omega
  rw [chunkAnswer, if_neg (mt (chunks_le_iff hd).1 (Nat.not_le.2 hc)), if_pos (beq_iff_eq.2 ho)]
  dsimp only
  rw [left]

theorem chunkAnswer_end (hc : r.dend ≤ r.dbegin + c * r.dchunk) : chunkAnswer r c = 2 ^ 63 + r.dend := by
  refine if_pos ?_
  by_cases hd : r.dchunk = 0
  · simp [LaunchRecord.chunks, hd]
  · exact (chunks_le_iff hd).2 hc

end

/-- A shared order's request takes the next chunk of the grid. -/
theorem nextAnswer_shared {s : State} {tmid : Nat} {tm : Team} {g : Grid} (htm : team? s tmid = some tm)
    (hg : grid? s tm.grid = some g) (ho : g.lr.dorder ≠ 2) : nextAnswer s tmid =
      (chunkAnswer g.lr g.chunk, modGrid s tm.grid (fun g => { g with chunk := Nat.min (g.chunk + 1) g.lr.chunks })) := by
  simp only [nextAnswer, htm, hg, beq_eq_false_iff_ne.2 ho, Bool.false_eq_true, if_false]

/-- A stored answer stands in its slot, and its counter falls. -/
theorem execDistributorAnswerStore_stores {s : State} {t seq : Nat} {th : Thread} {f : Flight} {tm : Team} {tmid off : Nat}
    {bs : List Byte} (hf : flight? s t seq = some (th, f)) (hop : f.op = .answer tmid off bs) (htm : team? s tmid = some tm) :
    ∃ s' tm', exec (.distributorAnswerStore t seq) s = .next s' ∧ team? s' tmid = some tm'
      ∧ tm'.spad = Memory.writeBytes tm.spad off bs ∧ thread? s' t = some (th.retire f) := by
  have run : exec (.distributorAnswerStore t seq) s =
      .next (replyToRecord (modThread (poke s (.spad tmid off) bs) t (fun th => th.retire f)) t []) := by
    show Host.Outcome.next _ = _
    simp only [hf, hop]
  refine ⟨_, _, run, (team_replyToRecord ..).trans (team_modTeam_same _ htm), rfl, ?_⟩
  rw [thread_replyToRecord, thread_modThread, if_pos rfl]
  exact congrArg _ (flight_eq_some.1 hf).1

/-- Settles O37: each queue word by who waits and what the queue holds, each answer by the chunk's place in the range, and each
buffer word by the declared buffer it names. -/
theorem queuesDistributorsAndBuffers : Obligations.QueuesDistributorsAndBuffers := by
  refine ⟨⟨?full, ?push, ?pop, ?wait, ?takes, ?takesNone, ?len, fun k h => queueFor_bound, fun k h => queueFor_foreign,
    fun s h e pts hw => queuePush_unwaited hw e pts, ?granted⟩, ⟨?dist, ?distSp, ?stored, fun r c => chunkAnswer_ascending,
    fun r c => chunkAnswer_descending, fun r c => chunkAnswer_end, ?next⟩, ?sbset, rfl, rfl, rfl, rfl, fun t => ⟨rfl, rfl⟩, ?sbqry⟩
  case full =>
    refine fun sw d a b x y q => runs_of (fun _ => rfl) fun k ⟨hq, hn⟩ => ?_
    simp only [Ctx.g, hq, hn, if_true]
    rfl
  case push =>
    refine fun sw d a b x y q s' => runs_of (fun _ => rfl) fun k ⟨hq, hn, hp⟩ => ?_
    simp only [Ctx.g, hq, Nat.not_le.2 hn, if_false, hp]
    rfl
  case pop =>
    refine fun sw d a x q e es s' => runs_of (fun _ => rfl) fun k ⟨hq, hw, he, hp⟩ => ?_
    simp only [Ctx.g, hq, hp, Except.bind, pop_unwaited hw he, entryWords_eq]
    rfl
  case wait =>
    refine fun sw d a x q s' => runs_of (fun _ => rfl) fun k ⟨hq, hn, hp⟩ => ?_
    simp only [Ctx.g, hq, hp, Except.bind, pop_none hn]
    rfl
  case takes =>
    refine fun sw d a x q e es s' => runs_of (fun _ => rfl) fun k ⟨hq, hw, he, hp⟩ => ?_
    simp only [Ctx.g, hq, pop_unwaited hw he, hp, entryWords_eq]
    rfl
  case takesNone =>
    refine fun sw d a x q => runs_of (fun _ => rfl) fun k ⟨hq, hn⟩ => ?_
    simp only [Ctx.g, hq, pop_none hn]
    rfl
  case len =>
    refine fun sw d a x q => runs_of (fun _ => rfl) fun k hq => ?_
    simp only [Ctx.g, hq]
    rfl
  case granted =>
    intro s h e pts t ws hw
    rw [queuePush_waited hw]
    exact ⟨rfl, rfl⟩
  case dist => exact fun sw d a x => runs_of (fun _ => rfl) fun k _ => rfl
  case distSp =>
    refine fun sw d a x acc tm off hl => runs_of (fun _ => rfl) fun k hc => ?_
    simp only [if_true, Ctx.g64, hc, hl]
  case stored =>
    intro s t seq th f tm tmid off bs hf hop htm hwf
    obtain ⟨s', tm', run, stands, spad, retired⟩ := execDistributorAnswerStore_stores hf hop htm
    have bytes := Memory.readBytes_writeBytes bs off hwf
    refine ⟨s', tm', run, stands, ?_⟩
    rw [spad, retired]
    refine ⟨Memory.read_of_readBytes bytes, fun o => Memory.read_writeBytes_out bs _ _ o, fun hec => congrArg some ?_⟩
    exact (th.counter_lower f.ec f.ec).trans (if_pos ⟨rfl, hec⟩)
  case next =>
    intro s tmid tm g htm hg ho
    rw [nextAnswer_shared htm hg ho]
    exact ⟨rfl, congrArg _ (kget_kmod_same _ hg)⟩
  case sbset =>
    refine fun sw d a i x b s' => runs_of (fun _ => rfl) fun k ⟨hb, hp⟩ => ?_
    simp only [Ctx.g64, hb, hp]
    rfl
  case sbqry =>
    refine fun sw d a x b => runs_of (fun _ => rfl) fun k hb => ?_
    simp only [Ctx.g64, hb]
    rfl

end Sys2Proof.Machine
end

section
/-!
Feed contexts: the words that start, stop and read them, and the access-slice words they run (R285 to R291).
-/
namespace Sys2Proof.Machine
set_option Elab.async false

/-- The context `x` of core `c` runs a word: it is in a running state, reads at no other package and skips no loop. -/
structure RunsFeed (s : State) (c x : Nat) (f : Feed) : Prop where
  current : s.curFeed = some (c, x)
  stands : kget? s.feeds (8 * c + x) = some f
  running : f.running = true
  here : f.remote = none
  unskipped : f.skip = 0

section
variable {s : State} {c x : Nat} {f : Feed}

/-- An access-slice word that runs does what its body says. -/
theorem RunsFeed.feedIssue {loopWord : Bool} {body : State → Nat → Nat → Feed → State} {s' : State} (h : RunsFeed s c x f)
    (hb : body s c (8 * c + x) f = s') : feedIssue loopWord body s = .next s' := by
  obtain ⟨current, stands, running, here, unskipped⟩ := h
  simp [Machine.feedIssue, feedKey, current, stands, running, here, unskipped, hb]

/-- What a change does to the context that stands is all that counts. -/
theorem modFeed_congr {k : Nat} {g g' : Feed → Feed} (h : kget? s.feeds k = some f) (hg : g f = g' f) :
    modFeed s k g = modFeed s k g' := by
  rw [modFeed, modFeed, kmod_eq g h, kmod_eq g' h, hg]

/-- The team's tile with a row written. -/
def putRow (s : State) (f : Feed) (n row : Nat) (bs : List Byte) : State :=
  modTeam s f.team (fun tm => tm.setTile f.gid n (Memory.writeBytes (tm.tile f.gid n) (128 * row) bs))

theorem writeRow_open {tm : Team} {n row : Nat} {bs : List Byte} (h : (openFill tm f n).isSome = true) :
    writeRow s f tm n row bs = putRow s f n row bs := by
  obtain ⟨fill, opened⟩ := Option.isSome_iff_exists.1 h
  simp only [writeRow, opened]
  rfl

theorem writeRow_opens {tm : Team} {n row : Nat} {bs : List Byte} (h : (openFill tm f n).isSome = false) :
    writeRow s f tm n row bs = putRow (modTeam (fresh s).2 f.team
      (fun tm => { tm with openFills := tm.openFills ++ [⟨f.id, f.gid, n, (fresh s).1⟩] })) f n row bs := by
  have unopened : openFill tm f n = none := Option.isNone_iff_eq_none.1 (Option.isSome_eq_false_iff.1 h)
  simp only [writeRow, unopened]
  rfl

end

/-- Settles O39: each instruction by its entry, each access-slice word by the state of the context that runs it. -/
theorem feedContexts : Obligations.FeedContexts := by
  refine ⟨⟨?starts, ?noFree, ?illegal, ?stops, ?foreign, ?unheld, ?stat, ?statForeign, ?statIllegal⟩, ?words⟩
  case starts =>
    refine fun sw d a x acc s' tm n => runs_of (fun _ => rfl) fun k ⟨hc, hp, ht, hg, hz, hf⟩ => ?_
    simp only [fdstartBody, Ctx.g64, hc, hp, Except.bind, ht, Nat.not_le.2 hg, hz, hf]
    rfl
  case noFree =>
    refine fun sw d a x acc s' tm => runs_of (fun _ => rfl) fun k ⟨hc, hp, ht, hg, hz, hf⟩ => ?_
    simp only [fdstartBody, Ctx.g64, hc, hp, Except.bind, ht, Nat.not_le.2 hg, hz, hf]
    rfl
  case illegal =>
    refine fun sw d a x acc s' tm => traps_of (fun _ => rfl) fun k ⟨hc, hp, ht, hbad⟩ => ?_
    have refused : (decide (tm.groups ≤ bfld (peek s' acc.loc 64) 56 1) || bfld (peek s' acc.loc 64) 57 7 != 0) = true := by
      simpa using hbad
    simp only [fdstartBody, Ctx.g64, hc, hp, Except.bind, ht, refused, if_true]
    rfl
  case stops =>
    refine fun sw d c f => runs_of (fun _ => rfl) fun k ⟨hf, ht, hr, hm⟩ => ?_
    simp only [feedKey, hf, ht, hr, hm, bne_self_eq_false]
    rfl
  case foreign =>
    refine fun sw d c f => runs_of (fun _ => rfl) fun k ⟨hf, ht⟩ => ?_
    simp only [feedKey, hf, bne_iff_ne.2 ht, if_true]
    rfl
  case unheld =>
    refine fun sw d c => runs_of (fun _ => rfl) fun k hf => ?_
    simp only [feedKey, hf]
    rfl
  case stat =>
    refine fun sw d a x f => runs_of (fun _ => rfl) fun k ⟨hv, hf, ht⟩ => ?_
    simp only [Ctx.g, feedKey, Nat.not_le.2 hv, hf, ht, bne_self_eq_false, beq_iff_eq]
    rfl
  case statForeign =>
    refine fun sw d a x f => runs_of (fun _ => rfl) fun k ⟨hv, hf, ht⟩ => ?_
    simp only [Ctx.g, feedKey, Nat.not_le.2 hv, hf, bne_iff_ne.2 ht, if_true]
    rfl
  case statIllegal =>
    refine fun sw d a x => traps_of (fun _ => rfl) fun k hv => ?_
    simp only [Ctx.g, hv, if_true]
    rfl
  case words =>
    intro at_ put count
    have here {s c x f} (h : at_ s c x f) : RunsFeed s c x f := ⟨h.1, h.2.1, h.2.2.1, h.2.2.2.1, h.2.2.2.2⟩
    have counted src p n f : (if src == 0 then n.toNat else nthD f.prms p.toNat 0) = count src p n f := by
      simp only [count, beq_iff_eq]
    refine ⟨?loop, ?skips, ?deep, ?again, ?leaves, ?unopened, ?stride, ?push, ?full, ?row, ?fill, ?ungranted, ?permit, ?buffer,
      ?sync, ?releases, ?stop⟩
    case loop =>
      intro src p n s c x f h room pos
      refine ((here h).feedIssue ?_ : execFloop src p n s = _)
      simp only [(here h).unskipped, Nat.not_le.2 room, counted, beq_eq_false_iff_ne.2 pos]
      exact modFeed_congr (here h).stands rfl
    case skips =>
      intro src p n s c x f h room none
      refine ((here h).feedIssue ?_ : execFloop src p n s = _)
      simp only [(here h).unskipped, Nat.not_le.2 room, counted, none]
      rfl
    case deep =>
      intro src p n s c x f h deep
      refine ((here h).feedIssue ?_ : execFloop src p n s = _)
      simp only [(here h).unskipped, deep, if_true]
      rfl
    case again =>
      intro s c x f l ls h hl more
      refine ((here h).feedIssue ?_ : execFend s = _)
      simp only [(here h).unskipped, hl, more, if_true]
      rfl
    case leaves =>
      intro s c x f l ls h hl done
      refine ((here h).feedIssue ?_ : execFend s = _)
      simp only [(here h).unskipped, hl, Nat.not_lt.2 done, if_false]
      rfl
    case unopened =>
      intro s c x f h hl
      refine ((here h).feedIssue ?_ : execFend s = _)
      simp only [(here h).unskipped, hl]
      rfl
    case stride => exact fun st l sc w s c x f h => ((here h).feedIssue rfl : execFaddr st l sc w s = _)
    case push =>
      intro st q z e n s c x f tm bs s' h ht room hread
      refine ((here h).feedIssue ?_ : execFpush st q z e n s = _)
      simp only [ht, room, hread]
      rfl
    case full =>
      intro st q z e n s c x f tm h ht room
      refine ((here h).feedIssue ?_ : execFpush st q z e n s = _)
      simp only [ht, room]
      rfl
    case row =>
      intro st t r s c x f tm bs s' h ht granted hfree hread
      refine ((here h).feedIssue ?_ : execFpushk st t r s = _)
      simp only [ht, Nat.not_le.2 granted, hfree, hread]
      rfl
    case fill => exact fun s f tm n row bs => ⟨writeRow_open, writeRow_opens⟩
    case ungranted =>
      intro st t r s c x f tm h ht granted
      refine ((here h).feedIssue ?_ : execFpushk st t r s = _)
      simp only [ht, granted, if_true]
      rfl
    case permit =>
      intro q n s c x f tm h ht own others
      refine ((here h).feedIssue ?_ : execFpermitQueue q n s = _)
      simp only [ht]
      rfl
    case buffer =>
      intro b s c x f tm y h ht hb
      refine ((here h).feedIssue ?_ : execFpermitBuffer b s = _)
      simp only [ht, Option.bind_some, hb, put]
      split <;> rfl
    case sync =>
      intro r b s c x f h hn
      have kept : (r && f.reads.contains (f.team, b.toNat)) = false := by
        rwa [Bool.and_eq_false_iff, ← Bool.not_eq_true (List.contains _ _), List.contains_iff_mem]
      refine ((here h).feedIssue ?_ : execFsync r b s = _)
      simp only [kept]
      rfl
    case releases =>
      intro b s c x f h hm
      refine ((here h).feedIssue ?_ : execFsync true b s = _)
      simp only [Bool.true_and, List.contains_iff_mem.2 hm, if_true]
      rfl
    case stop => exact fun s c x f h => ((here h).feedIssue rfl : execFstop s = _)

end Sys2Proof.Machine
end

section
/-!
Copy commands: the words that enter, query and end them, and the steps that take them to their end (R260 to R281).
-/
namespace Sys2Proof.Machine
set_option Elab.async false

/-! ### Words -/

/-- Words that are held where `pre` holds: one lemma from their entries. -/
theorem holds_of {i : Instr} {srcs : List Src} {body : Ctx → Except Stop Eff} {pre : Ctx → Prop} {st : Ctx → State}
    (hx : ∀ s, exec i s = issue i srcs body s) (hb : ∀ k, pre k → body k = .error (.held (st k))) : Holds i srcs pre st := by
  intro s t th hp hpre
  obtain ⟨hcur, ht⟩ := passes_cur hp
  have open_ := gate_of_passes hp
  have held := hb _ hpre
  simp only [entryCtx] at open_ held ⊢
  simp only [hx, issue, hcur, ht, issueAt, open_, held, stopped]

/-- A command whose entries and engine have room enters under its number. -/
theorem enterCopy_room {k : Ctx} {s : State} {c : CopyCmd} (id ec : Nat)
    (hl : (core s c.core).locks.length + (c.entries.filter (fun e => entryCore s c e == some c.core)).length ≤ 32)
    (hr : engineRoom s c.engine = true) : enterCopy k s id c ec = .ok
      { st := modThread ((c.entries.filter (fun e => entryCore s c e == some c.core)).foldl (fun s e => takeEntry s c.core e)
          { s with copies := kset s.copies id { c with accepted := id } }) k.t (fun th => { th with unreg := th.unreg ++ [id] })
        launch := some { ec := ec, dests := [], op := .unit id } } := by
  simp only [enterCopy, Nat.not_lt.2 hl, hr]
  rfl

/-- What a record that may stand keeps to (R265). -/
theorem recordOk_fields {opc : Nat} {r : CopyRec} (h : recordOk opc r = true) :
    fld r.ctrl 28 4 = 0 ∧ r.cursor = 0 ∧ r.ec ≠ 6 ∧ (r.mcast ≠ 0 ↔ opc = 0x282) := by
  simp only [recordOk, Bool.and_eq_true, beq_iff_eq, bne_iff_ne] at h
  obtain ⟨⟨⟨⟨⟨⟨⟨status, cursor⟩, -⟩, -⟩, ec⟩, -⟩, mcast⟩, -⟩ := h
  refine ⟨status, cursor, ec, ?_⟩
  rw [← bne_iff_ne, mcast, beq_iff_eq]

theorem engineRoom_iff {s : State} {e : Nat} : engineRoom s e = true ↔
    (s.copies.filter (fun p => p.2.engine == e && !p.2.stopped)).length
      + (s.errors.quarantined.filter (fun q => q.1 == 0x0B && q.2.1 == e / 2 && q.2.2 / 64 == e % 2)).length < 64 :=
  decide_eq_true_iff

section
variable {k : Ctx} {addr : Nat}

theorem recordOf_foreign (hw : windowFault addr = none) (hs : selector addr ≠ 0xF0) :
    recordOf k addr = .error (accessViolation 3 addr k.iw) := by
  simp only [recordOf, hw, bne_iff_ne.2 hs, if_true]

theorem recordOf_misaligned (hw : windowFault addr = none) (hs : selector addr = 0xF0) (ha : addr % 32 ≠ 0) :
    recordOf k addr = .error (misaligned addr 32 k.iw) := by
  simp only [recordOf, hw, hs, bne_self_eq_false, bne_iff_ne.2 ha, if_true, Bool.false_eq_true, if_false]

end

/-- A record that touches a declared buffer or arrival word, or is live already, is illegal (R265, step 2). -/
theorem copyBody_placed {k : Ctx} {opc off : Nat} {tm : Team} {a : BitVec 6} (hr : recordOf k (k.th.reg64 a.toNat) = .ok (off, tm))
    (h : touchesDeclared tm off 32 = true ∨ (copyAt k.s k.th.team off).isSome = true) :
    copyBody opc a k = .error (k.illegal 3) := by
  simp only [copyBody, Ctx.g64, hr, Bool.or_eq_true, h, if_true]

/-- So is one with a field that is not legal (R265, step 3). -/
theorem copyBody_fields {k : Ctx} {s' : State} {opc off : Nat} {tm : Team} {a : BitVec 6}
    (hr : recordOf k (k.th.reg64 a.toNat) = .ok (off, tm)) (hd : touchesDeclared tm off 32 = false)
    (hl : copyAt k.s k.th.team off = none) (hp : k.publish = .ok s')
    (hf : recordOk opc (parseCopy (peek s' (.spad k.th.team off) 32)) = false) : copyBody opc a k = .error (k.illegal 3) := by
  simp only [copyBody, Ctx.g64, hr, hd, hl, Option.isSome_none, Bool.or_self, Bool.false_eq_true, if_false, hp, Except.bind, hf,
    Bool.not_false, if_true]
  split <;> rfl

/-- A word whose record, endpoints and places are legal enters its command. -/
theorem copyBody_enters {k : Ctx} {s' : State} {opc off : Nat} {tm : Team} {a : BitVec 6} {sh : CopyShape} {r : CopyRec} {c : CopyCmd}
    (hrec : parseCopy (peek s' (.spad k.th.team off) 32) = r)
    (hr : recordOf k (k.th.reg64 a.toNat) = .ok (off, tm)) (hd : touchesDeclared tm off 32 = false)
    (hl : copyAt k.s k.th.team off = none) (hp : k.publish = .ok s') (hs : shapeOf opc r.shape = some sh)
    (hf : recordOk opc r = true) (hm : makeCopy k (fresh (met s' (.spad k.th.team off) 32)).2 opc off tm r sh
      (fresh (met s' (.spad k.th.team off) 32)).1 = .ok c) :
    copyBody opc a k = enterCopy k (fresh (met s' (.spad k.th.team off) 32)).2 (fresh (met s' (.spad k.th.team off) 32)).1 c r.ec := by
  simp only [copyBody, Ctx.g64, hr, hd, hl, Option.isSome_none, Bool.or_self, Bool.false_eq_true, if_false, hp, Except.bind, hrec, hs,
    hf, Bool.not_true, hm]

/-! ### CPYX and the window -/

/-- While the thread of a CPYX stands at that word the command starts no burst (R280). -/
theorem mayStart_cancelled {s : State} {c : CopyCmd} {t : Nat} {th : Thread} (hc : c.cancel = some (t, th.pc, th.word))
    (ht : thread? s t = some th) (he : th.evicted = false) : mayStart s c = false := by
  have waits : cancelling s c = true := by simp [cancelling, hc, ht, he]
  simp [mayStart, waits]

theorem settled_iff {c : CopyCmd} : c.settled = true ↔ ∀ b ∈ c.flying, b.remote = none ∧ b.begun = false := by
  simp [CopyCmd.settled]

/-! ### Range locks (R275) -/

theorem mem_missingEntries {s : State} {c : CopyCmd} {e : RangeLock} : e ∈ missingEntries s c ↔ e ∈ c.entries
    ∧ (∀ t, e.team = some t → team? s t ≠ none) ∧ ∀ p ∈ s.cores, ∀ l ∈ p.2.locks, l.2 ≠ e := by
  have live : (e.team.isNone || (team? s (e.team.getD 0)).isSome) = true ↔ ∀ t, e.team = some t → team? s t ≠ none := by
    cases e.team <;> simp [Option.isSome_iff_ne_none]
  have absent : (!entryStands s e) = true ↔ ∀ p ∈ s.cores, ∀ l ∈ p.2.locks, l.2 ≠ e := by
    simp only [entryStands, Bool.not_eq_true', List.any_eq_false, beq_iff_eq, ne_eq, Bool.not_eq_true]
  rw [missingEntries, List.mem_filter, Bool.and_eq_true, live, absent]

theorem freeEntry_eq_some {k : Core} {i : Nat} (h : freeEntry k = some i) :
    i < 32 ∧ kget? k.locks i = none ∧ ∀ j < i, kget? k.locks j ≠ none := by
  obtain ⟨free, member, least⟩ := List.find?_range_eq_some.1 h
  refine ⟨List.mem_range.1 member, Option.isNone_iff_eq_none.1 free, fun j hj => ?_⟩
  simpa [Option.isSome_iff_ne_none] using least j hj

theorem takeEntry_free {s : State} {c i : Nat} (h : freeEntry (core s c) = some i) (e : RangeLock) :
    takeEntry s c e = modCore s c (fun k => { k with locks := kset k.locks i e }) := by
  simp only [takeEntry, h]

theorem takeEntry_full {s : State} {c : Nat} (h : freeEntry (core s c) = none) (e : RangeLock) : takeEntry s c e = s := by
  simp only [takeEntry, h]

/-- The states differ in the cores alone. -/
def OnCores (s s' : State) : Prop := s' = { s with cores := s'.cores }

theorem OnCores.modCore {s s' : State} (h : OnCores s s') (c : Nat) (f : Core → Core) : OnCores s (modCore s' c f) :=
  (congrArg (Machine.modCore · c f) h).trans rfl

theorem OnCores.takeEntry {s s' : State} (h : OnCores s s') (c : Nat) (e : RangeLock) : OnCores s (takeEntry s' c e) := by
  unfold Machine.takeEntry
  split
  · exact h
  · exact h.modCore ..

theorem OnCores.takeEntries (s : State) (c : CopyCmd) (k : Nat) : OnCores s (takeEntries s c k) :=
  List.foldlRecOn (motive := OnCores s) _ _ rfl fun _ h e _ => h.takeEntry k e

/-- A full table takes none. -/
theorem takeEntries_full {s : State} {k : Nat} (h : freeEntry (core s k) = none) (c : CopyCmd) : takeEntries s c k = s :=
  List.foldlRecOn (motive := (· = s)) _ _ rfl fun _ hs e _ => hs ▸ takeEntry_full h e

/-! ### Bursts -/

/-- A burst has a byte, and ends at the next multiple of 128 at the latest. -/
theorem burst_length {c : CopyCmd} (x : Nat) (h : c.rowLen ≠ 0) : 0 < (c.burst x).2.2 ∧ (c.burst x).2.2 ≤ 128 := by
  have row : x % c.rowLen < c.rowLen := Nat.mod_lt _ (Nat.pos_of_ne_zero h)
  have length : (c.burst x).2.2 = min (c.rowLen - x % c.rowLen) (128 - (c.burst x).2.1.low % 128) := rfl
  omega

/-- The burst at a place where one is in flight is the one performed. -/
theorem windowBurst_flying {s : State} {id n : Nat} {c : CopyCmd} {b : Burst} (hc : kget? s.copies id = some c)
    (hb : c.flying[n]? = some b) (hr : n = 0 ∨ c.opc ≠ 0x283) : windowBurst s id n = performBurst s id c b := by
  have within : n < c.flying.length := (List.getElem?_eq_some_iff.1 hb).1
  have started : startTo s id n 8 = s := by simp only [startTo, hc, within, decide_true, Bool.true_or, if_true]
  have inTurn : (n == 0 || c.opc != 0x283) = true := by simpa using hr
  simp only [windowBurst, started, hc, hb, inTurn, if_true]

theorem performBurst_empty {s : State} {c : CopyCmd} {b : Burst} (id : Nat) (hr : b.remote = none) (hg : b.got = none)
    (hd : b.dsts = []) : performBurst s id c b = advanceCopy s id := by
  simp [performBurst, hr, hg, hd]

theorem performBurst_read {s : State} {c : CopyCmd} {b : Burst} {bs : List Byte} (id : Nat) (hr : b.remote = none)
    (hg : b.got = some bs) : performBurst s id c b = advanceCopy (writeDests s id b.at_ b.len bs b.dsts) id := by
  simp [performBurst, hr, hg]

/-- The access of a burst of `n` bytes at a place of a scratchpad. -/
def burstAccess (t off n : Nat) (tm : Team) : Access :=
  { loc := .spad t off, len := n, strong := false, cattr := 0, pageW := true, pageSeal := tm.sealId }

theorem startAccess_spad {s : State} {t : Nat} {tm : Team} (c : CopyCmd) (off n : Nat) (kind : AccKind) (h : team? s t = some tm) :
    startAccess s c (.spad t off) n kind = .ok [burstAccess t off n tm] s := by
  simp only [startAccess, h]
  rfl

/-- A burst between two scratchpads joins the bursts in flight. -/
theorem startBurst_spads {s : State} {id ts os td od n : Nat} {c : CopyCmd} {tm tn : Team}
    (hb : c.burst c.nextAt = (.spad ts os, .spad td od, n)) (hm : c.opc ≠ 0x282) (hs : team? s ts = some tm)
    (hd : team? s td = some tn) : startBurst s id c = modCopy s id (fun y => { y with flying := y.flying ++
      [{ at_ := c.nextAt, len := n, src := .spad ts os, srcAcc := [burstAccess ts os n tm]
         dsts := [(.spad td od, [burstAccess td od n tn])] }] }) := by
  have dests : c.dests (.spad td od) = [.spad td od] := by simp [CopyCmd.dests, hm]
  simp only [startBurst, hb, dests, startDests, startAccess_spad c _ _ _ hs, startAccess_spad c _ _ _ hd, Except.map]
  rfl

/-- The command with its burst at place `x` changed. -/
def CopyCmd.atBurst (c : CopyCmd) (x : Nat) (g : Burst → Burst) : CopyCmd :=
  { c with flying := c.flying.map (fun b => if b.at_ == x then g b else b) }

theorem kget_modBurst {s : State} {id : Nat} {c : CopyCmd} (x : Nat) (g : Burst → Burst) (h : kget? s.copies id = some c) :
    kget? (modBurst s id x g).copies id = some (c.atBurst x g) :=
  kget_kmod_same (fun c : CopyCmd => c.atBurst x g) h

/-- Where no arrival word counts, a delivery takes the destination off its burst, and that is all. -/
theorem flying_delivered {s : State} {id : Nat} {c : CopyCmd} (x n : Nat) (d : End) (hc : kget? s.copies id = some c)
    (ha : c.arrs = []) : (kget? (delivered s id x n d).copies id).map (·.flying) = some (c.flying.map (fun b =>
      if b.at_ == x then { b with begun := true, dsts := b.dsts.filter (fun e => e.1 != d) } else b)) := by
  have uncounted (g : Burst → Burst) : (c.atBurst x g).countsAt d = [] := by cases d <;> simp [CopyCmd.countsAt, CopyCmd.atBurst, ha]
  simp only [delivered, kget_modBurst x _ hc, uncounted, List.foldl_nil]
  rfl

theorem popDone_done {x : Nat} {b : Burst} (bs : List Burst) (hd : b.dsts = []) (hr : b.remote = none) :
    popDone x (b :: bs) = popDone (b.at_ + b.len) bs := by
  simp [popDone, Burst.done, hd, hr]

theorem popDone_open {x : Nat} {b : Burst} (bs : List Burst) (h : ¬ (b.dsts = [] ∧ b.remote = none)) :
    popDone x (b :: bs) = (x, b :: bs) := by
  refine if_neg ?_
  simpa [Burst.done] using h

/-! ### The end of a command (R272) -/

/-- The states differ in the teams alone. -/
def OnTeams (s s' : State) : Prop := s' = { s with teams := s'.teams }

section
variable {s s' : State}

theorem OnTeams.refl (s : State) : OnTeams s s := rfl
theorem OnTeams.cores (h : OnTeams s s') : s'.cores = s.cores := (congrArg State.cores h).trans rfl
theorem OnTeams.copies (h : OnTeams s s') : s'.copies = s.copies := (congrArg State.copies h).trans rfl
theorem OnTeams.threads (h : OnTeams s s') : s'.threads = s.threads := (congrArg State.threads h).trans rfl

theorem OnTeams.modTeam (h : OnTeams s s') (i : Nat) (f : Team → Team) : OnTeams s (modTeam s' i f) :=
  (congrArg (Machine.modTeam · i f) h).trans rfl

theorem OnTeams.emptyBuffer (h : OnTeams s s') (id : Nat) (b : Nat × Nat) : OnTeams s (emptyBuffer s' id b) := by
  unfold Machine.emptyBuffer
  split
  · exact h
  · exact h.modTeam ..

end

/-- STATUS and CURSOR stand in the record of a command that ends, but where its team has ended (R272, R278). -/
def recordEnd (s : State) (c : CopyCmd) (status : Nat) : State := if status == 7 then s else writeStatus s c status

/-- A command that ends reads its source no more (R186). -/
def leaveSource (s : State) (id : Nat) (c : CopyCmd) : State :=
  match c.srcBuf with
  | some b => if c.reading then endRead s b.1 b.2 id else s
  | none => s

/-- Ended short, a command leaves its destination buffers EMPTY (R274). -/
def leaveDests (s : State) (id status : Nat) (c : CopyCmd) : State :=
  if [2, 4, 5, 7].contains status then c.dstBufs.foldl (fun s b => emptyBuffer s id b) s else s

/-- A command is gone, but for its thread's counter. -/
def leaveCopy (s : State) (id status : Nat) (c : CopyCmd) : State :=
  let s := leaveDests (leaveSource (registered (dropEntries (recordEnd s c status) id) c.th id) id c) id status c
  let s := { s with regions := s.regions.map (fun p => if p.2.writer == some id then (p.1, { p.2 with writer := none }) else p) }
  let s := modTeam s c.team (fun tm => { tm with records := kset tm.records c.rec_ c.pts })
  { s with copies := kdel s.copies id }

section
variable {s : State} {id : Nat} {c : CopyCmd}

theorem endCopy_live (status : Nat) (h : kget? s.copies id = some c) :
    endCopy s id status = lowerFor (leaveCopy s id status c) c.th id c.pts := by
  simp only [endCopy, h]
  rfl

theorem OnTeams.recordEnd (s : State) (c : CopyCmd) (status : Nat) : OnTeams s (recordEnd s c status) := by
  unfold Machine.recordEnd
  split
  · rfl
  · exact (OnTeams.refl s).modTeam ..

theorem OnTeams.leaveSource (s : State) (id : Nat) (c : CopyCmd) : OnTeams s (leaveSource s id c) := by
  unfold Machine.leaveSource
  split
  · split
    · exact (OnTeams.refl s).modTeam ..
    · rfl
  · rfl

theorem OnTeams.leaveDests (s : State) (id status : Nat) (c : CopyCmd) : OnTeams s (leaveDests s id status c) := by
  unfold Machine.leaveDests
  split
  · exact List.foldlRecOn (motive := OnTeams s) _ _ rfl fun _ h b _ => h.emptyBuffer id b
  · rfl

theorem cores_leaveCopy (status : Nat) : (leaveCopy s id status c).cores = (dropEntries s id).cores := calc
  (leaveCopy s id status c).cores = (leaveSource (registered (dropEntries (recordEnd s c status) id) c.th id) id c).cores :=
    (OnTeams.leaveDests _ id status c).cores
  _ = (dropEntries (recordEnd s c status) id).cores := (OnTeams.leaveSource _ id c).cores
  _ = (dropEntries s id).cores := by rw [dropEntries, (OnTeams.recordEnd s c status).cores]; rfl

theorem copies_leaveCopy (status : Nat) : (leaveCopy s id status c).copies = kdel s.copies id :=
  congrArg (kdel · id) ((OnTeams.leaveDests _ id status c).copies.trans
    ((OnTeams.leaveSource _ id c).copies.trans (OnTeams.recordEnd s c status).copies))

theorem threads_leaveCopy (status : Nat) : (leaveCopy s id status c).threads = (registered s c.th id).threads := calc
  (leaveCopy s id status c).threads = (leaveSource (registered (dropEntries (recordEnd s c status) id) c.th id) id c).threads :=
    (OnTeams.leaveDests _ id status c).threads
  _ = (registered (dropEntries (recordEnd s c status) id) c.th id).threads := (OnTeams.leaveSource _ id c).threads
  _ = (registered s c.th id).threads := by
    have same : (dropEntries (recordEnd s c status) id).threads = s.threads := (OnTeams.recordEnd s c status).threads
    rw [registered, registered, modThread_threads, modThread_threads, same]

theorem spad_modTeam {f : Team → Team} (hf : ∀ tm, (f tm).spad = tm.spad) (s : State) (t i : Nat) :
    (team? (modTeam s t f) i).map (·.spad) = (team? s i).map (·.spad) := by
  rw [team?, modTeam_teams, kmod, team?]
  split
  · rfl
  · next tm stands =>
    rw [kget_kset]
    split
    · next same => rw [same, stands, Option.map_some, Option.map_some, hf]
    · rfl

/-- A command performed to its end writes its STATUS and CURSOR, and no other byte of its team's scratchpad. -/
theorem spad_leaveCopy {tm : Team} (h : team? s c.team = some tm) : (team? (leaveCopy s id 1 c) c.team).map (·.spad) =
    some (Memory.writeBytes tm.spad (c.rec_ + 24) (leBytes 4 (fld c.ctrl 0 28 + 1 * 2 ^ 28) ++ leBytes 4 c.cursor)) := by
  have source (s : State) : (team? (leaveSource s id c) c.team).map (·.spad) = (team? s c.team).map (·.spad) := by
    unfold leaveSource
    split
    · split
      · exact spad_modTeam (fun _ => by rfl) ..
      · rfl
    · rfl
  calc
    (team? (leaveCopy s id 1 c) c.team).map (·.spad)
      = (team? (leaveSource (registered (dropEntries (writeStatus s c 1) id) c.th id) id c) c.team).map (·.spad) :=
        spad_modTeam (fun _ => by rfl) ..
    _ = (team? (writeStatus s c 1) c.team).map (·.spad) := source _
    _ = _ := congrArg _ (team_modTeam_same _ h)

end

theorem entries_dropEntries (s : State) (id : Nat) : ∀ p ∈ (dropEntries s id).cores, ∀ l ∈ p.2.locks, l.2.cmd ≠ id := by
  intro p hp l hl
  obtain ⟨q, -, rfl⟩ := List.mem_map.1 hp
  exact bne_iff_ne.1 (List.mem_filter.1 hl).2

/-! ### The counter of its thread -/

theorem OnRecords.cores {s s' : State} (h : OnRecords s s') : s'.cores = s.cores := (congrArg State.cores h).trans rfl
theorem OnRecords.copies {s s' : State} (h : OnRecords s s') : s'.copies = s.copies := (congrArg State.copies h).trans rfl

theorem cores_lowerFor (s : State) (t id pts : Nat) : (lowerFor s t id pts).cores = s.cores := (OnRecords.replyToRecord ..).cores
theorem copies_lowerFor (s : State) (t id pts : Nat) : (lowerFor s t id pts).copies = s.copies := (OnRecords.replyToRecord ..).copies

section
variable {s : State} {t id : Nat} {th : Thread}

theorem thread_registered (ht : thread? s t = some th) : ∃ unreg wait park, thread? (registered s t id) t =
    some { th with unreg := unreg, wait := wait, parkAfter := park } := by
  rw [registered, thread_modThread, if_pos rfl, ht]
  simp only [Option.map_some]
  split
  · split
    · exact ⟨_, _, _, rfl⟩
    · exact ⟨_, _, _, rfl⟩
  · exact ⟨_, _, _, rfl⟩

theorem thread_lowerFor {f : Flight} (pts : Nat) (ht : thread? s t = some th)
    (hf : th.flights.find? (fun f => f.op == .unit id) = some f) : thread? (lowerFor s t id pts) t = some (th.unitDone f pts) := by
  rw [lowerFor, thread_replyToRecord, thread_modThread, if_pos rfl, ht]
  simp only [Option.map_some, hf]

theorem Thread.counter_unitDone (f : Flight) (pts : Nat) (h : f.ec < 6) :
    (th.unitDone f pts).counter f.ec = th.counter f.ec - 1 :=
  (th.counter_lower f.ec f.ec).trans (if_pos ⟨rfl, h⟩)

end

/-- A command performed to its end leaves STATUS 1 and its CURSOR in its record, and its thread's counter is one less (R272). -/
theorem endCopy_performed {s : State} {id : Nat} {c : CopyCmd} {tm : Team} {th : Thread} {f : Flight} (hc : kget? s.copies id = some c)
    (htm : team? s c.team = some tm) (hwf : tm.spad.wf = true) (ht : thread? s c.th = some th)
    (hf : th.flights.find? (fun f => f.op == .unit id) = some f) (hec : f.ec < 6) :
    (team? (endCopy s id 1) c.team).map (fun tm => tm.spad.readBytes (c.rec_ + 24) 8) =
        some (leBytes 4 (fld c.ctrl 0 28 + 1 * 2 ^ 28) ++ leBytes 4 c.cursor)
      ∧ (thread? (endCopy s id 1) c.th).map (fun h => h.counter f.ec) = some (th.counter f.ec - 1) := by
  rw [endCopy_live 1 hc]
  constructor
  · obtain ⟨tm', stands, spad⟩ := Option.map_eq_some_iff.1 (spad_leaveCopy (id := id) htm)
    have stands : team? (lowerFor (leaveCopy s id 1 c) c.th id c.pts) c.team = some tm' := (team_replyToRecord ..).trans stands
    rw [stands, Option.map_some, spad]
    exact congrArg some (Memory.readBytes_writeBytes _ _ hwf)
  · obtain ⟨unreg, wait, park, at_⟩ := thread_registered (id := id) ht
    have at_ := (congrArg (kget? · c.th) (threads_leaveCopy (s := s) (id := id) (c := c) 1)).trans at_
    rw [thread_lowerFor c.pts at_ hf, Option.map_some]
    exact congrArg some (Thread.counter_unitDone f c.pts hec)

/-- A command that has ended is not listed, and no core holds an entry of it. -/
theorem endCopy_gone {s : State} {id : Nat} {c : CopyCmd} (status : Nat) (hc : kget? s.copies id = some c)
    (hr : risingFrom 0 s.copies = true) : kget? (endCopy s id status).copies id = none
      ∧ ∀ p ∈ (endCopy s id status).cores, ∀ l ∈ p.2.locks, l.2.cmd ≠ id := by
  rw [endCopy_live status hc]
  constructor
  · rw [copies_lowerFor, copies_leaveCopy, kget_kdel hr, if_pos rfl]
  · rw [cores_lowerFor, cores_leaveCopy]
    exact entries_dropEntries s id

/-- Settles O38: each word by what its record and its command say, each step by the command it takes on. -/
theorem copyCommands : Obligations.CopyCommands := by
  refine ⟨?enter, ⟨?live, ?left, ?ends, ?holds, fun s c t th => mayStart_cancelled, ?absent, ?privateWindow, ?inSpad, ?inMem⟩,
    ?registers, ?unregistered, ?takes, ?taken, ?fullTable, fun s c e => mem_missingEntries, fun k i => freeEntry_eq_some, ?starts,
    fun c x h => ⟨rfl, burst_length x h⟩, ?bursts, fun s id c b => performBurst_empty id, fun s id c b bs => performBurst_read id,
    fun s id c ts os td od n tm tn _ => startBurst_spads, fun s id c x n d => flying_delivered x n d, ?counted,
    fun x b bs => popDone_done bs, fun x b bs => popDone_open bs, ?finishes, ?endsShort, ?endsOrphan,
    fun s id c tm th f hc htm hwf ht _ => endCopy_performed hc htm hwf ht, fun s id c status => endCopy_gone status⟩
  case enter =>
    intro rec_ numbered mine command
    have commands opc i a x (hx : ∀ s, exec i s = issue i [srcPair a x] (copyBody opc a) s) : command opc i a x := by
      refine ⟨fun off tm s' sh c => runs_of hx fun k ⟨hr, hd, hl, hp, hs, hf, hm, hroom, he⟩ =>
          (copyBody_enters rfl hr hd hl hp hs hf hm).trans (enterCopy_room _ _ hroom he),
        fun off tm => traps_of hx fun k ⟨hr, h⟩ => copyBody_placed hr h,
        fun off tm s' => traps_of hx fun k ⟨hr, hd, hl, hp, hf⟩ => copyBody_fields hr hd hl hp hf⟩
    exact ⟨fun sw a x => commands _ _ a x fun _ => rfl, fun sw a x => commands _ _ a x fun _ => rfl,
      fun sw a x => commands _ _ a x fun _ => rfl, fun sw a x => commands _ _ a x fun _ => rfl,
      fun sw a x => commands _ _ a x fun _ => rfl, fun k addr => recordOf_foreign, fun k addr => recordOf_misaligned,
      fun s e => engineRoom_iff, fun opc r => recordOk_fields⟩
  case live =>
    refine fun sw d a x off tm id c => runs_of (fun _ => rfl) fun k ⟨hr, hc⟩ => ?_
    simp only [Ctx.g64, hr, hc]
    rfl
  case left =>
    refine fun sw d a x off tm s' => runs_of (fun _ => rfl) fun k ⟨hr, hc, hb⟩ => ?_
    simp only [Ctx.g64, hr, hc, hb, Except.bind, inState_retLater, beq_iff_eq]
  case ends =>
    refine fun sw d a x off tm id c => runs_of (fun _ => rfl) fun k ⟨hr, hc, hs⟩ => ?_
    simp only [Ctx.g64, hr, hc, settled_iff.2 hs, inState_retLater]
    rfl
  case holds =>
    refine fun sw d a x off tm id c => holds_of (fun _ => rfl) fun k ⟨hr, hc, b, hb, hs⟩ => ?_
    have unsettled : c.settled = false := by
      rw [← Bool.not_eq_true, settled_iff]
      intro all
      obtain ⟨home, idle⟩ := all b hb
      simp [home, idle] at hs
    simp only [Ctx.g64, hr, hc, unsettled]
    rfl
  case absent =>
    refine fun sw d a x off tm => runs_of (fun _ => rfl) fun k ⟨hr, hc⟩ => ?_
    simp only [Ctx.g64, hr, hc]
    rfl
  case privateWindow =>
    refine fun sw d a x tm => runs_of (fun _ => rfl) fun k ⟨ht, hw, hs, hin⟩ => ?_
    simp only [Ctx.g64, ht, hw, hs, Nat.not_le.2 hin]
    rfl
  case inSpad =>
    refine fun sw d a x tm t o => runs_of (fun _ => rfl) fun k ⟨ht, hw, he⟩ => ?_
    have other : ¬ ((windowFault (k.th.reg64 a.toNat)).isNone && selector (k.th.reg64 a.toNat) == 0xF2) = true := by
      simpa using hw
    simp only [Ctx.g64, ht, other, he]
    rfl
  case inMem =>
    refine fun sw d a x tm g => runs_of (fun _ => rfl) fun k ⟨ht, hw, he⟩ => ?_
    have other : ¬ ((windowFault (k.th.reg64 a.toNat)).isNone && selector (k.th.reg64 a.toNat) == 0xF2) = true := by
      simpa using hw
    simp only [Ctx.g64, ht, other, he]
    rfl
  case registers =>
    intro s id c hc hr hm
    show Host.Outcome.next _ = _
    simp only [hc, hr, hm]
    rfl
  case unregistered =>
    intro s id c hc hm
    show Host.Outcome.next _ = _
    simp only [hc, List.isEmpty_eq_false_iff.2 hm, Bool.not_false, Bool.or_true, if_true]
  case takes =>
    intro s id x
    refine ⟨_, rfl, ?_⟩
    split
    · next c _ =>
      have taken := OnCores.takeEntries s c x
      exact ⟨(congrArg State.mem taken).trans rfl, (congrArg State.copies taken).trans rfl, (congrArg State.threads taken).trans rfl,
        (congrArg State.teams taken).trans rfl⟩
    · exact ⟨rfl, rfl, rfl, rfl⟩
  case taken =>
    intro s id c x e i hc hm hf
    show Host.Outcome.next _ = _
    simp only [hc, takeEntries, hm, List.foldl_cons, List.foldl_nil, takeEntry_free hf]
  case fullTable =>
    intro s id c x hc hf
    show Host.Outcome.next _ = _
    simp only [hc, takeEntries_full hf]
  case starts =>
    intro s id c hc ha hs hn older room
    have first : (engineHeld s c.engine).any (fun p => decide (p.2.accepted < c.accepted) && !p.2.started) = false := by
      simpa [engineHeld] using older
    have few : ((engineHeld s c.engine).filter (fun p => p.2.started)).length < 16 := by
      simpa [engineHeld, List.filter_filter, Bool.and_comm, Bool.and_left_comm] using room
    show Host.Outcome.next _ = _
    simp only [hc, ha, hs, hn, first, Nat.not_le.2 few]
    rfl
  case bursts =>
    intro s id c b n hc hs hn ha hlt hm hb hr
    have marked : (c.opc == 0x286 && !c.marked && c.ending.isNone) = false := by
      obtain h | h | h := hm
      · simp [h]
      · simp [h]
      · simp [Option.isNone_eq_false_iff.2 h]
    show Host.Outcome.next _ = _
    simp only [hc, hs, hn, ha, Nat.not_le.2 hlt, marked, windowBurst_flying hc hb hr]
    rfl
  case counted => exact fun s id c hc => congrArg _ (kget_kmod_same _ hc)
  case finishes =>
    intro s id c hc hs hn he ht
    show Host.Outcome.next _ = _
    simp only [hc, hn, he, hs, ht]
    rfl
  case endsShort =>
    intro s id c st hc hn he h7 hf
    show Host.Outcome.next _ = _
    simp only [hc, hn, he, hf, List.isEmpty_nil, if_true, Bool.false_eq_true, if_false]
  case endsOrphan =>
    intro s id c hc hn he hs
    show Host.Outcome.next _ = _
    simp only [hc, hn, he, settled_iff.2 hs]
    rfl

end Sys2Proof.Machine
end

section
/-!
The commands of the host: which one is carried out, and those on the device, its time, its seals and its graphs (R456 to R466, R470).
-/
namespace Sys2Proof.Machine
set_option Elab.async false

section
variable {s : State} {op i : Nat} {c : List Byte}

/-- The command next in turn is carried out while the package runs. -/
theorem carryOut_running {ok : List Byte → Bool} {f : State → Nat → List Byte → State} (hn : nextCommand s = some (i, c))
    (hp : s.dev.power.state = 0) (ho : cmdOp c = op) (hk : ok c = true) : carryOut s op ok f = f s i c := by
  simp [carryOut, hn, hp, ho, hk]

/-- The boot ROM refuses a command in RECOVERY (R469). -/
theorem carryOut_recovery {ok : List Byte → Bool} {f : State → Nat → List Byte → State} (hn : nextCommand s = some (i, c))
    (hp : s.dev.power.state = 3) (ho : cmdOp c = op) (hk : ok c = true) (h : (op == 3 || op == 8) = false) :
    carryOut s op ok f = answer s i c 9 none := by
  simp [carryOut, hn, hp, ho, hk, h, codeRefused]

/-- FWLOAD and RESYNC are carried out after bring-up, in RECOVERY too. -/
theorem carryOut_anyMode {ok : List Byte → Bool} {f : State → Nat → List Byte → State} (hn : nextCommand s = some (i, c))
    (hp : s.dev.power.state ≠ 4) (ho : cmdOp c = op) (hk : ok c = true) (h : (op == 3 || op == 8) = true) :
    carryOut s op ok f = f s i c := by
  simp [carryOut, hn, hp, ho, hk, h]

end

/-- What FWLOAD does with the command that is next in turn. -/
theorem execFwload_next {s : State} {i : Nat} {c : List Byte} (ok : Bool) (hn : nextCommand s = some (i, c))
    (hp : s.dev.power.state ≠ 4) (ho : cmdOp c = 8) : exec (.fwload ok) s = .next (
      if bfld c 8 4 = 0 ∨ 2 ^ 25 < bfld c 8 4 then answer s i c 1 (some 8)
      else if fwloadRefused s = true then answer s i c 9 none
      else if ok = false then answer s i c 10 none
      else restart (retireCmd
        (record (modDev s (fun d => { d with firmware := Memory.readBytes (stagingWindow s) 0 (bfld c 8 4) })) c 0 none) i)) := by
  show Host.Outcome.next _ = _
  rw [carryOut_anyMode hn hp ho rfl rfl]
  simp only [Bool.or_eq_true, beq_iff_eq, decide_eq_true_eq, Bool.not_eq_true']
  rfl

theorem fwloadRefused_running {s : State} (hp : s.dev.power.state = 0) : fwloadRefused s =
    (s.seals.any (fun p => p.1 != 0 && p.2.state == 1) || s.outputs.any (fun p => p.2.armed)) := by
  simp [fwloadRefused, hp]

theorem fwloadRefused_recovery {s : State} (hp : s.dev.power.state = 3) : fwloadRefused s = false := by
  simp [fwloadRefused, hp]

/-- Settles O50: each command is next in turn, and does what its body says. -/
theorem deviceCommands : Obligations.DeviceCommands := by
  refine ⟨?resync, ?step, fun s v => ⟨rfl, rfl⟩, ?stepRefused, ?config, fun s c => ⟨rfl, rfl, rfl⟩, ?attest, ?load, ?recovers,
    ?badSize, fun s => ⟨rfl, rfl, rfl, rfl, rfl⟩, ?inUse, ?badImage, ?refused⟩
  case resync =>
    intro s i c hn hp ho
    refine (congrArg Host.Outcome.next (carryOut_running hn hp ho rfl)).trans ?_
    simp [hp, codeDone]
  case step =>
    intro s i c hn hp ho hstep hconfig harmed
    refine (congrArg Host.Outcome.next (carryOut_running hn hp ho hstep)).trans ?_
    simp [harmed, hconfig, codeDone]
  case stepRefused =>
    intro s i c hn hp ho hstep harmed
    refine (congrArg Host.Outcome.next (carryOut_running hn hp ho hstep)).trans ?_
    simp only [harmed, if_true]
    rfl
  case config =>
    intro s i c hn hp ho hstep hconfig
    refine (congrArg Host.Outcome.next (carryOut_running hn hp ho (by simp [hstep]))).trans ?_
    simp only [hconfig, if_true]
    rfl
  case attest =>
    intro s i c hn hp ho
    exact congrArg Host.Outcome.next (carryOut_running hn hp ho rfl)
  case load =>
    intro s i c hn hp ho h0 hmax hseals harmed
    have free : ¬ fwloadRefused s = true := by simp [fwloadRefused_running hp, hseals, harmed]
    rw [execFwload_next true hn (by simp [hp]) ho, if_neg (by omega), if_neg free, if_neg (by decide)]
  case recovers =>
    intro s i c hn hp ho h0 hmax
    have free : ¬ fwloadRefused s = true := by simp [fwloadRefused_recovery hp]
    have sized : ¬ (bfld c 8 4 = 0 ∨ 2 ^ 25 < bfld c 8 4) := by omega
    rw [execFwload_next true hn (by simp [hp]) ho, execFwload_next false hn (by simp [hp]) ho, if_neg sized, if_neg free, if_neg sized,
      if_neg free]
    exact ⟨rfl, rfl⟩
  case badSize =>
    intro s i c hn hp ho h
    rw [execFwload_next true hn hp ho, if_pos h]
  case inUse =>
    intro s i c hn hp ho h0 hmax h
    have used : fwloadRefused s = true := by simpa [fwloadRefused_running hp] using h
    rw [execFwload_next true hn (by simp [hp]) ho, if_neg (by omega), if_pos used]
  case badImage =>
    intro s i c hn hp ho h0 hmax h
    rw [execFwload_next false hn (by simp [hp]) ho, if_neg (by omega), if_neg (by simp [h]), if_pos rfl]
  case refused =>
    intro s i c hn hp
    have refuses {op : Nat} {f : State → Nat → List Byte → State} (h : (op == 3 || op == 8) = false) (ho : cmdOp c = op) :
        (.next (carryOut s op (fun _ => true) f) : Host.Outcome State Fault Refusal) = .next (answer s i c 9 none) :=
      congrArg Host.Outcome.next (carryOut_recovery hn hp ho rfl h)
    exact ⟨refuses rfl, refuses rfl, refuses rfl, refuses rfl, refuses rfl, refuses rfl⟩

end Sys2Proof.Machine
end

section
/-!
Commands of the host and their records (R456, R457), and those on graphs and seals (R458 to R462).
-/
namespace Sys2Proof.Machine
set_option Elab.async false

/-! ### Records and the command list (R456, R457) -/

/-- The commands that wait begin with one whose OP the device knows, or there are none. -/
def Known (s : State) : Prop := ∀ c, s.dev.commands.head? = some c → 1 ≤ cmdOp c ∧ cmdOp c ≤ 9

theorem answerUnknown_known {s : State} (h : Known s) (fuel : Nat) : answerUnknown fuel s = s := by
  cases fuel with
  | zero => rfl
  | succ fuel =>
    unfold answerUnknown
    split
    · rfl
    · next c cs hc =>
      obtain ⟨low, high⟩ := h c (by rw [hc]; rfl)
      simp [low, high]

theorem serveCommands_known {s : State} (h : Known s) : serveCommands s = s := by
  rw [serveCommands, answerUnknown_known h, ite_self]

theorem rings_signal (s : State) (vec : Nat) : (signal s vec).rings.status = s.rings.status
    ∧ (signal s vec).rings.stHead = s.rings.stHead := by
  unfold signal
  split <;> exact ⟨rfl, rfl⟩

theorem dev_signal (s : State) (vec : Nat) : (signal s vec).dev = s.dev := by
  unfold signal
  split <;> rfl

/-- A record is written at STHEAD, which moves on. -/
theorem record_written (s : State) (c : List Byte) (code v : Nat) :
    kget? (record s c code (some v)).rings.status s.rings.stHead = some (statusBytes (cmdTag c) (cmdOp c) code v s.tnow)
      ∧ (record s c code (some v)).rings.stHead = (s.rings.stHead + 1) % 256 := by
  rw [record, statusRecord, (rings_signal _ 0).1, (rings_signal _ 0).2]
  exact ⟨kget_kset_same .., rfl⟩

theorem dev_record (s : State) (c : List Byte) (code v : Nat) : (record s c code (some v)).dev = s.dev := dev_signal _ 0

theorem commands_retire_record (s : State) (i : Nat) (c : List Byte) (code v : Nat) :
    (retireCmd (record s c code (some v)) i).dev.commands = s.dev.commands.eraseIdx i :=
  congrArg (fun d : Device => d.commands.eraseIdx i) (dev_record s c code v)

/-- A command's record is its single one, where the next command is one the device knows. -/
theorem answer_known {s : State} {i : Nat}
    (h : ∀ c', (s.dev.commands.eraseIdx i).head? = some c' → 1 ≤ cmdOp c' ∧ cmdOp c' ≤ 9) (c : List Byte) (code v : Nat) :
    answer s i c code (some v) = retireCmd (record s c code (some v)) i :=
  answerUnknown_known (fun c' hc' => h c' (by rwa [commands_retire_record] at hc')) 64

/-! ### A command that is written (R456) -/

/-- The state with one more command in the list. -/
def withCommand (s : State) (bs : List Byte) : State := modDev s (fun d => { d with commands := d.commands ++ [bs] })

theorem execCommandWrite_room {s : State} {bs : List Byte} (hl : bs.length = 64) (hn : s.dev.commands.length < 64) :
    exec (.commandWrite bs) s = .next (serveCommands (withCommand s bs)) := by
  show Host.Outcome.next _ = _
  simp only [hl, bne_self_eq_false, Bool.false_eq_true, if_false, Nat.not_le.2 hn]
  rfl

theorem known_withCommand {s : State} {bs : List Byte} (h : Known s) (hbs : 1 ≤ cmdOp bs ∧ cmdOp bs ≤ 9) : Known (withCommand s bs) := by
  intro c hc
  cases hd : s.dev.commands with
  | nil => simp [withCommand, modDev, hd] at hc; exact hc ▸ hbs
  | cons x xs => exact h c (by simpa [withCommand, modDev, hd] using hc)

/-- A command of no OP is answered as it comes to the front. -/
theorem serveCommands_unknown {s : State} {bs : List Byte} (hc : s.dev.commands = [bs]) (hp : s.dev.power.state = 0)
    (ho : cmdOp bs = 0 ∨ 9 < cmdOp bs) : serveCommands s = retireCmd (record s bs 1 (some 0)) 0 := by
  have unknown : (decide (1 ≤ cmdOp bs) && decide (cmdOp bs ≤ 9)) = false := by
    rw [Bool.and_eq_false_iff, decide_eq_false_iff_not, decide_eq_false_iff_not]
    omega
  have none : Known (retireCmd (record s bs 1 (some 0)) 0) := by
    intro c h
    rw [commands_retire_record, hc] at h
    cases h
  have answered : answerUnknown (63 + 1) s = answerUnknown 63 (retireCmd (record s bs 1 (some 0)) 0) := by
    rw [answerUnknown]
    simp only [hc, hp, unknown, Nat.reduceBEq, Bool.false_eq_true, if_false]
    rfl
  rw [serveCommands, hp]
  exact answered.trans (answerUnknown_known none 63)

/-! ### Graphs (R458, R460, R462) -/

section
variable {s : State} {i : Nat} {c : List Byte}

theorem execUpload_next (hn : nextCommand s = some (i, c)) (hp : s.dev.power.state = 0) (ho : cmdOp c = 1)
    (hb : uploadBad c = none) : exec .upload s = .next (upload s i c) := by
  show Host.Outcome.next _ = _
  rw [carryOut_running hn hp ho rfl]
  simp only [hb]

/-- The first check of UPLOAD: its seal is LIVE and no entry of the range is another's. -/
theorem uploadSeal_iff : (!sealLive s (bfld c 4 2) || (range (bfld c 16 4 / 64) (bfld c 20 4 / 64)).any (fun e =>
      match kget? s.schedTags e with | some x => x != bfld c 4 2 | none => false)) = true ↔
    sealLive s (bfld c 4 2) = false
      ∨ ∃ e ∈ range (bfld c 16 4 / 64) (bfld c 20 4 / 64), ∃ x, kget? s.schedTags e = some x ∧ x ≠ bfld c 4 2 := by
  rw [Bool.or_eq_true, Bool.not_eq_true', List.any_eq_true]
  refine or_congr_right (exists_congr fun e => and_congr_right fun _ => ?_)
  cases kget? s.schedTags e <;> simp

/-- The range is the seal's own or nobody's. -/
def OwnRange (s : State) (c : List Byte) : Prop := sealLive s (bfld c 4 2) = true
  ∧ ∀ e ∈ range (bfld c 16 4 / 64) (bfld c 20 4 / 64), ∀ x, kget? s.schedTags e = some x → x = bfld c 4 2

theorem upload_foreign (h : sealLive s (bfld c 4 2) = false
    ∨ ∃ e ∈ range (bfld c 16 4 / 64) (bfld c 20 4 / 64), ∃ x, kget? s.schedTags e = some x ∧ x ≠ bfld c 4 2) :
    upload s i c = answer s i c 2 none := if_pos (uploadSeal_iff.2 h)

theorem upload_own (h : OwnRange s c) : upload s i c =
    if 2 ^ 24 < bfld c 16 4 + bfld c 20 4 ∨ schedLost s (bfld c 16 4) (bfld c 20 4) = true then answer s i c 4 none
    else if uploadBusy s (bfld c 16 4) (bfld c 20 4) (bfld c 6 2) = true then answer s i c 3 none
    else match (if bfld c 6 2 == 0xFFFF then none else imageBad (Memory.writeBytes s.sched (bfld c 16 4)
        (readDevice s (bfld c 8 8) (bfld c 20 4) (bfld c 4 2)).1) (bfld c 16 4) (bfld c 20 4) (bfld c 4 2)) with
    | some o => answer s i c 1 (some o)
    | none => answer (storeUpload (readDevice s (bfld c 8 8) (bfld c 20 4) (bfld c 4 2)).2 (bfld c 16 4) (bfld c 4 2) (bfld c 6 2)
        (readDevice s (bfld c 8 8) (bfld c 20 4) (bfld c 4 2)).1) i c 0 none := by
  obtain ⟨live, own⟩ := h
  have mine := mt (uploadSeal_iff (s := s) (c := c)).1 (by
    rintro (dead | ⟨e, he, x, hx, hne⟩)
    · simp [live] at dead
    · exact hne (own e he x hx))
  refine (if_neg mine).trans ?_
  simp only [Bool.or_eq_true, decide_eq_true_eq]
  rfl

theorem execTrigger_next (hn : nextCommand s = some (i, c)) (hp : s.dev.power.state = 0) (ho : cmdOp c = 2) {x : Graph}
    (hb : triggerBad s c = none) (hx : kget? s.dev.graphs (bfld c 4 2) = some x) :
    exec .trigger s = .next (trigger s i c (bfld c 4 2) x) := by
  show Host.Outcome.next _ = _
  rw [carryOut_running hn hp ho rfl]
  simp only [hb, hx]

/-- A graph that the command may run: the record's seal owns it and is LIVE. -/
theorem triggerSeal_own {x : Graph} (hs : bfld c 6 2 % 1024 = x.sealId) (hl : sealLive s x.sealId = true) :
    (bfld c 6 2 % 1024 != x.sealId || !sealLive s x.sealId) = false := by simp [hs, hl]

theorem execSealnew_next (hn : nextCommand s = some (i, c)) (hp : s.dev.power.state = 0) (ho : cmdOp c = 4)
    (hb : sealnewBad c = none) : exec .sealnew s = .next (match newSeal s (bfld c 4 2) with
      | none => answer s i c 2 none
      | some x => answer (makeSeal s x c) i c 0 (some x)) := by
  show Host.Outcome.next _ = _
  rw [carryOut_running hn hp ho rfl, hb]
  cases newSeal s (bfld c 4 2) <;> rfl

theorem execSealend_next (hn : nextCommand s = some (i, c)) (hp : s.dev.power.state = 0) (ho : cmdOp c = 5) :
    exec .sealend s = .next (sealendStep s i c (bfld c 4 2)) :=
  congrArg Host.Outcome.next (carryOut_running hn hp ho rfl)

theorem execAbort_next (hn : nextCommand s = some (i, c)) (hp : s.dev.power.state = 0) (ho : cmdOp c = 6) :
    exec .abort s = .next (if bfld c 4 2 = 0 ∨ (sealOf s (bfld c 4 2)).state = 0 then answer s i c 2 none
      else answer (sealEndOnly s (bfld c 4 2) 0 2) i c 0 none) := by
  show Host.Outcome.next _ = _
  rw [carryOut_running hn hp ho rfl]
  simp only [Bool.or_eq_true, beq_iff_eq]
  rfl

end

theorem sealOf_makeSeal (s : State) (x : Nat) (c : List Byte) : ∃ events latest, sealOf (makeSeal s x c) x =
    { state := 1, ptroot := bfld c 8 8, vbase := bfld c 16 8, pool := bfld c 24 8, poolsz := bfld c 32 4, events := events
      latest := latest } :=
  ⟨_, _, (kgetD_kset ..).trans (if_pos rfl)⟩

/-- Settles O49: each command is next in turn, and meets the checks of its entry in their order. -/
theorem graphAndSealCommands : Obligations.GraphAndSealCommands := by
  refine ⟨⟨?overrun, ?length, ?bringUp, ?accepted, ?unknown, ?answered⟩, ?uploadBad, ?uploads, ?badImage, ?foreign, ?noSpace, ?busy,
    ?triggerSeal, ?triggerBad, ?triggers, ?running, ?sealnew, ?made, ?noSeal, ?ends, ?ended, ?aborts, ?abortBad⟩
  case overrun =>
    intro s bs hl hn
    show Host.Outcome.next _ = _
    simp only [hl, hn, bne_self_eq_false, Bool.false_eq_true, if_false, if_true]
    rfl
  case length =>
    intro s bs hl
    exact congrArg Host.Outcome.next (if_pos (bne_iff_ne.2 hl))
  case bringUp =>
    intro s bs hl hp hn
    rw [execCommandWrite_room hl hn]
    exact congrArg Host.Outcome.next (if_pos (beq_iff_eq.2 hp))
  case accepted =>
    intro s bs hl hn low high hd
    rw [execCommandWrite_room hl hn, serveCommands_known (known_withCommand hd ⟨low, high⟩)]
    rfl
  case unknown =>
    intro s bs he hl hp ho
    have alone : (withCommand s bs).dev.commands = [bs] := by simp [withCommand, modDev, he]
    refine ⟨_, execCommandWrite_room hl (by simp [he]), ?_, ?_⟩
    · rw [serveCommands_unknown alone hp ho, commands_retire_record, alone]
      rfl
    · rw [serveCommands_unknown alone hp ho]
      exact (record_written (withCommand s bs) bs 1 0).1
  case answered =>
    intro s i c code v h
    dsimp only
    rw [answer_known h]
    obtain ⟨written, head⟩ := record_written s c code v
    refine ⟨written, head, commands_retire_record .., congrArg (fun d : Device => (d.carried + 1) % 2 ^ 32) (dev_record s c code v), ?_, ?_⟩
    · exact (congrArg State.mem (record_besideCommands s c code (some v)) :)
    · exact (congrArg State.threads (record_besideCommands s c code (some v)) :)
  case uploadBad =>
    intro s i c b hn hp ho hb
    show Host.Outcome.next _ = _
    rw [carryOut_running hn hp ho rfl]
    simp only [hb]
    rfl
  case uploads =>
    intro s i c bs s' hn hp ho hb hl hown hsize hlost hbusy hread himage
    have good : (if bfld c 6 2 == 0xFFFF then none
        else imageBad (Memory.writeBytes s.sched (bfld c 16 4) bs) (bfld c 16 4) (bfld c 20 4) (bfld c 4 2)) = none := by
      obtain h | h := himage
      · simp [h]
      · simp [h]
    rw [execUpload_next hn hp ho hb, upload_own ⟨hl, hown⟩, if_neg (not_or.2 ⟨Nat.not_lt.2 hsize, by simp [hlost]⟩),
      if_neg (by simp [hbusy]), hread]
    simp only [good]
  case badImage =>
    intro s i c bs s' o hn hp ho hb hl hown hsize hlost hbusy hread hg himage
    rw [execUpload_next hn hp ho hb, upload_own ⟨hl, hown⟩, if_neg (not_or.2 ⟨Nat.not_lt.2 hsize, by simp [hlost]⟩),
      if_neg (by simp [hbusy]), hread]
    simp only [beq_eq_false_iff_ne.2 hg, Bool.false_eq_true, if_false, himage]
  case foreign =>
    intro s i c hn hp ho hb h
    rw [execUpload_next hn hp ho hb, upload_foreign h]
  case noSpace =>
    intro s i c hn hp ho hb hl hown h
    rw [execUpload_next hn hp ho hb, upload_own ⟨hl, hown⟩, if_pos h]
  case busy =>
    intro s i c hn hp ho hb hl hown hsize hlost hbusy
    rw [execUpload_next hn hp ho hb, upload_own ⟨hl, hown⟩, if_neg (not_or.2 ⟨Nat.not_lt.2 hsize, by simp [hlost]⟩), if_pos hbusy]
  case triggerSeal =>
    intro s i c x hn hp ho hb hx h
    have foreign : (bfld c 6 2 % 1024 != x.sealId || !sealLive s x.sealId) = true := by simpa using h
    rw [execTrigger_next hn hp ho hb hx, trigger]
    simp only [foreign, if_true]
    rfl
  case triggerBad =>
    intro s i c b hn hp ho hb
    show Host.Outcome.next _ = _
    rw [carryOut_running hn hp ho rfl]
    simp only [hb]
    rfl
  case triggers =>
    intro s i c x hn hp ho hb hx hs hl hr h0
    rw [execTrigger_next hn hp ho hb hx, trigger]
    simp only [triggerSeal_own hs hl, hr, h0]
    rfl
  case running =>
    intro s i c x r hn hp ho hb hx hs hl hr
    rw [execTrigger_next hn hp ho hb hx, trigger]
    simp only [triggerSeal_own hs hl, hr]
    rfl
  case sealnew =>
    intro s i c x hn hp ho hb hx
    rw [execSealnew_next hn hp ho hb, hx]
  case made =>
    intro s x c
    obtain ⟨events, latest, h⟩ := sealOf_makeSeal s x c
    rw [h]
    exact ⟨rfl, rfl, rfl, rfl, rfl⟩
  case noSeal =>
    intro s i c hn hp ho hb hx
    rw [execSealnew_next hn hp ho hb, hx]
  case ends =>
    intro s i c hn hp ho h0 hs
    rw [execSealend_next hn hp ho]
    simp [sealendStep, h0, hs]
  case ended =>
    intro s i c hn hp ho h0 hs hbegun
    rw [execSealend_next hn hp ho]
    simp [sealendStep, h0, hs, hbegun, codeDone]
  case aborts =>
    intro s i c hn hp ho h0 hs
    rw [execAbort_next hn hp ho, if_neg (by simp [h0, hs])]
  case abortBad =>
    intro s i c hn hp ho h
    rw [execAbort_next hn hp ho, if_pos h]

end Sys2Proof.Machine
end

section
/-!
Detected errors and what they end (R418 to R424), and the watchdog and its fences (R425 to R427).
-/
namespace Sys2Proof.Machine
set_option Elab.async false

/-! ### Stores by the device keep the pins -/

theorem pins_sliceVisit (s : State) (l : Nat) : (sliceVisit s l).lines.pins = s.lines.pins := by
  unfold sliceVisit
  split <;> rfl

theorem pins_noteSync (s : State) (a : Access) (pts : Nat) : (noteSync s a pts).lines.pins = s.lines.pins := by
  unfold noteSync
  split
  · rfl
  · split
    · split <;> rfl
    · rfl
    · rfl

theorem pins_storeAt {s : State} {a : Access} {pa : Nat} (bs : List Byte) (pts x : Nat) (hl : a.loc = .glob pa) :
    (storeAt s a bs pts x).2.lines.pins = s.lines.pins := by
  unfold storeAt
  split
  next p _ =>
    extract_lets l s₁ s₂
    have stored : s₂.lines.pins = s.lines.pins := by
      show (if _ then modLines s₁ _ else s₁).lines.pins = _
      rw [show s₁ = { s with mem := _ } from congrArg (poke s · bs) hl]
      split <;> rfl
    have timed : (storeTime (sliceVisit s₂ l) l pts).2.lines.pins = s.lines.pins := (pins_sliceVisit s₂ l).trans stored
    split
    · exact (pins_noteSync ..).trans stored
    · dsimp only
      split <;> exact timed
  next other => exact absurd hl (other pa)

theorem pins_storeDevice (s : State) (pa pts sealId : Nat) (bs : List Byte) :
    (storeDevice s pa pts sealId bs).lines.pins = s.lines.pins := by
  refine List.foldlRecOn (motive := fun r : List Byte × Nat × State => r.2.2.lines.pins = s.lines.pins) _ _ rfl fun r h b hb => ?_
  obtain ⟨a, ha, hb⟩ := List.mem_flatMap.1 hb
  obtain rfl := List.mem_singleton.1 ha
  obtain ⟨p, hl⟩ := loc_of_mem_lines rfl hb
  exact (pins_storeAt _ _ _ hl).trans h

/-! ### A seal becomes FREE (R418) -/

theorem sealOf_modSeal (s : State) (x : Nat) (f : SealEntry → SealEntry) : sealOf (modSeal s x f) x = f (sealOf s x) :=
  (kgetD_kset ..).trans (if_pos rfl)

/-- Scrubbing ray areas stores to LPDDR, and forgets the areas. -/
theorem scrubRays_keeps (s : State) (x : Nat) : (scrubRays s x).regions = s.regions ∧ (scrubRays s x).lines.pins = s.lines.pins
    ∧ (sealOf (scrubRays s x) x).rayAreas = [] ∧ ((sealOf s x).rayAreas = [] → (scrubRays s x).mem = s.mem) := by
  have stored : OnRecords s ((sealOf s x).rayAreas.foldl (fun s a => storeDevice s a 0 0 (List.replicate 512 0)) s) :=
    List.foldlRecOn (motive := OnRecords s) _ _ (.refl s) fun _ h _ _ => h.trans (.storeDevice ..)
  have pins := List.foldlRecOn (motive := fun s' : State => s'.lines.pins = s.lines.pins) (sealOf s x).rayAreas
    (fun s a => storeDevice s a 0 0 (List.replicate 512 0)) rfl fun s' h a _ => (pins_storeDevice s' a 0 0 _).trans h
  refine ⟨(congrArg State.regions stored).trans rfl, pins, congrArg SealEntry.rayAreas (sealOf_modSeal ..), fun none => ?_⟩
  rw [scrubRays, none]
  rfl

/-- A seal's regions, pins and pages are released, and where errors ended it its part of scheduler memory is. -/
def releaseSeal (s : State) (x : Nat) : State :=
  let s := modLines (scrubRegions (dropSealPages s x) x) (fun l => { l with
    pins := l.pins.filter (fun p => p.sealId != x), poison := l.poison.filter (fun p => p.2 != x), dirty := l.dirty.filter (fun p => p.2 != x) })
  if (sealOf s x).cause == causeSealedErr then dropSched s x else s

theorem freeSeal_eq (s : State) (x : Nat) :
    freeSeal s x = modSeal (scrubRays (releaseSeal s x) x) x (fun e => { e with state := 0, wdAt := none }) := rfl

theorem releaseSeal_keeps (s : State) (x : Nat) : (releaseSeal s x).mem = s.mem ∧ sealOf (releaseSeal s x) x = sealOf s x
    ∧ (∀ p ∈ (releaseSeal s x).regions, p.2.sealId ≠ x) ∧ ∀ p ∈ (releaseSeal s x).lines.pins, p.sealId ≠ x := by
  have regions : (releaseSeal s x).regions = s.regions.filter (fun p => p.2.sealId != x) := by
    rw [releaseSeal, apply_ite State.regions]
    exact ite_self _
  have pins : (releaseSeal s x).lines.pins = s.lines.pins.filter (fun p => p.sealId != x) := by
    rw [releaseSeal, apply_ite (fun s : State => s.lines.pins)]
    exact ite_self _
  refine ⟨?_, ?_, fun p hp => ?_, fun p hp => ?_⟩
  · rw [releaseSeal, apply_ite State.mem]
    exact ite_self _
  · rw [releaseSeal, apply_ite (sealOf · x)]
    exact ite_self _
  · rw [regions] at hp
    exact bne_iff_ne.1 (List.mem_filter.1 hp).2
  · rw [pins] at hp
    exact bne_iff_ne.1 (List.mem_filter.1 hp).2

/-! ### What is detected (R420 to R422) -/

section
variable {s : State} {u : ErrUnit}

theorem execUncorrectableError_none_due (h : s.errors.due = []) : exec (.uncorrectableError u) s = .next (loseUnit s u false) := by
  show Host.Outcome.next _ = _
  simp only [takeDue, h, List.find?_nil]
  rfl

/-- The loss of a state that the whole package needs is fatal; in a seal that ends already it is logged only. -/
theorem loseUnit_contained (hu : u.struct = 0x14 → u.both = false) (hx : unitSeal s u = 0 ∨ (sealOf s (unitSeal s u)).state ≠ 2)
    (injected : Bool) : loseUnit s u injected =
      if refetched s u = true ∨ unitSeal s u = 0 then
        logError (settleAfter (loseEntry (quarantine s u) u) u) u (if refetched s u then 2 else 1) (unitSeal s u) (unitIndex s u) 0 injected
      else
        let r := sealEnd (settleAfter (loseEntry (quarantine s u) u) u) (unitSeal s u) causeSealedErr 1
        logError r.2.2 u 1 (unitSeal s u) (unitIndex s u) (endCounts r.1 r.2.1) injected := by
  have survives : (u.struct == 0x14 && u.both) = false := by
    by_cases h : u.struct = 0x14
    · simp [hu h]
    · simp [h]
  have standing : (unitSeal s u != 0 && (sealOf s (unitSeal s u)).state == 2) = false := by
    obtain h | h := hx
    · simp [h]
    · simp [h]
  simp only [loseUnit, survives, standing, Bool.false_eq_true, if_false, Bool.or_eq_true, beq_iff_eq]

end

/-! ### The watchdog (R425 to R427) -/

section
variable {s : State} {gid : Nat} {g : Grid}

/-- The first step is due: the watchdog is on, and the grid's count has reached W1. -/
def FirstStepDue (s : State) (g : Grid) : Prop :=
  g.hidden = false ∧ g.wdStep = 0 ∧ flag (wdog s g.lr.queue) 31 = true ∧ fld (wdog s g.lr.queue) 0 10 * 2 ^ 20 ≤ g.wdCount

theorem execWatchdogW1_due (hg : grid? s gid = some g) (h : FirstStepDue s g) :
    exec (.watchdogW1 gid) s = .next (watchdog1 s gid g.lr.queue) := by
  obtain ⟨shown, first, on, reached⟩ := h
  show Host.Outcome.next _ = _
  simp only [hg, shown, first, on, wdogCycles, Nat.mul_zero, reached, decide_true, Nat.reduceBEq, Bool.not_false, Bool.and_self, if_true]

theorem execWatchdogW1_early (hg : grid? s gid = some g) (h : ¬ FirstStepDue s g) : exec (.watchdogW1 gid) s = .next s := by
  show Host.Outcome.next _ = _
  simp only [hg]
  refine congrArg _ (if_neg fun hc => h ?_)
  simpa [FirstStepDue, wdogCycles, and_assoc] using hc

theorem execWatchdogW2_due (hg : grid? s gid = some g) (h1 : g.wdStep = 1)
    (reached : fld (wdog s g.lr.queue) 10 10 * 2 ^ 20 ≤ g.wdSince) (live : (sealOf s (g.lr.sealId % 1024)).state = 1)
    (resident : (gridTeams s gid).any (fun p => !p.2.evicted) = true) :
    let x := g.lr.sealId % 1024
    let r := sealEnd (modGrid s gid (fun g => { g with wdStep := 2 })) x causeWatchdog 1
    exec (.watchdogW2 gid) s = .next (logEvent (modSeal r.2.2 x (fun e => { e with wdAt := some r.2.2.aclk, wdQueue := g.lr.queue }))
      { kind := 3, sealId := x, index := g.lr.queue, syndrome := causeWatchdog, extra := endCounts r.1 r.2.1 }) := by
  show Host.Outcome.next _ = _
  simp only [hg, h1, live, resident, wdogCycles, Nat.mul_one, Nat.not_lt.2 reached, decide_false, bne_self_eq_false, Bool.or_self,
    Bool.not_true, Bool.false_eq_true, if_false]

end

/-- Settles O48: a detected error by the entry that is lost, a seal by what it holds, and each step of the watchdog by the count
that it waits for. -/
theorem errorsAndWatchdog : Obligations.ErrorsAndWatchdog := by
  refine ⟨⟨?corrected, ?refetched, ?ends, ?fatal, fun s => ⟨rfl, rfl⟩, fun s => rfl, ?freed, ?held⟩, ?w1, ?w1Early, ?w2, ?w2Early,
    ?w3, ?w3Early, ?returns, ?stays⟩
  case corrected =>
    intro s u h
    show Host.Outcome.next _ = _
    simp only [takeDue, h, List.find?_nil]
    rfl
  case refetched =>
    intro s u h hu hr hx
    rw [execUncorrectableError_none_due h, loseUnit_contained hu hx, if_pos (.inl hr), if_pos hr]
  case ends =>
    intro s u h hu hr hne hx
    dsimp only
    rw [execUncorrectableError_none_due h, loseUnit_contained hu (.inr hx), if_neg (by simp [hr, hne])]
  case fatal =>
    intro s u h hu hb
    rw [execUncorrectableError_none_due h, loseUnit]
    simp [hu, hb]
  case freed =>
    intro s x hs hd
    obtain ⟨mem, entry, regions, pins⟩ := releaseSeal_keeps s x
    obtain ⟨regions', pins', areas, mem'⟩ := scrubRays_keeps (releaseSeal s x) x
    have run : exec (.sealFree x) s = .next (freeSeal s x) := congrArg Host.Outcome.next (if_pos (by simp [hs, hd]))
    refine ⟨_, run, ?_⟩
    rw [freeSeal_eq, sealOf_modSeal]
    exact ⟨rfl, fun p hp => regions p (regions' ▸ hp), fun p hp => pins p (pins' ▸ hp),
      fun none => (mem' ((congrArg _ entry).trans none)).trans mem, areas⟩
  case held =>
    intro s x h
    refine congrArg Host.Outcome.next (if_neg ?_)
    obtain h | h := h
    · simp [h]
    · simp [h]
  case w1 => exact fun s gid g hg shown first on reached => execWatchdogW1_due hg ⟨shown, first, on, reached⟩
  case w1Early =>
    refine fun s gid g hg h => execWatchdogW1_early hg fun ⟨_, _, on, reached⟩ => ?_
    obtain h | h := h
    · exact absurd on (by simp [h])
    · omega
  case w2 => exact fun s gid g hg h1 reached live resident => execWatchdogW2_due hg h1 reached live resident
  case w2Early =>
    intro s gid g hg h
    show Host.Outcome.next _ = _
    simp only [hg]
    have early : decide (g.wdSince < wdogCycles s g.lr.queue 1) = true := decide_eq_true h
    simp only [early, Bool.or_true, Bool.true_or, if_true]
  case w3 =>
    intro s c x q ho hf
    show Host.Outcome.next _ = _
    simp only [ho, hf]
    rfl
  case w3Early =>
    intro s c ho
    show Host.Outcome.next _ = _
    simp only [ho]
  case returns =>
    intro s c hf ht
    exact congrArg Host.Outcome.next (if_neg (by simp [hf, ht]))
  case stays =>
    intro s c h
    refine congrArg Host.Outcome.next (if_pos ?_)
    obtain h | h := h
    · simp [h]
    · simpa using .inr h

end Sys2Proof.Machine
end

section
/-!
Traps: what their delivery reads and leaves, their resume points, and the return from a handler (R406 to R414, R430, R431).
-/
namespace Sys2Proof.Machine
set_option Elab.async false

/-! ### Delivery reads the vector table (R409, R437) -/

/-- An error injected for the next read of the line at 0x300. -/
def deferredAtVector : ErrUnit × Bool := (⟨0x08, homeSlice 0x300, 6, false, 0⟩, true)

/-- Thread 1 of seal 0 stands with an empty vector table at 0, whose entry for BREAK lies at 0x308. -/
def vectorInjected : State := { threads := [(1, probeThread 2 0)], errors := { deferred := [deferredAtVector] } }

/-- Reading the entry of BREAK meets the error: it waits no longer for a read. -/
theorem deferred_deliver_vectorInjected : (deliver vectorInjected 1 0x61 0 0 0 0 0).errors.deferred = [] := by decide +kernel

/-- Refutes O19: delivery reads the vector-table entry, and the read meets an error that ERRINJ has deferred to it (R437), where the
statement has a delivery change nothing but its thread. In `vectorInjected` the default action of BREAK takes the error off the
list of those deferred. -/
theorem not_deliveryEntersTheHandler : ¬ Obligations.DeliveryEntersTheHandler := by
  unfold Obligations.DeliveryEntersTheHandler
  rintro ⟨delivers, -⟩
  have ignored := (delivers vectorInjected 1 (probeThread 2 0) 0x61 0 0 0 0 0 rfl).2.1 rfl (by decide +kernel) (by decide)
  have unread : (deliver vectorInjected 1 0x61 0 0 0 0 0).errors.deferred = [deferredAtVector] :=
    congrArg (fun s : State => s.errors.deferred) ignored
  exact absurd (deferred_deliver_vectorInjected.symm.trans unread) (List.cons_ne_nil _ _).symm

/-! ### Resume points (R406, R408) -/

theorem threads_metVector (s : State) (x cause : Nat) : (metVector s x cause).threads = s.threads := by
  unfold metVector
  dsimp only
  split
  · rfl
  · exact (Looked.met ..).threads

theorem readVector_metVector (s : State) (x y c cause : Nat) : readVector (metVector s x c) y cause = readVector s y cause := by
  unfold metVector
  dsimp only
  split
  · rfl
  · have looked := Looked.met s (.glob (vectorAt s x c)) 8
    generalize met s (.glob (vectorAt s x c)) 8 = s' at *
    rw [looked.eq]
    rfl

/-- Delivery to a handler leaves the thread in it. -/
theorem thread_deliver {s : State} {t cause v : Nat} {th : Thread} (i0 i1 i2 i3 : Word) (words : Nat) (ht : thread? s t = some th)
    (ha : th.trap.tactive = false) (hv : readVector s th.sealId cause = some v) (h0 : v ≠ 0) :
    thread? (deliver s t cause i0 i1 i2 i3 words) t = some (th.enterHandler cause i0 i1 i2 i3 words v) := by
  obtain ⟨v, rfl⟩ := Nat.exists_eq_succ_of_ne_zero h0
  simp only [deliver, ht, ha, readVector_metVector, hv, Bool.false_eq_true, if_false]
  exact thread_setThread ..

/-- Settles O20: the thread is put to its resume point before the delivery, and TRAP goes past itself. -/
theorem synchronousTraps : Obligations.SynchronousTraps := by
  refine ⟨?resumePoint, fun sw d i => runs_of (fun _ => rfl) fun k _ => rfl, ?past⟩
  case resumePoint =>
    intro s t th cause i0 i1 i2 i3 v ht ha hv h0
    have entered : thread? (trapSync s t cause i0 i1 i2 i3) t =
        some (th.atResume.enterHandler cause i0 i1 i2 i3 (th.skipWords cause) v) := by
      rw [trapSync, ht]
      exact thread_deliver _ _ _ _ _ (thread_setThread s t th.atResume) ha hv h0
    rw [entered]
    rfl
  case past =>
    intro th c hc
    refine ⟨fun hw => ?_, fun hw => ?_⟩
    · rw [th.advance_within hc hw]
      rfl
    · rw [th.advance_past hc hw]
      exact ⟨Nat.mod_mod (th.pc + 4 * (c.n + 1)) (2 ^ 64), rfl⟩

/-! ### RTE (R412, R431) -/

namespace Thread
variable (th : Thread)

/-- The saved value of one of g0 to g3. -/
def saved (r : Nat) : Word :=
  if r = 0 then th.trap.save0 else if r = 1 then th.trap.save1 else if r = 2 then th.trap.save2 else th.trap.save3

theorem kget_setReg_if (on : Bool) (r : Nat) (v : Word) (j : Nat) :
    kget? (if on then th.setReg r v else th).regs j = if on = true ∧ j = r then some v else kget? th.regs j := by
  cases on
  · simp
  · simp [setReg, kget_kset]

theorem regs_rte : th.rte.regs = th.restored.regs := by
  show (toResume _).regs = _
  unfold toResume
  dsimp only
  split <;> rfl

/-- RTE maps the registers that TSMAP names to what delivery saved, and leaves those from g4 on. -/
theorem kget_rte (r : Nat) : kget? th.rte.regs r =
    if 4 ≤ r then kget? th.regs r else if th.trap.tsmap.testBit r then some (th.saved r) else none := by
  rw [regs_rte, restored]
  simp only [kget_setReg_if]
  by_cases high : 4 ≤ r
  · rw [if_neg (by omega), if_neg (by omega), if_neg (by omega), if_neg (by omega), if_pos high]
    exact th.kget_unmap_of_not_mem (by simp; omega)
  · have low : r = 0 ∨ r = 1 ∨ r = 2 ∨ r = 3 := by omega
    have unmapped : kget? (th.unmap [0, 1, 2, 3]).regs r = none := th.kget_unmap_of_mem (by simpa using low)
    obtain rfl | rfl | rfl | rfl := low <;> simp [unmapped, saved]

theorem restored_eq : th.restored = { th with regs := th.restored.regs } := by
  have put (th : Thread) (on : Bool) (r : Nat) (v : Word) : ∃ regs, (if on then th.setReg r v else th) = { th with regs := regs } := by
    cases on <;> exact ⟨_, rfl⟩
  unfold restored
  dsimp only
  obtain ⟨_, h0⟩ := put (th.unmap [0, 1, 2, 3]) (th.trap.tsmap.testBit 0) 0 th.trap.save0
  rw [h0]
  obtain ⟨_, h1⟩ := put _ (th.trap.tsmap.testBit 1) 1 th.trap.save1
  rw [h1]
  obtain ⟨_, h2⟩ := put _ (th.trap.tsmap.testBit 2) 2 th.trap.save2
  rw [h2]
  obtain ⟨_, h3⟩ := put _ (th.trap.tsmap.testBit 3) 3 th.trap.save3
  rw [h3]
  rfl

theorem rte_eq : th.rte = { { th with regs := th.restored.regs }.toResume with
    preds := th.trap.tpred % 256, sysMode := th.trap.pmode, trap := { th.trap with tactive := false } } := by
  rw [rte, th.restored_eq]

theorem sealId_rte : th.rte.sealId = th.sealId := by
  rw [th.rte_eq, toResume]
  dsimp only
  split <;> rfl

/-- Where RTE goes: to the resume point, which is a header, or to a word of a clause that is fetched again (R30). -/
theorem rte_header (h : th.trap.tword = 0) : th.rte.pc = th.trap.tpc % 2 ^ 64 ∧ th.rte.word = 0 ∧ th.rte.clause = none := by
  rw [th.rte_eq, toResume]
  simp only [h, if_true]
  exact ⟨rfl, rfl, rfl⟩

theorem rte_within (h : th.trap.tword ≠ 0) : th.rte.pc = wrap ((th.trap.tpc : Int) - 4 * th.trap.tword) 64
    ∧ th.rte.word = th.trap.tword
    ∧ th.rte.clause = some { header := 0, cls := th.trap.tcls, n := th.trap.tn, words := [], resumed := true } := by
  rw [th.rte_eq, toResume]
  simp only [h, if_false]
  exact ⟨trivial, trivial, trivial⟩

theorem wrap_cast (v : Int) (n : Nat) : (wrap v n : Int) = v.emod (2 ^ n) := by
  have pos : 0 ≤ v % ((2 ^ n : Nat) : Int) := Int.emod_nonneg _ (by positivity)
  rw [wrap, Int.toNat_of_nonneg pos]
  push_cast
  rfl

/-- The words of a clause before the resume point, counted back from it, are its header's place. -/
theorem wrap_resumeAddr (h : th.pc < 2 ^ 64) : wrap ((th.resumeAddr : Int) - 4 * th.word) 64 = th.pc := by
  have cast := wrap_cast ((th.resumeAddr : Int) - 4 * th.word) 64
  have back : ((th.resumeAddr : Int) - 4 * th.word).emod (2 ^ 64) = th.pc := by
    rw [resumeAddr]
    push_cast
    show ((((th.pc : Int) + 4 * th.word) % 2 ^ 64 - 4 * th.word) % 2 ^ 64) = _
    omega
  omega

/-! ### A handler that returns at once (R409, R431) -/

theorem testBit_mapBits (a b c d : Bool) (r : Nat) (h : r < 4) :
    (b2n a + 2 * b2n b + 4 * b2n c + 8 * b2n d).testBit r = if r = 0 then a else if r = 1 then b else if r = 2 then c else d := by
  have low : r = 0 ∨ r = 1 ∨ r = 2 ∨ r = 3 := by omega
  obtain rfl | rfl | rfl | rfl := low <;> cases a <;> cases b <;> cases c <;> cases d <;> rfl

section
variable (cause : Nat) (i0 i1 i2 i3 : Word) (words v : Nat)

theorem kget_enterHandler_rte (r : Nat) : kget? (th.enterHandler cause i0 i1 i2 i3 words v).rte.regs r = kget? th.regs r := by
  rw [kget_rte]
  split
  · exact th.kget_unmap_of_not_mem (by simp; omega)
  next low =>
    have low : r < 4 := by omega
    have bit : (th.enterHandler cause i0 i1 i2 i3 words v).trap.tsmap.testBit r = th.mapped r := by
      refine (testBit_mapBits _ _ _ _ r low).trans ?_
      have cases : r = 0 ∨ r = 1 ∨ r = 2 ∨ r = 3 := by omega
      obtain rfl | rfl | rfl | rfl := cases <;> rfl
    have value : (th.enterHandler cause i0 i1 i2 i3 words v).saved r = th.reg r := by
      have cases : r = 0 ∨ r = 1 ∨ r = 2 ∨ r = 3 := by omega
      obtain rfl | rfl | rfl | rfl := cases <;> rfl
    rw [bit, value, mapped, reg, kgetD]
    cases kget? th.regs r <;> rfl

end
end Thread

/-- Settles O21: RTE by what it restores, and the return from a delivery by what the delivery saved. -/
theorem returnsFromHandlers : Obligations.ReturnsFromHandlers := by
  refine ⟨⟨?returns, ?outside, ?overBudget, ?restores⟩, ?roundTrip⟩
  case returns =>
    refine fun sw => runs_of (fun _ => rfl) fun k ⟨ha, hb⟩ => ?_
    simp only [ha, Nat.not_lt.2 hb, Bool.not_true, Bool.false_eq_true, if_false]
  case outside =>
    refine fun sw => traps_of (fun _ => rfl) fun k ha => ?_
    simp only [ha, Bool.not_false, if_true]
    rfl
  case overBudget =>
    intro sw s t th hp ha hb
    refine holds_of (pre := fun k => k.th.trap.tactive = true ∧ k.th.budget < k.th.rteFootprint)
      (st := fun k => endThread (logUnhandled k.s k.th k.th.trap.cause k.th.trap.tpc true) k.t) (fun _ => rfl) (fun k ⟨ha, hb⟩ => ?_)
      s t th hp ⟨ha, hb⟩
    simp only [ha, hb, Bool.not_true, Bool.false_eq_true, if_false, if_true]
  case restores =>
    intro th _
    refine ⟨fun r hr => ?_, fun r hr => ?_, rfl, rfl, rfl, th.rte_header, fun h => ?_⟩
    · rw [th.kget_rte, if_neg (Nat.not_le.2 hr)]
      rfl
    · rw [th.kget_rte, if_pos hr]
    · obtain ⟨pc, word, -⟩ := th.rte_within h
      exact ⟨by rw [pc, Thread.wrap_cast], word⟩
  case roundTrip =>
    intro th cause i0 i1 i2 i3 words v _ ha hpreds hpc hclause
    have place : (th.enterHandler cause i0 i1 i2 i3 words v).rte.pc = th.pc ∧ (th.enterHandler cause i0 i1 i2 i3 words v).rte.word = th.word := by
      by_cases h0 : th.word = 0
      · obtain ⟨pc, word, -⟩ := (th.enterHandler cause i0 i1 i2 i3 words v).rte_header h0
        refine ⟨pc.trans ?_, word.trans h0.symm⟩
        show ((th.pc + 4 * th.word) % 2 ^ 64) % 2 ^ 64 = th.pc
        omega
      · obtain ⟨pc, word, -⟩ := (th.enterHandler cause i0 i1 i2 i3 words v).rte_within h0
        exact ⟨pc.trans (th.wrap_resumeAddr hpc), word⟩
    refine ⟨th.kget_enterHandler_rte cause i0 i1 i2 i3 words v, ?_, ?_, place.1, place.2, fun c hc h0 => ?_⟩
    · show th.preds % 256 % 256 = th.preds
      omega
    · rw [Thread.system, Thread.sealId_rte]
      show (th.system || false || th.sealId == 0) = th.system
      simp only [Thread.system]
      cases th.sealId == 0 <;> simp
    · obtain ⟨-, -, clause⟩ := (th.enterHandler cause i0 i1 i2 i3 words v).rte_within h0
      rw [clause, Thread.enterHandler]
      simp [hc, h0]

end Sys2Proof.Machine
end

section
/-!
System registers: the words that read and write them, and what a write leaves (R413 to R415, R432).
-/
namespace Sys2Proof.Machine
set_option Elab.async false

/-! ### SRD and SWR (R415, R432) -/

/-- Settles O23: each word by what its number names, and the map of numbers by evaluation. -/
theorem systemRegisterWords : Obligations.SystemRegisterWords := by
  refine ⟨?reads, ?writes, ?refused, ?unlisted, ?host, rfl, rfl, rfl, rfl, rfl, rfl, rfl, rfl, rfl, rfl, rfl, rfl, rfl, rfl, rfl, rfl,
    rfl, rfl, rfl, rfl, rfl, rfl, rfl, rfl⟩
  case reads =>
    refine fun sw d i hu hh => runs_of (fun _ => rfl) fun k _ => ?_
    split
    · contradiction
    · contradiction
    · rfl
  case writes =>
    refine fun sw d i hu hh => runs_of (fun _ => rfl) fun k hz => ?_
    split
    · contradiction
    · contradiction
    · simp only [Ctx.g, hz, bne_self_eq_false, Bool.false_eq_true, if_false]
  case refused =>
    refine fun sw d i hu hh => traps_of (fun _ => rfl) fun k hz => ?_
    split
    · contradiction
    · contradiction
    · simp only [Ctx.g, bne_iff_ne.2 hz, if_true]
      rfl
  case unlisted =>
    refine fun sw d i hu => ⟨traps_of (fun _ => rfl) fun k _ => ?_, traps_of (fun _ => rfl) fun k _ => ?_⟩
    · simp only [hu]
      rfl
    · simp only [hu]
      rfl
  case host =>
    refine fun sw d i hh => ⟨traps_of (fun _ => rfl) fun k _ => ?_, traps_of (fun _ => rfl) fun k _ => ?_⟩
    · simp only [hh]
      rfl
    · simp only [hh]
      rfl

/-! ### Register writes (R413, R414) -/

section
variable (s : State) (t : Nat) (th : Thread) (w : Word)

theorem writeTpc_low : thread? (writeTpc s t th false w) t =
    some { th with trap := { th.trap with tpc := th.trap.tpc / 2 ^ 32 * 2 ^ 32 + w.toNat, tword := 0 } } :=
  thread_setThread s t _

theorem writeMeet_low : thread? (writeMeet s t th false w) t =
    some { th with meet := BitVec.ofNat 64 (th.meet.toNat / 2 ^ 32 * 2 ^ 32 + w.toNat) } :=
  thread_setThread s t _

theorem setWidth_meet (m : Nat) : (BitVec.ofNat 64 (m / 2 ^ 32 * 2 ^ 32 + w.toNat)).setWidth 32 = w := by
  have := w.isLt
  apply BitVec.eq_of_toNat_eq
  simp only [BitVec.toNat_setWidth, BitVec.toNat_ofNat]
  omega

/-- The trap registers after a write of TSTAT, before its SKIP. -/
def tstatWritten (tr : TrapRegs) (v : Nat) : TrapRegs :=
  { tr with alost := tr.alost && flag v 26, pmode := flag v 12, tsmap := fld v 8 4, tpred := fld v 0 8 }

theorem thread_writeTstat : thread? (writeTstat s t th w) t = some { th with
    trap := if flag w.toNat 25 then (tstatWritten th.trap w.toNat).skip else tstatWritten th.trap w.toNat } :=
  thread_setThread s t _

/-- The information and saved registers, by their numbers: what is written reads back. -/
theorem readTrapReg_written (n : Nat) (hn : n ∈ [0x0C, 0x10, 0x14, 0x18, 0x1C, 0x20, 0x24, 0x28, 0x04]) :
    (thread? (sysWrite s t th (.thread n) w) t).map (fun h => readTrapReg s h n) = some w.toNat := by
  simp only [List.mem_cons, List.not_mem_nil, or_false] at hn
  obtain rfl | rfl | rfl | rfl | rfl | rfl | rfl | rfl | rfl := hn
  case inr.inr.inr.inr.inr.inr.inr.inr =>
    have low : (th.trap.tpc / 2 ^ 32 * 2 ^ 32 + w.toNat) % 2 ^ 32 = w.toNat := by
      have := w.isLt
      omega
    show (thread? (writeTpc s t th false w) t).map _ = _
    rw [writeTpc_low, Option.map_some, readTrapReg]
    exact congrArg some low
  all_goals exact congrArg _ (thread_setThread s t _)

/-- A saved register that is written is restored as mapped (R412). -/
theorem tsmap_written (r : Nat) (hr : r < 4) :
    (thread? (sysWrite s t th (.thread (0x1C + 4 * r)) w) t).map (fun h => h.trap.tsmap.testBit r) = some true := by
  have marked : ∀ i, (th.trap.tsmap ||| 2 ^ i).testBit i = true := fun i => by simp
  have cases : r = 0 ∨ r = 1 ∨ r = 2 ∨ r = 3 := by omega
  obtain rfl | rfl | rfl | rfl := cases <;> exact (congrArg _ (thread_setThread s t _)).trans (congrArg some (marked _))

end

theorem TrapRegs.skip_legal (t : TrapRegs) (h : t.skippable = true) : (t.skip.tpc, t.skip.tword, t.skip.skippable) =
    ((t.tpc + 4 * t.words) % 2 ^ 64, (if t.tn < t.tword + t.words then 0 else t.tword + t.words), false) := by
  simp only [skip, h, Bool.not_true, Bool.false_eq_true, if_false]
  split <;> rfl

/-- A register write of the opcode table, by the thread that runs, whose zero fields let it. -/
theorem writeCurrent_writes {s : State} {t : Nat} {th : Thread} (hcur : s.cur = some t) (ht : thread? s t = some th) {zs : Nat} {w : Word}
    (hz : w.toNat &&& zs = 0) (f : Nat → Thread → State) : writeCurrent s zs w f = f t th := by
  simp [writeCurrent, hcur, ht, hz]

/-! ### Core registers (R81, R82) -/

/-- Giving tokens back changes the tokens alone. -/
theorem Core.trim_eq (k : Core) (fuel : Nat) : k.trim fuel = { k with tokens := (k.trim fuel).tokens } := by
  induction fuel generalizing k with
  | zero => rfl
  | succ fuel ih =>
    unfold trim
    split
    · rfl
    · dsimp only
      split
      · exact ih _
      · rfl

/-- Granting tokens changes who has one, who waits, and whose turn is next. -/
theorem Core.grantAll_eq (k : Core) (now fuel : Nat) : k.grantAll now fuel = { k with
    tokens := (k.grantAll now fuel).tokens, waiting := (k.grantAll now fuel).waiting, tokenNext := (k.grantAll now fuel).tokenNext } := by
  induction fuel generalizing k with
  | zero => rfl
  | succ fuel ih =>
    unfold grantAll
    split
    · split
      · exact ih _
      · rfl
    · rfl

theorem core_writeMemgroups (s : State) (c : Nat) (w : Word) : (core (writeMemgroups s c w) c).auto = flag w.toNat 31
    ∧ (core (writeMemgroups s c w) c).limit =
      if flag w.toNat 31 then (core s c).limit else Nat.max 1 (Nat.min 128 (fld w.toNat 16 8)) := by
  rw [writeMemgroups, core_modCore, Core.grantAll_eq, Core.trim_eq]
  exact ⟨rfl, rfl⟩

/-- Settles O24: each write by the registers it leaves. -/
theorem threadRegisterWrites : Obligations.ThreadRegisterWrites := by
  refine ⟨fun s t th ht w => ⟨fun n => readTrapReg_written s t th w n, fun r => tsmap_written s t th w r, ?readOnly, ?tword, ?meet, ?fmt,
    ?tstat, ?skip⟩, ?current, ?memgroups, ?leasecfg, ?qcfg, ?qcfgHeld, ?wdog⟩
  case readOnly =>
    intro n hn
    simp only [List.mem_cons, List.not_mem_nil, or_false] at hn
    obtain rfl | rfl | rfl := hn <;> rfl
  case tword => exact congrArg _ (writeTpc_low s t th w)
  case meet => exact (congrArg _ (writeMeet_low s t th w)).trans (congrArg some (setWidth_meet w _))
  case fmt => exact congrArg _ (thread_setThread s t _)
  case tstat =>
    intro h
    have noSkip : flag w.toNat 25 = false := by rw [flag, h]; rfl
    refine (congrArg _ (thread_writeTstat s t th w)).trans ?_
    simp only [noSkip, Bool.false_eq_true, if_false]
    simp [tstatWritten, flag, fld]
  case skip =>
    intro h legal
    have skips : flag w.toNat 25 = true := by rw [flag, h]; rfl
    refine (congrArg _ (thread_writeTstat s t th w)).trans ?_
    simp only [skips, if_true]
    exact congrArg some (TrapRegs.skip_legal (tstatWritten th.trap w.toNat) legal)
  case current =>
    intro s t th w hcur ht
    have writes {zs : Nat} {f : Nat → Thread → State} (hz : w.toNat &&& zs = 0) :
        (.next (writeCurrent s zs w f) : Host.Outcome State Fault Refusal) = .next (f t th) :=
      congrArg Host.Outcome.next (writeCurrent_writes hcur ht hz f)
    exact ⟨writes (Nat.and_zero _), writes, writes (Nat.and_zero _), writes, writes, writes⟩
  case memgroups =>
    intro s c w hz
    refine ⟨writeMemgroups s c w, congrArg Host.Outcome.next (if_neg (by simpa [sysZero] using hz)), ?_⟩
    obtain ⟨auto, limit⟩ := core_writeMemgroups s c w
    rw [auto, limit]
    simp [flag, fld]
  case leasecfg =>
    intro s c w hz
    refine ⟨writeLeasecfg s c w, congrArg Host.Outcome.next (if_neg (by simpa [sysZero] using hz)), ?_⟩
    rw [writeLeasecfg, core_modCore]
    simp [fld]
  case qcfg =>
    intro s cluster q w _ hz he hw
    refine ⟨writeQcfg s cluster q w, congrArg Host.Outcome.next (if_neg (by simpa [sysZero] using hz)), ?_⟩
    simp only [writeQcfg, he, hw, List.isEmpty_nil, Bool.not_true, Bool.or_self, Bool.false_eq_true, if_false, queueOf_setQueue]
    simp [flag, fld]
  case qcfgHeld =>
    intro s cluster q w hz h
    refine congrArg Host.Outcome.next ((if_neg (by simpa [sysZero] using hz)).trans (if_pos ?_))
    obtain h | h := h
    · simp [List.isEmpty_eq_false_iff.2 h]
    · simp [List.isEmpty_eq_false_iff.2 h]
  case wdog =>
    intro s q w hq hz
    refine ⟨writeWdog s q w, congrArg Host.Outcome.next (if_neg ?_), ?_⟩
    · simpa [sysZero, hz] using hq
    · refine ((kgetD_kset ..).trans (if_pos rfl)).trans ?_
      simp [fld]

end Sys2Proof.Machine
end

section
/-!
Decode tables, queries of seals, halts, injected errors and dropped translations (R433 to R439).
-/
namespace Sys2Proof.Machine
set_option Elab.async false

/-- A seal may be asked of by its own threads and in system mode. -/
theorem sealAllowed_iff {th : Thread} {x : Nat} : (!th.system && x != th.sealId) = false ↔ th.system = true ∨ x = th.sealId := by
  cases th.system <;> simp

/-- Settles O25: DTLOAD by what its block holds, and SEALQ by the seal and the selector it names. -/
theorem tablesAndSealQueries : Obligations.TablesAndSealQueries := by
  refine ⟨fun sw d a x => ⟨?stores, ?takes, ?keeps⟩, fun sw d a x => ⟨?answers, ?foreign, ?undefined⟩⟩
  case stores =>
    refine fun as_ => runs_of (fun _ => rfl) fun k ⟨hw, hc⟩ => ?_
    simp only [if_true] at hc
    simp only [dtloadBody, hw, Ctx.g64, hc, Bool.false_eq_true, if_false, if_true]
  case takes =>
    refine fun as_ => runs_of (fun _ => rfl) fun k ⟨hw, hc, ht⟩ => ?_
    simp only [Bool.false_eq_true, if_false] at hc
    simp only [dtloadBody, hw, Ctx.g64, hc, ht, Bool.false_eq_true, if_false]
  case keeps =>
    refine fun as_ c i => runs_of (fun _ => rfl) fun k ⟨hw, hc, ht⟩ => ?_
    simp only [Bool.false_eq_true, if_false] at hc
    simp only [dtloadBody, hw, Ctx.g64, hc, ht, Bool.false_eq_true, if_false]
  case answers =>
    refine runs_of (fun _ => rfl) fun k ⟨hk, hz, hs⟩ => ?_
    have may := sealAllowed_iff.2 hk
    have listed : ¬ 10 ≤ (k.th.reg a.toNat).toNat % 2 ^ 4 := Nat.not_le.2 hs
    simp only [beq_iff_eq, Ctx.g, fld, pow_zero, Nat.div_one, may, hz, listed, bne_self_eq_false, decide_false, Bool.or_self,
      Bool.false_eq_true, if_false]
    rfl
  case foreign =>
    refine traps_of (fun _ => rfl) fun k hk => ?_
    have may := Bool.eq_true_of_not_eq_false (mt sealAllowed_iff.1 hk)
    simp only [beq_iff_eq, Ctx.g, fld, may, if_true]
    rfl
  case undefined =>
    refine traps_of (fun _ => rfl) fun k ⟨hk, hs⟩ => ?_
    have may := sealAllowed_iff.2 hk
    have refused : ((k.th.reg a.toNat).toNat &&& 0xFC00FFF0 != 0 || decide (10 ≤ (k.th.reg a.toNat).toNat % 2 ^ 4)) = true := by
      simpa using hs
    simp only [beq_iff_eq, Ctx.g, fld, pow_zero, Nat.div_one, may, refused, Bool.false_eq_true, if_false, if_true]
    rfl

/-! ### Keyed lists, value by value -/

theorem kget_mapVals {α β : Type} (m : KMap α) (f : α → β) (i : Nat) : kget? (m.map (fun p => (p.1, f p.2))) i = (kget? m i).map f := by
  induction m with
  | nil => rfl
  | cons p m ih =>
    rw [List.map_cons, kget?, kget?]
    split
    · rfl
    · exact ih

theorem flag_iff {w lo : Nat} : flag w lo = true ↔ w / 2 ^ lo % 2 = 1 := beq_iff_eq

/-! ### HALT and DBGCTL (R435, R436) -/

/-- A thread that a write of DBGCTL lets go on. -/
def Thread.goesOn (v : Nat) (th : Thread) : Thread :=
  if th.wait == .halt && th.sealId == fld v 0 10 then th.wake else th

theorem thread_writeDbgctl (s : State) (w : Word) (t : Nat) : thread? (writeDbgctl s w) t =
    if flag w.toNat 31 then (thread? s t).map (Thread.goesOn w.toNat) else thread? s t := by
  cases h : flag w.toNat 31 with
  | false => simp [writeDbgctl, h]
  | true =>
    have values : s.threads.map (fun p => if p.2.wait == .halt && p.2.sealId == fld w.toNat 0 10 then (p.1, p.2.wake) else p) =
        s.threads.map (fun p => (p.1, p.2.goesOn w.toNat)) :=
      List.map_congr_left fun p _ => by
        unfold Thread.goesOn
        split <;> rfl
    simp only [writeDbgctl, h, Bool.not_true, Bool.false_eq_true, if_false, if_true, thread?, values]
    exact kget_mapVals ..

/-! ### Dropped translations (R181, R438, R439) -/

theorem station_dropTlb (s : State) (entry : TlbEntry → Bool) (walk : Walk → Bool) (sid : Nat) :
    (station (dropTlb s entry walk) sid).tlb = (station s sid).tlb.filter (fun e => !entry e) := by
  rw [station, station, kgetD, kgetD, dropTlb]
  simp only [kget_mapVals s.stations (fun x => { x with
    tlb := x.tlb.filter (fun e => !entry e), walks := x.walks.map (fun w => if walk w then { w with stale := true } else w) })]
  cases kget? s.stations sid <;> rfl

/-- Dropping a seal's translations leaves those of other seals and, where an address is named, of other pages. -/
theorem mem_dropSealTlb (s : State) (x : Nat) (va : Option Nat) (sid : Nat) (e : TlbEntry) :
    e ∈ (station (dropSealTlb s x va) sid).tlb ↔ e ∈ (station s sid).tlb
      ∧ (e.sealId ≠ x ∨ ∃ a, va = some a ∧ e.page ≠ a / 2 ^ levelLo e.level) := by
  cases va with
  | none => simp [dropSealTlb, station_dropTlb]
  | some a => simp [dropSealTlb, station_dropTlb]

/-- What a completed invalidation of the device leaves. -/
theorem mem_execTlbInvalidationComplete {s : State} {r : TlbRun} (hr : s.dev.tlbRun = some r) :
    ∃ s', exec .tlbInvalidationComplete s = .next s' ∧ s'.dev.tlbRun = none
      ∧ ∀ sid e, e ∈ (station s' sid).tlb ↔ e ∈ (station s sid).tlb ∧ r.scope ≠ 2
          ∧ (e.sealId ≠ r.sealId ∨ (r.scope = 0 ∧ e.page ≠ r.va / 2 ^ levelLo e.level)) := by
  have run : exec .tlbInvalidationComplete s = .next (if r.scope == 2
      then dropTlb (modDev s (fun d => { d with tlbRun := none })) (fun _ => true) (fun _ => true)
      else dropSealTlb (modDev s (fun d => { d with tlbRun := none })) r.sealId (if r.scope == 0 then some r.va else none)) := by
    show Host.Outcome.next _ = _
    simp only [hr]
  refine ⟨_, run, ?_⟩
  by_cases all : r.scope = 2
  · rw [if_pos (beq_iff_eq.2 all)]
    refine ⟨rfl, fun sid e => ?_⟩
    rw [station_dropTlb]
    simp [all]
  · rw [if_neg (mt beq_iff_eq.1 all)]
    refine ⟨by cases r.scope == 0 <;> rfl, fun sid e => ?_⟩
    rw [mem_dropSealTlb]
    by_cases one : r.scope = 0
    · simp [one]
    · simp [one, all]

/-! ### ERRINJ and TLBINV (R437, R438) -/

section
variable {n addr : Nat}

theorem injCode_eq (n : Nat) : fld n 0 5 = n % 32 := fld_low n 5

/-- The address lies in the window of the entry's structure, and no other bit is set. -/
theorem errinj_names (hwin : (injWindows (n % 32)).contains (selector addr) = true) (hn : n < 2 ^ 7)
    (hoff : n % 32 = 6 → addr % 2 ^ 20 < 1024) : (!(injWindows (n % 32)).contains (selector addr) || decide (2 ^ 7 ≤ n)
      || (n % 32 == 0x06 && decide (1024 ≤ fld addr 0 20))) = false := by
  have near : (n % 32 == 0x06 && decide (1024 ≤ addr % 2 ^ 20)) = false := by
    rw [Bool.and_eq_false_iff, beq_eq_false_iff_ne, decide_eq_false_iff_not, Nat.not_le]
    exact imp_iff_not_or.1 hoff
  rw [fld_low, near, hwin, decide_eq_false (Nat.not_le.2 hn)]
  rfl

theorem inject_eq (u : ErrUnit) (n : Nat) : inject u (flag n 5) (flag n 6) = fun s =>
    if n / 2 ^ 6 % 2 = 1 then modErrors s (fun e => { e with deferred := e.deferred ++ [(u, n / 2 ^ 5 % 2 == 1)] })
    else handleError s u (n / 2 ^ 5 % 2 == 1) true := by
  funext s
  simp only [inject, flag, beq_iff_eq]

end

/-- Settles O26: each word by what its operands name, and each write by the threads and translations it leaves. -/
theorem haltsInjectionsAndInvalidations : Obligations.HaltsInjectionsAndInvalidations := by
  refine ⟨⟨fun sw => runs_of (fun _ => rfl) fun k _ => rfl, ?dbgctl⟩, ?errinj, ?tlbinv, mem_dropSealTlb, ?go,
    fun s w => ⟨_, _, rfl, rfl, rfl, rfl⟩, fun s r => mem_execTlbInvalidationComplete⟩
  case dbgctl =>
    intro s t th w ht
    refine ⟨_, rfl, fun hgo hw hx => ?_, fun h => ?_⟩
    · have go : flag w.toNat 31 = true := flag_iff.2 hgo
      have goesOn : th.goesOn w.toNat = th.wake := if_pos (by simp [hw, hx, fld])
      rw [thread_writeDbgctl, if_pos go, ht, Option.map_some, goesOn]
    · rw [thread_writeDbgctl, ht]
      split
      next go =>
        refine congrArg some (if_neg ?_)
        obtain h | h | h := h
        · rw [flag_iff, h] at go
          contradiction
        · simp [h]
        · simp [h, fld]
      · rfl
  case errinj =>
    intro sw a b x y
    dsimp only
    refine fun u => runs_of (fun _ => rfl) fun k ⟨hwin, hv, hoff, hu, hx⟩ => ?_
    have mine : (k.th.sealId != 0 && unitSeal k.s u != 0 && unitSeal k.s u != k.th.sealId) = false := by
      simpa only [Bool.and_eq_false_iff, bne_eq_false_iff_eq, or_assoc] using hx
    have names := errinj_names (n := (k.g b).toNat) (addr := k.g64 a) hwin hv hoff
    have unit : injUnit k ((k.g b).toNat % 32) (k.g64 a) = .ok u := hu
    simp only [injCode_eq, names, unit, mine, Bool.false_eq_true, if_false, inject_eq]
    rfl
  case tlbinv =>
    intro sw d a b x y s'
    dsimp only
    refine runs_of (fun _ => rfl) fun k ⟨hx, hsel, hz, hwin, hp⟩ => ?_
    have kind : fld (k.th.reg b.toNat).toNat 0 2 = (k.th.reg b.toNat).toNat % 4 := fld_low ..
    have low : ¬ 2 ≤ (k.th.reg b.toNat).toNat % 4 := Nat.not_le.2 hsel
    have mine (x : Nat) (hx : x = k.th.sealId ∨ k.th.sealId = 0) : (x != k.th.sealId && k.th.sealId != 0) = false := by
      simpa only [Bool.and_eq_false_iff, bne_eq_false_iff_eq] using hx
    have placed {e : Except Stop Eff} : (match (if (k.th.reg b.toNat).toNat % 4 != 0 then none
        else match windowFault (k.th.reg64 a.toNat) with
          | some r => some r
          | none => if selector (k.th.reg64 a.toNat) != 0 then some 3 else none) with
        | some r => .error (accessViolation r (k.th.reg64 a.toNat) k.iw)
        | none => e) = e := by
      by_cases h : (k.th.reg b.toNat).toNat % 4 = 0
      · obtain ⟨window, sel⟩ := hwin h
        simp [window, sel]
      · simp [h]
    have named : fld (k.th.reg b.toNat).toNat 16 10 = (k.th.reg b.toNat).toNat / 2 ^ 16 % 2 ^ 10 := rfl
    simp only [Ctx.g, Ctx.g64, beq_iff_eq, kind, named, mine _ hx, low, hz, hp, Except.bind, inState_retLater, bne_self_eq_false,
      decide_false, Bool.or_self, Bool.false_eq_true, if_false]
    exact placed
  case go =>
    intro s w hgo hscope hz hrun
    have go : flag w.toNat 31 = true := flag_iff.2 (by rw [hgo])
    refine ⟨_, congrArg Host.Outcome.next (if_neg ?_), by simp [modDev, fld]⟩
    have scope : (fld w.toNat 10 2 == 3) = false := beq_eq_false_iff_ne.2 hscope
    have zero : fld w.toNat 12 19 = 0 := hz
    simp only [go, scope, zero, hrun]
    decide

end Sys2Proof.Machine
end

section
/-!
Time words, and the words of chains and strips (R393 to R400).
-/
namespace Sys2Proof.Machine
set_option Elab.async false

/-! ### Instants and budgets (R393 to R396) -/

theorem exec_timeWaitExpiry {s : State} {t v : Nat} {th : Thread} (h : thread? s t = some th) (hw : th.wait = .time v) :
    exec (.timeWaitExpiry t) s = .next (setThread s t (if v ≤ s.tnow then th.wake else th)) := by
  show Host.Outcome.next (modThread s t _) = _
  rw [modThread_eq _ h, hw]

theorem deadValue_chain {k : Ctx} {c : Chain} (h : k.chain = some c) :
    deadValue k 1 = some c.t ∧ deadValue k 2 = some c.f ∧ deadValue k 3 = some c.s := by
  simp only [deadValue, h, Option.map_some, and_self]

theorem deadValue_no_chain {k : Ctx} {n : Nat} (h : k.chain = none) (hn : 1 ≤ n) : deadValue k n = none := by
  unfold deadValue
  split
  · omega
  all_goals simp only [h, Option.map_none, Option.bind_none]

theorem deadValue_undefined {k : Ctx} {n : Nat} (hn : 7 ≤ n) : deadValue k n = none := by
  unfold deadValue
  split
  case h_8 => rfl
  all_goals omega

/-! ### What keeps a strip from being committed (R397) -/

theorem commitRefused_unheld {s : State} {f : Nat} {σ : StripOn}
    (h : ¬ ((slotOf s σ.ring σ.slot).holds f σ.strip = true ∧ (slotOf s σ.ring σ.slot).state ∈ [1, 2])) :
    commitRefused s f σ = some 3 := by
  refine if_pos ?_
  simpa [not_and_or, or_iff_not_imp_left] using h

theorem commitRefused_committed {s : State} {f : Nat} {σ : StripOn} (hh : (slotOf s σ.ring σ.slot).holds f σ.strip = true)
    (hs : (slotOf s σ.ring σ.slot).state = 2) : commitRefused s f σ = some 2 := by
  simp [commitRefused, hh, hs]

theorem commitRefused_late {s : State} {f : Nat} {σ : StripOn} (hh : (slotOf s σ.ring σ.slot).holds f σ.strip = true)
    (hs : (slotOf s σ.ring σ.slot).state = 1) (ht : σ.t ≤ s.tnow) : commitRefused s f σ = some 1 := by
  simp [commitRefused, hh, hs, ht]

theorem commitRefused_none {s : State} {f : Nat} {σ : StripOn} (hh : (slotOf s σ.ring σ.slot).holds f σ.strip = true)
    (hs : (slotOf s σ.ring σ.slot).state = 1) (ht : s.tnow < σ.t) : commitRefused s f σ = none := by
  simp [commitRefused, hh, hs, ht]

theorem commitBody_refused {k : Ctx} {s : State} {d : BitVec 6} {c : Chain} {σ : StripOn} {buf : Option Buffer} {n : Nat}
    (h : commitRefused s c.frame σ = some n) :
    commitBody k s d c σ buf = .ok { st := s, launch := answerOn 4 d [wordN n] } := by
  simp only [commitBody, h]
  rfl

/-- SCOMMIT without a buffer, where its strip may be committed or its answer says why not. -/
theorem scommit_runs {sw : Bool} {d a b : BitVec 6} {x y : Bool} {c : Chain} {σ : StripOn} {s' : State} {pre : Prop} {eff : Ctx → Eff}
    (hb : ∀ k, pre → commitBody k s' d c σ none = .ok (eff k)) :
    Runs (.scommit sw d a b x y false) [⟨a.toNat, 1, x⟩]
      (fun k => k.chain = some c ∧ stripOn k c (k.th.reg a.toNat).toNat = some σ ∧ k.publish = .ok s' ∧ pre) eff := by
  refine runs_of (fun _ => rfl) fun k ⟨hc, hσ, hp, hpre⟩ => ?_
  simp only [hc, Ctx.g, hσ, hp, Bool.not_false, if_true]
  exact hb k hpre

/-- SCOMMIT of a buffer of its strip's size. -/
theorem scommit_buffer_runs {sw : Bool} {d a b : BitVec 6} {x y : Bool} {c : Chain} {σ : StripOn} {s' : State} {bf : Buffer}
    {pre : Prop} {eff : Ctx → Eff} (hb : ∀ k, pre → commitBody k s' d c σ (some bf) = .ok (eff k)) :
    Runs (.scommit sw d a b x y true) [⟨a.toNat, 1, x⟩, ⟨b.toNat, 2, y⟩]
      (fun k => k.chain = some c ∧ stripOn k c (k.th.reg a.toNat).toNat = some σ ∧ k.publish = .ok s'
        ∧ stripBuffer k (k.th.reg64 b.toNat) (4 * ((ringOf k.s σ.ring).width * (ringOf k.s σ.ring).rsh)) = .ok bf ∧ pre) eff := by
  refine runs_of (fun _ => rfl) fun k ⟨hc, hσ, hp, hbf, hpre⟩ => ?_
  simp only [hc, Ctx.g, hσ, hp, Ctx.g64, hbf, Bool.not_true, Bool.false_eq_true, if_false]
  exact hb k hpre

/-- A commit waits while its buffer is EMPTY or FILLING. -/
theorem serveCommit_waits {s : State} {id : Nat} {c : Commit} {f : Flight} {tm : Team} {b : Buffer}
    (hf : unitFlight s c.th id = some f) (hm : team? s c.team = some tm) (hb : tm.buffer? c.buf = some b)
    (hr : commitRefused s c.frame c.strip = none) (hs : b.state < 2) : serveCommit s (id, c) = s := by
  simp only [serveCommit, hf, hm, Option.bind_some, hb, hr, hs, if_true]

theorem serveCommit_commits {s : State} {id : Nat} {c : Commit} {f : Flight} {tm : Team} {b : Buffer}
    (hf : unitFlight s c.th id = some f) (hm : team? s c.team = some tm) (hb : tm.buffer? c.buf = some b)
    (hr : commitRefused s c.frame c.strip = none) (hs : 2 ≤ b.state) :
    ∃ s₁, s₁ = commitStrip s c.th c.team c.out c.pts c.strip (some b) ∧ serveCommit s (id, c) =
      modThread { s₁ with commits := kdel s₁.commits id } c.th (fun th => th.modFlight f.seq (fun f => { f with got := some [0] })) := by
  refine ⟨_, rfl, ?_⟩
  simp only [serveCommit, hf, hm, Option.bind_some, hb, hr, Nat.not_lt.2 hs, if_false]
  rfl

/-! ### SRATE (R400) -/

/-- SRATE on a strip of its chain whose ladder stands: by what it does with the ladder. -/
theorem srate_strip_runs {sw : Bool} {d a : BitVec 6} {n x : Bool} {o : BitVec 2} {c : Chain} {r i : Nat} {l : Ladder}
    {pre : Ctx → Prop} {eff : Ctx → Eff} (ho : o.toNat < 2) (hv : ∀ k, pre k → o.toNat = 0 ∨ (k.th.reg a.toNat).toNat ≤ 4)
    (hb : ∀ k, ladder? k.s r c.frame i = some l → rateBody k d c r i o.toNat (k.th.reg a.toNat).toNat = .ok (eff k)) :
    Runs (.srate sw d a n o x) (if o.toNat == 0 then [] else [src a x])
      (fun k => k.chain = some c ∧ rateStrip c n = some (r, i) ∧ ladder? k.s r c.frame i = some l ∧ pre k) eff := by
  refine runs_of (fun _ => rfl) fun k ⟨hc, hr, hl, hpre⟩ => ?_
  have h3 : (o.toNat == 3) = false := by simp; omega
  have h2 : (o.toNat == 2) = false := by simp; omega
  have small : (o.toNat != 0 && decide (4 < (k.g a).toNat)) = false := by
    rcases hv k hpre with h | h
    · rw [h]; rfl
    · rw [Bool.and_eq_false_iff]
      exact .inr (decide_eq_false (Nat.not_lt.2 h))
  simp only [hc, h3, h2, small, Bool.false_and, Bool.or_self, Bool.false_eq_true, if_false, hr]
  exact hb k hl

theorem srate_foreign (sw : Bool) (d a : BitVec 6) (n x : Bool) (o : BitVec 2) :
    Traps (.srate sw d a n o x) (if o = 0 then [] else [⟨a.toNat, 1, x⟩]) (fun k => k.chain = none) 0x01 (illegalInfos 3) := by
  have srcs : (if o = 0 then [] else [⟨a.toNat, 1, x⟩] : List Src) = if o.toNat == 0 then [] else [src a x] := by
    refine if_congr ?_ rfl rfl
    rw [beq_iff_eq, BitVec.toNat_eq]
    rfl
  rw [srcs]
  refine traps_of (fun _ => rfl) fun k hc => ?_
  simp only [hc]
  rfl

theorem srate_high (sw : Bool) (d a : BitVec 6) (n x : Bool) (o : BitVec 2) (ho : o ≠ 0) :
    Traps (.srate sw d a n o x) [⟨a.toNat, 1, x⟩] (fun k => k.chain.isSome = true ∧ 4 < (k.th.reg a.toNat).toNat) 0x01
      (illegalInfos 3) := by
  have ho' : o.toNat ≠ 0 := fun h => ho (BitVec.eq_of_toNat_eq h)
  have hx : ∀ s, exec (.srate sw d a n o x) s = issue (.srate sw d a n o x) [⟨a.toNat, 1, x⟩] _ s := fun s => by
    show execSrate sw d a n o x s = _
    unfold execSrate
    rw [if_neg (by simpa using ho')]
    rfl
  refine traps_of hx fun k ⟨hc, hv⟩ => ?_
  obtain ⟨c, hc⟩ := Option.isSome_iff_exists.1 hc
  have high : (o.toNat == 3 || o.toNat != 0 && decide (4 < (k.g a).toNat) || o.toNat == 2 && n) = true := by
    simp [Ctx.g, ho', hv]
  simp only [hc, high, if_true]
  rfl

/-! ### The obligation -/

theorem shalo_foreign {k : Ctx} {α : Type} (h : k.chain = none) (f : Chain → Team → α) (e : α) :
    (match k.chain, k.team with
      | some c, some tm => f c tm
      | _, _ => e) = e := by
  rw [h]

/-- Settles O43: each word by its entry, under what its clause says of the thread's chain, strip and buffer. -/
theorem timeAndStripWords : Obligations.TimeAndStripWords := by
  refine ⟨⟨?tnow, ?past, ?future, ?reached, ?early, ?tdead, ?undefined, ?free, fun _ _ => deadValue_chain, fun _ _ => deadValue_no_chain,
    fun _ _ => deadValue_undefined, ?tbudg, rfl, ?unlimited, ?limited⟩, ?unheld, ?committed, ?late, ?commits, ?copies, ?waits, ?waiting,
    ?full, ?foreign, ?shalo, ?shaloForeign, ?jobend, ?noJob, ?rates, ?raises, ?bases, srate_foreign, srate_high⟩
  case tnow => exact fun sw d => writes_of (fun _ => rfl) fun k => rfl
  case past => exact fun sw a x => runs_of (fun _ => rfl) fun k h => if_pos h
  case future => exact fun sw a x => runs_of (fun _ => rfl) fun k h => if_neg (Nat.not_le.2 h)
  case reached => exact fun s t th v h hw hv => by rw [exec_timeWaitExpiry h hw, if_pos hv]
  case early =>
    refine fun s t th v h hw hv => ⟨setThread s t th, ?_, thread_setThread ..⟩
    rw [exec_timeWaitExpiry h hw, if_neg (Nat.not_le.2 hv)]
  case tdead =>
    refine fun sw d b y v => runs_of (fun _ => rfl) fun k h => ?_
    simp only [Ctx.g, h]
    rfl
  case undefined =>
    refine fun sw d b y => traps_of (fun _ => rfl) fun k h => ?_
    simp only [Ctx.g, h]
    rfl
  case free => exact fun k h => by rw [deadValue, h]; rfl
  case tbudg => exact fun sw d => writes_of (fun _ => rfl) fun k => rfl
  case unlimited => exact fun n j h => if_pos (beq_iff_eq.2 h)
  case limited => exact fun n j h => if_neg (by simpa using h)
  case unheld =>
    exact fun sw d a b x y c σ s' => scommit_runs fun k h => commitBody_refused (commitRefused_unheld h)
  case committed =>
    exact fun sw d a b x y c σ s' => scommit_runs fun k ⟨hh, hs⟩ => commitBody_refused (commitRefused_committed hh hs)
  case late =>
    exact fun sw d a b x y c σ s' => scommit_runs fun k ⟨hh, hs, ht⟩ => commitBody_refused (commitRefused_late hh hs ht)
  case commits =>
    refine fun sw d a b x y c σ s' => scommit_runs fun k ⟨hh, hs, ht⟩ => ?_
    simp only [commitBody, commitRefused_none hh hs ht]
    rfl
  case copies =>
    refine fun sw d a b x y c σ s' bf => scommit_buffer_runs fun k ⟨hb, hh, hs, ht⟩ => ?_
    simp only [commitBody, commitRefused_none hh hs ht, hb, if_true]
    rfl
  case waits =>
    refine fun sw d a b x y c σ s' bf => scommit_buffer_runs fun k ⟨hb, hh, hs, ht⟩ => ?_
    simp only [commitBody, commitRefused_none hh hs ht, Nat.not_le.2 hb, if_false]
    rfl
  case waiting =>
    exact fun s id c f tm b hf hm hb hs hh hst ht => serveCommit_waits hf hm hb (commitRefused_none hh hst ht) hs
  case full =>
    exact fun s id c f tm b hf hm hb hs hh hst ht => serveCommit_commits hf hm hb (commitRefused_none hh hst ht) hs
  case foreign =>
    refine fun sw d a b x y m => traps_of (fun _ => rfl) fun k h => ?_
    simp only [h]
    rfl
  case shalo =>
    refine fun sw d a b x y c tm bf s' => runs_of (fun _ => rfl) fun k ⟨hc, hm, hf, hk, hw, hbf, hb, hp⟩ => ?_
    have feeds : (c.video.factor == 0 || decide (c.k < 0)) = false := by simp [hf, hk]
    have plain : flag (k.th.reg b.toNat).toNat 5 = false := by
      rw [Bool.eq_false_iff, ne_eq, flag_iff]
      omega
    have unnamed : ((k.th.reg b.toNat).toNat % 32 != 0) = false := by
      simp only [bne_eq_false_iff_eq]
      omega
    simp only [hc, hm, feeds, Ctx.g, plain, unnamed, Ctx.g64, hbf, Nat.not_le.2 hb, hp, Bool.false_eq_true, if_false]
    rfl
  case shaloForeign =>
    exact fun sw d a b x y => traps_of (fun _ => rfl) fun k h => shalo_foreign h ..
  case jobend =>
    refine fun sw => runs_of (fun _ => rfl) fun k ⟨hj, ho⟩ => ?_
    obtain ⟨j, hj⟩ := Option.isSome_iff_exists.1 hj
    simp only [hj, ho, Bool.false_eq_true, if_false]
    rfl
  case noJob =>
    refine fun sw => traps_of (fun _ => rfl) fun k h => ?_
    simp only [h]
    rfl
  case rates =>
    refine fun sw d a n x c r i l => ?_
    have runs := srate_strip_runs (sw := sw) (d := d) (a := a) (n := n) (x := x) (o := 0) (c := c) (r := r) (i := i) (l := l)
      (pre := fun _ => True) (by decide) (fun _ _ => .inl rfl) (fun k hl => by
        simp only [rateBody, hl]
        rfl)
    simp only [and_true] at runs
    exact runs
  case raises =>
    refine fun sw d a n x c r i l => ?_
    refine srate_strip_runs (by decide) (fun _ h => .inr h) (fun k hl => ?_)
    simp only [rateBody, hl]
    rfl
  case bases =>
    refine fun sw d a x c => runs_of (fun _ => rfl) fun k ⟨hc, hv⟩ => ?_
    have small : decide (4 < (k.g a).toNat) = false := decide_eq_false (Nat.not_lt.2 hv)
    simp only [hc, small]
    rfl

end Sys2Proof.Machine
end

section
/-!
Rays, their traversal's end, callbacks and verdicts (R345, R352 to R367).
-/
namespace Sys2Proof.Machine
set_option Elab.async false

/-! ### The end of a ray (R353, R356) -/

/-- What the end with a status leaves of a ray. -/
def Ray.finished (r : Ray) (status : Nat) : Ray :=
  { r with state := 3, status := status, hit := if 2 ≤ status then none else r.hit, stack := [], call := none }

theorem OnRecords.rays {s s' : State} (h : OnRecords s s') : s'.rays = s.rays := (congrArg State.rays h).trans rfl

theorem rays_finishRay (s : State) (id status : Nat) :
    (finishRay s id status).rays = kmod s.rays id (fun r => r.finished status) := by
  unfold finishRay
  dsimp only
  split
  · rfl
  · split
    · split
      · rw [(OnRecords.replyToRecord ..).rays]
        rfl
      · rfl
    · rfl

theorem ray_finishRay {s : State} {id : Nat} {r : Ray} (h : kget? s.rays id = some r) (status : Nat) :
    kget? (finishRay s id status).rays id = some (r.finished status) := by
  rw [rays_finishRay]
  exact kget_kmod_same _ h

theorem replyToRecord_here {s : State} {t : Nat} (h : ∀ th, thread? s t = some th → th.evicted = false) (ds : List Nat) :
    replyToRecord s t ds = s := by
  cases ht : thread? s t with
  | none => simp [replyToRecord, ht]
  | some th => simp [replyToRecord, ht, h th ht]

/-- The end of a ray whose owner has its place writes no record. -/
theorem mem_finishRay {s : State} {id : Nat} {r : Ray} {th : Thread} (h : kget? s.rays id = some r)
    (ho : thread? s r.owner = some th) (he : th.evicted = false) (status : Nat) : (finishRay s id status).mem = s.mem := by
  have ray : kget? (modRay s id (fun r => r.finished status)).rays id = some (r.finished status) := kget_kmod_same _ h
  have owner : thread? (modRay s id (fun r => r.finished status)) (r.finished status).owner = some th := ho
  unfold finishRay
  dsimp only
  split
  · rfl
  next r' hr =>
    obtain rfl := Option.some.inj (ray.symm.trans hr)
    split
    · split
      · rw [replyToRecord_here]
        · rfl
        · intro th' ht'
          rw [thread_modThread, if_pos rfl] at ht'
          obtain rfl := Option.some.inj ((congrArg (Option.map _) owner).symm.trans ht')
          exact he
      · rfl
    · rfl

/-! ### Verdicts (R355) -/

theorem rays_saveRay (s : State) (id : Nat) : (saveRay s id).rays = s.rays := by
  unfold saveRay
  split
  · rfl
  · split
    · dsimp only
      rw [(OnRecords.storeDevice ..).rays]
      rfl
    · rfl

theorem ray_applyVerdict_ignore {s : State} {id t : Nat} {r : Ray} {c : RayCall} (h : kget? s.rays id = some r) (hc : r.call = some c)
    (ht : c.th = some t) (tval : Nat) : kget? (applyVerdict s id t 1 tval).rays id = some { r with state := 1, call := none } := by
  simp only [applyVerdict, h, hc, ht, bne_self_eq_false, Bool.false_eq_true, if_false, rays_saveRay]
  exact kget_kmod_same _ h

theorem ray_applyVerdict_terminate {s : State} {id t : Nat} {r : Ray} {c : RayCall} (h : kget? s.rays id = some r)
    (hc : r.call = some c) (ht : c.th = some t) (hi : c.isect = false) (tval : Nat) :
    kget? (applyVerdict s id t 2 tval).rays id =
      some (Ray.finished { r with state := 1, call := none, hit := some c.hit, tb := c.hit.t } 0) := by
  have going := kget_kmod_same (fun r : Ray => { r with state := 1, call := none }) h
  have met_ := kget_kmod_same (fun r : Ray => { r with hit := some c.hit, tb := c.hit.t }) going
  simp only [applyVerdict, h, hc, ht, hi, bne_self_eq_false, Bool.false_eq_true, if_false, rays_saveRay]
  exact ray_finishRay met_ 0

/-! ### The threads of a core as its claims stand (R71, R73) -/

/-- The states differ in their threads alone. -/
def OnThreads (s s' : State) : Prop := s' = { s with threads := s'.threads }

section
variable {s s' : State}

theorem OnThreads.modThread (h : OnThreads s s') (t : Nat) (f : Thread → Thread) : OnThreads s (modThread s' t f) :=
  (congrArg (Machine.modThread · t f) h).trans rfl

theorem OnThreads.placeActive (h : OnThreads s s') (t : Nat) : OnThreads s (placeActive s' t) := by
  unfold Machine.placeActive
  split
  · exact h
  · dsimp only
    split
    · exact (h.modThread ..).modThread ..
    · exact h.modThread ..

theorem OnThreads.shouldSuspend (h : OnThreads s s') (th : Thread) : shouldSuspend s' th = shouldSuspend s th := by
  rw [h]
  rfl

theorem OnThreads.reclaimThread (h : OnThreads s s') (t : Nat) : OnThreads s (reclaimThread s' t) := by
  unfold Machine.reclaimThread
  split
  · exact h
  · dsimp only
    split
    · exact h
    · split
      · exact h.modThread ..
      · exact (h.modThread ..).placeActive ..

end

theorem thread_placeActive_ne (s : State) {t n : Nat} (h : n ≠ t) : thread? (placeActive s t) n = thread? s n := by
  unfold placeActive
  split
  · rfl
  · dsimp only
    split
    · rw [thread_modThread, if_neg h, thread_modThread, if_neg h]
    · rw [thread_modThread, if_neg h]

theorem thread_reclaimThread_ne (s : State) {t n : Nat} (h : n ≠ t) : thread? (reclaimThread s t) n = thread? s n := by
  unfold reclaimThread
  split
  · rfl
  · dsimp only
    split
    · rfl
    · split
      · rw [thread_modThread, if_neg h]
      · rw [thread_placeActive_ne _ h, thread_modThread, if_neg h]

/-- A thread without its standing in the active set. -/
def Thread.figureOnly (th : Thread) : Thread := { th with active := false, slowSince := 0, suspended := false }

/-- Thread `n` is as `h` but for the active set, and is suspended only where it should be. -/
def Seated (s₀ : State) (n : Nat) (h : Thread) (s : State) : Prop :=
  OnThreads s₀ s ∧ ∃ th, thread? s n = some th ∧ th.figureOnly = h ∧ (th.suspended = true → shouldSuspend s₀ th = true)

theorem Seated.reclaimThread {s₀ s : State} {n : Nat} {h : Thread} (hs : Seated s₀ n h s) (t : Nat) :
    Seated s₀ n h (reclaimThread s t) := by
  obtain ⟨same, th, hth, hf, hsus⟩ := hs
  refine ⟨same.reclaimThread t, ?_⟩
  by_cases ht : n = t
  case neg => exact ⟨th, by rw [thread_reclaimThread_ne s ht, hth], hf, hsus⟩
  subst ht
  simp only [Machine.reclaimThread, hth, same.shouldSuspend]
  cases hb : shouldSuspend s₀ th with
  | true =>
    split
    · exact ⟨th, hth, hf, fun _ => hb⟩
    · rw [if_pos rfl, thread_modThread, if_pos rfl, hth]
      exact ⟨_, rfl, hf, fun _ => hb⟩
  | false =>
    have stays : th.suspended = false := Bool.eq_false_iff.2 fun h => Bool.false_ne_true (hb.symm.trans (hsus h))
    rw [stays]
    exact ⟨th, hth, hf, hsus⟩

theorem Seated.reclaim {s₀ s : State} {n : Nat} {h : Thread} (hs : Seated s₀ n h s) (c : Nat) : Seated s₀ n h (reclaim s c) :=
  List.foldlRecOn (motive := Seated s₀ n h) _ _ hs fun _ hs _ _ => hs.reclaimThread _

/-! ### A one-thread team (R66, R354) -/

theorem placeActive_setThread (s : State) (n : Nat) (th : Thread) :
    ∃ a d, placeActive (setThread s n th) n = setThread s n { th with active := a, slowSince := d } := by
  simp only [placeActive, thread_setThread, modThread_setThread]
  split
  · exact ⟨_, _, rfl⟩
  · exact ⟨_, _, rfl⟩

theorem poolTry_eq (s : State) (x n : Nat) : ∃ b e, poolTry s x n = (b, { s with seals := e }) := by
  unfold poolTry
  split
  next a s' h =>
    obtain ⟨o, -, ho⟩ := Option.map_eq_some_iff.1 h
    obtain rfl := (Prod.mk.inj ho).2
    exact ⟨_, _, rfl⟩
  · exact ⟨none, s.seals, rfl⟩

theorem placeThread_eq (s : State) (g : Grid) (tm i : Nat) :
    ∃ b e a d, placeThread s g tm i = setThread { s with nextId := s.nextId + 1, seals := e } s.nextId
      { newThread g tm i with backing := b, selfAt := s.aclk, active := a, slowSince := d } := by
  have taken : ∃ b e, (if g.lr.privKb = 0 then (none, (fresh s).2) else poolTry (fresh s).2 (newThread g tm i).sealId (1024 * g.lr.privKb))
      = (b, { (fresh s).2 with seals := e }) := by
    split
    · exact ⟨none, s.seals, rfl⟩
    · exact poolTry_eq ..
  obtain ⟨b, e, taken⟩ := taken
  obtain ⟨a, d, placed⟩ := placeActive_setThread { (fresh s).2 with seals := e } s.nextId
    { newThread g tm i with backing := b, selfAt := s.aclk }
  refine ⟨b, e, a, d, ?_⟩
  unfold placeThread
  dsimp only
  rw [taken]
  exact placed

theorem find_kset_of_forall {α : Type} (q : Nat × α → Bool) {m : KMap α} {i : Nat} {v : α} (hv : q (i, v) = true)
    (h : ∀ p ∈ m, q p = false) : (kset m i v).find? q = some (i, v) := by
  induction m with
  | nil => simp [kset, hv]
  | cons p m ih =>
    have hp := h p List.mem_cons_self
    have hm := ih fun p' h' => h p' (List.mem_cons_of_mem _ h')
    unfold kset
    split
    · simp [hv]
    · split
      · simp [hv]
      · rw [List.find?_cons, hp]
        exact hm

theorem measure_eq (s : State) (t : DecodeTable) : ∃ l, measure s t = { s with measured := l } := by
  unfold measure
  dsimp only
  split
  · exact ⟨s.measured, rfl⟩
  · exact ⟨_, rfl⟩

theorem quad_newTeam {g : Grid} (ha : g.arrivals = []) (hq : g.lr.quad = false) (gid index c base : Nat) :
    (newTeam gid g index c base).quad = false := by
  simp [newTeam, ha, hq]

/-- A team of one thread, without QUAD, takes the next number, and its thread the one after it. -/
theorem placeTeam_one {g : Grid} (h1 : g.lr.teamn = 1) (hq : ∀ gid index c base, (newTeam gid g index c base).quad = false)
    (s : State) (gid index c base : Nat) :
    ∃ l b e a d, placeTeam s gid g index c base = (s.nextId, setThread { s with
        nextId := s.nextId + 1 + 1, teams := kset s.teams s.nextId { newTeam gid g index c base with saveAreas := [] }
        measured := l, seals := e } (s.nextId + 1)
      { newThread g s.nextId 0 with backing := b, selfAt := s.aclk, active := a, slowSince := d }) := by
  have areas : takeSaveAreas (fresh s).2 (newTeam gid g index c base) = ([], (fresh s).2) := by
    rw [takeSaveAreas, hq]
    rfl
  obtain ⟨l, measured⟩ := measure_eq
    { (fresh s).2 with teams := kset (fresh s).2.teams s.nextId { newTeam gid g index c base with saveAreas := [] } } (recordTable g)
  obtain ⟨b, e, a, d, placed⟩ := placeThread_eq
    { (fresh s).2 with teams := kset (fresh s).2.teams s.nextId { newTeam gid g index c base with saveAreas := [] }, measured := l }
    g s.nextId 0
  refine ⟨l, b, e, a, d, ?_⟩
  unfold placeTeam
  dsimp only
  rw [areas, h1]
  dsimp only
  rw [show (fresh s).1 = s.nextId from rfl, measured]
  exact congrArg (Prod.mk s.nextId) placed

/-- The thread a callback starts as. -/
def CallThread (s : State) (id : Nat) (r : Ray) (c : RayCall) (h : Thread) : Prop :=
  h.callback = some id ∧ h.callVals = callVals r c ∧ h.regs = callRegs r c ∧ h.pc = c.code ∧ h.pts = r.pts ∧ h.budget = c.budget
    ∧ h.team = s.nextId + 1

/-- What a thread was but for its standing in the active set says what a callback's thread began with. -/
theorem CallThread.of_figureOnly {s : State} {id : Nat} {r : Ray} {c : RayCall} {h h' : Thread} (hc : CallThread s id r c h)
    (same : h'.figureOnly = h.figureOnly) : CallThread s id r c h' := by
  have field {α : Type} (f : Thread → α) (hf : ∀ th, f th.figureOnly = f th) : f h' = f h := by
    rw [← hf h', same, hf]
  obtain ⟨h1, h2, h3, h4, h5, h6, h7⟩ := hc
  exact ⟨(field Thread.callback fun _ => rfl).trans h1, (field Thread.callVals fun _ => rfl).trans h2,
    (field Thread.regs fun _ => rfl).trans h3, (field Thread.pc fun _ => rfl).trans h4, (field Thread.pts fun _ => rfl).trans h5,
    (field Thread.budget fun _ => rfl).trans h6, (field Thread.team fun _ => rfl).trans h7⟩

/-- The grid a callback's team stands for. -/
def callGrid (r : Ray) (c : RayCall) (sealId : Nat) : Grid :=
  { lr := c.record sealId, buffers := [], arrivals := [], image := none, pts := r.pts, placed := 1, hidden := true }

/-- The state that holds a grid under its next number. -/
def withGrid (s : State) (g : Grid) : State := { (fresh s).2 with grids := kset (fresh s).2.grids s.nextId g }

/-- A callback's team, placed. -/
def callPlaced (s : State) (g : Grid) (co st : Nat) : State :=
  modTeam (placeTeam (withGrid s g) s.nextId g 0 co 0).2 (s.nextId + 1) (fun x => { x with callbackOf := some st, handle := none })

/-- A callback's thread takes its registers and values. -/
def Thread.beginCall (id : Nat) (r : Ray) (c : RayCall) (x : Thread) : Thread :=
  { x with regs := callRegs r c, callback := some id, callVals := Machine.callVals r c }

theorem teamCore_modTeam (s : State) (i : Nat) (f : Team → Team) (hf : ∀ tm, (f tm).core = tm.core) :
    (team? (modTeam s i f) i).map (·.core) = (team? s i).map (·.core) := by
  cases h : team? s i with
  | none => rw [modTeam, kmod_none f h, h]
  | some tm =>
    rw [team_modTeam_same f h]
    exact congrArg some (hf tm)

/-- A placed callback's team: its number, its thread and its core; the rays and memory stay. -/
theorem callPlaced_stands (s : State) (r : Ray) (c : RayCall) (sealId co st : Nat) :
    (placeTeam (withGrid s (callGrid r c sealId)) s.nextId (callGrid r c sealId) 0 co 0).1 = s.nextId + 1
    ∧ (∃ b a d, (callPlaced s (callGrid r c sealId) co st).threads = kset s.threads (s.nextId + 2)
        { newThread (callGrid r c sealId) (s.nextId + 1) 0 with backing := b, selfAt := s.aclk, active := a, slowSince := d })
    ∧ (team? (callPlaced s (callGrid r c sealId) co st) (s.nextId + 1)).map (·.core) = some co
    ∧ (callPlaced s (callGrid r c sealId) co st).rays = s.rays ∧ (callPlaced s (callGrid r c sealId) co st).mem = s.mem := by
  obtain ⟨l, b, e, a, d, placed⟩ := placeTeam_one (g := callGrid r c sealId) rfl (quad_newTeam rfl (Nat.zero_testBit 0))
    (withGrid s (callGrid r c sealId)) s.nextId 0 co 0
  unfold callPlaced
  rw [placed]
  refine ⟨rfl, ⟨b, a, d, rfl⟩, ?_, rfl, rfl⟩
  refine (teamCore_modTeam _ _ _ ?_).trans ?_
  · exact fun _ => rfl
  · exact congrArg (Option.map Team.core) (kget_kset_same ..)

/-- A callback that has room starts: its thread and its team's place stand, and the rays but its own and memory stay. -/
theorem startCallback_starts {s : State} {id : Nat} {r : Ray} {c : RayCall} {th : Thread} {tm : Team} {co : Nat}
    (hr : kget? s.rays id = some r) (hc : r.call = some c) (hn : c.th = none) (ho : thread? s r.owner = some th)
    (he : th.evicted = false) (hm : team? s th.team = some tm) (hk : callbacksAt s (stationOf tm.core) < 256)
    (hco : callbackCore s c tm.cluster = some co) (unnamed : ∀ p ∈ s.threads, p.2.team ≠ s.nextId + 1) :
    ∃ s₁ h, startCallback s id =
        modRay s₁ id (fun r => { r with calls := r.calls + 1, call := some { c with th := some (s.nextId + 2) } })
      ∧ s₁.rays = s.rays ∧ s₁.mem = s.mem ∧ thread? s₁ (s.nextId + 2) = some h ∧ CallThread s id r c h
      ∧ (team? s₁ (s.nextId + 1)).map (·.core) = some co := by
  obtain ⟨number, ⟨b, a, d, threads⟩, onCore, rays, mem⟩ := callPlaced_stands s r c th.sealId co (stationOf tm.core)
  have found : threadOfTid (callPlaced s (callGrid r c th.sealId) co (stationOf tm.core)) (s.nextId + 1) 0 = some (s.nextId + 2) := by
    rw [threadOfTid, threads, find_kset_of_forall _ (by simp [newThread])]
    · rfl
    · intro p hp
      simp [unnamed p hp]
  have start : startCallback s id = modRay (reclaim (modThread (callPlaced s (callGrid r c th.sealId) co (stationOf tm.core))
      (s.nextId + 2) (Thread.beginCall id r c)) co) id
      (fun r => { r with calls := r.calls + 1, call := some { c with th := some (s.nextId + 2) } }) := by
    unfold callPlaced at found ⊢
    rw [← number] at found ⊢
    simp only [startCallback, hr, hc, ho, hn, hm, he, Nat.not_le.2 hk, decide_false, Bool.or_self, Bool.false_eq_true, if_false, hco]
    split
    next absent => exact absurd (absent.symm.trans found) nofun
    next n present =>
      obtain rfl := Option.some.inj (found.symm.trans present)
      rfl
  generalize callPlaced s (callGrid r c th.sealId) co (stationOf tm.core) = sp at *
  have seated : Seated (modThread sp (s.nextId + 2) (Thread.beginCall id r c)) (s.nextId + 2)
      (Thread.beginCall id r c { newThread (callGrid r c th.sealId) (s.nextId + 1) 0 with
        backing := b, selfAt := s.aclk, active := a, slowSince := d }).figureOnly
      (modThread sp (s.nextId + 2) (Thread.beginCall id r c)) := by
    refine ⟨rfl, _, ?_, rfl, nofun⟩
    rw [thread_modThread, if_pos rfl, thread?, threads, kget_kset_same]
    rfl
  obtain ⟨same, h, hh, hf, -⟩ := seated.reclaim co
  have kept {α : Type} (f : State → α) (hf : ∀ s ts, f { s with threads := ts } = f s) :
      f (reclaim (modThread sp (s.nextId + 2) (Thread.beginCall id r c)) co) = f sp := by
    rw [same, hf]
    exact hf sp _
  exact ⟨_, h, start, (kept State.rays fun _ _ => rfl).trans rays, (kept State.mem fun _ _ => rfl).trans mem, hh,
    CallThread.of_figureOnly ⟨rfl, rfl, rfl, rfl, rfl, rfl, rfl⟩ hf,
    (kept (fun s' => (team? s' (s.nextId + 1)).map (·.core)) fun _ _ => rfl).trans onCore⟩

/-! ### The words (R361 to R367) -/

theorem withRay_some {k : Ctx} {a : BitVec 6} {id : Nat} {r : Ray} (h : rayOf k.s k.t (k.th.reg a.toNat).toNat = some (id, r))
    (f : Nat → Ray → Except Stop Eff) : withRay k a f = f id r := by
  simp only [withRay, Ctx.g, h]

theorem withRay_none {k : Ctx} {a : BitVec 6} (h : rayOf k.s k.t (k.th.reg a.toNat).toNat = none)
    (f : Nat → Ray → Except Stop Eff) : withRay k a f = .error (k.illegal 3) := by
  simp only [withRay, Ctx.g, h]

theorem Ray.still_iff {r : Ray} : r.still = true ↔ r.state = 0 ∨ r.state = 3 := by simp [Ray.still]

theorem Ray.still_of_runs {r : Ray} (h : r.state = 1 ∨ r.state = 2) : r.still = false := by
  rcases h with h | h <;> simp [Ray.still, h]

theorem field_of_hit {r : Ray} {h : RayHit} (hs : r.state = 3) (hh : r.hit = some h) : r.field 0 = wordN h.t ∧ r.field 1 = wordN h.u
    ∧ r.field 2 = wordN h.v ∧ r.field 3 = wordN h.prim ∧ r.field 4 = wordN h.instId := by
  simp [Ray.field, Ray.still, hs, hh]

theorem no_free_slot {q : Nat → Bool} (h : ∀ i < 32, q i = true) : (List.range 32).find? (fun i => !q i) = none := by
  rw [List.find?_eq_none]
  intro i hi
  simp [h i (List.mem_range.1 hi)]

/-! ### The unit's steps (R352, R354) -/

theorem traverse_still {s : State} {id : Nat} {r : Ray} (h : kget? s.rays id = some r) (hs : r.state ≠ 1) : traverse s id = s := by
  simp [traverse, h, hs]

theorem traverse_done {s : State} {id : Nat} {r : Ray} {th : Thread} (h : kget? s.rays id = some r) (hs : r.state = 1)
    (ho : thread? s r.owner = some th) (he : th.evicted = false) (hk : r.stack = []) :
    traverse s id = finishRay s id (if r.hit.isSome then 0 else 1) := by
  simp [traverse, h, hs, ho, he, hk]

theorem startCallback_no_call {s : State} {id : Nat} {r : Ray} (h : kget? s.rays id = some r) (hc : r.call = none) :
    startCallback s id = s := by
  simp only [startCallback, h, hc]

theorem startCallback_waits {s : State} {id : Nat} {r : Ray} {c : RayCall} {th : Thread} {tm : Team} (h : kget? s.rays id = some r)
    (hc : r.call = some c) (hn : c.th = none) (ho : thread? s r.owner = some th) (hm : team? s th.team = some tm)
    (hw : th.evicted = true ∨ 256 ≤ callbacksAt s (stationOf tm.core)) : startCallback s id = s := by
  have closed : (th.evicted || decide (256 ≤ callbacksAt s (stationOf tm.core))) = true := by simpa using hw
  simp only [startCallback, h, hc, hn, ho, hm, closed, if_true]

/-- Settles O42: each word by its entry under what the ray's state allows, and the unit's steps by the rules above. -/
theorem rays : Obligations.Rays := by
  unfold Obligations.Rays
  dsimp only
  refine ⟨⟨?raynew, ?noSlot, ?rayset, ?raygo, ?refusedGo, ?done, ?runs, ?rayget, fun _ _ => field_of_hit, ?rayfree, ?foreign, ?verdict,
    ?refusedVerdict, ?raycb, ?refusedCb⟩, ?still, ?ends, ?uncalled, ?waits, ?starts, ?ignore, ?terminate⟩
  case raynew =>
    refine fun sw d a x as_ bs s₁ slot => runs_of (fun _ => rfl) fun k ⟨hc, hslot, hroom, hread⟩ => ?_
    simp only [raynewBody, Ctx.g64, hc, hslot, Nat.not_le.2 hroom, if_false, hread]
    rfl
  case noSlot =>
    refine fun sw d a x as_ => runs_of (fun _ => rfl) fun k ⟨hc, hfull⟩ => ?_
    simp only [raynewBody, Ctx.g64, hc, no_free_slot hfull]
    rfl
  case rayset =>
    refine fun sw d a b x y id r => runs_of (fun _ => rfl) fun k ⟨hr, hs⟩ => ?_
    simp only [withRay_some hr, Ray.still_iff.2 hs, Bool.not_true, Bool.false_eq_true, if_false]
    rfl
  case raygo =>
    refine fun sw a x id r s' => runs_of (fun _ => rfl) fun k ⟨hr, hs, hb, hp, hv⟩ => ?_
    simp only [withRay_some hr, raygoBody, Ray.still_iff.2 hs, hb, hp, Bool.not_true, Bool.or_self, Bool.false_eq_true, if_false]
    simp only [Except.bind, hv]
  case refusedGo =>
    refine fun sw a x id r => traps_of (fun _ => rfl) fun k ⟨hr, hs⟩ => ?_
    have refused : (!r.still || r.recordBad) = true := by
      rcases hs with h | h | h
      · simp [Ray.still, h]
      · simp [Ray.still, h]
      · simp [h]
    simp only [withRay_some hr, raygoBody, refused, if_true]
    rfl
  case done =>
    refine fun sw d a x id r => runs_of (fun _ => rfl) fun k ⟨hr, hs⟩ => ?_
    simp only [withRay_some hr, Ray.still_iff.2 (.inr hs), hs]
    rfl
  case runs =>
    refine fun sw d a x id r => runs_of (fun _ => rfl) fun k ⟨hr, hs⟩ => ?_
    simp only [withRay_some hr, Ray.still_of_runs hs]
    rfl
  case rayget =>
    refine fun sw d a b x y id r => runs_of (fun _ => rfl) fun k ⟨hr, hsel⟩ => ?_
    have listed : (!(decide ((k.g b).toNat ≤ 9) || (decide (16 ≤ (k.g b).toNat) && decide ((k.g b).toNat ≤ 31)))) = false := by
      have sel : (k.g b).toNat ≤ 9 ∨ 16 ≤ (k.g b).toNat ∧ (k.g b).toNat ≤ 31 := hsel
      simpa [or_iff_not_imp_left] using sel
    simp only [withRay_some hr, listed, Bool.false_eq_true, if_false, inState_retLater, Bool.and_eq_true, beq_iff_eq]
    rfl
  case rayfree =>
    refine fun sw a x id r => runs_of (fun _ => rfl) fun k hr => ?_
    simp only [withRay_some hr]
  case foreign =>
    refine fun sw a x => traps_of (fun _ => rfl) fun k hr => ?_
    simp only [withRay_none hr]
    rfl
  case verdict =>
    refine fun sw a b x y id s' => runs_of (fun _ => rfl) fun k ⟨hc, hv, hcode, hp⟩ => ?_
    have may : (k.th.verdict || decide (3 ≤ (k.g a).toNat)) = false := by
      have code : (k.g a).toNat < 3 := hcode
      simpa [hv] using code
    simp only [hc, may, Bool.false_eq_true, if_false, hp]
    rfl
  case refusedVerdict =>
    refine fun sw a b x y => traps_of (fun _ => rfl) fun k h => ?_
    cases hc : k.th.callback with
    | none => rfl
    | some id =>
      have refused : (k.th.verdict || decide (3 ≤ (k.g a).toNat)) = true := by
        have code : k.th.callback = none ∨ k.th.verdict = true ∨ 3 ≤ (k.g a).toNat := h
        simpa [hc] using code
      simp only [refused, if_true]
      rfl
  case raycb =>
    refine fun sw d a x => runs_of (fun _ => rfl) fun k ⟨hc, hsel⟩ => ?_
    have may : (k.th.callback.isNone || decide (12 ≤ (k.g a).toNat)) = false := by
      have sel : (k.g a).toNat < 12 := hsel
      simpa [Option.isSome_iff_ne_none] using And.intro hc sel
    simp only [may, Bool.false_eq_true, if_false]
    rfl
  case refusedCb =>
    refine fun sw d a x => traps_of (fun _ => rfl) fun k h => ?_
    have refused : (k.th.callback.isNone || decide (12 ≤ (k.g a).toNat)) = true := by
      have sel : k.th.callback = none ∨ 12 ≤ (k.g a).toNat := h
      simpa using sel
    simp only [refused, if_true]
    rfl
  case still => exact fun s id r h hs => congrArg Host.Outcome.next (traverse_still h hs)
  case ends =>
    refine fun s id r th h hs ho he hk => ⟨_, _, congrArg Host.Outcome.next (traverse_done h hs ho he hk), ray_finishRay h _, rfl, rfl,
      if_neg ?_, mem_finishRay h ho he _⟩
    split <;> decide
  case uncalled => exact fun s id r h hc => congrArg Host.Outcome.next (startCallback_no_call h hc)
  case waits =>
    exact fun s id r c th tm h hc hn ho hm hw => congrArg Host.Outcome.next (startCallback_waits h hc hn ho hm hw)
  case starts =>
    intro s id r c th tm co hr hc hn ho he hm hk hco unnamed
    obtain ⟨s₁, h, start, rays, mem, hh, begins, onCore⟩ := startCallback_starts hr hc hn ho he hm hk hco unnamed
    obtain ⟨h1, h2, h3, h4, h5, h6, h7⟩ := begins
    refine ⟨_, h, congrArg Host.Outcome.next start, ?_, hh, h1, h2, h3, h4, h5, h6, h7, h7 ▸ onCore, mem⟩
    exact kget_kmod_same _ (rays ▸ hr)
  case ignore => exact fun s id r c t tval h hc ht => ray_applyVerdict_ignore h hc ht tval
  case terminate =>
    exact fun s id r c t tval h hc ht hi => ⟨_, ray_applyVerdict_terminate h hc ht hi tval, rfl, rfl, rfl, rfl⟩

end Sys2Proof.Machine
end

section
/-!
STIPRUN where two passes bear one number (R342).
-/
namespace Sys2Proof.Machine
set_option Elab.async false

/-- A stipple pass of two strips, whose record stands at an address. -/
def stipplePassAt (va width : Nat) : Pass :=
  { va := va, pa := va, sealId := 0, station := 0, slot := 0, pts := 0
    r := { bins := 0x4000, pool := 0x5000, chunks := 0x6000, npool := 4, nchunk := 4, ring := 0, cmt := false, kind := 1, width := width
           frame := 0, strip0 := 0, nstrip := 2, sh := 8, nsub := 1, clear := 0, opthr := 0x3F800000 } }

/-- STIPRUN of the record in g0 and g1 and the tile in g2, with its status in g8. -/
def stiprunWord : Instr := .stiprun false 8 0 2 false false

/-- A thread at STIPRUN of strip 1, tile 0 of the pass at 0x200. -/
def asksRun : Thread := { probeThread 2 ((encode stiprunWord).headD 0) with regs := [(0, 0x200), (1, 0), (2, 0x10000)] }

/-- Two passes bear number 7: the first has two tiles in a strip, the one the thread names has one. -/
def twicePassed : State :=
  { cur := some 1, threads := [(1, asksRun)], passes := [(7, stipplePassAt 0x400 64), (7, stipplePassAt 0x200 32)], nextId := 9 }

/-- Keys of the tiles the pass of number 7 is asked for. -/
def keysAsked : Host.Outcome State Fault Refusal → List Nat
  | .next s => (((kget? s.passes 7).map (·.runs)).getD []).map (·.2.2)
  | _ => []

/-- The model asks for the tile under the key the first pass gives it. -/
theorem keysAsked_stiprun : keysAsked (exec stiprunWord twicePassed) = [2] := by decide +kernel

/-- Refutes O41: STIPRUN's effect takes the tile's key from the first pass under the number, the statement from the pass its
register pair names, and the statement does not ask that the numbers of the passes differ. In `twicePassed` two passes bear
number 7, and strip 1, tile 0 has the key 2 in the first and 1 in the one that is named. -/
theorem not_passesFragmentsAndTiles : ¬ Obligations.PassesFragmentsAndTiles := by
  unfold Obligations.PassesFragmentsAndTiles
  rintro ⟨-, -, -, -, -, -, -, stiprun, -⟩
  have runs := stiprun false 8 0 2 false false 7 (stipplePassAt 0x200 32) twicePassed 1 asksRun (by decide +kernel)
    ⟨rfl, by decide +kernel⟩ (by decide +kernel) (by decide +kernel)
  have keys := congrArg keysAsked runs
  exact absurd (keysAsked_stiprun.symm.trans keys) (by decide +kernel)

end Sys2Proof.Machine
end

section
/-!
Outputs, rings, chains, slices and the encode pipes (R375 to R390).
-/
namespace Sys2Proof.Machine
set_option Elab.async false

/-! ### Outputs and rings as read after a change -/

theorem output_modOutput_same (s : State) (o : Nat) (f : Output → Output) : output (modOutput s o f) o = f (output s o) :=
  (kgetD_kset ..).trans (if_pos rfl)

theorem ringOf_modRing_same (s : State) (r : Nat) (f : Ring → Ring) : ringOf (modRing s r f) r = f (ringOf s r) :=
  (kgetD_kset ..).trans (if_pos rfl)

theorem slotOf_modSlot_same (s : State) (r i : Nat) (f : Slot → Slot) : slotOf (modSlot s r i f) r i = f (slotOf s r i) := by
  rw [slotOf, modSlot, ringOf_modRing_same]
  exact (kgetD_kset ..).trans (if_pos rfl)

/-- What the outputs and the rings show. -/
def shown (s : State) : KMap Output × KMap Ring := (s.outputs, s.reservoir)

theorem output_of_shown {s s' : State} (h : shown s' = shown s) (o : Nat) : output s' o = output s o :=
  congrArg (fun a : KMap Output × KMap Ring => kgetD a.1 o {}) h

theorem ringOf_of_shown {s s' : State} (h : shown s' = shown s) (r : Nat) : ringOf s' r = ringOf s r :=
  congrArg (fun a : KMap Output × KMap Ring => kgetD a.2 r {}) h

theorem slotOf_of_shown {s s' : State} (h : shown s' = shown s) (r i : Nat) : slotOf s' r i = slotOf s r i :=
  congrArg (fun g : Ring => kgetD g.slots i {}) (ringOf_of_shown h r)

/-! ### Claims and reservations leave what is shown -/

theorem OnThreads.reclaim {s s' : State} (h : OnThreads s s') (c : Nat) : OnThreads s (reclaim s' c) :=
  List.foldlRecOn (motive := OnThreads s) _ _ h fun _ h _ _ => h.reclaimThread _

theorem shown_reclaim (s : State) (c : Nat) : shown (reclaim s c) = shown s := 
  (congrArg shown (OnThreads.reclaim (rfl : OnThreads s s) c)).trans rfl

theorem shown_foldl {α : Type} {f : State → α → State} (hf : ∀ s a, shown (f s a) = shown s) (l : List α) (s : State) :
    shown (l.foldl f s) = shown s :=
  List.foldlRecOn (motive := fun s' => shown s' = shown s) l f rfl fun s' h a _ => (hf s' a).trans h

theorem shown_addClaims (s : State) (cid : Nat) (cs : List (Nat × Nat)) : shown (addClaims s cid cs) = shown s := by
  refine shown_foldl (fun s c => ?_) cs s
  exact shown_reclaim ..

theorem shown_dropClaims (s : State) (cid : Nat) (cs : List (Nat × Nat)) : shown (dropClaims s cid cs) = shown s := by
  refine shown_foldl (fun s c => ?_) cs s
  exact shown_reclaim ..

theorem shown_endChain (s : State) (cid : Nat) : shown (endChain s cid) = shown s := by
  unfold endChain
  split
  · rfl
  · exact shown_dropClaims ..

/-! ### Placing a team leaves what is shown -/

theorem shown_takeSaveAreas (s : State) (tm : Team) : shown (takeSaveAreas s tm).2 = shown s := by
  unfold takeSaveAreas
  split
  · rfl
  · refine List.foldlRecOn (motive := fun r : KMap Nat × State => shown r.2 = shown s) _ _ rfl fun r h q _ => ?_
    obtain ⟨b, e, taken⟩ := poolTry_eq r.2 tm.sealId 65536
    rw [taken]
    cases b with
    | none => exact h
    | some a => exact h

theorem shown_placeThread (s : State) (g : Grid) (tm i : Nat) : shown (placeThread s g tm i) = shown s := by
  obtain ⟨b, e, a, d, placed⟩ := placeThread_eq s g tm i
  rw [placed]
  rfl

theorem shown_placeTeam (s : State) (gid : Nat) (g : Grid) (index c base : Nat) :
    shown (placeTeam s gid g index c base).2 = shown s := by
  have areas := shown_takeSaveAreas (fresh s).2 (newTeam gid g index c base)
  unfold placeTeam
  dsimp only
  generalize takeSaveAreas (fresh s).2 (newTeam gid g index c base) = r at *
  obtain ⟨l, measured⟩ := measure_eq { r.2 with teams := kset r.2.teams (fresh s).1 { newTeam gid g index c base with saveAreas := r.1 } }
    (recordTable g)
  rw [shown_foldl (fun _ _ => shown_placeThread ..), measured]
  exact areas

theorem shown_placeSlice (s : State) (cid i : Nat) : shown (placeSlice s cid i) = shown s := by
  unfold placeSlice
  split
  · rfl
  · split
    · exact shown_placeTeam ..
    · rfl

theorem shown_placeReady (s : State) (cid : Nat) : shown (placeReady s cid) = shown s := by
  unfold placeReady
  split
  · rfl
  · refine shown_foldl (fun s i => ?_) _ s
    split
    · rfl
    · dsimp only
      split
      · rfl
      · split
        · exact shown_placeSlice ..
        · rfl

/-! ### Admission (R382) -/

/-- The slots and ladders of a chain's strips are taken. -/
def takeStrips (s : State) (v : Video) (fs : FrameSet) (f j : Nat) (c : Chain) : State :=
  let s := if j == 0 then s else
    startLadder (renderSlot s v.ring (slotNo s v.ring v.strips f (j - 1)) f (j - 1) fs.fill c.sealId) v.ring f (j - 1) c.f fs
  match c.lo with
  | some l => startLadder (renderSlot s v.loring (slotNo s v.loring v.loStrips f l) f l 0 c.sealId) v.loring f l c.f fs
  | none => s

theorem shown_endedChain (s : State) (cid : Nat) :
    shown (if (((kget? s.chains cid).map (fun c => c.slices.all (·.ended))).getD false) then endChain s cid else s) = shown s := by
  split
  · exact shown_endChain ..
  · rfl

theorem shown_admitChain (s : State) (o : Nat) (v : Video) (fs : FrameSet) (f j : Nat) (c : Chain) :
    shown (admitChain s o v fs f j c) = shown (modOutput (takeStrips (fresh s).2 v fs f j c) o (fun x => { x with frame := f })) := by
  refine (shown_endedChain _ (fresh s).1).trans ((shown_placeReady ..).trans ((shown_addClaims ..).trans ?_))
  rfl

theorem frame_admitChain (s : State) (o : Nat) (v : Video) (fs : FrameSet) (f j : Nat) (c : Chain) :
    (output (admitChain s o v fs f j c) o).frame = f := by
  rw [output_of_shown (shown_admitChain ..), output_modOutput_same]

theorem slot_admitChain (s : State) (o : Nat) (v : Video) (fs : FrameSet) (f j : Nat) (c : Chain) (hlo : c.lo = none) (hj : j ≠ 0) :
    slotOf (admitChain s o v fs f j c) v.ring (slotNo s v.ring v.strips f (j - 1)) =
      { state := 1, frame := f, strip := j - 1, fill := fs.fill, sealId := c.sealId } := by
  have taken : takeStrips (fresh s).2 v fs f j c = startLadder (renderSlot (fresh s).2 v.ring (slotNo s v.ring v.strips f (j - 1)) f (j - 1)
      fs.fill c.sealId) v.ring f (j - 1) c.f fs := by
    rw [takeStrips, hlo]
    exact if_neg (by simpa using hj)
  rw [slotOf_of_shown (shown_admitChain ..), taken]
  exact slotOf_modSlot_same (fresh s).2 v.ring (slotNo s v.ring v.strips f (j - 1))
    (fun _ => { state := 1, frame := f, strip := j - 1, fill := fs.fill, sealId := c.sealId })

theorem newChain_lo {v : Video} (hf : v.factor = 0) (s : State) (o : Nat) (x : Output) (t : Template) (f j : Nat) :
    (newChain s o x v t f j).lo = none := if_pos (beq_iff_eq.2 hf)

theorem exec_stripAdmission {s : State} {o : Nat} {v : Video} {t : Template} {f j : Nat} (hv : (output s o).video = some v)
    (ht : (output s o).tpl = some t) (ha : (output s o).armed = true) (hn : (output s o).nextChain = (f, j))
    (hs : chainStart v f j ≤ s.tnow) :
    let s₁ := modOutput s o (fun x => { latchFrame x f j with nextChain := v.nextOf f j })
    let x := output s₁ o
    let c := newChain s₁ o x v t f j
    exec (.stripAdmission o) s = .next (settleEarly (
      if !sealLive s t.sealId || s.dev.power.state != 0 || admitMissed s₁ o v t f j c then missLadders s₁ c
      else admitChain s₁ o v (x.setFor x.arming f) f j c)) := by
  intro s₁ x c
  have due : (!(output s o).armed || decide ((s.tnow : Int) < chainStart v f j)) = false := by simpa [ha] using hs
  show Host.Outcome.next _ = _
  simp only [hv, ht, hn, due, Bool.false_eq_true, if_false]
  rfl

theorem shown_missed (s : State) (c : Chain) : shown (settleEarly (missLadders s c)) = shown s := rfl

theorem exec_stripAdmission_dead {s : State} {o : Nat} {v : Video} {t : Template} {f j : Nat} (hv : (output s o).video = some v)
    (ht : (output s o).tpl = some t) (ha : (output s o).armed = true) (hn : (output s o).nextChain = (f, j))
    (hs : chainStart v f j ≤ s.tnow) (hl : sealLive s t.sealId = false) :
    let s₁ := modOutput s o (fun x => { latchFrame x f j with nextChain := v.nextOf f j })
    exec (.stripAdmission o) s = .next (settleEarly (missLadders s₁ (newChain s₁ o (output s₁ o) v t f j))) := by
  intro s₁
  rw [exec_stripAdmission hv ht ha hn hs, hl]
  rfl

/-! ### Scan (R379, R388) -/

theorem misses_sendStrip (x : Output) (v : Video) (o f : Nat) (px : List Word) : (sendStrip x v o f px).misses = x.misses := by
  unfold sendStrip
  dsimp only
  rw [apply_ite Output.misses]
  exact ite_self _

theorem next_of_mem_advance {x : Output} {c d : Scan} {n : Nat × Nat} (hd : d ∈ (x.advance c n).scans) (ha : d.arm = c.arm) :
    d.next = n := by
  unfold Output.advance at hd
  refine iteInduction (motive := fun l => d ∈ l → d.next = n) (fun _ hd => ?_) (fun _ hd => ?_) hd
  · exact absurd ha (by simpa using (List.mem_filter.1 hd).2)
  · obtain ⟨e, -, rfl⟩ := List.mem_map.1 hd
    by_cases he : e.arm = c.arm
    · simp [he]
    · simp [he] at ha

theorem arm_of_mem_advance {x : Output} {c d : Scan} {n : Nat × Nat} {f : Nat} (hc : c.stop = some f) (hf : f < n.1)
    (hd : d ∈ (x.advance c n).scans) : d.arm ≠ c.arm := by
  simp only [Output.advance, hc, hf, decide_true, if_true] at hd
  simpa using (List.mem_filter.1 hd).2

/-- The slot of the strip an arming takes next. -/
def Scan.slot (c : Scan) (s : State) : Nat := slotNo s c.video.ring c.video.strips c.next.1 c.next.2

/-- It holds that strip, committed. -/
def stripTaken (s : State) (c : Scan) : Bool :=
  (slotOf s c.video.ring (c.slot s)).state == 2 && (slotOf s c.video.ring (c.slot s)).holds c.next.1 c.next.2

/-- A taken slot is held until its scan is over, and one that renders the strip still is freed. -/
def scanSlot (s : State) (o : Nat) (c : Scan) (y : Slot) : Slot :=
  if stripTaken s c then
    { y with
      state := 3
      until_ := (c.video.timeT c.next.1 c.next.2 + if 4 ≤ o then c.video.lper / 2 ^ 16 else c.video.sh * c.video.lper / 2 ^ 16) % 2 ^ 64 }
  else if y.state == 1 && y.holds c.next.1 c.next.2 then { y with state := 0 } else y

/-- An output after a strip whose pixels go out, taken or missed. -/
def Output.scanned (x : Output) (o : Nat) (c : Scan) (px : List Word) (ok : Bool) : Output :=
  Output.advance
    { sendStrip x c.video o c.next.1 px with
      misses := if ok then (sendStrip x c.video o c.next.1 px).misses else (sendStrip x c.video o c.next.1 px).misses + 1 }
    c (c.video.nextStrip c.next.1 c.next.2)

/-- What a strip's scan shows: its slot, and its output's counts and next strip. -/
theorem shown_takeStrip (s : State) (o : Nat) (c : Scan) : ∃ px, shown (takeStrip s o (output s o) c) =
    shown (modOutput (modSlot s c.video.ring (c.slot s) (scanSlot s o c)) o (fun x =>
      x.scanned o c px (stripTaken s c && !(!sealLive s c.sealId || s.errors.fatal)))) := by
  refine ⟨if stripTaken s c then (slotOf s c.video.ring (c.slot s)).pixels (c.video.hact * c.video.sh)
    else missPixels (output s o) c.video ((output s o).setFor c.arm c.next.1) c.next.2 (!sealLive s c.sealId || s.errors.fatal), ?_⟩
  have piped (s : State) (ps : KMap Pipe) : shown (if 4 ≤ o then { s with pipes := ps } else s) = shown s := by
    split
    · rfl
    · rfl
  refine (piped _ _).trans ?_
  have slot : (if stripTaken s c then modSlot s c.video.ring (c.slot s) (fun y =>
        { y with
          state := 3
          until_ := (c.video.timeT c.next.1 c.next.2 +
            if 4 ≤ o then c.video.lper / 2 ^ 16 else c.video.sh * c.video.lper / 2 ^ 16) % 2 ^ 64 })
      else modSlot s c.video.ring (c.slot s) (fun y =>
        if y.state == 1 && y.holds c.next.1 c.next.2 then { y with state := 0 } else y)) =
      modSlot s c.video.ring (c.slot s) (scanSlot s o c) := by
    unfold scanSlot
    split
    · rfl
    · rfl
  rw [← slot]
  rfl

theorem output_takeStrip (s : State) (o : Nat) (c : Scan) : ∃ px, output (takeStrip s o (output s o) c) o =
    (output s o).scanned o c px (stripTaken s c && !(!sealLive s c.sealId || s.errors.fatal)) := by
  obtain ⟨px, h⟩ := shown_takeStrip s o c
  exact ⟨px, (output_of_shown h o).trans (output_modOutput_same ..)⟩

theorem slot_takeStrip (s : State) (o : Nat) (c : Scan) :
    slotOf (takeStrip s o (output s o) c) c.video.ring (c.slot s) = scanSlot s o c (slotOf s c.video.ring (c.slot s)) := by
  obtain ⟨px, h⟩ := shown_takeStrip s o c
  exact (slotOf_of_shown h ..).trans (slotOf_modSlot_same ..)

theorem misses_scanned (x : Output) (o : Nat) (c : Scan) (px : List Word) (ok : Bool) :
    (x.scanned o c px ok).misses = if ok then x.misses else x.misses + 1 := by
  rw [← misses_sendStrip x c.video o c.next.1 px]
  rfl

theorem exec_stripScan {s : State} {o : Nat} {c : Scan} {cs : List Scan} (hs : (output s o).scans = c :: cs)
    (hf : c.video.factor = 0) (hp : s.dev.power.state ≠ 2) (ht : c.video.timeT c.next.1 c.next.2 ≤ s.tnow)
    (hc : chainOf s o c.arm c.next.1 c.next.2 = none) (h0 : c.next.2 = 0 → chainOf s o c.arm c.next.1 (-1) = none) :
    exec (.stripScan o) s = .next (takeStrip s o (output s o) c) := by
  have due : (s.dev.power.state == 2 || decide (s.tnow < c.video.timeT c.next.1 c.next.2)) = false := by simp [hp, ht]
  show Host.Outcome.next _ = _
  simp only [hs, due, Bool.false_eq_true, if_false, hc, freeLoSlots, hf, beq_self_eq_true, if_true]
  split
  next zero => simp only [h0 (beq_iff_eq.1 zero)]
  · rfl

/-! ### Encode pipes (R389, R390) -/

theorem shown_closePipe (s : State) (key : Nat) : shown (closePipe s key) = shown s := by
  unfold closePipe
  split
  · dsimp only
    split
    · rfl
    · rfl
  · rfl

theorem mem_closePipe (s : State) (key : Nat) : (closePipe s key).mem = s.mem := by
  unfold closePipe
  split
  · dsimp only
    split
    · rfl
    · rfl
  · rfl

theorem closePipe_open {s : State} {key : Nat} {p : Pipe} (h : kget? s.pipes key = some p) (hc : p.closing = false) :
    closePipe s key = s := by
  simp only [closePipe, h, hc, Bool.false_and, Bool.false_eq_true, if_false]

/-- A dropped unit is counted, the next frame is forced to a key frame, and nothing is stored. -/
theorem dropUnit_counts (s : State) (o key : Nat) (p : Pipe) :
    (output (dropUnit s o key p) o).drops = (output s o).drops + 1
    ∧ (p.closing = false → (kget? (dropUnit s o key p).pipes key).map (·.forceKey) = some true) ∧ (dropUnit s o key p).mem = s.mem := by
  refine ⟨?_, fun hc => ?_, mem_closePipe ..⟩
  · rw [dropUnit, output_of_shown (shown_closePipe ..), output_modOutput_same]
    rfl
  · have next_ : kget? (kset s.pipes key (nextUnit p true)) key = some (nextUnit p true) := kget_kset_same ..
    rw [dropUnit, closePipe_open (p := nextUnit p true) next_ hc]
    exact congrArg (Option.map _) next_

/-- The access lies in LPDDR, and the state of a translation shows what it showed. -/
theorem translateNow_glob {s s' : State} {x va n : Nat} {k : AccKind} {a : Access} (h : translateNow s none x va n k = .ok (a, s')) :
    (∃ pa, a.loc = .glob pa) ∧ shown s' = shown s := by
  unfold translateNow at h
  split at h
  case h_1 level e pa s₁ hw =>
    split at h
    · exact nomatch h
    · obtain ⟨rfl, rfl⟩ := Prod.mk.inj (Except.ok.inj h)
      refine ⟨⟨_, rfl⟩, ?_⟩
      obtain ⟨hleaf, hs⟩ := Prod.mk.inj hw
      rw [← hs, hleaf]
      have looked := Looked.noteWalk s x va
      show shown (setAccessed (noteWalk s x va) e pa) = _
      rw [setAccessed_eq, looked.eq]
      rfl
  all_goals exact nomatch h

/-- A temporal unit's accesses lie in LPDDR. -/
theorem unitAccess_glob {s s' : State} {t : Template} {pos n : Nat} {as_ : List Access} (h : unitAccess s t pos n = some (as_, s')) :
    (∀ a ∈ as_, ∃ pa, a.loc = .glob pa) ∧ shown s' = shown s := by
  refine List.foldlRecOn (motive := fun r : Option (List Access × State) => ∀ as_ s', r = some (as_, s') →
    (∀ a ∈ as_, ∃ pa, a.loc = .glob pa) ∧ shown s' = shown s) _ _ ?_ (fun r hr p _ => ?_) as_ s' h
  · rintro _ _ ⟨⟩
    exact ⟨nofun, rfl⟩
  · rintro as' s' step
    cases r with
    | none => exact nomatch step
    | some r =>
      obtain ⟨as₁, s₁⟩ := r
      obtain ⟨globs, same⟩ := hr as₁ s₁ rfl
      dsimp only at step
      split at step
      next a s₂ ht =>
        obtain ⟨rfl, rfl⟩ := Prod.mk.inj (Option.some.inj step)
        obtain ⟨glob, same'⟩ := translateNow_glob ht
        refine ⟨List.forall_mem_append.2 ⟨globs, ?_⟩, same'.trans same⟩
        simpa using glob
      · exact nomatch step

theorem OnRecords.storeRange {as_ : List Access} (h : ∀ a ∈ as_, ∃ pa, a.loc = .glob pa) (s : State) (pts x : Nat) (bs : List Byte) :
    OnRecords s (storeRange s pts x as_ bs).2 := by
  refine List.foldlRecOn (motive := fun r : List Byte × Nat × State => OnRecords s r.2.2) _ _ (.refl s) fun r hr b hb => ?_
  obtain ⟨a, ha, hb⟩ := List.mem_flatMap.1 hb
  obtain ⟨pa, hl⟩ := h a ha
  obtain ⟨p, hl⟩ := loc_of_mem_lines hl hb
  exact hr.trans (.storeAt _ _ _ hl)

/-- A stored temporal unit, with the time and the state its stores leave: the ring's write position, and the pipe's next frame. -/
def afterUnit (r : Nat × State) (key : Nat) (p : Pipe) : State :=
  closePipe (modRing { r.2 with pipes := kset r.2.pipes key (nextUnit p false) } p.video.ring (fun g =>
    { g with bswr := (g.bswr + (temporalUnit p).length) % 2 ^ 32, bsPts := r.1 })) key

theorem pipe_afterUnit (r : Nat × State) (key : Nat) (p : Pipe) (hc : p.closing = false) :
    kget? (afterUnit r key p).pipes key = some (nextUnit p false) := by
  have next_ : kget? (kset r.2.pipes key (nextUnit p false)) key = some (nextUnit p false) := kget_kset_same ..
  rw [afterUnit, closePipe_open (p := nextUnit p false) next_ hc]
  exact next_

theorem bswr_afterUnit (r : Nat × State) (key : Nat) (p : Pipe) : (ringOf (afterUnit r key p) p.video.ring).bswr =
    ((ringOf r.2 p.video.ring).bswr + (temporalUnit p).length) % 2 ^ 32 := by
  rw [afterUnit, ringOf_of_shown (shown_closePipe ..), ringOf_modRing_same]
  rfl

/-- The step of a pipe whose frame is coded. -/
theorem exec_temporalUnitWrite {s : State} {i key : Nat} {p : Pipe} (hp : pipeOf s i = some (key, p)) (hr : unitReady p = true) :
    exec (.temporalUnitWrite i) s = .next (
      if p.tpl.bssize < ringFill (ringOf s p.video.ring) + (temporalUnit p).length || !sealLive s p.tpl.sealId then dropUnit s (4 + i) key p
      else match unitAccess s p.tpl (ringOf s p.video.ring).bswr (temporalUnit p).length with
        | none => dropUnit s (4 + i) key p
        | some (as_, s) => afterUnit (storeRange s 0 p.tpl.sealId as_ (temporalUnit p)) key p) := by
  show Host.Outcome.next _ = _
  simp only [hp, hr, Bool.not_true, Bool.false_eq_true, if_false]
  rfl

theorem exec_temporalUnitWrite_drops {s : State} {i key : Nat} {p : Pipe} (hp : pipeOf s i = some (key, p)) (hr : unitReady p = true)
    (hd : p.tpl.bssize < ringFill (ringOf s p.video.ring) + (temporalUnit p).length ∨ sealLive s p.tpl.sealId = false
      ∨ unitAccess s p.tpl (ringOf s p.video.ring).bswr (temporalUnit p).length = none) :
    exec (.temporalUnitWrite i) s = .next (dropUnit s (4 + i) key p) := by
  rw [exec_temporalUnitWrite hp hr]
  rcases hd with full | dead | absent
  · simp [full]
  · simp [dead]
  · rw [absent, ite_self]

theorem exec_temporalUnitWrite_stores {s s₁ : State} {i key : Nat} {p : Pipe} {as_ : List Access} (hp : pipeOf s i = some (key, p))
    (hr : unitReady p = true) (hroom : ringFill (ringOf s p.video.ring) + (temporalUnit p).length ≤ p.tpl.bssize)
    (hl : sealLive s p.tpl.sealId = true)
    (ha : unitAccess s p.tpl (ringOf s p.video.ring).bswr (temporalUnit p).length = some (as_, s₁)) :
    exec (.temporalUnitWrite i) s = .next (afterUnit (storeRange s₁ 0 p.tpl.sealId as_ (temporalUnit p)) key p) := by
  have goes : (decide (p.tpl.bssize < ringFill (ringOf s p.video.ring) + (temporalUnit p).length) || !sealLive s p.tpl.sealId) = false := by
    simpa [hl] using hroom
  rw [exec_temporalUnitWrite hp hr, goes, ha]
  rfl

theorem ringOf_storedUnit {s s₁ : State} {t : Template} {pos n : Nat} {as_ : List Access} (h : unitAccess s t pos n = some (as_, s₁))
    (pts x : Nat) (bs : List Byte) (r : Nat) : ringOf (storeRange s₁ pts x as_ bs).2 r = ringOf s r := by
  obtain ⟨globs, same⟩ := unitAccess_glob h
  exact ringOf_of_shown (((congrArg shown (OnRecords.storeRange globs s₁ pts x bs)).trans rfl).trans same) r

/-! ### Arming and disarming (R375) -/

theorem exec_outputArm {s : State} {o : Nat} (ho : o < 8) (ha : (output s o).armed = false) (r l : Bool) :
    exec (.outputArm o r l) s = .next (armOutput s o r l) := by
  refine congrArg Host.Outcome.next (if_pos ?_)
  simp [ho, ha]

theorem armOutput_refused {s : State} {o e : Nat} {r l : Bool} (h : armChecks s o (output s o).params r l = .error e) :
    armOutput s o r l = modOutput s o (fun x => { x with err := e }) := by
  simp only [armOutput, h]

theorem exec_outputDisarm {s : State} {o : Nat} (ho : o < 8) (ha : (output s o).armed = true) :
    exec (.outputDisarm o) s = .next (disarmOutput s o) := by
  refine congrArg Host.Outcome.next (if_pos ?_)
  simp [ho, ha]

/-- A disarmed output: what it still takes of its strips, and its link. -/
def Output.disarmed (x : Output) (v : Video) : Output :=
  { x with armed := false, scans := x.stopped v, link := x.link && !(x.stopped v).isEmpty }

theorem output_disarmOutput {s : State} {o : Nat} {v : Video} (hv : (output s o).video = some v) :
    output (disarmOutput s o) o = (output s o).disarmed v := by
  have piped (s : State) (ps : KMap Pipe) (key : Nat) : shown (if 4 ≤ o then closePipe { s with pipes := ps } key else s) = shown s := by
    split
    · exact shown_closePipe ..
    · rfl
  rw [← output_modOutput_same s o (·.disarmed v)]
  simp only [disarmOutput, hv]
  exact output_of_shown (piped _ _ _) o

/-! ### Rings (R377) -/

theorem exec_ringEnable_bound {s : State} {r : Nat} (w : Word) (hb : ringBound s r = true) : exec (.ringEnable r w) s = .next s := by
  refine congrArg Host.Outcome.next ?_
  simp only [ringWrite, hb, if_true, ite_self]

theorem exec_ringDisable_bound {s : State} {r : Nat} (w : Word) (hb : ringBound s r = true) : exec (.ringDisable r w) s = .next s := by
  refine congrArg Host.Outcome.next ?_
  simp only [ringWrite, hb, if_true, ite_self]

/-! ### The obligation -/

/-- Settles O45: each event by what its instant, its output, its ring or its pipe shows; admission and its claims leave what the
outputs and rings show but for the chain's own slots and frame. -/
theorem outputsRingsAndChains : Obligations.OutputsRingsAndChains := by
  refine ⟨⟨?ended, ?running, ?budget, ?noBudget, ?deadline, ?noDeadline, ?noVideo, ?noScan, ?dead, ?admits, ?scans, ?taken, ?missed, ?stops,
    ?released, ?held, ?codes, ?drops, ?writes, ?unready, ?noPipe⟩, ?refused, ?arms, ?armed, ?disarms, ?disarmed, ?unarmed, ?enables,
    ?disables, ?bound, ?loss, ?retrain, ?unlinked⟩
  case ended =>
    intro s id c h ht
    show Host.Outcome.next _ = _
    simp only [h, ht, if_true]
  case running =>
    intro s id c h ht
    show Host.Outcome.next _ = _
    simp only [h, Nat.not_le.2 ht, if_false]
  case budget =>
    intro s id j h hb ht hc
    have due : (j.budget == 0 || j.budgetTold || decide (j.count < j.budget)) = false := by simp [hb, ht, hc]
    show Host.Outcome.next _ = _
    simp only [h, due, Bool.false_eq_true, if_false]
    rfl
  case noBudget =>
    intro s id j h hb
    have early : (j.budget == 0 || j.budgetTold || decide (j.count < j.budget)) = true := by simpa [or_assoc] using hb
    show Host.Outcome.next _ = _
    simp only [h, early, if_true]
  case deadline =>
    intro s id j d h hd ht hn
    have due : (j.deadlineTold || decide (s.tnow < d)) = false := by simp [ht, hn]
    show Host.Outcome.next _ = _
    simp only [h, hd, due, Bool.false_eq_true, if_false]
    rfl
  case noDeadline =>
    intro s id j d h hd hn
    have early : (j.deadlineTold || decide (s.tnow < d)) = true := by simpa using hn
    show Host.Outcome.next _ = _
    simp only [h, hd, early, if_true]
  case noVideo =>
    intro s o h
    show Host.Outcome.next _ = _
    simp only [h]
  case noScan =>
    intro s o h
    show Host.Outcome.next _ = _
    simp only [h]
  case dead =>
    intro s o v t hv ht ha hs hl
    refine ⟨_, exec_stripAdmission_dead hv ht ha rfl hs hl, rfl, ?_⟩
    rw [output_of_shown (shown_missed ..), output_modOutput_same]
  case admits =>
    intro s o v t f j hv ht ha hn hs hl hp s₁ x c hmiss
    refine ⟨?_, frame_admitChain .., fun hf hj => ?_⟩
    · rw [exec_stripAdmission hv ht ha hn hs, hl, hp, hmiss]
      rfl
    · have slot := slot_admitChain s₁ o v (x.setFor x.arming f) f j c (newChain_lo hf ..) hj
      refine ⟨?_, ?_, ?_⟩
      · exact congrArg Slot.state slot
      · exact congrArg Slot.frame slot
      · exact congrArg Slot.strip slot
  case scans => exact fun s o c cs hs hf hp ht hc h0 => exec_stripScan hs hf hp ht hc h0
  case taken =>
    intro s o c y v i hy hh hst hl hf
    have taken : stripTaken s c = true := by
      show ((slotOf s v.ring i).state == 2 && (slotOf s v.ring i).holds c.next.1 c.next.2) = true
      rw [hy, hh, hst]
      rfl
    obtain ⟨px, out⟩ := output_takeStrip s o c
    refine ⟨?_, ?_, fun d hd => next_of_mem_advance (out ▸ hd)⟩
    · rw [out, misses_scanned, taken, hl, hf]
      rfl
    · refine (congrArg Slot.state (slot_takeStrip s o c)).trans ?_
      rw [scanSlot, if_pos taken]
  case missed =>
    intro s o c y v i hy hh hst
    have missed : stripTaken s c = false := by
      show ((slotOf s v.ring i).state == 2 && (slotOf s v.ring i).holds c.next.1 c.next.2) = false
      rw [hy, hst]
      rfl
    obtain ⟨px, out⟩ := output_takeStrip s o c
    refine ⟨?_, ?_, fun d hd => next_of_mem_advance (out ▸ hd)⟩
    · rw [out, misses_scanned, missed]
      rfl
    · refine (congrArg Slot.state (slot_takeStrip s o c)).trans ?_
      show (scanSlot s o c (slotOf s v.ring i)).state = 0
      rw [hy, scanSlot, missed, hst, hh]
      rfl
  case stops =>
    intro s o c f hc hf d hd
    obtain ⟨px, out⟩ := output_takeStrip s o c
    exact arm_of_mem_advance hc hf (out ▸ hd)
  case released =>
    intro s r i h3 hu
    refine congrArg Host.Outcome.next (if_pos ?_)
    simp [h3, hu]
  case held =>
    intro s r i h
    refine congrArg Host.Outcome.next (if_neg ?_)
    simpa [imp_iff_not_or] using h
  case codes =>
    intro s i key p hp hr
    refine ⟨{ (draw s 2).2 with pipes := kset s.pipes key (codeRow p (draw s 2).1) }, ?_, ?_, ?_, rfl⟩
    · show Host.Outcome.next _ = _
      simp only [hp, hr, if_true]
      rfl
    · rw [kget_kset_same]
      exact congrArg some (List.length_append.trans rfl)
    · rw [kget_kset_same]
      rfl
  case drops =>
    intro s i key p hp hr hd
    obtain ⟨counts, forces, mem⟩ := dropUnit_counts s (4 + i) key p
    exact ⟨_, exec_temporalUnitWrite_drops hp hr hd, counts, forces, mem⟩
  case writes =>
    intro s i key p as_ s₁ bs hp hr hroom hl ha
    refine ⟨_, exec_temporalUnitWrite_stores hp hr hroom hl ha, mem_closePipe .., ?_, pipe_afterUnit _ key p⟩
    rw [bswr_afterUnit, ringOf_storedUnit ha]
  case unready =>
    intro s i key p hp hr
    show Host.Outcome.next _ = _
    simp only [hp, hr, Bool.not_false, if_true]
  case noPipe =>
    intro s i h
    refine ⟨?_, ?_⟩
    · show Host.Outcome.next _ = _
      simp only [h]
    · show Host.Outcome.next _ = _
      simp only [h]
  case refused =>
    intro s o r l e ho ha h
    rw [exec_outputArm ho ha, armOutput_refused h]
  case arms =>
    intro s o r l s' t ho ha h
    refine ⟨_, exec_outputArm ho ha r l, ?_⟩
    simp only [armOutput, h]
    rw [output_modOutput_same]
    refine ⟨rfl, rfl, rfl, rfl, ?_, _, ?_, _, List.mem_append_right _ (List.mem_singleton.2 rfl), rfl, rfl⟩
    · simp only [beq_iff_eq]
    · simp only [Video.firstChain]
  case armed =>
    intro s o r l ha
    refine congrArg Host.Outcome.next (if_neg ?_)
    simp [ha]
  case disarms => exact fun s o ho ha => exec_outputDisarm ho ha
  case disarmed =>
    intro s o v hv
    rw [output_disarmOutput hv]
    exact ⟨rfl, rfl⟩
  case unarmed =>
    intro s o ha
    refine congrArg Host.Outcome.next (if_neg ?_)
    simp [ha]
  case enables =>
    intro s r w hr hw hb he g
    have field : flag w.toNat 31 = true := (flag_eq_testBit ..).trans hw
    refine congrArg Host.Outcome.next ?_
    simp only [hr, hw, decide_true, Bool.and_self, if_true, ringWrite, hb, Bool.false_eq_true, if_false, ringWrite0, he, field,
      Bool.not_true]
    rfl
  case disables =>
    intro s r w hr hw hb he
    have field : flag w.toNat 31 = false := (flag_eq_testBit ..).trans hw
    refine congrArg Host.Outcome.next ?_
    simp only [hr, hw, decide_true, Bool.not_false, Bool.and_self, if_true, ringWrite, hb, Bool.false_eq_true, if_false, ringWrite0, he,
      field]
  case bound => exact fun s r w _ hb => ⟨exec_ringEnable_bound w hb, exec_ringDisable_bound w hb⟩
  case loss =>
    intro s o ho ha hl
    refine congrArg Host.Outcome.next (if_pos ?_)
    simp [ho, ha, hl]
  case retrain =>
    intro s o c ho ha hl hf
    have down : (decide (o < 4) && (output s o).armed && !(output s o).link) = true := by simp [ho, ha, hl]
    show Host.Outcome.next _ = _
    simp only [hf, Option.map_some, Option.getD_some, down, if_true, beq_iff_eq]
  case unlinked =>
    intro s o ha
    refine ⟨congrArg Host.Outcome.next (if_neg ?_), congrArg Host.Outcome.next (if_neg ?_)⟩
    · simp [ha]
    · simp [ha]

end Sys2Proof.Machine
end

section
/-!
Tile and matrix words enter their operations (R296, R308 to R318).
-/
namespace Sys2Proof.Machine
set_option Elab.async false

/-! ### Entry -/

/-- The core's sequencer has room for one more operation (R296). -/
def SequencerRoom (s : State) (k : Ctx) : Prop := (coreMtx s (coreOf s k.th)).length < 32

/-- The effect of a word whose operation enters its orders. -/
def entersMtx (s : State) (o : MtxOp) (ec : Nat) (dests : List Nat) (op : Nat → FlightOp) : Eff :=
  { st := (enterMtx s o).2, launch := some { ec := ec, dests := dests, op := op (enterMtx s o).1 } }

/-- The state in which the regions of an operation's accesses are noted. -/
def rangeNoted (k : Ctx) (as_ : List Access) : State := as_.foldl (fun s a => noteRegion s k.th a) k.s

/-- The memory side of an operation is of this package and is not held, and the sequencer has room. -/
def TileSent (k : Ctx) (as_ : List Access) : Prop :=
  memHeld k.th = false ∧ rangeRemote as_ = false ∧ remoteSpan as_ = none ∧ SequencerRoom (rangeNoted k as_) k

theorem mtxIssue_room {k : Ctx} {s : State} (h : SequencerRoom s k) (o : MtxOp) (ec : Nat) (dests : List Nat)
    (op : Nat → FlightOp) : mtxIssue k s o ec dests op = .ok (entersMtx s o ec dests op) := if_neg (Nat.not_le.2 h)

theorem sendTile_load {k : Ctx} {as_ : List Access} (h : TileSent k as_) (o : MtxOp) :
    sendTile k o as_ true = .ok (entersMtx (rangeNoted k as_) { o with accs := as_ } 3 [] (.mload as_)) := by
  obtain ⟨free, here, span, room⟩ := h
  simp only [sendTile, free, here, span, Bool.false_and, Bool.false_eq_true, if_false]
  exact congrArg (Except.map _) (mtxIssue_room room _ 3 [] _)

theorem sendTile_store {k : Ctx} {as_ : List Access} (h : TileSent k as_) (o : MtxOp) :
    sendTile k o as_ false = .ok (entersMtx (rangeNoted k as_) { o with accs := as_ } 3 [] (.mstore as_)) := by
  obtain ⟨free, here, span, room⟩ := h
  simp only [sendTile, free, here, span, Bool.false_and, Bool.false_eq_true, if_false]
  exact congrArg (Except.map _) (mtxIssue_room room _ 3 [] _)

/-! ### Loads and stores of tiles and banks (R308, R317) -/

section
variable {i : Instr} {bmp x : Bool} {t a : BitVec 6}

theorem runs_tileLoad (hx : ∀ s, exec i s = issue i [⟨a.toNat, 2, x⟩] (tileBody bmp true t a) s) (as_ : List Access) :
    Runs i [⟨a.toNat, 2, x⟩]
      (fun k => stepsOneTwo k (k.addrM a) false tileLoadWindows = none ∧ t.toNat < k.granted
        ∧ checkRange k.s k.t k.th k.iw (k.addrM a) (if bmp then 1024 else 2048) 128 .load false tileLoadWindows true = .ok as_
        ∧ TileSent k as_)
      (fun k => entersMtx (rangeNoted k as_)
        { k.mtx (.load bmp k.th.gid t.toNat) [] [k.regRes bmp t.toNat] with accs := as_ } 3 [] (.mload as_)) := by
  refine runs_of hx fun k ⟨steps, granted, checked, sent⟩ => ?_
  simp only [tileBody, if_true, Bool.not_true, steps, if_neg (Nat.not_le.2 granted), checked]
  exact sendTile_load sent _

theorem traps_tileLoad (hx : ∀ s, exec i s = issue i [⟨a.toNat, 2, x⟩] (tileBody bmp true t a) s) :
    Traps i [⟨a.toNat, 2, x⟩]
      (fun k => stepsOneTwo k (k.addrM a) false tileLoadWindows = none ∧ k.granted ≤ t.toNat) 0x22
      (fun k => (wordN (max t.toNat k.granted % 8 + k.th.gid % 4 * 16 + 4 * 256), 1, 0, k.iw)) := by
  refine traps_of hx fun k ⟨steps, beyond⟩ => ?_
  simp only [tileBody, if_true, Bool.not_true, steps, if_pos beyond]
  rfl

theorem runs_tileStore (hx : ∀ s, exec i s = issue i [⟨a.toNat, 2, x⟩] (tileBody bmp false t a) s) (as_ : List Access) :
    Runs i [⟨a.toNat, 2, x⟩]
      (fun k => stepsOneTwo k (k.addrM a) true tileStoreWindows = none ∧ t.toNat < k.granted
        ∧ checkRange k.s k.t k.th k.iw (k.addrM a) (if bmp then 1024 else 2048) 128 .store false tileStoreWindows true = .ok as_
        ∧ TileSent k as_)
      (fun k => entersMtx (rangeNoted k as_)
        { k.mtx (.store bmp k.th.gid t.toNat) [k.regRes bmp t.toNat] [] with accs := as_ } 3 [] (.mstore as_)) := by
  refine runs_of hx fun k ⟨steps, granted, checked, sent⟩ => ?_
  simp only [tileBody, Bool.false_eq_true, if_false, Bool.not_false, steps, if_neg (Nat.not_le.2 granted), checked]
  exact sendTile_store sent _

end

theorem runs_accspl (sw : Bool) (a : BitVec 6) (kb x : Bool) (as_ : List Access) : Runs (.accspl sw a kb x) [⟨a.toNat, 2, x⟩]
    (fun k => checkRange k.s k.t k.th k.iw (k.th.reg64 a.toNat) 32768 128 .put false [0x00, 0xF0] true = .ok as_ ∧ TileSent k as_)
    (fun k => entersMtx (rangeNoted k as_) { k.mtx (.spill (b2n kb)) [.bank (k.th.gid / 4) (b2n kb)] [] with accs := as_ } 3 []
      (.mstore as_)) := by
  refine runs_of (fun _ => rfl) fun k ⟨checked, sent⟩ => ?_
  simp only [bankMemBody, Ctx.g64, Bool.false_eq_true, if_false, checked]
  exact sendTile_store sent _

theorem runs_accfil (sw : Bool) (a : BitVec 6) (kb x : Bool) (as_ : List Access) : Runs (.accfil sw a kb x) [⟨a.toNat, 2, x⟩]
    (fun k => checkRange k.s k.t k.th k.iw (k.th.reg64 a.toNat) 32768 128 .load false [0x00, 0xF0] true = .ok as_ ∧ TileSent k as_)
    (fun k => entersMtx (rangeNoted k as_) { k.mtx (.fill (b2n kb)) [] [.bank (k.th.gid / 4) (b2n kb)] with accs := as_ } 3 []
      (.mload as_)) := by
  refine runs_of (fun _ => rfl) fun k ⟨checked, sent⟩ => ?_
  simp only [bankMemBody, Ctx.g64, if_true, checked]
  exact sendTile_load sent _

/-! ### Zeroing, conversion and bitmaps (R309, R311, R312) -/

theorem runs_kzero_tiles (sw : Bool) (d : BitVec 6) (n : BitVec 2) : Runs (.kzero sw d n false) []
    (fun k => d.toNat + (n.toNat + 1) ≤ k.granted ∧ SequencerRoom k.s k)
    (fun k => entersMtx k.s (k.mtx (.zero false k.th.gid d.toNat (n.toNat + 1)) [] (tileRes k.th.gid d.toNat (n.toNat + 1))) 3 []
      .unit) := by
  refine runs_of (fun _ => rfl) fun k ⟨granted, room⟩ => ?_
  simp only [Bool.false_and, Bool.false_eq_true, if_false, if_neg (Nat.not_lt.2 granted)]
  exact mtxIssue_room room ..

theorem runs_kzero_bitmap (sw : Bool) (d : BitVec 6) : Runs (.kzero sw d 0 true) []
    (fun k => d.toNat < k.granted ∧ SequencerRoom k.s k)
    (fun k => entersMtx k.s (k.mtx (.zero true k.th.gid d.toNat 1) [] [.bmp k.th.gid d.toNat]) 3 [] .unit) := by
  refine runs_of (fun _ => rfl) fun k ⟨granted, room⟩ => ?_
  have within : ¬ k.granted < d.toNat + ((0 : BitVec 2).toNat + 1) := Nat.not_lt.2 granted
  exact (if_neg within).trans (mtxIssue_room room ..)

theorem traps_kzero_bitmaps (sw : Bool) (d : BitVec 6) {n : BitVec 2} (hn : n ≠ 0) :
    Traps (.kzero sw d n true) [] (fun _ => True) 0x01 (illegalInfos 3) := by
  refine traps_of (fun _ => rfl) fun k _ => ?_
  have many : (true && n.toNat + 1 != 1) = true := by
    have : n.toNat ≠ 0 := fun h => hn (BitVec.eq_of_toNat_eq h)
    simpa using this
  exact if_pos many

/-- KCVT's row length: the longer of its two formats' (R311). -/
def cvtRow (w : Nat) : Nat := max (kFor (fwA w)) (kFor (fwR w))

/-- Tiles of KCVT's source. -/
def cvtSource (m : Bool) (w : Nat) : Nat := spanOf (imageSize (fwA w) (cvtRow w) m)

/-- Tiles of KCVT's destination. -/
def cvtDest (m : Bool) (w : Nat) : Nat := spanOf (imageSize (fwR w) (cvtRow w) m)

section
variable (sw : Bool) (d a b : BitVec 6) (y m : Bool)

theorem runs_kcvt : Runs (.kcvt sw d a b y m) [⟨b.toNat, 2, y⟩]
    (fun k => kcvtOk (k.g b).toNat = true ∧ a.toNat + cvtSource m (k.g b).toNat ≤ k.granted
      ∧ d.toNat + cvtDest m (k.g b).toNat ≤ k.granted
      ∧ spanOverlap a.toNat (cvtSource m (k.g b).toNat) d.toNat (cvtDest m (k.g b).toNat) = none ∧ SequencerRoom k.s k)
    (fun k => entersMtx k.s (k.mtx (.cvt k.th.gid d.toNat a.toNat m (k.g b).toNat (k.th.reg (b.toNat + 1))
        (k.mode (fwMode (k.g b).toNat)))
      (tileRes k.th.gid a.toNat (cvtSource m (k.g b).toNat)) (tileRes k.th.gid d.toNat (cvtDest m (k.g b).toNat))) 3 [] .unit) := by
  refine runs_of (fun _ => rfl) fun k ⟨ok, source, dest, apart, room⟩ => ?_
  refine (if_neg (by simp [ok])).trans ((if_neg (Nat.not_lt.2 source)).trans ((if_neg (Nat.not_lt.2 dest)).trans ?_))
  refine Eq.trans ?_ (mtxIssue_room room ..)
  simp only [cvtSource, cvtDest, cvtRow] at apart ⊢
  simp only [Nat.max_def] at apart ⊢
  simp only [apart]
  rfl

theorem traps_kcvt : Traps (.kcvt sw d a b y m) [⟨b.toNat, 2, y⟩] (fun k => kcvtOk (k.g b).toNat = false) 0x01
    (illegalInfos 3) :=
  traps_of (fun _ => rfl) fun _ bad => if_pos (by simp [bad])

theorem runs_kbmp : Runs (.kbmp sw d a b y m) [⟨b.toNat, 1, y⟩]
    (fun k => (k.g b).toNat ≤ 8 ∧ a.toNat + spanOf (imageSize (k.g b).toNat (kFor (k.g b).toNat) m) ≤ k.granted
      ∧ d.toNat < k.granted ∧ SequencerRoom k.s k)
    (fun k => entersMtx k.s (k.mtx (.bmp k.th.gid d.toNat a.toNat m (k.g b).toNat)
      (tileRes k.th.gid a.toNat (spanOf (imageSize (k.g b).toNat (kFor (k.g b).toNat) m))) [.bmp k.th.gid d.toNat]) 3 [] .unit) :=
  runs_of (fun _ => rfl) fun _ ⟨code, source, dest, room⟩ =>
    (if_neg (Nat.not_lt.2 code)).trans ((if_neg (Nat.not_lt.2 source)).trans ((if_neg (Nat.not_le.2 dest)).trans
      (mtxIssue_room room ..)))

theorem traps_kbmp : Traps (.kbmp sw d a b y m) [⟨b.toNat, 1, y⟩] (fun k => 8 < (k.g b).toNat) 0x01 (illegalInfos 3) :=
  traps_of (fun _ => rfl) fun _ code => if_pos code

end

/-! ### Matrix ops (R313, R314) -/

theorem runs_mmae_octet (sw : Bool) (a : BitVec 6) (x : Bool) (tm : Team) (b : MmaBlock) : Runs (.mmae sw a x false)
    [⟨a.toNat, 8, x⟩]
    (fun k => k.team = some tm ∧ tm.quad = true ∧ blockCheck k tm (k.th.octet a.toNat) = .ok b ∧ SequencerRoom k.s k)
    (fun k => entersMtx k.s { k.mtx (.mma b) (mmaReads (k.th.gid / 4) b) [.bank (k.th.gid / 4) b.bank] with pts := ptsOf k.s k.t }
      b.ec [] .unit) := by
  refine runs_of (fun _ => rfl) fun k ⟨team, quad, checked, room⟩ => ?_
  simp only [team, quad, mmaeBytes, Bool.not_true, Bool.not_false, Bool.false_eq_true, if_false, if_true, checked]
  exact mtxIssue_room room ..

theorem runs_mmae_memory (sw : Bool) (a : BitVec 6) (x : Bool) (tm : Team) (b : MmaBlock) (acc : Access) (bs : List Byte)
    (s' : State) : Runs (.mmae sw a x true) [⟨a.toNat, 2, x⟩]
    (fun k => k.team = some tm ∧ tm.quad = true ∧ orderWaits k.s k.th = false
      ∧ checkAccess k.s k.t k.th k.iw (k.th.reg64 a.toNat) 32 32 .load false [0xF0] false = .ok acc
      ∧ readNow k.s k.t [acc] = (bs, s') ∧ blockCheck k tm bs = .ok b ∧ SequencerRoom s' k)
    (fun k => entersMtx s' { k.mtx (.mma b) (mmaReads (k.th.gid / 4) b) [.bank (k.th.gid / 4) b.bank] with pts := ptsOf s' k.t }
      b.ec [] .unit) := by
  refine runs_of (fun _ => rfl) fun k ⟨team, quad, order, acc, read, checked, room⟩ => ?_
  simp only [team, quad, mmaeBytes, Ctx.g64, Bool.not_true, Bool.false_eq_true, if_false, order, acc, read, checked]
  exact mtxIssue_room room ..

/-- What a thread brings to a rendezvous at MMAC: its format word and its block, or the block's address. -/
def mmacWait (d a b : BitVec 6) (x y m : Bool) (th : Thread) : Wait :=
  .rendezvous d.toNat 0x308 0 0 (th.reg a.toNat) m ((List.range (if m then 2 else 8)).map (fun i => th.reg (b.toNat + i)))
    (freesOf [⟨a.toNat, 1, x⟩, ⟨b.toNat, if m then 2 else 8, y⟩])

section
variable (sw : Bool) (d a b : BitVec 6) (x y m : Bool)

theorem runs_mmac : Runs (.mmac sw d a b x y m) [⟨a.toNat, 1, x⟩, ⟨b.toNat, if m then 2 else 8, y⟩]
    (fun k => k.member d.toNat = true ∧ orderWaits k.s k.th = false)
    (fun k => { st := k.s, flow := .done, after := fun s => arriveLig s k.t k.th d.toNat (mmacWait d a b x y m k.th) }) := by
  refine runs_of (fun _ => rfl) fun k ⟨member, order⟩ => ?_
  simp only [member, order, Bool.not_true, Bool.false_eq_true, if_false]
  rfl

theorem traps_mmac : Traps (.mmac sw d a b x y m) [⟨a.toNat, 1, x⟩, ⟨b.toNat, if m then 2 else 8, y⟩]
    (fun k => k.member d.toNat = false) 0x06 (fun _ => (1, wordN d.toNat, 0, 0)) :=
  traps_of (fun _ => rfl) fun _ stranger => if_pos (by simp [stranger])

end

/-! ### Banks (R315, R316, R318) -/

theorem runs_accz (sw kb : Bool) : Runs (.accz sw kb) [] (fun k => SequencerRoom k.s k)
    (fun k => entersMtx k.s (k.mtx (.accz (b2n kb)) [] [.bank (k.th.gid / 4) (b2n kb)]) 3 [] .unit) :=
  runs_of (fun _ => rfl) fun _ room => mtxIssue_room room ..

/-- Column groups that ACCRD reads (R316). -/
def accrdGroups (c : Nat) : Nat := fld c 1 2 + 1

/-- Tiles of a group that ACCRD writes. -/
def accrdSpan (w c : Nat) : Nat := spanOf (16 * 16 * accrdGroups c * (widthOfCode (fwR w) / 8))

section
variable (sw : Bool) (d a b : BitVec 6) (x y : Bool)

theorem runs_accrd_reg : Runs (.accrd sw d a b x y true) [⟨a.toNat, 1, x⟩, ⟨b.toNat, 1, y⟩]
    (fun k => accrdOk (k.g a).toNat (k.g b).toNat true = true ∧ SequencerRoom k.s k)
    (fun k => entersMtx k.s (k.mtx (.accrdReg (fld (k.g b).toNat 8 6) (fld (k.g b).toNat 16 6) (k.g a).toNat
        (flag (k.g b).toNat 3) (fld (k.g b).toNat 0 1) (k.mode (fwMode (k.g a).toNat)))
      [.bank (k.th.gid / 4) (fld (k.g b).toNat 0 1)] []) 3 [d.toNat] .unit) :=
  runs_of (fun _ => rfl) fun _ ⟨ok, room⟩ => (if_neg (by simp [ok])).trans (mtxIssue_room room ..)

theorem runs_accrd (tm : Team) : Runs (.accrd sw d a b x y false) [⟨a.toNat, 1, x⟩, ⟨b.toNat, 1, y⟩]
    (fun k => accrdOk (k.g a).toNat (k.g b).toNat false = true ∧ k.team = some tm
      ∧ (∀ i < 4, d.toNat + accrdSpan (k.g a).toNat (k.g b).toNat ≤ tm.granted (4 * (k.th.gid / 4) + i)) ∧ SequencerRoom k.s k)
    (fun k => entersMtx k.s (k.mtx (.accrd d.toNat (k.g a).toNat (accrdGroups (k.g b).toNat) (flag (k.g b).toNat 3)
        (fld (k.g b).toNat 0 1) (k.mode (fwMode (k.g a).toNat)))
      [.bank (k.th.gid / 4) (fld (k.g b).toNat 0 1)]
      ((List.range 4).flatMap (fun i => tileRes (4 * (k.th.gid / 4) + i) d.toNat (accrdSpan (k.g a).toNat (k.g b).toNat)))) 3 []
      .unit) := by
  refine runs_of (fun _ => rfl) fun k ⟨ok, team, granted, room⟩ => ?_
  have within : (List.range 4).find? (fun i => decide (tm.granted (4 * (k.th.gid / 4) + i)
      < d.toNat + accrdSpan (k.g a).toNat (k.g b).toNat)) = none :=
    List.find?_eq_none.2 fun i hi => by simpa using granted i (List.mem_range.1 hi)
  refine (if_neg (by simp [ok])).trans ?_
  simp only [team, Bool.false_eq_true, if_false]
  split
  case h_1 i found => exact absurd (found.symm.trans within) (Option.some_ne_none i)
  case h_2 => exact mtxIssue_room room ..

theorem traps_accrd (m : Bool) : Traps (.accrd sw d a b x y m) [⟨a.toNat, 1, x⟩, ⟨b.toNat, 1, y⟩]
    (fun k => accrdOk (k.g a).toNat (k.g b).toNat m = false) 0x01 (illegalInfos 3) :=
  traps_of (fun _ => rfl) fun _ bad => if_pos (by simp [bad])

end

section
variable (sw : Bool) (d a : BitVec 6) (x : Bool) (tm : Team)

theorem runs_mqry_status : Runs (.mqry sw d a x) [⟨a.toNat, 1, x⟩] (fun k => k.team = some tm ∧ k.g a = 0 ∧ SequencerRoom k.s k)
    (fun k => { st := k.s, launch := answerOn 3 d [wordN (mqryWord k.s k.th tm)] }) := by
  refine runs_of (fun _ => rfl) fun k ⟨team, sel, room⟩ => ?_
  simp only [team, sel]
  exact if_neg (Nat.not_le.2 room)

/-- SEL 16 · l + 1 asks for bank l's seed. -/
theorem runs_mqry_seed {l : Nat} (hl : l < 2) : Runs (.mqry sw d a x) [⟨a.toNat, 1, x⟩]
    (fun k => k.team = some tm ∧ (k.g a).toNat = 16 * l + 1 ∧ SequencerRoom k.s k)
    (fun k => { st := k.s, launch := answerOn 3 d [(tm.bank (k.th.gid / 4) l).seed] }) := by
  refine runs_of (fun _ => rfl) fun k ⟨team, sel, room⟩ => ?_
  simp only [team, sel]
  refine (if_neg (Nat.not_le.2 room)).trans ?_
  obtain rfl | rfl : l = 0 ∨ l = 1 := by omega
  · rfl
  · rfl

end

end Sys2Proof.Machine
end

section
/-!
Tile and matrix operations take effect, and bank sets are spilled and served (R296, R302, R303, R309, R313, R315, R316).
-/
namespace Sys2Proof.Machine
set_option Elab.async false

/-! ### Completion (R296, R309, R315, R316) -/

section
variable {s : State} {c id : Nat} {o : MtxOp} {tm : Team}

theorem mtxOperationComplete_ready (h : readyOp s c id = some (o, tm)) :
    exec (.mtxOperationComplete c id) s = .next (performMtx s id o tm) := by
  show Host.Outcome.next _ = _
  rw [h]

theorem performMtx_zeroTiles {gid k span : Nat} (h : o.kind = .zero false gid k span) : performMtx s id o tm =
    finishMtx (modTeam s o.team (fun tm => (range k span).foldl (fun tm i => tm.setTile gid i []) tm)) id o := by
  simp only [performMtx, h]
  rfl

theorem performMtx_zeroBitmap {gid k span : Nat} (h : o.kind = .zero true gid k span) : performMtx s id o tm =
    finishMtx (modTeam s o.team (fun tm => tm.setBmp gid k (memOf 0 (List.replicate 1024 255)))) id o := by
  simp only [performMtx, h]
  rfl

theorem performMtx_accz {l : Nat} (h : o.kind = .accz l) : performMtx s id o tm =
    finishMtx (modTeam s o.team (fun tm => tm.modBank o.quad l (fun b => { b with img := [], seed := 0 }))) id o := by
  simp only [performMtx, h]

theorem performMtx_loaded {gid k : Nat} {bs : List Byte} (h : o.kind = .load false gid k) (hd : o.data = some bs) :
    performMtx s id o tm = finishMtx (modTeam s o.team (fun tm => tm.setTile gid k (memOf 0 bs))) id o := by
  simp only [performMtx, h, loadedBytes, hd]
  rfl

theorem performMtx_accrdReg {row col fmt l mode t : Nat} {sat : Bool} {f : Flight}
    (h : o.kind = .accrdReg row col fmt sat l mode) (hp : o.parts = [t]) (hf : unitFlight s t id = some f) :
    performMtx s id o tm = finishMtx (deliverFlight s t f
      [if fwR fmt = 8 then word (sx (accRead (tm.bank o.quad l) row col fmt sat mode) 8)
        else wordN (accRead (tm.bank o.quad l) row col fmt sat mode)]) id o := by
  simp only [performMtx, h, hp, List.foldl_cons, List.foldl_nil, hf, beq_iff_eq]

theorem performMtx_accrd {d fmt n l mode : Nat} {sat : Bool} (h : o.kind = .accrd d fmt n sat l mode) :
    performMtx s id o tm = finishMtx (modTeam s o.team (fun x => (List.range 4).foldl (fun x q =>
      x.setImage (4 * o.quad + q) d (accImage (tm.bank o.quad l) q fmt n sat mode)) x)) id o := by
  simp only [performMtx, h]

theorem matrixEvents_notReady (h : readyOp s c id = none) :
    exec (.mtxOperationComplete c id) s = .next s ∧ exec (.matrixOpCompletion c id) s = .next s := by
  constructor
  all_goals
    show Host.Outcome.next _ = _
    rw [h]

end

/-! ### The end of an operation -/

section
variable {s : State} {id t : Nat} {o : MtxOp} {th : Thread} {f : Flight}

theorem settleHeirs_of_none (h : s.heirs = []) : settleHeirs s = s := by rw [settleHeirs, h, List.foldl_nil]

theorem rejudgeCore_of_no_mmac
    (h : ∀ p ∈ s.threads, ∀ l d dv av m more frees, p.2.wait ≠ .rendezvous l 0x308 d dv av m more frees) (c : Nat) :
    rejudgeCore s c = s := by
  unfold rejudgeCore
  refine List.foldlRecOn (motive := (· = s)) _ _ rfl fun s' same p _ => ?_
  rw [same, rejudge_of_no_mmac h]

theorem mem_kset {α : Type} {m : KMap α} {i : Nat} {v : α} {p : Nat × α} (h : p ∈ kset m i v) : p = (i, v) ∨ p ∈ m := by
  induction m with
  | nil => exact .inl (List.mem_singleton.1 h)
  | cons q m ih =>
    obtain ⟨k, w⟩ := q
    unfold kset at h
    split at h
    · exact List.mem_cons.1 h
    · split at h
      · exact (List.mem_cons.1 h).imp_right (List.mem_cons_of_mem _)
      · rcases List.mem_cons.1 h with rfl | h
        · exact .inr List.mem_cons_self
        · exact (ih h).imp_right (List.mem_cons_of_mem _)

/-- What every thread meets still holds of every thread where one is changed and meets it. -/
theorem forall_threads_modThread {q : Thread → Prop} {g : Thread → Thread} (h : ∀ p ∈ s.threads, q p.2)
    (hg : ∀ th, q th → q (g th)) : ∀ p ∈ (modThread s t g).threads, q p.2 := by
  intro p hp
  cases ht : thread? s t with
  | none => exact h p (modThread_none g ht ▸ hp)
  | some th =>
    rw [modThread_eq g ht] at hp
    rcases mem_kset hp with rfl | hp
    · exact hg th (h _ (mem_of_kget ht))
    · exact h p hp

theorem Thread.wait_unitDone (th : Thread) (f : Flight) (pts : Nat) : (th.unitDone f pts).wait = th.wait := by
  rw [Thread.unitDone, Thread.retire_eq]

theorem Thread.evicted_unitDone (th : Thread) (f : Flight) (pts : Nat) : (th.unitDone f pts).evicted = th.evicted := by
  rw [Thread.unitDone, Thread.retire_eq]

/-- The state in which an operation has left the sequencer and its thread's counter has fallen. -/
def opEnded (s : State) (id t : Nat) (f : Flight) (pts : Nat) : State :=
  modThread { s with mtx := kdel s.mtx id } t (fun th => th.unitDone f pts)

theorem thread_opEnded (ht : thread? s t = some th) (pts : Nat) : thread? (opEnded s id t f pts) t = some (th.unitDone f pts) :=
  kget_kmod_same _ ht

/-- The end of an operation of one thread judges the accesses of ended threads and the rendezvous that wait. -/
theorem finishMtx_one (hp : o.parts = [t]) (hf : unitFlight s t id = some f) : finishMtx s id o =
    rejudgeCore (settleHeirs (replyToRecord (opEnded s id t f o.pts) t []))
      (((team? (replyToRecord (opEnded s id t f o.pts) t []) o.team).map (·.core)).getD 0) := by
  have flight : unitFlight { s with mtx := kdel s.mtx id } t id = some f := hf
  unfold finishMtx
  dsimp only
  rw [hp, List.foldl_cons, List.foldl_nil, flight]
  rfl

/-- Where no other access and no rendezvous waits, nothing else moves. -/
theorem finishMtx_alone (hp : o.parts = [t]) (ht : thread? s t = some th) (he : th.evicted = false)
    (hf : unitFlight s t id = some f) (hh : s.heirs = [])
    (hm : ∀ p ∈ s.threads, ∀ l d dv av m more frees, p.2.wait ≠ .rendezvous l 0x308 d dv av m more frees) :
    finishMtx s id o = opEnded s id t f o.pts := by
  have here : ∀ th', thread? (opEnded s id t f o.pts) t = some th' → th'.evicted = false := by
    intro th' h
    cases (thread_opEnded ht o.pts).symm.trans h
    exact (th.evicted_unitDone f o.pts).trans he
  have heirs : (opEnded s id t f o.pts).heirs = [] := hh
  have unmet : ∀ p ∈ (opEnded s id t f o.pts).threads, ∀ l d dv av m more frees,
      p.2.wait ≠ .rendezvous l 0x308 d dv av m more frees :=
    forall_threads_modThread (s := { s with mtx := kdel s.mtx id })
      (q := fun th => ∀ l d dv av m more frees, th.wait ≠ .rendezvous l 0x308 d dv av m more frees) hm
      fun th h => by rwa [Thread.wait_unitDone]
  rw [finishMtx_one hp hf, replyToRecord_here here, settleHeirs_of_none heirs, rejudgeCore_of_no_mmac unmet]

theorem counter_finishMtx (hp : o.parts = [t]) (ht : thread? s t = some th) (he : th.evicted = false)
    (hf : unitFlight s t id = some f) (hh : s.heirs = [])
    (hm : ∀ p ∈ s.threads, ∀ l d dv av m more frees, p.2.wait ≠ .rendezvous l 0x308 d dv av m more frees) (hec : f.ec < 6) :
    (thread? (finishMtx s id o) t).map (fun h => h.counter f.ec) = some (th.counter f.ec - 1) := by
  rw [finishMtx_alone hp ht he hf hh hm, thread_opEnded ht]
  exact congrArg some (Thread.counter_unitDone f o.pts hec)

end

/-! ### Matrix ops (R302, R313) -/

/-- The state in which a matrix op has written its bank's image and seed. -/
def mmaWritten (s : State) (o : MtxOp) (tm : Team) (b : MmaBlock) : State :=
  modTeam s o.team (fun x => x.modBank o.quad b.bank (fun k => { k with img := mmaImage k.img (mmaOutputs tm o.quad b), seed := b.seed }))

section
variable {s : State} {c id : Nat} {o : MtxOp} {tm : Team} {b : MmaBlock}

theorem matrixOpCompletion_ready (h : readyOp s c id = some (o, tm)) (hk : o.kind = .mma b) :
    exec (.matrixOpCompletion c id) s = .next (completeMma s id o tm b) := by
  show Host.Outcome.next _ = _
  simp only [h, hk]

theorem matrixNan_untrapped (h : fwNanTrap b.fmt = false) (s : State) (os : List (Nat × Nat × Acc)) : matrixNan s o b os = s := by
  simp [matrixNan, h]

theorem completeMma_uncounted (ha : b.aen = false) (hn : fwNanTrap b.fmt = false) :
    completeMma s id o tm b = finishMtx (mmaWritten s o tm b) id o := by
  unfold completeMma
  simp only [ha, Bool.false_eq_true, if_false]
  exact matrixNan_untrapped hn _ _

theorem completeMma_counted {a : Arrival} (ha : b.aen = true) (hw : tm.arrivals.find? (fun a => a.idx == b.aidx) = some a)
    (hn : fwNanTrap b.fmt = false) :
    completeMma s id o tm b = finishMtx (arrivalAdd (mmaWritten s o tm b) o.team a.off 1 o.pts) id o := by
  unfold completeMma
  simp only [ha, if_true, hw]
  exact matrixNan_untrapped hn _ _

theorem completeMma_nan {k n m t : Nat} {ts : List Nat} (ha : b.aen = false) (hn : fwNanTrap b.fmt = true)
    (hf : firstNan (mmaOutputs tm o.quad b) = some (k, n, m)) (hp : o.parts = t :: ts)
    (ht : thread? (finishMtx (mmaWritten s o tm b) id o) t ≠ none) :
    completeMma s id o tm b = raiseAsync (finishMtx (mmaWritten s o tm b) id o) t 0x21
      [wordN (m / 16 * 2 ^ 16 + m * 2 ^ 8 + n), wordN k, wordN b.fmt, wordN b.tag] := by
  have first : o.parts.find? (fun t => (thread? (finishMtx (mmaWritten s o tm b) id o) t).isSome) = some t := by
    rw [hp]
    exact List.find?_cons_of_pos (Option.isSome_iff_ne_none.2 ht)
  unfold completeMma
  simp only [ha, Bool.false_eq_true, if_false]
  show matrixNan (finishMtx (mmaWritten s o tm b) id o) o b _ = _
  simp only [matrixNan, hn, if_true, hf, first]
  rfl

end

/-! ### Bank sets (R303) -/

section
variable {s : State} {c set : Nat}

theorem bankSpill_unwanted (h : waitingBank s c (set % 2 == 1) = none) : exec (.bankSpill c set) s = .next s := by
  show Host.Outcome.next _ = _
  dsimp only
  rw [h]
  cases ((core s c).bankSet (set % 2 == 1)).holder <;> rfl

theorem bankSpill_busy {t key : Nat} (hh : ((core s c).bankSet (set % 2 == 1)).holder = some (t, key))
    (busy : ∃ p ∈ s.mtx, p.2.team = t ∧ p.2.bank? = some key) : exec (.bankSpill c set) s = .next s := by
  have busy : s.mtx.any (fun p => p.2.team == t && p.2.bank? == some key) = true := by
    simpa only [List.any_eq_true, Bool.and_eq_true, beq_iff_eq] using busy
  show Host.Outcome.next _ = _
  cases hw : waitingBank s c (set % 2 == 1) with
  | none => simp only [hh, hw]
  | some w => simp only [hh, hw, busy, if_true]

theorem bankSpill_idle {t key : Nat} {w : Nat × Nat × Nat} (hh : ((core s c).bankSet (set % 2 == 1)).holder = some (t, key))
    (hw : waitingBank s c (set % 2 == 1) = some w) (idle : ∀ p ∈ s.mtx, ¬ (p.2.team = t ∧ p.2.bank? = some key)) :
    exec (.bankSpill c set) s = .next (serveSet (modCore (spillBank s t key) c (fun k =>
      k.modSet (set % 2 == 1) (fun b => { b with holder := none }))) c (set % 2 == 1)) := by
  have idle : s.mtx.any (fun p => p.2.team == t && p.2.bank? == some key) = false := by
    simpa only [List.any_eq_false, Bool.and_eq_true, beq_iff_eq] using idle
  show Host.Outcome.next _ = _
  simp only [hh, hw, idle, Bool.false_eq_true, if_false]

theorem serveSet_free {one : Bool} {id team key : Nat} (hh : ((core s c).bankSet one).holder = none)
    (hw : waitingBank s c one = some (id, team, key)) (hl : setLost s c one = false) :
    serveSet s c one = assignSet s c one team key id := by
  simp only [serveSet, hh, hw, hl, Bool.false_eq_true, if_false]

/-- A spilled bank bears its mark. -/
theorem bank_spillBank {t key : Nat} {tm : Team} (h : team? s t = some tm) :
    ∃ tm', team? (spillBank s t key) t = some tm' ∧ (tm'.bank (key / 2) (key % 2)).spilled = true := by
  have marked : ∀ b : Bank, b.spilled = true → ∃ tm',
      team? (modTeam s t (fun tm => tm.modBank (key / 2) (key % 2) (fun _ => b))) t = some tm'
        ∧ (tm'.bank (key / 2) (key % 2)).spilled = true := fun b hb =>
    ⟨_, team_modTeam_same _ h, by simp [Team.bank, Team.modBank, kgetD, hb]⟩
  unfold spillBank
  simp only [h]
  split
  · simp only [team?, (OnRecords.storeDevice ..).teams]
    exact marked _ rfl
  · exact marked _ rfl

end

/-! ### What a set holds while a bank is filled -/

/-- A set of a core holds this bank. -/
def SetHolds (c : Nat) (one : Bool) (h : Option (Nat × Nat)) (s : State) : Prop := ((core s c).bankSet one).holder = h

section
variable {s : State} {c : Nat} {one : Bool} {h : Option (Nat × Nat)}

theorem SetHolds.modCore {i : Nat} {f : Core → Core} (hf : ∀ k, (f k).bankSet one = k.bankSet one) (hs : SetHolds c one h s) :
    SetHolds c one h (modCore s i f) := by
  by_cases hi : c = i
  · subst hi
    rw [SetHolds, core_modCore, hf]
    exact hs
  · have same : core (Machine.modCore s i f) c = core s c := (kgetD_kset ..).trans (if_neg hi)
    rw [SetHolds, same]
    exact hs

theorem SetHolds.tagVictims {p : Nat} {ls : List Nat} (hs : SetHolds c one h s) : SetHolds c one h (tagVictims s p ls) :=
  iteInduction (motive := SetHolds c one h) (fun _ => hs.modCore fun _ => rfl) fun _ => hs

theorem SetHolds.countMiss {i l : Nat} (hs : SetHolds c one h s) : SetHolds c one h (countMiss s i l) :=
  iteInduction (motive := SetHolds c one h) (fun _ => hs.modCore fun _ => rfl) fun _ => hs

theorem SetHolds.putCopy {x : Copy} (hs : SetHolds c one h s) : SetHolds c one h (putCopy s x) := hs.tagVictims

theorem SetHolds.sliceVisit {l : Nat} (hs : SetHolds c one h s) : SetHolds c one h (sliceVisit s l) :=
  iteInduction (motive := SetHolds c one h) (fun _ => hs) fun _ => hs

theorem SetHolds.homeLoad {l pts lease : Nat} (hs : SetHolds c one h s) : SetHolds c one h (homeLoad s l pts lease) := hs

theorem SetHolds.noteRead {a : Access} {reader : Nat} (hs : SetHolds c one h s) : SetHolds c one h (noteRead s a reader) := by
  have cores : (Machine.noteRead s a reader).cores = s.cores := (congrArg State.cores (Looked.noteRead s a reader).eq).trans rfl
  unfold SetHolds core
  rw [cores]
  exact hs

theorem SetHolds.ite₃ {α β : Type} {p : Prop} [Decidable p] {x y : α × β × State} (hx : SetHolds c one h x.2.2)
    (hy : SetHolds c one h y.2.2) : SetHolds c one h (if p then x else y).2.2 :=
  iteInduction (motive := fun r : α × β × State => SetHolds c one h r.2.2) (fun _ => hx) fun _ => hy

theorem SetHolds.loadGlob {i pa : Nat} {a : Access} {pts : Nat} {peer : Option Nat} (hs : SetHolds c one h s) :
    SetHolds c one h (loadGlob s i pa a pts peer).2.2 := by
  unfold Machine.loadGlob
  extract_lets l lease st home
  have atHome : ∀ {s keep}, SetHolds c one h s → SetHolds c one h (home s keep).2.2 := fun h' =>
    iteInduction (motive := SetHolds c one h) (fun _ => h'.sliceVisit.homeLoad.putCopy.putCopy) fun _ => h'.sliceVisit.homeLoad
  refine .ite₃ hs (.ite₃ (atHome hs) ?_)
  split
  · exact hs
  · split
    · exact hs.countMiss.putCopy
    · refine .ite₃ (atHome (s := modStation _ _ _) hs.countMiss) ?_
      split
      · exact hs.countMiss.putCopy.putCopy
      · exact atHome hs.countMiss

/-- An access of LPDDR, cut at its lines. -/
theorem glob_of_mem_lines {a b : Access} {pa : Nat} (ha : a.loc = .glob pa) (hb : b ∈ a.lines) : ∃ pa, b.loc = .glob pa := by
  simp only [Access.lines, ha] at hb
  obtain ⟨p, _, rfl⟩ := List.mem_map.1 hb
  exact ⟨_, rfl⟩

theorem SetHolds.loadAt {i : Nat} {a : Access} {pts reader : Nat} {peer : Option Nat} (ha : ∃ pa, a.loc = .glob pa)
    (hs : SetHolds c one h s) : SetHolds c one h (loadAt s i a pts reader peer).2.2 := by
  obtain ⟨pa, ha⟩ := ha
  simp only [Machine.loadAt, ha]
  exact hs.noteRead.loadGlob

theorem SetHolds.loadRange {i pts reader : Nat} {as_ : List Access} (ha : ∀ a ∈ as_, ∃ pa, a.loc = .glob pa)
    (hs : SetHolds c one h s) : SetHolds c one h (loadRange s i pts reader as_).2.2 := by
  refine List.foldlRecOn (motive := fun r : List Byte × Nat × State => SetHolds c one h r.2.2) _ _ hs fun r hr b hb => ?_
  obtain ⟨a, hmem, hb⟩ := List.mem_flatMap.1 hb
  obtain ⟨pa, hpa⟩ := ha a hmem
  exact hr.loadAt (glob_of_mem_lines hpa hb)

/-- Filling a bank from its save area leaves the sets with their banks. -/
theorem SetHolds.fillBank {i team key : Nat} (hs : SetHolds c one h s) : SetHolds c one h (fillBank s i team key) := by
  unfold Machine.fillBank
  split
  · exact hs
  · extract_lets b put
    split
    · exact hs.loadRange (by rintro a (_ | ⟨_, ⟨⟩⟩); exact ⟨_, rfl⟩)
    · exact hs

/-- A set given to a bank holds it. -/
theorem setHolds_assignSet (s : State) (c : Nat) (one : Bool) (team key id : Nat) :
    SetHolds c one (some (team, key)) (assignSet s c one team key id) := by
  have given : SetHolds c one (some (team, key)) (modCore s c (fun k =>
      k.modSet one (fun b => { holder := some (team, key), last := Nat.max b.last id }))) := by
    rw [SetHolds, core_modCore]
    cases one <;> rfl
  exact iteInduction (motive := SetHolds c one (some (team, key))) (fun _ => given) fun _ => given.fillBank

end

/-! ### The obligation -/

/-- Settles O40: every word that passes its checks enters its operation with the registers it reads and writes, an operation
whose turn has come takes effect and leaves the sequencer, and a bank set is spilled and served for the oldest operation that
waits. -/
theorem tileAndMatrixOperations : Obligations.TileAndMatrixOperations := by
  unfold Obligations.TileAndMatrixOperations
  constructor
  · refine ⟨fun _ _ _ _ => ⟨runs_tileLoad fun _ => rfl, traps_tileLoad fun _ => rfl⟩,
      fun _ _ _ _ => ⟨runs_tileLoad fun _ => rfl, traps_tileLoad fun _ => rfl⟩,
      fun _ _ _ _ => runs_tileStore fun _ => rfl, fun _ _ _ _ => runs_tileStore fun _ => rfl,
      runs_accspl, runs_accfil, runs_kzero_tiles, runs_kzero_bitmap, fun sw d _ => traps_kzero_bitmaps sw d,
      fun sw d a b y m => ⟨runs_kcvt sw d a b y m, traps_kcvt sw d a b y m⟩,
      fun sw d a b y m => ⟨runs_kbmp sw d a b y m, traps_kbmp sw d a b y m⟩,
      runs_mmae_octet, runs_mmae_memory, runs_mmac, traps_mmac, runs_accz, runs_accrd_reg, runs_accrd, traps_accrd,
      runs_mqry_status, fun sw d a x tm => runs_mqry_seed sw d a x tm (by decide : 0 < 2),
      fun sw d a x tm => runs_mqry_seed sw d a x tm (by decide : 1 < 2)⟩
  · exact ⟨fun _ _ _ _ _ _ _ _ ready kind => (mtxOperationComplete_ready ready).trans (congrArg _ (performMtx_zeroTiles kind)),
      fun _ _ _ _ _ _ _ ready kind => (mtxOperationComplete_ready ready).trans (congrArg _ (performMtx_zeroBitmap kind)),
      fun _ _ _ _ _ _ ready kind => (mtxOperationComplete_ready ready).trans (congrArg _ (performMtx_accz kind)),
      fun _ _ _ _ _ _ _ _ ready kind data => (mtxOperationComplete_ready ready).trans (congrArg _ (performMtx_loaded kind data)),
      fun _ _ _ _ _ _ _ _ _ _ _ _ _ ready kind parts flight =>
        (mtxOperationComplete_ready ready).trans (congrArg _ (performMtx_accrdReg kind parts flight)),
      fun _ _ _ _ _ _ _ _ _ _ _ ready kind => (mtxOperationComplete_ready ready).trans (congrArg _ (performMtx_accrd kind)),
      fun _ _ _ _ _ _ parts live here flight heirs unmet =>
        ⟨finishMtx_alone parts live here flight heirs unmet, counter_finishMtx parts live here flight heirs unmet⟩,
      fun _ _ _ => matrixEvents_notReady, fun _ _ _ _ _ _ => matrixOpCompletion_ready, fun _ _ _ _ _ => completeMma_uncounted,
      fun _ _ _ _ _ _ => completeMma_counted, fun _ _ _ _ _ _ _ _ _ _ counted trapped nan => completeMma_nan counted trapped nan,
      fun tm gid k bs _ g j => kgetD_kset tm.tileMem (gkey gid k) (gkey g j) bs [],
      fun _ _ _ => bankSpill_unwanted, fun _ _ _ _ _ => bankSpill_busy, fun _ _ _ _ _ _ => bankSpill_idle,
      fun _ _ _ _ _ _ => serveSet_free, setHolds_assignSet, fun _ _ _ _ => bank_spillBank⟩

end Sys2Proof.Machine
end
